-- ==== Sys2Proof/Word.lean ====
section
/-! DEFINITION. The word types of the machine (R5, R62): bytes, 32-bit words and 64-bit words. -/

namespace Sys2Proof

/-- A byte, the smallest addressable unit (R5). -/
abbrev Byte := BitVec 8

/-- A 32-bit word: an instruction word, a literal, one lane of a vector register (R9, R62). -/
abbrev W := BitVec 32

/-- A 64-bit word: a scalar register, an address, a barrier record (R9, R17). -/
abbrev W64 := BitVec 64

end Sys2Proof
end

