-- ==== Sys2Proof/Config.lean ====
section
/-! DEFINITION. The free values: what the spec leaves open, as constants without a body (log entry 8). -/

namespace Sys2Proof.Config

/-- R468: the code of a mailbox request that a rule describes without giving its code, by the rule's number. -/
opaque requestCode : Nat → Nat

/-- R411: the random usage epoch that a loss of power begins. -/
opaque epoch : Nat → W64

/-- R469: the unique device secret of a package, 32 bytes. -/
opaque deviceSecret : Nat → List Byte

/-- R412, R470: the ECDSA P-256 signature, r then s, of a private key over a message; 64 bytes, as a number. -/
opaque sign : Nat → List Byte → BitVec 512

/-- R476, R478: the HBM stack, the bank and the row of a physical address. -/
opaque hbmPlace : Nat → Nat × Nat × Nat

/-- R465: whether the signature of a flash image verifies against the fused key. -/
opaque imageSigned : List Byte → Bool

/-- R465: the security version in the header of a flash image. -/
opaque imageSvn : List Byte → W

/-- R465: whether the length in the header of a flash image fits its slot. -/
opaque imageFits : List Byte → Bool

/-- R465: the stage-1 part of a flash image. -/
opaque imageStage1 : List Byte → List Byte

/-- R465: the runtime part of a flash image. -/
opaque imageRuntime : List Byte → List Byte

/-- R468: the address of the attestation report of a function in its readout pages. -/
opaque reportAddress : Nat → W64

/-- R468: the address of the certificate chain. -/
opaque chainAddress : W64

/-- R469: the bytes of the DeviceID certificate that stands in flash. -/
opaque deviceCertificate : List Byte

/-- R469: the bytes of a certificate by the key that signs it, the key it is about, the measurement and the security
version it carries. -/
opaque certificate : Nat → Nat → List Byte → Nat → List Byte

/-- R411: the flits (index 3) that a sample period has sent on the Causeway ports for an owner, and its share of the energy
(index 4). -/
opaque periodUse : Nat → Nat → Nat → Nat

/-- R454: the highest clock step at which the measured power and temperatures of a period keep a die within its
limits. -/
opaque ceilingStep : Nat → Nat → Nat

/-- R488: the binned sensor seconds of an hour by bin: 128 of temperature, 128 of voltage, then the hub die's 16 of each. -/
opaque sensorBins : Nat → Nat → Nat

/-- R390, R485: where a start places copy 0 or 1 of the journal in the package's memory: 2^20 entries of 64 bytes. -/
opaque journalBase : Nat → Nat

/-- R323: where a start places the watch lists of a die's 256 slices in the package's memory: 128 KiB each. -/
opaque listBase : Nat → Nat

/-- R375, R387: the slot state of a queue that firmware saves in its control block. -/
opaque slotState : Nat → List Byte

/-- R483: whether a logical core of a die fails the self-test of a start. -/
opaque coreFails : Nat → Nat → Nat → Bool

/-- R463: whether a link of a start whose training is incomplete has trained. -/
opaque linkTrains : Nat → Nat → Bool

/-- R480: whether post-package repair of a recorded row succeeds at a start. -/
opaque rowRepairs : Nat → Nat → Nat → Nat → Bool

/-- R389: the largest one-way transit, in ticks, between two of the packages of a gang. -/
opaque gangTransit : List Nat → Nat

/-- R2, R283: the set of its slice of a remote data cache in which a line of a domain is kept. -/
opaque rdcSet : Nat → Nat → Nat

/-- R283: the way of a full set of a remote data cache that gives up its line. -/
opaque rdcWay : Nat → Nat

/-- R2, R232: whether another package belongs to the domain of this one. -/
opaque inDomain : Nat → Bool

/-- R24: what %wstat, %txstat or %trapinfo reads after an eviction that did not save it. -/
opaque lostWord : Nat → W64

/-- R365: the largest one-way transit, in clk, between two packages of the domain, from which H6 sets T_pod. -/
opaque podTransit : Nat

end Sys2Proof.Config
end

