-- ==== Sys2Proof/Machine/Bits.lean ====
section
/-! DEFINITION. Bit fields, sign extension, byte order, lane masks and canonical sparse maps. -/

namespace Sys2Proof.Machine

/-- The bits [hi:lo] of a number (R5). -/
def bitsOf (n hi lo : Nat) : Nat := n / 2 ^ lo % 2 ^ (hi + 1 - lo)

/-- Bit i of a number (R5). -/
def bitOf (n i : Nat) : Bool := n / 2 ^ i % 2 == 1

/-- The number with the bits [hi:lo] replaced by v (R5). -/
def setBits (n hi lo v : Nat) : Nat :=
  n - bitsOf n hi lo * 2 ^ lo + (v % 2 ^ (hi + 1 - lo)) * 2 ^ lo

/-- A w-bit pattern read as two's complement (R35). -/
def toSigned (w n : Nat) : Int :=
  if n % 2 ^ w < 2 ^ (w - 1) then (n % 2 ^ w : Nat) else (n % 2 ^ w : Nat) - (2 ^ w : Nat)

/-- An integer modulo 2^w, as an unsigned number (R45). -/
def wrapInt (w : Nat) (i : Int) : Nat := (i % (2 ^ w : Nat)).toNat

/-- A word sign-extended to 64 bits (R87). -/
def sext64 (w : W) : W64 := w.signExtend 64

/-- A word zero-extended to 64 bits (R87). -/
def zext64 (w : W) : W64 := w.setWidth 64

/-- The low word of a 64-bit value (R12). -/
def lowWord (x : W64) : W := x.setWidth 32

/-- The high word of a 64-bit value (R12). -/
def highWord (x : W64) : W := (x >>> 32).setWidth 32

/-- A 64-bit value from its high and low words: a pair holds the low word in the even register (R12). -/
def joinWords (hi lo : W) : W64 := hi ++ lo

/-- The bytes of a number, least significant first (R5). -/
def natToBytes : Nat → Nat → List Byte
  | 0, _ => []
  | n + 1, x => BitVec.ofNat 8 x :: natToBytes n (x / 256)

/-- The number a list of bytes stands for, least significant first (R5). -/
def bytesToNat : List Byte → Nat
  | [] => 0
  | b :: bs => b.toNat + 256 * bytesToNat bs

/-- The 32 lane numbers, ascending (R7). -/
def laneList : List Nat := List.range 32

/-- Whether a lane is in a mask (R7). -/
def inMask (m : W) (l : Nat) : Bool := m.getLsbD l

/-- The lanes of a mask in ascending order (R7). -/
def lanesOf (m : W) : List Nat := laneList.filter (inMask m)

/-- The number of lanes in a mask. -/
def maskCount (m : W) : Nat := (lanesOf m).length

/-- The mask whose bit l is f l (R101). -/
def maskOf (f : Nat → Bool) : W :=
  laneList.foldl (fun acc l => if f l then acc ||| BitVec.ofNat 32 (2 ^ l) else acc) 0

/-- The mask holding one lane. -/
def laneBit (l : Nat) : W := BitVec.ofNat 32 (2 ^ l)

/-- A sparse map from numbers to values: pairs with keys strictly rising, no value equal to the default. -/
abbrev SMap (α : Type) := List (Nat × α)

/-- The value of a key, the default d where the map lists none. -/
def mapGet {α : Type} (d : α) (m : SMap α) (k : Nat) : α :=
  match m.find? (fun p => p.1 == k) with
  | some p => p.2
  | none => d

/-- Puts a pair before the first pair with a greater key. -/
def mapInsert {α : Type} (k : Nat) (v : α) : SMap α → SMap α
  | [] => [(k, v)]
  | p :: m => if k < p.1 then (k, v) :: p :: m else p :: mapInsert k v m

/-- The map with a key's value replaced; writing the default removes the pair. -/
def mapSet {α : Type} [DecidableEq α] (d : α) (m : SMap α) (k : Nat) (v : α) : SMap α :=
  if v = d then m.filter (fun p => p.1 != k) else mapInsert k v (m.filter (fun p => p.1 != k))

/-- The first element of a list that satisfies a test, replaced by its image. -/
def updateFirst {α : Type} (p : α → Bool) (f : α → α) : List α → List α
  | [] => []
  | x :: xs => if p x then f x :: xs else x :: updateFirst p f xs

/-- The elements satisfying a test, each replaced by its image. -/
def updateAll {α : Type} (p : α → Bool) (f : α → α) (xs : List α) : List α :=
  xs.map (fun x => if p x then f x else x)

/-- Whether a list of numbers holds a number. -/
def memNat (n : Nat) (xs : List Nat) : Bool := xs.any (fun x => x == n)

/-- The number of bits needed to write a number. -/
def bitLen (n : Nat) : Nat := if n = 0 then 0 else Nat.log2 n + 1

/-- Counts the 1 bits of a number in its low w bits (R108). -/
def popCount : Nat → Nat → Nat
  | 0, _ => 0
  | w + 1, n => n % 2 + popCount w (n / 2)

/-- The position of the lowest 1 bit in the low w bits, w where there is none (R108). -/
def lowestBit : Nat → Nat → Nat
  | 0, _ => 0
  | w + 1, n => if n % 2 = 1 then 0 else 1 + lowestBit w (n / 2)

/-- The bits of a w-bit number in reverse order (R108). -/
def reverseBits : Nat → Nat → Nat
  | 0, _ => 0
  | w + 1, n => (n % 2) * 2 ^ w + reverseBits w (n / 2)

/-- A list cut or filled with a default to a length. -/
def fitTo {α : Type} (d : α) (n : Nat) (xs : List α) : List α :=
  (xs ++ List.replicate (n - xs.length) d).take n

/-- The element of a list at a place, or a default. -/
def nthD {α : Type} (d : α) (xs : List α) (i : Nat) : α := (xs[i]?).getD d

end Sys2Proof.Machine
end

