-- ==== Sys2Proof/Syntax.lean ====
section
/-! DEFINITION. The instructions and events of the machine, as syntax. -/

namespace Sys2Proof

/-- A vector source: a vector register, or the literal word (R99). -/
inductive VSrc
  | reg (n : Nat)
  | lit (w : W)
  deriving DecidableEq, Repr

/-- The second vector source: a vector register, a scalar register, or the literal word (R75, R99). -/
inductive BSrc
  | reg (n : Nat)
  | sca (n : Nat)
  | lit (w : W)
  deriving DecidableEq, Repr

/-- A scalar source: a scalar register, or the literal word (R76, R130). -/
inductive SSrc
  | reg (n : Nat)
  | lit (w : W)
  deriving DecidableEq, Repr

/-- A source common to all lanes: a scalar register, or the literal word (R134). -/
inductive USrc
  | sca (n : Nat)
  | lit (w : W)
  deriving DecidableEq, Repr

/-- The operands d, a, b of the V format (R75). -/
structure V3 where
  d : Nat
  a : VSrc
  b : BSrc
  deriving DecidableEq, Repr

/-- The operands d, a of the V format (R75). -/
structure V2 where
  d : Nat
  a : VSrc
  deriving DecidableEq, Repr

/-- The operands of a compare: a mask register k0 to k7 and two sources (R76). -/
structure K3 where
  k : Nat
  a : VSrc
  b : BSrc
  deriving DecidableEq, Repr

/-- The operands of a rounding conversion: rounding code and saturation (R77). -/
structure C2 where
  d : Nat
  a : VSrc
  rnd : Nat
  sat : Bool
  deriving DecidableEq, Repr

/-- The operands of a packing conversion, which reads consecutive registers from a (R127). -/
structure P2 where
  d : Nat
  a : Nat
  rnd : Nat
  sat : Bool
  deriving DecidableEq, Repr

/-- The operands of an unpacking conversion: the source element is elem (R77, R128). -/
structure U2 where
  d : Nat
  a : VSrc
  elem : Nat
  deriving DecidableEq, Repr

/-- The operands of a lane exchange (R134, R136). -/
structure X3 where
  d : Nat
  a : VSrc
  b : USrc
  deriving DecidableEq, Repr

/-- The operands of mnz: a mask operand and a source (R140). -/
structure MnzOp where
  k : Nat
  a : VSrc
  deriving DecidableEq, Repr

/-- Three mask operands: 0 to 7 name k0 to k7, 8 names em (R76). -/
structure M3 where
  k : Nat
  a : Nat
  b : Nat
  deriving DecidableEq, Repr

/-- Two mask operands (R76). -/
structure M2 where
  k : Nat
  a : Nat
  deriving DecidableEq, Repr

/-- A scalar destination and a mask source (R141). -/
structure MaskToScalar where
  d : Nat
  a : Nat
  deriving DecidableEq, Repr

/-- A mask destination and a scalar or literal source (R141). -/
structure MaskFrom where
  k : Nat
  a : SSrc
  deriving DecidableEq, Repr

/-- The operands d, a, b of a scalar instruction (R130). -/
structure S3 where
  d : Nat
  a : SSrc
  b : SSrc
  deriving DecidableEq, Repr

/-- The operands d, a of a scalar instruction (R130). -/
structure S2 where
  d : Nat
  a : SSrc
  deriving DecidableEq, Repr

/-- An M-format address: scalar base, vector or literal offset, and the shift of the offset (R78). -/
structure MAddr where
  base : Nat
  off : VSrc
  scale : Nat
  deriving DecidableEq, Repr

/-- A vector load or an aperture conversion (R78, R145, R150). -/
structure LdOp where
  d : Nat
  mem : MAddr
  deriving DecidableEq, Repr

/-- A vector store; the data is a register or the literal word (R78, R146). -/
structure StOp where
  data : VSrc
  mem : MAddr
  deriving DecidableEq, Repr

/-- A parameter load: window, literal offset and its shift (R147). -/
structure LpOp where
  d : Nat
  win : Nat
  off : W
  scale : Nat
  deriving DecidableEq, Repr

/-- A scalar load or store: base register, literal offset and its shift (R148). -/
structure SlOp where
  d : Nat
  base : Nat
  off : W
  scale : Nat
  deriving DecidableEq, Repr

/-- A prefetch (R149). -/
structure PfOp where
  mem : MAddr
  deriving DecidableEq, Repr

/-- An aperture test with a mask register k0 to k7 as destination (R150). -/
structure AtestOp where
  k : Nat
  mem : MAddr
  deriving DecidableEq, Repr

/-- An atomic; the operand is the register that also receives the old value, or the literal word of the
discard form (R151). -/
structure AtomOp where
  d : VSrc
  mem : MAddr
  deriving DecidableEq, Repr

/-- A compare-and-swap (R152). -/
structure CasOp where
  d : Nat
  mem : MAddr
  deriving DecidableEq, Repr

/-- A copy of the P format: source pair, destination pair, barrier register, size code and the flags nt
and acc (R79, R156). -/
structure CpOp where
  src : Nat
  dst : Nat
  bar : Nat
  size : Nat
  nt : Bool
  acc : Bool
  deriving DecidableEq, Repr

/-- What the first and the second read of a line found (R473, R474). -/
inductive EccResult
  | clean
  | soft
  | persistent
  | uncorrectable
  deriving DecidableEq, Repr

/-- The array and the word an SRAM error is in (R477). -/
inductive SramSite
  | l2 (die slice line : Nat)
  | rdc (die dom line : Nat)
  | storeEntry (entry : Nat)
  | watchEntry (entry : Nat)
  | mordantSlot (die slot : Nat)
  | registerFile (gid reg lane : Nat)
  | coreStore (span word : Nat)
  | quadStore (span word : Nat)
  | planeBlock (span core handle idx : Nat)
  | tileWord (span core tile word : Nat)
  | firmware (hart : Nat)
  deriving DecidableEq, Repr

/-- A register a plain write can name (R5): who may write it is its access code. -/
inductive RegSel
  | bootStatus
  | fmode (gid : Nat)
  | flags (gid : Nat)
  | rng (gid lane : Nat)
  | live (gid : Nat)
  | barrier (span idx : Nat)
  | partitionEntry (die quad : Nat)
  | contextWord (ctx offset : Nat)
  | domainWord (ctx offset : Nat)
  | slotQuota (part : Nat)
  | keyId (key : Nat)
  | doorbellBase
  deriving DecidableEq, Repr

/-- A mapping H3 writes into a context's stage-1 tables: the leaf entry and the number of consecutive
entries, with the frames H3 allots to missing table pages (R416, R417, R425). -/
structure MapReq where
  func : Nat
  seq : Nat
  ctx : Nat
  va : Nat
  level : Nat
  leaf : W64
  count : Nat
  tables : List Nat
  deriving DecidableEq, Repr

/-- What firmware gives a new context: its context record and its translation domain record
(R394, R414). -/
structure CtxReq where
  ctx : Nat
  asid : Nat
  owner : Nat
  part : Nat
  save : Nat
  lslots : Nat
  sslots : Nat
  lbase : Nat
  fqbase : Nat
  fqlen : Nat
  seed : W
  flags : Nat
  colls : Nat
  tags : List (Nat × Nat)
  flush : Nat
  func : Nat
  root1 : Nat
  stage2 : Nat
  tagdom : Nat
  mthresh : Option Nat
  loop : Option (List Byte)
  deriving DecidableEq, Repr

/-- One constructor for each row of spec/opcode_table.json: the instruction words, then the whole
indivisible operations and events of the agents that act without an instruction word. -/
inductive Instr
  /-- R104: Adds two 32-bit integers modulo 2^32 in each active lane. -/
  | addI32 (o : V3)
  /-- R104: Subtracts two 32-bit integers modulo 2^32 in each active lane. -/
  | subI32 (o : V3)
  /-- R104: Signed saturating 32-bit add; sets saturate when it clamps. -/
  | addSatI32 (o : V3)
  /-- R104: Signed saturating 32-bit subtract; sets saturate when it clamps. -/
  | subSatI32 (o : V3)
  /-- R104: Unsigned saturating 32-bit add. -/
  | addSatN32 (o : V3)
  /-- R104: Unsigned saturating 32-bit subtract. -/
  | subSatN32 (o : V3)
  /-- R104: Adds 64-bit pairs modulo 2^64. -/
  | addI64 (o : V3)
  /-- R104: Subtracts 64-bit pairs modulo 2^64. -/
  | subI64 (o : V3)
  /-- R105: Low 32 bits of the product. -/
  | mulLoI32 (o : V3)
  /-- R105: High 32 bits of the signed product. -/
  | mulHiI32 (o : V3)
  /-- R105: High 32 bits of the unsigned product. -/
  | mulHiN32 (o : V3)
  /-- R105: Full 64-bit signed product into a pair. -/
  | mulWideI32 (o : V3)
  /-- R105: Full 64-bit unsigned product into a pair. -/
  | mulWideN32 (o : V3)
  /-- R106: Signed minimum. -/
  | minI32 (o : V3)
  /-- R106: Signed maximum. -/
  | maxI32 (o : V3)
  /-- R106: Unsigned minimum. -/
  | minN32 (o : V3)
  /-- R106: Unsigned maximum. -/
  | maxN32 (o : V3)
  /-- R106: Unsigned absolute difference. -/
  | absdiffN32 (o : V3)
  /-- R106: Unsigned rounded-up average in 33 bits. -/
  | avgN32 (o : V3)
  /-- R107: Bitwise and. -/
  | andB32 (o : V3)
  /-- R107: Bitwise or. -/
  | orB32 (o : V3)
  /-- R107: Bitwise exclusive or. -/
  | xorB32 (o : V3)
  /-- R107: A and not B. -/
  | andnB32 (o : V3)
  /-- R107: Logical left shift, 0 for counts of 32 or more. -/
  | shlB32 (o : V3)
  /-- R107: Logical right shift. -/
  | shrB32 (o : V3)
  /-- R107: Arithmetic right shift. -/
  | sraI32 (o : V3)
  /-- R107: Rotate left by count mod 32. -/
  | rotlB32 (o : V3)
  /-- R107: 64-bit left shift of a pair by a 32-bit count. -/
  | shlB64 (o : V3)
  /-- R107: 64-bit logical right shift of a pair. -/
  | shrB64 (o : V3)
  /-- R108: Counts one bits. -/
  | popcB32 (o : V2)
  /-- R108: Counts leading zeros. -/
  | clzB32 (o : V2)
  /-- R108: Counts trailing zeros. -/
  | ctzB32 (o : V2)
  /-- R108: Reverses the bit order. -/
  | brevB32 (o : V2)
  /-- R109: Extracts an unsigned bit field. -/
  | bfeN32 (o : V3)
  /-- R109: Extracts a sign-extended bit field. -/
  | bfeI32 (o : V3)
  /-- R110: Writes a mask of lanes where A equals B. -/
  | cmpEqI32 (o : K3)
  /-- R110: Mask of lanes where A differs from B. -/
  | cmpNeI32 (o : K3)
  /-- R110: Mask of signed A < B. -/
  | cmpLtI32 (o : K3)
  /-- R110: Mask of signed A <= B. -/
  | cmpLeI32 (o : K3)
  /-- R110: Mask of unsigned A < B. -/
  | cmpLtN32 (o : K3)
  /-- R110: Mask of unsigned A <= B. -/
  | cmpLeN32 (o : K3)
  /-- R110: Mask of 64-bit A = B. -/
  | cmpEqI64 (o : K3)
  /-- R110: Mask of signed 64-bit A < B. -/
  | cmpLtI64 (o : K3)
  /-- R110: Mask of unsigned 64-bit A < B. -/
  | cmpLtN64 (o : K3)
  /-- R111: f32 add rounded under dynamic mode. -/
  | faddF32 (o : V3)
  /-- R111: f32 subtract. -/
  | fsubF32 (o : V3)
  /-- R111: f32 multiply. -/
  | fmulF32 (o : V3)
  /-- R112: f32 minimum, NaN-propagating. -/
  | fminF32 (o : V3)
  /-- R112: f32 maximum, NaN-propagating. -/
  | fmaxF32 (o : V3)
  /-- R112: f32 minimum ignoring a single NaN. -/
  | fminnF32 (o : V3)
  /-- R112: f32 maximum ignoring a single NaN. -/
  | fmaxnF32 (o : V3)
  /-- R113: Clears the sign bit. -/
  | fabsF32 (o : V2)
  /-- R113: Inverts the sign bit. -/
  | fnegF32 (o : V2)
  /-- R114: Writes a one-hot class word. -/
  | fclassF32 (o : V2)
  /-- R115: Multiplies by 2^n with one rounding. -/
  | fscaleF32 (o : V3)
  /-- R116: Mask of f32 A = B. -/
  | fcmpEqF32 (o : K3)
  /-- R116: Mask of f32 A < B; NaN sets invalid. -/
  | fcmpLtF32 (o : K3)
  /-- R116: Mask of f32 A <= B. -/
  | fcmpLeF32 (o : K3)
  /-- R116: Mask of lanes where either input is NaN. -/
  | fcmpUnF32 (o : K3)
  /-- R117: Packed binary16 add. -/
  | faddF16x2 (o : V3)
  /-- R117: Packed binary16 subtract. -/
  | fsubF16x2 (o : V3)
  /-- R117: Packed binary16 multiply. -/
  | fmulF16x2 (o : V3)
  /-- R117: Packed bfloat16 add. -/
  | faddBf16x2 (o : V3)
  /-- R117: Packed bfloat16 subtract. -/
  | fsubBf16x2 (o : V3)
  /-- R117: Packed bfloat16 multiply. -/
  | fmulBf16x2 (o : V3)
  /-- R117: Packed bfloat16 maximum. -/
  | fmaxBf16x2 (o : V3)
  /-- R117: Packed bfloat16 minimum. -/
  | fminBf16x2 (o : V3)
  /-- R118: f64 add. -/
  | faddF64 (o : V3)
  /-- R118: f64 subtract. -/
  | fsubF64 (o : V3)
  /-- R118: f64 multiply. -/
  | fmulF64 (o : V3)
  /-- R118: f64 minimum. -/
  | fminF64 (o : V3)
  /-- R118: f64 maximum. -/
  | fmaxF64 (o : V3)
  /-- R116: Mask of f64 A < B. -/
  | fcmpLtF64 (o : K3)
  /-- R116: Mask of f64 A = B. -/
  | fcmpEqF64 (o : K3)
  /-- R119: Fused A*B+D in f32. -/
  | fmaF32 (o : V3)
  /-- R119: Fused D-A*B in f32. -/
  | fnmaF32 (o : V3)
  /-- R119: Packed binary16 fused multiply-add. -/
  | fmaF16x2 (o : V3)
  /-- R119: Packed bfloat16 fused multiply-add. -/
  | fmaBf16x2 (o : V3)
  /-- R119: f64 fused multiply-add. -/
  | fmaF64 (o : V3)
  /-- R120: Two-term bfloat16 dot product added to f32, one rounding. -/
  | fdot2F32Bf16 (o : V3)
  /-- R120: Two-term binary16 dot product added to f32. -/
  | fdot2F32F16 (o : V3)
  /-- R121: Integer multiply-add, low 32 bits. -/
  | madLoI32 (o : V3)
  /-- R121: High unsigned product plus D. -/
  | madHiN32 (o : V3)
  /-- R121: Unsigned wide multiply-add into a pair. -/
  | madWideN32 (o : V3)
  /-- R122: Inserts low bits of A into a field of D. -/
  | bfiB32 (o : V3)
  /-- R123: Signed byte dot product accumulated into D. -/
  | bdot4I32I8 (o : V3)
  /-- R123: Unsigned byte dot product accumulated into D. -/
  | bdot4I32N8 (o : V3)
  /-- R124: Copies 32 bits. -/
  | movB32 (o : V2)
  /-- R124: Copies a 64-bit pair. -/
  | movB64 (o : V2)
  /-- R125: Signed 32-bit integer to f32. -/
  | cvtF32I32 (o : C2)
  /-- R125: Unsigned 32-bit integer to f32. -/
  | cvtF32N32 (o : C2)
  /-- R125: f32 to signed integer under R46. -/
  | cvtI32F32 (o : C2)
  /-- R125: f32 to unsigned integer under R46. -/
  | cvtN32F32 (o : C2)
  /-- R126: Rounds f32 to an integral value. -/
  | froundF32 (o : C2)
  /-- R127: Packs two f32 registers to binary16. -/
  | cvtF16x2F32 (o : P2)
  /-- R127: Packs two f32 registers to bfloat16. -/
  | cvtBf16x2F32 (o : P2)
  /-- R128: Exact binary16 element to f32. -/
  | cvtF32F16 (o : U2)
  /-- R128: Exact bfloat16 element to f32. -/
  | cvtF32Bf16 (o : U2)
  /-- R127: Packs four f32 registers to E4M3. -/
  | cvtE4m3x4F32 (o : P2)
  /-- R127: Packs four f32 registers to E5M2. -/
  | cvtE5m2x4F32 (o : P2)
  /-- R128: Exact E4M3 byte to f32. -/
  | cvtF32E4m3 (o : U2)
  /-- R128: Exact E5M2 byte to f32. -/
  | cvtF32E5m2 (o : U2)
  /-- R129: Exact f32 to f64. -/
  | cvtF64F32 (o : V2)
  /-- R129: Rounds f64 to f32. -/
  | cvtF32F64 (o : C2)
  /-- R127: Clamps four integers into packed bytes. -/
  | cvtI8x4I32 (o : P2)
  /-- R128: Sign-extends a selected byte. -/
  | cvtI32I8 (o : U2)
  /-- R136: Each lane reads A from a lane it names. -/
  | lpick (o : V3)
  /-- R136: Butterfly exchange by lane xor. -/
  | bflyB32 (o : X3)
  /-- R136: Butterfly exchange of pairs. -/
  | bflyB64 (o : X3)
  /-- R136: Rotates values across lanes. -/
  | rotLane (o : X3)
  /-- R136: Broadcasts one lane's value. -/
  | bcast (o : X3)
  /-- R137: Integer sum over the fixed tree. -/
  | redAddI32 (o : V2)
  /-- R137: f32 sum over the fixed tree. -/
  | redAddF32 (o : V2)
  /-- R137: Signed minimum reduction. -/
  | redMinI32 (o : V2)
  /-- R137: Signed maximum reduction. -/
  | redMaxI32 (o : V2)
  /-- R137: f32 minimum reduction. -/
  | redMinF32 (o : V2)
  /-- R137: f32 maximum reduction. -/
  | redMaxF32 (o : V2)
  /-- R138: Maximum with its lane index. -/
  | redxMaxF32 (o : V2)
  /-- R138: Minimum with its lane index. -/
  | redxMinF32 (o : V2)
  /-- R139: Inclusive integer prefix sum. -/
  | scanAddI32 (o : V2)
  /-- R139: Inclusive f32 prefix sum. -/
  | scanAddF32 (o : V2)
  /-- R140: Mask of active lanes with nonzero A. -/
  | mnz (o : MnzOp)
  /-- R140: Mask and. -/
  | mand (o : M3)
  /-- R140: Mask or. -/
  | mor (o : M3)
  /-- R140: Mask exclusive or. -/
  | mxor (o : M3)
  /-- R140: Mask A and not B. -/
  | mandn (o : M3)
  /-- R140: Mask complement. -/
  | mnot (o : M2)
  /-- R140: Mask copy, em under R15. -/
  | mmov (o : M2)
  /-- R141: Counts set mask bits into a scalar. -/
  | mcount (o : MaskToScalar)
  /-- R141: Lowest set mask bit into a scalar. -/
  | mfirst (o : MaskToScalar)
  /-- R141: Sets a mask from a scalar or literal. -/
  | mfrom (o : MaskFrom)
  /-- R131: Scalar add. -/
  | sadd (o : S3)
  /-- R131: Scalar subtract. -/
  | ssub (o : S3)
  /-- R131: Scalar multiply low. -/
  | smul (o : S3)
  /-- R131: Scalar unsigned multiply high. -/
  | smulhiN64 (o : S3)
  /-- R131: Scalar and. -/
  | sand (o : S3)
  /-- R131: Scalar or. -/
  | sor (o : S3)
  /-- R131: Scalar exclusive or. -/
  | sxor (o : S3)
  /-- R131: Scalar left shift. -/
  | sshl (o : S3)
  /-- R131: Scalar logical right shift. -/
  | sshr (o : S3)
  /-- R131: Scalar arithmetic right shift. -/
  | ssra (o : S3)
  /-- R131: Scalar signed minimum. -/
  | sminI64 (o : S3)
  /-- R131: Scalar signed maximum. -/
  | smaxI64 (o : S3)
  /-- R131: Scalar unsigned minimum. -/
  | sminN64 (o : S3)
  /-- R131: Scalar unsigned maximum. -/
  | smaxN64 (o : S3)
  /-- R131: Scalar move. -/
  | smov (o : S2)
  /-- R131: Scalar set on equal. -/
  | ssetEq (o : S3)
  /-- R131: Scalar set on signed less. -/
  | ssetLtI64 (o : S3)
  /-- R131: Scalar set on unsigned less. -/
  | ssetLtN64 (o : S3)
  /-- R132: Copies one lane of a vector register into a scalar. -/
  | sfromLane (o : S3)
  /-- R131: Sets the high 32 bits of a scalar. -/
  | shi (o : S3)
  /-- R145: Loads a zero-extended byte per lane. -/
  | ldB8N (o : LdOp)
  /-- R145: Loads a sign-extended byte per lane. -/
  | ldB8I (o : LdOp)
  /-- R145: Loads a zero-extended half. -/
  | ldB16N (o : LdOp)
  /-- R145: Loads a sign-extended half. -/
  | ldB16I (o : LdOp)
  /-- R145: Loads a word per lane. -/
  | ldB32 (o : LdOp)
  /-- R145: Loads 8 bytes into a pair. -/
  | ldB64 (o : LdOp)
  /-- R145: Loads 16 bytes into a quad. -/
  | ldB128 (o : LdOp)
  /-- R146: Stores a byte per lane, buffered until commit for global space. -/
  | stB8 (o : StOp)
  /-- R146: Stores a half per lane. -/
  | stB16 (o : StOp)
  /-- R146: Stores a word per lane. -/
  | stB32 (o : StOp)
  /-- R146: Stores a pair per lane. -/
  | stB64 (o : StOp)
  /-- R146: Stores a quad per lane. -/
  | stB128 (o : StOp)
  /-- R147: Reads one 32-bit parameter from a window into every active lane. -/
  | ldParamB32 (o : LpOp)
  /-- R147: Reads one 64-bit parameter from a window. -/
  | ldParamB64 (o : LpOp)
  /-- R148: Loads one 8-byte value for the group into a scalar. -/
  | sldB64 (o : SlOp)
  /-- R148: Stores one 8-byte scalar for the group. -/
  | sstB64 (o : SlOp)
  /-- R149: Asks the home or RDC slice to hold each lane's line. -/
  | prefetch (o : PfOp)
  /-- R150: Converts a generic address to a local-aperture offset. -/
  | acvtGenLocal (o : LdOp)
  /-- R150: Converts a generic address to a core-store offset. -/
  | acvtGenStore (o : LdOp)
  /-- R150: Converts a generic address to a quad-store offset. -/
  | acvtGenQuad (o : LdOp)
  /-- R150: Forms a local-aperture generic address. -/
  | acvtLocal (o : LdOp)
  /-- R150: Forms a core-store generic address. -/
  | acvtStore (o : LdOp)
  /-- R150: Forms a quad-store generic address. -/
  | acvtQuad (o : LdOp)
  /-- R150: Mask of lanes whose address lies in the local aperture. -/
  | atestLocal (o : AtestOp)
  /-- R150: Mask of lanes whose address lies in core store. -/
  | atestStore (o : AtestOp)
  /-- R150: Mask of lanes whose address lies in quad store. -/
  | atestQuad (o : AtestOp)
  /-- R152: Atomic 32-bit add, a one-instruction region. -/
  | atomAddI32 (o : AtomOp)
  /-- R152: Atomic 64-bit add. -/
  | atomAddI64 (o : AtomOp)
  /-- R152: Atomic f32 add, RNE. -/
  | atomFaddF32 (o : AtomOp)
  /-- R152: Atomic packed bfloat16 add. -/
  | atomFaddBf16x2 (o : AtomOp)
  /-- R152: Atomic signed minimum. -/
  | atomMinI32 (o : AtomOp)
  /-- R152: Atomic signed maximum. -/
  | atomMaxI32 (o : AtomOp)
  /-- R152: Atomic unsigned minimum. -/
  | atomMinN32 (o : AtomOp)
  /-- R152: Atomic unsigned maximum. -/
  | atomMaxN32 (o : AtomOp)
  /-- R152: Atomic and. -/
  | atomAndB32 (o : AtomOp)
  /-- R152: Atomic or. -/
  | atomOrB32 (o : AtomOp)
  /-- R152: Atomic exclusive or. -/
  | atomXorB32 (o : AtomOp)
  /-- R152: Atomic 32-bit exchange. -/
  | atomXchgB32 (o : AtomOp)
  /-- R152: Atomic 64-bit exchange. -/
  | atomXchgB64 (o : AtomOp)
  /-- R152: Atomic 32-bit compare and swap. -/
  | atomCasB32 (o : CasOp)
  /-- R152: Atomic 64-bit compare and swap. -/
  | atomCasB64 (o : CasOp)
  /-- R157: Copies global or local bytes into core or quad store. -/
  | cpG2s (o : CpOp)
  /-- R157: Copies core or quad store bytes to global or local. -/
  | cpS2g (o : CpOp)
  /-- R157: Copies between core or quad store locations. -/
  | cpS2s (o : CpOp)
  /-- R176: Copies global bytes into a plane-store reservation image. -/
  | cpG2p (o : CpOp)
  /-- R176: Copies store bytes into a plane-store reservation image. -/
  | cpS2p (o : CpOp)
  /-- R162: Multicasts global bytes into the core stores of receiver spans. -/
  | cpMcast (o : CpOp)
  /-- R157: Copies store bytes to global memory within a registered window. -/
  | cpPut (o : CpOp)
  /-- R157: Fills destinations with a per-lane pattern. -/
  | cpFill (o : CpOp)
  /-- R161: Sets closed so the copy engine arrives as transfer member when pending reaches 0. -/
  | cpClose (bar : Nat)
  /-- R172: Creates a plane-store reservation from a record. -/
  | pres (n : Nat) (e : Nat)
  /-- R173: Replaces, sets korg of, or reads a reservation record. -/
  | pset (n : Nat) (sel : Nat) (e : Nat)
  /-- R174: Frees a reservation once nothing naming it is outstanding. -/
  | prel (n : Nat)
  /-- R179: Zeroes the tile rows of active lanes. -/
  | mzero (t : Nat)
  /-- R178: Plane-mode matrix multiply-accumulate into a tile. -/
  | mmk (t : Nat) (ha : Nat) (hb : Nat) (n : Nat)
  /-- R180: Builds table-lookup tables for operand B. -/
  | mtab (hb : Nat) (n : Nat)
  /-- R181: Table-lookup matrix multiply-accumulate. -/
  | mlut (t : Nat) (ha : Nat) (hb : Nat) (n : Nat)
  /-- R182: Copies raw tile elements into vector registers. -/
  | mdrain (t : Nat) (d : Nat) (g : Nat)
  /-- R184: Requantises tile rows to an MX format and writes them to memory. -/
  | mdrainMx (t : Nat) (int : Nat) (fmt : Nat) (d : Nat) (m : Nat)
  /-- R190: Writes a tile's 8 KiB to memory. -/
  | msave (t : Nat) (e : Nat)
  /-- R190: Reads a tile's 8 KiB from memory. -/
  | mload (t : Nat) (e : Nat)
  /-- R187: Reads a block's underflow and alignment-loss counts. -/
  | mstatBlock (hi : Nat) (n : Nat) (k : Nat) (d : Nat)
  /-- R188: Reads a tile row's dunder and dsat counts. -/
  | mstatTile (t : Nat) (d : Nat)
  /-- R189: Suggests a scale-offset change from the tile's counts. -/
  | msuggest (t : Nat) (thr : Nat) (d : Nat)
  /-- R186: Sets a tile's drain mode and offset from an immediate. -/
  | mscaleImm (t : Nat) (mode : Nat) (off : Nat)
  /-- R186: Sets a tile's drain mode and adds a scalar to its offset. -/
  | mscaleReg (t : Nat) (mode : Nat) (e : Nat)
  /-- R195: Binds a queue register to a function-unit or select function. -/
  | qbind (q : Nat) (dir : Nat) (k : Nat) (fn : Nat)
  /-- R197: Pushes a command of v(A) and em to the bound engine. -/
  | qpush (a : Nat) (q : Nat)
  /-- R198: Takes the oldest held entry, blocking if one is in flight. -/
  | qpop (d : Nat) (q : Nat)
  /-- R199: Non-blocking pop that reports success in a mask. -/
  | qtry (d : Nat) (q : Nat) (m : Nat)
  /-- R201: Reads the queue register's counts and binding. -/
  | qlevel (d : Nat) (q : Nat)
  /-- R202: Unbinds a queue register once nothing is in flight. -/
  | qunbind (q : Nat)
  /-- R215: Commits, releases, arrives on a barrier register and waits for its phase at core scope. -/
  | barCore (n : Nat)
  /-- R215: Barrier arrival and wait at quad scope. -/
  | barQuad (n : Nat)
  /-- R218: Cooperative hardware barrier over the viaduct's groups on the die. -/
  | barDie
  /-- R218: Cooperative hardware barrier over the package. -/
  | barPkg
  /-- R218: Cooperative hardware barrier over the gang launch. -/
  | barPod
  /-- R213: Sets a barrier register's expected count. -/
  | bexp (n : Nat) (c : Nat)
  /-- R216: Releases and arrives without blocking, returning the phase. -/
  | arrive (n : Nat) (d : Nat)
  /-- R217: Arrives on a barrier of another span in the quad. -/
  | arriveRemote (n : Nat) (a : Nat)
  /-- R216: Blocks until a barrier's phase differs from a given phase, then acquires. -/
  | bwait (n : Nat) (a : Nat)
  /-- R223: Blocks until the outstanding counters fall to given levels. -/
  | wait (l : Nat) (s : Nat) (c : Nat) (t : Nat)
  /-- R220: Arms a condition slot with a memory monitor registered at the home. -/
  | watch (n : Nat) (a : Nat) (b : Nat) (cmp : Nat) (w64 : Nat)
  /-- R220: Arms a condition slot on a barrier, window, queue or mordant pool. -/
  | cond (n : Nat) (kind : Nat) (idx : Nat) (b : Nat)
  /-- R221: Closes the region and blocks until named slots fire or the deadline. -/
  | waitv (mask : Nat) (all : Nat) (t : Nat)
  /-- R221: Arms a watch and waits on it as one closing instruction. -/
  | waitu (n : Nat) (a : Nat) (b : Nat) (cmp : Nat) (w64 : Nat)
  /-- R224: Orders predecessor accesses before successor accesses at a scope. -/
  | fence (p : Nat) (q : Nat) (scope : Nat)
  /-- R225: Commits the region and sets the live count. -/
  | commit (n : Nat)
  /-- R226: Commits the region and starts a transaction. -/
  | txBegin
  /-- R227: Validates and commits the transaction's lanes. -/
  | txEnd
  /-- R227: Fails every lane of the transaction with cause 5. -/
  | txAbort (c : Nat)
  /-- R229: Adds one beat to the region's pending beats. -/
  | beat
  /-- R229: Adds a scalar amount of beats to the region's pending beats. -/
  | beatReg (a : Nat)
  /-- R230: Blocks until the package idle tree is high long enough or timeout. -/
  | quiescePkg (t : Nat) (d : Nat)
  /-- R230: Blocks until the pod is quiescent or timeout. -/
  | quiescePod (t : Nat) (d : Nat)
  /-- R207: Unconditional branch. -/
  | br (off : Nat)
  /-- R207: Branches if a scalar is zero. -/
  | brz (c : Nat) (off : Nat)
  /-- R207: Branches if a scalar is nonzero. -/
  | brnz (c : Nat) (off : Nat)
  /-- R207: Branches if the mask covers every active lane. -/
  | bra (k : Nat) (off : Nat)
  /-- R207: Branches if the mask covers no active lane. -/
  | brn (k : Nat) (off : Nat)
  /-- R209: Divergent branch that may create a split or push reconvergence entries. -/
  | brv (k : Nat) (off : Nat)
  /-- R207: Branches and writes the link. -/
  | call (l : Nat) (off : Nat)
  /-- R207: Calls through a scalar target. -/
  | callr (l : Nat) (t : Nat)
  /-- R207: Branches to a scalar target. -/
  | ret (t : Nat)
  /-- R210: Pops a reconvergence entry or merges splits. -/
  | join
  /-- R211: Commits and ends the strands in em. -/
  | exit
  /-- R207: Falls through with the yield ranking effect. -/
  | yield
  /-- R234: Contributes lanes to a fabric reduction. -/
  | collRed (d : Nat) (a : Nat) (b : Nat)
  /-- R234: Sends lanes to every member of a collective. -/
  | collBcast (d : Nat) (a : Nat) (b : Nat)
  /-- R234: Writes 32 bits per lane into a remote window. -/
  | putWin (d : Nat) (a : Nat) (b : Nat)
  /-- R234: Reads 32 bits per lane from a remote window. -/
  | getWin (d : Nat) (a : Nat)
  /-- R234: Adds to a target completion counter. -/
  | winAdd (a : Nat) (b : Nat)
  /-- R234: Reads a local window's counters. -/
  | winRead (d : Nat) (b : Nat)
  /-- R235: Blocks and exchanges register values with a named peer group. -/
  | xshf (d : Nat) (a : Nat) (b : Nat)
  /-- R236: Allocates a mordant token slot from a descriptor. -/
  | mordAlloc (d : Nat) (a : Nat)
  /-- R237: Sends an expert contribution to a token. -/
  | mordSend (d : Nat) (a : Nat) (b : Nat)
  /-- R237: Reads the pool's statistics. -/
  | mordStat (d : Nat)
  /-- R237: Abandons a token. -/
  | mordFree (a : Nat)
  /-- R234: Reads a collective tag's histogram bins. -/
  | histRead (d : Nat) (b : Nat)
  /-- R239: Raises the user trap with a code. -/
  | trap (code : Nat)
  /-- R238: Reads a special register. -/
  | sreg (idx : Nat) (r : Nat)
  /-- R238: Writes a special register with its own write behaviour. -/
  | swreg (idx : Nat) (r : Nat)
  /-- R239: Parks for a debugger or raises the breakpoint trap. -/
  | brk (code : Nat)
  /-- R239: Stops a firmware group until a mailbox doorbell. -/
  | halt
  /-- R239: Firmware resumes a trapped split at its saved PC. -/
  | eret
  /-- R374: A 64-bit write to a doorbell page names a queue to look at. -/
  | doorbellKick (func page value : Nat)
  /-- R377: Every 1024 ticks the front end looks again at a queue whose wr exceeds its read count. -/
  | ringLook (qid : Nat)
  /-- R377: The front end copies, checks and journals a packet whose valid byte is written. -/
  | packetAccept (qid : Nat)
  /-- R380: A NOP starts and completes at once. -/
  | nopPacket (qid : Nat)
  /-- R381: Starts a viaduct from its resource descriptor. -/
  | launchPacket (qid : Nat)
  /-- R389: Starts a multi-package launch by sending reservations to every member. -/
  | gangPacket (qid : Nat)
  /-- R384: Registers a condition on a signal word and holds the queue until it holds or times out. -/
  | waitPacket (qid : Nat)
  /-- R384: Writes or adds a signal word at its home and optionally sends MSI-X. -/
  | signalPacket (qid : Nat)
  /-- R386: Completes once all records of earlier packets are written. -/
  | fencePacket (qid : Nat)
  /-- R385: Writes loop fields into the context's loop record at the next sample period. -/
  | loopSet (qid : Nat)
  /-- R385: Requests replacement of a fabric window record on named dies. -/
  | windowBind (qid : Nat)
  /-- R385: Once acked equals issued, the window record is replaced and its counters zeroed. -/
  | windowBindApply (qid die : Nat)
  /-- R385: Sets the queue's parameter-window binding for later launches. -/
  | paramBind (qid : Nat)
  /-- R384: Holds the queue until every named signal word is 0 or less. -/
  | barrierAnd (qid : Nat)
  /-- R384: A WAIT's deadline passes; it completes with wait-timeout. -/
  | waitPacketTimeout (qid : Nat)
  /-- R384: Every 1024 ticks a condition in the packet-watch store is read and re-registered. -/
  | packetWatchPoll (qid : Nat)
  /-- R387: H2 fills and unmaps hardware queue slots every 4096 ticks or on interrupt. -/
  | slotMappingPass
  /-- R388: A WAIT on a non-resident page loses its slot after 25000 ticks. -/
  | waitPageHoldExpiry (qid : Nat)
  /-- R389: A member reserves its part in one step or refuses. -/
  | gangReserve (gang member : Nat) (ok : Bool)
  /-- R389: Members receive commit with the start tick. -/
  | gangCommit (gang : Nat)
  /-- R389: Members free their reservations. -/
  | gangRollback (gang : Nat)
  /-- R389: The coordinator repeats the reservation round 65536 ticks later, or completes with gang-rollback past the limit. -/
  | gangRetry (gang : Nat)
  /-- R389: At tick T every group of every part becomes ready. -/
  | gangStart (gang : Nat)
  /-- R468: Returns the boot status word. -/
  | mbBootStatus (func seq : Nat)
  /-- R470: Produces a signed attestation report with a nonce. -/
  | mbAttestationReport (func seq : Nat) (nonce : List Byte)
  /-- R468: Returns the certificate chain's address and length. -/
  | mbCertificateChain (func seq : Nat)
  /-- R471: Marks the non-running slot invalid and opens an update. -/
  | mbUpdateBegin (func seq slot : Nat)
  /-- R471: Writes up to 48 image bytes into the slot. -/
  | mbUpdateData (func seq off : Nat) (data : List Byte)
  /-- R471: Verifies the image and marks the slot valid and preferred. -/
  | mbUpdateFinish (func seq : Nat)
  /-- R472: Raises the version floor to the running svn. -/
  | mbUpdateCommit (func seq : Nat)
  /-- R478: Reads the error-record ring. -/
  | mbErrorRingRead (func seq : Nat)
  /-- R488: Reads the lifetime records and totals. -/
  | mbLifetimeRead (func seq : Nat)
  /-- R375: Firmware registers a queue control block. -/
  | queueRegister (func seq ctx qid qcb : Nat)
  /-- R383: A queue is unregistered and its pending packets cancelled. -/
  | queueUnregister (func seq qid : Nat)
  /-- R379: Restarts a stopped queue, starting or cancelling held packets. -/
  | queueRestart (func seq qid index : Nat) (cancel : Bool)
  /-- R391: The host acknowledges journal entries so they may be overwritten. -/
  | journalAcknowledge (func seq upTo : Nat)
  /-- R392: Writes an owner record, refused on bad recall or weight. -/
  | ownerRecordWrite (func seq owner : Nat) (word : W64)
  /-- R403: An owner lends a reserved quad. -/
  | lendEntryWrite (func seq owner : Nat) (word : W)
  /-- R404: The driver asks to recall a lent quad. -/
  | recallRequest (func seq owner die quad : Nat)
  /-- R405: Sets an owner's L2 way mask on named slices. -/
  | wayMaskSet (func seq die : Nat) (slices : List Nat) (code mask : Nat)
  /-- R407: Returns a slice's per-owner occupancy counters. -/
  | occupancyRead (func seq die slice : Nat)
  /-- R409: Stops, purges, destroys and zeroes a partition. -/
  | partitionReset (func seq part : Nat)
  /-- R412: Returns a signed usage snapshot for a nonce. -/
  | usageSnapshot (func seq owner : Nat) (nonce : List Byte)
  /-- R425: Memory-manager request that adds a mapping. -/
  | mmMap (r : MapReq)
  /-- R426: Removes a leaf and completes after shootdown, recall and revocation. -/
  | mmUnmap (func seq ctx va : Nat)
  /-- R426: Reduces a page's rights with full shootdown. -/
  | mmProtect (func seq ctx va perm : Nat)
  /-- R426: Changes a run of entries. -/
  | mmRunChange (func seq ctx va : Nat) (run : Bool)
  /-- R426: Physical function changes a stage-2 entry. -/
  | mmStage2Change (func seq ctx gpa : Nat) (entry : W64)
  /-- R415: Creates a shared segment with a pod-wide id. -/
  | segmentCreate (func seq base size id : Nat)
  /-- R415: Attaches a shared segment to a context. -/
  | segmentAttach (func seq ctx id : Nat)
  /-- R310: A driver declares a recorded fault unresolvable; parked splits trap and held engine lanes are skipped. -/
  | faultDeclareUnresolvable (ctx va : Nat)
  /-- R310: Firmware makes a recorded page resident or permitted. -/
  | pageResolve (r : MapReq) (zero : Bool)
  /-- R345: H5 applies a change to a context's mordant pool word. -/
  | poolWordSet (ctx die : Nat) (word : W64)
  /-- R453: Sets a partition's way budget. -/
  | wayBudgetSet (func seq part n : Nat)
  /-- R453: Sets a partition's channel quota, refused if the sum exceeds 64. -/
  | channelQuotaSet (func seq part n : Nat)
  /-- R454: Driver sets a lower clock-step cap. -/
  | clockCapSet (func seq die step : Nat)
  /-- R447: Returns a context's loop record. -/
  | loopRecordRead (func seq ctx : Nat)
  /-- R5: A write to a register with no behaviour of its own. -/
  | registerWrite (fw : Bool) (reg : RegSel) (value : Nat)
  /-- R405: A host-link write applied at the line's home without filling. -/
  | hostMemoryWrite (func ctx va : Nat) (data : List Byte)
  /-- R405: A host-link read served without filling. -/
  | hostMemoryRead (func ctx va len : Nat)
  /-- R256: A distributor places a span all-or-nothing. -/
  | spanPlace (die : Nat)
  /-- R264: The start gate opens once every group of a new span has issued its first clause. -/
  | startGateOpen (span : Nat)
  /-- R267: Every 2048 clk the issue-set pointer advances by the grant. -/
  | issueSetRotate (die core ctx : Nat)
  /-- R260: An asked die yields or declines a chunk. -/
  | stealRequest (thief asked viaduct : Nat)
  /-- R260: The thief receives a chunk or a refusal and asks the next die. -/
  | stealAnswer (thief viaduct : Nat)
  /-- R211: An exited group releases its slot, registers and local slot once counters and stores drain. -/
  | groupResourceRelease (gid : Nat)
  /-- R270: A span whose groups exited and work completed releases its resources. -/
  | spanRetire (span : Nat)
  /-- R398: A waiting owner's level rises after each 2^16 clk without placement. -/
  | ownerAgeing (die owner : Nat)
  /-- R400: At t0+D-12500 remaining non-beneficiary spans are force-evicted. -/
  | forcedEviction (pre : Nat)
  /-- R396: After bounded waits, group and span records are written and resources released. -/
  | spanEvictionSave (span : Nat)
  /-- R396: A saved span is restored on its die. -/
  | spanRestore (span : Nat)
  /-- R402: H2 pre-empts every span of a context with D = 12500. -/
  | contextSwapOut (ctx : Nat)
  /-- R328: A context is destroyed; watch purges are sent and pools discarded. -/
  | contextDestroy (ctx : Nat)
  /-- R328: A slice removes every entry of a destroyed context and acknowledges. -/
  | watchPurge (ctx die slice : Nat)
  /-- R366: Every 65536 clk the meshes drain packets along a Hamiltonian cycle. -/
  | nocDrain (die : Nat)
  /-- R331: H2 marks a saved group's context runnable on a wake or passed deadline. -/
  | wakeMessage (ctx : Nat)
  /-- R303: A home answers a store-buffer claim as granted or faulting. -/
  | storeClaimAnswer (entry : Nat)
  /-- R307: A split's region is discarded and restored to its checkpoint. -/
  | regionAbort (gid split : Nat)
  /-- R309: H3 advances fqrd; waiting records are written into the room. -/
  | faultQueueReadAdvance (ctx n : Nat)
  /-- R310: A parked split restarts once every recorded page permits its access. -/
  | splitRestart (gid split : Nat)
  /-- R305: A home acknowledges a drained store-buffer entry, which is freed. -/
  | entryDrainAck (entry : Nat)
  /-- R145: Load data returns and is written to the destination; L falls. -/
  | loadDataReturn (load : Nat)
  /-- R311: The home atomic unit performs an atomic lane. -/
  | atomicLanePerform (req lane : Nat)
  /-- R314: The keystone applies a core- or quad-store atomic request. -/
  | keystoneRequest (die quad : Nat)
  /-- R283: A write is applied at its home slice. -/
  | homeWriteApply (entry : Nat)
  /-- R327: A 256-clk overflow-list scan ends, firing matching entries. -/
  | watchListScanEnd (die slice : Nat)
  /-- R326: A home slice reads the word and fires, keeps an entry, or forces a fire. -/
  | watchRegistration (reg : Nat)
  /-- R328: A slot's entry is removed at its home. -/
  | watchWithdraw (gid slot : Nat)
  /-- R330: A fire reaches a die and sets the slot or the saved record. -/
  | watchFireDelivery (fire : Nat)
  /-- R329: A waitv deadline passes and the wait ends with timeout. -/
  | waitvDeadline (gid split : Nat)
  /-- R243: A deferred trap is raised on its group at its next issue opportunity. -/
  | deferredTrapRaise (gid : Nat)
  /-- R218: The last member arrives at a die, package or pod barrier and waiters acquire. -/
  | hwBarrierComplete (viaduct level die : Nat)
  /-- R365: The idle tree stays high for its transit time; quiesce returns 0. -/
  | quiesceIdleComplete (gid split : Nat)
  /-- R230: A quiesce wait times out and returns 1. -/
  | quiesceTimeout (gid split : Nat)
  /-- R430: Home resolves a remote read request. -/
  | gets (agent dom line : Nat)
  /-- R430: Home resolves a remote exclusive request. -/
  | getx (agent dom line : Nat)
  /-- R430: Home applies a write-through request. -/
  | wrh (agent dom addr : Nat) (data : List Byte)
  /-- R430: Home takes back a dirty line. -/
  | putm (agent dom line : Nat)
  /-- R430: Home takes back an exclusive clean line. -/
  | pute (agent dom line : Nat)
  /-- R432: An RDC slice drops a line and acknowledges. -/
  | invalidation (inv : Nat)
  /-- R432: The home receives an invalidation acknowledgement. -/
  | invalidationAck (inv : Nat)
  /-- R431: A forwarded request or store is applied at the acting home. -/
  | actingHomeForward (entry : Nat)
  /-- R423: A lookaside miss walk completes, filling or faulting. -/
  | pageAttributeWalk (die core ctx va : Nat)
  /-- R427: A home translation buffer miss walk completes. -/
  | homeTranslationWalk (ctx va : Nat)
  /-- R435: Every 2^20 ticks the requester counts clear. -/
  | migrationCountClear
  /-- R436: H3 moves a granule to a new home. -/
  | migration (ctx va hpkg frame : Nat)
  /-- R319: A slice receives its share of a commit's logs and writes. -/
  | txSliceReceive (gid : Nat)
  /-- R319: A commit takes a slice lock and validates. -/
  | txSliceLock (gid : Nat)
  /-- R319: Validation results return; writes apply and tx.end completes. -/
  | txValidationResult (gid : Nat)
  /-- R321: The domain's serial token is granted to a group. -/
  | serialTokenGrant (dom : Nat)
  /-- R334: A copy transfer's write is applied and pending counts down. -/
  | copyTransferWrite (copy lane : Nat)
  /-- R163: A matrix operation completes in the array and T falls. -/
  | tileOpComplete (die core : Nat)
  /-- R195: The function unit places a result entry. -/
  | functionResultPlace (die quad : Nat)
  /-- R196: The select engine places its two entries. -/
  | selectResultPlace (die quad : Nat)
  /-- R235: The pairing network exchanges values between two blocked groups. -/
  | xshfExchange (gid : Nat)
  /-- R235: After 2^24 ticks without exchange the waiter takes the peer trap. -/
  | xshfTimeout (gid : Nat)
  /-- R356: A target applies or drops a put lane and acknowledges. -/
  | putApply (put : Nat)
  /-- R356: The sender receives an acknowledgement; acked and C count advance. -/
  | putAck (put : Nat)
  /-- R360: A pier switch combines a contribution, writing complete results. -/
  | collCombine (contrib : Nat)
  /-- R361: A partial held past the flush time is forwarded. -/
  | collFlush (partial_ : Nat)
  /-- R363: H6 loads a user reduction routine into the switches. -/
  | userRoutineLoad (slot : Nat) (code : List W)
  /-- R347: The buffer reads a descriptor and initialises a slot or returns a status. -/
  | mordantAllocApply (req : Nat)
  /-- R348: A contribution reaches its slot and is applied, parked or refused. -/
  | mordantSendArrival (req : Nat)
  /-- R348: A free reaches its slot. -/
  | mordantFreeArrival (req : Nat)
  /-- R351: An open slot's deadline substitutes missing experts by policy. -/
  | mordantDeadline (slot : Nat)
  /-- R352: The mordant write is performed and the release sent; the slot frees. -/
  | mordantRelease (slot : Nat)
  /-- R445: At T_k each package latches beats and applies LOOP-SET fields. -/
  | sampleLatch
  /-- R455: Pier switches combine beat-group values by minimum. -/
  | beatGroupMerge (bgroup y : Nat) (late : Bool)
  /-- R448: At T_k+8192 H5 runs every loop controller. -/
  | loopUpdate
  /-- R454: At T_k+12288 grants and ceiling steps take effect. -/
  | grantApply
  /-- R454: A die's clock step change takes effect. -/
  | clockStepChange (die : Nat)
  /-- R475: The scrubber reads a line and handles it under R474. -/
  | patrolScrub (addr symbol : Nat) (result : EccResult)
  /-- R477: An SRAM word error is corrected or handled by array. -/
  | sramError (site : SramSite) (uncorrectable : Bool)
  /-- R479: H3 moves a failing frame's contents to a free frame. -/
  | frameRetire (ctx va frame : Nat)
  /-- R481: A receiver checks a flit and acknowledges or refuses it. -/
  | flitReceive (port seq : Nat) (crcOk : Bool)
  /-- R481: A sender retransmits from the refused flit. -/
  | flitNack (port seq : Nat)
  /-- R482: A link retrains after repeated refusals. -/
  | linkRetrain (port : Nat)
  /-- R482: A retrain ends; after three failures the link goes down and traffic reroutes. -/
  | retrainComplete (port : Nat) (ok : Bool)
  /-- R467: A hart misses the 100 ms watchdog and is restarted, or H0 triggers device reset. -/
  | watchdogExpiry (hart : Nat)
  /-- R463: ROM starts, verifies an image and enters stage 1 and 2. -/
  | resetRelease
  /-- R463: Memory and PHYs finish training; stage 3 repairs run. -/
  | hbmTrainingComplete (hbmOk linksOk : Bool)
  /-- R463: Runtime firmware starts on all harts and queues accept packets. -/
  | fullFunctionStart
  /-- R486: A device reset that keeps the journal and usage counters. -/
  | deviceReset
  /-- R486: Loss of power empties the journal and changes the usage epoch. -/
  | powerLoss
  /-- R488: Every hour H7 writes a lifetime record to flash. -/
  | lifetimeRecord
  /-- R394: Firmware creates a context, assigning its context number, ASID, owner, partition and context record. -/
  | contextCreate (c : CtxReq)
  /-- R456: H3 and H6 move a context part, with its whole loop record, to another package and re-register its beat group. -/
  | contextPartMove (ctx toPkg : Nat)
  /-- R240: The host resumes, through firmware, a viaduct or group parked for a debugger. -/
  | debuggerResume (viaduct : Nat)
  /-- R239: A doorbell of a quad's mailbox resumes a firmware group stopped by halt. -/
  | mailboxDoorbell (die quad : Nat)
  /-- R391: A PCIe function-level reset of one function, which leaves the journal and its sequence counter in place. -/
  | functionLevelReset (func : Nat)
  /-- R464: Hart H6 retries the training of a Causeway port that failed to train or was taken down. -/
  | causewayPortRetry (port : Nat) (ok : Bool)
  /-- R481: A sender receives a positive acknowledgement and frees the acknowledged flits from its 256-flit resend buffer. -/
  | flitAck (port seq : Nat)
  /-- R234: A target serves a get.win lane, reading committed memory or refusing it, and returns the value to the issuer's destination. -/
  | getWinRead (get : Nat)
  deriving DecidableEq, Repr

end Sys2Proof
end

