-- ==== Sys2Proof/WellFormed.lean ====
section
/-! DEFINITION. The checks of R75 to R86 on the operands of an instruction word. -/

namespace Sys2Proof

/-- R12: a register code of a one-, two- or four-register operand, 127 excluded. -/
def regOk (sh n : Nat) : Bool := decide (n < 127 ∧ n % sh = 0)

/-- R99: a vector source of a shape. -/
def VSrc.wf (sh : Nat) : VSrc → Bool
  | .reg n => regOk sh n
  | .lit _ => true

/-- R75, R99: a second vector source of a shape. -/
def BSrc.wf (sh : Nat) : BSrc → Bool
  | .reg n => regOk sh n
  | .sca n => decide (n < 64)
  | .lit _ => true

/-- R76: a scalar source. -/
def SSrc.wf : SSrc → Bool
  | .reg n => decide (n < 64)
  | .lit _ => true

/-- R134: a source common to all lanes. -/
def USrc.wf : USrc → Bool
  | .sca n => decide (n < 64)
  | .lit _ => true

/-- Whether a source is the literal word. -/
def VSrc.isLit : VSrc → Bool
  | .reg _ => false
  | .lit _ => true

/-- Whether a source is the literal word. -/
def BSrc.isLit : BSrc → Bool
  | .reg _ => false
  | .sca _ => false
  | .lit _ => true

/-- Whether a source is the literal word. -/
def SSrc.isLit : SSrc → Bool
  | .reg _ => false
  | .lit _ => true

/-- Whether a source is the literal word. -/
def USrc.isLit : USrc → Bool
  | .sca _ => false
  | .lit _ => true

/-- R75: d, a and b of their shapes, with at most one literal. -/
def V3.wf (sd sa sb : Nat) (o : V3) : Bool :=
  regOk sd o.d && o.a.wf sa && o.b.wf sb && !(o.a.isLit && o.b.isLit)

/-- R75: d and a of their shapes. -/
def V2.wf (sd sa : Nat) (o : V2) : Bool := regOk sd o.d && o.a.wf sa

/-- R76: a mask register and two sources, with at most one literal. -/
def K3.wf (sa sb : Nat) (o : K3) : Bool :=
  decide (o.k < 8) && o.a.wf sa && o.b.wf sb && !(o.a.isLit && o.b.isLit)

/-- R77: rounding code 7 is reserved; sat only where the op allows it. -/
def C2.wf (sd sa : Nat) (satOk : Bool) (o : C2) : Bool :=
  regOk sd o.d && o.a.wf sa && decide (o.rnd < 7) && (satOk || !o.sat)

/-- R77, R127: the base need not be even and is not 127; the round field is 0 where the op never rounds. -/
def P2.wf (rndOk : Bool) (o : P2) : Bool :=
  regOk 1 o.d && regOk 1 o.a && decide (o.rnd < 7) && (rndOk || o.rnd == 0)

/-- R77: the element is one of the source register's. -/
def U2.wf (elems : Nat) (o : U2) : Bool :=
  regOk 1 o.d && o.a.wf 1 && decide (o.elem < elems)

/-- R134: an exchange, with at most one literal. -/
def X3.wf (sh : Nat) (o : X3) : Bool :=
  regOk sh o.d && o.a.wf sh && o.b.wf && !(o.a.isLit && o.b.isLit)

/-- R76: a mask operand takes codes 0 to 8. -/
def MnzOp.wf (o : MnzOp) : Bool := decide (o.k ≤ 8) && o.a.wf 1

/-- R76: mask operands take codes 0 to 8. -/
def M3.wf (o : M3) : Bool := decide (o.k ≤ 8 ∧ o.a ≤ 8 ∧ o.b ≤ 8)

/-- R76: mask operands take codes 0 to 8. -/
def M2.wf (o : M2) : Bool := decide (o.k ≤ 8 ∧ o.a ≤ 8)

/-- R134: a scalar destination and a mask source. -/
def MaskToScalar.wf (o : MaskToScalar) : Bool := decide (o.d < 64 ∧ o.a ≤ 8)

/-- R134: a mask destination and a scalar or literal source. -/
def MaskFrom.wf (o : MaskFrom) : Bool := decide (o.k ≤ 8) && o.a.wf

/-- R76, R130: scalar operands, with at most one literal. -/
def S3.wf (o : S3) : Bool :=
  decide (o.d < 64) && o.a.wf && o.b.wf && !(o.a.isLit && o.b.isLit)

/-- R76, R130: scalar operands. -/
def S2.wf (o : S2) : Bool := decide (o.d < 64) && o.a.wf

/-- R78: an M-format address. -/
def MAddr.wf (m : MAddr) : Bool := decide (m.base < 64 ∧ m.scale < 4) && m.off.wf 1

/-- R78: data register of the access size and an address. -/
def LdOp.wf (sh : Nat) (o : LdOp) : Bool := regOk sh o.d && o.mem.wf

/-- R78: store data of the access size; a literal only for 8, 16 and 32 bits, and at most one literal. -/
def StOp.wf (sh : Nat) (o : StOp) : Bool :=
  o.data.wf sh && o.mem.wf && !(o.data.isLit && (o.mem.off.isLit || decide (sh ≠ 1)))

/-- R147: data register, window index and scale. -/
def LpOp.wf (sh : Nat) (o : LpOp) : Bool := regOk sh o.d && decide (o.win < 16 ∧ o.scale < 4)

/-- R148: scalar data register, base and scale. -/
def SlOp.wf (o : SlOp) : Bool := decide (o.d < 64 ∧ o.base < 64 ∧ o.scale < 4)

/-- R149: an address. -/
def PfOp.wf (o : PfOp) : Bool := o.mem.wf

/-- R150: a mask register k0 to k7 and an address. -/
def AtestOp.wf (o : AtestOp) : Bool := decide (o.k < 8) && o.mem.wf

/-- R151: the operand register of the element's shape, or a literal where the offset is a register. -/
def AtomOp.wf (sh : Nat) (o : AtomOp) : Bool :=
  o.d.wf sh && o.mem.wf && !(o.d.isLit && o.mem.off.isLit)

/-- R152: the compare and new values stand in a pair or a quad. -/
def CasOp.wf (sh : Nat) (o : CasOp) : Bool := regOk sh o.d && o.mem.wf

/-- R79, R156: even pairs, a size code other than 3, nt only where the op accepts it, bar 0 without acc. -/
def CpOp.wf (ntOk : Bool) (o : CpOp) : Bool :=
  regOk 2 o.src && regOk 2 o.dst && decide (o.bar < 16 ∧ o.size < 3) && (ntOk || !o.nt) &&
    (o.acc || o.bar == 0)

/-- R75 to R86: the operands of an instruction word are ones its encoding admits. The events have no
encoding and no such check. -/
def Instr.wf : Instr → Bool
  | .addI32 o => o.wf 1 1 1
  | .subI32 o => o.wf 1 1 1
  | .addSatI32 o => o.wf 1 1 1
  | .subSatI32 o => o.wf 1 1 1
  | .addSatN32 o => o.wf 1 1 1
  | .subSatN32 o => o.wf 1 1 1
  | .addI64 o => o.wf 2 2 2
  | .subI64 o => o.wf 2 2 2
  | .mulLoI32 o => o.wf 1 1 1
  | .mulHiI32 o => o.wf 1 1 1
  | .mulHiN32 o => o.wf 1 1 1
  | .mulWideI32 o => o.wf 2 1 1
  | .mulWideN32 o => o.wf 2 1 1
  | .minI32 o => o.wf 1 1 1
  | .maxI32 o => o.wf 1 1 1
  | .minN32 o => o.wf 1 1 1
  | .maxN32 o => o.wf 1 1 1
  | .absdiffN32 o => o.wf 1 1 1
  | .avgN32 o => o.wf 1 1 1
  | .andB32 o => o.wf 1 1 1
  | .orB32 o => o.wf 1 1 1
  | .xorB32 o => o.wf 1 1 1
  | .andnB32 o => o.wf 1 1 1
  | .shlB32 o => o.wf 1 1 1
  | .shrB32 o => o.wf 1 1 1
  | .sraI32 o => o.wf 1 1 1
  | .rotlB32 o => o.wf 1 1 1
  | .shlB64 o => o.wf 2 2 1
  | .shrB64 o => o.wf 2 2 1
  | .popcB32 o => o.wf 1 1
  | .clzB32 o => o.wf 1 1
  | .ctzB32 o => o.wf 1 1
  | .brevB32 o => o.wf 1 1
  | .bfeN32 o => o.wf 1 1 1
  | .bfeI32 o => o.wf 1 1 1
  | .cmpEqI32 o => o.wf 1 1
  | .cmpNeI32 o => o.wf 1 1
  | .cmpLtI32 o => o.wf 1 1
  | .cmpLeI32 o => o.wf 1 1
  | .cmpLtN32 o => o.wf 1 1
  | .cmpLeN32 o => o.wf 1 1
  | .cmpEqI64 o => o.wf 2 2
  | .cmpLtI64 o => o.wf 2 2
  | .cmpLtN64 o => o.wf 2 2
  | .faddF32 o => o.wf 1 1 1
  | .fsubF32 o => o.wf 1 1 1
  | .fmulF32 o => o.wf 1 1 1
  | .fminF32 o => o.wf 1 1 1
  | .fmaxF32 o => o.wf 1 1 1
  | .fminnF32 o => o.wf 1 1 1
  | .fmaxnF32 o => o.wf 1 1 1
  | .fabsF32 o => o.wf 1 1
  | .fnegF32 o => o.wf 1 1
  | .fclassF32 o => o.wf 1 1
  | .fscaleF32 o => o.wf 1 1 1
  | .fcmpEqF32 o => o.wf 1 1
  | .fcmpLtF32 o => o.wf 1 1
  | .fcmpLeF32 o => o.wf 1 1
  | .fcmpUnF32 o => o.wf 1 1
  | .faddF16x2 o => o.wf 1 1 1
  | .fsubF16x2 o => o.wf 1 1 1
  | .fmulF16x2 o => o.wf 1 1 1
  | .faddBf16x2 o => o.wf 1 1 1
  | .fsubBf16x2 o => o.wf 1 1 1
  | .fmulBf16x2 o => o.wf 1 1 1
  | .fmaxBf16x2 o => o.wf 1 1 1
  | .fminBf16x2 o => o.wf 1 1 1
  | .faddF64 o => o.wf 2 2 2
  | .fsubF64 o => o.wf 2 2 2
  | .fmulF64 o => o.wf 2 2 2
  | .fminF64 o => o.wf 2 2 2
  | .fmaxF64 o => o.wf 2 2 2
  | .fcmpLtF64 o => o.wf 2 2
  | .fcmpEqF64 o => o.wf 2 2
  | .fmaF32 o => o.wf 1 1 1
  | .fnmaF32 o => o.wf 1 1 1
  | .fmaF16x2 o => o.wf 1 1 1
  | .fmaBf16x2 o => o.wf 1 1 1
  | .fmaF64 o => o.wf 2 2 2
  | .fdot2F32Bf16 o => o.wf 1 1 1
  | .fdot2F32F16 o => o.wf 1 1 1
  | .madLoI32 o => o.wf 1 1 1
  | .madHiN32 o => o.wf 1 1 1
  | .madWideN32 o => o.wf 2 1 1
  | .bfiB32 o => o.wf 1 1 1
  | .bdot4I32I8 o => o.wf 1 1 1
  | .bdot4I32N8 o => o.wf 1 1 1
  | .movB32 o => o.wf 1 1
  | .movB64 o => o.wf 2 2
  | .cvtF32I32 o => o.wf 1 1 true
  | .cvtF32N32 o => o.wf 1 1 true
  | .cvtI32F32 o => o.wf 1 1 true
  | .cvtN32F32 o => o.wf 1 1 true
  | .froundF32 o => o.wf 1 1 false
  | .cvtF16x2F32 o => o.wf true
  | .cvtBf16x2F32 o => o.wf true
  | .cvtF32F16 o => o.wf 2
  | .cvtF32Bf16 o => o.wf 2
  | .cvtE4m3x4F32 o => o.wf true
  | .cvtE5m2x4F32 o => o.wf true
  | .cvtF32E4m3 o => o.wf 4
  | .cvtF32E5m2 o => o.wf 4
  | .cvtF64F32 o => o.wf 2 1
  | .cvtF32F64 o => o.wf 1 2 true
  | .cvtI8x4I32 o => o.wf false
  | .cvtI32I8 o => o.wf 4
  | .lpick o => o.wf 1 1 1
  | .bflyB32 o => o.wf 1
  | .bflyB64 o => o.wf 2
  | .rotLane o => o.wf 1
  | .bcast o => o.wf 1
  | .redAddI32 o => o.wf 1 1
  | .redAddF32 o => o.wf 1 1
  | .redMinI32 o => o.wf 1 1
  | .redMaxI32 o => o.wf 1 1
  | .redMinF32 o => o.wf 1 1
  | .redMaxF32 o => o.wf 1 1
  | .redxMaxF32 o => o.wf 2 1
  | .redxMinF32 o => o.wf 2 1
  | .scanAddI32 o => o.wf 1 1
  | .scanAddF32 o => o.wf 1 1
  | .mnz o => o.wf
  | .mand o => o.wf
  | .mor o => o.wf
  | .mxor o => o.wf
  | .mandn o => o.wf
  | .mnot o => o.wf
  | .mmov o => o.wf
  | .mcount o => o.wf
  | .mfirst o => o.wf
  | .mfrom o => o.wf
  | .sadd o => o.wf
  | .ssub o => o.wf
  | .smul o => o.wf
  | .smulhiN64 o => o.wf
  | .sand o => o.wf
  | .sor o => o.wf
  | .sxor o => o.wf
  | .sshl o => o.wf
  | .sshr o => o.wf
  | .ssra o => o.wf
  | .sminI64 o => o.wf
  | .smaxI64 o => o.wf
  | .sminN64 o => o.wf
  | .smaxN64 o => o.wf
  | .smov o => o.wf
  | .ssetEq o => o.wf
  | .ssetLtI64 o => o.wf
  | .ssetLtN64 o => o.wf
  | .sfromLane o => o.wf
  | .shi o => o.wf
  | .ldB8N o => o.wf 1
  | .ldB8I o => o.wf 1
  | .ldB16N o => o.wf 1
  | .ldB16I o => o.wf 1
  | .ldB32 o => o.wf 1
  | .ldB64 o => o.wf 2
  | .ldB128 o => o.wf 4
  | .stB8 o => o.wf 1
  | .stB16 o => o.wf 1
  | .stB32 o => o.wf 1
  | .stB64 o => o.wf 2
  | .stB128 o => o.wf 4
  | .ldParamB32 o => o.wf 1
  | .ldParamB64 o => o.wf 2
  | .sldB64 o => o.wf
  | .sstB64 o => o.wf
  | .prefetch o => o.wf
  | .acvtGenLocal o => o.wf 1
  | .acvtGenStore o => o.wf 1
  | .acvtGenQuad o => o.wf 1
  | .acvtLocal o => o.wf 2
  | .acvtStore o => o.wf 2
  | .acvtQuad o => o.wf 2
  | .atestLocal o => o.wf
  | .atestStore o => o.wf
  | .atestQuad o => o.wf
  | .atomAddI32 o => o.wf 1
  | .atomAddI64 o => o.wf 2
  | .atomFaddF32 o => o.wf 1
  | .atomFaddBf16x2 o => o.wf 1
  | .atomMinI32 o => o.wf 1
  | .atomMaxI32 o => o.wf 1
  | .atomMinN32 o => o.wf 1
  | .atomMaxN32 o => o.wf 1
  | .atomAndB32 o => o.wf 1
  | .atomOrB32 o => o.wf 1
  | .atomXorB32 o => o.wf 1
  | .atomXchgB32 o => o.wf 1
  | .atomXchgB64 o => o.wf 2
  | .atomCasB32 o => o.wf 2
  | .atomCasB64 o => o.wf 4
  | .cpG2s o => o.wf true
  | .cpS2g o => o.wf true
  | .cpS2s o => o.wf true
  | .cpG2p o => o.wf false
  | .cpS2p o => o.wf false
  | .cpMcast o => o.wf false
  | .cpPut o => o.wf true
  | .cpFill o => o.wf true
  | .cpClose bar => decide (bar < 16)
  | .pres n e => decide (n < 32 ∧ e < 64 ∧ e % 2 = 0 ∧ (e % 2 = 0))
  | .pset n sel e => decide (n < 32 ∧ sel < 4 ∧ e < 64 ∧ (sel ≤ 2 ∧ (sel = 1 ∨ e % 2 = 0)))
  | .prel n => decide (n < 32)
  | .mzero t => decide (t < 4)
  | .mmk t ha hb n => decide (t < 4 ∧ ha < 32 ∧ hb < 32 ∧ n < 1024 ∧ (1 ≤ n ∧ n ≤ 64))
  | .mtab hb n => decide (hb < 32 ∧ n < 1024 ∧ (1 ≤ n ∧ n ≤ 64))
  | .mlut t ha hb n => decide (t < 4 ∧ ha < 32 ∧ hb < 32 ∧ n < 1024 ∧ (1 ≤ n ∧ n ≤ 64))
  | .mdrain t d g => decide (t < 4 ∧ d < 128 ∧ d % 8 = 0 ∧ g < 8 ∧ (d % 8 = 0))
  | .mdrainMx t int fmt d m => decide (t < 4 ∧ int < 2 ∧ fmt < 32 ∧ d < 128 ∧ d % 4 = 0 ∧ m < 4 ∧ (d % 4 = 0 ∧ m ≠ 0 ∧ (fmt = 3 ∨ fmt = 6 ∨ fmt = 7 ∨ fmt = 8 ∨ fmt = 9 ∨ fmt = 10)))
  | .msave t e => decide (t < 4 ∧ e < 64)
  | .mload t e => decide (t < 4 ∧ e < 64)
  | .mstatBlock hi n k d => decide (hi < 2 ∧ n < 32 ∧ k < 32 ∧ d < 128 ∧ (d < 127))
  | .mstatTile t d => decide (t < 4 ∧ d < 128 ∧ (d < 127))
  | .msuggest t thr d => decide (t < 4 ∧ thr < 16 ∧ d < 64)
  | .mscaleImm t mode off => decide (t < 4 ∧ mode < 2 ∧ off < 16)
  | .mscaleReg t mode e => decide (t < 4 ∧ mode < 2 ∧ e < 64)
  | .qbind q dir k fn => decide (q < 16 ∧ dir < 2 ∧ k < 64 ∧ fn < 16 ∧ (fn < 8 ∧ (if fn = 7 then 1 ≤ k ∧ k ≤ 32 else k = 0 ∧ dir = 0)))
  | .qpush a q => decide (a < 128 ∧ q < 16 ∧ (a < 127))
  | .qpop d q => decide (d < 128 ∧ q < 16 ∧ (d < 127))
  | .qtry d q m => decide (d < 128 ∧ q < 16 ∧ m < 8 ∧ (d < 127))
  | .qlevel d q => decide (d < 64 ∧ q < 16)
  | .qunbind q => decide (q < 16)
  | .barCore n => decide (n < 16)
  | .barQuad n => decide (n < 16)
  | .barDie => true
  | .barPkg => true
  | .barPod => true
  | .bexp n c => decide (n < 16 ∧ c < 256 ∧ (c ≤ 129))
  | .arrive n d => decide (n < 16 ∧ d < 64)
  | .arriveRemote n a => decide (n < 16 ∧ a < 64)
  | .bwait n a => decide (n < 16 ∧ a < 64)
  | .wait l s c t => decide (l < 16 ∧ s < 16 ∧ c < 16 ∧ t < 16)
  | .watch n a b cmp w64 => decide (n < 4 ∧ a < 64 ∧ b < 64 ∧ cmp < 8 ∧ w64 < 2 ∧ (cmp ≤ 6 ∧ ¬ (cmp = 6 ∧ w64 = 1)))
  | .cond n kind idx b => decide (n < 4 ∧ kind < 8 ∧ idx < 16 ∧ b < 64 ∧ (kind ≤ 3 ∧ (kind = 2 → b = 0) ∧ (kind = 3 → idx = 0)))
  | .waitv mask all t => decide (mask < 16 ∧ all < 2 ∧ t < 64 ∧ (mask ≠ 0))
  | .waitu n a b cmp w64 => decide (n < 4 ∧ a < 64 ∧ b < 64 ∧ cmp < 8 ∧ w64 < 2 ∧ (cmp ≤ 6 ∧ ¬ (cmp = 6 ∧ w64 = 1) ∧ b % 2 = 0))
  | .fence p q scope => decide (p < 64 ∧ q < 64 ∧ scope < 8 ∧ (p ≠ 0 ∧ q ≠ 0 ∧ scope ≤ 5))
  | .commit n => decide (n < 128)
  | .txBegin => true
  | .txEnd => true
  | .txAbort c => decide (c < 256)
  | .beat => true
  | .beatReg a => decide (a < 64)
  | .quiescePkg t d => decide (t < 64 ∧ d < 64)
  | .quiescePod t d => decide (t < 64 ∧ d < 64)
  | .br off => decide (off < 65536)
  | .brz c off => decide (c < 64 ∧ off < 65536)
  | .brnz c off => decide (c < 64 ∧ off < 65536)
  | .bra k off => decide (k < 64 ∧ off < 65536 ∧ (k ≤ 8))
  | .brn k off => decide (k < 64 ∧ off < 65536 ∧ (k ≤ 8))
  | .brv k off => decide (k < 64 ∧ off < 65536 ∧ (k ≤ 8))
  | .call l off => decide (l < 64 ∧ off < 65536)
  | .callr l t => decide (l < 64 ∧ t < 64)
  | .ret t => decide (t < 64)
  | .join => true
  | .exit => true
  | .yield => true
  | .collRed d a b => decide (d < 128 ∧ a < 128 ∧ b < 128 ∧ (d < 127 ∧ a < 127 ∧ a % 2 = 0 ∧ b < 64))
  | .collBcast d a b => decide (d < 128 ∧ a < 128 ∧ b < 128 ∧ (d < 127 ∧ a < 127 ∧ a % 2 = 0 ∧ b < 64))
  | .putWin d a b => decide (d < 128 ∧ a < 128 ∧ b < 128 ∧ (d < 127 ∧ a < 127 ∧ a % 2 = 0 ∧ b < 64))
  | .getWin d a => decide (d < 128 ∧ a < 128 ∧ (d < 127 ∧ a < 127 ∧ a % 2 = 0))
  | .winAdd a b => decide (a < 128 ∧ b < 128 ∧ (a < 127 ∧ a % 2 = 0 ∧ b < 64))
  | .winRead d b => decide (d < 128 ∧ b < 128 ∧ (d < 127 ∧ b < 64))
  | .xshf d a b => decide (d < 128 ∧ a < 128 ∧ b < 128 ∧ (d < 127 ∧ a < 127 ∧ b < 64))
  | .mordAlloc d a => decide (d < 128 ∧ a < 128 ∧ (d < 127 ∧ d % 2 = 0 ∧ a < 127 ∧ a % 2 = 0))
  | .mordSend d a b => decide (d < 128 ∧ a < 128 ∧ b < 128 ∧ (d < 127 ∧ a < 127 ∧ a % 4 = 0 ∧ b < 127))
  | .mordStat d => decide (d < 128 ∧ (d < 127))
  | .mordFree a => decide (a < 128 ∧ (a < 127 ∧ a % 2 = 0))
  | .histRead d b => decide (d < 128 ∧ b < 128 ∧ (d < 127 ∧ b < 64))
  | .trap code => decide (code < 65536)
  | .sreg idx r => decide (idx < 1024 ∧ r < 128 ∧ (if idx = 0 ∨ idx = 0x15 then r < 127 else r < 64))
  | .swreg idx r => decide (idx < 1024 ∧ r < 128 ∧ (if idx = 0 ∨ idx = 0x15 then r < 127 else r < 64))
  | .brk code => decide (code < 65536)
  | .halt => true
  | .eret => true
  | .doorbellKick _ _ _ => true
  | .ringLook _ => true
  | .packetAccept _ => true
  | .nopPacket _ => true
  | .launchPacket _ => true
  | .gangPacket _ => true
  | .waitPacket _ => true
  | .signalPacket _ => true
  | .fencePacket _ => true
  | .loopSet _ => true
  | .windowBind _ => true
  | .windowBindApply _ _ => true
  | .paramBind _ => true
  | .barrierAnd _ => true
  | .waitPacketTimeout _ => true
  | .packetWatchPoll _ => true
  | .slotMappingPass => true
  | .waitPageHoldExpiry _ => true
  | .gangReserve _ _ _ => true
  | .gangCommit _ => true
  | .gangRollback _ => true
  | .gangRetry _ => true
  | .gangStart _ => true
  | .mbBootStatus _ _ => true
  | .mbAttestationReport _ _ _ => true
  | .mbCertificateChain _ _ => true
  | .mbUpdateBegin _ _ _ => true
  | .mbUpdateData _ _ _ _ => true
  | .mbUpdateFinish _ _ => true
  | .mbUpdateCommit _ _ => true
  | .mbErrorRingRead _ _ => true
  | .mbLifetimeRead _ _ => true
  | .queueRegister _ _ _ _ _ => true
  | .queueUnregister _ _ _ => true
  | .queueRestart _ _ _ _ _ => true
  | .journalAcknowledge _ _ _ => true
  | .ownerRecordWrite _ _ _ _ => true
  | .lendEntryWrite _ _ _ _ => true
  | .recallRequest _ _ _ _ _ => true
  | .wayMaskSet _ _ _ _ _ _ => true
  | .occupancyRead _ _ _ _ => true
  | .partitionReset _ _ _ => true
  | .usageSnapshot _ _ _ _ => true
  | .mmMap _ => true
  | .mmUnmap _ _ _ _ => true
  | .mmProtect _ _ _ _ _ => true
  | .mmRunChange _ _ _ _ _ => true
  | .mmStage2Change _ _ _ _ _ => true
  | .segmentCreate _ _ _ _ _ => true
  | .segmentAttach _ _ _ _ => true
  | .faultDeclareUnresolvable _ _ => true
  | .pageResolve _ _ => true
  | .poolWordSet _ _ _ => true
  | .wayBudgetSet _ _ _ _ => true
  | .channelQuotaSet _ _ _ _ => true
  | .clockCapSet _ _ _ _ => true
  | .loopRecordRead _ _ _ => true
  | .registerWrite _ _ _ => true
  | .hostMemoryWrite _ _ _ _ => true
  | .hostMemoryRead _ _ _ _ => true
  | .spanPlace _ => true
  | .startGateOpen _ => true
  | .issueSetRotate _ _ _ => true
  | .stealRequest _ _ _ => true
  | .stealAnswer _ _ => true
  | .groupResourceRelease _ => true
  | .spanRetire _ => true
  | .ownerAgeing _ _ => true
  | .forcedEviction _ => true
  | .spanEvictionSave _ => true
  | .spanRestore _ => true
  | .contextSwapOut _ => true
  | .contextDestroy _ => true
  | .watchPurge _ _ _ => true
  | .nocDrain _ => true
  | .wakeMessage _ => true
  | .storeClaimAnswer _ => true
  | .regionAbort _ _ => true
  | .faultQueueReadAdvance _ _ => true
  | .splitRestart _ _ => true
  | .entryDrainAck _ => true
  | .loadDataReturn _ => true
  | .atomicLanePerform _ _ => true
  | .keystoneRequest _ _ => true
  | .homeWriteApply _ => true
  | .watchListScanEnd _ _ => true
  | .watchRegistration _ => true
  | .watchWithdraw _ _ => true
  | .watchFireDelivery _ => true
  | .waitvDeadline _ _ => true
  | .deferredTrapRaise _ => true
  | .hwBarrierComplete _ _ _ => true
  | .quiesceIdleComplete _ _ => true
  | .quiesceTimeout _ _ => true
  | .gets _ _ _ => true
  | .getx _ _ _ => true
  | .wrh _ _ _ _ => true
  | .putm _ _ _ => true
  | .pute _ _ _ => true
  | .invalidation _ => true
  | .invalidationAck _ => true
  | .actingHomeForward _ => true
  | .pageAttributeWalk _ _ _ _ => true
  | .homeTranslationWalk _ _ => true
  | .migrationCountClear => true
  | .migration _ _ _ _ => true
  | .txSliceReceive _ => true
  | .txSliceLock _ => true
  | .txValidationResult _ => true
  | .serialTokenGrant _ => true
  | .copyTransferWrite _ _ => true
  | .tileOpComplete _ _ => true
  | .functionResultPlace _ _ => true
  | .selectResultPlace _ _ => true
  | .xshfExchange _ => true
  | .xshfTimeout _ => true
  | .putApply _ => true
  | .putAck _ => true
  | .collCombine _ => true
  | .collFlush _ => true
  | .userRoutineLoad _ _ => true
  | .mordantAllocApply _ => true
  | .mordantSendArrival _ => true
  | .mordantFreeArrival _ => true
  | .mordantDeadline _ => true
  | .mordantRelease _ => true
  | .sampleLatch => true
  | .beatGroupMerge _ _ _ => true
  | .loopUpdate => true
  | .grantApply => true
  | .clockStepChange _ => true
  | .patrolScrub _ _ _ => true
  | .sramError _ _ => true
  | .frameRetire _ _ _ => true
  | .flitReceive _ _ _ => true
  | .flitNack _ _ => true
  | .linkRetrain _ => true
  | .retrainComplete _ _ => true
  | .watchdogExpiry _ => true
  | .resetRelease => true
  | .hbmTrainingComplete _ _ => true
  | .fullFunctionStart => true
  | .deviceReset => true
  | .powerLoss => true
  | .lifetimeRecord => true
  | .contextCreate _ => true
  | .contextPartMove _ _ => true
  | .debuggerResume _ => true
  | .mailboxDoorbell _ _ => true
  | .functionLevelReset _ => true
  | .causewayPortRetry _ _ => true
  | .flitAck _ _ => true
  | .getWinRead _ => true

/-- A well-formed instruction, as a proposition. -/
abbrev Instr.WellFormed (i : Instr) : Prop := i.wf = true

end Sys2Proof
end

