-- ==== Sys2Proof/Decode.lean ====
section
/-! DEFINITION. The decoder of instruction words and clause headers, and the encoder. -/

namespace Sys2Proof

open Sys2Proof.Machine

/-- Why a word is not an instruction (R70 to R86). -/
inductive DecodeError
  /-- An op value the opcode map does not assign (R86). -/
  | reservedOp
  /-- A reserved field value, a nonzero must-be-zero field or an operand the op does not admit (R71 to R86). -/
  | illegalField
  /-- The literal word the instruction calls for is missing (R68, R70). -/
  | missingLiteral
  /-- There is no word. -/
  | noWord
  deriving DecidableEq, Repr

/-- Which fields of an op can call for a literal (R68). -/
inductive Form
  /-- Sources a and b of the V format; code 127 with S = 0 calls for a literal (R75). -/
  | vab
  /-- As vab, with a mask register as destination (R76). -/
  | kab
  /-- Source a of the V format (R75). -/
  | va
  /-- Scalar sources a and b (R76). -/
  | sab
  /-- A scalar source a (R134). -/
  | sa
  /-- The M-format offset (R78). -/
  | mem
  /-- The M-format offset or the store data (R78). -/
  | store
  /-- The M-format offset or the discard form (R151). -/
  | atom
  /-- Mask operands: no literal (R76). -/
  | masks
  /-- A packing conversion: no literal (R127). -/
  | pack
  /-- No literal (R79 to R85). -/
  | plain
  deriving DecidableEq, Repr

/-- R68: whether an op with these low 22 bits calls for a literal. -/
def Form.callsLiteral (f : Nat) : Form → Bool
  | .vab => bitsOf f 14 8 == 127 || (bitsOf f 7 1 == 127 && bitsOf f 0 0 == 0)
  | .kab => bitsOf f 14 8 == 127 || (bitsOf f 7 1 == 127 && bitsOf f 0 0 == 0)
  | .va => bitsOf f 14 8 == 127
  | .sab => bitsOf f 14 8 == 127 || (bitsOf f 7 1 == 127 && bitsOf f 0 0 == 0)
  | .sa => bitsOf f 14 8 == 127
  | .mem => bitsOf f 8 2 == 127
  | .store => bitsOf f 8 2 == 127 || bitsOf f 21 15 == 127
  | .atom => bitsOf f 8 2 == 127 || bitsOf f 21 15 == 127
  | .masks => false
  | .pack => false
  | .plain => false

/-- R99: a vector source field. -/
def getVSrc (x : Nat) (lit : W) : VSrc := if x = 127 then .lit lit else .reg x

/-- R75, R99: the fields b and S. -/
def getBSrc (x s : Nat) (lit : W) : BSrc :=
  if s = 1 then .sca x else if x = 127 then .lit lit else .reg x

/-- R76: a scalar source field. -/
def getSSrc (x : Nat) (lit : W) : SSrc := if x = 127 then .lit lit else .reg x

/-- R75: the V format with d, a and b. -/
def getV3 (f : Nat) (lit : W) : Option V3 :=
  some { d := bitsOf f 21 15, a := getVSrc (bitsOf f 14 8) lit,
         b := getBSrc (bitsOf f 7 1) (bitsOf f 0 0) lit }

/-- R75: the V format with d and a. -/
def getV2 (f : Nat) (lit : W) : Option V2 :=
  if bitsOf f 7 0 = 0 then some { d := bitsOf f 21 15, a := getVSrc (bitsOf f 14 8) lit } else none

/-- R76: a compare. -/
def getK3 (f : Nat) (lit : W) : Option K3 :=
  some { k := bitsOf f 21 15, a := getVSrc (bitsOf f 14 8) lit,
         b := getBSrc (bitsOf f 7 1) (bitsOf f 0 0) lit }

/-- R77: a rounding conversion. -/
def getC2 (f : Nat) (lit : W) : Option C2 :=
  if bitsOf f 3 0 = 0 then
    some { d := bitsOf f 21 15, a := getVSrc (bitsOf f 14 8) lit, rnd := bitsOf f 7 5,
           sat := bitsOf f 4 4 == 1 }
  else none

/-- R77, R127: a packing conversion. -/
def getP2 (f : Nat) (_lit : W) : Option P2 :=
  if bitsOf f 3 0 = 0 then
    some { d := bitsOf f 21 15, a := bitsOf f 14 8, rnd := bitsOf f 7 5, sat := bitsOf f 4 4 == 1 }
  else none

/-- R77, R128: an unpacking conversion; elem stands in bits [2:1] of the word. -/
def getU2 (f : Nat) (lit : W) : Option U2 :=
  if bitsOf f 7 3 = 0 ∧ bitsOf f 0 0 = 0 then
    some { d := bitsOf f 21 15, a := getVSrc (bitsOf f 14 8) lit, elem := bitsOf f 2 1 }
  else none

/-- R134: an exchange; b is a scalar register or the literal. -/
def getX3 (f : Nat) (lit : W) : Option X3 :=
  if bitsOf f 0 0 = 1 then
    some { d := bitsOf f 21 15, a := getVSrc (bitsOf f 14 8) lit, b := .sca (bitsOf f 7 1) }
  else if bitsOf f 7 1 = 127 then
    some { d := bitsOf f 21 15, a := getVSrc (bitsOf f 14 8) lit, b := .lit lit }
  else none

/-- R140: mnz. -/
def getMnz (f : Nat) (lit : W) : Option MnzOp :=
  if bitsOf f 7 0 = 0 then some { k := bitsOf f 21 15, a := getVSrc (bitsOf f 14 8) lit } else none

/-- R140: three mask operands. -/
def getM3 (f : Nat) (_lit : W) : Option M3 :=
  if bitsOf f 0 0 = 0 then some { k := bitsOf f 21 15, a := bitsOf f 14 8, b := bitsOf f 7 1 } else none

/-- R140: two mask operands. -/
def getM2 (f : Nat) (_lit : W) : Option M2 :=
  if bitsOf f 7 0 = 0 then some { k := bitsOf f 21 15, a := bitsOf f 14 8 } else none

/-- R141: a scalar destination and a mask source. -/
def getMS (f : Nat) (_lit : W) : Option MaskToScalar :=
  if bitsOf f 7 0 = 0 then some { d := bitsOf f 21 15, a := bitsOf f 14 8 } else none

/-- R141: a mask destination and a scalar source. -/
def getMF (f : Nat) (lit : W) : Option MaskFrom :=
  if bitsOf f 7 0 = 0 then some { k := bitsOf f 21 15, a := getSSrc (bitsOf f 14 8) lit } else none

/-- R130: a scalar instruction with d, a and b; S is zero. -/
def getS3 (f : Nat) (lit : W) : Option S3 :=
  if bitsOf f 0 0 = 0 then
    some { d := bitsOf f 21 15, a := getSSrc (bitsOf f 14 8) lit, b := getSSrc (bitsOf f 7 1) lit }
  else none

/-- R130: a scalar instruction with d and a. -/
def getS2 (f : Nat) (lit : W) : Option S2 :=
  if bitsOf f 7 0 = 0 then some { d := bitsOf f 21 15, a := getSSrc (bitsOf f 14 8) lit } else none

/-- R78: the M-format address. -/
def getMAddr (f : Nat) (lit : W) : MAddr :=
  { base := bitsOf f 14 9, off := getVSrc (bitsOf f 8 2) lit, scale := bitsOf f 1 0 }

/-- R145, R150: a load or an aperture conversion. -/
def getLd (f : Nat) (lit : W) : Option LdOp := some { d := bitsOf f 21 15, mem := getMAddr f lit }

/-- R146: a store. -/
def getSt (f : Nat) (lit : W) : Option StOp :=
  some { data := getVSrc (bitsOf f 21 15) lit, mem := getMAddr f lit }

/-- R147: a parameter load. -/
def getLp (f : Nat) (lit : W) : Option LpOp :=
  if bitsOf f 14 13 = 0 ∧ bitsOf f 8 2 = 127 then
    some { d := bitsOf f 21 15, win := bitsOf f 12 9, off := lit, scale := bitsOf f 1 0 }
  else none

/-- R148: a scalar load or store. -/
def getSl (f : Nat) (lit : W) : Option SlOp :=
  if bitsOf f 8 2 = 127 then
    some { d := bitsOf f 21 15, base := bitsOf f 14 9, off := lit, scale := bitsOf f 1 0 }
  else none

/-- R149: a prefetch. -/
def getPf (f : Nat) (lit : W) : Option PfOp :=
  if bitsOf f 21 15 = 0 then some { mem := getMAddr f lit } else none

/-- R150: an aperture test. -/
def getAtest (f : Nat) (lit : W) : Option AtestOp := some { k := bitsOf f 21 15, mem := getMAddr f lit }

/-- R151: an atomic. -/
def getAtom (f : Nat) (lit : W) : Option AtomOp :=
  some { d := getVSrc (bitsOf f 21 15) lit, mem := getMAddr f lit }

/-- R152: a compare-and-swap. -/
def getCas (f : Nat) (lit : W) : Option CasOp := some { d := bitsOf f 21 15, mem := getMAddr f lit }

/-- R79: a copy. -/
def getCp (f : Nat) (_lit : W) : Option CpOp :=
  some { src := bitsOf f 21 15, dst := bitsOf f 14 8, bar := bitsOf f 7 4, size := bitsOf f 3 2,
         nt := bitsOf f 1 1 == 1, acc := bitsOf f 0 0 == 1 }

/-- R88: the instructions of major 0, from the op and the low 22 bits. -/
def parseInteger (op f : Nat) (lit : W) : Option Instr :=
  match op with
  | 0 => (getV3 f lit).map .addI32
  | 1 => (getV3 f lit).map .subI32
  | 2 => (getV3 f lit).map .addSatI32
  | 3 => (getV3 f lit).map .subSatI32
  | 4 => (getV3 f lit).map .addSatN32
  | 5 => (getV3 f lit).map .subSatN32
  | 6 => (getV3 f lit).map .addI64
  | 7 => (getV3 f lit).map .subI64
  | 8 => (getV3 f lit).map .mulLoI32
  | 9 => (getV3 f lit).map .mulHiI32
  | 10 => (getV3 f lit).map .mulHiN32
  | 11 => (getV3 f lit).map .mulWideI32
  | 12 => (getV3 f lit).map .mulWideN32
  | 13 => (getV3 f lit).map .minI32
  | 14 => (getV3 f lit).map .maxI32
  | 15 => (getV3 f lit).map .minN32
  | 16 => (getV3 f lit).map .maxN32
  | 17 => (getV3 f lit).map .absdiffN32
  | 18 => (getV3 f lit).map .avgN32
  | 19 => (getV3 f lit).map .andB32
  | 20 => (getV3 f lit).map .orB32
  | 21 => (getV3 f lit).map .xorB32
  | 22 => (getV3 f lit).map .andnB32
  | 23 => (getV3 f lit).map .shlB32
  | 24 => (getV3 f lit).map .shrB32
  | 25 => (getV3 f lit).map .sraI32
  | 26 => (getV3 f lit).map .rotlB32
  | 27 => (getV3 f lit).map .shlB64
  | 28 => (getV3 f lit).map .shrB64
  | 29 => (getV2 f lit).map .popcB32
  | 30 => (getV2 f lit).map .clzB32
  | 31 => (getV2 f lit).map .ctzB32
  | 32 => (getV2 f lit).map .brevB32
  | 33 => (getV3 f lit).map .bfeN32
  | 34 => (getV3 f lit).map .bfeI32
  | 35 => (getK3 f lit).map .cmpEqI32
  | 36 => (getK3 f lit).map .cmpNeI32
  | 37 => (getK3 f lit).map .cmpLtI32
  | 38 => (getK3 f lit).map .cmpLeI32
  | 39 => (getK3 f lit).map .cmpLtN32
  | 40 => (getK3 f lit).map .cmpLeN32
  | 41 => (getK3 f lit).map .cmpEqI64
  | 42 => (getK3 f lit).map .cmpLtI64
  | 43 => (getK3 f lit).map .cmpLtN64
  | _ => none

/-- R88: the instructions of major 1, from the op and the low 22 bits. -/
def parseFloat (op f : Nat) (lit : W) : Option Instr :=
  match op with
  | 0 => (getV3 f lit).map .faddF32
  | 1 => (getV3 f lit).map .fsubF32
  | 2 => (getV3 f lit).map .fmulF32
  | 3 => (getV3 f lit).map .fminF32
  | 4 => (getV3 f lit).map .fmaxF32
  | 5 => (getV3 f lit).map .fminnF32
  | 6 => (getV3 f lit).map .fmaxnF32
  | 7 => (getV2 f lit).map .fabsF32
  | 8 => (getV2 f lit).map .fnegF32
  | 9 => (getV2 f lit).map .fclassF32
  | 10 => (getV3 f lit).map .fscaleF32
  | 11 => (getK3 f lit).map .fcmpEqF32
  | 12 => (getK3 f lit).map .fcmpLtF32
  | 13 => (getK3 f lit).map .fcmpLeF32
  | 14 => (getK3 f lit).map .fcmpUnF32
  | 15 => (getV3 f lit).map .faddF16x2
  | 16 => (getV3 f lit).map .fsubF16x2
  | 17 => (getV3 f lit).map .fmulF16x2
  | 18 => (getV3 f lit).map .faddBf16x2
  | 19 => (getV3 f lit).map .fsubBf16x2
  | 20 => (getV3 f lit).map .fmulBf16x2
  | 21 => (getV3 f lit).map .fmaxBf16x2
  | 22 => (getV3 f lit).map .fminBf16x2
  | 23 => (getV3 f lit).map .faddF64
  | 24 => (getV3 f lit).map .fsubF64
  | 25 => (getV3 f lit).map .fmulF64
  | 26 => (getV3 f lit).map .fminF64
  | 27 => (getV3 f lit).map .fmaxF64
  | 28 => (getK3 f lit).map .fcmpLtF64
  | 29 => (getK3 f lit).map .fcmpEqF64
  | _ => none

/-- R88: the instructions of major 2, from the op and the low 22 bits. -/
def parseAccumulate (op f : Nat) (lit : W) : Option Instr :=
  match op with
  | 0 => (getV3 f lit).map .fmaF32
  | 1 => (getV3 f lit).map .fnmaF32
  | 2 => (getV3 f lit).map .fmaF16x2
  | 3 => (getV3 f lit).map .fmaBf16x2
  | 4 => (getV3 f lit).map .fmaF64
  | 5 => (getV3 f lit).map .fdot2F32Bf16
  | 6 => (getV3 f lit).map .fdot2F32F16
  | 7 => (getV3 f lit).map .madLoI32
  | 8 => (getV3 f lit).map .madHiN32
  | 9 => (getV3 f lit).map .madWideN32
  | 10 => (getV3 f lit).map .bfiB32
  | 11 => (getV3 f lit).map .bdot4I32I8
  | 12 => (getV3 f lit).map .bdot4I32N8
  | _ => none

/-- R88: the instructions of major 3, from the op and the low 22 bits. -/
def parseConvert (op f : Nat) (lit : W) : Option Instr :=
  match op with
  | 0 => (getV2 f lit).map .movB32
  | 1 => (getV2 f lit).map .movB64
  | 2 => (getC2 f lit).map .cvtF32I32
  | 3 => (getC2 f lit).map .cvtF32N32
  | 4 => (getC2 f lit).map .cvtI32F32
  | 5 => (getC2 f lit).map .cvtN32F32
  | 6 => (getC2 f lit).map .froundF32
  | 7 => (getP2 f lit).map .cvtF16x2F32
  | 8 => (getP2 f lit).map .cvtBf16x2F32
  | 9 => (getU2 f lit).map .cvtF32F16
  | 10 => (getU2 f lit).map .cvtF32Bf16
  | 11 => (getP2 f lit).map .cvtE4m3x4F32
  | 12 => (getP2 f lit).map .cvtE5m2x4F32
  | 13 => (getU2 f lit).map .cvtF32E4m3
  | 14 => (getU2 f lit).map .cvtF32E5m2
  | 15 => (getV2 f lit).map .cvtF64F32
  | 16 => (getC2 f lit).map .cvtF32F64
  | 17 => (getP2 f lit).map .cvtI8x4I32
  | 18 => (getU2 f lit).map .cvtI32I8
  | _ => none

/-- R88: the instructions of major 4, from the op and the low 22 bits. -/
def parseLane (op f : Nat) (lit : W) : Option Instr :=
  match op with
  | 0 => (getV3 f lit).map .lpick
  | 1 => (getX3 f lit).map .bflyB32
  | 2 => (getX3 f lit).map .bflyB64
  | 3 => (getX3 f lit).map .rotLane
  | 4 => (getX3 f lit).map .bcast
  | 5 => (getV2 f lit).map .redAddI32
  | 6 => (getV2 f lit).map .redAddF32
  | 7 => (getV2 f lit).map .redMinI32
  | 8 => (getV2 f lit).map .redMaxI32
  | 9 => (getV2 f lit).map .redMinF32
  | 10 => (getV2 f lit).map .redMaxF32
  | 11 => (getV2 f lit).map .redxMaxF32
  | 12 => (getV2 f lit).map .redxMinF32
  | 13 => (getV2 f lit).map .scanAddI32
  | 14 => (getV2 f lit).map .scanAddF32
  | 15 => (getMnz f lit).map .mnz
  | 16 => (getM3 f lit).map .mand
  | 17 => (getM3 f lit).map .mor
  | 18 => (getM3 f lit).map .mxor
  | 19 => (getM3 f lit).map .mandn
  | 20 => (getM2 f lit).map .mnot
  | 21 => (getM2 f lit).map .mmov
  | 22 => (getMS f lit).map .mcount
  | 23 => (getMS f lit).map .mfirst
  | 24 => (getMF f lit).map .mfrom
  | _ => none

/-- R88: the instructions of major 5, from the op and the low 22 bits. -/
def parseScalar (op f : Nat) (lit : W) : Option Instr :=
  match op with
  | 0 => (getS3 f lit).map .sadd
  | 1 => (getS3 f lit).map .ssub
  | 2 => (getS3 f lit).map .smul
  | 3 => (getS3 f lit).map .smulhiN64
  | 4 => (getS3 f lit).map .sand
  | 5 => (getS3 f lit).map .sor
  | 6 => (getS3 f lit).map .sxor
  | 7 => (getS3 f lit).map .sshl
  | 8 => (getS3 f lit).map .sshr
  | 9 => (getS3 f lit).map .ssra
  | 10 => (getS3 f lit).map .sminI64
  | 11 => (getS3 f lit).map .smaxI64
  | 12 => (getS3 f lit).map .sminN64
  | 13 => (getS3 f lit).map .smaxN64
  | 14 => (getS2 f lit).map .smov
  | 15 => (getS3 f lit).map .ssetEq
  | 16 => (getS3 f lit).map .ssetLtI64
  | 17 => (getS3 f lit).map .ssetLtN64
  | 18 => (getS3 f lit).map .sfromLane
  | 19 => (getS3 f lit).map .shi
  | _ => none

/-- R88: the instructions of major 6, from the op and the low 22 bits. -/
def parseMemory (op f : Nat) (lit : W) : Option Instr :=
  match op with
  | 0 => (getLd f lit).map .ldB8N
  | 1 => (getLd f lit).map .ldB8I
  | 2 => (getLd f lit).map .ldB16N
  | 3 => (getLd f lit).map .ldB16I
  | 4 => (getLd f lit).map .ldB32
  | 5 => (getLd f lit).map .ldB64
  | 6 => (getLd f lit).map .ldB128
  | 7 => (getSt f lit).map .stB8
  | 8 => (getSt f lit).map .stB16
  | 9 => (getSt f lit).map .stB32
  | 10 => (getSt f lit).map .stB64
  | 11 => (getSt f lit).map .stB128
  | 12 => (getLp f lit).map .ldParamB32
  | 13 => (getLp f lit).map .ldParamB64
  | 14 => (getSl f lit).map .sldB64
  | 15 => (getSl f lit).map .sstB64
  | 16 => (getPf f lit).map .prefetch
  | 17 => (getLd f lit).map .acvtGenLocal
  | 18 => (getLd f lit).map .acvtGenStore
  | 19 => (getLd f lit).map .acvtGenQuad
  | 20 => (getLd f lit).map .acvtLocal
  | 21 => (getLd f lit).map .acvtStore
  | 22 => (getLd f lit).map .acvtQuad
  | 23 => (getAtest f lit).map .atestLocal
  | 24 => (getAtest f lit).map .atestStore
  | 25 => (getAtest f lit).map .atestQuad
  | 26 => (getAtom f lit).map .atomAddI32
  | 27 => (getAtom f lit).map .atomAddI64
  | 28 => (getAtom f lit).map .atomFaddF32
  | 29 => (getAtom f lit).map .atomFaddBf16x2
  | 30 => (getAtom f lit).map .atomMinI32
  | 31 => (getAtom f lit).map .atomMaxI32
  | 32 => (getAtom f lit).map .atomMinN32
  | 33 => (getAtom f lit).map .atomMaxN32
  | 34 => (getAtom f lit).map .atomAndB32
  | 35 => (getAtom f lit).map .atomOrB32
  | 36 => (getAtom f lit).map .atomXorB32
  | 37 => (getAtom f lit).map .atomXchgB32
  | 38 => (getAtom f lit).map .atomXchgB64
  | 39 => (getCas f lit).map .atomCasB32
  | 40 => (getCas f lit).map .atomCasB64
  | _ => none

/-- R88: the instructions of major 7, from the op and the low 22 bits. -/
def parseCopy (op f : Nat) (lit : W) : Option Instr :=
  match op with
  | 0 => (getCp f lit).map .cpG2s
  | 1 => (getCp f lit).map .cpS2g
  | 2 => (getCp f lit).map .cpS2s
  | 3 => (getCp f lit).map .cpG2p
  | 4 => (getCp f lit).map .cpS2p
  | 5 => (getCp f lit).map .cpMcast
  | 6 => (getCp f lit).map .cpPut
  | 7 => (getCp f lit).map .cpFill
  | 8 => if bitsOf f 3 0 = 1 ∧ bitsOf f 21 8 = 0 then some (.cpClose (bitsOf f 7 4)) else none
  | _ => none

/-- R88: the instructions of major 8, from the op and the low 22 bits. -/
def parseMatrix (op f : Nat) (_lit : W) : Option Instr :=
  match op with
  | 0 => if bitsOf f 0 0 = 0 ∧ bitsOf f 14 6 = 0 ∧ bitsOf f 21 20 = 0 then some (.pres (bitsOf f 19 15) (bitsOf f 5 1 * 2)) else none
  | 1 => if bitsOf f 14 8 = 0 ∧ bitsOf f 21 20 = 0 then some (.pset (bitsOf f 19 15) (bitsOf f 7 6) (bitsOf f 5 0)) else none
  | 2 => if bitsOf f 14 0 = 0 ∧ bitsOf f 21 20 = 0 then some (.prel (bitsOf f 19 15)) else none
  | 3 => if bitsOf f 19 0 = 0 then some (.mzero (bitsOf f 21 20)) else none
  | 4 => some (.mmk (bitsOf f 21 20) (bitsOf f 19 15) (bitsOf f 14 10) (bitsOf f 9 0))
  | 5 => if bitsOf f 21 15 = 0 then some (.mtab (bitsOf f 14 10) (bitsOf f 9 0)) else none
  | 6 => some (.mlut (bitsOf f 21 20) (bitsOf f 19 15) (bitsOf f 14 10) (bitsOf f 9 0))
  | 7 => if bitsOf f 5 3 = 0 ∧ bitsOf f 19 10 = 0 then some (.mdrain (bitsOf f 21 20) (bitsOf f 9 6 * 8) (bitsOf f 2 0)) else none
  | 8 => if bitsOf f 4 2 = 0 ∧ bitsOf f 19 16 = 0 then some (.mdrainMx (bitsOf f 21 20) (bitsOf f 15 15) (bitsOf f 14 10) (bitsOf f 9 5 * 4) (bitsOf f 1 0)) else none
  | 9 => if bitsOf f 19 6 = 0 then some (.msave (bitsOf f 21 20) (bitsOf f 5 0)) else none
  | 10 => if bitsOf f 19 6 = 0 then some (.mload (bitsOf f 21 20) (bitsOf f 5 0)) else none
  | 11 => (if bitsOf f 1 0 = 0 ∧ bitsOf f 9 9 = 0 ∧ bitsOf f 21 21 = 0 then some (.mstatBlock (bitsOf f 20 20) (bitsOf f 19 15) (bitsOf f 14 10) (bitsOf f 8 2)) else none).orElse (fun _ => if bitsOf f 1 0 = 0 ∧ bitsOf f 19 9 = 1 then some (.mstatTile (bitsOf f 21 20) (bitsOf f 8 2)) else none)
  | 12 => if bitsOf f 19 10 = 0 then some (.msuggest (bitsOf f 21 20) (bitsOf f 9 6) (bitsOf f 5 0)) else none
  | 13 => (if bitsOf f 7 4 = 0 ∧ bitsOf f 19 9 = 0 then some (.mscaleImm (bitsOf f 21 20) (bitsOf f 8 8) (bitsOf f 3 0)) else none).orElse (fun _ => if bitsOf f 7 6 = 0 ∧ bitsOf f 19 9 = 1 then some (.mscaleReg (bitsOf f 21 20) (bitsOf f 8 8) (bitsOf f 5 0)) else none)
  | _ => none

/-- R88: the instructions of major 9, from the op and the low 22 bits. -/
def parseQueue (op f : Nat) (_lit : W) : Option Instr :=
  match op with
  | 0 => if bitsOf f 21 15 = 0 then some (.qbind (bitsOf f 14 11) (bitsOf f 10 10) (bitsOf f 9 4) (bitsOf f 3 0)) else none
  | 1 => if bitsOf f 10 0 = 0 then some (.qpush (bitsOf f 21 15) (bitsOf f 14 11)) else none
  | 2 => if bitsOf f 10 0 = 0 then some (.qpop (bitsOf f 21 15) (bitsOf f 14 11)) else none
  | 3 => if bitsOf f 10 3 = 0 then some (.qtry (bitsOf f 21 15) (bitsOf f 14 11) (bitsOf f 2 0)) else none
  | 4 => if bitsOf f 10 0 = 0 ∧ bitsOf f 21 21 = 0 then some (.qlevel (bitsOf f 20 15) (bitsOf f 14 11)) else none
  | 5 => if bitsOf f 10 0 = 0 ∧ bitsOf f 21 15 = 0 then some (.qunbind (bitsOf f 14 11)) else none
  | _ => none

/-- R88: the instructions of major A, from the op and the low 22 bits. -/
noncomputable def parseSync (op f : Nat) (_lit : W) : Option Instr :=
  match op with
  | 0 => if bitsOf f 17 0 = 0 then some (.barCore (bitsOf f 21 18)) else none
  | 1 => if bitsOf f 17 0 = 0 then some (.barQuad (bitsOf f 21 18)) else none
  | 2 => if bitsOf f 21 0 = 0 then some (.barDie) else none
  | 3 => if bitsOf f 21 0 = 0 then some (.barPkg) else none
  | 4 => if bitsOf f 21 0 = 0 then some (.barPod) else none
  | 5 => if bitsOf f 9 0 = 0 then some (.bexp (bitsOf f 21 18) (bitsOf f 17 10)) else none
  | 6 => if bitsOf f 11 0 = 0 then some (.arrive (bitsOf f 21 18) (bitsOf f 17 12)) else none
  | 7 => if bitsOf f 11 0 = 0 then some (.arriveRemote (bitsOf f 21 18) (bitsOf f 17 12)) else none
  | 8 => if bitsOf f 11 0 = 0 then some (.bwait (bitsOf f 21 18) (bitsOf f 17 12)) else none
  | 9 => if bitsOf f 5 0 = 0 then some (.wait (bitsOf f 21 18) (bitsOf f 17 14) (bitsOf f 13 10) (bitsOf f 9 6)) else none
  | 10 => if bitsOf f 3 0 = 0 then some (.watch (bitsOf f 21 20) (bitsOf f 19 14) (bitsOf f 13 8) (bitsOf f 7 5) (bitsOf f 4 4)) else none
  | 11 => if bitsOf f 6 0 = 0 then some (.cond (bitsOf f 21 20) (bitsOf f 19 17) (bitsOf f 16 13) (bitsOf f 12 7)) else none
  | 12 => if bitsOf f 10 0 = 0 then some (.waitv (bitsOf f 21 18) (bitsOf f 17 17) (bitsOf f 16 11)) else none
  | 13 => if bitsOf f 3 0 = 0 then some (.waitu (bitsOf f 21 20) (bitsOf f 19 14) (bitsOf f 13 8) (bitsOf f 7 5) (bitsOf f 4 4)) else none
  | 14 => if bitsOf f 6 0 = 0 then some (.fence (bitsOf f 21 16) (bitsOf f 15 10) (bitsOf f 9 7)) else none
  | 15 => if bitsOf f 14 0 = 0 then some (.commit (bitsOf f 21 15)) else none
  | 16 => if bitsOf f 21 0 = 0 then some (.txBegin) else none
  | 17 => if bitsOf f 21 0 = 0 then some (.txEnd) else none
  | 18 => if bitsOf f 21 8 = 0 then some (.txAbort (bitsOf f 7 0)) else none
  | 19 => (if bitsOf f 21 0 = 0 then some (.beat) else none).orElse (fun _ => if bitsOf f 15 0 = 32768 then some (.beatReg (bitsOf f 21 16)) else none)
  | 20 => if bitsOf f 9 0 = 0 then some (.quiescePkg (bitsOf f 21 16) (bitsOf f 15 10)) else none
  | 21 => if bitsOf f 9 0 = 0 then some (.quiescePod (bitsOf f 21 16) (bitsOf f 15 10)) else none
  | _ => none

/-- R88: the instructions of major B, from the op and the low 22 bits. -/
noncomputable def parseBranch (op f : Nat) (_lit : W) : Option Instr :=
  match op with
  | 0 => if bitsOf f 21 16 = 0 then some (.br (bitsOf f 15 0)) else none
  | 1 => some (.brz (bitsOf f 21 16) (bitsOf f 15 0))
  | 2 => some (.brnz (bitsOf f 21 16) (bitsOf f 15 0))
  | 3 => some (.bra (bitsOf f 21 16) (bitsOf f 15 0))
  | 4 => some (.brn (bitsOf f 21 16) (bitsOf f 15 0))
  | 5 => some (.brv (bitsOf f 21 16) (bitsOf f 15 0))
  | 6 => some (.call (bitsOf f 21 16) (bitsOf f 15 0))
  | 7 => if bitsOf f 15 6 = 0 then some (.callr (bitsOf f 21 16) (bitsOf f 5 0)) else none
  | 8 => if bitsOf f 15 0 = 0 then some (.ret (bitsOf f 21 16)) else none
  | 9 => if bitsOf f 21 0 = 0 then some (.join) else none
  | 10 => if bitsOf f 21 0 = 0 then some (.exit) else none
  | 11 => if bitsOf f 21 0 = 0 then some (.yield) else none
  | _ => none

/-- R88: the instructions of major C, from the op and the low 22 bits. -/
noncomputable def parseFabric (op f : Nat) (_lit : W) : Option Instr :=
  match op with
  | 0 => if bitsOf f 0 0 = 1 then some (.collRed (bitsOf f 21 15) (bitsOf f 14 8) (bitsOf f 7 1)) else none
  | 1 => if bitsOf f 0 0 = 1 then some (.collBcast (bitsOf f 21 15) (bitsOf f 14 8) (bitsOf f 7 1)) else none
  | 2 => if bitsOf f 0 0 = 1 then some (.putWin (bitsOf f 21 15) (bitsOf f 14 8) (bitsOf f 7 1)) else none
  | 3 => if bitsOf f 7 0 = 0 then some (.getWin (bitsOf f 21 15) (bitsOf f 14 8)) else none
  | 4 => if bitsOf f 0 0 = 1 ∧ bitsOf f 21 15 = 0 then some (.winAdd (bitsOf f 14 8) (bitsOf f 7 1)) else none
  | 5 => if bitsOf f 0 0 = 1 ∧ bitsOf f 14 8 = 0 then some (.winRead (bitsOf f 21 15) (bitsOf f 7 1)) else none
  | 6 => if bitsOf f 0 0 = 1 then some (.xshf (bitsOf f 21 15) (bitsOf f 14 8) (bitsOf f 7 1)) else none
  | 7 => if bitsOf f 7 0 = 0 then some (.mordAlloc (bitsOf f 21 15) (bitsOf f 14 8)) else none
  | 8 => if bitsOf f 0 0 = 0 then some (.mordSend (bitsOf f 21 15) (bitsOf f 14 8) (bitsOf f 7 1)) else none
  | 9 => if bitsOf f 14 0 = 0 then some (.mordStat (bitsOf f 21 15)) else none
  | 10 => if bitsOf f 7 0 = 0 ∧ bitsOf f 21 15 = 0 then some (.mordFree (bitsOf f 14 8)) else none
  | 11 => if bitsOf f 0 0 = 1 ∧ bitsOf f 14 8 = 0 then some (.histRead (bitsOf f 21 15) (bitsOf f 7 1)) else none
  | _ => none

/-- R88: the instructions of major D, from the op and the low 22 bits. -/
noncomputable def parseSystem (op f : Nat) (_lit : W) : Option Instr :=
  match op with
  | 0 => if bitsOf f 21 16 = 0 then some (.trap (bitsOf f 15 0)) else none
  | 1 => if bitsOf f 4 0 = 0 then some (.sreg (bitsOf f 21 12) (bitsOf f 11 5)) else none
  | 2 => if bitsOf f 4 0 = 0 then some (.swreg (bitsOf f 21 12) (bitsOf f 11 5)) else none
  | 3 => if bitsOf f 21 16 = 0 then some (.brk (bitsOf f 15 0)) else none
  | 4 => if bitsOf f 21 0 = 0 then some (.halt) else none
  | 5 => if bitsOf f 21 0 = 0 then some (.eret) else none
  | _ => none

/-- R88: the instruction of a major and an op. -/
noncomputable def parseWord (mj op f : Nat) (lit : W) : Option Instr :=
  match mj with
  | 0 => parseInteger op f lit
  | 1 => parseFloat op f lit
  | 2 => parseAccumulate op f lit
  | 3 => parseConvert op f lit
  | 4 => parseLane op f lit
  | 5 => parseScalar op f lit
  | 6 => parseMemory op f lit
  | 7 => parseCopy op f lit
  | 8 => parseMatrix op f lit
  | 9 => parseQueue op f lit
  | 10 => parseSync op f lit
  | 11 => parseBranch op f lit
  | 12 => parseFabric op f lit
  | 13 => parseSystem op f lit
  | _ => none

/-- R68, R69, R88: the shape of the operand fields of an op, none where the op value is reserved. -/
def formOf (mj op : Nat) : Option Form :=
  match mj with
  | 0 =>
    if op < 44 then if memNat op [29, 30, 31, 32] then some .va else if memNat op [35, 36, 37, 38, 39, 40, 41, 42, 43] then some .kab else some .vab else none
  | 1 =>
    if op < 30 then if memNat op [7, 8, 9] then some .va else if memNat op [11, 12, 13, 14, 28, 29] then some .kab else some .vab else none
  | 2 =>
    if op < 13 then some .vab else none
  | 3 =>
    if op < 19 then if memNat op [7, 8, 11, 12, 17] then some .pack else some .va else none
  | 4 =>
    if op < 25 then if memNat op [0, 1, 2, 3, 4] then some .vab else if memNat op [16, 17, 18, 19, 20, 21, 22, 23] then some .masks else if memNat op [24] then some .sa else some .va else none
  | 5 =>
    if op < 20 then if memNat op [14] then some .sa else some .sab else none
  | 6 =>
    if op < 41 then if memNat op [7, 8, 9] then some .store else if memNat op [26, 27, 28, 29, 30, 31, 32, 33, 34, 35, 36, 37, 38] then some .atom else some .mem else none
  | 7 =>
    if op < 9 then some .plain else none
  | 8 =>
    if op < 14 then some .plain else none
  | 9 =>
    if op < 6 then some .plain else none
  | 10 =>
    if op < 22 then some .plain else none
  | 11 =>
    if op < 12 then some .plain else none
  | 12 =>
    if op < 12 then some .plain else none
  | 13 =>
    if op < 6 then some .plain else none
  | _ => none

/-- R86, R70: the instruction whose major is mj, whose op is op and whose low 22 bits are f, with its
literal; a reserved op value or an operand R75 to R86 do not admit is refused by name. -/
noncomputable def decodeFields (mj op f : Nat) (lit : W) : Except DecodeError Instr :=
  match formOf mj op with
  | none => .error .reservedOp
  | some _ =>
    match parseWord mj op f lit with
    | none => .error .illegalField
    | some i => if i.wf then .ok i else .error .illegalField

/-- R68: whether a body word calls for a literal. -/
def wordCallsLiteral (w : W) : Bool :=
  match formOf (w.toNat / 2 ^ 28) (w.toNat / 2 ^ 22 % 64) with
  | some fm => fm.callsLiteral (w.toNat % 2 ^ 22)
  | none => false

/-- The instruction at the head of a list of words, and the words after it and its literal. -/
noncomputable def decodeWords : List W → Except DecodeError (Instr × List W)
  | [] => .error .noWord
  | w :: ws =>
    if wordCallsLiteral w then
      match ws with
      | [] => .error .missingLiteral
      | l :: rest =>
        (decodeFields (w.toNat / 2 ^ 28) (w.toNat / 2 ^ 22 % 64) (w.toNat % 2 ^ 22) l).map
          (fun i => (i, rest))
    else
      (decodeFields (w.toNat / 2 ^ 28) (w.toNat / 2 ^ 22 % 64) (w.toNat % 2 ^ 22) 0).map
        (fun i => (i, ws))

/-- R62: the words of a list of bytes, each little-endian; a tail of fewer than 4 bytes makes no word. -/
def wordsOfBytes : List Byte → List W
  | a :: b :: c :: d :: rest => (d ++ c ++ b ++ a) :: wordsOfBytes rest
  | _ => []

/-- The decoder, total on any bytes. -/
noncomputable def decode (bs : List Byte) : Except DecodeError (Instr × List W) := decodeWords (wordsOfBytes bs)

/-! The encoder, from the same encoding tables. -/

/-- R88: the word of a major, an op and the low 22 bits. -/
def mkWord (mj op low : Nat) : W := BitVec.ofNat 32 (mj * 2 ^ 28 + op * 2 ^ 22 + low)

/-- R99: the field of a vector source. -/
def VSrc.code : VSrc → Nat
  | .reg n => n
  | .lit _ => 127

/-- The literal word of a vector source. -/
def VSrc.lits : VSrc → List W
  | .reg _ => []
  | .lit w => [w]

/-- R75: the fields b and S together. -/
def BSrc.code : BSrc → Nat
  | .reg n => n * 2
  | .sca n => n * 2 + 1
  | .lit _ => 254

/-- The literal word of a second source. -/
def BSrc.lits : BSrc → List W
  | .reg _ => []
  | .sca _ => []
  | .lit w => [w]

/-- R76: the field of a scalar source. -/
def SSrc.code : SSrc → Nat
  | .reg n => n
  | .lit _ => 127

/-- The literal word of a scalar source. -/
def SSrc.lits : SSrc → List W
  | .reg _ => []
  | .lit w => [w]

/-- R134: the fields b and S of an exchange. -/
def USrc.code : USrc → Nat
  | .sca n => n * 2 + 1
  | .lit _ => 254

/-- The literal word of a common source. -/
def USrc.lits : USrc → List W
  | .sca _ => []
  | .lit w => [w]

/-- A flag bit. -/
def bit01 (b : Bool) : Nat := if b then 1 else 0

/-- R75. -/
def putV3 (o : V3) : Nat × List W :=
  (o.d * 2 ^ 15 + o.a.code * 2 ^ 8 + o.b.code, o.a.lits ++ o.b.lits)

/-- R75. -/
def putV2 (o : V2) : Nat × List W := (o.d * 2 ^ 15 + o.a.code * 2 ^ 8, o.a.lits)

/-- R76. -/
def putK3 (o : K3) : Nat × List W :=
  (o.k * 2 ^ 15 + o.a.code * 2 ^ 8 + o.b.code, o.a.lits ++ o.b.lits)

/-- R77. -/
def putC2 (o : C2) : Nat × List W :=
  (o.d * 2 ^ 15 + o.a.code * 2 ^ 8 + o.rnd * 2 ^ 5 + bit01 o.sat * 2 ^ 4, o.a.lits)

/-- R77, R127. -/
def putP2 (o : P2) : Nat × List W :=
  (o.d * 2 ^ 15 + o.a * 2 ^ 8 + o.rnd * 2 ^ 5 + bit01 o.sat * 2 ^ 4, [])

/-- R77, R128. -/
def putU2 (o : U2) : Nat × List W := (o.d * 2 ^ 15 + o.a.code * 2 ^ 8 + o.elem * 2, o.a.lits)

/-- R134. -/
def putX3 (o : X3) : Nat × List W :=
  (o.d * 2 ^ 15 + o.a.code * 2 ^ 8 + o.b.code, o.a.lits ++ o.b.lits)

/-- R140. -/
def putMnz (o : MnzOp) : Nat × List W := (o.k * 2 ^ 15 + o.a.code * 2 ^ 8, o.a.lits)

/-- R140. -/
def putM3 (o : M3) : Nat × List W := (o.k * 2 ^ 15 + o.a * 2 ^ 8 + o.b * 2, [])

/-- R140. -/
def putM2 (o : M2) : Nat × List W := (o.k * 2 ^ 15 + o.a * 2 ^ 8, [])

/-- R141. -/
def putMS (o : MaskToScalar) : Nat × List W := (o.d * 2 ^ 15 + o.a * 2 ^ 8, [])

/-- R141. -/
def putMF (o : MaskFrom) : Nat × List W := (o.k * 2 ^ 15 + o.a.code * 2 ^ 8, o.a.lits)

/-- R130. -/
def putS3 (o : S3) : Nat × List W :=
  (o.d * 2 ^ 15 + o.a.code * 2 ^ 8 + o.b.code * 2, o.a.lits ++ o.b.lits)

/-- R130. -/
def putS2 (o : S2) : Nat × List W := (o.d * 2 ^ 15 + o.a.code * 2 ^ 8, o.a.lits)

/-- R78: the fields of an address. -/
def MAddr.code (m : MAddr) : Nat := m.base * 2 ^ 9 + m.off.code * 2 ^ 2 + m.scale

/-- R145, R150. -/
def putLd (o : LdOp) : Nat × List W := (o.d * 2 ^ 15 + o.mem.code, o.mem.off.lits)

/-- R146. -/
def putSt (o : StOp) : Nat × List W := (o.data.code * 2 ^ 15 + o.mem.code, o.data.lits ++ o.mem.off.lits)

/-- R147. -/
def putLp (o : LpOp) : Nat × List W :=
  (o.d * 2 ^ 15 + o.win * 2 ^ 9 + 127 * 2 ^ 2 + o.scale, [o.off])

/-- R148. -/
def putSl (o : SlOp) : Nat × List W :=
  (o.d * 2 ^ 15 + o.base * 2 ^ 9 + 127 * 2 ^ 2 + o.scale, [o.off])

/-- R149. -/
def putPf (o : PfOp) : Nat × List W := (o.mem.code, o.mem.off.lits)

/-- R150. -/
def putAtest (o : AtestOp) : Nat × List W := (o.k * 2 ^ 15 + o.mem.code, o.mem.off.lits)

/-- R151. -/
def putAtom (o : AtomOp) : Nat × List W := (o.d.code * 2 ^ 15 + o.mem.code, o.d.lits ++ o.mem.off.lits)

/-- R152. -/
def putCas (o : CasOp) : Nat × List W := (o.d * 2 ^ 15 + o.mem.code, o.mem.off.lits)

/-- R79. -/
def putCp (o : CpOp) : Nat × List W :=
  (o.src * 2 ^ 15 + o.dst * 2 ^ 8 + o.bar * 2 ^ 4 + o.size * 2 ^ 2 + bit01 o.nt * 2 + bit01 o.acc, [])

/-- R75 to R88: the words of a well-formed instruction, its literal included. An event has no words. -/
def encode : Instr → List W
  | .addI32 o => mkWord 0 0 (putV3 o).1 :: (putV3 o).2
  | .subI32 o => mkWord 0 1 (putV3 o).1 :: (putV3 o).2
  | .addSatI32 o => mkWord 0 2 (putV3 o).1 :: (putV3 o).2
  | .subSatI32 o => mkWord 0 3 (putV3 o).1 :: (putV3 o).2
  | .addSatN32 o => mkWord 0 4 (putV3 o).1 :: (putV3 o).2
  | .subSatN32 o => mkWord 0 5 (putV3 o).1 :: (putV3 o).2
  | .addI64 o => mkWord 0 6 (putV3 o).1 :: (putV3 o).2
  | .subI64 o => mkWord 0 7 (putV3 o).1 :: (putV3 o).2
  | .mulLoI32 o => mkWord 0 8 (putV3 o).1 :: (putV3 o).2
  | .mulHiI32 o => mkWord 0 9 (putV3 o).1 :: (putV3 o).2
  | .mulHiN32 o => mkWord 0 10 (putV3 o).1 :: (putV3 o).2
  | .mulWideI32 o => mkWord 0 11 (putV3 o).1 :: (putV3 o).2
  | .mulWideN32 o => mkWord 0 12 (putV3 o).1 :: (putV3 o).2
  | .minI32 o => mkWord 0 13 (putV3 o).1 :: (putV3 o).2
  | .maxI32 o => mkWord 0 14 (putV3 o).1 :: (putV3 o).2
  | .minN32 o => mkWord 0 15 (putV3 o).1 :: (putV3 o).2
  | .maxN32 o => mkWord 0 16 (putV3 o).1 :: (putV3 o).2
  | .absdiffN32 o => mkWord 0 17 (putV3 o).1 :: (putV3 o).2
  | .avgN32 o => mkWord 0 18 (putV3 o).1 :: (putV3 o).2
  | .andB32 o => mkWord 0 19 (putV3 o).1 :: (putV3 o).2
  | .orB32 o => mkWord 0 20 (putV3 o).1 :: (putV3 o).2
  | .xorB32 o => mkWord 0 21 (putV3 o).1 :: (putV3 o).2
  | .andnB32 o => mkWord 0 22 (putV3 o).1 :: (putV3 o).2
  | .shlB32 o => mkWord 0 23 (putV3 o).1 :: (putV3 o).2
  | .shrB32 o => mkWord 0 24 (putV3 o).1 :: (putV3 o).2
  | .sraI32 o => mkWord 0 25 (putV3 o).1 :: (putV3 o).2
  | .rotlB32 o => mkWord 0 26 (putV3 o).1 :: (putV3 o).2
  | .shlB64 o => mkWord 0 27 (putV3 o).1 :: (putV3 o).2
  | .shrB64 o => mkWord 0 28 (putV3 o).1 :: (putV3 o).2
  | .popcB32 o => mkWord 0 29 (putV2 o).1 :: (putV2 o).2
  | .clzB32 o => mkWord 0 30 (putV2 o).1 :: (putV2 o).2
  | .ctzB32 o => mkWord 0 31 (putV2 o).1 :: (putV2 o).2
  | .brevB32 o => mkWord 0 32 (putV2 o).1 :: (putV2 o).2
  | .bfeN32 o => mkWord 0 33 (putV3 o).1 :: (putV3 o).2
  | .bfeI32 o => mkWord 0 34 (putV3 o).1 :: (putV3 o).2
  | .cmpEqI32 o => mkWord 0 35 (putK3 o).1 :: (putK3 o).2
  | .cmpNeI32 o => mkWord 0 36 (putK3 o).1 :: (putK3 o).2
  | .cmpLtI32 o => mkWord 0 37 (putK3 o).1 :: (putK3 o).2
  | .cmpLeI32 o => mkWord 0 38 (putK3 o).1 :: (putK3 o).2
  | .cmpLtN32 o => mkWord 0 39 (putK3 o).1 :: (putK3 o).2
  | .cmpLeN32 o => mkWord 0 40 (putK3 o).1 :: (putK3 o).2
  | .cmpEqI64 o => mkWord 0 41 (putK3 o).1 :: (putK3 o).2
  | .cmpLtI64 o => mkWord 0 42 (putK3 o).1 :: (putK3 o).2
  | .cmpLtN64 o => mkWord 0 43 (putK3 o).1 :: (putK3 o).2
  | .faddF32 o => mkWord 1 0 (putV3 o).1 :: (putV3 o).2
  | .fsubF32 o => mkWord 1 1 (putV3 o).1 :: (putV3 o).2
  | .fmulF32 o => mkWord 1 2 (putV3 o).1 :: (putV3 o).2
  | .fminF32 o => mkWord 1 3 (putV3 o).1 :: (putV3 o).2
  | .fmaxF32 o => mkWord 1 4 (putV3 o).1 :: (putV3 o).2
  | .fminnF32 o => mkWord 1 5 (putV3 o).1 :: (putV3 o).2
  | .fmaxnF32 o => mkWord 1 6 (putV3 o).1 :: (putV3 o).2
  | .fabsF32 o => mkWord 1 7 (putV2 o).1 :: (putV2 o).2
  | .fnegF32 o => mkWord 1 8 (putV2 o).1 :: (putV2 o).2
  | .fclassF32 o => mkWord 1 9 (putV2 o).1 :: (putV2 o).2
  | .fscaleF32 o => mkWord 1 10 (putV3 o).1 :: (putV3 o).2
  | .fcmpEqF32 o => mkWord 1 11 (putK3 o).1 :: (putK3 o).2
  | .fcmpLtF32 o => mkWord 1 12 (putK3 o).1 :: (putK3 o).2
  | .fcmpLeF32 o => mkWord 1 13 (putK3 o).1 :: (putK3 o).2
  | .fcmpUnF32 o => mkWord 1 14 (putK3 o).1 :: (putK3 o).2
  | .faddF16x2 o => mkWord 1 15 (putV3 o).1 :: (putV3 o).2
  | .fsubF16x2 o => mkWord 1 16 (putV3 o).1 :: (putV3 o).2
  | .fmulF16x2 o => mkWord 1 17 (putV3 o).1 :: (putV3 o).2
  | .faddBf16x2 o => mkWord 1 18 (putV3 o).1 :: (putV3 o).2
  | .fsubBf16x2 o => mkWord 1 19 (putV3 o).1 :: (putV3 o).2
  | .fmulBf16x2 o => mkWord 1 20 (putV3 o).1 :: (putV3 o).2
  | .fmaxBf16x2 o => mkWord 1 21 (putV3 o).1 :: (putV3 o).2
  | .fminBf16x2 o => mkWord 1 22 (putV3 o).1 :: (putV3 o).2
  | .faddF64 o => mkWord 1 23 (putV3 o).1 :: (putV3 o).2
  | .fsubF64 o => mkWord 1 24 (putV3 o).1 :: (putV3 o).2
  | .fmulF64 o => mkWord 1 25 (putV3 o).1 :: (putV3 o).2
  | .fminF64 o => mkWord 1 26 (putV3 o).1 :: (putV3 o).2
  | .fmaxF64 o => mkWord 1 27 (putV3 o).1 :: (putV3 o).2
  | .fcmpLtF64 o => mkWord 1 28 (putK3 o).1 :: (putK3 o).2
  | .fcmpEqF64 o => mkWord 1 29 (putK3 o).1 :: (putK3 o).2
  | .fmaF32 o => mkWord 2 0 (putV3 o).1 :: (putV3 o).2
  | .fnmaF32 o => mkWord 2 1 (putV3 o).1 :: (putV3 o).2
  | .fmaF16x2 o => mkWord 2 2 (putV3 o).1 :: (putV3 o).2
  | .fmaBf16x2 o => mkWord 2 3 (putV3 o).1 :: (putV3 o).2
  | .fmaF64 o => mkWord 2 4 (putV3 o).1 :: (putV3 o).2
  | .fdot2F32Bf16 o => mkWord 2 5 (putV3 o).1 :: (putV3 o).2
  | .fdot2F32F16 o => mkWord 2 6 (putV3 o).1 :: (putV3 o).2
  | .madLoI32 o => mkWord 2 7 (putV3 o).1 :: (putV3 o).2
  | .madHiN32 o => mkWord 2 8 (putV3 o).1 :: (putV3 o).2
  | .madWideN32 o => mkWord 2 9 (putV3 o).1 :: (putV3 o).2
  | .bfiB32 o => mkWord 2 10 (putV3 o).1 :: (putV3 o).2
  | .bdot4I32I8 o => mkWord 2 11 (putV3 o).1 :: (putV3 o).2
  | .bdot4I32N8 o => mkWord 2 12 (putV3 o).1 :: (putV3 o).2
  | .movB32 o => mkWord 3 0 (putV2 o).1 :: (putV2 o).2
  | .movB64 o => mkWord 3 1 (putV2 o).1 :: (putV2 o).2
  | .cvtF32I32 o => mkWord 3 2 (putC2 o).1 :: (putC2 o).2
  | .cvtF32N32 o => mkWord 3 3 (putC2 o).1 :: (putC2 o).2
  | .cvtI32F32 o => mkWord 3 4 (putC2 o).1 :: (putC2 o).2
  | .cvtN32F32 o => mkWord 3 5 (putC2 o).1 :: (putC2 o).2
  | .froundF32 o => mkWord 3 6 (putC2 o).1 :: (putC2 o).2
  | .cvtF16x2F32 o => mkWord 3 7 (putP2 o).1 :: (putP2 o).2
  | .cvtBf16x2F32 o => mkWord 3 8 (putP2 o).1 :: (putP2 o).2
  | .cvtF32F16 o => mkWord 3 9 (putU2 o).1 :: (putU2 o).2
  | .cvtF32Bf16 o => mkWord 3 10 (putU2 o).1 :: (putU2 o).2
  | .cvtE4m3x4F32 o => mkWord 3 11 (putP2 o).1 :: (putP2 o).2
  | .cvtE5m2x4F32 o => mkWord 3 12 (putP2 o).1 :: (putP2 o).2
  | .cvtF32E4m3 o => mkWord 3 13 (putU2 o).1 :: (putU2 o).2
  | .cvtF32E5m2 o => mkWord 3 14 (putU2 o).1 :: (putU2 o).2
  | .cvtF64F32 o => mkWord 3 15 (putV2 o).1 :: (putV2 o).2
  | .cvtF32F64 o => mkWord 3 16 (putC2 o).1 :: (putC2 o).2
  | .cvtI8x4I32 o => mkWord 3 17 (putP2 o).1 :: (putP2 o).2
  | .cvtI32I8 o => mkWord 3 18 (putU2 o).1 :: (putU2 o).2
  | .lpick o => mkWord 4 0 (putV3 o).1 :: (putV3 o).2
  | .bflyB32 o => mkWord 4 1 (putX3 o).1 :: (putX3 o).2
  | .bflyB64 o => mkWord 4 2 (putX3 o).1 :: (putX3 o).2
  | .rotLane o => mkWord 4 3 (putX3 o).1 :: (putX3 o).2
  | .bcast o => mkWord 4 4 (putX3 o).1 :: (putX3 o).2
  | .redAddI32 o => mkWord 4 5 (putV2 o).1 :: (putV2 o).2
  | .redAddF32 o => mkWord 4 6 (putV2 o).1 :: (putV2 o).2
  | .redMinI32 o => mkWord 4 7 (putV2 o).1 :: (putV2 o).2
  | .redMaxI32 o => mkWord 4 8 (putV2 o).1 :: (putV2 o).2
  | .redMinF32 o => mkWord 4 9 (putV2 o).1 :: (putV2 o).2
  | .redMaxF32 o => mkWord 4 10 (putV2 o).1 :: (putV2 o).2
  | .redxMaxF32 o => mkWord 4 11 (putV2 o).1 :: (putV2 o).2
  | .redxMinF32 o => mkWord 4 12 (putV2 o).1 :: (putV2 o).2
  | .scanAddI32 o => mkWord 4 13 (putV2 o).1 :: (putV2 o).2
  | .scanAddF32 o => mkWord 4 14 (putV2 o).1 :: (putV2 o).2
  | .mnz o => mkWord 4 15 (putMnz o).1 :: (putMnz o).2
  | .mand o => mkWord 4 16 (putM3 o).1 :: (putM3 o).2
  | .mor o => mkWord 4 17 (putM3 o).1 :: (putM3 o).2
  | .mxor o => mkWord 4 18 (putM3 o).1 :: (putM3 o).2
  | .mandn o => mkWord 4 19 (putM3 o).1 :: (putM3 o).2
  | .mnot o => mkWord 4 20 (putM2 o).1 :: (putM2 o).2
  | .mmov o => mkWord 4 21 (putM2 o).1 :: (putM2 o).2
  | .mcount o => mkWord 4 22 (putMS o).1 :: (putMS o).2
  | .mfirst o => mkWord 4 23 (putMS o).1 :: (putMS o).2
  | .mfrom o => mkWord 4 24 (putMF o).1 :: (putMF o).2
  | .sadd o => mkWord 5 0 (putS3 o).1 :: (putS3 o).2
  | .ssub o => mkWord 5 1 (putS3 o).1 :: (putS3 o).2
  | .smul o => mkWord 5 2 (putS3 o).1 :: (putS3 o).2
  | .smulhiN64 o => mkWord 5 3 (putS3 o).1 :: (putS3 o).2
  | .sand o => mkWord 5 4 (putS3 o).1 :: (putS3 o).2
  | .sor o => mkWord 5 5 (putS3 o).1 :: (putS3 o).2
  | .sxor o => mkWord 5 6 (putS3 o).1 :: (putS3 o).2
  | .sshl o => mkWord 5 7 (putS3 o).1 :: (putS3 o).2
  | .sshr o => mkWord 5 8 (putS3 o).1 :: (putS3 o).2
  | .ssra o => mkWord 5 9 (putS3 o).1 :: (putS3 o).2
  | .sminI64 o => mkWord 5 10 (putS3 o).1 :: (putS3 o).2
  | .smaxI64 o => mkWord 5 11 (putS3 o).1 :: (putS3 o).2
  | .sminN64 o => mkWord 5 12 (putS3 o).1 :: (putS3 o).2
  | .smaxN64 o => mkWord 5 13 (putS3 o).1 :: (putS3 o).2
  | .smov o => mkWord 5 14 (putS2 o).1 :: (putS2 o).2
  | .ssetEq o => mkWord 5 15 (putS3 o).1 :: (putS3 o).2
  | .ssetLtI64 o => mkWord 5 16 (putS3 o).1 :: (putS3 o).2
  | .ssetLtN64 o => mkWord 5 17 (putS3 o).1 :: (putS3 o).2
  | .sfromLane o => mkWord 5 18 (putS3 o).1 :: (putS3 o).2
  | .shi o => mkWord 5 19 (putS3 o).1 :: (putS3 o).2
  | .ldB8N o => mkWord 6 0 (putLd o).1 :: (putLd o).2
  | .ldB8I o => mkWord 6 1 (putLd o).1 :: (putLd o).2
  | .ldB16N o => mkWord 6 2 (putLd o).1 :: (putLd o).2
  | .ldB16I o => mkWord 6 3 (putLd o).1 :: (putLd o).2
  | .ldB32 o => mkWord 6 4 (putLd o).1 :: (putLd o).2
  | .ldB64 o => mkWord 6 5 (putLd o).1 :: (putLd o).2
  | .ldB128 o => mkWord 6 6 (putLd o).1 :: (putLd o).2
  | .stB8 o => mkWord 6 7 (putSt o).1 :: (putSt o).2
  | .stB16 o => mkWord 6 8 (putSt o).1 :: (putSt o).2
  | .stB32 o => mkWord 6 9 (putSt o).1 :: (putSt o).2
  | .stB64 o => mkWord 6 10 (putSt o).1 :: (putSt o).2
  | .stB128 o => mkWord 6 11 (putSt o).1 :: (putSt o).2
  | .ldParamB32 o => mkWord 6 12 (putLp o).1 :: (putLp o).2
  | .ldParamB64 o => mkWord 6 13 (putLp o).1 :: (putLp o).2
  | .sldB64 o => mkWord 6 14 (putSl o).1 :: (putSl o).2
  | .sstB64 o => mkWord 6 15 (putSl o).1 :: (putSl o).2
  | .prefetch o => mkWord 6 16 (putPf o).1 :: (putPf o).2
  | .acvtGenLocal o => mkWord 6 17 (putLd o).1 :: (putLd o).2
  | .acvtGenStore o => mkWord 6 18 (putLd o).1 :: (putLd o).2
  | .acvtGenQuad o => mkWord 6 19 (putLd o).1 :: (putLd o).2
  | .acvtLocal o => mkWord 6 20 (putLd o).1 :: (putLd o).2
  | .acvtStore o => mkWord 6 21 (putLd o).1 :: (putLd o).2
  | .acvtQuad o => mkWord 6 22 (putLd o).1 :: (putLd o).2
  | .atestLocal o => mkWord 6 23 (putAtest o).1 :: (putAtest o).2
  | .atestStore o => mkWord 6 24 (putAtest o).1 :: (putAtest o).2
  | .atestQuad o => mkWord 6 25 (putAtest o).1 :: (putAtest o).2
  | .atomAddI32 o => mkWord 6 26 (putAtom o).1 :: (putAtom o).2
  | .atomAddI64 o => mkWord 6 27 (putAtom o).1 :: (putAtom o).2
  | .atomFaddF32 o => mkWord 6 28 (putAtom o).1 :: (putAtom o).2
  | .atomFaddBf16x2 o => mkWord 6 29 (putAtom o).1 :: (putAtom o).2
  | .atomMinI32 o => mkWord 6 30 (putAtom o).1 :: (putAtom o).2
  | .atomMaxI32 o => mkWord 6 31 (putAtom o).1 :: (putAtom o).2
  | .atomMinN32 o => mkWord 6 32 (putAtom o).1 :: (putAtom o).2
  | .atomMaxN32 o => mkWord 6 33 (putAtom o).1 :: (putAtom o).2
  | .atomAndB32 o => mkWord 6 34 (putAtom o).1 :: (putAtom o).2
  | .atomOrB32 o => mkWord 6 35 (putAtom o).1 :: (putAtom o).2
  | .atomXorB32 o => mkWord 6 36 (putAtom o).1 :: (putAtom o).2
  | .atomXchgB32 o => mkWord 6 37 (putAtom o).1 :: (putAtom o).2
  | .atomXchgB64 o => mkWord 6 38 (putAtom o).1 :: (putAtom o).2
  | .atomCasB32 o => mkWord 6 39 (putCas o).1 :: (putCas o).2
  | .atomCasB64 o => mkWord 6 40 (putCas o).1 :: (putCas o).2
  | .cpG2s o => mkWord 7 0 (putCp o).1 :: (putCp o).2
  | .cpS2g o => mkWord 7 1 (putCp o).1 :: (putCp o).2
  | .cpS2s o => mkWord 7 2 (putCp o).1 :: (putCp o).2
  | .cpG2p o => mkWord 7 3 (putCp o).1 :: (putCp o).2
  | .cpS2p o => mkWord 7 4 (putCp o).1 :: (putCp o).2
  | .cpMcast o => mkWord 7 5 (putCp o).1 :: (putCp o).2
  | .cpPut o => mkWord 7 6 (putCp o).1 :: (putCp o).2
  | .cpFill o => mkWord 7 7 (putCp o).1 :: (putCp o).2
  | .cpClose bar => [mkWord 7 8 (bar * 16 + 1)]
  | .pres n e => [mkWord 8 0 (n * 32768 + e / 2 * 2)]
  | .pset n sel e => [mkWord 8 1 (n * 32768 + sel * 64 + e)]
  | .prel n => [mkWord 8 2 (n * 32768)]
  | .mzero t => [mkWord 8 3 (t * 1048576)]
  | .mmk t ha hb n => [mkWord 8 4 (t * 1048576 + ha * 32768 + hb * 1024 + n)]
  | .mtab hb n => [mkWord 8 5 (hb * 1024 + n)]
  | .mlut t ha hb n => [mkWord 8 6 (t * 1048576 + ha * 32768 + hb * 1024 + n)]
  | .mdrain t d g => [mkWord 8 7 (t * 1048576 + d / 8 * 64 + g)]
  | .mdrainMx t int fmt d m => [mkWord 8 8 (t * 1048576 + int * 32768 + fmt * 1024 + d / 4 * 32 + m)]
  | .msave t e => [mkWord 8 9 (t * 1048576 + e)]
  | .mload t e => [mkWord 8 10 (t * 1048576 + e)]
  | .mstatBlock hi n k d => [mkWord 8 11 (hi * 1048576 + n * 32768 + k * 1024 + d * 4)]
  | .mstatTile t d => [mkWord 8 11 (t * 1048576 + d * 4 + 512)]
  | .msuggest t thr d => [mkWord 8 12 (t * 1048576 + thr * 64 + d)]
  | .mscaleImm t mode off => [mkWord 8 13 (t * 1048576 + mode * 256 + off)]
  | .mscaleReg t mode e => [mkWord 8 13 (t * 1048576 + mode * 256 + e + 512)]
  | .qbind q dir k fn => [mkWord 9 0 (q * 2048 + dir * 1024 + k * 16 + fn)]
  | .qpush a q => [mkWord 9 1 (a * 32768 + q * 2048)]
  | .qpop d q => [mkWord 9 2 (d * 32768 + q * 2048)]
  | .qtry d q m => [mkWord 9 3 (d * 32768 + q * 2048 + m)]
  | .qlevel d q => [mkWord 9 4 (d * 32768 + q * 2048)]
  | .qunbind q => [mkWord 9 5 (q * 2048)]
  | .barCore n => [mkWord 10 0 (n * 262144)]
  | .barQuad n => [mkWord 10 1 (n * 262144)]
  | .barDie => [mkWord 10 2 (0)]
  | .barPkg => [mkWord 10 3 (0)]
  | .barPod => [mkWord 10 4 (0)]
  | .bexp n c => [mkWord 10 5 (n * 262144 + c * 1024)]
  | .arrive n d => [mkWord 10 6 (n * 262144 + d * 4096)]
  | .arriveRemote n a => [mkWord 10 7 (n * 262144 + a * 4096)]
  | .bwait n a => [mkWord 10 8 (n * 262144 + a * 4096)]
  | .wait l s c t => [mkWord 10 9 (l * 262144 + s * 16384 + c * 1024 + t * 64)]
  | .watch n a b cmp w64 => [mkWord 10 10 (n * 1048576 + a * 16384 + b * 256 + cmp * 32 + w64 * 16)]
  | .cond n kind idx b => [mkWord 10 11 (n * 1048576 + kind * 131072 + idx * 8192 + b * 128)]
  | .waitv mask all t => [mkWord 10 12 (mask * 262144 + all * 131072 + t * 2048)]
  | .waitu n a b cmp w64 => [mkWord 10 13 (n * 1048576 + a * 16384 + b * 256 + cmp * 32 + w64 * 16)]
  | .fence p q scope => [mkWord 10 14 (p * 65536 + q * 1024 + scope * 128)]
  | .commit n => [mkWord 10 15 (n * 32768)]
  | .txBegin => [mkWord 10 16 (0)]
  | .txEnd => [mkWord 10 17 (0)]
  | .txAbort c => [mkWord 10 18 (c)]
  | .beat => [mkWord 10 19 (0)]
  | .beatReg a => [mkWord 10 19 (a * 65536 + 32768)]
  | .quiescePkg t d => [mkWord 10 20 (t * 65536 + d * 1024)]
  | .quiescePod t d => [mkWord 10 21 (t * 65536 + d * 1024)]
  | .br off => [mkWord 11 0 (off)]
  | .brz c off => [mkWord 11 1 (c * 65536 + off)]
  | .brnz c off => [mkWord 11 2 (c * 65536 + off)]
  | .bra k off => [mkWord 11 3 (k * 65536 + off)]
  | .brn k off => [mkWord 11 4 (k * 65536 + off)]
  | .brv k off => [mkWord 11 5 (k * 65536 + off)]
  | .call l off => [mkWord 11 6 (l * 65536 + off)]
  | .callr l t => [mkWord 11 7 (l * 65536 + t)]
  | .ret t => [mkWord 11 8 (t * 65536)]
  | .join => [mkWord 11 9 (0)]
  | .exit => [mkWord 11 10 (0)]
  | .yield => [mkWord 11 11 (0)]
  | .collRed d a b => [mkWord 12 0 (d * 32768 + a * 256 + b * 2 + 1)]
  | .collBcast d a b => [mkWord 12 1 (d * 32768 + a * 256 + b * 2 + 1)]
  | .putWin d a b => [mkWord 12 2 (d * 32768 + a * 256 + b * 2 + 1)]
  | .getWin d a => [mkWord 12 3 (d * 32768 + a * 256)]
  | .winAdd a b => [mkWord 12 4 (a * 256 + b * 2 + 1)]
  | .winRead d b => [mkWord 12 5 (d * 32768 + b * 2 + 1)]
  | .xshf d a b => [mkWord 12 6 (d * 32768 + a * 256 + b * 2 + 1)]
  | .mordAlloc d a => [mkWord 12 7 (d * 32768 + a * 256)]
  | .mordSend d a b => [mkWord 12 8 (d * 32768 + a * 256 + b * 2)]
  | .mordStat d => [mkWord 12 9 (d * 32768)]
  | .mordFree a => [mkWord 12 10 (a * 256)]
  | .histRead d b => [mkWord 12 11 (d * 32768 + b * 2 + 1)]
  | .trap code => [mkWord 13 0 (code)]
  | .sreg idx r => [mkWord 13 1 (idx * 4096 + r * 32)]
  | .swreg idx r => [mkWord 13 2 (idx * 4096 + r * 32)]
  | .brk code => [mkWord 13 3 (code)]
  | .halt => [mkWord 13 4 (0)]
  | .eret => [mkWord 13 5 (0)]
  | .doorbellKick _ _ _ => []
  | .ringLook _ => []
  | .packetAccept _ => []
  | .nopPacket _ => []
  | .launchPacket _ => []
  | .gangPacket _ => []
  | .waitPacket _ => []
  | .signalPacket _ => []
  | .fencePacket _ => []
  | .loopSet _ => []
  | .windowBind _ => []
  | .windowBindApply _ _ => []
  | .paramBind _ => []
  | .barrierAnd _ => []
  | .waitPacketTimeout _ => []
  | .packetWatchPoll _ => []
  | .slotMappingPass => []
  | .waitPageHoldExpiry _ => []
  | .gangReserve _ _ _ => []
  | .gangCommit _ => []
  | .gangRollback _ => []
  | .gangRetry _ => []
  | .gangStart _ => []
  | .mbBootStatus _ _ => []
  | .mbAttestationReport _ _ _ => []
  | .mbCertificateChain _ _ => []
  | .mbUpdateBegin _ _ _ => []
  | .mbUpdateData _ _ _ _ => []
  | .mbUpdateFinish _ _ => []
  | .mbUpdateCommit _ _ => []
  | .mbErrorRingRead _ _ => []
  | .mbLifetimeRead _ _ => []
  | .queueRegister _ _ _ _ _ => []
  | .queueUnregister _ _ _ => []
  | .queueRestart _ _ _ _ _ => []
  | .journalAcknowledge _ _ _ => []
  | .ownerRecordWrite _ _ _ _ => []
  | .lendEntryWrite _ _ _ _ => []
  | .recallRequest _ _ _ _ _ => []
  | .wayMaskSet _ _ _ _ _ _ => []
  | .occupancyRead _ _ _ _ => []
  | .partitionReset _ _ _ => []
  | .usageSnapshot _ _ _ _ => []
  | .mmMap _ => []
  | .mmUnmap _ _ _ _ => []
  | .mmProtect _ _ _ _ _ => []
  | .mmRunChange _ _ _ _ _ => []
  | .mmStage2Change _ _ _ _ _ => []
  | .segmentCreate _ _ _ _ _ => []
  | .segmentAttach _ _ _ _ => []
  | .faultDeclareUnresolvable _ _ => []
  | .pageResolve _ _ => []
  | .poolWordSet _ _ _ => []
  | .wayBudgetSet _ _ _ _ => []
  | .channelQuotaSet _ _ _ _ => []
  | .clockCapSet _ _ _ _ => []
  | .loopRecordRead _ _ _ => []
  | .registerWrite _ _ _ => []
  | .hostMemoryWrite _ _ _ _ => []
  | .hostMemoryRead _ _ _ _ => []
  | .spanPlace _ => []
  | .startGateOpen _ => []
  | .issueSetRotate _ _ _ => []
  | .stealRequest _ _ _ => []
  | .stealAnswer _ _ => []
  | .groupResourceRelease _ => []
  | .spanRetire _ => []
  | .ownerAgeing _ _ => []
  | .forcedEviction _ => []
  | .spanEvictionSave _ => []
  | .spanRestore _ => []
  | .contextSwapOut _ => []
  | .contextDestroy _ => []
  | .watchPurge _ _ _ => []
  | .nocDrain _ => []
  | .wakeMessage _ => []
  | .storeClaimAnswer _ => []
  | .regionAbort _ _ => []
  | .faultQueueReadAdvance _ _ => []
  | .splitRestart _ _ => []
  | .entryDrainAck _ => []
  | .loadDataReturn _ => []
  | .atomicLanePerform _ _ => []
  | .keystoneRequest _ _ => []
  | .homeWriteApply _ => []
  | .watchListScanEnd _ _ => []
  | .watchRegistration _ => []
  | .watchWithdraw _ _ => []
  | .watchFireDelivery _ => []
  | .waitvDeadline _ _ => []
  | .deferredTrapRaise _ => []
  | .hwBarrierComplete _ _ _ => []
  | .quiesceIdleComplete _ _ => []
  | .quiesceTimeout _ _ => []
  | .gets _ _ _ => []
  | .getx _ _ _ => []
  | .wrh _ _ _ _ => []
  | .putm _ _ _ => []
  | .pute _ _ _ => []
  | .invalidation _ => []
  | .invalidationAck _ => []
  | .actingHomeForward _ => []
  | .pageAttributeWalk _ _ _ _ => []
  | .homeTranslationWalk _ _ => []
  | .migrationCountClear => []
  | .migration _ _ _ _ => []
  | .txSliceReceive _ => []
  | .txSliceLock _ => []
  | .txValidationResult _ => []
  | .serialTokenGrant _ => []
  | .copyTransferWrite _ _ => []
  | .tileOpComplete _ _ => []
  | .functionResultPlace _ _ => []
  | .selectResultPlace _ _ => []
  | .xshfExchange _ => []
  | .xshfTimeout _ => []
  | .putApply _ => []
  | .putAck _ => []
  | .collCombine _ => []
  | .collFlush _ => []
  | .userRoutineLoad _ _ => []
  | .mordantAllocApply _ => []
  | .mordantSendArrival _ => []
  | .mordantFreeArrival _ => []
  | .mordantDeadline _ => []
  | .mordantRelease _ => []
  | .sampleLatch => []
  | .beatGroupMerge _ _ _ => []
  | .loopUpdate => []
  | .grantApply => []
  | .clockStepChange _ => []
  | .patrolScrub _ _ _ => []
  | .sramError _ _ => []
  | .frameRetire _ _ _ => []
  | .flitReceive _ _ _ => []
  | .flitNack _ _ => []
  | .linkRetrain _ => []
  | .retrainComplete _ _ => []
  | .watchdogExpiry _ => []
  | .resetRelease => []
  | .hbmTrainingComplete _ _ => []
  | .fullFunctionStart => []
  | .deviceReset => []
  | .powerLoss => []
  | .lifetimeRecord => []
  | .contextCreate _ => []
  | .contextPartMove _ _ => []
  | .debuggerResume _ => []
  | .mailboxDoorbell _ _ => []
  | .functionLevelReset _ => []
  | .causewayPortRetry _ _ => []
  | .flitAck _ _ => []
  | .getWinRead _ => []

/-- The instruction the decoder reads from words numbered as spec/opcode_table.json numbers them: the
word w, and zeros above it where the instruction calls for a literal. -/
noncomputable def decodeTableWord (nbits w : Nat) : Option Instr :=
  match decodeWords [BitVec.ofNat 32 (w % 2 ^ nbits), BitVec.ofNat 32 (w % 2 ^ nbits / 2 ^ 32)] with
  | .ok p => some p.1
  | .error _ => none

/-! The clause header and the whole-clause checks. -/

/-- R64: the fields of a clause header. -/
structure Header where
  tag : Nat
  cls : Nat
  n : Nat
  l : Nat
  s : Nat
  c : Nat
  t : Nat
  yieldBit : Bool
  low : Nat
  deriving DecidableEq, Repr

/-- R64: the fields of the word at a clause start. -/
def headerOf (w : W) : Header :=
  { tag := bitsOf w.toNat 31 28, cls := bitsOf w.toNat 27 24, n := bitsOf w.toNat 23 20,
    l := bitsOf w.toNat 19 16, s := bitsOf w.toNat 15 12, c := bitsOf w.toNat 11 8,
    t := bitsOf w.toNat 7 4, yieldBit := bitOf w.toNat 3, low := bitsOf w.toNat 2 0 }

/-- R67: the majors a clause class admits, major B apart. -/
def classAdmits (cls mj : Nat) : Bool :=
  match cls with
  | 0 => memNat mj [0, 1, 2, 3, 5]
  | 1 => mj == 4
  | 2 => mj == 6
  | 3 => mj == 7
  | 4 => mj == 8
  | 5 => mj == 9
  | 6 => mj == 10
  | 7 => mj == 12
  | 8 => mj == 13
  | _ => false

/-- R69: the closing instructions, from the word. -/
def isClosing (w : W) : Bool :=
  let mj := bitsOf w.toNat 31 28
  let op := bitsOf w.toNat 27 22
  (mj == 10 && (memNat op [0, 1, 2, 3, 4, 8, 12, 13, 15, 16, 17] || (op == 14 && bitOf w.toNat 17))) ||
  (mj == 6 && decide (26 ≤ op ∧ op ≤ 40)) || (mj == 9 && op == 2)

/-- R70: which trap a failed clause check raises. -/
inductive ClauseFail
  | clauseFormat
  | illegalEncoding
  deriving DecidableEq, Repr

/-- R68: the body words that are instructions, as (index counting from 1, word, its literal if any). -/
def bodyWords : Nat → List W → List (Nat × W × Option W)
  | _, [] => []
  | k, [w] => [(k, w, none)]
  | k, w :: l :: rest =>
    if wordCallsLiteral w then (k, w, some l) :: bodyWords (k + 2) rest
    else (k, w, none) :: bodyWords (k + 1) (l :: rest)

/-- The index of the first instruction word of a clause body that fails a check. -/
def firstFail (p : Nat × W × Option W → Bool) (ws : List (Nat × W × Option W)) : Option Nat :=
  (ws.find? p).map (fun x => x.1)

/-- R69: whether a closing instruction at word index k with its literal ends a body of n words, or is
followed only by one major-B word that ends it. -/
def closingPlaced (n : Nat) (ws : List (Nat × W × Option W)) (x : Nat × W × Option W) : Bool :=
  let last := x.1 + (if x.2.2.isSome then 1 else 0)
  last == n || (last + 1 == n && ws.any (fun y => y.1 == n && bitsOf y.2.1.toNat 31 28 == 11))

/-- R70: the checks of a clause's form in order, rows 1 to 6; the first failure names its trap and the body word index. A
failure of the header itself, which has no body word, has index 0 (DESIGN CHOICE, log entry 104). -/
def clauseForm (hw : W) (body : List W) : Option (ClauseFail × Nat) :=
  let h := headerOf hw
  if h.tag ≠ 14 then some (.clauseFormat, 0)
  else if 9 ≤ h.cls ∨ h.n = 0 ∨ h.low ≠ 0 then some (.clauseFormat, 0)
  else
    let ws := bodyWords 1 body
    let mj (x : Nat × W × Option W) : Nat := bitsOf x.2.1.toNat 31 28
    match firstFail (fun x => decide (14 ≤ mj x)) ws with
    | some k => some (.illegalEncoding, k)
    | none =>
    match firstFail (fun x => if mj x = 11 then x.1 != h.n else !classAdmits h.cls (mj x)) ws with
    | some k => some (.clauseFormat, k)
    | none =>
    match firstFail (fun x => wordCallsLiteral x.2.1 && x.2.2.isNone) ws with
    | some k => some (.clauseFormat, k)
    | none => (firstFail (fun x => isClosing x.2.1 && !closingPlaced h.n ws x) ws).map (fun k => (.clauseFormat, k))

/-- R70: the checks of a clause in order; the last is row 7. -/
noncomputable def clauseCheck (hw : W) (body : List W) : Option (ClauseFail × Nat) :=
  match clauseForm hw body with
  | some f => some f
  | none =>
    (firstFail (fun x =>
      match decodeWords (x.2.1 :: x.2.2.toList) with
      | .ok _ => false
      | .error _ => true) (bodyWords 1 body)).map (fun k => (.illegalEncoding, k))

end Sys2Proof
end

