-- ==== Sys2Proof/Machine/Flags.lean ====
section
/-! DEFINITION. The sticky flags of R25, one constant for each bit. -/

namespace Sys2Proof.Machine

/-- The sticky flags (R25). -/
abbrev Flags := BitVec 16

/-- R25 [0]: invalid operation, or out-of-range conversion. -/
def flInvalid : Flags := 0x0001
/-- R25 [1]: division of a finite nonzero value by zero. -/
def flDivZero : Flags := 0x0002
/-- R25 [2]: a result overflowed its format. -/
def flOverflow : Flags := 0x0004
/-- R25 [3]: a tiny result was rounded, or a block element rounded to zero. -/
def flUnderflow : Flags := 0x0008
/-- R25 [4]: a result was rounded. -/
def flInexact : Flags := 0x0010
/-- R25 [5]: a saturating operation clamped. -/
def flSaturate : Flags := 0x0020
/-- R25 [6]: an ochre-4 escape in slot 30 or 31. -/
def flEscape : Flags := 0x0040
/-- R25 [7]: a parameter-window read passed the bound. -/
def flWindow : Flags := 0x0080
/-- R25 [8]: a block conversion lost nonzero bits. -/
def flAlign : Flags := 0x0100
/-- R25 [9]: integer matrix accumulation wrapped. -/
def flIntOverflow : Flags := 0x0200
/-- R25 [10]: a subnormal input or result was flushed. -/
def flDenormal : Flags := 0x0400

/-- A flag where a condition holds. -/
def flIf (c : Bool) (f : Flags) : Flags := if c then f else 0

/-- The OR of a list of flags. -/
def flAll (fs : List Flags) : Flags := fs.foldl (fun a b => a ||| b) 0

end Sys2Proof.Machine
end

