-- ==== Sys2Proof/Machine/State.lean ====
section
/-! DEFINITION. The state of the machine, its faults and refusals, and the state after reset. -/

namespace Sys2Proof.Machine

open Sys2Proof

/-- The machine's stops that are no trap of the spec: there is none. Every stop the spec describes (a trap, a
parked split, a stopped queue) is a state, and the 23 bits of a frame name exactly the 512 GiB of a package
(R416), so no access reaches memory that does not exist. -/
inductive Fault
  deriving DecidableEq, Repr

/-- What the model does not execute. -/
inductive Refusal
  /-- An instruction without a meaning yet; safe: the machine stops. -/
  | notModelled (mnemonic : String)
  deriving DecidableEq, Repr

/-- R242: the trap kinds. -/
inductive TrapKind
  | clauseFormat
  | illegalEncoding
  | registerRange
  | regionContract
  | queueUnbound
  | queueOverflow
  | queueEmpty
  | specialRegister
  | planeReservation
  | windowUnbound
  | aperture
  | nonCanonical
  | misaligned
  | storeOverflow
  | translationAbort
  | copyAbort
  | tileAbort
  | splitStack
  | divergence
  | cooperativeRequired
  | barrierState
  | txState
  | waitEmpty
  | privilege
  | peer
  | windowAccess
  | descriptor
  | user
  | breakpoint
  deriving DecidableEq, Repr

/-- R242: the number of a trap kind. -/
def TrapKind.code : TrapKind → Nat
  | .clauseFormat => 1
  | .illegalEncoding => 2
  | .registerRange => 3
  | .regionContract => 4
  | .queueUnbound => 5
  | .queueOverflow => 6
  | .queueEmpty => 7
  | .specialRegister => 8
  | .planeReservation => 9
  | .windowUnbound => 10
  | .aperture => 11
  | .nonCanonical => 12
  | .misaligned => 13
  | .storeOverflow => 14
  | .translationAbort => 15
  | .copyAbort => 16
  | .tileAbort => 17
  | .splitStack => 18
  | .divergence => 19
  | .cooperativeRequired => 20
  | .barrierState => 21
  | .txState => 22
  | .waitEmpty => 23
  | .privilege => 24
  | .peer => 25
  | .windowAccess => 26
  | .descriptor => 27
  | .user => 28
  | .breakpoint => 29

/-- R240, R241: what a word that traps names: the kind, the lowest reporting lane, the detail address, the
code of trap or brk, and the clause and word where they are not those of the issuing word. -/
structure Trap where
  kind : TrapKind
  lane : Option Nat
  detail : Option W64
  code : Nat
  place : Option (Nat × Nat)
  deriving DecidableEq, Repr

/-- R240: a trap record. -/
structure TrapRec where
  viaduct : Nat
  clause : Nat
  word : Nat
  kind : TrapKind
  lane : Option Nat
  split : Option Nat
  group : Nat
  code : Nat
  detail : Option W64
  tick : Nat
  deriving DecidableEq, Repr

/-- R83: the scopes. -/
inductive Scope
  | group
  | core
  | quad
  | die
  | pkg
  | pod
  deriving DecidableEq, Repr

/-- R83: the scope of a code. -/
def Scope.ofCode (n : Nat) : Scope :=
  match n with
  | 0 => .group
  | 1 => .core
  | 2 => .quad
  | 3 => .die
  | 4 => .pkg
  | _ => .pod

/-- R83: the code of a scope. -/
def Scope.rank : Scope → Nat
  | .group => 0
  | .core => 1
  | .quad => 2
  | .die => 3
  | .pkg => 4
  | .pod => 5

/-- R208, R209: the kinds of a reconvergence-stack entry. -/
inductive PathKind
  | path
  | merge
  deriving DecidableEq, Repr

/-- R208: an entry of the reconvergence stack. -/
structure PathEntry where
  kind : PathKind
  mask : W
  target : Nat
  deriving DecidableEq, Repr

/-- R220: the condition a slot is armed with. -/
inductive Cond
  | word (addr : Nat) (cmp : Nat) (x : W64) (w64 : Bool)
  | barPhase (bar : Nat) (phase : Bool)
  | window (win : Nat) (x : W)
  | queue (q : Nat)
  | mordant (n : W)
  deriving DecidableEq, Repr

/-- R19: the three states of a condition slot. -/
inductive SlotSt
  | empty
  | armed
  | fired
  deriving DecidableEq, Repr

/-- R19, R220, R328: a condition slot: its state, condition, forced bit, arming generation, and whether its
registration has been answered. -/
structure Slot where
  st : SlotSt
  cond : Cond
  forced : Bool
  gen : Nat
  answered : Bool
  deriving DecidableEq, Repr

/-- An empty slot with a generation. -/
def Slot.none (gen : Nat) : Slot := ⟨.empty, .word 0 0 0 false, false, gen, true⟩

/-- R22, R208: a region checkpoint. -/
structure Checkpoint where
  sregs : SMap W64
  kregs : SMap W
  em : W
  slots : List Slot
  fmode : W
  rng : SMap W
  stack : List PathEntry
  deriving DecidableEq, Repr

/-- R308: a fault record before it is written. -/
structure FaultRec where
  vaddr : Nat
  gpa : Nat
  lanes : W
  domain : Nat
  core : Nat
  gslot : Nat
  kind : Nat
  cause : Nat
  stage2 : Bool
  last : Bool
  split : Nat
  die : Nat
  seq : Nat
  ctx : Nat
  deriving DecidableEq, Repr

/-- What a blocked or stalled word has still to do, in order; each part is done when its condition holds. -/
inductive Micro
  /-- R300: the region boundary. -/
  | boundary
  /-- R220, R300: the boundary of a waitu, with the translation of the watched word's page. -/
  | boundaryAt (addr : Nat)
  /-- R20, R224: wait until counters stand at most at these values. -/
  | counters (l s c t : Nat)
  /-- R288: wait until the split's own loads and atomics are complete. -/
  | loadsDone
  /-- R292: wait until the group's committed stores are performed at a scope. -/
  | performed (sc : Scope)
  /-- R288, R297: wait until the split's atomics, and its copies' and tile operations' writes, are performed at a scope. -/
  | joined (sc : Scope) (atomics copies tiles : Bool)
  /-- R317: wait until every committed store of the group has drained. -/
  | drained
  /-- R282: an acquire at quad scope or wider invalidates the core's L1. -/
  | acquire (sc : Scope)
  /-- R301: wait until no uncompleted instruction of the split writes v0 to v(n-1). -/
  | liveFree (n : Nat)
  /-- R225: the live count. -/
  | setLive (n : Nat)
  /-- R215: arrive on a barrier register and wait for its phase to flip. -/
  | barArrive (bar : Nat)
  /-- R215, R216: wait until a barrier's phase differs from p. -/
  | barWait (bar : Nat) (p : Bool)
  /-- R218: arrive on a hardware barrier (3 die, 4 package, 5 pod). -/
  | hwArrive (level : Nat)
  /-- R218: wait until the hardware barrier's count of phases passes p. -/
  | hwWait (level p : Nat)
  /-- R220: arm a slot with a condition. -/
  | arm (n : Nat) (c : Cond)
  /-- R221: wait on slots; a deadline is a tick. -/
  | slotWait (mask : Nat) (all : Bool) (deadline : Option Nat)
  /-- R226: start a transaction. -/
  | txStart (mask : W)
  /-- R227: the lane rule of tx.end, then its commit is sent. -/
  | txSend
  /-- R319: wait for the commit's validation. -/
  | txWait
  /-- R230: wait for the idle tree or the deadline. -/
  | quiesce (pod : Bool) (d deadline : Nat)
  /-- R235: wait for the peer's exchange. -/
  | xshf (d a : Nat) (span grp start : Nat)
  /-- R209: divide the split. -/
  | divide (taken : W) (target : Nat)
  /-- R210: pop the reconvergence stack. -/
  | popPath
  /-- R210: wait at a join for the sibling splits. -/
  | joinWait
  /-- R211: end the strands in em. -/
  | exitDo
  /-- R198: wait for a held entry of a queue register. -/
  | queueWait (q d : Nat)
  /-- R151, R153: send the atomic's lanes that are not done. -/
  | atomIssue (op : Nat) (o : CasOp) (lit : Option W)
  /-- R153: wait until every active lane is done. -/
  | atomWait
  /-- R269: merge with the split of this number. -/
  | mergeWith (other : Nat)
  /-- R269: wait, after the own boundary, for the merge. -/
  | mergeReady
  deriving DecidableEq, Repr

/-- What a split does between clauses. -/
inductive SplitSt
  /-- It can issue, or goes on with a blocked word. -/
  | running
  /-- R306: it is parked until its faults are resolved. -/
  | parked
  /-- R239: it is stopped by halt until a doorbell. -/
  | halted
  /-- R239: a brk with a debugger attached: it parks when it reaches its next clause. -/
  | breaking
  /-- R239, R240: it is parked for a debugger. -/
  | debug
  deriving DecidableEq, Repr

/-- A split (R208); bndUid is the serial number that the next access had when the split's current region began. -/
structure Split where
  num : Nat
  member : W
  em : W
  pc : Nat
  widx : Nat
  regionPc : Nat
  regionWord : Nat
  bndPending : Bool
  bndUid : Nat
  stack : List PathEntry
  ckpt : Checkpoint
  done : W
  replay : Nat
  kept : Nat
  beats : Nat
  state : SplitSt
  pend : List Micro
  pendAt : Nat × Nat
  faults : List FaultRec
  unsent : List FaultRec
  restored : Bool
  deriving DecidableEq, Repr

/-- R193, R200: an entry place of a queue register that is not free: held, or taken by a split. -/
structure QEntry where
  seq : Nat
  data : SMap W
  taken : Option Nat
  deriving DecidableEq, Repr

/-- R16, R195: a queue register: its binding (function, k, direction) and its entries, oldest first. The
commands in flight stand in the quad's engine queues. -/
structure QueueReg where
  bind : Option (Nat × Nat × Bool)
  entries : List QEntry
  deriving DecidableEq, Repr

/-- An unbound queue register. -/
def QueueReg.unbound : QueueReg := ⟨none, []⟩

/-- R316, R319: where a commit stands; ended is a transaction that tx.abort ended, which an abort of its region
starts again (R227). -/
inductive TxPhase
  | running
  | ended
  | sent
  | received
  | locking
  deriving DecidableEq, Repr

/-- R316 to R322: the transaction of a group: its number, its split and tx mask, the read log, the writes of each lane
as (lane, address, byte), the cause of each failed lane, and the serial lanes. -/
structure Tx where
  uid : Nat
  split : Nat
  mask : W
  scalarLane : Nat
  log : List (Nat × Nat × W64)
  writes : List (Nat × Nat × Byte)
  failed : List (Nat × Nat)
  serial : W
  token : Bool
  phase : TxPhase
  locked : List Nat
  deriving DecidableEq, Repr

/-- R330: where a group stands. -/
inductive Residence
  | resident
  | saving
  | saved
  deriving DecidableEq, Repr

/-- R233: a replay result an engine keeps, by split and replay position. -/
structure ReplayVal where
  split : Nat
  pos : Nat
  lanes : SMap W64
  deriving DecidableEq, Repr

/-- R187, R362: a subtraction that the split's next boundary applies. -/
inductive Pending
  | block (core handle idx : Nat) (under align : Nat)
  | tileRow (core tile row : Nat) (dunder dsat : Nat)
  | histogram (tag : Nat) (bins : List Nat)
  deriving DecidableEq, Repr

/-- R216, R217: an arrival that waits for its release: its word, the span and barrier it arrives on, the scalar register
that receives the phase, and the number before which a load or store of its split is in the release. -/
structure Arrival where
  split : Nat
  clause : Nat
  word : Nat
  span : Nat
  bar : Nat
  dst : Option Nat
  before : Nat
  deriving DecidableEq, Repr

/-- A group (R9): the state its strands and splits share. regPoison lists the words of the register file that are marked
poisoned (R477). splits are the splits of the group other than
the one the machine is executing. -/
structure Group where
  gid : Nat
  span : Nat
  viaduct : Nat
  ctx : Nat
  index : Nat
  die : Nat
  core : Nat
  gslot : Nat
  lslot : Nat
  nregs : Nat
  exist : W
  regs : SMap W
  regPoison : List Nat
  sregs : SMap W64
  kregs : SMap W
  rng : SMap W
  flags : Flags
  fmode : W
  live : Nat
  cntL : Nat
  cntS : Nat
  cntC : Nat
  cntT : Nat
  slots : List Slot
  queues : List QueueReg
  txstat : W64
  wstat : W64
  trapinfo : W64
  splits : List Split
  lastSplit : Nat
  stamp : Nat
  yieldMark : Bool
  issuedFirst : Bool
  exited : Bool
  released : Bool
  residence : Residence
  wakePending : List Nat
  tx : Option Tx
  failCounts : SMap Nat
  replays : List ReplayVal
  pendings : List (Nat × Pending)
  deferred : List TrapRec
  arrivals : List Arrival
  stopped : Bool
  deriving DecidableEq, Repr

/-- The word being executed: the clause it stands in, its body word index, the index of the next word and
the number of body words. -/
structure Issue where
  clause : Nat
  word : Nat
  next : Nat
  len : Nat
  stalled : Bool
  deriving DecidableEq, Repr

/-- R17: a barrier register. -/
structure Barrier where
  pending : Nat
  phase : Bool
  closed : Bool
  arrived : Nat
  expected : Nat
  closer : Option (Nat × Nat × Nat × Nat)
  deriving DecidableEq, Repr

/-- R9: a barrier register at span start. -/
def Barrier.zero : Barrier := ⟨0, false, false, 0, 0, none⟩

/-- R183: the drain state of a tile and its row counts. -/
structure Tile where
  elems : SMap W
  mode : Bool
  off : Int
  dunder : SMap Nat
  dsat : SMap Nat
  poison : List Nat
  deriving DecidableEq, Repr

/-- R9, R183: a tile at span start. -/
def Tile.zero : Tile := ⟨[], false, 0, [], [], []⟩

/-- R56, R57: the class of a block element that is not an ordinary number. -/
inductive ElemClass
  | zero
  | nan
  | posInf
  | negInf
  | outlier (e4m3 : Nat)
  | payload
  deriving DecidableEq, Repr

/-- R54 to R57, R176: a converted block: its integers, quantum exponent (none for a NaN block), classes,
counts, written map, table validity and poison. -/
structure Block where
  ints : SMap Int
  quant : Int
  nanBlock : Bool
  classes : List (Nat × ElemClass)
  raw : SMap Nat
  under : Nat
  align : Nat
  written : List Nat
  tabLo : Bool
  tabHi : Bool
  poison : Bool
  deriving DecidableEq, Repr

/-- R172: a block after pres. -/
def Block.zero : Block := ⟨[], 0, false, [], [], 0, 0, [], false, false, false⟩

/-- R169: a plane-store reservation: its record, image bytes and blocks, by m * 32 + b. -/
structure Reservation where
  handle : Nat
  word0 : W64
  word1 : W64
  image : SMap Byte
  blocks : SMap Block
  deriving DecidableEq, Repr

/-- The part of a span on one core: core store, tiles and reservations (R254, R168). -/
structure SpanCore where
  core : Nat
  store : SMap Byte
  quad : SMap Byte
  storePoison : List Nat
  quadPoison : List Nat
  tiles : List Tile
  resv : List Reservation
  deriving DecidableEq, Repr

/-- A span (R253 to R258): placed, being evicted, or saved in the span record slot `slot` of its context (R395). -/
structure Span where
  uid : Nat
  viaduct : Nat
  ctx : Nat
  lin : Nat
  die : Nat
  core0 : Nat
  isQuad : Bool
  groups : Nat
  bars : List Barrier
  cores : List SpanCore
  gateOpen : Bool
  residence : Residence
  evicting : Bool
  restored : Bool
  evictOrder : Nat
  slot : Option Nat
  savedTraps : List TrapRec
  deriving DecidableEq, Repr

/-- R385: a parameter-window binding. -/
structure ParamBind where
  win : Nat
  base : Nat
  size : Nat
  deriving DecidableEq, Repr

/-- R381: the resource descriptor of a LAUNCH packet. -/
structure Launch where
  entry : Nat
  vdx : Nat
  vdy : Nat
  vdz : Nat
  sx : Nat
  sy : Nat
  sz : Nat
  vregs : Nat
  quadSpan : Bool
  coop : Bool
  acc : Nat
  bars : Nat
  store : Nat
  qstore : Nat
  plane : Nat
  comm : Nat
  fmode : W
  vid : W
  w0base : Nat
  w0size : Nat
  deriving DecidableEq, Repr

/-- R259: a chunk of 64 spans and the die that holds it. -/
structure Chunk where
  idx : Nat
  die : Nat
  deriving DecidableEq, Repr

/-- R218, R262: a hardware barrier of a viaduct: level 3 die, 4 package, 5 pod; the gids that arrived, and the other
packages of a gang whose groups have all arrived. -/
structure HwBar where
  level : Nat
  die : Nat
  arrived : List Nat
  away : List Nat
  phases : Nat
  deriving DecidableEq, Repr

/-- How a viaduct stands. -/
inductive ViaductSt
  | waiting
  | started
  | trapped
  | debugParked
  | complete
  deriving DecidableEq, Repr

/-- A viaduct (R252, R259, R271). -/
structure Viaduct where
  uid : Nat
  ctx : Nat
  owner : Nat
  launch : Launch
  image : SMap Byte
  params : List ParamBind
  journal : Nat
  gang : Option Nat
  firstSpan : Nat
  lastSpan : Nat
  startTick : Nat
  readyTick : Nat
  chunks : List Chunk
  placed : List Nat
  retired : Nat
  bars : List HwBar
  trap : Option TrapRec
  st : ViaductSt
  asked : List (Nat × Nat)
  firmware : Bool
  deriving DecidableEq, Repr

/-- R303: an entry's state. -/
inductive EntrySt
  | opened
  | committed
  | draining
  deriving DecidableEq, Repr

/-- R303: the answer to an entry's claim. -/
inductive Claim
  | waiting
  | granted
  | faulted (cause : Nat) (stage2 : Bool) (gpa : Nat)
  | revoked (cause : Nat)
  deriving DecidableEq, Repr

/-- R303: a store-buffer entry; bytes lists the written offsets of the line with their bytes, lanes the lanes
that wrote it, lowVa the address its lowest lane wrote. -/
structure SbEntry where
  uid : Nat
  gid : Nat
  split : Nat
  ctx : Nat
  die : Nat
  core : Nat
  dom : Nat
  line : Nat
  bytes : List (Nat × Byte)
  lanes : W
  lowVa : Nat
  firstSeq : Nat
  st : EntrySt
  claim : Claim
  shared : Bool
  spilled : Bool
  tx : Bool
  poison : Bool
  deriving DecidableEq, Repr

/-- What an outstanding load writes. -/
inductive LoadKind
  | vec (d size : Nat) (signed : Bool)
  | scalar (d : Nat)
  deriving DecidableEq, Repr

/-- A lane of an outstanding load: its address, for each byte the value taken so far, if any (at issue from the
store buffer or a store, later from a part served before the rest, R285), and the 8-byte words that the lane's
transaction had written when the load issued (R316). -/
structure LoadLane where
  lane : Nat
  addr : Nat
  fwd : List (Option Byte)
  wrote : List Nat
  deriving DecidableEq, Repr

/-- R145, R317: an outstanding load; txu is the number of the transaction it belongs to, where tx holds. -/
structure Load where
  uid : Nat
  gid : Nat
  split : Nat
  clause : Nat
  word : Nat
  kind : LoadKind
  lanes : List LoadLane
  param : Bool
  tx : Bool
  txu : Nat
  deriving DecidableEq, Repr

/-- R151, R313: an outstanding atomic: its lanes that are not done, with address and operands. -/
structure Atom where
  uid : Nat
  gid : Nat
  split : Nat
  clause : Nat
  word : Nat
  op : Nat
  d : Option Nat
  keystone : Bool
  lanes : List (Nat × Nat × W64 × W64)
  faults : List FaultRec
  deriving DecidableEq, Repr

/-- R155, R157: the copies. -/
inductive CopyOp
  | g2s
  | s2g
  | s2s
  | g2p
  | s2p
  | mcast
  | put
  | fill
  | close
  deriving DecidableEq, Repr

/-- A lane of a copy: its source (the pattern of a fill), its destination (handle * 2^32 + offset in the plane
store), its receiver mask (the window of a put), and whether it is held by a fault, to be skipped, or done, and, if done,
whether it wrote its bytes. -/
structure CopyLane where
  lane : Nat
  src : Nat
  dst : Nat
  mask : Nat
  held : Bool
  skip : Bool
  done : Bool
  wrote : Bool
  seq : Nat
  deriving DecidableEq, Repr

/-- An outstanding copy (R155 to R162, R333); die is the die it was issued on, which its stream belongs to (R356). -/
structure Copy where
  uid : Nat
  gid : Nat
  span : Nat
  split : Nat
  clause : Nat
  word : Nat
  op : CopyOp
  z : Nat
  bar : Option Nat
  nt : Bool
  lanes : List CopyLane
  receivers : List (Nat × Nat)
  die : Nat
  flags : Flags
  suspended : Bool
  deriving DecidableEq, Repr

/-- The matrix operations that the tile-operation queue holds (R163, R164). -/
inductive TileOp
  | mzero (t : Nat)
  | mmk (t : Nat) (a b : Nat) (a0 a1 b0 b1 : W64) (n : Nat)
  | mtab (b : Nat) (b0 b1 : W64) (n : Nat)
  | mlut (t : Nat) (a b : Nat) (a0 a1 b0 b1 : W64) (n : Nat)
  | mdrain (t d g : Nat)
  | mdrainMx (t d fmt m : Nat) (int mode : Bool) (off : Int) (addrs : SMap W64) (saddrs : SMap W64)
  | msave (t : Nat) (addr : Nat)
  | mload (t : Nat) (addr : Nat)
  | mstatBlock (n k : Nat) (hi : Bool) (d : Nat)
  | mstatTile (t d : Nat)
  | msuggest (t thr d : Nat)
  deriving DecidableEq, Repr

/-- A tile operation in a core's queue; cancelled says that an abort cancelled what the operation leaves to the
split's next boundary (R187). -/
structure TileCmd where
  uid : Nat
  gid : Nat
  span : Nat
  split : Nat
  die : Nat
  core : Nat
  clause : Nat
  word : Nat
  em : W
  op : TileOp
  cancelled : Bool
  held : Bool
  skipPages : List Nat
  suspended : Bool
  deriving DecidableEq, Repr

/-- A command of the function unit or the select engine (R194). -/
structure FnCmd where
  uid : Nat
  gid : Nat
  die : Nat
  quad : Nat
  q : Nat
  fn : Nat
  k : Nat
  min : Bool
  ftz : Bool
  em : W
  vals : SMap W
  deriving DecidableEq, Repr

/-- R326: a watch registration on its way to its home slice. -/
structure WatchReg where
  uid : Nat
  gid : Nat
  split : Nat
  slot : Nat
  gen : Nat
  addr : Nat
  cmp : Nat
  x : W64
  w64 : Bool
  isWaitu : Bool
  region : Bool
  deriving DecidableEq, Repr

/-- R323: a watch-table or overflow-list entry; packet names the queue of a WAIT or BARRIER-AND word. -/
structure WatchEntry where
  uid : Nat
  home : Nat
  slice : Nat
  inList : Bool
  addr : Nat
  operand : W64
  dom : Nat
  ctx : Nat
  pkg : Nat
  lslot : Nat
  slot : Nat
  w64 : Bool
  cmp : Nat
  gen : Nat
  tick : Nat
  packet : Option (Nat × Nat)
  deriving DecidableEq, Repr

/-- R327: a running scan of an overflow list, with the line and the value of the write that started it. -/
structure Scan where
  home : Nat
  slice : Nat
  dom : Nat
  line : Nat
  phys : Nat
  written : List (Nat × Byte)
  deriving DecidableEq, Repr

/-- R330: a fire on its way to its group. -/
structure Fire where
  uid : Nat
  ctx : Nat
  lslot : Nat
  slot : Nat
  gen : Nat
  forced : Bool
  deriving DecidableEq, Repr

/-- R282: an L1 line. -/
structure L1Line where
  die : Nat
  core : Nat
  dom : Nat
  line : Nat
  bytes : List Byte
  way : Nat
  used : Nat
  deriving DecidableEq, Repr

/-- R405, R406: the tag of a line held in an L2 slice; dirty says that its frame has not received its last write (R411). -/
structure L2Tag where
  die : Nat
  slice : Nat
  dom : Nat
  line : Nat
  way : Nat
  set : Nat
  filler : Nat
  dirty : Bool
  used : Nat
  deriving DecidableEq, Repr

/-- R430: the state in which a remote data cache holds a line. -/
inductive RdcSt
  | s
  | e
  | m
  | o
  deriving DecidableEq, Repr

/-- R281, R283, R430: a line of a slice of a remote data cache. -/
structure RdcLine where
  die : Nat
  slice : Nat
  dom : Nat
  line : Nat
  st : RdcSt
  bytes : List Byte
  clock : List Nat
  home : Nat
  deriving DecidableEq, Repr

/-- R288, R292: what waits for the invalidations that a write has started: nothing, the store-buffer entry of a
number, an atomic, an engine's write of a class, or the front end's packet of a journal number. -/
inductive WriteClass
  | none
  | store (entry : Nat)
  | atomic
  | copy
  | tile
  | packet (seq : Nat)
  deriving DecidableEq, Repr

/-- R292, R297: the writer of a line: its class, and the group and split of its instruction (0 for firmware). -/
structure Writer where
  cls : WriteClass
  gid : Nat
  split : Nat
  deriving DecidableEq, Repr

/-- A write that no later event waits for. -/
def Writer.none : Writer := ⟨.none, 0, 0⟩

/-- R432: an invalidation on its way to the remote data caches, or acknowledged and on its way back; part is the
partition that its packets are tagged with (R409), 16 for none. -/
structure Inval where
  uid : Nat
  agent : Nat
  dom : Nat
  line : Nat
  home : Nat
  writer : Writer
  part : Nat
  acked : Bool
  deriving DecidableEq, Repr

/-- R423: an entry of an attribute lookaside. -/
structure AttrEntry where
  die : Nat
  core : Nat
  dom : Nat
  page : Nat
  size : Nat
  perms : Nat
  home : Nat
  pslice : Nat
  key : Nat
  used : Nat
  deriving DecidableEq, Repr

/-- R427, R435: an entry of a home translation buffer. -/
structure HtbEntry where
  home : Nat
  ctl : Nat
  dom : Nat
  ctx : Nat
  page : Nat
  frame : Nat
  key : Nat
  counts : List (Nat × Nat)
  sent : Bool
  migrating : Bool
  used : Nat
  deriving DecidableEq, Repr

/-- R435: a migration record. -/
structure MigRec where
  vaddr : Nat
  dom : Nat
  src : Nat
  dst : Nat
  count : Nat
  tick : Nat
  deriving DecidableEq, Repr

/-- R347, R348: the states of a mordant slot. -/
inductive MordSt
  | free
  | opened
  | releasing
  deriving DecidableEq, Repr

/-- R236: a token descriptor. -/
structure MordDesc where
  dest : Nat
  timeout : Nat
  k : Nat
  policy : Nat
  format : Nat
  relKind : Nat
  relIdx : Nat
  experts : List Nat
  gates : List W
  target : Nat
  deriving DecidableEq, Repr

/-- R347: a slot of the mordant buffer: write is the number its write's invalidations carry (0 before the write),
held and skip say that the write is held by a fault (at the address heldVa) and that it is to be skipped, maker and tmpl are the place of
the mord.alloc word in a trap record and in a fault record. -/
structure MordSlot where
  die : Nat
  ctx : Nat
  num : Nat
  gen : Nat
  st : MordSt
  desc : MordDesc
  acc : List W
  n : Nat
  received : List Nat
  parked : List (Nat × List W)
  deadline : Nat
  viaduct : Nat
  span : Nat
  gid : Nat
  fail : Bool
  write : Nat
  held : Bool
  heldVa : Nat
  skip : Bool
  maker : TrapRec
  tmpl : FaultRec
  deriving DecidableEq, Repr

/-- R237, R345: a pool: its word and counts. -/
structure Pool where
  die : Nat
  ctx : Nat
  word : W64
  late : Nat
  timeouts : Nat
  retries : Nat
  fails : Nat
  deriving DecidableEq, Repr

/-- What a fabric or mordant command does (R231). -/
inductive FabKind
  | collRed
  | collBcast
  | putWin
  | getWin
  | winAdd
  | winRead
  | mordAlloc
  | mordSend
  | mordStat
  | mordFree
  | histRead
  deriving DecidableEq, Repr

/-- A lane of a fabric or mordant command: target agent, window or handle, offset or address, data,
sequence number, and whether it is applied, acknowledged, held by a fault (at the address heldVa) or skipped. -/
structure FabLane where
  lane : Nat
  agent : Nat
  win : Nat
  off : Nat
  data : W64
  aux : Nat
  seq : Nat
  applied : Bool
  acked : Bool
  held : Bool
  heldVa : Nat
  skip : Bool
  deriving DecidableEq, Repr

/-- An outstanding fabric or mordant command (R231): src is the agent it comes from, and gid is 0 for a command of another
package; pos is its replay position in the split's region, 0 once that region has committed; cancelled as for a tile
operation; taken says that it has left the command queue (R364). -/
structure FabCmd where
  uid : Nat
  gid : Nat
  ctx : Nat
  src : Nat
  taken : Bool
  span : Nat
  split : Nat
  die : Nat
  clause : Nat
  word : Nat
  kind : FabKind
  d : Nat
  desc : W64
  pos : Nat
  cancelled : Bool
  lanes : List FabLane
  deriving DecidableEq, Repr

/-- R355: a fabric window of a context on a die. -/
structure Window where
  die : Nat
  ctx : Nat
  idx : Nat
  base : Nat
  key : Nat
  bound : Bool
  size : Nat
  issued : Nat
  acked : Nat
  target : Nat
  deriving DecidableEq, Repr

/-- R356, R357: a stream from a source agent: its last sequence number taken at the source; at the target the highest
contiguous number applied, the numbers applied above it, and the puts applied. -/
structure Stream where
  ctx : Nat
  src : Nat
  agent : Nat
  win : Nat
  next : Nat
  base : Nat
  above : List Nat
  puts : Nat
  deriving DecidableEq, Repr

/-- R359, R362: a bound collective tag with its members and completion record. -/
structure CollTag where
  ctx : Nat
  tag : Nat
  members : Nat
  bins : List Nat
  results : Nat
  late : Nat
  flushes : Nat
  faults : Nat
  deriving DecidableEq, Repr

/-- R358: a second copy of a lane of a stream, sent again over another path. -/
structure Resent where
  cmd : Nat
  lane : Nat
  ctx : Nat
  src : Nat
  agent : Nat
  win : Nat
  seq : Nat
  deriving DecidableEq, Repr

/-- R360, R361: a partial result in a pier switch, first being the tick of its first arrival there and gone saying that it
has gone on; or, where forwarded holds, at its destination, where its first part arrived at tick arrived and lates holds
the late corrections, with their contribution counts, that have still to be combined. round is the number of the
contribution of which R359's round is the residue. -/
structure Partial where
  uid : Nat
  ctx : Nat
  tag : Nat
  agent : Nat
  win : Nat
  off : Nat
  round : Nat
  typ : Nat
  routine : Nat
  value : W
  count : Nat
  first : Nat
  flush : Nat
  gone : Bool
  forwarded : Bool
  arrived : Nat
  lates : List (W × Nat)
  written : Bool
  gid : Nat
  held : Bool
  skip : Bool
  maker : TrapRec
  tmpl : FaultRec
  deriving DecidableEq, Repr

/-- R359: how many contributions a member has made to a destination word. -/
structure CollRound where
  ctx : Nat
  tag : Nat
  member : Nat
  agent : Nat
  win : Nat
  off : Nat
  count : Nat
  deriving DecidableEq, Repr

/-- R380, R387: a packet that a queue has accepted; failed is the status its checks gave, with the offset of the
first failing byte; conds are the dies a WINDOW-BIND has still to bind. -/
structure Packet where
  index : Nat
  bytes : List Byte
  journal : Nat
  failed : Option (Nat × Nat)
  started : Bool
  done : Bool
  startTick : Nat
  hold : Option Nat
  conds : List Nat
  deriving DecidableEq, Repr

/-- R375, R387: a registered queue with its slot state. -/
structure Queue where
  qid : Nat
  ctx : Nat
  func : Nat
  qcb : Nat
  base : Nat
  size : Nat
  pub : Nat
  halt : Bool
  stopped : Bool
  rd : Nat
  mapped : Bool
  mapTick : Nat
  idleTick : Nat
  pending : Bool
  kickTick : Nat
  looking : Bool
  lookTick : Nat
  packets : List Packet
  params : List ParamBind
  deriving DecidableEq, Repr

/-- R384: a condition of a WAIT or BARRIER-AND kept in the packet-watch store. -/
structure StoreWatch where
  qid : Nat
  index : Nat
  word : Nat
  addr : Nat
  cmp : Nat
  x : W64
  lastPoll : Nat
  deriving DecidableEq, Repr

/-- R425: a memory-manager request that waits. -/
inductive MmReq
  | map (r : MapReq)
  | unmap (func seq ctx va : Nat)
  | protect (func seq ctx va perm : Nat)
  | run (func seq ctx va : Nat) (run : Bool)
  | stage2 (func seq ctx gpa : Nat) (entry : W64)
  | create (func seq base size id : Nat)
  | attach (func seq ctx id : Nat)
  deriving DecidableEq, Repr

/-- R389: a member of a gang; ended holds the status and the detail with which its part has ended. -/
structure GangMember where
  pkg : Nat
  part : Nat
  reserved : Bool
  ended : Option (Nat × Nat)
  deriving DecidableEq, Repr

/-- R389: where a gang launch stands. -/
inductive GangSt
  | reserving
  | committed
  | waitRetry
  | started
  | done
  deriving DecidableEq, Repr

/-- R389: a gang launch: coord is the package that coordinates it and num its number there, packet the 64 bytes of its
GANG packet, and params the parameter-window bindings captured at its start. -/
structure Gang where
  uid : Nat
  coord : Nat
  num : Nat
  packet : List Byte
  params : List ParamBind
  ctx : Nat
  qid : Nat
  index : Nat
  image : List Byte
  members : List GangMember
  limit : Nat
  lead : Nat
  begun : Nat
  retryAt : Nat
  startAt : Nat
  st : GangSt
  viaduct : Option Nat
  deriving DecidableEq, Repr

/-- R390: a journal entry; func is the function whose readout pages show it. -/
structure JEntry where
  seq : Nat
  hash : List Byte
  tag : Nat
  accept : Nat
  done : Nat
  index : Nat
  queue : Nat
  owner : Nat
  part : Nat
  type : Nat
  status : Nat
  ctx : Nat
  detail : Nat
  func : Nat
  deriving DecidableEq, Repr

/-- R392, R398, R405, R411: an owner; waits holds, for each die, 0 while it does not wait there, else 1 more than the die's
clk from which its wait of now is counted. -/
structure Owner where
  num : Nat
  recallTicks : Nat
  weight : Nat
  parts : Nat
  levels : List Nat
  waits : List Nat
  deficits : List Int
  masks : SMap Nat
  usage : List Nat
  usageEnd : List Nat
  deriving DecidableEq, Repr

/-- R403: a lent quad. -/
structure Lend where
  owner : Nat
  auto : Bool
  any : Bool
  borrower : Nat
  die : Nat
  quad : Nat
  deriving DecidableEq, Repr

/-- R400: a pre-emption of a core or quad, of the spans of one context only where H2 swaps that context out (R402). -/
structure Preempt where
  uid : Nat
  die : Nat
  core : Nat
  isQuad : Bool
  beneficiary : Option Nat
  isRecall : Bool
  start : Nat
  deadline : Nat
  evicted : Bool
  only : Option Nat
  deriving DecidableEq, Repr

/-- R447: a loop record. ynext and rnext hold the beats and the resident ticks that fall at or after the end of a
period that has not been latched yet (R445); ceilings holds Q and M as they stood at the last T_k (R449). -/
structure LoopRec where
  r : Nat
  flags : Nat
  kp : Nat
  ki : Nat
  integ : Nat
  u : Nat
  order : Nat
  cls : Nat
  weight : Nat
  bgroup : Nat
  ycur : Nat
  ylatch : Nat
  ylast : Nat
  err : Int
  steps : Nat
  demand : List Nat
  grant : List Nat
  newGrant : List Nat
  sigma : Nat
  rtick : Nat
  rlatch : Nat
  ynext : Nat
  rnext : Nat
  period : Nat
  merged : Option Nat
  partialMerge : Bool
  ceilings : Option (Nat × Nat)
  deriving DecidableEq, Repr

/-- R447: the loop record at its reset values. -/
def LoopRec.initial : LoopRec :=
  ⟨0, 0, 0, 0, 0, 0, 0x4688, 2, 1, 0, 0, 0, 0, 0, 0, [0, 0, 0, 0, 0], [0, 0, 0, 0, 0],
    [0, 0, 0, 0, 0], 0, 0, 0, 0, 0, 0, none, false, none⟩

/-- R415: a segment-table entry, with the function that created the segment. -/
structure Segment where
  base : Nat
  size : Nat
  id : Nat
  func : Nat
  deriving DecidableEq, Repr

/-- R394, R414: a context: its context record and its translation domain record. -/
structure Context where
  num : Nat
  asid : Nat
  owner : Nat
  part : Nat
  save : Nat
  lslots : Nat
  sslots : Nat
  lbase : Nat
  fqbase : Nat
  fqlen : Nat
  fqwr : Nat
  fqrd : Nat
  seed : W
  quiesceRight : Bool
  debugger : Bool
  runnable : Bool
  state : Nat
  colls : Nat
  flush : Nat
  pools : List W64
  loop : LoopRec
  pendingLoops : List (Nat × List Byte)
  func : Nat
  root1 : Nat
  stage2 : Nat
  tagdom : Nat
  mthresh : Nat
  segs : List Segment
  segtab : Nat
  fwstate : List W64
  coreGrants : SMap Nat
  newCoreGrants : SMap Nat
  deriving DecidableEq, Repr

/-- R310, R421: a fault that waits for firmware or a driver. -/
structure OpenFault where
  ctx : Nat
  page : Nat
  kind : Nat
  cause : Nat
  stage2 : Bool
  gpa : Nat
  deriving DecidableEq, Repr

/-- R471: a flash image slot. -/
structure FlashSlot where
  image : List Byte
  valid : Bool
  deriving DecidableEq, Repr

/-- R468: a reply of the management mailbox. -/
structure Reply where
  func : Nat
  code : Nat
  seq : Nat
  status : Nat
  body : List Byte
  deriving DecidableEq, Repr

/-- R478: an error record. -/
structure ErrRec where
  paddr : Nat
  domain : Nat
  owner : Nat
  kind : Nat
  source : Nat
  unit : Nat
  row : Nat
  count : Nat
  tick : Nat
  deriving DecidableEq, Repr

/-- R481, R482: a link: ports 0 to 23 of Causeway, and the die-to-die links from 24 on. -/
structure Link where
  port : Nat
  up : Bool
  training : Bool
  nextSend : Nat
  nextRecv : Nat
  unacked : List Nat
  refusals : List Nat
  sameRefusals : Nat
  failedTrains : Nat
  retrains : Nat
  deriving DecidableEq, Repr

/-- R480: an entry of the repair list: a retired frame with the row that failed. -/
structure Repair where
  frame : Nat
  stack : Nat
  bank : Nat
  row : Nat
  deriving DecidableEq, Repr

/-- R488: a lifetime record, by its counted fields. -/
structure LifeRec where
  tick : Nat
  epoch : W64
  ecc : List Nat
  links : List Nat
  aborts : List Nat
  sat : Nat
  repair : List Nat
  sensors : List Nat
  deriving DecidableEq, Repr

/-- R488: no history. -/
def LifeRec.zero : LifeRec := ⟨0, 0, [], [], [], 0, [], []⟩

/-- What other packages do to this one (R218, R231 to R237, R328, R347 to R365, R389). -/
inductive Remote
  /-- R218: every group of a gang's viaduct in another package has arrived at the pod barrier. -/
  | podArrive (viaduct pkg : Nat)
  /-- R365: the idle signal of another package of the domain. -/
  | idle (pkg : Nat) (high : Bool)
  /-- R232, R356: a put, an addition, a read or a broadcast of another package reaches this one, from a context of a
  domain. -/
  | command (dom : Nat) (c : FabCmd)
  /-- R361: a part of a collective's result, or a late correction, that other switches have forwarded. -/
  | part (dom : Nat) (late : Bool) (p : Partial)
  /-- R231, R232, R237: another package answers a lane of a command: it refuses it, or has done it with a result. -/
  | answer (cmd lane : Nat) (refused : Bool) (data : W64)
  /-- R361: another package refuses a collective result that has gone to it. -/
  | refuse (gid : Nat) (r : TrapRec)
  /-- R237: a contribution of another package reaches a mordant slot here. -/
  | send (dom : Nat) (handle : W64) (expert : Nat) (xs : List W)
  /-- R237: another package abandons a token here. -/
  | free (dom : Nat) (handle : W64)
  /-- R352: the release of a token of another package's mordant buffer arrives on a span here. -/
  | release (m : MordSlot)
  /-- R389: another package that coordinates a gang launch asks for this one's part of it, for a context of a domain. -/
  | gangReserve (dom : Nat) (g : Gang)
  /-- R389: the commit of a gang launch that another package coordinates, with its start tick. -/
  | gangCommit (coord num start : Nat)
  /-- R389: the rollback of a gang launch that another package coordinates. -/
  | gangRollback (coord num : Nat)
  /-- R389: another package's part of a gang launch that is coordinated here has ended. -/
  | gangEnded (num pkg status detail : Nat)
  /-- R389: a part of a gang launch has trapped in another package, which stops every part. -/
  | gangTrap (coord num : Nat) (r : TrapRec)
  /-- R409: the part here of a gang launch is cancelled, its context having ended in the coordinating package. -/
  | gangCancel (coord num : Nat)
  deriving DecidableEq, Repr

/-- What happens next: an operation or event, the issue of a split's next word, an arrival whose release is over, an
aligned part of a load served before the rest, what another package does, firmware's refusal of a binding packet (R385),
another try of a function's waiting request (R425), or the passing of ticks. The list of them is the order in which the agents act, as data. -/
inductive Stim
  | op (i : Instr)
  | issue (gid split : Nat)
  | arrive (gid : Nat)
  | part (load part : Nat)
  | remote (r : Remote)
  | refuseBind (qid index : Nat)
  | retry (func : Nat)
  | elapse (n : Nat)
  deriving DecidableEq, Repr

/-- R265, R266: a core: the clk of its next issue opportunity, and the split whose clause it is in the middle of. -/
structure CoreRec where
  key : Nat
  clk : Nat
  cur : Option (Nat × Nat)
  deriving DecidableEq, Repr

/-- The caches, the store buffers and what is outstanding to memory; getxs holds the requests for ownership that wait
for invalidations (agent, domain, line), which keep the line mid-transition (R430); moved holds the domain, the page and the agent
left of the migrations of the window (R438). -/
structure MemSys where
  entries : List SbEntry
  loads : List Load
  atoms : List Atom
  l1 : List L1Line
  l2 : List L2Tag
  rdc : List RdcLine
  invals : List Inval
  getxs : List (Nat × Nat × Nat)
  attrs : List AttrEntry
  htbs : List HtbEntry
  migs : List MigRec
  migsDropped : Nat
  moved : List (Nat × Nat × Nat)
  clocks : List (List Nat)
  keys : List Nat
  heldMarks : List (Nat × Nat)
  tokens : List (Nat × Nat)
  tokenWaits : List (Nat × Nat)
  openFaults : List OpenFault
  unsent : List FaultRec
  deriving DecidableEq, Repr

/-- The engines of cores and quads. -/
structure Engines where
  copies : List Copy
  tiles : List TileCmd
  fns : List FnCmd
  fabs : List FabCmd
  deriving DecidableEq, Repr

/-- The watch tables, their registrations, scans and fires; filters holds the 1024 filter bits of a slice's list, by
home agent * 256 + slice (R327). -/
structure WatchSys where
  regs : List WatchReg
  entries : List WatchEntry
  filters : SMap Nat
  scans : List Scan
  fires : List Fire
  deriving DecidableEq, Repr

/-- The mordant buffers, windows and collectives; `arrives` holds the slots whose remote arrive waits for the placement
of its span (R352). -/
structure Fabric where
  slots : List MordSlot
  arrives : List MordSlot
  pools : List Pool
  windows : List Window
  streams : List Stream
  resent : List Resent
  tags : List CollTag
  partials : List Partial
  rounds : List CollRound
  routines : SMap (List W)
  deriving DecidableEq, Repr

/-- The front end; hostReads holds the bytes returned over the host link, by function, and doorbells the physical address
at which contexts can map the doorbell pages (R374), where there is one; mmWaits holds the memory-manager requests that wait,
oldest first. -/
structure Front where
  queues : List Queue
  storeWatches : List StoreWatch
  gangs : List Gang
  journal : List JEntry
  jseq : Nat
  acked : Nat
  msix : List (Nat × Nat)
  replies : List Reply
  hostReads : List (Nat × List Byte)
  kickErrors : SMap Nat
  doorbells : Option Nat
  mmWaits : List MmReq
  deriving DecidableEq, Repr

/-- Owners, partitions and contexts; dying holds the destroyed contexts with the slices that have acknowledged their
purge (R328). -/
structure Tenancy where
  ctxs : List Context
  owners : List Owner
  sysMask : SMap Nat
  partMap : SMap Nat
  lends : List Lend
  preempts : List Preempt
  wayBudget : SMap Nat
  chanQuota : SMap Nat
  slotQuota : SMap Nat
  pointers : List Nat
  rotation : SMap Nat
  rotated : SMap Nat
  segments : List Segment
  epoch : W64
  periods : Nat
  periodTick : Nat
  phase : Nat
  evictSeq : Nat
  dying : List (Context × List Nat)
  deriving DecidableEq, Repr

/-- The device: start, identity, errors, links and lifetime records. alias2 is the firmware-layer identity key that H0
holds, 0 before stage 4, chain the certificates that ROM and stage 1 have made, and udsLocked the lock of the device secret's fuse (R469); reports holds the attestation
reports in the readout pages by function (R470), and hourEcc counts the ECC events of the
hour by stack and kind (R488). clkParts counts the clk of each die in fifths (R6); idleFrom and podFrom hold the dies'
clk from which the idle tree of the package and of the pod has been high without a break, none where it is low, and
podBusy the other packages of the domain whose signal is low (R365). journalAt holds the physical addresses of the two
copies of the journal, and listAt those of the four dies' watch lists, once a start has placed them (R323, R390, R485). -/
structure Device where
  stage : Nat
  udsLocked : Bool
  alias2 : Nat
  chain : List Byte
  bootSlot : Nat
  bootError : Nat
  flash : List FlashSlot
  preferred : Nat
  update : Option Nat
  staged : Option Nat
  floor : Nat
  harts : List Bool
  hartRestarts : List Nat
  errRing : List ErrRec
  errLost : Nat
  ecc : SMap Nat
  links : List Link
  retireAsks : List Nat
  repairs : List Repair
  usedSpares : List (Nat × Nat)
  retiredCores : List (Nat × Nat)
  coreErrors : List (Nat × Nat × Nat)
  spares : List Nat
  disabledQuads : List (Nat × Nat)
  remaps : Nat
  rowsRepaired : Nat
  reports : List (Nat × List Byte)
  hourEcc : List Nat
  lifeRing : List LifeRec
  lifeTotal : LifeRec
  aborts : List Nat
  satTicks : Nat
  clockStep : List Nat
  clockCeil : List Nat
  clockCap : List Nat
  clkParts : List Nat
  idleFrom : List Nat
  podFrom : List Nat
  podBusy : List Nat
  journalAt : List Nat
  listAt : List Nat
  deriving DecidableEq, Repr

/-- The state of the machine. g and sp are the group and the split whose word is being executed, and iss
the place of that word; mem is global memory, and wq the writes to it that the current step has made, newest
first, which the step stores into mem at its end. -/
structure State where
  g : Group
  sp : Split
  iss : Issue
  groups : List Group
  spans : List Span
  viaducts : List Viaduct
  traps : List TrapRec
  mem : List Host.Cell
  wq : List Host.Cell
  side : SMap Nat
  ms : MemSys
  eng : Engines
  wat : WatchSys
  fab : Fabric
  front : Front
  ten : Tenancy
  dev : Device
  pkg : Nat
  tick : Nat
  uid : Nat
  free : Nat
  turn : Nat
  cores : List CoreRec
  agenda : List Stim
  deriving DecidableEq, Repr

/-- R19: the four slots of a new group, empty, with generation 0. -/
def initialSlots : List Slot := [Slot.none 0, Slot.none 0, Slot.none 0, Slot.none 0]

/-- R9: the sixteen queue registers of a new group. -/
def initialQueues : List QueueReg := List.replicate 16 QueueReg.unbound

/-- A checkpoint of start values. -/
def Checkpoint.initial (em : W) (fmode : W) (rng : SMap W) : Checkpoint :=
  ⟨[], [], em, initialSlots, fmode, rng, []⟩

/-- R9, R268: the first split of a group whose existing strands are em, at its entry clause. -/
def Split.initial (em : W) (entry : Nat) (fmode : W) (rng : SMap W) : Split :=
  { num := 0, member := em, em := em, pc := entry, widx := 0, regionPc := entry, regionWord := 0,
    bndPending := true, bndUid := 0, stack := [], ckpt := Checkpoint.initial em fmode rng, done := 0, replay := 0,
    kept := 0, beats := 0, state := .running, pend := [], pendAt := (0, 0), faults := [], unsent := [],
    restored := false }

/-- The group of no program, in focus while no group's word is executed; its number is 0. -/
def Group.idle : Group :=
  { gid := 0, span := 0, viaduct := 0, ctx := 0, index := 0, die := 0, core := 0, gslot := 0, lslot := 0,
    nregs := 0, exist := 0, regs := [], regPoison := [], sregs := [], kregs := [], rng := [], flags := 0, fmode := 0,
    live := 0, cntL := 0, cntS := 0, cntC := 0, cntT := 0, slots := initialSlots, queues := initialQueues,
    txstat := 0, wstat := 0, trapinfo := 0, splits := [], lastSplit := 0, stamp := 0, yieldMark := false,
    issuedFirst := true, exited := true, released := true, residence := .resident, wakePending := [],
    tx := none, failCounts := [], replays := [], pendings := [], deferred := [], arrivals := [], stopped := true }

/-- The split of no program. -/
def Split.idle : Split := Split.initial 0 0 0 []

/-- No word is being executed. -/
def Issue.idle : Issue := ⟨0, 0, 0, 0, false⟩

/-- R392: an owner record at reset. -/
def Owner.initial (n : Nat) : Owner :=
  { num := n, recallTicks := 250000, weight := 0, parts := 0, levels := [0, 0, 0, 0], waits := [0, 0, 0, 0],
    deficits := [0, 0, 0, 0], masks := [], usage := [0, 0, 0, 0, 0], usageEnd := [0, 0, 0, 0, 0] }

/-- R481: a link that has not been trained. -/
def Link.initial (p : Nat) : Link := ⟨p, false, false, 0, 0, [], [], 0, 0, 0⟩

/-- The machine right after reset release is still to come: stage 0, nothing placed, nothing written (R463,
R464 and the reset column of the field maps). -/
def State.reset : State :=
  { g := Group.idle, sp := Split.idle, iss := Issue.idle, groups := [], spans := [], viaducts := [],
    traps := [], mem := [], wq := [], side := [],
    ms := { entries := [], loads := [], atoms := [], l1 := [], l2 := [], rdc := [], invals := [], getxs := [],
            attrs := [], htbs := [], migs := [], migsDropped := 0, moved := [],
            clocks := [[0, 0, 0, 0], [0, 0, 0, 0], [0, 0, 0, 0], [0, 0, 0, 0]], keys := [],
            heldMarks := [], tokens := [], tokenWaits := [], openFaults := [], unsent := [] },
    eng := { copies := [], tiles := [], fns := [], fabs := [] },
    wat := { regs := [], entries := [], filters := [], scans := [], fires := [] },
    fab := { slots := [], arrives := [], pools := [], windows := [], streams := [], resent := [], tags := [], partials := [],
             rounds := [], routines := [] },
    front := { queues := [], storeWatches := [], gangs := [], journal := [], jseq := 0, acked := 0,
               msix := [], replies := [], hostReads := [], kickErrors := [], doorbells := none, mmWaits := [] },
    ten := { ctxs := [], owners := [], sysMask := [], partMap := [], lends := [], preempts := [],
             wayBudget := [], chanQuota := [], slotQuota := [], pointers := [0, 0, 0, 0],
             rotation := [], rotated := [], segments := [], epoch := Config.epoch 0, periods := 0, periodTick := 0, phase := 0,
             evictSeq := 0, dying := [] },
    dev := { stage := 0, udsLocked := false, alias2 := 0, chain := [], bootSlot := 3, bootError := 0, flash := [⟨[], false⟩, ⟨[], false⟩],
             preferred := 0, update := none, staged := none, floor := 0,
             harts := [false, false, false, false, false, false, false, false],
             hartRestarts := [0, 0, 0, 0, 0, 0, 0, 0], errRing := [], errLost := 0,
             ecc := [], links := [], retireAsks := [], repairs := [], usedSpares := [],
             retiredCores := [], coreErrors := [], spares := [16, 16, 16, 16], disabledQuads := [],
             remaps := 0, rowsRepaired := 0, reports := [], hourEcc := List.replicate 24 0, lifeRing := [], lifeTotal := LifeRec.zero, aborts := [0, 0, 0, 0], satTicks := 0,
             clockStep := [0, 0, 0, 0], clockCeil := [7, 7, 7, 7], clockCap := [7, 7, 7, 7], clkParts := [0, 0, 0, 0],
             idleFrom := [], podFrom := [], podBusy := [], journalAt := [], listAt := [] },
    pkg := 0, tick := 0, uid := 1, free := 1, turn := 0, cores := [], agenda := [] }

end Sys2Proof.Machine
end

