-- ==== Sys2Proof/Machine/Memory.lean ====
section
/-! DEFINITION. Global memory as bytes, the writes of a step, page tables and translation (R274 to R281,
R413 to R424). -/

namespace Sys2Proof.Machine

open Sys2Proof

/-- What a byte of memory that nothing has written reads as. DESIGN CHOICE, unsafe: log entry 1. -/
def unlistedByte : Byte := 0

/-- The byte of a memory at an address. -/
def memGet (m : List Host.Cell) (a : Nat) : Byte := mapGet unlistedByte m a

/-- The memory with one byte written, in canonical form. -/
def memSet (m : List Host.Cell) (a : Nat) (b : Byte) : List Host.Cell := mapSet unlistedByte m a b

/-- The canonical form: addresses strictly rising, no byte equal to an unlisted one. -/
def Memory.wf : List Host.Cell → Bool
  | [] => true
  | [c] => c.2 != unlistedByte
  | c :: d :: m => decide (c.1 < d.1) && c.2 != unlistedByte && Memory.wf (d :: m)

/-- The memory with the writes of a step stored into it; wq holds the newest first. -/
def memApply (m : List Host.Cell) : List Host.Cell → List Host.Cell
  | [] => m
  | c :: q => memSet (memApply m q) c.1 c.2

/-- The byte at a physical address, the writes of the current step included. -/
def rdByte (s : State) (a : Nat) : Byte :=
  match s.wq.find? (fun c => c.1 == a) with
  | some c => c.2
  | none => memGet s.mem a

/-- Writes one byte at a physical address. -/
def wrByte (a : Nat) (b : Byte) (s : State) : State := { s with wq := (a, b) :: s.wq }

/-- The n bytes at a physical address. -/
def rdBytes (s : State) (a n : Nat) : List Byte := (List.range n).map (fun i => rdByte s (a + i))

/-- Writes bytes at a physical address, the first at the lowest address. -/
def wrBytes (a : Nat) (bs : List Byte) (s : State) : State :=
  bs.zipIdx.foldl (fun t p => wrByte (a + p.2) p.1 t) s

/-- The number of n bytes at a physical address, little-endian (R5). -/
def rdNat (s : State) (a n : Nat) : Nat := bytesToNat (rdBytes s a n)

/-- Writes a number as n bytes, little-endian (R5). -/
def wrNat (a n x : Nat) (s : State) : State := wrBytes a (natToBytes n x) s

/-- The first physical address of a package (R416: 39 bits below the package number). -/
def pkgBase (p : Nat) : Nat := p * 2 ^ 39

/-- The 128-byte line of an address. -/
def lineOf (a : Nat) : Nat := a / 128 * 128

/-- The 64 KiB page of an address. -/
def pageOf (a : Nat) : Nat := a / 65536 * 65536

/-! Coherence side-band bits (R428). -/

/-- R428: the state field of a line. -/
def sideState (s : State) (line : Nat) : Nat := bitsOf (mapGet 0 s.side line) 31 29

/-- R428, R433: whether a line is poisoned. -/
def isPoisoned (s : State) (line : Nat) : Bool := sideState s (lineOf line) == 7

/-- R428: sets the side-band bits of a line. -/
def setSide (line v : Nat) (s : State) : State := { s with side := mapSet 0 s.side (lineOf line) v }

/-- R433: poisons a line. -/
def poisonLine (line : Nat) (s : State) : State := setSide line (7 * 2 ^ 29) s

/-- R325, R428: the bit W of a line. -/
def sideWatched (s : State) (line : Nat) : Bool := bitOf (mapGet 0 s.side (lineOf line)) 0

/-- R325: sets or clears the bit W of a line. -/
def setWatched (line : Nat) (b : Bool) (s : State) : State :=
  setSide line (setBits (mapGet 0 s.side (lineOf line)) 0 0 (if b then 1 else 0)) s

/-! Page-table entries (R416). -/

/-- R416: the fields of an entry. -/
structure Pte where
  frame : Nat
  hpkg : Nat
  key : Nat
  pslice : Nat
  seg : Bool
  run : Bool
  pin : Bool
  wp : Bool
  c : Bool
  x : Bool
  w : Bool
  rd : Bool
  res : Bool
  v : Bool
  deriving DecidableEq, Repr

/-- R416: the fields of the 8 bytes of an entry. -/
def pteOf (n : Nat) : Pte :=
  { frame := bitsOf n 63 41, hpkg := bitsOf n 40 31, key := bitsOf n 30 18, pslice := bitsOf n 17 10,
    seg := bitOf n 9, run := bitOf n 8, pin := bitOf n 7, wp := bitOf n 6, c := bitOf n 5, x := bitOf n 4,
    w := bitOf n 3, rd := bitOf n 2, res := bitOf n 1, v := bitOf n 0 }

/-- R416: the 8 bytes of an entry, as a number. -/
def Pte.toNat (p : Pte) : Nat :=
  p.frame * 2 ^ 41 + p.hpkg * 2 ^ 31 + p.key * 2 ^ 18 + p.pslice * 2 ^ 10 + bit01 p.seg * 2 ^ 9 +
    bit01 p.run * 2 ^ 8 + bit01 p.pin * 2 ^ 7 + bit01 p.wp * 2 ^ 6 + bit01 p.c * 2 ^ 5 +
    bit01 p.x * 2 ^ 4 + bit01 p.w * 2 ^ 3 + bit01 p.rd * 2 ^ 2 + bit01 p.res * 2 + bit01 p.v

/-- R416: a valid entry without permissions points to a table. -/
def Pte.isPointer (p : Pte) : Bool := !p.rd && !p.w && !p.x

/-- R418: a table pointer with a nonzero field other than frame. -/
def Pte.badPointer (p : Pte) : Bool :=
  p.hpkg != 0 || p.key != 0 || p.pslice != 0 || p.seg || p.run || p.pin || p.wp || p.c || p.res

/-- R418: a leaf with bit 1 set, with w and no rd, or with a misaligned 512 MiB frame. -/
def Pte.badLeaf (level : Nat) (p : Pte) : Bool :=
  p.res || (p.w && !p.rd) || (level == 2 && p.frame % 8192 != 0)

/-- R308, R421: a fault of a walk: cause, whether of stage 2, and the guest-physical address. -/
structure WalkFault where
  cause : Nat
  stage2 : Bool
  gpa : Nat
  deriving DecidableEq, Repr

/-- R416, R423: what a walk gives: the entry in effect, the physical address, the tag domain, the page size
code, the smaller of both stages', and the physical address of the stage-1 leaf entry. -/
structure Leaf where
  pte : Pte
  phys : Nat
  dom : Nat
  size : Nat
  entry : Nat
  deriving DecidableEq, Repr

/-- R417: the index of a table level. -/
def pteIndex (level va : Nat) : Nat :=
  match level with
  | 1 => bitsOf va 55 42
  | 2 => bitsOf va 41 29
  | _ => bitsOf va 28 16

/-- R417: the bytes a leaf of a level maps. -/
def levelBytes (level : Nat) : Nat := if level = 2 then 2 ^ 29 else 65536

/-- R417, R418: a walk of the levels left (3 at the start) from a table at physical or guest-physical
address tab; at gives the physical address of an entry. It answers the leaf, its level and its entry's
address. -/
def walkLevels (s : State) (at_ : Nat → Except WalkFault Nat) (va : Nat) :
    Nat → Nat → Except WalkFault (Pte × Nat × Nat)
  | 0, _ => .error ⟨2, false, 0⟩
  | left + 1, tab => do
    let level := 3 - left
    let ea ← at_ (tab + 8 * pteIndex level va)
    let p := pteOf (rdNat s ea 8)
    if !p.v then .error ⟨1, false, tab + 8 * pteIndex level va⟩
    else if p.isPointer then
      if p.badPointer || level == 3 then .error ⟨2, false, tab + 8 * pteIndex level va⟩
      else walkLevels s at_ va left (p.frame * 65536)
    else if level == 1 || p.badLeaf level then .error ⟨2, false, tab + 8 * pteIndex level va⟩
    else .ok (p, level, ea)

/-- R417: the entries of a run of a level, and the frames of each. -/
def runShape (level : Nat) : Nat × Nat := if level = 2 then (64, 8192) else (32, 1)

/-- R417: the address of the first entry of the aligned set of an entry. -/
def runBase (level ea : Nat) : Nat := ea / (8 * (runShape level).1) * (8 * (runShape level).1)

/-- R417: whether the aligned set of an entry is a run of leaves. -/
def isRun (s : State) (level ea : Nat) : Bool :=
  let n := (runShape level).1
  let unit := (runShape level).2
  let first := pteOf (rdNat s (runBase level ea) 8)
  first.v && first.run && !first.isPointer && first.frame % (n * unit) == 0 &&
    (List.range n).all (fun i =>
      pteOf (rdNat s (runBase level ea + 8 * i) 8) == { first with frame := first.frame + i * unit })

/-- R423: the size code of a leaf: 0 64 KiB, 1 2 MiB, 2 512 MiB, 3 32 GiB. -/
def sizeCode (s : State) (level ea : Nat) : Nat := (if level = 2 then 2 else 0) + bit01 (isRun s level ea)

/-- R423: the bytes of a page of a size code. -/
def sizeBytes (code : Nat) : Nat :=
  match code with
  | 0 => 2 ^ 16
  | 1 => 2 ^ 21
  | 2 => 2 ^ 29
  | _ => 2 ^ 35

/-- R420, R421: the stage-2 translation of a guest-physical address; every failure is a stage-2 fault. The answer
is the entry, its size code and the physical address. -/
def walkStage2 (s : State) (root gpa : Nat) : Except WalkFault (Pte × Nat × Nat) :=
  match walkLevels s (fun a => .ok (pkgBase s.pkg + a)) gpa 3 root with
  | .ok r => .ok (r.1, sizeCode s r.2.1 r.2.2, r.1.hpkg * 2 ^ 39 + r.1.frame * 65536 + gpa % levelBytes r.2.1)
  | .error _ => .error ⟨4, true, gpa⟩

/-- R420, R421: the physical address of a stage-1 table entry of a context; with a second stage, its page must be readable
there. -/
def tableAt (s : State) (c : Context) (a : Nat) : Except WalkFault Nat :=
  if c.stage2 = 0 then .ok (pkgBase s.pkg + a)
  else do
    let r ← walkStage2 s c.stage2 a
    if r.1.rd then .ok r.2.2 else .error ⟨4, true, a⟩

/-- R421: the guest-physical address of the data page of an address. -/
def dataPage (s : State) (c : Context) (va : Nat) : Nat :=
  match walkLevels s (tableAt s c) va 3 c.root1 with
  | .ok r => pageOf (r.1.frame * 65536 + va % levelBytes r.2.1)
  | .error _ => 0

/-- R415: the pod-wide id of the segment that contains an address. -/
def segmentOf (c : Context) (va : Nat) : Option Nat :=
  (c.segs.find? (fun g => decide (g.base ≤ va ∧ va < g.base + g.size))).map (fun g => g.id)

/-- R413, R416 to R421, R424: the two-stage walk of a virtual address of a context. -/
def walkVa (s : State) (c : Context) (va : Nat) : Except WalkFault Leaf := do
  let r ← walkLevels s (tableAt s c) va 3 c.root1
  let p1 := r.1
  let dom ← (if p1.seg then
      match segmentOf c va with
      | some d => .ok d
      | none => .error ⟨2, false, 0⟩
    else (.ok c.tagdom : Except WalkFault Nat))
  let off := va % levelBytes r.2.1
  let leaf ← (if c.stage2 = 0 then
      .ok ⟨p1, p1.hpkg * 2 ^ 39 + p1.frame * 65536 + off, dom, sizeCode s r.2.1 r.2.2, r.2.2⟩
    else do
      let q ← (walkStage2 s c.stage2 (p1.frame * 65536 + off)).mapError
        (fun f => { f with gpa := pageOf (p1.frame * 65536 + off) })
      let p2 := q.1
      .ok ⟨{ p1 with rd := p1.rd && p2.rd, w := p1.w && p2.w, x := p1.x && p2.x, c := p1.c && p2.c,
                     hpkg := p2.hpkg, key := p2.key, frame := p2.frame }, q.2.2, dom,
           min (sizeCode s r.2.1 r.2.2) q.2.1, r.2.2⟩ : Except WalkFault Leaf)
  if leaf.pte.key ≠ 0 ∧ ¬ memNat leaf.pte.key s.ms.keys then .error ⟨2, false, 0⟩ else .ok leaf

/-- R419: the permissions an access needs. -/
structure Need where
  rd : Bool
  w : Bool
  x : Bool
  deriving DecidableEq, Repr

/-- R419: reads. -/
def needRd : Need := ⟨true, false, false⟩
/-- R419: writes. -/
def needW : Need := ⟨false, true, false⟩
/-- R419: atomic lanes. -/
def needRdW : Need := ⟨true, true, false⟩
/-- R419: clause fetches. -/
def needX : Need := ⟨false, false, true⟩

/-- R419: whether an entry gives the permissions an access needs. -/
def Need.met (n : Need) (p : Pte) : Bool := (!n.rd || p.rd) && (!n.w || p.w) && (!n.x || p.x)

/-- R419, R421: whether stage 1 alone would give the permission, so that its lack is stage 2's. -/
def stage1Permits (s : State) (c : Context) (n : Need) (va : Nat) : Bool :=
  match walkVa s c va with
  | .ok l => n.met (pteOf (rdNat s l.entry 8))
  | .error _ => false

/-- R419: the walk with its permission check; a permission that only stage 2 lacks is a stage-2 fault. -/
def access (s : State) (c : Context) (n : Need) (va : Nat) : Except WalkFault Leaf :=
  match walkVa s c va with
  | .error f => .error f
  | .ok l =>
    if n.met l.pte then .ok l
    else if c.stage2 ≠ 0 ∧ stage1Permits s c n va then
      .error ⟨4, true, dataPage s c va⟩
    else .error ⟨2, false, 0⟩

/-- R394: the context of a number. -/
def ctxOf? (s : State) (n : Nat) : Option Context := s.ten.ctxs.find? (fun c => c.num == n)

/-- R419: the walk of an address in the space of a context number; an absent context has no pages. -/
def accessIn (s : State) (ctx : Nat) (n : Need) (va : Nat) : Except WalkFault Leaf :=
  match ctxOf? s ctx with
  | some c => access s c n va
  | none => .error ⟨1, false, 0⟩

/-- R416, R423: the agent that homes a page: package times 4 plus die. -/
def homeAgent (l : Leaf) : Nat := l.pte.hpkg * 4 + bitsOf l.pte.frame 22 21

/-- R281: the slice of a virtual address within a die. -/
def sliceOf (l : Leaf) (va : Nat) : Nat :=
  if l.pte.pin then l.pte.pslice
  else
    bitsOf va 14 7 ^^^ bitsOf va 22 15 ^^^ bitsOf va 30 23 ^^^ bitsOf va 38 31 ^^^ bitsOf va 46 39 ^^^
      bitsOf va 54 47

/-- The bytes at a virtual address of a context, a page fault where a byte has no page. The bytes are
those of memory, line by line. -/
def readVa (s : State) (ctx : Nat) (n : Need) (va len : Nat) : Except WalkFault (List Byte) :=
  (List.range len).mapM (fun i => (accessIn s ctx n (va + i)).map (fun l => rdByte s l.phys))

/-- Writes bytes at virtual addresses of a context that its pages map. -/
def writeVa (ctx va : Nat) (bs : List Byte) (s : State) : State :=
  bs.zipIdx.foldl (fun t p =>
    match accessIn t ctx needW (va + p.2) with
    | .ok l => wrByte l.phys p.1 t
    | .error _ => t) s

end Sys2Proof.Machine
end

