-- ==== Sys2Proof/Machine/Focus.lean ====
section
/-! DEFINITION. The group and split in focus, lookups, registers, condition slots and the completion of packets. -/

namespace Sys2Proof.Machine

open Sys2Proof

/-- What the meaning of an instruction answers. -/
abbrev Out := Host.Outcome State Fault Refusal

/-! The focus: the group and split whose word is executed. -/

/-- A split put among others in the order of their numbers; a split without strands has ended. -/
def insertSplit (sp : Split) : List Split → List Split
  | [] => if sp.member = 0 then [] else [sp]
  | x :: xs => if sp.member = 0 then x :: xs else if sp.num < x.num then sp :: x :: xs else x :: insertSplit sp xs

/-- A group put among others in the order of their numbers. -/
def insertGroup (g : Group) : List Group → List Group
  | [] => [g]
  | x :: xs => if g.gid < x.gid then g :: x :: xs else x :: insertGroup g xs

/-- The state with no group in focus. -/
def unfocus (s : State) : State :=
  if s.g.gid = 0 then { s with g := Group.idle, sp := Split.idle, iss := Issue.idle }
  else
    { s with groups := insertGroup { s.g with splits := insertSplit s.sp s.g.splits } s.groups,
             g := Group.idle, sp := Split.idle, iss := Issue.idle }

/-- The state with a group and one of its splits in focus, at the word the split blocks in. -/
def focus? (gid num : Nat) (s : State) : Option State :=
  let u := unfocus s
  match u.groups.find? (fun g => g.gid == gid) with
  | none => none
  | some g =>
    match g.splits.find? (fun p => p.num == num) with
    | none => none
    | some p =>
      some { u with groups := u.groups.filter (fun x => x.gid != gid),
                    g := { g with splits := g.splits.filter (fun x => x.num != num) }, sp := p,
                    iss := ⟨p.pendAt.1, p.pendAt.2, p.widx, 0, false⟩ }

/-- The number under which what an ended split has outstanding is kept. -/
def endedSplit : Nat := 4

/-- The state with a group and one of its splits in focus; for what an ended split left outstanding, a split
without strands stands in its place. -/
def focusFor? (gid num : Nat) (s : State) : Option State :=
  match focus? gid num s with
  | some t => some t
  | none =>
    let u := unfocus s
    (u.groups.find? (fun g => g.gid == gid)).map (fun g =>
      { u with groups := u.groups.filter (fun x => x.gid != gid), g := g, sp := { Split.idle with num := num } })

/-- An operation on another split, after which the focus is as before. -/
def onSplit (gid num : Nat) (f : State → State) (s : State) : State :=
  match focusFor? gid num s with
  | none => s
  | some t =>
    let u := unfocus (f t)
    match focus? s.g.gid s.sp.num u with
    | some v => { v with iss := s.iss }
    | none => u

/-- Every group of the machine, the one in focus included. -/
def allGroups (s : State) : List Group := if s.g.gid = 0 then s.groups else s.g :: s.groups

/-- The group of a number. -/
def groupOf? (s : State) (gid : Nat) : Option Group := (allGroups s).find? (fun g => g.gid == gid)

/-- The splits of a group, the one in focus included. -/
def splitsOf (s : State) (g : Group) : List Split :=
  if g.gid = s.g.gid then insertSplit s.sp g.splits else g.splits

/-- A group changed; its splits are not. -/
def modGroup (gid : Nat) (f : Group → Group) (s : State) : State :=
  if s.g.gid = gid then { s with g := f s.g }
  else { s with groups := updateAll (fun g => g.gid == gid) f s.groups }

/-- What a split of a group has outstanding goes to another number. -/
def renumberSplit (gid old new : Nat) (s : State) : State :=
  let n (g k : Nat) : Nat := if g = gid ∧ k = old then new else k
  { s with
    ms := { s.ms with
      loads := s.ms.loads.map (fun x => { x with split := n x.gid x.split }),
      entries := s.ms.entries.map (fun x => { x with split := n x.gid x.split }),
      atoms := s.ms.atoms.map (fun x => { x with split := n x.gid x.split }) },
    eng := { s.eng with
      copies := s.eng.copies.map (fun x => { x with split := n x.gid x.split }),
      tiles := s.eng.tiles.map (fun x => { x with split := n x.gid x.split }),
      fabs := s.eng.fabs.map (fun x => { x with split := n x.gid x.split }) },
    wat := { s.wat with regs := s.wat.regs.map (fun x => { x with split := n x.gid x.split }) } }
  |> modGroup gid (fun g => { g with arrivals := g.arrivals.map (fun a => { a with split := n gid a.split }) })

/-- Every split of a group changed. -/
def modSplits (gid : Nat) (f : Split → Split) (s : State) : State :=
  if s.g.gid = gid then { s with sp := f s.sp, g := { s.g with splits := s.g.splits.map f } }
  else { s with groups := updateAll (fun g => g.gid == gid) (fun g => { g with splits := g.splits.map f }) s.groups }

/-- The number of splits of the group in focus. -/
def splitCount (s : State) : Nat := (insertSplit s.sp s.g.splits).length

/-- A fresh serial number. -/
def fresh (s : State) : Nat × State := (s.uid, { s with uid := s.uid + 1 })

/-- R6: the clk of a die: a clk of step k is 5 of the 22 + 2k parts of a tick. -/
def clkOf (s : State) (die : Nat) : Nat := nthD 0 s.dev.clkParts die / 5

/-- R266: the clk of a core's next issue opportunity. -/
def coreClk (s : State) (die core : Nat) : Nat :=
  max (clkOf s die) (((s.cores.find? (fun c => c.key == die * 1024 + core)).map (fun c => c.clk)).getD 0)

/-- The next draw of a free value (log entry 8). -/
def draw (s : State) : Nat × State := (s.free, { s with free := s.free + 1 })

/-! Lookups. -/

/-- The span of a number. -/
def spanOf? (s : State) (u : Nat) : Option Span := s.spans.find? (fun x => x.uid == u)

/-- The viaduct of a number. -/
def viaductOf? (s : State) (u : Nat) : Option Viaduct := s.viaducts.find? (fun x => x.uid == u)

/-- The launch descriptor of the group in focus. -/
def launchOf? (s : State) : Option Launch := (viaductOf? s s.g.viaduct).map (fun v => v.launch)

/-- A span changed. -/
def modSpan (u : Nat) (f : Span → Span) (s : State) : State :=
  { s with spans := updateFirst (fun x => x.uid == u) f s.spans }

/-- A viaduct changed. -/
def modViaduct (u : Nat) (f : Viaduct → Viaduct) (s : State) : State :=
  { s with viaducts := updateFirst (fun x => x.uid == u) f s.viaducts }

/-- A context changed. -/
def modCtx (n : Nat) (f : Context → Context) (s : State) : State :=
  { s with ten := { s.ten with ctxs := updateFirst (fun c => c.num == n) f s.ten.ctxs } }

/-- R9, R17: the barrier registers of the span in focus. -/
def barCount (s : State) : Nat :=
  match spanOf? s s.g.span with
  | some x => x.bars.length
  | none => 0

/-- R18, R254: the part of a span on a core. -/
def spanCoreOf? (s : State) (span core : Nat) : Option SpanCore :=
  (spanOf? s span).bind (fun x => x.cores.find? (fun c => c.core == core))

/-- The part of a span on a core changed. -/
def modSpanCore (span core : Nat) (f : SpanCore → SpanCore) (s : State) : State :=
  modSpan span (fun x => { x with cores := updateFirst (fun c => c.core == core) f x.cores }) s

/-- R18: the tiles of the group in focus on its core. -/
def tileCount (s : State) : Nat :=
  match spanCoreOf? s s.g.span s.g.core with
  | some c => c.tiles.length
  | none => 0

/-- R226: whether the split in focus is in a transaction. -/
def inTx (s : State) : Bool :=
  match s.g.tx with
  | some t => t.split == s.sp.num && t.phase != TxPhase.ended
  | none => false

/-- R392, R398: an owner changed; an owner without a record has the reset record. -/
def modOwner (n : Nat) (f : Owner → Owner) (s : State) : State :=
  if s.ten.owners.any (fun o => o.num == n) then
    { s with ten := { s.ten with owners := updateFirst (fun o => o.num == n) f s.ten.owners } }
  else { s with ten := { s.ten with owners := s.ten.owners ++ [f (Owner.initial n)] } }

/-- R392: the record of an owner. -/
def ownerRec (s : State) (n : Nat) : Owner := (s.ten.owners.find? (fun o => o.num == n)).getD (Owner.initial n)

/-- R411: an owner's running usage counter raised; it saturates at 64 bits. -/
def addUse (owner idx n : Nat) (s : State) : State :=
  if n = 0 then s
  else modOwner owner (fun o => { o with usage := o.usage.set idx (min (2 ^ 64 - 1) (nthD 0 o.usage idx + n)) }) s

/-- R488: one more region abort of a cause: 0 page fault, 1 poison, 2 forced eviction, 3 transaction conflict. -/
def countAbort (cause : Nat) (s : State) : State :=
  { s with dev := { s.dev with aborts := s.dev.aborts.set cause (nthD 0 s.dev.aborts cause + 1) } }

/-! Registers. -/

/-- R9: the place of a lane of a vector register in the register file. -/
def regKey (r l : Nat) : Nat := r * 32 + l

/-- R9: a lane of a vector register of a group. -/
def gReg (g : Group) (r l : Nat) : W := mapGet 0 g.regs (regKey r l)

/-- R9: a lane of a vector register of the group in focus. -/
def vGet (s : State) (r l : Nat) : W := gReg s.g r l

/-- R12: a lane of a register pair. -/
def vGet64 (s : State) (r l : Nat) : W64 := joinWords (vGet s (r + 1) l) (vGet s r l)

/-- R13: a vector register with the lanes of a list written. -/
def writeLanes (r : Nat) (f : Nat → W) (ls : List Nat) (m : SMap W) : SMap W :=
  ls.foldl (fun a l => mapSet 0 a (regKey r l) (f l)) m

/-- R477: the poison marks of a register file after a register is written in some lanes. -/
def clearMarks (r : Nat) (ls marks : List Nat) : List Nat :=
  if marks = [] then [] else marks.filter (fun k => !(k / 32 == r && memNat (k % 32) ls))

/-- R13: a vector register written in the lanes of a mask. -/
def Group.setLanes (r : Nat) (m : W) (f : Nat → W) (g : Group) : Group :=
  { g with regs := writeLanes r f (lanesOf m) g.regs, regPoison := clearMarks r (lanesOf m) g.regPoison }

/-- R12: consecutive vector registers written in the lanes of a mask, the first with element 0. -/
def Group.setWide (r n : Nat) (m : W) (f : Nat → Nat → W) (g : Group) : Group :=
  (List.range n).foldl (fun a j => a.setLanes (r + j) m (fun l => f l j)) g

/-- R13: a vector register of the group in focus written in the active lanes. -/
def vSet (r : Nat) (f : Nat → W) (s : State) : State := { s with g := s.g.setLanes r s.sp.em f }

/-- R12, R13: a pair written in the active lanes. -/
def vSet64 (r : Nat) (f : Nat → W64) (s : State) : State :=
  vSet (r + 1) (fun l => highWord (f l)) (vSet r (fun l => lowWord (f l)) s)

/-- R14: a scalar register. -/
def sGet (s : State) (r : Nat) : W64 := mapGet 0 s.g.sregs r

/-- R14: a scalar register written. -/
def sSet (r : Nat) (x : W64) (s : State) : State := { s with g := { s.g with sregs := mapSet 0 s.g.sregs r x } }

/-- R14: a mask register. -/
def kGet (s : State) (k : Nat) : W := mapGet 0 s.g.kregs k

/-- R14: a mask register written. -/
def kSet (k : Nat) (x : W) (s : State) : State := { s with g := { s.g with kregs := mapSet 0 s.g.kregs k x } }

/-- R15: a mask operand, where code 8 names em. -/
def maskGet (s : State) (k : Nat) : W := if k = 8 then s.sp.em else kGet s k

/-- R226: the lanes a transaction admits to em. -/
def txLimit (s : State) : W :=
  match s.g.tx with
  | some t => if t.split = s.sp.num ∧ t.phase ≠ .ended then t.mask else BitVec.allOnes 32
  | none => BitVec.allOnes 32

/-- R15, R226: em written, and ANDed with the existing strands, the membership and the tx mask. -/
def emSet (x : W) (s : State) : State :=
  { s with sp := { s.sp with em := x &&& s.g.exist &&& s.sp.member &&& txLimit s } }

/-- R15: a mask operand written. -/
def maskSet (k : Nat) (x : W) (s : State) : State := if k = 8 then emSet x s else kSet k x s

/-- R26: flags set. -/
def raise (f : Flags) (s : State) : State := { s with g := { s.g with flags := s.g.flags ||| f } }

/-- R29: a lane's random state. -/
def rngGet (s : State) (l : Nat) : W := mapGet 0 s.g.rng l

/-- R29: a lane's random state written. -/
def rngSet (l : Nat) (x : W) (s : State) : State := { s with g := { s.g with rng := mapSet 0 s.g.rng l x } }

/-! Watches and slots (R220, R325, R328). -/

/-- R325: clears W of a line that no entry watches any longer. -/
def clearW (e : WatchEntry) (s : State) : State :=
  if s.wat.entries.any (fun f => f.dom == e.dom && lineOf f.addr == lineOf e.addr) then s
  else
    match ctxOf? s e.ctx with
    | none => s
    | some c =>
      match walkVa s c e.addr with
      | .ok l => setWatched l.phys false s
      | .error _ => s

/-- R328: removes watch entries; W follows. -/
def dropEntries (p : WatchEntry → Bool) (s : State) : State :=
  (s.wat.entries.filter p).foldl (fun t e => clearW e t)
    { s with wat := { s.wat with entries := s.wat.entries.filter (fun e => !p e) } }

/-- R323: whether a watch entry is of a slot of a group. -/
def entryOfSlot (g : Group) (slot : Nat) (e : WatchEntry) : Bool :=
  e.packet == none && e.ctx == g.ctx && e.lslot == g.lslot && e.slot == slot

/-- R328: withdraws what a slot of a group has registered. -/
def withdrawSlot (g : Group) (slot : Nat) (s : State) : State :=
  let t := dropEntries (entryOfSlot g slot) s
  { t with wat := { t.wat with regs := t.wat.regs.filter (fun r => !(r.gid == g.gid && r.slot == slot)) } }

/-- R328: withdraws what every slot of a group has registered. -/
def withdrawGroup (g : Group) (s : State) : State :=
  [0, 1, 2, 3].foldl (fun t i => withdrawSlot g i t) s

/-- A slot of a group replaced. -/
def Group.setSlot (i : Nat) (x : Slot) (g : Group) : Group := { g with slots := g.slots.set i x }

/-- A slot of a group. -/
def Group.slot (g : Group) (i : Nat) : Slot := nthD (Slot.none 0) g.slots i

/-- R345, R347: the free slots of the pool of a context on a die. -/
def poolFree (s : State) (die ctx : Nat) : Nat :=
  match s.fab.pools.find? (fun p => p.die == die && p.ctx == ctx) with
  | none => 0
  | some p => bitsOf p.word.toNat 63 48 -
      (s.fab.slots.filter (fun m => m.die == die && m.ctx == ctx && m.st != MordSt.free)).length

/-- R220, R332: whether the condition of a cond slot of a group holds now. -/
def condHolds (s : State) (g : Group) (c : Cond) : Bool :=
  match c with
  | .word _ _ _ _ => false
  | .barPhase b p =>
    match spanOf? s g.span with
    | some x => (nthD Barrier.zero x.bars b).phase != p
    | none => false
  | .window w x =>
    match s.fab.windows.find? (fun v => v.die == g.die && v.ctx == g.ctx && v.idx == w) with
    | some v => decide ((v.target + 2 ^ 32 - x.toNat) % 2 ^ 32 < 2 ^ 31)
    | none => false
  | .queue q => (nthD QueueReg.unbound g.queues q).entries.any (fun e => e.taken == none)
  | .mordant n => decide (n.toNat ≤ poolFree s g.die g.ctx)

/-- R332: whether a condition is of a kind that the condition monitor evaluates. -/
def Cond.monitored : Cond → Bool
  | .word _ _ _ _ => false
  | .barPhase _ _ => true
  | .window _ _ => true
  | .queue _ => true
  | .mordant _ => true

/-- R19, R306, R220: a slot fires, if its generation is still the one given; the fire is kept in the
checkpoint of every split that holds the slot armed with that generation. A fire of an earlier generation is discarded
(R328). -/
def fireSlot (gid i gen : Nat) (forced : Bool) (s : State) : State :=
  let fire (x : Slot) : Slot :=
    if x.st = .armed ∧ x.gen = gen then { x with st := .fired, forced := forced, answered := true } else x
  if ((groupOf? s gid).map (fun g => (g.slot i).gen)) = some gen then
    let t := modGroup gid (fun g => g.setSlot i (fire (g.slot i))) s
    modSplits gid (fun p => { p with ckpt := { p.ckpt with
      slots := p.ckpt.slots.set i (fire (nthD (Slot.none 0) p.ckpt.slots i)) } }) t
  else s

/-- R332: evaluates the monitored slots of a group. -/
def evalMonitor (gid : Nat) (s : State) : State :=
  match groupOf? s gid with
  | none => s
  | some g =>
    if g.residence = .resident then
      [0, 1, 2, 3].foldl (fun t i =>
        let x := g.slot i
        if x.st = .armed ∧ x.cond.monitored ∧ condHolds t g x.cond then fireSlot gid i x.gen false t else t) s
    else s

/-- R332: evaluates the monitored slots of every resident group. -/
def evalMonitors (s : State) : State := ((allGroups s).map (fun g => g.gid)).foldl (fun t n => evalMonitor n t) s

/-- R219, R220, R326: the slot of a number is armed with a condition under its next generation; a monitored
condition is evaluated in the same step, a word's registration is sent to its home. -/
def armSlot (i : Nat) (c : Cond) (isWaitu region : Bool) (s : State) : State :=
  let t := withdrawSlot s.g i s
  let gen := (s.g.slot i).gen + 1
  match c with
  | .word addr cmp x w64 =>
    let u := fresh t
    { u.2 with
      g := u.2.g.setSlot i ⟨.armed, c, false, gen % 256, false⟩,
      wat := { u.2.wat with regs := u.2.wat.regs ++
        [⟨u.1, s.g.gid, s.sp.num, i, gen % 256, addr, cmp, x, w64, isWaitu, region⟩] } }
  | .barPhase _ _ => evalMonitor s.g.gid { t with g := t.g.setSlot i ⟨.armed, c, false, gen % 256, true⟩ }
  | .window _ _ => evalMonitor s.g.gid { t with g := t.g.setSlot i ⟨.armed, c, false, gen % 256, true⟩ }
  | .queue _ => evalMonitor s.g.gid { t with g := t.g.setSlot i ⟨.armed, c, false, gen % 256, true⟩ }
  | .mordant _ => evalMonitor s.g.gid { t with g := t.g.setSlot i ⟨.armed, c, false, gen % 256, true⟩ }

/-- R22, R220, R328: a slot after an abort: what the checkpoint held, with the generation kept rising. A
checkpoint condition whose entry the region withdrew is registered anew. -/
def restoreSlot (i : Nat) (old : Slot) (s : State) : State :=
  let cur := s.g.slot i
  if cur.gen = old.gen then { s with g := s.g.setSlot i (if cur.st = .fired then cur else old) }
  else
    match old.st with
    | .armed => armSlot i old.cond false false s
    | .fired => let t := withdrawSlot s.g i s; { t with g := t.g.setSlot i { old with gen := cur.gen } }
    | .empty => let t := withdrawSlot s.g i s; { t with g := t.g.setSlot i (Slot.none cur.gen) }

/-! Queues and the journal (R378, R391). -/

/-- A queue changed. -/
def modQueue (qid : Nat) (f : Queue → Queue) (s : State) : State :=
  { s with front := { s.front with queues := updateFirst (fun q => q.qid == qid) f s.front.queues } }

/-- The queue of a number. -/
def queueOf? (s : State) (qid : Nat) : Option Queue := s.front.queues.find? (fun q => q.qid == qid)

/-- R391: a pending journal entry takes its final status, once. -/
def journalDone (seq status detail : Nat) (s : State) : State :=
  let j := updateFirst (fun e => e.seq == seq && e.status == 255)
    (fun e => { e with status := status, done := s.tick, detail := detail }) s.front.journal
  { s with front := { s.front with journal := j } }

/-- R379, R383, R391: a packet is over with a status: its journal entry, its place in the slot, and the conditions it
watched. -/
def finishPacket (seq status detail : Nat) (s : State) : State :=
  let t := journalDone seq status detail s
  match s.front.queues.find? (fun q => q.packets.any (fun p => p.journal == seq)) with
  | none => t
  | some q =>
    let idx := ((q.packets.find? (fun p => p.journal == seq)).map (fun p => p.index)).getD 0
    let u := modQueue q.qid (fun x => { x with packets := x.packets.filter (fun p => p.journal != seq), idleTick := t.tick }) t
    dropEntries (fun e => e.packet == some (q.qid, idx))
      { u with front := { u.front with
          storeWatches := u.front.storeWatches.filter (fun w => !(w.qid == q.qid && w.index == idx)) } }

/-- R279: the tag domain of an address of a context: the segment's, or the context's own. -/
def domainOf (s : State) (ctx va : Nat) : Nat :=
  match ctxOf? s ctx with
  | some c => (segmentOf c va).getD c.tagdom
  | none => 0

end Sys2Proof.Machine
end

