-- ==== Sys2Proof/Machine/Watch.lean ====
section
/-! DEFINITION. Watch tables, their evaluation, coherence side-band fields and the words of packets
(R219, R323 to R328, R384, R428). -/

namespace Sys2Proof.Machine

open Sys2Proof

/-! Side-band fields (R428). -/

/-- R428: the 32 coherence bits from their fields. -/
def mkSide (st owner sharers : Nat) (w : Bool) : Nat :=
  st % 8 * 2 ^ 29 + owner % 4096 * 2 ^ 17 + sharers % 65536 * 2 + bit01 w

/-- R428: the coherence bits of a line. -/
def sideBits (s : State) (phys : Nat) : Nat := mapGet 0 s.side (lineOf phys)

/-- R428: the owner field. -/
def sideOwner (n : Nat) : Nat := bitsOf n 28 17

/-- R428: the sharers field. -/
def sideSharers (n : Nat) : Nat := bitsOf n 16 1

/-- R428: the state field. -/
def sideSt (n : Nat) : Nat := bitsOf n 31 29

/-- R428, R430: the bit of an agent's group in a coarse sharer vector. -/
def coarseBit (agent : Nat) : Nat := 2 ^ (agent / 256)

/-- R430: the sharers with an agent added: exact while they are one agent, coarse from then on. exact says
whether the old field is one. The answer is (whether exact, field). -/
def addSharer (hasExact : Bool) (field agent : Nat) : Bool × Nat :=
  if hasExact then
    (if field % 4096 = agent then (true, field) else (false, coarseBit field ||| coarseBit agent))
  else (false, field ||| coarseBit agent)

/-- R411, R430: a line held in an L2 slice has changed. -/
def markDirty (dom line : Nat) (s : State) : State :=
  { s with ms := { s.ms with
      l2 := updateFirst (fun t => t.dom == dom && t.line == line) (fun t => { t with dirty := true }) s.ms.l2 } }

/-- R325, R430, R431: recalls every E, M or O copy of a line to S. -/
def demoteLine (dom line phys : Nat) (s : State) : State :=
  let n := sideBits s phys
  let w := bitOf n 0
  let v :=
    match sideSt n with
    | 3 => mkSide 1 0 (sideOwner n) w
    | 4 => mkSide 1 0 (sideOwner n) w
    | 5 => let p := addSharer true (sideSharers n) (sideOwner n); mkSide (if p.1 then 1 else 2) 0 p.2 w
    | 6 => mkSide 2 0 (addSharer false (sideSharers n) (sideOwner n)).2 w
    | _ => n
  let r := updateAll (fun x => x.dom == dom && x.line == line) (fun x => { x with st := .s }) s.ms.rdc
  let t := if sideSt n = 4 ∨ sideSt n = 6 then markDirty dom line s else s
  setSide phys v { t with ms := { t.ms with rdc := r } }

/-! Conditions on words (R219). -/

/-- R219: whether a comparison holds between V and X at a width. -/
def cmpHolds (cmp : Nat) (w64 : Bool) (v : Nat) (x : W64) : Bool :=
  let w := if w64 then 64 else 32
  let a := v % 2 ^ w
  let b := x.toNat % 2 ^ w
  match cmp with
  | 0 => a == b
  | 1 => a != b
  | 2 => decide (toSigned w a < toSigned w b)
  | 3 => decide (toSigned w b ≤ toSigned w a)
  | 4 => decide (a < b)
  | 5 => decide (b ≤ a)
  | _ => (a &&& (x.toNat / 2 ^ 32)) == (b &&& (x.toNat / 2 ^ 32))

/-- The bytes of a watched word. -/
def wordBytes (w64 : Bool) : Nat := if w64 then 8 else 4

/-- R326: the current value of a word at a physical address. -/
def wordAt (s : State) (phys : Nat) (w64 : Bool) : Nat := rdNat s phys (wordBytes w64)

/-! Placing entries (R324, R325, R384). -/

/-- R327: the filter index of an address. -/
def filterIndex (a : Nat) : Nat := bitsOf a 16 7 ^^^ bitsOf a 26 17

/-- R324: where a new entry of a context goes: the table, the list, or nowhere. A packet's entry is outside
the context's quotas (R384). -/
def placeEntry? (s : State) (home slice ctx : Nat) (packet : Bool) : Option Bool :=
  let here := s.wat.entries.filter (fun e => e.home == home && e.slice == slice)
  let table := here.filter (fun e => !e.inList)
  let list := here.filter (fun e => e.inList)
  let mine (es : List WatchEntry) : Nat := (es.filter (fun e => e.ctx == ctx && e.packet == none)).length
  if (packet ∨ mine table < 64) ∧ table.length < 256 then some false
  else if (packet ∨ mine list < 1024) ∧ list.length < 4096 then some true
  else none

/-- R327: the key of a slice's filter. -/
def filterKey (home slice : Nat) : Nat := home * 256 + slice

/-- R327: whether a slice's filter bit of an address is set. -/
def filterBit (s : State) (home slice a : Nat) : Bool := bitOf (mapGet 0 s.wat.filters (filterKey home slice)) (filterIndex a)

/-- R327: a slice's filter bit of an address set or cleared. -/
def setFilter (home slice a : Nat) (b : Bool) (s : State) : State :=
  let k := filterKey home slice
  let v := setBits (mapGet 0 s.wat.filters k) (filterIndex a) (filterIndex a) (bit01 b)
  { s with wat := { s.wat with filters := mapSet 0 s.wat.filters k v } }

/-- R324, R325, R327: keeps an entry: W is set, after the recall of E, M and O copies, and a list entry sets its filter
bit. The entry holds bits [31:0] of the tick. -/
def keepEntry (e : WatchEntry) (phys : Nat) (s : State) : State :=
  let t := setWatched phys true (demoteLine e.dom (lineOf e.addr) phys s)
  let t := if e.inList then setFilter e.home e.slice e.addr true t else t
  { t with wat := { t.wat with entries := t.wat.entries ++ [{ e with tick := e.tick % 2 ^ 32 }] } }

/-- R323: the 32 bytes of a watch-table or overflow-list entry. -/
def WatchEntry.bytes (e : WatchEntry) : List Byte :=
  natToBytes 8 e.addr ++ natToBytes 8 e.operand.toNat ++ natToBytes 2 e.dom ++ natToBytes 2 e.ctx ++
    natToBytes 2 (e.pkg % 1024) ++ natToBytes 3 (e.lslot % 2 ^ 17) ++
    natToBytes 1 (128 + e.slot % 4 * 32 + bit01 e.w64 * 16 + e.cmp % 8 * 2) ++ natToBytes 1 e.gen ++ natToBytes 1 0 ++
    natToBytes 4 e.tick

/-- R323: the bytes of the overflow list of a slice: its entries, in the order in which they were kept, and zeros (valid
clear) in the places that are free. -/
def listBytes (s : State) (home slice : Nat) : List Byte :=
  let es := s.wat.entries.filter (fun e => e.home == home && e.slice == slice && e.inList)
  es.flatMap WatchEntry.bytes ++ List.replicate (32 * (4096 - es.length)) 0

/-- R323: where the overflow list of a slice of this package stands in memory, once a start has placed it. -/
def listPlace? (s : State) (home slice : Nat) : Option Nat := s.dev.listAt[home % 4]?.map (fun a => a + 131072 * slice)

/-! WAIT and BARRIER-AND packets (R384). -/

/-- The bytes [lo, lo + n) of a packet as a number. -/
def Packet.field (p : Packet) (lo n : Nat) : Nat := bytesToNat ((p.bytes.drop lo).take n)

/-- R384: the words a packet waits on: (number, address, CMP, X). -/
def Packet.waits (p : Packet) : List (Nat × Nat × Nat × W64) :=
  if p.field 1 1 = 3 then [(0, p.field 16 8, p.field 8 1, BitVec.ofNat 64 (p.field 24 8))]
  else (List.range (p.field 8 1)).map (fun i => (i, p.field (16 + 8 * i) 8, 2, 1))

/-- R384, R419: the physical address of a packet's word. -/
def packetWord (s : State) (ctx addr : Nat) : Option Leaf :=
  match accessIn s ctx needRd addr with
  | .ok l => some l
  | .error _ => none

/-- R384: whether one word of a packet holds now. -/
def packetWordHolds (s : State) (ctx : Nat) (w : Nat × Nat × Nat × W64) : Bool :=
  match packetWord s ctx w.2.1 with
  | some l => cmpHolds w.2.2.1 true (wordAt s l.phys true) w.2.2.2
  | none => false

/-- R384: registers the words of a packet that do not hold and have no entry: in the slice where it has room,
else in the packet-watch store. -/
def registerPacket (q : Queue) (p : Packet) (s : State) : State :=
  p.waits.foldl (fun t w =>
    if packetWordHolds t q.ctx w then t
    else if t.wat.entries.any (fun e => e.packet == some (q.qid, p.index) && e.slot == w.1) then t
    else
      match packetWord t q.ctx w.2.1 with
      | none => t
      | some l =>
        match placeEntry? t (homeAgent l) (sliceOf l w.2.1) q.ctx true with
        | some inList =>
          let u := fresh t
          let sw := t.front.storeWatches.filter (fun x => !(x.qid == q.qid && x.index == p.index && x.word == w.1))
          let v := { u.2 with front := { u.2.front with storeWatches := sw } }
          keepEntry ⟨u.1, homeAgent l, sliceOf l w.2.1, inList, w.2.1, w.2.2.2, l.dom, q.ctx, t.pkg, 0, w.1, true,
            w.2.2.1, 0, t.tick, some (q.qid, p.index)⟩ l.phys v
        | none =>
          if t.front.storeWatches.any (fun x => x.qid == q.qid && x.index == p.index && x.word == w.1) then t
          else
            { t with front := { t.front with storeWatches := t.front.storeWatches ++
                [⟨q.qid, p.index, w.1, w.2.1, w.2.2.1, w.2.2.2, t.tick⟩] } }) s

/-- R384: looks again at a started WAIT or BARRIER-AND: it completes when every word holds at one moment, and
its other words are watched otherwise. -/
def recheckPacket (qid index : Nat) (s : State) : State :=
  match queueOf? s qid with
  | none => s
  | some q =>
    match q.packets.find? (fun p => p.index == index && p.started && !p.done) with
    | none => s
    | some p =>
      if p.waits.all (packetWordHolds s q.ctx) then finishPacket p.journal 0 0 s else registerPacket q p s

/-! Evaluation after a write (R327). -/

/-- R327: whether an entry's word overlaps written bytes of its line. -/
def overlaps (e : WatchEntry) (offs : List Nat) : Bool :=
  let o := e.addr % 128
  offs.any (fun i => decide (o ≤ i ∧ i < o + wordBytes e.w64))

/-- R327: the entries of a list that a write of a line fires: the word overlaps and the condition holds. -/
def firing (s : State) (dom line phys : Nat) (offs : List Nat) (inList : Bool) : List WatchEntry :=
  s.wat.entries.filter (fun e => e.inList == inList && e.dom == dom && lineOf e.addr == line && overlaps e offs &&
    cmpHolds e.cmp e.w64 (wordAt s (phys + e.addr % 128) e.w64) e.operand)

/-- R327, R330: entries fire and are removed; a packet's word is looked at again. -/
def fireEntries (es : List WatchEntry) (s : State) : State :=
  let t := dropEntries (fun e => es.any (fun f => f.uid == e.uid)) s
  es.foldl (fun u e =>
    match e.packet with
    | some p => recheckPacket p.1 p.2 u
    | none =>
      let f := fresh u
      { f.2 with wat := { f.2.wat with fires := f.2.wat.fires ++ [⟨f.1, e.ctx, e.lslot, e.slot, e.gen, false⟩] } }) t

/-- R327: evaluates the table entries of a written line at once, and starts the scan of the list where the
line's filter bit is set. -/
def evalWatches (home slice dom line phys : Nat) (bytes : List (Nat × Byte)) (s : State) : State :=
  let offs := bytes.map (fun b => b.1)
  let t := fireEntries (firing s dom line phys offs false) s
  if filterBit t home slice line then
    { t with wat := { t.wat with scans := t.wat.scans ++ [⟨home, slice, dom, line, phys, bytes⟩] } }
  else t

/-- R327: whether writes to a line wait for a scan. -/
def lineScanned (s : State) (dom line : Nat) : Bool := s.wat.scans.any (fun c => c.dom == dom && c.line == line)

end Sys2Proof.Machine
end

