-- ==== Sys2Proof/Machine/Caches.lean ====
section
/-! DEFINITION. L1, L2 tags, remote data caches, lookasides and home buffers, and the reads and writes that pass
through them (R279 to R284, R294, R405, R406, R423 to R435). -/

namespace Sys2Proof.Machine

open Sys2Proof

/-- The agent of a die of this package (R428). -/
def agentOf (s : State) (die : Nat) : Nat := s.pkg * 4 + die

/-- Whether an agent is a die of this package. -/
def localAgent (s : State) (agent : Nat) : Bool := agent / 4 == s.pkg

/-! L1 (R282). -/

/-- R282: the L1 line of a core, if present. -/
def l1Find (s : State) (die core dom line : Nat) : Option L1Line :=
  s.ms.l1.find? (fun x => x.die == die && x.core == core && x.dom == dom && x.line == line)

/-- R282: the set of a line. -/
def l1Set (line : Nat) : Nat := line / 128 % 64

/-- The element with the least value of a measure. -/
def leastBy {α : Type} (f : α → Nat) : List α → Option α
  | [] => none
  | x :: xs =>
    match leastBy f xs with
    | none => some x
    | some y => if f y < f x then some y else some x

/-- R282: a hit makes its line the most recently used. -/
def l1Touch (die core dom line : Nat) (s : State) : State :=
  let u := fresh s
  let here (x : L1Line) : Bool := x.die == die && x.core == core && x.dom == dom && x.line == line
  let ls := updateFirst here (fun x => { x with used := u.1 }) u.2.ms.l1
  { u.2 with ms := { u.2.ms with l1 := ls } }

/-- R282: fills a line: the lowest invalid way of its set, else the least recently used one. -/
def l1Fill (die core dom line : Nat) (bytes : List Byte) (s : State) : State :=
  let inSet (x : L1Line) : Bool := x.die == die && x.core == core && l1Set x.line == l1Set line
  let set := s.ms.l1.filter inSet
  let way := ((List.range 8).find? (fun w => !set.any (fun x => x.way == w))).getD
    (((leastBy (fun x => x.used) set).map (fun x => x.way)).getD 0)
  let u := fresh s
  let ls := u.2.ms.l1.filter (fun x => !(inSet x && x.way == way)) ++ [⟨die, core, dom, line, bytes, way, u.1⟩]
  { u.2 with ms := { u.2.ms with l1 := ls } }

/-- R282: an acquire at quad scope or wider invalidates every line of a core's L1. -/
def l1Invalidate (die core : Nat) (s : State) : State :=
  { s with ms := { s.ms with l1 := s.ms.l1.filter (fun x => !(x.die == die && x.core == core)) } }

/-- R282: a store leaving the buffer updates the L1 copy of its bytes. -/
def l1Update (die core dom line : Nat) (bytes : List (Nat × Byte)) (s : State) : State :=
  let here (x : L1Line) : Bool := x.die == die && x.core == core && x.dom == dom && x.line == line
  let upd (x : L1Line) : L1Line := { x with bytes := bytes.foldl (fun bs b => bs.set b.1 b.2) x.bytes }
  { s with ms := { s.ms with l1 := updateFirst here upd s.ms.l1 } }

/-! L2 tags (R405, R406). -/

/-- R406: the set of a line in a slice. -/
def l2Set (pin : Bool) (line : Nat) : Nat := if pin then bitsOf line 15 7 else bitsOf line 23 15

/-- R405: the way mask of a filler code in a slice of a die. -/
def wayMask (s : State) (die slice filler : Nat) : Nat :=
  let key := die * 256 + slice
  if filler = 256 then 65535 - mapGet 0 s.ten.sysMask key
  else
    match s.ten.owners.find? (fun o => o.num == filler) with
    | some o => 65535 - mapGet 0 o.masks key
    | none => 65535

/-- The g lowest-numbered members of a list of ways. -/
def lowestWays (g : Nat) (ws : List Nat) : List Nat := ws.take g

/-- R406: the ways of a fill: the mask's, or the lowest granted while the context's loop grants ways. -/
def effectiveWays (s : State) (die slice filler : Nat) (ctx : Option Nat) : List Nat :=
  let ws := (List.range 16).filter (fun w => bitOf (wayMask s die slice filler) w)
  match ctx.bind (fun n => ctxOf? s n) with
  | none => ws
  | some c =>
    let g := nthD 0 c.loop.grant 2
    if c.loop.r ≠ 0 ∧ g ≠ 0 then lowestWays g ws else ws

/-- R411: the 128 bytes of a line that move between a slice and its frame for a filler. -/
def chargeLine (filler : Nat) (s : State) : State := if filler < 256 then addUse filler 2 128 s else s

/-- R406, R411: lines leave their slices; the changed ones are written to their frames, for the owners whose tag they
carry. -/
def dropL2 (gone : L2Tag → Bool) (s : State) : State :=
  let t := (s.ms.l2.filter (fun x => gone x && x.dirty)).foldl (fun u x => chargeLine x.filler u) s
  { t with ms := { t.ms with l2 := t.ms.l2.filter (fun x => !gone x) } }

/-- R406, R411: an access to a line at its home slice: a hit makes it the most recently used, a miss fills it. -/
def l2Touch (die slice dom line : Nat) (pin : Bool) (filler : Nat) (ctx : Option Nat) (s : State) : State :=
  let set := l2Set pin line
  let here (t : L2Tag) : Bool := t.die == die && t.slice == slice && t.set == set
  let u := fresh s
  if s.ms.l2.any (fun t => here t && t.dom == dom && t.line == line) then
    let ts := updateFirst (fun t => here t && t.dom == dom && t.line == line) (fun t => { t with used := u.1 }) u.2.ms.l2
    { u.2 with ms := { u.2.ms with l2 := ts } }
  else
    let es := effectiveWays s die slice filler ctx
    let held := s.ms.l2.filter here
    let way := (es.find? (fun w => !held.any (fun t => t.way == w))).or
      ((leastBy (fun t => t.used) (held.filter (fun t => memNat t.way es))).map (fun t => t.way))
    match way with
    | none => s
    | some w =>
      let v := chargeLine filler (dropL2 (fun t => here t && t.way == w) u.2)
      { v with ms := { v.ms with l2 := v.ms.l2 ++ [⟨die, slice, dom, line, w, set, filler, false, u.1⟩] } }

/-- R405: the filler code of a context's accesses: its owner. -/
def fillerOf (s : State) (ctx : Nat) : Nat := ((ctxOf? s ctx).map (fun c => c.owner)).getD 256

/-- R406: an access for a context to a line at its home, where the home is in this package. -/
def homeTouch (ctx : Nat) (l : Leaf) (va : Nat) (s : State) : State :=
  if localAgent s (homeAgent l) then
    l2Touch (homeAgent l % 4) (sliceOf l va) l.dom (lineOf va) l.pte.pin (fillerOf s ctx) (some ctx) s
  else s

/-! Die vector clocks (R294). -/

/-- R294: the greater of two clocks, entry by entry. -/
def clockMax (a b : List Nat) : List Nat := (List.range 4).map (fun i => max (nthD 0 a i) (nthD 0 b i))

/-- R294: the clock of a die. -/
def clockOf (s : State) (die : Nat) : List Nat := nthD [0, 0, 0, 0] s.ms.clocks die

/-- R294: a die's events now follow what a clock names. -/
def clockJoin (die : Nat) (c : List Nat) (s : State) : State :=
  { s with ms := { s.ms with clocks := s.ms.clocks.set die (clockMax (clockOf s die) c) } }

/-- R294: a write from a die is applied at a home on another die of the package. -/
def clockWrite (src home : Nat) (s : State) : State :=
  if src = home then s
  else
    let c := clockOf s src
    let c := c.set src (nthD 0 c src + 1)
    clockJoin home c { s with ms := { s.ms with clocks := s.ms.clocks.set src c } }

/-! The attribute lookaside (R423). -/

/-- R423: whether a lookaside entry covers an address. -/
def AttrEntry.covers (e : AttrEntry) (die core dom va : Nat) : Bool :=
  e.die == die && e.core == core && e.dom == dom &&
    e.page / sizeBytes e.size == va / sizeBytes e.size

/-- R149, R423: whether a core's lookaside holds the page of an address. -/
def attrHit (s : State) (die core dom va : Nat) : Option AttrEntry :=
  s.ms.attrs.find? (fun e => e.covers die core dom va)

/-- R423: the lookaside holds a leaf; the least recently used of 256 entries goes. -/
def attrFill (die core va : Nat) (l : Leaf) (s : State) : State :=
  let u := fresh s
  let perms := bit01 l.pte.rd + 2 * bit01 l.pte.w + 4 * bit01 l.pte.x + 8 * bit01 l.pte.c + 16 * bit01 l.pte.wp +
    32 * bit01 l.pte.pin
  let rest := s.ms.attrs.filter (fun e => !(e.covers die core l.dom va))
  let mine := rest.filter (fun e => e.die == die && e.core == core)
  let rest :=
    if mine.length < 256 then rest
    else
      match leastBy (fun e => e.used) mine with
      | some v => rest.filter (fun e => e.used != v.used)
      | none => rest
  { u.2 with ms := { u.2.ms with attrs := rest ++
      [⟨die, core, l.dom, pageOf va, l.size, perms, homeAgent l, l.pte.pslice, l.pte.key, u.1⟩] } }

/-- R423: an access of a core to a page of a context: a lookaside hit makes its entry the most recently used, a miss is
walked and kept, and a walk that faults keeps nothing. -/
def attrUse (die core ctx va : Nat) (s : State) : State :=
  match accessIn s ctx ⟨false, false, false⟩ va with
  | .ok l => attrFill die core va l s
  | .error _ => s

/-! Home translation buffers and migration counts (R427, R435). -/

/-- R427: the controller of a page's home die that serves a granule. -/
def granuleController (va : Nat) : Nat := bitsOf va 17 16 ^^^ bitsOf va 19 18

/-- R427: the buffer holds a granule with its effective frame and key; the least recently used of 16384 entries
goes. -/
def htbFill (ctx va : Nat) (l : Leaf) (s : State) : State :=
  let home := homeAgent l
  let ctl := granuleController va
  let u := fresh s
  if s.ms.htbs.any (fun e => e.home == home && e.dom == l.dom && e.page == pageOf va) then
    let hs := updateFirst (fun e => e.home == home && e.dom == l.dom && e.page == pageOf va)
      (fun e => { e with frame := l.phys / 65536, key := l.pte.key, used := u.1 }) u.2.ms.htbs
    { u.2 with ms := { u.2.ms with htbs := hs } }
  else
    let mine := s.ms.htbs.filter (fun e => e.home == home && e.ctl == ctl)
    let rest :=
      if mine.length < 16384 then s.ms.htbs
      else
        match leastBy (fun e => e.used) mine with
        | some v => s.ms.htbs.filter (fun e => e.used != v.used)
        | none => s.ms.htbs
    { u.2 with ms := { u.2.ms with htbs := rest ++ [⟨home, ctl, l.dom, ctx, pageOf va, l.phys / 65536, l.pte.key, [], false, false, u.1⟩] } }

/-- R435: a saturating count of an agent among 8 requester slots: a new agent takes a free slot, else the one
with the lowest count. -/
def countRequest (agent : Nat) (cs : List (Nat × Nat)) : List (Nat × Nat) :=
  if cs.any (fun c => c.1 == agent) then
    updateFirst (fun c => c.1 == agent) (fun c => (c.1, min 65535 (c.2 + 1))) cs
  else if cs.length < 8 then cs ++ [(agent, 1)]
  else
    match leastBy (fun c => c.2) cs with
    | some v => updateFirst (fun c => c == v) (fun _ => (agent, 1)) cs
    | none => cs

/-- R435: a request of an agent reaches the home of a granule: its count rises, and a count at the context's
threshold sends one migration record in the window. -/
def requestCount (agent : Nat) (ctx va : Nat) (l : Leaf) (s : State) : State :=
  let t := htbFill ctx va l s
  let home := homeAgent l
  let upd (e : HtbEntry) : HtbEntry := { e with counts := countRequest agent e.counts }
  let here (e : HtbEntry) : Bool := e.home == home && e.dom == l.dom && e.page == pageOf va
  let t := { t with ms := { t.ms with htbs := updateFirst here upd t.ms.htbs } }
  match t.ms.htbs.find? here with
  | none => t
  | some e =>
    let n : Nat := ((e.counts.find? (fun c => c.1 == agent)).map (fun c => c.2)).getD 0
    let thr : Nat := ((ctxOf? t ctx).map (fun c => c.mthresh)).getD 0
    if thr != 0 && decide (thr ≤ n) && agent != home && !e.sent then
      let t := { t with ms := { t.ms with htbs := updateFirst here (fun e => { e with sent := true }) t.ms.htbs } }
      if t.ms.migs.length < 4096 then
        { t with ms := { t.ms with migs := t.ms.migs ++ [⟨pageOf va, l.dom, home, agent, n, t.tick⟩] } }
      else { t with ms := { t.ms with migsDropped := t.ms.migsDropped + 1 } }
    else t

/-! Remote data caches (R283, R430 to R432). -/

/-- R413: the context and leaf under which a line of a tag domain is mapped. -/
def leafOfDom (s : State) (dom va : Nat) : Option (Nat × Leaf) :=
  s.ten.ctxs.findSome? (fun c =>
    match walkVa s c va with
    | .ok l => if l.dom = dom then some (c.num, l) else none
    | .error _ => none)

/-- R431: the acting home of a line, if it has one. -/
def actingHome (s : State) (l : Leaf) : Option Nat :=
  let n := sideBits s l.phys
  if 3 ≤ sideSt n ∧ sideSt n ≤ 6 then some (sideOwner n) else none

/-- R430, R432: whether a remote data cache other than an agent's holds a line. -/
def heldElsewhere (s : State) (dom line agent : Nat) : Bool :=
  s.ms.rdc.any (fun r => r.dom == dom && r.line == line && r.die != agent)

/-- R432: whether invalidations of a line are on their way. -/
def invalPending (s : State) (dom line : Nat) : Bool := s.ms.invals.any (fun v => v.dom == dom && v.line == line)

/-- R430, R432: whether a line is mid-transition at its home: a request for ownership waits for invalidations. -/
def midTransition (s : State) (dom line : Nat) : Bool := s.ms.getxs.any (fun x => x.2.1 == dom && x.2.2 == line)

/-- R430: the state in which an agent holds a line. -/
def heldAs (s : State) (agent dom line : Nat) : Option RdcSt :=
  (s.ms.rdc.find? (fun r => r.die == agent && r.dom == dom && r.line == line)).map (fun r => r.st)

/-- R430: the coherence bits after a GetS of an agent that does not own the line. -/
def sideAfterGets (n agent : Nat) (wp : Bool) : Nat :=
  let w := bitOf n 0
  let shared (p : Bool × Nat) : Nat := mkSide (if p.1 then 1 else 2) 0 p.2 w
  let owned (p : Bool × Nat) : Nat := mkSide (if p.1 then 5 else 6) (sideOwner n) p.2 w
  match sideSt n with
  | 0 => if w || wp then mkSide 1 0 agent w else mkSide 3 agent 0 w
  | 1 => shared (addSharer true (sideSharers n) agent)
  | 2 => shared (addSharer false (sideSharers n) agent)
  | 3 => shared (addSharer true (sideOwner n) agent)
  | 4 => owned (true, agent)
  | 5 => owned (addSharer true (sideSharers n) agent)
  | 6 => owned (addSharer false (sideSharers n) agent)
  | _ => n

/-- R294: the clock with which a home answers an agent. -/
def answerClock (s : State) (home agent : Nat) : List Nat :=
  if localAgent s home then clockOf s (home % 4) else if localAgent s agent then clockOf s (agent % 4) else [0, 0, 0, 0]

/-- R430, R432: a remote data cache gives a line up; what it sends answers an invalidation on its way to it. -/
def giveUpLine (agent dom line : Nat) (s : State) : State :=
  { s with ms := { s.ms with
      rdc := s.ms.rdc.filter (fun r => !(r.die == agent && r.dom == dom && r.line == line)),
      invals := s.ms.invals.filter (fun v => !(v.agent == agent && v.dom == dom && v.line == line)) } }

/-- R430: the coherence bits after the owner has given a line up. -/
def sideAfterPut (n : Nat) : Nat :=
  let w := bitOf n 0
  match sideSt n with
  | 3 => mkSide 0 0 0 w
  | 4 => mkSide 0 0 0 w
  | 5 => mkSide 1 0 (sideSharers n) w
  | 6 => mkSide 2 0 (sideSharers n) w
  | _ => n

/-- R430, R432: the home takes a line back from its owner. Memory holds the data already. -/
def takeBack (agent dom line : Nat) (s : State) : State :=
  let t := giveUpLine agent dom line s
  match leafOfDom s dom line with
  | none => t
  | some (ctx, l) =>
    let t := homeTouch ctx l line (requestCount agent ctx line l t)
    let t := if heldAs s agent dom line = some .m ∨ heldAs s agent dom line = some .o then markDirty dom line t else t
    let n := sideBits t l.phys
    if sideOwner n = agent then setSide l.phys (sideAfterPut n) t else t

/-- R283: the 128 bytes of a line as they stand at its home or acting home. -/
def homeLine (s : State) (phys : Nat) : List Byte := rdBytes s (lineOf phys) 128

/-- R283: a remote data cache evicts a line: an S copy is dropped silently, the others are given back to the home. -/
def rdcEvict (v : RdcLine) (s : State) : State :=
  match v.st with
  | .s => { s with ms := { s.ms with rdc := s.ms.rdc.filter (fun r => !(r.die == v.die && r.dom == v.dom && r.line == v.line)) } }
  | .e => takeBack v.die v.dom v.line s
  | .m => takeBack v.die v.dom v.line s
  | .o => takeBack v.die v.dom v.line s

/-- R2, R281, R283: room for a line in a slice of a remote data cache: of the 8 lines of its set one is evicted (log
entry 8). -/
def rdcRoom (agent slice dom line : Nat) (s : State) : State :=
  let mine := s.ms.rdc.filter (fun r => r.die == agent && r.slice == slice)
  if mine.length < 8 then s
  else
    let set := mine.filter (fun r => Config.rdcSet r.dom r.line == Config.rdcSet dom line)
    if set.length < 8 then s
    else
      let d := draw s
      match set[Config.rdcWay d.1 % 8]? with
      | some v => rdcEvict v d.2
      | none => d.2

/-- R430: a remote data cache receives a line in a state. -/
def rdcFill (agent line : Nat) (st : RdcSt) (l : Leaf) (s : State) : State :=
  let x : RdcLine :=
    { die := agent, slice := sliceOf l line, dom := l.dom, line := line, st := st, bytes := homeLine s l.phys,
      clock := answerClock s (homeAgent l) agent, home := homeAgent l }
  let here (r : RdcLine) : Bool := r.die == agent && r.dom == l.dom && r.line == line
  let u := if s.ms.rdc.any here then s else rdcRoom agent (sliceOf l line) l.dom line s
  let t := { u with ms := { u.ms with rdc := u.ms.rdc.filter (fun r => !here r) ++ [x] } }
  if localAgent s agent && localAgent s (homeAgent l) then clockJoin (agent % 4) (clockOf s (homeAgent l % 4)) t else t

/-- R430: the holder of a line before another agent's GetS becomes a sharer, or keeps the dirty line as its owner. -/
def downgrade (dom line : Nat) (s : State) : State :=
  let st (x : RdcSt) : RdcSt :=
    match x with
    | .s => .s
    | .e => .s
    | .m => .o
    | .o => .o
  { s with ms := { s.ms with rdc := updateAll (fun r => r.dom == dom && r.line == line) (fun r => { r with st := st r.st }) s.ms.rdc } }

/-- R430, R431: the home answers a GetS of an agent, the line not being mid-transition. An agent that owns the line is
answered with its own data. A poisoned line is granted to nobody (R434). -/
def grantGets (agent ctx line : Nat) (l : Leaf) (s : State) : State :=
  let n := sideBits s l.phys
  let t := homeTouch ctx l line (requestCount agent ctx line l s)
  if sideSt n = 7 then t
  else if actingHome s l = some agent then
    match heldAs s agent l.dom line with
    | some st => rdcFill agent line st l t
    | none => t
  else
    let v := sideAfterGets n agent l.pte.wp
    rdcFill agent line (if sideSt v = 3 then .e else .s) l (setSide l.phys v (downgrade l.dom line t))

/-- R429, R435: whether a slice of a die holds a line. -/
def l2Holds (s : State) (die slice dom line : Nat) : Bool :=
  s.ms.l2.any (fun x => x.die == die && x.slice == slice && x.dom == dom && x.line == line)

/-! Reads (R145, R282 to R284, R294, R431). -/

/-- R283, R294: the remote data cache line that a read of a die may use: not behind the die's clock for the
line's home die. -/
def rdcHit (s : State) (die : Nat) (l : Leaf) (va : Nat) : Option RdcLine :=
  if homeAgent l = agentOf s die then none
  else
    s.ms.rdc.find? (fun r => r.die == agentOf s die && r.dom == l.dom && r.line == lineOf va &&
      decide (nthD 0 (clockOf s die) (homeAgent l % 4) ≤ nthD 0 r.clock (homeAgent l % 4)))

/-- R282, R283: the line from which a read of a core is served. -/
def servedLine (s : State) (die core : Nat) (l : Leaf) (va : Nat) : List Byte :=
  match l1Find s die core l.dom (lineOf va) with
  | some x => x.bytes
  | none =>
    match rdcHit s die l va with
    | some r => r.bytes
    | none => homeLine s l.phys

/-- R145, R282, R283: the n bytes that a read of a core returns; they lie in one line. -/
def servedBytes (s : State) (die core : Nat) (l : Leaf) (va n : Nat) : List Byte :=
  ((servedLine s die core l va).drop (va % 128)).take n

/-- R282, R283, R294, R406, R423, R430: what a served read of a core does to L1, the remote data cache, the home
slice, the clock, the lookaside and the requester counts. A read that misses the die's remote data cache is a GetS where
the page may be cached. -/
def afterRead (die core ctx : Nat) (l : Leaf) (va : Nat) (s : State) : State :=
  let s := attrFill die core va l s
  match l1Find s die core l.dom (lineOf va) with
  | some _ => l1Touch die core l.dom (lineOf va) s
  | none =>
    let bytes := servedLine s die core l va
    let t :=
      match rdcHit s die l va with
      | some _ => s
      | none =>
        let home := homeAgent l
        if l.pte.c && home != agentOf s die then grantGets (agentOf s die) ctx (lineOf va) l s
        else
          let missed := home != agentOf s die || !l2Holds s (home % 4) (sliceOf l va) l.dom (lineOf va)
          let u := homeTouch ctx l va (if missed then requestCount (agentOf s die) ctx va l s else s)
          if localAgent s home then clockJoin die (clockOf u (home % 4)) u else u
    if l.pte.c then l1Fill die core l.dom (lineOf va) bytes t else t

/-- R430, R432: whether a read of a core must wait at the home: it misses L1 and the die's remote data cache, and the
line is mid-transition or its invalidations are not acknowledged. -/
def readWaits (s : State) (die core : Nat) (l : Leaf) (va : Nat) : Bool :=
  (l1Find s die core l.dom (lineOf va)).isNone && (rdcHit s die l va).isNone && homeAgent l != agentOf s die && l.pte.c &&
    (midTransition s l.dom (lineOf va) || invalPending s l.dom (lineOf va))

/-! Locks and order at a line (R296, R299, R305, R319). -/

/-- R319: the number of a slice of an agent. -/
def sliceKey (agent slice : Nat) : Nat := agent * 256 + slice

/-- R299, R319: whether a slice is locked by a transaction commit of a group other than the one given (0 for none). -/
def sliceLocked (s : State) (agent slice gid : Nat) : Bool :=
  (allGroups s).any (fun g =>
    g.gid != gid &&
      match g.tx with
      | some t => memNat (sliceKey agent slice) t.locked
      | none => false)

/-- R436: whether the granule of an address is migrating. -/
def granuleMoving (s : State) (dom va : Nat) : Bool :=
  s.ms.htbs.any (fun e => e.dom == dom && e.page == pageOf va && e.migrating)

/-- R299, R327, R430, R436: whether a write, an atomic lane or a registration must wait at the home of a line: for a
scan, for a commit's lock, for a request that is mid-transition, or for a migration. -/
def lineWaits (s : State) (l : Leaf) (va : Nat) : Bool :=
  lineScanned s l.dom (lineOf va) || sliceLocked s (homeAgent l) (sliceOf l va) 0 || midTransition s l.dom (lineOf va) ||
    granuleMoving s l.dom va

/-- Whether the bytes of a load lane have all been taken. -/
def LoadLane.taken (x : LoadLane) : Bool := x.fwd.all (fun b => b.isSome)

/-- R284, R290: whether an outstanding load of a group that issued before a number reads the line. -/
def olderLoad (s : State) (ctx gid before dom line : Nat) : Bool :=
  s.ms.loads.any (fun d => d.gid == gid && decide (d.uid < before) &&
    d.lanes.any (fun x => !x.taken && domainOf s ctx x.addr == dom && lineOf x.addr == line))

/-- R290: whether a committed store of a group that was buffered before a number has not been applied. -/
def olderStore (s : State) (gid before dom line : Nat) : Bool :=
  s.ms.entries.any (fun e => e.gid == gid && decide (e.uid < before) &&
    e.st == EntrySt.committed && e.dom == dom && e.line == line)

/-- R290: the issuing group's earlier events on a line are done. -/
def lineReady (s : State) (ctx gid uid dom line : Nat) : Bool :=
  !olderLoad s ctx gid uid dom line && !olderStore s gid uid dom line

/-- R296: the fork edge of an engine's instruction: every earlier load of the issuing split has returned, and every
earlier store of it that has committed has been applied. -/
def forkReady (s : State) (gid split uid : Nat) : Bool :=
  !s.ms.loads.any (fun d => d.gid == gid && d.split == split && decide (d.uid < uid)) &&
    !s.ms.entries.any (fun e => e.gid == gid && e.split == split && decide (e.uid < uid) && e.st == EntrySt.committed)

/-! Writes at the home (R283, R325 to R327, R430 to R434). -/

/-- R409: the partition with which a context's packets are tagged; 16 for firmware's. -/
def partTag (s : State) (ctx : Nat) : Nat := ((ctxOf? s ctx).map (fun c => c.part)).getD 16

/-- R432: sends an invalidation to every remote holder of a line but one; w is what waits for them. -/
def invalidateRemote (dom line home keep part : Nat) (w : Writer) (s : State) : State :=
  let holders := s.ms.rdc.filter (fun r => r.dom == dom && r.line == line && r.die != keep)
  holders.foldl (fun t r =>
    let u := fresh t
    { u.2 with ms := { u.2.ms with invals := u.2.ms.invals ++ [⟨u.1, r.die, dom, line, home, w, part, false⟩] } }) s

/-- R284, R292: the remote data cache of the die that a write comes from no longer holds the line: the write passes it
on the way to the home. -/
def dropOwnCopy (src dom line : Nat) (s : State) : State :=
  { s with ms := { s.ms with rdc := s.ms.rdc.filter (fun r => !(r.die == agentOf s src && r.dom == dom && r.line == line)) } }

/-- Whether written bytes cover the whole line. -/
def wholeLine (bytes : List (Nat × Byte)) : Bool :=
  (List.range 128).all (fun i => bytes.any (fun b => b.1 == i))

/-- R478: whether an error is of the kind and at the location of a record of the last second. -/
def ErrRec.merges (r x : ErrRec) : Bool :=
  x.kind == r.kind && x.paddr == r.paddr && x.source == r.source && x.unit == r.unit && x.row == r.row &&
    decide (r.tick < x.tick + 250000000)

/-- R478: an error record appended to the ring, or merged into the record of the last second; a full ring loses its
oldest. -/
def appendError (r : ErrRec) (s : State) : State :=
  let bump := fun (x : ErrRec) => { x with count := min (2 ^ 32 - 1) (x.count + r.count) }
  if s.dev.errRing.any r.merges then
    let ring := updateFirst r.merges bump s.dev.errRing
    { s with dev := { s.dev with errRing := ring } }
  else if s.dev.errRing.length < 4096 then { s with dev := { s.dev with errRing := s.dev.errRing ++ [r] } }
  else { s with dev := { s.dev with errRing := s.dev.errRing.drop 1 ++ [r], errLost := s.dev.errLost + 1 } }

/-- R478: the owner field of an error record: the owner of a filler code, or none. -/
def errOwner (filler : Nat) : Nat := if filler < 256 then filler else 0x8000

/-- R405: the number under which firmware's accesses are made: no context's, so that they fill with code 256. -/
def firmwareCtx : Nat := 2 ^ 20

/-- R283, R434: a write applied at a line's true home: ctx is whose access fills the home slice, va is the line's
virtual address, src the die it came from, w the writer. A write of a poisoned line that does not cover it is
dropped. -/
def homeWrite (ctx va src : Nat) (w : Writer) (l : Leaf) (bytes : List (Nat × Byte)) (s : State) : State :=
  let phys := lineOf l.phys
  let line := lineOf va
  if isPoisoned s phys ∧ ¬ wholeLine bytes then
    appendError ⟨phys, l.dom, errOwner (fillerOf s ctx), 9, homeAgent l % 4, 0, 0, 1, s.tick⟩ s
  else
    let n := sideBits s phys
    let wb := if sideSt n = 7 then false else bitOf n 0
    let t := bytes.foldl (fun u b => wrByte (phys + b.1) b.2 u) s
    let t := dropOwnCopy src l.dom line (setSide phys (mkSide 0 0 0 wb) t)
    let t := invalidateRemote l.dom line (homeAgent l) 4096 (partTag s ctx) w t
    let t := if localAgent t (homeAgent l) then clockWrite src (homeAgent l % 4) t else t
    evalWatches (homeAgent l) (sliceOf l va) l.dom line phys bytes (markDirty l.dom line (homeTouch ctx l va t))

/-- R431: a plain store applied at the acting home of its line: the other holders are invalidated, and the
holder's copy and the memory the model keeps for it take the bytes. -/
def actingWrite (ctx holder va : Nat) (w : Writer) (l : Leaf) (bytes : List (Nat × Byte)) (s : State) : State :=
  let phys := lineOf l.phys
  let line := lineOf va
  let n := sideBits s phys
  let t := bytes.foldl (fun u b => wrByte (phys + b.1) b.2 u) s
  let t := setSide phys (mkSide 4 holder 0 (bitOf n 0)) t
  let t := invalidateRemote l.dom line (homeAgent l) holder (partTag s ctx) w t
  let upd (r : RdcLine) : RdcLine := { r with st := .m, bytes := bytes.foldl (fun bs b => bs.set b.1 b.2) r.bytes }
  { t with ms := { t.ms with rdc := updateFirst (fun r => r.die == holder && r.dom == l.dom && r.line == line) upd t.ms.rdc } }

/-- R431: recalls a delegated line to its true home before an access that must be made there. -/
def recallHome (va : Nat) (l : Leaf) (s : State) : State :=
  if 3 ≤ sideSt (sideBits s l.phys) ∧ sideSt (sideBits s l.phys) ≤ 6 then
    demoteLine l.dom (lineOf va) (lineOf l.phys) s
  else s

/-- The offsets in its line of bytes from an address on, with the bytes. -/
def lineBytes (va : Nat) (bs : List Byte) : List (Nat × Byte) := bs.zipIdx.map (fun p => (va % 128 + p.2, p.1))

/-- Bytes from a virtual address on, cut at the line boundaries: (address, bytes). -/
def cutLines : Nat → Nat → List Byte → List (Nat × List Byte)
  | 0, _, _ => []
  | n + 1, va, bs =>
    if bs = [] then []
    else
      let k := 128 - va % 128
      (va, bs.take k) :: cutLines n (va + k) (bs.drop k)

/-- A write at its home, line by line, of bytes at virtual addresses of the context space where the pages are mapped: ctx
is whose access it is, src the die it comes from, if it comes from one of this package's. -/
def writeLines (space ctx va : Nat) (src : Option Nat) (w : Writer) (bs : List Byte) (s : State) : State :=
  (cutLines (bs.length / 128 + 2) va bs).foldl (fun t p =>
    match accessIn t space needW p.1 with
    | .error _ => t
    | .ok l => homeWrite ctx p.1 (src.getD (homeAgent l % 4)) w l (lineBytes p.1 p.2) (recallHome p.1 l t)) s

/-- An engine's write of bytes at their homes. -/
def engineWrite (ctx va src : Nat) (w : Writer) (bs : List Byte) (s : State) : State := writeLines ctx ctx va (some src) w bs s

/-- R378, R405: a write of firmware or of the front end at virtual addresses of a context. -/
def firmwareWrite (ctx va : Nat) (w : Writer) (bs : List Byte) (s : State) : State := writeLines ctx firmwareCtx va none w bs s

/-- R434, R160: whether any line of an address range is poisoned. -/
def rangePoisoned (s : State) (ctx va n : Nat) : Bool :=
  (List.range (n / 128 + 2)).any (fun i =>
    let a := if i = 0 then va else lineOf va + 128 * i
    decide (a < va + n) &&
      match accessIn s ctx needRd a with
      | .ok l => isPoisoned s l.phys
      | .error _ => false)

end Sys2Proof.Machine
end

