-- ==== Sys2Proof/Machine/Float.lean ====
section
/-! DEFINITION. Floating-point formats, exact values, rounding once, and the arithmetic on them (R32 to R47). -/

namespace Sys2Proof.Machine

/-- R39: the rounding in force for one element; stochastic rounding carries the lane's %rng. -/
inductive RMode
  | rne
  | rtz
  | rdn
  | rup
  | rna
  | sto (rng : Nat)
  deriving DecidableEq, Repr

/-- An exact value: a NaN (signalling or not), an infinity, or (-1)^neg * m * 2^e. -/
inductive FVal
  | nan (sig : Bool)
  | inf (neg : Bool)
  | fin (neg : Bool) (m : Nat) (e : Int)
  deriving DecidableEq, Repr

/-- R32: how a format spends its all-ones exponent. -/
inductive Special
  | ieee
  | oneNan
  | finiteOnly
  deriving DecidableEq, Repr

/-- R32: a floating-point element format; the largest finite magnitude is maxM * 2^maxE. -/
structure Fmt where
  width : Nat
  frac : Nat
  bias : Nat
  maxM : Nat
  maxE : Int
  special : Special
  canonNan : Nat
  quietOnly : Bool
  deriving DecidableEq, Repr

/-- R32, R33: binary16. -/
def fmtF16 : Fmt := ⟨16, 10, 15, 2047, 5, .ieee, 0x7E00, false⟩
/-- R32, R33: bfloat16. -/
def fmtBf16 : Fmt := ⟨16, 7, 127, 255, 120, .ieee, 0x7FC0, false⟩
/-- R32, R33: binary32. -/
def fmtF32 : Fmt := ⟨32, 23, 127, 16777215, 104, .ieee, 0x7FC00000, false⟩
/-- R32, R33: binary64. -/
def fmtF64 : Fmt := ⟨64, 52, 1023, 9007199254740991, 971, .ieee, 0x7FF8000000000000, false⟩
/-- R32, R33: E4M3; only S.1111.111 is a NaN and there is no infinity. -/
def fmtE4M3 : Fmt := ⟨8, 3, 7, 14, 5, .oneNan, 0x7F, true⟩
/-- R32, R33: E5M2; every NaN is quiet. -/
def fmtE5M2 : Fmt := ⟨8, 2, 15, 7, 13, .ieee, 0x7E, true⟩
/-- R32: E3M2. -/
def fmtE3M2 : Fmt := ⟨6, 2, 3, 7, 2, .finiteOnly, 0, true⟩
/-- R32: E2M3. -/
def fmtE2M3 : Fmt := ⟨6, 3, 1, 15, -1, .finiteOnly, 0, true⟩
/-- R32: E2M1. -/
def fmtE2M1 : Fmt := ⟨4, 1, 1, 3, 1, .finiteOnly, 0, true⟩

/-- The width of the exponent field. -/
def Fmt.expBits (f : Fmt) : Nat := f.width - 1 - f.frac

/-- The exponent of the smallest normal. -/
def Fmt.emin (f : Fmt) : Int := 1 - (f.bias : Int)

/-- R32: the exact value of a bit pattern. -/
def decodeFloat (f : Fmt) (bits : Nat) : FVal :=
  let neg := bitOf bits (f.width - 1)
  let ex := bitsOf bits (f.width - 2) f.frac
  let fr := bits % 2 ^ f.frac
  let ones := 2 ^ f.expBits - 1
  if f.special = .ieee ∧ ex = ones then
    if fr = 0 then .inf neg else .nan (!f.quietOnly && !bitOf fr (f.frac - 1))
  else if f.special = .oneNan ∧ ex = ones ∧ fr = 2 ^ f.frac - 1 then .nan false
  else if ex = 0 then .fin neg fr (f.emin - f.frac)
  else .fin neg (2 ^ f.frac + fr) ((ex : Int) - f.bias - f.frac)

/-- R42: whether a bit pattern is subnormal. -/
def isSubnormal (f : Fmt) (bits : Nat) : Bool :=
  bitsOf bits (f.width - 2) f.frac == 0 && bits % 2 ^ f.frac != 0

/-- R42: an input as the instruction reads it, with the denormal-flushed flag. -/
def readFloat (f : Fmt) (ftz : Bool) (bits : Nat) : FVal × Flags :=
  if ftz && isSubnormal f bits then (.fin (bitOf bits (f.width - 1)) 0 0, flDenormal)
  else (decodeFloat f bits, 0)

/-- R39, R41: a nonnegative quotient num / den rounded to an integer: the integer, whether the value
changed, and whether it was rounded away from zero. Stochastic rounding takes the discarded fraction in
lowest terms, or its top 32 bits where it has more or has no finite binary expansion. -/
def roundQuot (mode : RMode) (neg : Bool) (num den : Nat) : Nat × Bool × Bool :=
  let k := num / den
  let r := num % den
  if r = 0 then (k, false, false)
  else
    let up : Bool :=
      match mode with
      | .rne => decide (den < 2 * r) || (2 * r == den && k % 2 == 1)
      | .rna => decide (den ≤ 2 * r)
      | .rtz => false
      | .rdn => neg
      | .rup => !neg
      | .sto rng =>
        let g := Nat.gcd r den
        let d := den / g
        let t := Nat.log2 d
        if d = 2 ^ t ∧ t ≤ 32 then decide (2 ^ t ≤ r / g + rng % 2 ^ t)
        else decide (2 ^ 32 ≤ r * 2 ^ 32 / den + rng % 2 ^ 32)
    (if up then k + 1 else k, true, up)

/-- num / den * 2^e rounded to a multiple of 2^q: the multiple. -/
def roundAt (mode : RMode) (neg : Bool) (num den : Nat) (e q : Int) : Nat × Bool × Bool :=
  if q ≤ e then roundQuot mode neg (num * 2 ^ (e - q).toNat) den
  else roundQuot mode neg num (den * 2 ^ (q - e).toNat)

/-- Whether k1 * 2^q1 is less than k2 * 2^q2. -/
def dyadicLt (k1 : Nat) (q1 : Int) (k2 : Nat) (q2 : Int) : Bool :=
  if q1 ≤ q2 then decide (k1 < k2 * 2 ^ (q2 - q1).toNat) else decide (k1 * 2 ^ (q1 - q2).toNat < k2)

/-- The exponent of the leading bit of num / den, both positive. -/
def leadExp (num den : Nat) : Int :=
  let b : Int := (Nat.log2 num : Int) - (Nat.log2 den : Int)
  if dyadicLt num 0 den b then b - 1 else b

/-- The sign bit of a format. -/
def Fmt.signBit (f : Fmt) (neg : Bool) : Nat := if neg then 2 ^ (f.width - 1) else 0

/-- The bits of the largest finite magnitude. -/
def Fmt.maxBits (f : Fmt) : Nat :=
  match f.special with
  | .ieee => (2 ^ f.expBits - 2) * 2 ^ f.frac + (2 ^ f.frac - 1)
  | .oneNan => (2 ^ f.expBits - 1) * 2 ^ f.frac + (2 ^ f.frac - 2)
  | .finiteOnly => 2 ^ (f.width - 1) - 1

/-- The bits of infinity, for a format that has one. -/
def Fmt.infBits (f : Fmt) : Nat := (2 ^ f.expBits - 1) * 2 ^ f.frac

/-- R40, R46, R47: the result of a finite value whose rounded magnitude is above the largest finite. -/
def overflowResult (f : Fmt) (mode : RMode) (neg up sat : Bool) : Nat × Flags :=
  match f.special with
  | .finiteOnly => (f.signBit neg + f.maxBits, flSaturate ||| flInexact)
  | .oneNan => (f.signBit neg + f.maxBits, if sat then flSaturate else flInvalid)
  | .ieee =>
    if sat then (f.signBit neg + f.maxBits, flSaturate ||| flInexact)
    else
      let toInf : Bool :=
        match mode with
        | .rne => true
        | .rna => true
        | .rtz => false
        | .rdn => neg
        | .rup => !neg
        | .sto _ => up
      (f.signBit neg + (if toInf then f.infBits else f.maxBits), flOverflow ||| flInexact)

/-- R40, R42: the value num / den * 2^e, rounded once into a format, with its flags. -/
def roundFinite (f : Fmt) (mode : RMode) (ftz sat neg : Bool) (num den : Nat) (e : Int) : Nat × Flags :=
  if num = 0 then (f.signBit neg, 0)
  else
    let lead := leadExp num den + e
    let qu := lead - f.frac
    let u := roundAt mode neg num den e qu
    if dyadicLt f.maxM f.maxE u.1 qu then overflowResult f mode neg u.2.2 sat
    else
      let tiny := dyadicLt u.1 qu 1 f.emin
      let q := if lead < f.emin then f.emin - f.frac else qu
      let r := roundAt mode neg num den e q
      let fl := flIf r.2.1 flInexact ||| flIf (tiny && r.2.1) flUnderflow
      let k := r.1
      if ftz && decide (8 < f.width) && decide (0 < k) && decide (k < 2 ^ f.frac) then
        (f.signBit neg, flUnderflow ||| flInexact ||| flDenormal)
      else if k < 2 ^ f.frac then (f.signBit neg + k, fl)
      else
        let ex : Int := q + f.frac + f.bias
        (f.signBit neg + (k - 2 ^ f.frac) + ex.toNat * 2 ^ f.frac, fl)

/-- R33, R40, R46: an exact value rounded into a format; a NaN gives the canonical NaN, with invalid
where it is signalling. -/
def encodeFloat (f : Fmt) (mode : RMode) (ftz sat : Bool) (v : FVal) : Nat × Flags :=
  match v with
  | .nan sig => (f.canonNan, flIf sig flInvalid)
  | .inf neg =>
    match f.special with
    | .ieee => if sat then (f.signBit neg + f.maxBits, flSaturate) else (f.signBit neg + f.infBits, 0)
    | .oneNan => (f.signBit neg + f.maxBits, if sat then flSaturate else flInvalid)
    | .finiteOnly => (f.signBit neg + f.maxBits, flSaturate)
  | .fin neg m e => roundFinite f mode ftz sat neg m 1 e

/-- Whether a value is a signalling NaN. -/
def FVal.isSig : FVal → Bool
  | .nan sig => sig
  | .inf _ => false
  | .fin _ _ _ => false

/-- Whether a value is a NaN. -/
def FVal.isNan : FVal → Bool
  | .nan _ => true
  | .inf _ => false
  | .fin _ _ _ => false

/-- Whether a value is a zero. -/
def FVal.isZero : FVal → Bool
  | .fin _ m _ => m == 0
  | .nan _ => false
  | .inf _ => false

/-- Whether a value is an infinity. -/
def FVal.isInf : FVal → Bool
  | .inf _ => true
  | .nan _ => false
  | .fin _ _ _ => false

/-- The sign of a value that is not a NaN. -/
def FVal.sign : FVal → Bool
  | .fin neg _ _ => neg
  | .inf neg => neg
  | .nan _ => false

/-- The value with its sign inverted. -/
def FVal.negate : FVal → FVal
  | .nan sig => .nan sig
  | .inf neg => .inf (!neg)
  | .fin neg m e => .fin (!neg) m e

/-- A signed integer times 2^e, as a value; a zero takes the sign given. -/
def FVal.ofInt (i : Int) (e : Int) (zeroNeg : Bool) : FVal :=
  if i = 0 then .fin zeroNeg 0 0 else .fin (decide (i < 0)) i.natAbs e

/-- The signed integer m * 2^(e - q) of a finite value, for q at most e. -/
def signedAt (neg : Bool) (m : Nat) (e q : Int) : Int :=
  let k : Int := (m * 2 ^ (e - q).toNat : Nat)
  if neg then -k else k

/-- R40, R43: the exact sum, with invalid for a signalling NaN or opposite infinities; an exact zero sum
of opposite values is +0, except under RDN. -/
def addExact (mode : RMode) (a b : FVal) : FVal × Flags :=
  let sig := flIf (a.isSig || b.isSig) flInvalid
  match a, b with
  | .nan _, _ => (.nan false, sig)
  | _, .nan _ => (.nan false, sig)
  | .inf x, .inf y => if x = y then (.inf x, sig) else (.nan false, flInvalid)
  | .inf x, .fin _ _ _ => (.inf x, sig)
  | .fin _ _ _, .inf y => (.inf y, sig)
  | .fin n1 m1 e1, .fin n2 m2 e2 =>
    if m1 = 0 ∧ m2 = 0 then (.fin (if n1 = n2 then n1 else decide (mode = .rdn)) 0 0, sig)
    else if m1 = 0 then (.fin n2 m2 e2, sig)
    else if m2 = 0 then (.fin n1 m1 e1, sig)
    else
      let q := min e1 e2
      (FVal.ofInt (signedAt n1 m1 e1 q + signedAt n2 m2 e2 q) q (decide (mode = .rdn)), sig)

/-- R43: the exact product, with invalid for a signalling NaN or 0 times infinity. -/
def mulExact (a b : FVal) : FVal × Flags :=
  let sig := flIf (a.isSig || b.isSig) flInvalid
  match a, b with
  | .nan _, _ => (.nan false, sig)
  | _, .nan _ => (.nan false, sig)
  | .inf x, .inf y => (.inf (x != y), sig)
  | .inf x, .fin y m _ => if m = 0 then (.nan false, flInvalid) else (.inf (x != y), sig)
  | .fin x m _, .inf y => if m = 0 then (.nan false, flInvalid) else (.inf (x != y), sig)
  | .fin x m1 e1, .fin y m2 e2 => (.fin (x != y) (m1 * m2) (e1 + e2), sig)

/-- R43: whether a product is 0 times infinity. -/
def zeroTimesInf (a b : FVal) : Bool := (a.isZero && b.isInf) || (a.isInf && b.isZero)

/-- R43, R119: the exact a * b + d; 0 times infinity sets invalid whatever the addend. -/
def fmaExact (mode : RMode) (a b d : FVal) : FVal × Flags :=
  let p := mulExact a b
  let r := addExact mode p.1 d
  (r.1, p.2 ||| r.2)

/-- Two finite values compared, +0 equal to -0. -/
def finCompare (n1 : Bool) (m1 : Nat) (e1 : Int) (n2 : Bool) (m2 : Nat) (e2 : Int) : Ordering :=
  let q := min e1 e2
  compare (signedAt n1 m1 e1 q) (signedAt n2 m2 e2 q)

/-- R44: the order of two values, none where either is a NaN. -/
def floatCompare (a b : FVal) : Option Ordering :=
  match a, b with
  | .nan _, _ => none
  | _, .nan _ => none
  | .inf x, .inf y => some (if x = y then .eq else if x then .lt else .gt)
  | .inf x, .fin _ _ _ => some (if x then .lt else .gt)
  | .fin _ _ _, .inf y => some (if y then .gt else .lt)
  | .fin n1 m1 e1, .fin n2 m2 e2 => some (finCompare n1 m1 e1 n2 m2 e2)

/-- R44: whether a is less than b, with -0 less than +0; neither is a NaN. -/
def lessSigned (a b : FVal) : Bool :=
  match floatCompare a b with
  | some .lt => true
  | some .eq => a.isZero && a.sign && !b.sign
  | some .gt => false
  | none => false

/-- R44: minimum or maximum; the number forms return the other input where exactly one is a NaN. -/
def minMaxFloat (isMax number : Bool) (a b : FVal) : FVal :=
  if a.isNan then (if number && !b.isNan then b else .nan false)
  else if b.isNan then (if number then a else .nan false)
  else if isMax then (if lessSigned a b then b else a)
  else (if lessSigned b a then b else a)

/-- R39, R27: the mode a rounding code selects under %fmode; code 6 is dynamic, and stochastic rounding
that is not enabled is RNE. -/
def roundMode (code : Nat) (fmode : W) (rng : W) : RMode :=
  let c := if code = 6 then bitsOf fmode.toNat 2 0 else code
  match c with
  | 1 => .rtz
  | 2 => .rdn
  | 3 => .rup
  | 4 => .rna
  | 5 => if bitOf fmode.toNat 4 then .sto rng.toNat else .rne
  | _ => .rne

/-- R27: the ftz bit of %fmode. -/
def ftzOf (fmode : W) : Bool := bitOf fmode.toNat 3

/-- R51: the mode of a reduction step. -/
def treeMode (m : RMode) : RMode :=
  match m with
  | .sto _ => .rne
  | .rne => .rne
  | .rtz => .rtz
  | .rdn => .rdn
  | .rup => .rup
  | .rna => .rna

/-- R29: one use of %rng. -/
def xorshift (x : W) : W :=
  let a := x ^^^ (x <<< 13)
  let b := a ^^^ (a >>> 17)
  b ^^^ (b <<< 5)

/-- R46: a value rounded to an integer of w bits, as the bits of the result. -/
def floatToInt (w : Nat) (signed : Bool) (mode : RMode) (sat : Bool) (v : FVal) : Nat × Flags :=
  let lo : Int := if signed then -(2 ^ (w - 1) : Nat) else 0
  let hi : Int := if signed then (2 ^ (w - 1) : Nat) - 1 else (2 ^ w : Nat) - 1
  let bad := if sat then flSaturate else flInvalid
  match v with
  | .nan _ => (0, flInvalid)
  | .inf neg => (wrapInt w (if neg then lo else hi), bad)
  | .fin neg m e =>
    if dyadicLt 1 (w + 1) m e then (wrapInt w (if neg then lo else hi), bad)
    else
      let r := roundAt mode neg m 1 e 0
      let i : Int := if neg then -(r.1 : Int) else r.1
      if i < lo then (wrapInt w lo, bad)
      else if hi < i then (wrapInt w hi, bad)
      else (wrapInt w i, flIf r.2.1 flInexact)

/-- R126: a value rounded to an integral value, keeping its sign. -/
def floatRoundIntegral (mode : RMode) (v : FVal) : FVal × Flags :=
  match v with
  | .nan sig => (.nan false, flIf sig flInvalid)
  | .inf neg => (.inf neg, 0)
  | .fin neg m e =>
    if 0 ≤ e then (.fin neg m e, 0)
    else
      let r := roundAt mode neg m 1 e 0
      (.fin neg r.1 0, flIf r.2.1 flInexact)

/-- R115: a finite value times 2^n. The exponent is kept within 8192 of 0: beyond it the result of
rounding into f32 does not change. -/
def scaleExact (n : Int) (v : FVal) : FVal :=
  match v with
  | .fin neg m e => .fin neg m (e + max (-8192) (min 8192 n))
  | .inf neg => .inf neg
  | .nan sig => .nan sig

/-- R34: the value of an E8M0 scale, none for the NaN code. -/
def e8m0Exp (code : Nat) : Option Int := if code = 255 then none else some ((code : Int) - 127)

/-- R33, R42: an f32 value as the word an exact value encodes to under RNE, for results that are exact. -/
def exactBits (f : Fmt) (v : FVal) : Nat := (encodeFloat f .rne false false v).1

end Sys2Proof.Machine
end

