-- ==== Sys2Proof/Machine/Ops.lean ====
section
/-! DEFINITION. The shared operations: traps, aborts, fault records, region boundaries, barriers and the completion
of packets and viaducts. -/

namespace Sys2Proof.Machine

open Sys2Proof

/-! Traps. -/

/-- A trap of the issuing word, with no lane and no address. -/
def plainTrap (k : TrapKind) : Trap := ⟨k, none, none, 0, none⟩

/-- A trap that a lane reports with an address. -/
def laneTrap (k : TrapKind) (lane : Nat) (addr : W64) : Trap := ⟨k, some lane, some addr, 0, none⟩

/-- R241: the word %trapinfo receives. -/
def trapInfo (k : TrapKind) (addr : Nat) : W64 :=
  BitVec.ofNat 64 (k.code * 2 ^ 57 + (if addr / 2 ^ 56 = 255 then 2 ^ 56 else 0) + addr % 2 ^ 56)

/-- R390: the detail word of a trap's journal entry: bytes 8 to 15 of the trap record. -/
def TrapRec.detailWord (r : TrapRec) : Nat :=
  r.word % 256 + r.kind.code * 2 ^ 8 + (r.lane.getD 255) % 256 * 2 ^ 16 + (r.split.getD 255) % 256 * 2 ^ 24 +
    r.group % 65536 * 2 ^ 32 + r.code % 65536 * 2 ^ 48

/-- R240: the 32 bytes of a trap record. -/
def TrapRec.bytes (r : TrapRec) : List Byte :=
  natToBytes 8 r.clause ++ natToBytes 8 r.detailWord ++ natToBytes 8 ((r.detail.getD 0).toNat) ++ natToBytes 8 r.tick

/-! The journal and the queues (R378, R379, R391). -/

/-- R378: writes the read count and the stopped bit of a queue's control block at their home. -/
def publishRd (q : Queue) (s : State) : State :=
  let t := firmwareWrite q.ctx (q.qcb + 16) Writer.none (natToBytes 8 q.rd) s
  firmwareWrite q.ctx (q.qcb + 26) Writer.none (natToBytes 1 ((if q.halt then 1 else 0) + (if q.stopped then 2 else 0))) t

/-- R379: a queue stops. -/
def stopQueue (qid : Nat) (s : State) : State :=
  let t := modQueue qid (fun q => { q with stopped := true }) s
  match queueOf? t qid with
  | some q => publishRd q t
  | none => t

/-- R379, R383, R391: a packet completes with a status, which may stop its halt-on-error queue. -/
def completePacket (seq status detail : Nat) (s : State) : State :=
  let t := finishPacket seq status detail s
  match s.front.queues.find? (fun q => q.packets.any (fun p => p.journal == seq)) with
  | none => t
  | some q => if q.halt && status != 0 && status != 8 then stopQueue q.qid t else t

/-! Transactions given up (R307, R321, R240). -/

/-- R321: releases the serial token that a group holds, and its marks. -/
def releaseToken (gid : Nat) (s : State) : State :=
  { s with ms := { s.ms with
      heldMarks := s.ms.heldMarks.filter (fun p => !(s.ms.tokens.any (fun t => t.2 == gid && t.1 == p.2 % 65536)))
      tokens := s.ms.tokens.filter (fun t => t.2 != gid),
      tokenWaits := s.ms.tokenWaits.filter (fun t => t.2 != gid) } }

/-- R228: %txstat of a transaction that ended, from its tx mask, success mask, the causes of its failed
lanes, the code of a tx.abort, whether a lane committed in serial mode, and the failure counts after. -/
def txStatus (mask succ : W) (causes : List (Nat × Nat)) (code : Nat) (serial : Bool) (counts : SMap Nat) : W64 :=
  let low := (lanesOf (mask &&& ~~~ succ)).head?
  let cause := (low.bind (fun l => (causes.find? (fun c => c.1 == l)).map (fun c => c.2))).getD 0
  let fails := (low.map (fun l => mapGet 0 counts l)).getD 0
  BitVec.ofNat 64 (succ.toNat + cause % 16 * 2 ^ 32 + code % 256 * 2 ^ 40 + fails % 16 * 2 ^ 48 +
    (if serial then 2 ^ 52 else 0))

/-- R320: the failure counts after the lanes of a mask end, with their causes. -/
def txCounts (mask succ : W) (causes : List (Nat × Nat)) (counts : SMap Nat) : SMap Nat :=
  (lanesOf mask).foldl (fun m l =>
    if inMask succ l then mapSet 0 m l 0
    else
      let c := ((causes.find? (fun c => c.1 == l)).map (fun c => c.2)).getD 0
      if c = 1 ∨ c = 2 ∨ c = 6 then mapSet 0 m l (min 15 (mapGet 0 m l + 1)) else m) counts

/-- R227, R228, R320, R321: the transaction of the group in focus ends with a success mask and the causes of
its failed lanes: k7, %txstat, the failure counts, and the serial token. -/
def endTx (succ : W) (causes : List (Nat × Nat)) (code : Option Nat) (s : State) : State :=
  match s.g.tx with
  | none => s
  | some t =>
    let counts := txCounts t.mask succ causes s.g.failCounts
    let serial := (succ &&& t.serial) != 0
    let c := code.getD (bitsOf s.g.txstat.toNat 47 40)
    let u := releaseToken s.g.gid s
    let u := if causes.any (fun k => k.2 == 1 || k.2 == 2) then countAbort 3 u else u
    { u with
      g := { u.g with tx := none, failCounts := counts, kregs := mapSet 0 u.g.kregs 7 succ,
                      txstat := txStatus t.mask succ causes c serial counts },
      ms := { u.ms with entries := u.ms.entries.filter (fun e => !(e.gid == s.g.gid && e.tx)) } }

/-! Ending a viaduct (R240, R270, R271). -/

/-- Whether an outstanding command of an engine belongs to a span: copies, tile operations, fabric commands,
and multicasts that write it (R270). -/
def engineWorkOf (s : State) (u : Nat) : Bool :=
  s.eng.copies.any (fun c => c.span == u || c.receivers.any (fun r => r.1 == u)) ||
    s.eng.tiles.any (fun c => c.span == u) || s.eng.fabs.any (fun c => c.span == u)

/-- The groups of a span. -/
def groupsOfSpan (s : State) (u : Nat) : List Group := (allGroups s).filter (fun g => g.span == u)

/-- R270: whether work of a group is outstanding: its counters, queue commands and stores. -/
def groupWork (s : State) (g : Group) : Bool :=
  g.cntL != 0 || g.cntS != 0 || g.cntC != 0 || g.cntT != 0 ||
    g.arrivals != [] || s.eng.fns.any (fun c => c.gid == g.gid) || s.ms.entries.any (fun e => e.gid == g.gid) ||
    s.ms.atoms.any (fun a => a.gid == g.gid)

/-- R270, R354: whether anything of a span is still outstanding. -/
def spanBusy (s : State) (u : Nat) : Bool :=
  engineWorkOf s u || (groupsOfSpan s u).any (groupWork s) ||
    s.fab.slots.any (fun m => m.span == u && m.st == MordSt.releasing)

/-- R270: a span retires: its groups, its barrier memberships and its resources go in one step. -/
def retireSpan (u : Nat) (s : State) : State :=
  let gs := groupsOfSpan s u
  let t := gs.foldl (fun t g => withdrawGroup g t) s
  let v := ((spanOf? s u).map (fun x => x.viaduct)).getD 0
  modViaduct v (fun x => { x with retired := x.retired + 1 })
    { t with
      spans := t.spans.filter (fun x => x.uid != u),
      groups := t.groups.filter (fun g => g.span != u),
      g := if t.g.span = u ∧ t.g.gid ≠ 0 then Group.idle else t.g,
      sp := if t.g.span = u ∧ t.g.gid ≠ 0 then Split.idle else t.sp,
      wat := { t.wat with fires := t.wat.fires.filter (fun f => !(gs.any (fun g => g.ctx == f.ctx && g.lslot == f.lslot))) } }

/-- R389: the status of a gang whose parts have all ended: a trap's or a cancellation's if one part has it. -/
def Gang.status (g : Gang) : Nat × Nat :=
  let es := g.members.filterMap (fun m => m.ended)
  (es.find? (fun e => e.1 == 3)).getD ((es.find? (fun e => e.1 != 0)).getD (0, 0))

/-- The gang launch of a number, changed. -/
def modGang (uid : Nat) (f : Gang → Gang) (s : State) : State :=
  { s with front := { s.front with gangs := updateFirst (fun g => g.uid == uid) f s.front.gangs } }

/-- The gang launch of a number. -/
def gangOf? (s : State) (uid : Nat) : Option Gang := s.front.gangs.find? (fun g => g.uid == uid)

/-- R389: the GANG of a launch that is coordinated here completes once every part has ended. -/
def settleGang (n : Nat) (s : State) : State :=
  match gangOf? s n with
  | none => s
  | some g =>
    if g.coord ≠ s.pkg ∨ g.st = .done ∨ g.members.any (fun m => m.ended.isNone) then s
    else
      let t := modGang n (fun x => { x with st := .done }) s
      match (queueOf? t g.qid).bind (fun q => q.packets.find? (fun p => p.index == g.index)) with
      | some p => completePacket p.journal g.status.1 g.status.2 t
      | none => t

/-- R389: a package's part of a gang launch has ended with a status. -/
def partEnded (n pkg status detail : Nat) (s : State) : State :=
  settleGang n (modGang n (fun g => { g with members := g.members.map (fun m =>
    if m.pkg = pkg ∧ m.ended = none then { m with ended := some (status, detail) } else m) }) s)

/-- R389: whether the part of a gang that is in this package has been journalled. -/
def GangSt.journalled : GangSt → Bool
  | .reserving => false
  | .committed => true
  | .waitRetry => false
  | .started => true
  | .done => true

/-- R271, R389: a viaduct here ends with a status: its LAUNCH completes, or its part of a gang has ended. -/
def endGang (v : Viaduct) (status detail : Nat) (s : State) : State :=
  match v.gang with
  | none => completePacket v.journal status detail s
  | some n =>
    let t := if ((gangOf? s n).map (fun g => g.st.journalled)).getD false then journalDone v.journal status detail s else s
    partEnded n s.pkg status detail t

/-- R240, R271: completes a viaduct none of whose spans is placed or saved: with its trap's status and
record if it trapped, with success once all its spans have retired. -/
def settleViaduct (n : Nat) (s : State) : State :=
  match viaductOf? s n with
  | none => s
  | some v =>
    if s.spans.any (fun x => x.viaduct == n) then s
    else
      match v.st, v.trap with
      | .trapped, some r =>
        endGang v 3 r.detailWord (modViaduct n (fun x => { x with st := .complete }) s)
      | .started, _ =>
        if v.retired = v.lastSpan - v.firstSpan then
          endGang v 0 0 (modViaduct n (fun x => { x with st := .complete }) s)
        else s
      | _, _ => s

/-- R235: whether a part is a wait for a peer. -/
def Micro.isXshf : Micro → Bool
  | .xshf _ _ _ _ _ => true
  | _ => false

/-- R240: a group of a trapped viaduct gives up what it holds: its splits with their waits for peers, and what R240
lists. Fault records that wait for room in the queue are still written (R309). -/
def stopGroup (g : Group) (s : State) : State :=
  let t := releaseToken g.gid (withdrawGroup g s)
  let ps := splitsOf s g
  let peers := (ps.flatMap (fun p => p.pend.filter Micro.isXshf)).length
  let cancelled := (t.ms.loads.filter (fun l => l.gid == g.gid)).length + peers
  let u := { t with
    ms := { t.ms with
      unsent := t.ms.unsent ++ ps.flatMap (fun p => p.unsent),
      loads := t.ms.loads.filter (fun l => l.gid != g.gid),
      entries := t.ms.entries.filter (fun e => !(e.gid == g.gid && (e.st == EntrySt.opened || e.tx))) } }
  modGroup g.gid (fun x =>
    { x with stopped := true, splits := [], tx := none, queues := initialQueues, replays := [], pendings := [], arrivals := [],
             cntL := x.cntL - cancelled,
             txstat := match x.tx with
               | some tx => if tx.phase = .ended then x.txstat else txStatus tx.mask 0 (tx.failed ++ (lanesOf tx.mask).map (fun l => (l, 6)))
                   (bitsOf x.txstat.toNat 47 40) false
                   (txCounts tx.mask 0 ((lanesOf tx.mask).map (fun l => (l, 6))) x.failCounts)
               | none => x.txstat,
             kregs := if x.tx.any (fun tx => tx.phase != TxPhase.ended) then mapSet 0 x.kregs 7 0 else x.kregs }) u

/-- R240, R241: a trap record of a viaduct: steps 3 to 6. Every group of the viaduct stops, no further span
is placed, saved spans are freed, spans with nothing outstanding retire, and the LAUNCH completes once
every span is gone. With a debugger attached the viaduct is parked instead. -/
def stopViaduct (n : Nat) (r : TrapRec) (s : State) : State :=
  let t := { s with traps := s.traps ++ [r] }
  match viaductOf? t n with
  | none => t
  | some v =>
    if v.st = .complete then t
    else if ((ctxOf? t v.ctx).map (fun c => c.debugger)).getD false then
      let u := modViaduct n (fun x => { x with st := .debugParked, trap := x.trap.or (some r) }) t
      ((allGroups u).filter (fun g => g.viaduct == n)).foldl
        (fun w g => modSplits g.gid (fun p => { p with state := if p.state = .running then .debug else p.state }) w) u
    else
      let u := modViaduct n (fun x => { x with st := .trapped, trap := x.trap.or (some r), chunks := [] }) t
      let gs := (allGroups u).filter (fun g => g.viaduct == n)
      let w := gs.foldl (fun w g => stopGroup g w) u
      let w := if w.g.viaduct = n ∧ w.g.gid ≠ 0 then { w with sp := { w.sp with member := 0, em := 0, pend := [] } } else w
      let gone := (w.spans.filter (fun x => x.viaduct == n && (x.residence == .saved || !spanBusy w x.uid))).map (fun x => x.uid)
      settleViaduct n (gone.foldl (fun w u => retireSpan u w) w)

/-- R240, R241: THE TRAP. The split in focus stops at the word that trapped (or the place the trap names),
%trapinfo and the trap record are written, and the viaduct stops. -/
def takeTrap (t : Trap) (s : State) : State :=
  let at_ := t.place.getD (s.iss.clause, s.iss.word)
  let r : TrapRec :=
    { viaduct := s.g.viaduct, clause := at_.1, word := at_.2, kind := t.kind, lane := t.lane,
      split := some s.sp.num, group := s.g.index, code := t.code, detail := t.detail, tick := s.tick }
  let u := { s with g := { s.g with trapinfo := trapInfo t.kind ((t.detail.map (fun d => d.toNat)).getD at_.1) },
                    sp := { s.sp with pc := s.iss.clause, widx := s.iss.word, pend := [] } }
  stopViaduct s.g.viaduct r u

/-- R243: a deferred trap record put on a group, or raised on its viaduct where the group is gone. -/
def deferTrap (gid : Nat) (r : TrapRec) (s : State) : State :=
  match groupOf? s gid with
  | some g =>
    if g.released then stopViaduct r.viaduct { r with tick := s.tick } s
    else modGroup gid (fun x => { x with deferred := x.deferred ++ [r] }) s
  | none => stopViaduct r.viaduct { r with tick := s.tick } s

/-- The record of a deferred trap of an engine word of a group. -/
def engineTrap (g : Group) (split clause word : Nat) (k : TrapKind) (lane : Option Nat) (addr : Option W64)
    (tick : Nat) : TrapRec :=
  { viaduct := g.viaduct, clause := clause, word := word, kind := k, lane := lane, split := some split,
    group := g.index, code := 0, detail := addr, tick := tick }

/-! Fault records (R308, R309). -/

/-- R308: the 32 bytes of a fault record. -/
def FaultRec.bytes (r : FaultRec) (tick : Nat) : List Byte :=
  natToBytes 8 r.vaddr ++ natToBytes 8 r.gpa ++ natToBytes 4 r.lanes.toNat ++ natToBytes 2 r.domain ++
    natToBytes 2 (r.core % 1024 * 32 + r.gslot % 32) ++ natToBytes 1 r.kind ++
    natToBytes 1 (r.cause % 8 + (if r.stage2 then 8 else 0) + (if r.last then 16 else 0)) ++
    natToBytes 1 (r.split % 4 * 4 + r.die % 4) ++ natToBytes 1 r.seq ++ natToBytes 4 tick

/-- R309: whether the fault queue of a context has room. -/
def faultRoom (c : Context) : Bool := decide ((c.fqwr + 2 ^ 32 - c.fqrd) % 2 ^ 32 < c.fqlen)

/-- R421: the 64-byte message with which H3 passes a stage-2 fault to the physical function's driver. -/
def stage2Message (r : FaultRec) (c : Context) (tick : Nat) : Reply :=
  { func := 0, code := 0, seq := 0, status := 0,
    body := r.bytes tick ++ natToBytes 2 c.func ++ natToBytes 2 c.num ++ natToBytes 28 0 }

/-- R309, R310, R421: one record written to its context's fault queue, or a stage-2 fault sent to the
physical function; the fault is open until H3 or a driver has dealt with it. -/
def writeFault (r : FaultRec) (s : State) : State :=
  match ctxOf? s r.ctx with
  | none => s
  | some c =>
    let t :=
      if r.stage2 then { s with front := { s.front with replies := s.front.replies ++ [stage2Message r c s.tick] } }
      else
        modCtx r.ctx (fun x => { x with fqwr := (x.fqwr + 1) % 2 ^ 32 })
          (firmwareWrite r.ctx (c.fqbase + 32 * (c.fqwr % c.fqlen)) Writer.none (r.bytes s.tick) s)
    { t with ms := { t.ms with openFaults := t.ms.openFaults ++
        [⟨r.ctx, pageOf r.vaddr, r.kind, r.cause, r.stage2, r.gpa⟩] } }

/-- R309: writes records while there is room, and answers the records left. -/
def writeFaults : List FaultRec → State → State × List FaultRec
  | [], s => (s, [])
  | r :: rs, s =>
    if r.stage2 || ((ctxOf? s r.ctx).map faultRoom).getD true then writeFaults rs (writeFault r s) else (s, r :: rs)

/-- R308: numbers the records of one abort and marks the last. -/
def numberFaults (rs : List FaultRec) : List FaultRec :=
  rs.zipIdx.map (fun p => { p.1 with seq := p.2, last := p.2 + 1 == rs.length })

/-- The lowest lane of a mask, 32 where it is empty. -/
def lowLane (m : W) : Nat := (lanesOf m).headD 32

/-- R308: two records of one page and stage as one: the lanes of both, the address of the lowest. -/
def FaultRec.join (x r : FaultRec) : FaultRec :=
  let y := if lowLane r.lanes < lowLane x.lanes then { x with vaddr := r.vaddr, gpa := r.gpa } else x
  { y with lanes := x.lanes ||| r.lanes }

/-- R308: puts a record into a list, merged into the first record of its page and stage. -/
def mergeFault (r : FaultRec) : List FaultRec → List FaultRec
  | [] => [r]
  | x :: xs =>
    if pageOf x.vaddr = pageOf r.vaddr ∧ x.stage2 = r.stage2 then x.join r :: xs else x :: mergeFault r xs

/-- R308: the records of faults in the order in which they were met. -/
def mergeFaults (rs : List FaultRec) : List FaultRec := rs.foldl (fun acc r => mergeFault r acc) []

/-- R308: the record of a fault that a lane of the split in focus met. -/
def faultOf (s : State) (kind : Nat) (lanes : W) (va : Nat) (dom : Nat) (f : WalkFault) : FaultRec :=
  { vaddr := va, gpa := if f.stage2 then f.gpa else 0, lanes := lanes, domain := dom, core := s.g.core,
    gslot := s.g.gslot, kind := kind, cause := f.cause, stage2 := f.stage2, last := false, split := s.sp.num,
    die := s.g.die, seq := 0, ctx := s.g.ctx }

/-- R160, R184: the fault records of an engine command, with no abort; they wait while the queue is full. -/
def sendFaults (rs : List FaultRec) (s : State) : State :=
  let p := writeFaults (numberFaults rs) s
  { p.1 with ms := { p.1.ms with unsent := p.1.ms.unsent ++ p.2 } }

/-- R160, R184: the one fault record of an engine command. -/
def engineFault (r : FaultRec) (s : State) : State := sendFaults [r] s

/-! Regions (R22, R300, R307). -/

/-- R22, R208: the region checkpoint of the split in focus. -/
def checkpointOf (s : State) : Checkpoint :=
  { sregs := s.g.sregs, kregs := s.g.kregs, em := s.sp.em, slots := s.g.slots, fmode := s.g.fmode,
    rng := s.g.rng, stack := s.sp.stack }

/-- R22: takes the region checkpoint and sets the region PC. -/
def takeCheckpoint (pc word : Nat) (s : State) : State :=
  { s with sp := { s.sp with ckpt := checkpointOf s, regionPc := pc, regionWord := word, bndPending := false } }

/-- R21, R209, R210: the region PC, and what of the region checkpoint the word that passed the boundary still sets after
it: the split's own em and stack (log entry 11). -/
def settleCheckpoint (pc word : Nat) (s : State) : State :=
  { s with sp := { s.sp with ckpt := { s.sp.ckpt with em := s.sp.em, stack := s.sp.stack }, regionPc := pc,
                             regionWord := word } }

/-- Whether a store-buffer entry is an open one of the region of the split in focus. -/
def ofRegion (s : State) (e : SbEntry) : Bool :=
  e.gid == s.g.gid && e.split == s.sp.num && e.st == EntrySt.opened

/-- R303: the fault an entry's claim reported. -/
def Claim.fault? : Claim → Option WalkFault
  | .waiting => none
  | .granted => none
  | .faulted c st2 gpa => some ⟨c, st2, gpa⟩
  | .revoked c => some ⟨c, false, 0⟩

/-- R145, R306: whether a read of a core would consume poisoned data. -/
def readPoisoned (s : State) (die core : Nat) (l : Leaf) (va : Nat) : Bool :=
  (l1Find s die core l.dom (lineOf va)).isNone && isPoisoned s l.phys

/-- R419, R306, R317: the fault that a read of an address of the group in focus meets; a transactional read is served
past L1. -/
def readFault? (s : State) (tx : Bool) (va : Nat) : Option WalkFault :=
  match accessIn s s.g.ctx needRd va with
  | .error f => some f
  | .ok l =>
    if (if tx then isPoisoned s l.phys else readPoisoned s s.g.die s.g.core l va) then some ⟨3, false, 0⟩ else none

/-- R308: the fault records of one outstanding load of the split in focus. -/
def loadRecs (s : State) (d : Load) : List FaultRec :=
  d.lanes.filterMap (fun x =>
    if x.taken then none
    else (readFault? s d.tx x.addr).map (fun f =>
      faultOf s (if d.tx then 8 else 0) (match d.kind with | .vec _ _ _ => laneBit x.lane | .scalar _ => 1) x.addr
        (domainOf s s.g.ctx x.addr) f))

/-- R307, R308: the fault records of every outstanding load of the split in focus, in issue order, with the
issue number of each. -/
def loadFaults (s : State) : List (Nat × FaultRec) :=
  (s.ms.loads.filter (fun d => d.gid == s.g.gid && d.split == s.sp.num)).flatMap
    (fun d => (loadRecs s d).map (fun r => (d.uid, r)))

/-- R300, R308: the fault records of the region's claims, in the order of the entries' first stores, with the
issue number of each. -/
def claimFaults (s : State) : List (Nat × FaultRec) :=
  (s.ms.entries.filter (ofRegion s)).filterMap (fun e =>
    e.claim.fault?.map (fun f => (e.firstSeq, faultOf s (if e.tx then 9 else 1) e.lanes e.lowVa e.dom f)))

/-- Puts a numbered record into a list in the order of the numbers. -/
def insertSeq (p : Nat × FaultRec) : List (Nat × FaultRec) → List (Nat × FaultRec)
  | [] => [p]
  | q :: qs => if p.1 < q.1 then p :: q :: qs else q :: insertSeq p qs

/-- R300, R307, R308: every fault that the region's loads and claims have met, in issue order. -/
def regionFaults (s : State) : List FaultRec :=
  (((loadFaults s) ++ (claimFaults s)).foldl (fun acc p => insertSeq p acc) []).map (fun p => p.2)

/-- R300: whether every claim of the region has been answered. -/
def claimsAnswered (s : State) : Bool :=
  (s.ms.entries.filter (ofRegion s)).all (fun e => e.claim != Claim.waiting)

/-- R187: a count with a read count subtracted, not below 0. -/
def subCount (m : SMap Nat) (k n : Nat) : SMap Nat := mapSet 0 m k (mapGet 0 m k - n)

/-- R187, R188, R362: a pending subtraction applied. -/
def applyPending (p : Pending) (s : State) : State :=
  match p with
  | .block core handle idx under align =>
    let sub (b : Block) : Block := { b with under := b.under - under, align := b.align - align }
    let upd (r : Reservation) : Reservation :=
      { r with blocks := mapSet Block.zero r.blocks idx (sub (mapGet Block.zero r.blocks idx)) }
    modSpanCore s.g.span core (fun c => { c with resv := updateFirst (fun r => r.handle == handle) upd c.resv }) s
  | .tileRow core tile row dunder dsat =>
    let sub (x : Tile) : Tile :=
      { x with dunder := subCount x.dunder row dunder, dsat := subCount x.dsat row dsat }
    modSpanCore s.g.span core (fun c => { c with tiles := c.tiles.set tile (sub (nthD Tile.zero c.tiles tile)) }) s
  | .histogram tag bins =>
    let upd (t : CollTag) : CollTag := { t with bins := t.bins.zipIdx.map (fun b => b.1 - nthD 0 bins b.2) }
    { s with fab := { s.fab with tags := updateFirst (fun t => t.ctx == s.g.ctx && t.tag == tag) upd s.fab.tags } }

/-- R445: the tick at which the sample period that is not latched yet ends. -/
def nextSample (s : State) : Nat := s.ten.periodTick + 65536

/-- R229, R445, R446: beats added to the context's count of the period they fall in. -/
def addBeats (n : Nat) (s : State) : State :=
  if n = 0 then s
  else
    let add (x : Nat) : Nat := min (2 ^ 24 - 1) (x + n)
    let loop (r : LoopRec) : LoopRec :=
      if s.tick < nextSample s then { r with ycur := add r.ycur } else { r with ynext := add r.ynext }
    modCtx s.g.ctx (fun c => { c with loop := loop c.loop }) s

/-- R193, R200: the taken entries of the split in focus are freed. -/
def releaseTaken (s : State) : State :=
  { s with g := { s.g with queues := s.g.queues.map (fun q =>
      { q with entries := q.entries.filter (fun e => e.taken != some s.sp.num) }) } }

/-- R200: the taken entries of the split in focus are held again. -/
def returnTaken (s : State) : State :=
  { s with g := { s.g with queues := s.g.queues.map (fun q =>
      { q with entries := q.entries.map (fun e => if e.taken = some s.sp.num then { e with taken := none } else e) }) } }

/-- R300: steps 2 to 5 of a region boundary of the split in focus, whose next word stands at sp.pc. -/
def commitRegion (s : State) : State :=
  let es := updateAll (ofRegion s) (fun e => { e with st := .committed }) s.ms.entries
  let rs := updateAll (fun r => r.gid == s.g.gid && r.split == s.sp.num) (fun r => { r with region := false }) s.wat.regs
  let t := { s with ms := { s.ms with entries := es }, wat := { s.wat with regs := rs } }
  let t := releaseTaken (addBeats s.sp.beats t)
  let t := { t with eng := { t.eng with
    fabs := updateAll (fun c => c.gid == s.g.gid && c.split == s.sp.num) (fun c => { c with pos := 0 }) t.eng.fabs } }
  let t := ((t.g.pendings.filter (fun p => p.1 == s.sp.num)).map (fun p => p.2)).foldl (fun u p => applyPending p u) t
  let t := { t with
    g := { t.g with pendings := t.g.pendings.filter (fun p => p.1 != s.sp.num),
                    tx := t.g.tx.filter (fun x => !(x.split == s.sp.num && x.phase == TxPhase.ended)),
                    replays := t.g.replays.filter (fun r => r.split != s.sp.num) },
    sp := { t.sp with beats := 0, done := 0, replay := 0, kept := 0, bndUid := t.uid } }
  let u := takeCheckpoint t.sp.pc t.sp.widx t
  { u with sp := { u.sp with bndPending := true } }

/-- R231: the fabric and mordant words counted on L; the others are counted on C. -/
def FabKind.countsL : FabKind → Bool
  | .getWin => true
  | .winRead => true
  | .mordAlloc => true
  | .mordSend => true
  | .mordStat => true
  | .histRead => true
  | .collRed => false
  | .collBcast => false
  | .putWin => false
  | .winAdd => false
  | .mordFree => false

/-- R307: what an abort of the region of the split in focus discards, restores and keeps; of L only the atomics' count
is left. -/
def discardRegion (s : State) : State :=
  let mine (l : Load) : Bool := l.gid == s.g.gid && l.split == s.sp.num
  let cancelled := (s.ms.loads.filter mine).length
  let words := (s.eng.fabs.filter (fun c => c.gid == s.g.gid && c.split == s.sp.num && c.kind.countsL && !c.cancelled)).length
  let t := { s with
    ms := { s.ms with loads := s.ms.loads.filter (fun l => !mine l),
                      entries := s.ms.entries.filter (fun e => !ofRegion s e) },
    g := { s.g with cntL := s.g.cntL - cancelled - (s.sp.pend.filter Micro.isXshf).length - words,
                    tx := s.g.tx.map (fun x =>
                      if x.split = s.sp.num then
                        { x with log := [], writes := [], failed := [], phase := .running, token := false }
                      else x),
                    pendings := s.g.pendings.filter (fun p => p.1 != s.sp.num),
                    arrivals := s.g.arrivals.filter (fun a => a.split != s.sp.num || a.before != s.sp.bndUid) } }
  let t := if inTx s then releaseToken s.g.gid t else t
  let own (gid split : Nat) : Bool := gid == s.g.gid && split == s.sp.num
  let t := { t with eng := { t.eng with
    tiles := updateAll (fun c => own c.gid c.split) (fun c => { c with cancelled := true }) t.eng.tiles,
    fabs := updateAll (fun c => own c.gid c.split) (fun c => { c with cancelled := true }) t.eng.fabs } }
  let t := returnTaken t
  let ck := s.sp.ckpt
  let t := { t with
    sp := { t.sp with em := ck.em, stack := ck.stack, pc := s.sp.regionPc, widx := s.sp.regionWord, beats := 0,
                      pend := [], replay := 0, kept := max t.sp.replay t.sp.kept },
    g := { t.g with sregs := ck.sregs, kregs := ck.kregs, fmode := ck.fmode,
                    rng := (lanesOf s.sp.member).foldl (fun m l => mapSet 0 m l (mapGet 0 ck.rng l)) t.g.rng } }
  ck.slots.zipIdx.foldl (fun u p => restoreSlot p.2 p.1 u) t

/-- R306 to R309: THE ABORT of the region of the split in focus with the faults found, and those of its outstanding loads
that are not among them (R307): the region is discarded, the records are written, and the split parks. With no fault it restarts at once. -/
def abortRegion (rs : List FaultRec) (s : State) : State :=
  let more := ((loadFaults s).map (fun p => p.2)).filter (fun l =>
    !rs.any (fun r => pageOf r.vaddr == pageOf l.vaddr && r.stage2 == l.stage2))
  let rs := more ++ rs
  let recs := numberFaults (mergeFaults rs)
  let t := discardRegion s
  let t := if rs = [] then t else countAbort (if rs.all (fun r => r.cause == 3) then 1 else 0) t
  let p := writeFaults recs t
  { p.1 with sp := { p.1.sp with state := if recs = [] then .running else .parked, faults := recs, unsent := p.2 } }

/-! Stalls and blocked words. -/

/-- R20, R71: the word in focus is not issued; the split stands at it again. -/
def stallWord (s : State) : State :=
  { s with sp := { s.sp with pc := s.iss.clause, widx := s.iss.word }, iss := { s.iss with stalled := true } }

/-- The word in focus does nothing. -/
def nop (s : State) : State := s

/-- R11: a register range that passes the group's registers. -/
def overRange (s : State) (r n : Nat) : Bool := decide (s.g.nregs < r + n)

/-- R21: a destination that is a live-in. -/
def inLive (s : State) (r : Nat) : Bool := decide (r < s.g.live)

/-- R73: the vector registers that an outstanding load writes. -/
def Load.dests (l : Load) : List Nat :=
  match l.kind with
  | .vec d size _ => (List.range (max 1 (size / 4))).map (fun j => d + j)
  | .scalar _ => []

/-- R73: the scalar registers that an outstanding load writes. -/
def Load.sdests (l : Load) : List Nat :=
  match l.kind with
  | .vec _ _ _ => []
  | .scalar d => [d]

/-- R73: the vector registers that a tile operation writes. -/
def TileOp.dests : TileOp → List Nat
  | .mdrain _ d _ => (List.range 8).map (fun j => d + j)
  | .mstatBlock _ _ _ d => [d]
  | .mstatTile _ d => [d]
  | .mzero _ => []
  | .mmk _ _ _ _ _ _ _ _ => []
  | .mtab _ _ _ _ => []
  | .mlut _ _ _ _ _ _ _ _ => []
  | .mdrainMx _ _ _ _ _ _ _ _ _ => []
  | .msave _ _ => []
  | .mload _ _ => []
  | .msuggest _ _ _ => []

/-- R73: the scalar registers that a tile operation writes. -/
def TileOp.sdests : TileOp → List Nat
  | .msuggest _ _ d => [d]
  | .mdrain _ _ _ => []
  | .mstatBlock _ _ _ _ => []
  | .mstatTile _ _ => []
  | .mzero _ => []
  | .mmk _ _ _ _ _ _ _ _ => []
  | .mtab _ _ _ _ => []
  | .mlut _ _ _ _ _ _ _ _ => []
  | .mdrainMx _ _ _ _ _ _ _ _ _ => []
  | .msave _ _ => []
  | .mload _ _ => []

/-- R73, R231: the vector registers that a fabric command writes. -/
def FabCmd.dests (c : FabCmd) : List Nat :=
  match c.kind with
  | .getWin => [c.d]
  | .winRead => [c.d]
  | .mordAlloc => [c.d, c.d + 1]
  | .mordSend => [c.d]
  | .mordStat => [c.d]
  | .histRead => [c.d]
  | .collRed => []
  | .collBcast => []
  | .putWin => []
  | .winAdd => []
  | .mordFree => []

/-- R73, R301: the vector registers that uncompleted words of the split in focus will write, of the clause
at an address, or of every clause. -/
def pendingV (s : State) (clause : Option Nat) : List Nat :=
  let here (gid split c : Nat) : Bool := gid == s.g.gid && split == s.sp.num && (clause == none || clause == some c)
  (s.ms.loads.filter (fun l => here l.gid l.split l.clause)).flatMap Load.dests ++
    (s.eng.tiles.filter (fun c => here c.gid c.split c.clause)).flatMap (fun c => c.op.dests) ++
    (s.eng.fabs.filter (fun c => here c.gid c.split c.clause)).flatMap FabCmd.dests

/-- R73, R216: the scalar registers that uncompleted words of the same clause, and arrivals that wait, will write. -/
def pendingS (s : State) : List Nat :=
  let here (gid split c : Nat) : Bool := gid == s.g.gid && split == s.sp.num && c == s.iss.clause
  (s.ms.loads.filter (fun l => here l.gid l.split l.clause)).flatMap Load.sdests ++
    (s.eng.tiles.filter (fun c => here c.gid c.split c.clause)).flatMap (fun c => c.op.sdests) ++
    (s.g.arrivals.filter (fun a => a.split == s.sp.num)).filterMap (fun a => a.dst)

/-- R73: whether a word that names these vector and scalar registers must stall. -/
def hazard (s : State) (vs ss : List Nat) : Bool :=
  vs.any (fun r => memNat r (pendingV s (some s.iss.clause))) || ss.any (fun r => memNat r (pendingS s))

/-- The registers r to r + n - 1. -/
def regSpan (r n : Nat) : List Nat := (List.range n).map (fun j => r + j)

/-- R477: the lowest active lane in which a word that reads these registers meets a poisoned word of them. -/
def poisonedLane (s : State) (srcs : List Nat) : Option Nat :=
  if s.g.regPoison = [] then none
  else (lanesOf s.sp.em).find? (fun l => srcs.any (fun r => memNat (regKey r l) s.g.regPoison))

/-- R160, R477: the record of the poison fault that a poisoned word of the register file or a store gives. -/
def storePoison (s : State) (kind lane : Nat) : FaultRec :=
  faultOf s kind (laneBit lane) 0 (((ctxOf? s s.g.ctx).map (fun c => c.tagdom)).getD 0) ⟨3, false, 0⟩

/-- R477: the effect of a word that reads vector registers: a poisoned word of them aborts the region. -/
def readGuard (srcs : List Nat) (eff : State → State) (s : State) : State :=
  match poisonedLane s srcs with
  | some l => abortRegion [storePoison s 0 l] s
  | none => eff s

/-- R11, R21, R71, R73: the common frame of a word: its trap if a check fails, a stall if it names a
register that is on its way, else its effect. -/
def issueWord (trap : Option Trap) (vs ss : List Nat) (eff : State → State) (s : State) : Out :=
  match trap with
  | some t => .next (takeTrap t s)
  | none => if hazard s vs ss then .next (stallWord s) else .next (eff s)

/-- The first trap of a list of checks. -/
def firstTrap : List (Option Trap) → Option Trap
  | [] => none
  | some t :: _ => some t
  | none :: ts => firstTrap ts

/-- A trap of a kind where a condition holds. -/
def trapIf (c : Bool) (k : TrapKind) : Option Trap := if c then some (plainTrap k) else none

/-- R11, R12: the register-range check of ranges (register, count). -/
def rangeTrap (s : State) (rs : List (Nat × Nat)) : Option Trap :=
  trapIf (rs.any (fun p => overRange s p.1 p.2)) .registerRange

/-- R21: the region-contract check of destinations. -/
def liveTrap (s : State) (ds : List Nat) : Option Trap := trapIf (ds.any (inLive s)) .regionContract

/-! Barriers (R213, R332). -/

/-- R215: the splits of a span whose wait a flip of a barrier ends. -/
def wakeBar (span b : Nat) (phase : Bool) (s : State) : State :=
  ((allGroups s).filter (fun g => g.span == span)).foldl (fun t g =>
    modSplits g.gid (fun p =>
      match p.pend with
      | .barWait n q :: rest => if n = b ∧ q ≠ phase then { p with pend := rest } else p
      | _ => p) t) s

/-- R213: one arrival at a barrier register of a span: none where its expected count is 0. -/
def arriveOn (span b : Nat) (s : State) : Option State :=
  match spanOf? s span with
  | none => none
  | some x =>
    let r := nthD Barrier.zero x.bars b
    if r.expected = 0 then none
    else if r.arrived + 1 = r.expected then
      let t := modSpan span (fun y => { y with bars := y.bars.set b { r with arrived := 0, phase := !r.phase } }) s
      some (evalMonitors (wakeBar span b (!r.phase) t))
    else some (modSpan span (fun y => { y with bars := y.bars.set b { r with arrived := r.arrived + 1 } }) s)

/-- A barrier register of the span in focus. -/
def barGet (s : State) (b : Nat) : Barrier :=
  match spanOf? s s.g.span with
  | some x => nthD Barrier.zero x.bars b
  | none => Barrier.zero

/-! Kicks (R374, R377, R387). -/

/-- R374: an ignored kick counted for its function. -/
def countKick (func : Nat) (s : State) : State :=
  { s with front := { s.front with kickErrors := mapSet 0 s.front.kickErrors func (mapGet 0 s.front.kickErrors func + 1) } }

/-- R377, R387: a kick to a queue: the front end looks at a mapped one, and H2 learns of another. -/
def kickQueue (q : Queue) (s : State) : State :=
  modQueue q.qid (fun x =>
    if x.mapped then { x with looking := true, lookTick := s.tick }
    else if x.pending then x else { x with pending := true, kickTick := s.tick }) s

/-- R374, R463: a 64-bit write of a function to offset 0 of a doorbell page. -/
def doorbell (func page value : Nat) (s : State) : State :=
  if s.dev.stage ≠ 4 then s
  else
    match ctxOf? s page with
    | none => s
    | some c =>
      if c.func ≠ func then s
      else if value / 65536 ≠ 0 then countKick func s
      else
        match queueOf? s value with
        | none => countKick func s
        | some q => if q.ctx = page then kickQueue q s else countKick func s

/-- R374: the context whose doorbell page contexts can map at a physical address, and the offset in the page, where that
is where the pages are. -/
def doorbellPlace? (s : State) (phys : Nat) : Option (Nat × Nat) :=
  match s.front.doorbells with
  | none => none
  | some b => if b ≤ phys ∧ phys < b + 2 ^ 24 then some ((phys - b) / 4096, (lineOf phys - b) % 4096) else none

/-- R374: a group's bytes reach a line of a mapped doorbell page: eight bytes at offset 0 of the page are a kick, and any
other bytes are ignored. -/
def groupKick (ctx page line : Nat) (bytes : List (Nat × Byte)) (s : State) : State :=
  let word := (List.range 8).filterMap (fun i => (bytes.find? (fun b => b.1 == i)).map (fun b => b.2))
  if line = 0 ∧ bytes.length = 8 ∧ word.length = 8 then
    doorbell (((ctxOf? s ctx).map (fun c => c.func)).getD 65536) page (bytesToNat word) s
  else s

end Sys2Proof.Machine
end

