-- ==== Sys2Proof/Machine/Operands.lean ====
section
/-! DEFINITION. Operand forms: sources, literals, destinations, addresses, and the frames of the vector, mask
and scalar words (R75 to R87, R97 to R102, R130). -/

namespace Sys2Proof.Machine

/-- R87: how a literal becomes a 64-bit operand. -/
inductive Ext
  | signed
  | zero
  | float
  deriving DecidableEq, Repr

/-- R87: an f32 word widened exactly to f64; a NaN gives the canonical NaN. -/
def widenF64 (w : W) : W64 := BitVec.ofNat 64 (exactBits fmtF64 (decodeFloat fmtF32 w.toNat))

/-- R87: a literal as a 64-bit operand. -/
def Ext.apply (e : Ext) (w : W) : W64 :=
  match e with
  | .signed => sext64 w
  | .zero => zext64 w
  | .float => widenF64 w

end Sys2Proof.Machine

namespace Sys2Proof

open Sys2Proof.Machine

/-- R99: a 32-bit vector source in a lane. -/
def VSrc.val (a : VSrc) (s : State) (l : Nat) : W :=
  match a with
  | .reg n => vGet s n l
  | .lit w => w

/-- R99: a 64-bit vector source in a lane. -/
def VSrc.val64 (e : Ext) (a : VSrc) (s : State) (l : Nat) : W64 :=
  match a with
  | .reg n => vGet64 s n l
  | .lit w => e.apply w

/-- R99: a 32-bit second source in a lane. -/
def BSrc.val (b : BSrc) (s : State) (l : Nat) : W :=
  match b with
  | .reg n => vGet s n l
  | .sca n => lowWord (sGet s n)
  | .lit w => w

/-- R99: a 64-bit second source in a lane. -/
def BSrc.val64 (e : Ext) (b : BSrc) (s : State) (l : Nat) : W64 :=
  match b with
  | .reg n => vGet64 s n l
  | .sca n => sGet s n
  | .lit w => e.apply w

/-- R130: a scalar source. -/
def SSrc.val (a : SSrc) (s : State) : W64 :=
  match a with
  | .reg n => sGet s n
  | .lit w => sext64 w

/-- R134: a source common to all lanes. -/
def USrc.val (a : USrc) (s : State) : W :=
  match a with
  | .sca n => lowWord (sGet s n)
  | .lit w => w

/-- The vector registers a source reads, as a range. -/
def VSrc.range (sh : Nat) (a : VSrc) : List (Nat × Nat) :=
  match a with
  | .reg n => [(n, sh)]
  | .lit _ => []

/-- The vector registers a source reads, as a range. -/
def BSrc.range (sh : Nat) (b : BSrc) : List (Nat × Nat) :=
  match b with
  | .reg n => [(n, sh)]
  | .sca _ => []
  | .lit _ => []

/-- The scalar registers a source reads. -/
def BSrc.scalars (b : BSrc) : List Nat :=
  match b with
  | .reg _ => []
  | .sca n => [n]
  | .lit _ => []

/-- The scalar registers a source reads. -/
def SSrc.scalars (a : SSrc) : List Nat :=
  match a with
  | .reg n => [n]
  | .lit _ => []

/-- The scalar registers a source reads. -/
def USrc.scalars (a : USrc) : List Nat :=
  match a with
  | .sca n => [n]
  | .lit _ => []

end Sys2Proof

namespace Sys2Proof.Machine

/-- The registers of ranges. -/
def regsOf (rs : List (Nat × Nat)) : List Nat := rs.flatMap (fun p => regSpan p.1 p.2)

/-! The results of lanes. -/

/-- What a lane's computation gives: a value of one or two registers, its flags, and the lane's random
state where it was used. -/
structure LaneOut where
  val : W64
  flags : Flags
  rng : Option W
  deriving DecidableEq, Repr

/-- A 32-bit result without flags. -/
def out32 (w : W) : LaneOut := ⟨zext64 w, 0, none⟩

/-- A 64-bit result without flags. -/
def out64 (w : W64) : LaneOut := ⟨w, 0, none⟩

/-- R101, R13: a lane's result written to n registers (1 or 2) from d, with its flags and random state. -/
def Group.putLane (d n l : Nat) (o : LaneOut) (g : Group) : Group :=
  { g with
    regs := if n = 1 then mapSet 0 g.regs (regKey d l) (lowWord o.val)
            else mapSet 0 (mapSet 0 g.regs (regKey d l) (lowWord o.val)) (regKey (d + 1) l) (highWord o.val),
    regPoison := clearMarks d [l] (if n = 1 then g.regPoison else clearMarks (d + 1) [l] g.regPoison),
    flags := g.flags ||| o.flags,
    rng := match o.rng with
      | none => g.rng
      | some x => mapSet 0 g.rng l x }

/-- R101, R26: the results of the active lanes written, with their flags. -/
def laneEff (d n : Nat) (f : State → Nat → LaneOut) (s : State) : State :=
  { s with g := (lanesOf s.sp.em).foldl (fun g l => g.putLane d n l (f s l)) s.g }

/-- R101: a mask destination: bit l is the lane's result for active lanes, and 0 for the others. -/
def maskEff (k : Nat) (f : State → Nat → Bool × Flags) (s : State) : State :=
  raise (flAll ((lanesOf s.sp.em).map (fun l => (f s l).2)))
    (kSet k (maskOf (fun l => inMask s.sp.em l && (f s l).1)) s)

/-- R100, R102: the checks of a vector word with a vector destination. -/
def vecTrap (s : State) (d n : Nat) (srcs : List (Nat × Nat)) : Option Trap :=
  firstTrap [rangeTrap s ((d, n) :: srcs), liveTrap s [d]]

/-- R97 to R102: a word with a vector destination of n registers and a result for each lane. -/
def vecWord (d n : Nat) (srcs : List (Nat × Nat)) (scas : List Nat) (f : State → Nat → LaneOut) (s : State) : Out :=
  issueWord (vecTrap s d n srcs) (regsOf ((d, n) :: srcs)) scas
    (readGuard (regsOf srcs) (laneEff d n f)) s

end Sys2Proof.Machine

namespace Sys2Proof

open Sys2Proof.Machine

/-- R97 to R102: a V-format word of shapes sd, sa and sb. -/
def V3.word (sd sa sb : Nat) (o : V3) (f : State → Nat → LaneOut) (s : State) : Out :=
  vecWord o.d sd (o.a.range sa ++ o.b.range sb) o.b.scalars f s

/-- R99, R477: a word of major 2, which also reads the old value of its destination. -/
def V3.accWord (o : V3) (sd sa sb : Nat) (f : State → Nat → LaneOut) (s : State) : Out :=
  vecWord o.d sd ((o.d, sd) :: o.a.range sa ++ o.b.range sb) o.b.scalars f s

/-- R97 to R102: a V-format word of shapes sd and sa. -/
def V2.word (sd sa : Nat) (o : V2) (f : State → Nat → LaneOut) (s : State) : Out :=
  vecWord o.d sd (o.a.range sa) [] f s

/-- A V-format word of 32-bit shapes whose result depends on A and B alone. -/
def V3.int (o : V3) (f : W → W → LaneOut) (s : State) : Out :=
  o.word 1 1 1 (fun t l => f (o.a.val t l) (o.b.val t l)) s

/-- A V-format word of 64-bit shapes whose result depends on A and B alone. -/
def V3.int64 (e : Ext) (o : V3) (f : W64 → W64 → LaneOut) (s : State) : Out :=
  o.word 2 2 2 (fun t l => f (o.a.val64 e t l) (o.b.val64 e t l)) s

/-- A V-format word with a 64-bit result of 32-bit operands. -/
def V3.wide (o : V3) (f : W → W → LaneOut) (s : State) : Out :=
  o.word 2 1 1 (fun t l => f (o.a.val t l) (o.b.val t l)) s

/-- A V-format word with a 64-bit A and a 32-bit B. -/
def V3.shift64 (o : V3) (f : W64 → W → LaneOut) (s : State) : Out :=
  o.word 2 2 1 (fun t l => f (o.a.val64 .zero t l) (o.b.val t l)) s

/-- A V-format word of 32-bit shapes with one operand. -/
def V2.int (o : V2) (f : W → LaneOut) (s : State) : Out :=
  o.word 1 1 (fun t l => f (o.a.val t l)) s

/-- R101, R102: a compare of shape sa, sb. -/
def K3.word (sh : Nat) (o : K3) (f : State → Nat → Bool × Flags) (s : State) : Out :=
  issueWord (rangeTrap s (o.a.range sh ++ o.b.range sh)) (regsOf (o.a.range sh ++ o.b.range sh)) o.b.scalars
    (readGuard (regsOf (o.a.range sh ++ o.b.range sh)) (maskEff o.k f)) s

/-- A compare of 32-bit operands. -/
def K3.cmp (o : K3) (f : W → W → Bool × Flags) (s : State) : Out :=
  o.word 1 (fun t l => f (o.a.val t l) (o.b.val t l)) s

/-- A compare of 64-bit operands. -/
def K3.cmp64 (e : Ext) (o : K3) (f : W64 → W64 → Bool × Flags) (s : State) : Out :=
  o.word 2 (fun t l => f (o.a.val64 e t l) (o.b.val64 e t l)) s

end Sys2Proof

namespace Sys2Proof.Machine

/-- R130: a word of major 5: the result written to s(d). -/
def scaWord (d : Nat) (srcs : List Nat) (f : State → W64) (s : State) : Out :=
  issueWord none [] (d :: srcs) (fun t => sSet d (f t) t) s

end Sys2Proof.Machine

namespace Sys2Proof

open Sys2Proof.Machine

/-- R130: a scalar word of two operands. -/
def S3.word (o : S3) (f : W64 → W64 → W64) (s : State) : Out :=
  scaWord o.d (o.a.scalars ++ o.b.scalars) (fun t => f (o.a.val t) (o.b.val t)) s

/-- R130: a scalar word of one operand. -/
def S2.word (o : S2) (f : W64 → W64) (s : State) : Out :=
  scaWord o.d o.a.scalars (fun t => f (o.a.val t)) s

/-! Floating point in a lane. -/

end Sys2Proof

namespace Sys2Proof.Machine

/-- R41: whether a rounding is stochastic. -/
def RMode.isSto (m : RMode) : Bool :=
  match m with
  | .sto _ => true
  | .rne => false
  | .rtz => false
  | .rdn => false
  | .rup => false
  | .rna => false

/-- R39 to R42: an exact value rounded once into a format under a rounding code; the bits, the flags and the
random state after. -/
def rndTo (f : Fmt) (code : Nat) (sat : Bool) (fmode : W) (v : FVal × Flags) (rng : W) : Nat × Flags × W :=
  let m := roundMode code fmode rng
  let e := encodeFloat f m (ftzOf fmode) sat v.1
  (e.1, v.2 ||| e.2, if m.isSto then xorshift rng else rng)

/-- A lane's output from bits, flags and the random state before and after. -/
def outRng (bits : Nat) (fl : Flags) (old new : W) : LaneOut :=
  ⟨BitVec.ofNat 64 bits, fl, if new = old then none else some new⟩

/-- R111, R42: a two-operand element operation, read under ftz and rounded once. -/
def elem2 (f : Fmt) (op : RMode → FVal → FVal → FVal × Flags) (fmode : W) (a b : Nat) (rng : W) : Nat × Flags × W :=
  let x := readFloat f (ftzOf fmode) a
  let y := readFloat f (ftzOf fmode) b
  let r := rndTo f 6 false fmode (op (roundMode 6 fmode rng) x.1 y.1) rng
  (r.1, x.2 ||| y.2 ||| r.2.1, r.2.2)

/-- R119, R42: a three-operand element operation, read under ftz and rounded once. -/
def elem3 (f : Fmt) (op : RMode → FVal → FVal → FVal → FVal × Flags) (fmode : W) (a b d : Nat) (rng : W) :
    Nat × Flags × W :=
  let x := readFloat f (ftzOf fmode) a
  let y := readFloat f (ftzOf fmode) b
  let z := readFloat f (ftzOf fmode) d
  let r := rndTo f 6 false fmode (op (roundMode 6 fmode rng) x.1 y.1 z.1) rng
  (r.1, x.2 ||| y.2 ||| z.2 ||| r.2.1, r.2.2)

/-- R36, R117: two 16-bit elements computed one after the other, element 0 first. -/
def packed2 (g : Nat → W → Nat × Flags × W) (rng : W) : LaneOut :=
  let e0 := g 0 rng
  let e1 := g 1 e0.2.2
  outRng (e0.1 + e1.1 * 2 ^ 16) (e0.2.1 ||| e1.2.1) rng e1.2.2

/-- R36: the element i of width w of a word. -/
def elemAt (w i : Nat) (x : W) : Nat := x.toNat / 2 ^ (w * i) % 2 ^ w

/-- The exact difference. -/
def subExact (m : RMode) (a b : FVal) : FVal × Flags := addExact m a b.negate

end Sys2Proof.Machine

namespace Sys2Proof

open Sys2Proof.Machine

/-- A V-format word of f32 operands with an element operation. -/
def V3.f32 (o : V3) (op : RMode → FVal → FVal → FVal × Flags) (s : State) : Out :=
  o.word 1 1 1 (fun t l =>
    let r := elem2 fmtF32 op t.g.fmode (o.a.val t l).toNat (o.b.val t l).toNat (rngGet t l)
    outRng r.1 r.2.1 (rngGet t l) r.2.2) s

/-- A V-format word of f64 operands with an element operation. -/
def V3.f64 (o : V3) (op : RMode → FVal → FVal → FVal × Flags) (s : State) : Out :=
  o.word 2 2 2 (fun t l =>
    let r := elem2 fmtF64 op t.g.fmode (o.a.val64 .float t l).toNat (o.b.val64 .float t l).toNat (rngGet t l)
    outRng r.1 r.2.1 (rngGet t l) r.2.2) s

/-- A V-format word of two packed 16-bit elements with an element operation. -/
def V3.x2 (f : Fmt) (o : V3) (op : RMode → FVal → FVal → FVal × Flags) (s : State) : Out :=
  o.word 1 1 1 (fun t l =>
    packed2 (fun i r => elem2 f op t.g.fmode (elemAt 16 i (o.a.val t l)) (elemAt 16 i (o.b.val t l)) r) (rngGet t l)) s

end Sys2Proof

namespace Sys2Proof.Machine

/-- R112, R44: minimum or maximum of a format, which is exact and uses no random state. -/
def minMaxElem (f : Fmt) (isMax number : Bool) (fmode : W) (a b : Nat) : Nat × Flags :=
  let x := readFloat f (ftzOf fmode) a
  let y := readFloat f (ftzOf fmode) b
  (exactBits f (minMaxFloat isMax number x.1 y.1), x.2 ||| y.2 ||| flIf (x.1.isSig || y.1.isSig) flInvalid)

end Sys2Proof.Machine

namespace Sys2Proof

open Sys2Proof.Machine

/-- R112: a minimum or maximum on f32. -/
def V3.minMax32 (isMax number : Bool) (o : V3) (s : State) : Out :=
  o.word 1 1 1 (fun t l =>
    let r := minMaxElem fmtF32 isMax number t.g.fmode (o.a.val t l).toNat (o.b.val t l).toNat
    ⟨BitVec.ofNat 64 r.1, r.2, none⟩) s

/-- R118: a minimum or maximum on f64. -/
def V3.minMax64 (isMax : Bool) (o : V3) (s : State) : Out :=
  o.word 2 2 2 (fun t l =>
    let r := minMaxElem fmtF64 isMax false t.g.fmode (o.a.val64 .float t l).toNat (o.b.val64 .float t l).toNat
    ⟨BitVec.ofNat 64 r.1, r.2, none⟩) s

/-- R117: a minimum or maximum on packed bfloat16. -/
def V3.minMaxX2 (isMax : Bool) (o : V3) (s : State) : Out :=
  o.word 1 1 1 (fun t l =>
    let e (i : Nat) := minMaxElem fmtBf16 isMax false t.g.fmode (elemAt 16 i (o.a.val t l)) (elemAt 16 i (o.b.val t l))
    ⟨BitVec.ofNat 64 ((e 0).1 + (e 1).1 * 2 ^ 16), (e 0).2 ||| (e 1).2, none⟩) s

end Sys2Proof

namespace Sys2Proof.Machine

/-- R116: a floating-point compare; ordered compares set invalid on any NaN. -/
def compareElem (f : Fmt) (ordered : Bool) (rel : Option Ordering → Bool) (fmode : W) (a b : Nat) : Bool × Flags :=
  let x := readFloat f (ftzOf fmode) a
  let y := readFloat f (ftzOf fmode) b
  (rel (floatCompare x.1 y.1), x.2 ||| y.2 |||
    flIf (x.1.isSig || y.1.isSig || (ordered && (x.1.isNan || y.1.isNan))) flInvalid)

end Sys2Proof.Machine

namespace Sys2Proof

open Sys2Proof.Machine

/-- R78: the offset of a lane, shifted. -/
def MAddr.offset (m : MAddr) (s : State) (l : Nat) : W64 := sext64 (m.off.val s l) <<< m.scale

/-- R78: the address of a lane. -/
def MAddr.addr (m : MAddr) (s : State) (l : Nat) : W64 := sGet s m.base + m.offset s l

end Sys2Proof
end

