-- ==== Sys2Proof/Machine/Access.lean ====
section
/-! DEFINITION. Addresses of the generic space and their checks, core and quad store, the store buffer, and the
addresses that outstanding copies hold (R142 to R148, R159, R274 to R278, R303, R304, R316). -/

namespace Sys2Proof.Machine

open Sys2Proof

/-- R274: the spaces of the generic address space. -/
inductive Space
  | glob
  | loc
  | store
  | quad
  | param
  deriving DecidableEq, Repr

/-- Where a checked access goes: an address of memory, an offset in core store or quad store, or a parameter
read that returns zero (R147, R275). -/
inductive Place
  | mem (va : Nat)
  | store (off : Nat)
  | quad (off : Nat)
  | param (va : Nat)
  | past
  deriving DecidableEq, Repr

/-- R274: the space an address with a canonical top byte names. -/
def spaceOf (a : Nat) : Option Space :=
  if bitsOf a 63 56 = 0 then some .glob
  else
    match bitsOf a 55 48 with
    | 0 => some .loc
    | 1 => some .store
    | 2 => some .quad
    | 3 => some .param
    | _ => none

/-- R150, R274, R381: the extents of the apertures of the group in focus. -/
def extentOf (s : State) (sp : Space) : Nat :=
  match sp with
  | .glob => 2 ^ 56
  | .loc => 2 ^ 26
  | .store => ((launchOf? s).map (fun l => l.store * 256)).getD 0
  | .quad => ((launchOf? s).map (fun l => l.qstore * 1024)).getD 0
  | .param => 2 ^ 36

/-- R275: the global address behind byte o of a lane's local aperture. -/
def localBacking (s : State) (lane o : Nat) : Nat :=
  let lb := ((ctxOf? s s.g.ctx).map (fun c => c.lbase)).getD 0
  (lb + s.g.lslot * 2 ^ 31 + o / 16 * 512 + lane * 16 + o % 16) % 2 ^ 64

/-- R147, R385: the binding of a parameter window of the viaduct in focus. -/
def bindingOf? (s : State) (win : Nat) : Option ParamBind :=
  (viaductOf? s s.g.viaduct).bind (fun v => v.params.find? (fun p => p.win == win))

/-- R143, R147, R274: one lane's address checked, in the order of R143, for an access of n bytes to the
allowed spaces, and where it goes. -/
def placeOf (s : State) (allowed : List Space) (n lane : Nat) (a : W64) : Except TrapKind Place :=
  let x := a.toNat
  if bitsOf x 63 56 ≠ 0 ∧ bitsOf x 63 56 ≠ 255 then .error .nonCanonical
  else
    match spaceOf x with
    | none => .error .aperture
    | some sp =>
      let off := if sp = .glob then x else bitsOf x 47 0
      if !(allowed.any (fun y => y == sp)) || decide (extentOf s sp ≤ off) then .error .aperture
      else if x % n ≠ 0 then .error .misaligned
      else
        match sp with
        | .glob => .ok (.mem x)
        | .loc => .ok (.mem (localBacking s lane off))
        | .store => .ok (.store off)
        | .quad => .ok (.quad off)
        | .param =>
          match bindingOf? s (bitsOf x 35 32) with
          | none => .error .windowUnbound
          | some b => if b.size < x % 2 ^ 32 + n then .ok .past else .ok (.param (b.base + x % 2 ^ 32))

/-- R143: the addresses of lanes checked in ascending order: the lowest failing lane's trap, or the places. -/
def placesOf (s : State) (allowed : List Space) (n : Nat) :
    List (Nat × W64) → Except Trap (List (Nat × Nat × Place))
  | [] => .ok []
  | (l, a) :: rest =>
    match placeOf s allowed n l a with
    | .error k => .error (laneTrap k l a)
    | .ok p =>
      match placesOf s allowed n rest with
      | .error t => .error t
      | .ok ps => .ok ((l, a.toNat, p) :: ps)

/-! Core store and quad store (R254, R274, R277). -/

/-- R274: the core of a span that holds a quad-store offset. -/
def quadCore (x : Span) (off : Nat) : Nat := x.core0 + off / 131072

/-- R277: a byte of the core store of a span on a core. -/
def storeByte (s : State) (span core off : Nat) : Byte :=
  ((spanCoreOf? s span core).map (fun c => mapGet 0 c.store off)).getD 0

/-- R277: a byte of the quad store of a span. -/
def quadByte (s : State) (span off : Nat) : Byte :=
  match spanOf? s span with
  | some x => ((spanCoreOf? s span (quadCore x off)).map (fun c => mapGet 0 c.quad off)).getD 0
  | none => 0

/-- Bytes put into a byte map from an offset on. -/
def putBytes (m : SMap Byte) (off : Nat) (bs : List Byte) : SMap Byte :=
  bs.zipIdx.foldl (fun a p => mapSet 0 a (off + p.2) p.1) m

/-- R160, R477: the poison marks of 64-bit words after a write: a clean write of a whole word clears its mark,
a poisoned one marks every word it touches. -/
def markWords (marks : List Nat) (off n : Nat) (poison : Bool) : List Nat :=
  let ws := ((List.range n).map (fun i => (off + i) / 8)).eraseDups
  if poison then ws.filter (fun w => !memNat w marks) ++ marks
  else marks.filter (fun w => !(memNat w ws && decide (off ≤ 8 * w ∧ 8 * w + 8 ≤ off + n)))

/-- R277: bytes written to the core store of a span on a core. -/
def storeWrite (span core off : Nat) (bs : List Byte) (poison : Bool) (s : State) : State :=
  modSpanCore span core (fun c =>
    { c with store := putBytes c.store off bs, storePoison := markWords c.storePoison off bs.length poison }) s

/-- R277: bytes written to the quad store of a span. -/
def quadWrite (span off : Nat) (bs : List Byte) (poison : Bool) (s : State) : State :=
  match spanOf? s span with
  | none => s
  | some x =>
    modSpanCore span (quadCore x off) (fun c =>
      { c with quad := putBytes c.quad off bs, quadPoison := markWords c.quadPoison off bs.length poison }) s

/-- R477: whether a word of n bytes of core store is marked poisoned. -/
def storePoisoned (s : State) (span core off n : Nat) : Bool :=
  ((spanCoreOf? s span core).map (fun c =>
    (List.range n).any (fun i => memNat ((off + i) / 8) c.storePoison))).getD false

/-- R477: whether a word of n bytes of quad store is marked poisoned. -/
def quadPoisoned (s : State) (span off n : Nat) : Bool :=
  match spanOf? s span with
  | none => false
  | some x => ((spanCoreOf? s span (quadCore x off)).map (fun c =>
      (List.range n).any (fun i => memNat ((off + i) / 8) c.quadPoison))).getD false

/-- The bytes of a core-store or quad-store place of the span in focus. -/
def Place.bytes (s : State) (p : Place) (n : Nat) : List Byte :=
  (List.range n).map (fun i =>
    match p with
    | .store off => storeByte s s.g.span s.g.core (off + i)
    | .quad off => quadByte s s.g.span (off + i)
    | .mem _ => 0
    | .param _ => 0
    | .past => 0)

/-- Whether a core-store or quad-store place of the span in focus is poisoned. -/
def Place.poisoned (s : State) (p : Place) (n : Nat) : Bool :=
  match p with
  | .store off => storePoisoned s s.g.span s.g.core off n
  | .quad off => quadPoisoned s s.g.span off n
  | .mem _ => false
  | .param _ => false
  | .past => false

/-- Whether a place is in core store or quad store. -/
def Place.onChip (p : Place) : Bool :=
  match p with
  | .store _ => true
  | .quad _ => true
  | .mem _ => false
  | .param _ => false
  | .past => false

/-- A core-store or quad-store place of the span in focus written. -/
def Place.write (p : Place) (bs : List Byte) (s : State) : State :=
  match p with
  | .store off => storeWrite s.g.span s.g.core off bs false s
  | .quad off => quadWrite s.g.span off bs false s
  | .mem _ => s
  | .param _ => s
  | .past => s

/-! Bytes that outstanding copies hold (R159). -/

/-- Whether two ranges of n and m bytes meet. -/
def meets (a n b m : Nat) : Bool := decide (a < b + m ∧ b < a + n)

/-- R274: the generic address of an on-chip place. -/
def Place.generic (p : Place) : Nat :=
  match p with
  | .store off => 0xFF01 * 2 ^ 48 + off
  | .quad off => 0xFF02 * 2 ^ 48 + off
  | .mem va => va
  | .param va => va
  | .past => 0

/-- R157: whether a copy's source addresses are in core store or quad store. -/
def CopyOp.srcOnChip : CopyOp → Bool
  | .s2g => true
  | .s2s => true
  | .s2p => true
  | .put => true
  | .g2s => false
  | .g2p => false
  | .mcast => false
  | .fill => false
  | .close => false

/-- R157: whether a copy's destination addresses may be in core store or quad store. -/
def CopyOp.dstOnChip : CopyOp → Bool
  | .g2s => true
  | .s2s => true
  | .fill => true
  | .s2g => false
  | .s2p => false
  | .put => false
  | .g2p => false
  | .mcast => false
  | .close => false

/-- R162: the core on which a receiver span holds the store that a multicast writes: the core it was on at issue,
moved with the span if it was restored elsewhere. -/
def receiverCore (s : State) (span core : Nat) : Nat :=
  match spanOf? s span with
  | some x => if x.isQuad then x.core0 + core % 4 else x.core0
  | none => core

/-- R159: whether an outstanding copy has still to read or write n bytes of core or quad store at a generic
address, of the span and core given. -/
def Copy.holds (s : State) (c : Copy) (span core a n : Nat) : Bool :=
  c.lanes.any (fun l => !l.skip && !l.done &&
    ((c.op.srcOnChip && meets l.src c.z a n) || (c.op.dstOnChip && meets l.dst c.z a n) ||
      (c.op == .mcast && c.receivers.any (fun r => r.1 == span && receiverCore s r.1 r.2 == core) &&
        meets (0xFF01 * 2 ^ 48 + l.dst) c.z a n)))

/-- R159: whether a copy that the split in focus issued earlier has still to read or write bytes of an on-chip
place. -/
def copyHeld (s : State) (p : Place) (n : Nat) : Bool :=
  p.onChip && s.eng.copies.any (fun c => c.gid == s.g.gid && c.split == s.sp.num &&
    c.holds s s.g.span s.g.core p.generic n)

/-! Forwarding (R145, R317). -/

/-- The byte a store-buffer entry holds for an offset of its line. -/
def SbEntry.byte? (e : SbEntry) (off : Nat) : Option Byte := (e.bytes.find? (fun b => b.1 == off)).map (fun b => b.2)

/-- The byte of the youngest of some entries that holds an address. -/
def youngest (es : List SbEntry) (dom va : Nat) : Option Byte :=
  (es.filterMap (fun e => if e.dom = dom ∧ e.line = lineOf va then e.byte? (va % 128) else none)).getLast?

/-- R145: the byte that the store buffer forwards to a load of the split in focus: from the region's own
stores, else from the group's committed or draining entries. -/
def forwardByte (s : State) (dom va : Nat) : Option Byte :=
  (youngest (s.ms.entries.filter (fun e => ofRegion s e && !e.tx)) dom va).or
    (youngest (s.ms.entries.filter (fun e => e.gid == s.g.gid && e.st != EntrySt.opened)) dom va)

/-- R316: the aligned 8-byte words that n bytes touch. -/
def wordsOf (va n : Nat) : List Nat := (List.range ((n + 7) / 8)).map (fun i => va / 8 * 8 + 8 * i)

/-- R316: whether a lane of a transaction has written any byte of a word. -/
def wroteWord (t : Tx) (lane w : Nat) : Bool := t.writes.any (fun x => x.1 == lane && decide (w ≤ x.2.1 ∧ x.2.1 < w + 8))

/-- R317: the byte that a lane of the transaction in focus wrote itself. -/
def txByte (t : Tx) (lane va : Nat) : Option Byte :=
  (t.writes.find? (fun w => w.1 == lane && w.2.1 == va)).map (fun w => w.2.2)

/-! The store buffer (R303, R304, R316). -/

/-- What buffering a store's bytes leads to. -/
inductive Buffered
  | held (s : State)
  | wait
  | trap

/-- R304: the open entries of a group. -/
def openCount (s : State) (gid : Nat) : Nat :=
  (s.ms.entries.filter (fun e => e.gid == gid && e.st == EntrySt.opened)).length

/-- R304: the SRAM entries in use on a core. -/
def sramUsed (s : State) (die core : Nat) : Nat :=
  (s.ms.entries.filter (fun e => e.die == die && e.core == core && !e.spilled)).length

/-- R304: where a new entry of the group in focus goes: (spilled, shared), or a wait, or a trap. -/
def entryRoom (s : State) : Except Bool (Bool × Bool) :=
  let opened := openCount s s.g.gid
  let free := 512 - sramUsed s s.g.die s.g.core
  if 128 ≤ opened then .error false
  else if opened < 32 then .ok (free == 0, false)
  else
    let others := s.groups.filter (fun g => g.die == s.g.die && g.core == s.g.core && g.gid != s.g.gid &&
      g.residence == .resident && !g.released)
    let reserve := others.foldl (fun n g => n + (32 - openCount s g.gid)) 0
    let own := (s.ms.entries.filter (fun e =>
      e.gid == s.g.gid && e.split == s.sp.num && e.st != EntrySt.opened && !e.spilled)).length
    if reserve < free then .ok (false, true)
    else if own ≠ 0 ∧ reserve < free + own then .error true
    else .error false

/-- Bytes merged into the bytes of an entry. -/
def mergeBytes (old : List (Nat × Byte)) (new : List (Nat × Byte)) : List (Nat × Byte) :=
  new.foldl (fun m b => mapInsert b.1 b.2 (m.filter (fun x => x.1 != b.1))) old

/-- R303: bytes of a lane merged into an open entry. -/
def SbEntry.merge (lane va : Nat) (bs : List Byte) (e : SbEntry) : SbEntry :=
  { e with bytes := mergeBytes e.bytes (lineBytes va bs), lanes := e.lanes ||| laneBit lane,
           lowVa := if lane < lowLane e.lanes then va else e.lowVa }

/-- R303, R304: bytes of one lane of a store of the split in focus put into the store buffer; opening an entry
sends a claim. -/
def bufferBytes (lane va : Nat) (bs : List Byte) (tx : Bool) (s : State) : Buffered :=
  let dom := domainOf s s.g.ctx va
  let mine (e : SbEntry) : Bool := ofRegion s e && e.dom == dom && e.line == lineOf va && e.tx == tx
  if s.ms.entries.any mine then
    let es := updateFirst mine (SbEntry.merge lane va bs) s.ms.entries
    .held { s with ms := { s.ms with entries := es } }
  else
    match entryRoom s with
    | .error true => .wait
    | .error false => .trap
    | .ok room =>
      let u := fresh s
      let e : SbEntry :=
        { uid := u.1, gid := s.g.gid, split := s.sp.num, ctx := s.g.ctx, die := s.g.die, core := s.g.core,
          dom := dom, line := lineOf va, bytes := lineBytes va bs, lanes := laneBit lane, lowVa := va,
          firstSeq := u.1, st := .opened, claim := .waiting, shared := room.2, spilled := room.1, tx := tx,
          poison := false }
      .held { u.2 with ms := { u.2.ms with entries := u.2.ms.entries ++ [e] } }

/-- R226, R316: a lane of the transaction in focus fails with a cause, unless it has failed already. -/
def txFail (lane cause : Nat) (s : State) : State :=
  { s with g := { s.g with tx := s.g.tx.map (fun t =>
      if t.failed.any (fun f => f.1 == lane) then t else { t with failed := t.failed ++ [(lane, cause)] }) } }

/-- R316: the transactional lines of the group in focus. -/
def txLines (s : State) : Nat :=
  (s.ms.entries.filter (fun e => e.gid == s.g.gid && e.tx && e.st == EntrySt.opened)).length

/-- R226, R316: bytes of a lane of a transactional store, rec being the lane that a fault record names (R308); a lane
that has failed stores nothing, and one that
needs a 33rd line fails with cause 4. -/
def txStore (rec lane va : Nat) (bs : List Byte) (s : State) : Buffered :=
  match s.g.tx with
  | none => .held s
  | some t =>
    if t.failed.any (fun f => f.1 == lane) then .held s
    else if 32 ≤ txLines s ∧ ¬ s.ms.entries.any (fun e => ofRegion s e && e.tx && e.line == lineOf va &&
        e.dom == domainOf s s.g.ctx va) then .held (txFail lane 4 s)
    else
      match bufferBytes rec va bs true s with
      | .held u =>
        let ws := t.writes.filter (fun w => !(w.1 == lane && decide (va ≤ w.2.1 ∧ w.2.1 < va + bs.length)))
        let t2 := { t with writes := ws ++ bs.zipIdx.map (fun b => (lane, va + b.2, b.1)) }
        .held { u with g := { u.g with tx := some t2 } }
      | .wait => .wait
      | .trap => .trap

/-- R303, R304, R423: the global bytes of a store, lane by lane, each with its lane and its transaction's lane; the
answer of a lane that cannot be held is a stall or the store-overflow trap with that lane, and the word then has no
effect. -/
def bufferLanes : List (Nat × Nat × Nat × List Byte) → State → Except (Option (Nat × Nat)) State
  | [], s => .ok s
  | (lane, txLane, va, bs) :: rest, s =>
    let s := attrUse s.g.die s.g.core s.g.ctx va s
    match (if inTx s then txStore lane txLane va bs s else bufferBytes lane va bs false s) with
    | .held t => bufferLanes rest t
    | .wait => .error none
    | .trap => .error (some (lane, va))

end Sys2Proof.Machine
end

