-- ==== Sys2Proof/Machine/Accumulate.lean ====
section
/-! DEFINITION. Major 2: accumulating instructions (R119 to R123). -/

namespace Sys2Proof.Machine

open Sys2Proof

/-- R119: D - A * B, the product negated before the sum. -/
def fnmaExact (m : RMode) (a b d : FVal) : FVal × Flags :=
  let p := mulExact a b
  let r := addExact m p.1.negate d
  (r.1, p.2 ||| r.2)

/-- R119: a fused form on f32. -/
def fused32 (o : V3) (op : RMode → FVal → FVal → FVal → FVal × Flags) (s : State) : Out :=
  o.accWord 1 1 1 (fun t l =>
    let r := elem3 fmtF32 op t.g.fmode (o.a.val t l).toNat (o.b.val t l).toNat (vGet t o.d l).toNat (rngGet t l)
    outRng r.1 r.2.1 (rngGet t l) r.2.2) s

/-- R119: the fused form on packed 16-bit elements. -/
def fusedX2 (f : Fmt) (o : V3) (s : State) : Out :=
  o.accWord 1 1 1 (fun t l =>
    packed2 (fun i r => elem3 f fmaExact t.g.fmode (elemAt 16 i (o.a.val t l)) (elemAt 16 i (o.b.val t l))
      (elemAt 16 i (vGet t o.d l)) r) (rngGet t l)) s

/-- R119. -/
def execFmaF32 (o : V3) (s : State) : Out := fused32 o fmaExact s

/-- R119. -/
def execFnmaF32 (o : V3) (s : State) : Out := fused32 o fnmaExact s

/-- R119. -/
def execFmaF16x2 (o : V3) (s : State) : Out := fusedX2 fmtF16 o s

/-- R119. -/
def execFmaBf16x2 (o : V3) (s : State) : Out := fusedX2 fmtBf16 o s

/-- R119. -/
def execFmaF64 (o : V3) (s : State) : Out :=
  o.accWord 2 2 2 (fun t l =>
    let r := elem3 fmtF64 fmaExact t.g.fmode (o.a.val64 .float t l).toNat (o.b.val64 .float t l).toNat
      (vGet64 t o.d l).toNat (rngGet t l)
    outRng r.1 r.2.1 (rngGet t l) r.2.2) s

/-- R120: the exact A0 * B0 + A1 * B1 + D, rounded once to f32. The terms are summed from the left, so opposite infinities
set invalid beside a NaN addend, and an infinity after a NaN sets nothing (DESIGN CHOICE, log entry 106). -/
def dot2 (f : Fmt) (o : V3) (s : State) : Out :=
  o.accWord 1 1 1 (fun t l =>
    let ftz := ftzOf t.g.fmode
    let rd (x : W) (i : Nat) := readFloat f ftz (elemAt 16 i x)
    let a := o.a.val t l
    let b := o.b.val t l
    let d := readFloat fmtF32 ftz (vGet t o.d l).toNat
    let m := roundMode 6 t.g.fmode (rngGet t l)
    let p0 := mulExact (rd a 0).1 (rd b 0).1
    let p1 := mulExact (rd a 1).1 (rd b 1).1
    let q := addExact m p0.1 p1.1
    let x := addExact m q.1 d.1
    let r := rndTo fmtF32 6 false t.g.fmode (x.1, p0.2 ||| p1.2 ||| q.2 ||| x.2) (rngGet t l)
    outRng r.1 ((rd a 0).2 ||| (rd a 1).2 ||| (rd b 0).2 ||| (rd b 1).2 ||| d.2 ||| r.2.1) (rngGet t l) r.2.2) s

/-- R120. -/
def execFdot2F32Bf16 (o : V3) (s : State) : Out := dot2 fmtBf16 o s

/-- R120. -/
def execFdot2F32F16 (o : V3) (s : State) : Out := dot2 fmtF16 o s

/-- R121. -/
def execMadLoI32 (o : V3) (s : State) : Out :=
  o.accWord 1 1 1 (fun t l => out32 (o.a.val t l * o.b.val t l + vGet t o.d l)) s

/-- R121. -/
def execMadHiN32 (o : V3) (s : State) : Out :=
  o.accWord 1 1 1 (fun t l => out32 (highWord (zext64 (o.a.val t l) * zext64 (o.b.val t l)) + vGet t o.d l)) s

/-- R121: D is the 64-bit pair. -/
def execMadWideN32 (o : V3) (s : State) : Out :=
  o.accWord 2 1 1 (fun t l => out64 (zext64 (o.a.val t l) * zext64 (o.b.val t l) + vGet64 t o.d l)) s

/-- R122. -/
def bfiWord (a b d : W) : W :=
  let w := min (bitsOf b.toNat 15 8) 32
  let p := bitsOf b.toNat 7 0
  let m := BitVec.ofNat 32 ((2 ^ w - 1) * 2 ^ p)
  (d &&& ~~~ m) ||| BitVec.ofNat 32 (a.toNat % 2 ^ w * 2 ^ p)

/-- R122. -/
def execBfiB32 (o : V3) (s : State) : Out :=
  o.accWord 1 1 1 (fun t l => out32 (bfiWord (o.a.val t l) (o.b.val t l) (vGet t o.d l))) s

/-- R123: the sum of the byte products, with a reading of bytes. -/
def dot4 (ext : Nat → Int) (a b d : W) : W :=
  BitVec.ofInt 32 ((List.range 4).foldl (fun x e => x + ext (elemAt 8 e a) * ext (elemAt 8 e b)) d.toInt)

/-- R123. -/
def execBdot4I32I8 (o : V3) (s : State) : Out :=
  o.accWord 1 1 1 (fun t l => out32 (dot4 (toSigned 8) (o.a.val t l) (o.b.val t l) (vGet t o.d l))) s

/-- R123. -/
def execBdot4I32N8 (o : V3) (s : State) : Out :=
  o.accWord 1 1 1 (fun t l => out32 (dot4 (fun n => (n : Int)) (o.a.val t l) (o.b.val t l) (vGet t o.d l))) s

end Sys2Proof.Machine
end

