-- ==== Sys2Proof/Machine/LoadStore.lean ====
section
/-! DEFINITION. Major 6, ops 0 to 25: loads, stores, parameters, scalar memory, prefetch and apertures, and the
events that serve them (R142 to R150, R303 to R305, R317, R318, R321). -/

namespace Sys2Proof.Machine

open Sys2Proof

/-- The spaces of a vector or scalar load (R145, R148). -/
def loadSpaces : List Space := [.glob, .loc, .store, .quad, .param]

/-- The spaces of a store or an atomic (R146, R151). -/
def storeSpaces : List Space := [.glob, .loc, .store, .quad]

/-- R145, R147, R317: a lane of a load as it issues: its address, and the bytes taken at once: core and quad
store, a parameter past its bound, the store buffer, or the lane's own transactional writes. -/
def loadLane (s : State) (n lane txLane : Nat) (p : Place) : LoadLane :=
  match p with
  | .store off => ⟨lane, 0, ((Place.store off).bytes s n).map some, []⟩
  | .quad off => ⟨lane, 0, ((Place.quad off).bytes s n).map some, []⟩
  | .past => ⟨lane, 0, List.replicate n (some 0), []⟩
  | .param va => ⟨lane, va, List.replicate n none, []⟩
  | .mem va =>
    let dom := domainOf s s.g.ctx va
    match s.g.tx with
    | some t =>
      if inTx s then
        ⟨lane, va, (List.range n).map (fun i => txByte t txLane (va + i)), (wordsOf va n).filter (wroteWord t txLane)⟩
      else ⟨lane, va, (List.range n).map (fun i => forwardByte s dom (va + i)), []⟩
    | none => ⟨lane, va, (List.range n).map (fun i => forwardByte s dom (va + i)), []⟩

/-- R148, R316: the transaction lane of a lane of a load or store. -/
def txLaneOf (s : State) (scalar : Bool) (lane : Nat) : Nat :=
  if scalar then (s.g.tx.map (fun t => t.scalarLane)).getD 0 else lane

/-- R145: the load of places that passed their checks goes out; L rises. -/
def sendLoad (kind : LoadKind) (n : Nat) (scalar : Bool) (ps : List (Nat × Nat × Place)) (s : State) : State :=
  let u := fresh s
  let lanes := ps.map (fun p => loadLane s n p.1 (txLaneOf s scalar p.1) p.2.2)
  let d : Load :=
    { uid := u.1, gid := s.g.gid, split := s.sp.num, clause := s.iss.clause, word := s.iss.word, kind := kind,
      lanes := lanes, param := ps.any (fun p => p.2.2 == .past),
      tx := inTx s && ps.any (fun p => match p.2.2 with | .mem _ => true | _ => false),
      txu := (s.g.tx.map (fun t => t.uid)).getD 0 }
  { u.2 with ms := { u.2.ms with loads := u.2.ms.loads ++ [d] }, g := { u.2.g with cntL := u.2.g.cntL + 1 } }

/-- R20, R142 to R145, R159: a load of n bytes in some lanes. -/
def loadEff (kind : LoadKind) (n : Nat) (scalar : Bool) (lanes : List (Nat × W64)) (s : State) : State :=
  if lanes = [] then s
  else if 63 ≤ s.g.cntL then stallWord s
  else
    match placesOf s loadSpaces n lanes with
    | .error t => takeTrap t s
    | .ok ps =>
      if ps.any (fun p => copyHeld s p.2.2 n) then stallWord s
      else
        match ps.find? (fun p => p.2.2.poisoned s n) with
        | some p => abortRegion [storePoison s 0 p.1] s
        | none => sendLoad kind n scalar ps s

/-- R142: the addresses of the active lanes. -/
def laneAddrs (m : MAddr) (s : State) : List (Nat × W64) := (lanesOf s.sp.em).map (fun l => (l, m.addr s l))

/-- R145: a vector load of n bytes. -/
def vecLoad (o : LdOp) (n : Nat) (signed : Bool) (s : State) : Out :=
  let w := max 1 (n / 4)
  issueWord (firstTrap [rangeTrap s ((o.d, w) :: o.mem.off.range 1), liveTrap s [o.d]])
    (regsOf ((o.d, w) :: o.mem.off.range 1)) [o.mem.base]
    (readGuard (regsOf (o.mem.off.range 1)) fun t => loadEff (.vec o.d n signed) n false (laneAddrs o.mem t) t) s

/-- R145. -/
def execLdB8N (o : LdOp) (s : State) : Out := vecLoad o 1 false s
/-- R145. -/
def execLdB8I (o : LdOp) (s : State) : Out := vecLoad o 1 true s
/-- R145. -/
def execLdB16N (o : LdOp) (s : State) : Out := vecLoad o 2 false s
/-- R145. -/
def execLdB16I (o : LdOp) (s : State) : Out := vecLoad o 2 true s
/-- R145. -/
def execLdB32 (o : LdOp) (s : State) : Out := vecLoad o 4 false s
/-- R145. -/
def execLdB64 (o : LdOp) (s : State) : Out := vecLoad o 8 false s
/-- R145. -/
def execLdB128 (o : LdOp) (s : State) : Out := vecLoad o 16 false s

/-! Parameters (R147). -/

/-- R147: the address of offset o of a parameter window. -/
def paramAddr (win o : Nat) : W64 := BitVec.ofNat 64 (0xFF03 * 2 ^ 48 + win * 2 ^ 32 + o)

/-- R147: a parameter load of n bytes at offset o of a window: its trap, or its place. -/
def paramPlace (s : State) (win o n : Nat) : Except TrapKind Place :=
  if o % n ≠ 0 then .error .misaligned
  else
    match bindingOf? s win with
    | none => .error .windowUnbound
    | some b => if b.size < o + n then .ok .past else .ok (.param (b.base + o))

/-- R147: the effect of a parameter load. -/
def paramEff (o : LpOp) (n : Nat) (s : State) : State :=
  let off := o.off.toNat * 2 ^ o.scale
  match (lanesOf s.sp.em).head? with
  | none => s
  | some low =>
    if 63 ≤ s.g.cntL then stallWord s
    else
      match paramPlace s o.win off n with
      | .error k => takeTrap (laneTrap k low (paramAddr o.win off)) s
      | .ok p => sendLoad (.vec o.d n false) n false ((lanesOf s.sp.em).map (fun l => (l, 0, p))) s

/-- R147: a parameter load of n bytes. -/
def paramLoad (o : LpOp) (n : Nat) (s : State) : Out :=
  issueWord (firstTrap [rangeTrap s [(o.d, n / 4)], liveTrap s [o.d]]) (regSpan o.d (n / 4)) [] (paramEff o n) s

/-- R147. -/
def execLdParamB32 (o : LpOp) (s : State) : Out := paramLoad o 4 s
/-- R147. -/
def execLdParamB64 (o : LpOp) (s : State) : Out := paramLoad o 8 s

/-! Stores (R146, R148). -/

/-- R146: the bytes a lane of a store writes. -/
def storeBytes (d : VSrc) (n l : Nat) (s : State) : List Byte :=
  match d with
  | .lit w => natToBytes n w.toNat
  | .reg r => ((List.range (max 1 (n / 4))).flatMap (fun j => natToBytes 4 (vGet s (r + j) l).toNat)).take n

/-- R146, R226, R303, R304: the effect of a store of n bytes in some lanes. -/
def storeEff (n : Nat) (scalar : Bool) (lanes : List (Nat × W64)) (data : Nat → List Byte) (s : State) : State :=
  if lanes = [] then s
  else if 63 ≤ s.g.cntS then stallWord s
  else
    match placesOf s storeSpaces n lanes with
    | .error t => takeTrap t s
    | .ok ps =>
      let chip := ps.filter (fun p => p.2.2.onChip)
      if inTx s && chip.any (fun _ => true) then takeTrap (plainTrap .txState) s
      else if chip.any (fun p => copyHeld s p.2.2 n) then stallWord s
      else
        let glob := ps.filterMap (fun p =>
          match p.2.2 with
          | .mem va => some (p.1, txLaneOf s scalar p.1, va, data p.1)
          | _ => none)
        match bufferLanes glob s with
        | .error none => stallWord s
        | .error (some f) => takeTrap (laneTrap .storeOverflow f.1 (BitVec.ofNat 64 f.2)) s
        | .ok t => chip.foldl (fun u p => p.2.2.write (data p.1) u) t

/-- The vector registers a store's data reads. -/
def storeRange (o : StOp) (n : Nat) : List (Nat × Nat) := o.data.range (max 1 (n / 4)) ++ o.mem.off.range 1

/-- R146: a vector store of n bytes. -/
def vecStore (o : StOp) (n : Nat) (s : State) : Out :=
  issueWord (rangeTrap s (storeRange o n)) (regsOf (storeRange o n)) [o.mem.base]
    (readGuard (regsOf (storeRange o n)) fun t => storeEff n false (laneAddrs o.mem t) (fun l => storeBytes o.data n l t) t) s

/-- R146. -/
def execStB8 (o : StOp) (s : State) : Out := vecStore o 1 s
/-- R146. -/
def execStB16 (o : StOp) (s : State) : Out := vecStore o 2 s
/-- R146. -/
def execStB32 (o : StOp) (s : State) : Out := vecStore o 4 s
/-- R146. -/
def execStB64 (o : StOp) (s : State) : Out := vecStore o 8 s
/-- R146. -/
def execStB128 (o : StOp) (s : State) : Out := vecStore o 16 s

/-- R148: the address of a scalar load or store. -/
def scalarAddr (o : SlOp) (s : State) : W64 := sGet s o.base + (sext64 o.off <<< o.scale)

/-- R148. In the local aperture the single lane is lane 0 (DESIGN CHOICE, log entry 106). -/
def execSldB64 (o : SlOp) (s : State) : Out :=
  issueWord none [] [o.d, o.base] (fun t => loadEff (.scalar o.d) 8 true [(0, scalarAddr o t)] t) s

/-- R148. In the local aperture the single lane is lane 0 (DESIGN CHOICE, log entry 106). -/
def execSstB64 (o : SlOp) (s : State) : Out :=
  issueWord none [] [o.d, o.base]
    (fun t => storeEff 8 true [(0, scalarAddr o t)] (fun _ => natToBytes 8 (sGet t o.d).toNat) t) s

/-! Prefetch (R149). -/

/-- R149: one lane of a prefetch: dropped where its address would fail or is not in the lookaside. -/
def prefetchLane (l : Nat) (a : W64) (s : State) : State :=
  match placeOf s [.glob, .loc] 1 l a with
  | .ok (.mem va) =>
    if (attrHit s s.g.die s.g.core (domainOf s s.g.ctx va) va).isSome then
      match accessIn s s.g.ctx needRd va with
      | .ok leaf => homeTouch s.g.ctx leaf va (attrFill s.g.die s.g.core va leaf s)
      | .error _ => s
    else s
  | .ok _ => s
  | .error _ => s

/-- R149: a prefetch writes no register, never faults and is not counted. -/
def execPrefetch (o : PfOp) (s : State) : Out :=
  issueWord (rangeTrap s (o.mem.off.range 1)) (regsOf (o.mem.off.range 1)) [o.mem.base]
    (readGuard (regsOf (o.mem.off.range 1)) fun t => (laneAddrs o.mem t).foldl (fun u p => prefetchLane p.1 p.2 u) t) s

/-! Apertures (R150). -/

/-- R150: the base of an aperture. -/
def apertureBase (sp : Space) : Nat :=
  match sp with
  | .loc => 0xFF00 * 2 ^ 48
  | .store => 0xFF01 * 2 ^ 48
  | .quad => 0xFF02 * 2 ^ 48
  | .param => 0xFF03 * 2 ^ 48
  | .glob => 0

/-- R150: whether an address lies in an aperture. -/
def inAperture (s : State) (sp : Space) (a : W64) : Bool :=
  decide (apertureBase sp ≤ a.toNat ∧ a.toNat < apertureBase sp + extentOf s sp)

/-- R150: acvt.gen.X: the offset in the aperture, or all ones. -/
def acvtGen (sp : Space) (o : LdOp) (s : State) : Out :=
  vecWord o.d 1 (o.mem.off.range 1) [o.mem.base]
    (fun t l =>
      let a := o.mem.addr t l
      out32 (if inAperture t sp a then lowWord a else BitVec.allOnes 32)) s

/-- R150: acvt.X: the generic address, with no check. -/
def acvtTo (sp : Space) (o : LdOp) (s : State) : Out :=
  vecWord o.d 2 (o.mem.off.range 1) [o.mem.base]
    (fun t l => out64 (BitVec.ofNat 64 (apertureBase sp + (o.mem.addr t l).toNat % 2 ^ 32))) s

/-- R150: atest.X: the active lanes whose address lies in the aperture. -/
def atest (sp : Space) (o : AtestOp) (s : State) : Out :=
  issueWord (rangeTrap s (o.mem.off.range 1)) (regsOf (o.mem.off.range 1)) [o.mem.base]
    (readGuard (regsOf (o.mem.off.range 1)) (maskEff o.k (fun t l => (inAperture t sp (o.mem.addr t l), 0)))) s

/-- R150. -/
def execAcvtGenLocal (o : LdOp) (s : State) : Out := acvtGen .loc o s
/-- R150. -/
def execAcvtGenStore (o : LdOp) (s : State) : Out := acvtGen .store o s
/-- R150. -/
def execAcvtGenQuad (o : LdOp) (s : State) : Out := acvtGen .quad o s
/-- R150. -/
def execAcvtLocal (o : LdOp) (s : State) : Out := acvtTo .loc o s
/-- R150. -/
def execAcvtStore (o : LdOp) (s : State) : Out := acvtTo .store o s
/-- R150. -/
def execAcvtQuad (o : LdOp) (s : State) : Out := acvtTo .quad o s
/-- R150. -/
def execAtestLocal (o : AtestOp) (s : State) : Out := atest .loc o s
/-- R150. -/
def execAtestStore (o : AtestOp) (s : State) : Out := atest .store o s
/-- R150. -/
def execAtestQuad (o : AtestOp) (s : State) : Out := atest .quad o s

/-! The return of a load (R144, R145, R317, R318, R321). -/

/-- R145: the value of a load's bytes in a register j of its destination. -/
def loadedWord (size : Nat) (signed : Bool) (bs : List Byte) (j : Nat) : W :=
  let x := bytesToNat ((bs.drop (4 * j)).take 4)
  if signed ∧ size < 4 then BitVec.ofInt 32 (toSigned (8 * size) x) else BitVec.ofNat 32 x

/-- R145, R148: a load's bytes written to its destination in a lane. -/
def writeLoaded (k : LoadKind) (lane : Nat) (bs : List Byte) (s : State) : State :=
  match k with
  | .scalar d => sSet d (BitVec.ofNat 64 (bytesToNat bs)) s
  | .vec d size signed =>
    { s with g := s.g.setWide d (max 1 (size / 4)) (laneBit lane) (fun _ j => loadedWord size signed bs j) }

/-- R145: the bytes of a lane: those taken at issue, and the served ones. -/
def LoadLane.bytesWith (x : LoadLane) (served : List Byte) : List Byte :=
  x.fwd.zipIdx.map (fun p => p.1.getD (nthD 0 served p.2))

/-- R145: one lane of a plain load served. -/
def serveLane (k : LoadKind) (x : LoadLane) (s : State) : State :=
  if x.taken then writeLoaded k x.lane (x.fwd.map (fun b => b.getD 0)) s
  else
    match accessIn s s.g.ctx needRd x.addr with
    | .error _ => s
    | .ok l =>
      let t := afterRead s.g.die s.g.core s.g.ctx l x.addr s
      writeLoaded k x.lane (x.bytesWith (servedBytes s s.g.die s.g.core l x.addr x.fwd.length)) t

/-- R317: the core's L1 drops a line that a transactional read found at the home, so that a later read of
the split is not older (R290). DEDUCED: log entry 20. -/
def l1Drop (die core dom line : Nat) (s : State) : State :=
  let here (x : L1Line) : Bool := x.die == die && x.core == core && x.dom == dom && x.line == line
  { s with ms := { s.ms with l1 := s.ms.l1.filter (fun x => !here x) } }

/-- R316: a word of a lane's read logged at its value: not if it is logged, or was written by the lane before the read,
nor for a failed lane; a full log fails the lane with cause 3. -/
def logWord (lane : Nat) (wrote : List Nat) (w : Nat) (v : W64) (s : State) : State :=
  match s.g.tx with
  | none => s
  | some t =>
    if t.failed.any (fun f => f.1 == lane) || t.log.any (fun e => e.1 == lane && e.2.1 == w) || memNat w wrote then s
    else if 256 ≤ t.log.length then txFail lane 3 s
    else { s with g := { s.g with tx := some { t with log := t.log ++ [(lane, w, v)] } } }

/-- R318: whether a word of a lane's read differs from the value logged for it. -/
def conflictWord (t : Tx) (lane w : Nat) (v : W64) : Bool :=
  t.log.any (fun e => e.1 == lane && e.2.1 == w && e.2.2 != v)

/-- R321: marks a slice serial-held for a domain. -/
def markHeld (slice dom : Nat) (s : State) : State :=
  if s.ms.heldMarks.any (fun p => p == (slice, dom)) then s
  else { s with ms := { s.ms with heldMarks := s.ms.heldMarks ++ [(slice, dom)] } }

/-- R321: the domain whose serial token a context's groups take. -/
def tokenDomain (s : State) (ctx : Nat) : Nat := ((ctxOf? s ctx).map (fun c => c.tagdom)).getD 0

/-- R321: whether the group in focus holds the serial token. -/
def holdsToken (s : State) : Bool := s.ms.tokens.any (fun t => t.2 == s.g.gid)

/-- R321: requests the serial token for the group in focus, in arrival order. -/
def requestToken (s : State) : State :=
  if s.ms.tokenWaits.any (fun t => t.2 == s.g.gid) then s
  else { s with ms := { s.ms with tokenWaits := s.ms.tokenWaits ++ [(tokenDomain s s.g.ctx, s.g.gid)] } }

/-- R317, R318, R321: one lane of a transactional load served at the home; none is a conflict. -/
def serveTxLane (k : LoadKind) (txLane : Nat) (x : LoadLane) (s : State) : Option State :=
  match s.g.tx, accessIn s s.g.ctx needRd x.addr with
  | some t, .ok l =>
    let words := wordsOf x.addr x.fwd.length
    let at_ (w : Nat) : W64 := BitVec.ofNat 64 (rdNat s (l.phys - x.addr % 128 + w % 128) 8)
    if words.any (fun w => conflictWord t txLane w (at_ w)) then none
    else
      let u := words.foldl (fun u w => logWord txLane x.wrote w (at_ w) u) s
      let u := if inMask t.serial txLane then
          markHeld (sliceKey (homeAgent l) (sliceOf l x.addr)) (tokenDomain s s.g.ctx) u else u
      let u := homeTouch s.g.ctx l x.addr (l1Drop s.g.die s.g.core l.dom (lineOf x.addr) u)
      some (writeLoaded k x.lane (x.bytesWith (rdBytes s l.phys x.fwd.length)) u)
  | _, _ => some s

/-- R317, R318: the lanes of a transactional load served in order. -/
def serveTx (k : LoadKind) : List LoadLane → State → Option State
  | [], s => some s
  | x :: xs, s =>
    let scalar := match k with | .scalar _ => true | .vec _ _ _ => false
    let r := if x.addr = 0 ∧ x.taken then some (writeLoaded k x.lane (x.fwd.map (fun b => b.getD 0)) s)
      else serveTxLane k (txLaneOf s scalar x.lane) x s
    match r with
    | none => none
    | some t => serveTx k xs t

/-- R317: the transaction to which an outstanding load of the group in focus belongs, while it is in progress. -/
def ownTx? (s : State) (d : Load) : Option Tx :=
  if d.tx then s.g.tx.filter (fun t => t.uid == d.txu && t.phase != TxPhase.ended) else none

/-- R284, R290, R317, R321, R430: whether an address of a load must still wait: an older load of the group reads its
line, the home makes it wait, or a commit has locked its slice for a transactional one. -/
def laneWaits (s : State) (d : Load) (va : Nat) : Bool :=
  olderLoad s s.g.ctx s.g.gid d.uid (domainOf s s.g.ctx va) (lineOf va) ||
    match accessIn s s.g.ctx needRd va with
    | .ok l => if d.tx then sliceLocked s (homeAgent l) (sliceOf l va) 0 else readWaits s s.g.die s.g.core l va
    | .error _ => false

/-- R284, R290, R317, R321, R430: whether a load must still wait. -/
def loadWaits (s : State) (d : Load) : Bool := d.lanes.any (fun x => !x.taken && laneWaits s d x.addr)

/-- R321: whether a transactional load has a serial lane while the token is not held. -/
def needsToken (s : State) (d : Load) : Bool :=
  match s.g.tx with
  | none => false
  | some t =>
    let scalar := match d.kind with | .scalar _ => true | .vec _ _ _ => false
    d.tx && d.lanes.any (fun x => inMask t.serial (txLaneOf s scalar x.lane)) && !holdsToken s

/-- R144: a load completes: it is gone and L falls. -/
def loadDone (d : Load) (s : State) : State :=
  { s with ms := { s.ms with loads := s.ms.loads.filter (fun x => x.uid != d.uid) },
           g := { s.g with cntL := s.g.cntL - 1,
                           flags := if d.param then s.g.flags ||| flWindow else s.g.flags } }

/-- R307: whether the split in focus has no region that an abort could discard: it blocks in a closing instruction, or
lanes of an atomic are on their way (R153). -/
def abortWaits (s : State) : Bool :=
  (s.sp.bndPending && s.sp.pend != []) ||
    s.ms.atoms.any (fun a => a.gid == s.g.gid && a.split == s.sp.num && a.lanes != [])

/-- R317: a lane of a load whose transaction has ended is served at the home. -/
def serveHomeLane (k : LoadKind) (x : LoadLane) (s : State) : State :=
  match accessIn s s.g.ctx needRd x.addr with
  | .error _ => if x.taken then writeLoaded k x.lane (x.fwd.map (fun b => b.getD 0)) s else s
  | .ok l =>
    writeLoaded k x.lane (x.bytesWith (rdBytes s l.phys x.fwd.length))
      (homeTouch s.g.ctx l x.addr (l1Drop s.g.die s.g.core l.dom (lineOf x.addr) s))

/-- R144, R145, R306, R307, R317, R318: an outstanding load of the split in focus returns its data, aborts its
region, or waits. A split that has no region to abort takes the fault of its load when it goes on. -/
def returnLoad (d : Load) (s : State) : State :=
  if loadWaits s d then s
  else if (ownTx? s d).isSome && needsToken s d then requestToken s
  else if loadRecs s d ≠ [] then
    (if abortWaits s then s else abortRegion ((loadFaults s).map (fun p => p.2)) s)
  else if d.tx then
    if (ownTx? s d).isSome then
      match serveTx d.kind d.lanes s with
      | none => abortRegion [] s
      | some t => loadDone d t
    else loadDone d (d.lanes.foldl (fun t x => serveHomeLane d.kind x t) s)
  else loadDone d (d.lanes.foldl (fun t x => serveLane d.kind x t) s)

/-- R285: the bytes of a lane that lie in an aligned 8-byte part and have not been taken are taken. -/
def LoadLane.takePart (part : Nat) (served : List Byte) (x : LoadLane) : LoadLane :=
  { x with fwd := x.fwd.zipIdx.map (fun p =>
      if (x.addr + p.2) / 8 = part then p.1.or (served[(x.addr + p.2) % 8]?) else p.1) }

/-- R145, R285: an aligned 8-byte part of a plain load of the split in focus is served before the rest: the lanes of a
load, and the two halves of 16 bytes, have no order among them. Lanes of one address take it together. -/
def servePart (d : Load) (part : Nat) (s : State) : State :=
  let va := 8 * part
  if d.tx || !(d.lanes.any (fun x => !x.taken && (x.addr / 8 == part || (x.addr + x.fwd.length - 1) / 8 == part))) ||
      laneWaits s d va || (readFault? s false va).isSome then s
  else
    match accessIn s s.g.ctx needRd va with
    | .error _ => s
    | .ok l =>
      let bs := servedBytes s s.g.die s.g.core l va 8
      let t := afterRead s.g.die s.g.core s.g.ctx l va s
      let take (x : Load) : Load := { x with lanes := x.lanes.map (LoadLane.takePart part bs) }
      { t with ms := { t.ms with loads := updateFirst (fun x => x.uid == d.uid) take t.ms.loads } }

/-- R285: a part of an outstanding load is served, as the agenda says. -/
def serveLoadPart (load part : Nat) (s : State) : State :=
  match s.ms.loads.find? (fun d => d.uid == load) with
  | none => s
  | some d => onSplit d.gid d.split (servePart d part) s

/-- LOAD_DATA_RETURN (R145). -/
def execLoadDataReturn (load : Nat) (s : State) : Out :=
  match s.ms.loads.find? (fun d => d.uid == load) with
  | none => .next s
  | some d => .next (onSplit d.gid d.split (returnLoad d) s)

/-! Claims, drains and homes (R283, R303, R305, R431). -/

/-- The store-buffer entry of a number. -/
def entryOf? (s : State) (entry : Nat) : Option SbEntry := s.ms.entries.find? (fun e => e.uid == entry)

/-- R303, R322: the answer to an entry's claim: the page's residency and its write permission, at the home, and the
poison of a line that a transaction writes. -/
def claimAnswer (s : State) (e : SbEntry) : Claim :=
  match accessIn s e.ctx needW e.lowVa with
  | .error f => .faulted f.cause f.stage2 f.gpa
  | .ok l => if e.tx && isPoisoned s l.phys then .faulted 3 false 0 else .granted

/-- R427: whether a claim of the same line has been granted at the slice, so that the home's buffer is not consulted. -/
def claimBeside (s : State) (e : SbEntry) : Bool :=
  s.ms.entries.any (fun x => x.uid != e.uid && x.dom == e.dom && x.line == e.line && x.claim == .granted)

/-- STORE_CLAIM_ANSWER (R303, R423, R427): the walk is kept in the home's buffer, and the page in the core's lookaside. -/
def execStoreClaimAnswer (entry : Nat) (s : State) : Out :=
  match entryOf? s entry with
  | none => .next s
  | some e =>
    if e.claim ≠ .waiting then .next s
    else
      let es := updateFirst (fun x => x.uid == entry) (fun x => { x with claim := claimAnswer s e }) s.ms.entries
      let t := { s with ms := { s.ms with entries := es } }
      match accessIn s e.ctx needW e.lowVa with
      | .ok l =>
        let u := attrFill e.die e.core e.lowVa l t
        .next (if claimBeside s e then u else htbFill e.ctx e.lowVa l u)
      | .error _ => .next t

/-- R296, R305, R327, R431, R436: whether a committed entry can be applied now: it is the oldest of its split,
no older load of the split reads its line, and the line does not wait. -/
def canDrain (s : State) (e : SbEntry) (l : Leaf) : Bool :=
  e.st == .committed &&
    !s.ms.entries.any (fun x => x.gid == e.gid && x.split == e.split && x.st == .committed && decide (x.uid < e.uid)) &&
    !olderLoad s e.ctx e.gid e.uid e.dom e.line && !lineWaits s l e.line

/-- R430: whether a store of a die to a line is sent as a write-through (WrH) or is on the home die. -/
def writesThrough (s : State) (die : Nat) (l : Leaf) : Bool :=
  homeAgent l == agentOf s die || !l.pte.c || l.pte.wp || sideWatched s l.phys || isPoisoned s l.phys

/-- R282, R303: an entry leaves the buffer: its core's L1 copy takes the bytes, and it is draining. -/
def leaveBuffer (e : SbEntry) (s : State) : State :=
  let t := l1Update e.die e.core e.dom e.line e.bytes s
  let es := updateFirst (fun x => x.uid == e.uid) (fun x => { x with st := .draining }) t.ms.entries
  { t with ms := { t.ms with entries := es } }

/-- R292: a store-buffer entry as the writer of its line. -/
def SbEntry.writer (e : SbEntry) : Writer := ⟨.store e.uid, e.gid, e.split⟩

/-- R374, R477: what an entry does at its home: at a doorbell page it kicks; one with an uncorrectable error leaves its line
poisoned; any other writes its bytes. -/
def applyEntry (e : SbEntry) (l : Leaf) (s : State) : State :=
  match doorbellPlace? s l.phys with
  | some at_ => groupKick e.ctx at_.1 at_.2 e.bytes s
  | none => if e.poison then poisonLine l.phys s else homeWrite e.ctx e.line e.die e.writer l e.bytes s

/-- HOME_WRITE_APPLY (R283, R305, R430): a committed entry is applied at its true home. -/
def execHomeWriteApply (entry : Nat) (s : State) : Out :=
  match entryOf? s entry with
  | none => .next s
  | some e =>
    match accessIn s e.ctx ⟨false, false, false⟩ e.line with
    | .error _ => .next s
    | .ok l =>
      if canDrain s e l && writesThrough s e.die l && (actingHome s l).isNone then
        .next (applyEntry e l (requestCount (agentOf s e.die) e.ctx e.line l (leaveBuffer e s)))
      else .next s

/-- ACTING_HOME_FORWARD (R430, R431): a committed entry reaches the acting home of its line: the other holders are
invalidated, and once they are the entry is applied there. -/
def execActingHomeForward (entry : Nat) (s : State) : Out :=
  match entryOf? s entry with
  | none => .next s
  | some e =>
    match accessIn s e.ctx ⟨false, false, false⟩ e.line with
    | .error _ => .next s
    | .ok l =>
      match actingHome s l with
      | none => .next s
      | some holder =>
        if ¬ canDrain s e l ∨ invalPending s l.dom e.line then .next s
        else if heldElsewhere s l.dom e.line holder then
          .next (invalidateRemote l.dom e.line (homeAgent l) holder (partTag s e.ctx) Writer.none s)
        else
          let t := actingWrite e.ctx holder e.line e.writer l e.bytes (leaveBuffer e s)
          .next (if localAgent s holder then clockWrite e.die (holder % 4) t else t)

/-- ENTRY_DRAIN_ACK (R305): an applied entry is freed once no invalidation it waits for is left (R432). -/
def execEntryDrainAck (entry : Nat) (s : State) : Out :=
  match entryOf? s entry with
  | none => .next s
  | some e =>
    if e.st = .draining ∧ ¬ s.ms.invals.any (fun v => v.writer.cls == .store entry) then
      .next { s with ms := { s.ms with entries := s.ms.entries.filter (fun x => x.uid != entry) } }
    else .next s

end Sys2Proof.Machine
end

