-- ==== Sys2Proof/Machine/Commit.lean ====
section
/-! DEFINITION. What commits a region and goes beyond its own split: transactions (R226 to R228, R316 to R322) and
the lanes of atomics at homes and keystones (R151 to R154, R311 to R315). -/

namespace Sys2Proof.Machine

open Sys2Proof

/-! Transactions. -/

/-- R226, R316, R320: a transaction of the split in focus starts with a tx mask. -/
def startTx (mask : W) (s : State) : State :=
  let serial := maskOf (fun l => inMask mask l && decide (8 ≤ mapGet 0 s.g.failCounts l))
  let u := fresh s
  let t : Tx := { uid := u.1, split := s.sp.num, mask := mask, scalarLane := lowLane mask, log := [], writes := [],
                  failed := [], serial := serial, token := false, phase := .running, locked := [] }
  { u.2 with g := { u.2.g with tx := some t } }

/-- R321, R227: the lanes of a transaction in the order in which the lane rule takes them: serial lanes first. -/
def txOrder (t : Tx) : List Nat :=
  lanesOf (t.mask &&& t.serial) ++ lanesOf (t.mask &&& ~~~ t.serial)

/-- R227: the words a lane read. -/
def txReads (t : Tx) (lane : Nat) : List Nat := (t.log.filter (fun e => e.1 == lane)).map (fun e => e.2.1)

/-- R227: the aligned 8-byte words a lane wrote. -/
def txWrites (t : Tx) (lane : Nat) : List Nat :=
  ((t.writes.filter (fun w => w.1 == lane)).map (fun w => w.2.1 / 8 * 8)).eraseDups

/-- Whether two lists of words meet. -/
def anyShared (xs ys : List Nat) : Bool := xs.any (fun x => memNat x ys)

/-- Whether a lane of a transaction has failed. -/
def laneFailed (t : Tx) (lane : Nat) : Bool := t.failed.any (fun f => f.1 == lane)

/-- R227: the lane rule over the lanes in order, with the words read and written by the lanes before. -/
def laneRule : List Nat → List Nat → List Nat → Tx → Tx
  | [], _, _, t => t
  | l :: ls, rd, wr, t =>
    if laneFailed t l then laneRule ls rd wr t
    else
      let r := txReads t l
      let w := txWrites t l
      if anyShared (r ++ w) wr || anyShared w rd then laneRule ls rd wr { t with failed := t.failed ++ [(l, 2)] }
      else laneRule ls (r ++ rd) (w ++ wr) t

/-- R319: the lanes of a transaction that have not failed. -/
def survivors (t : Tx) : List Nat := (lanesOf t.mask).filter (fun l => !laneFailed t l)

/-- R319: the slice of an address of a group: its key and leaf. -/
def sliceAt (s : State) (g : Group) (va : Nat) : Option (Nat × Leaf) :=
  match accessIn s g.ctx ⟨false, false, false⟩ va with
  | .ok l => some (sliceKey (homeAgent l) (sliceOf l va), l)
  | .error _ => none

/-- R319: the slices that a lane's log and writes involve. -/
def laneSlices (s : State) (g : Group) (t : Tx) (lane : Nat) : List Nat :=
  ((txReads t lane ++ txWrites t lane).filterMap (fun w => (sliceAt s g w).map (fun p => p.1))).eraseDups

/-- Puts a number into a rising list. -/
def insertNat (n : Nat) : List Nat → List Nat
  | [] => [n]
  | x :: xs => if n < x then n :: x :: xs else if n = x then x :: xs else x :: insertNat n xs

/-- R319: the slices a commit involves, ascending. -/
def txSlices (s : State) (g : Group) (t : Tx) : List Nat :=
  ((survivors t).flatMap (laneSlices s g t)).foldl (fun acc n => insertNat n acc) []

/-- R321: marks the slices that receive a serial lane's writes. -/
def markSerialWrites (g : Group) (t : Tx) (s : State) : State :=
  ((survivors t).filter (inMask t.serial)).foldl (fun u l =>
    (txWrites t l).foldl (fun v w =>
      match sliceAt v g w with
      | some p => markHeld p.1 (tokenDomain v g.ctx) v
      | none => v) u) s

/-- R321: whether a slice is serial-held by another group. -/
def heldByOther (s : State) (gid slice : Nat) : Bool :=
  s.ms.heldMarks.any (fun p => p.1 == slice && s.ms.tokens.any (fun t => t.1 == p.2 && t.2 != gid))

/-- R321: the lanes that touch a serial-held slice fail with cause 6, but for serial lanes, whose group holds its own
domain's token and which no other transaction fails. -/
def failHeld (s : State) (g : Group) (slice : Nat) (t : Tx) : Tx :=
  { t with failed := t.failed ++
      ((survivors t).filter (fun l => !inMask t.serial l && memNat slice (laneSlices s g t l))).map (fun l => (l, 6)) }

/-- R431: a transaction validation recalls the lines of its logged words to their true homes. -/
def recallLog (g : Group) (t : Tx) (s : State) : State :=
  ((survivors t).flatMap (txReads t)).foldl (fun u w =>
    match sliceAt u g w with
    | some p => recallHome w p.2 u
    | none => u) s

/-- R322, R434: the records of the poisoned lines that a commit's logs and writes name, of the transaction of the split
in focus. -/
def txPoison (s : State) (t : Tx) : List FaultRec :=
  let recs (kind : Nat) (ws : Nat → List Nat) : List FaultRec :=
    (survivors t).flatMap (fun l => (ws l).filterMap (fun w =>
      match accessIn s s.g.ctx ⟨false, false, false⟩ w with
      | .ok f => if isPoisoned s f.phys then some (faultOf s kind (laneBit l) w f.dom ⟨3, false, 0⟩) else none
      | .error _ => none))
  recs 8 (txReads t) ++ recs 9 (txWrites t)

/-- R227, R319: the lanes whose logged values are not the current ones fail with cause 1; the value of a line that became
poisoned after the locks were taken is no match. -/
def validate (s : State) (g : Group) (t : Tx) : Tx :=
  { t with failed := t.failed ++
      ((survivors t).filter (fun l => (t.log.filter (fun e => e.1 == l)).any (fun e =>
        match sliceAt s g e.2.1 with
        | some p => isPoisoned s p.2.phys || BitVec.ofNat 64 (rdNat s p.2.phys 8) != e.2.2
        | none => true))).map (fun l => (l, 1)) }

/-- R299: every remote copy of a line is gone. -/
def dropCopies (dom line : Nat) (s : State) : State :=
  { s with ms := { s.ms with rdc := s.ms.rdc.filter (fun r => !(r.dom == dom && r.line == line)) } }

/-- R319: a lane's writes of one line applied at its home. -/
def applyTxLine (g : Group) (t : Tx) (lane line : Nat) (s : State) : State :=
  match accessIn s g.ctx ⟨false, false, false⟩ line with
  | .error _ => s
  | .ok l =>
    let bs := (t.writes.filter (fun w => w.1 == lane && lineOf w.2.1 == line)).map (fun w => (w.2.1 % 128, w.2.2))
    let u := dropCopies l.dom line (recallHome line l s)
    l1Update g.die g.core l.dom line bs (homeWrite g.ctx line g.die Writer.none l bs u)

/-- R319: the writes of the surviving lanes applied, all at once. -/
def applyTx (g : Group) (t : Tx) (s : State) : State :=
  (survivors t).foldl (fun u l =>
    (((t.writes.filter (fun w => w.1 == l)).map (fun w => lineOf w.2.1)).eraseDups).foldl
      (fun v line => applyTxLine g t l line v) u) s

/-- The transaction of a group replaced. -/
def modTx (gid : Nat) (f : Tx → Tx) (s : State) : State := modGroup gid (fun g => { g with tx := g.tx.map f }) s

/-- TX_SLICE_RECEIVE (R319, R321, R322): every slice has received its share of the commit; poison found then aborts the
region, no lock being taken yet. -/
def execTxSliceReceive (gid : Nat) (s : State) : Out :=
  match groupOf? s gid with
  | none => .next s
  | some g =>
    match g.tx with
    | none => .next s
    | some t =>
      if t.phase = .sent then
        .next (onSplit gid t.split (fun u =>
          if txPoison u t ≠ [] then abortRegion (txPoison u t) u
          else modTx gid (fun x => { x with phase := .received }) (markSerialWrites g t u)) s)
      else .next s

/-- TX_SLICE_LOCK (R319, R321): the commit takes the lock of its next slice, unless another commit holds it;
lanes that touch a slice held serial by another group fail. -/
def execTxSliceLock (gid : Nat) (s : State) : Out :=
  match groupOf? s gid with
  | none => .next s
  | some g =>
    match g.tx with
    | none => .next s
    | some t =>
      if t.phase = .received ∨ t.phase = .locking then
        match (txSlices s g t).find? (fun n => !memNat n t.locked) with
        | none => .next (modTx gid (fun x => { x with phase := .locking }) s)
        | some n =>
          if heldByOther s gid n && failHeld s g n t != t then .next (modTx gid (fun x => failHeld s g n x) s)
          else if sliceLocked s (n / 256) (n % 256) gid then .next s
          else .next (modTx gid (fun x => { x with phase := .locking, locked := x.locked ++ [n] }) s)
      else .next s

/-- SERIAL_TOKEN_GRANT (R321): the domain's token goes to the first group that waits for it. -/
def execSerialTokenGrant (dom : Nat) (s : State) : Out :=
  if s.ms.tokens.any (fun t => t.1 == dom) then .next s
  else
    match s.ms.tokenWaits.find? (fun t => t.1 == dom) with
    | none => .next s
    | some w => .next (modTx w.2 (fun t => { t with token := true })
        { s with ms := { s.ms with tokens := s.ms.tokens ++ [w],
                                   tokenWaits := s.ms.tokenWaits.filter (fun t => t.2 != w.2) } })

/-- R227: tx.abort ends the transaction of the split in focus: every lane fails with cause 5. The region goes
on, and its abort would start the transaction again. -/
def giveUpTx (code : Nat) (s : State) : State :=
  match s.g.tx with
  | none => s
  | some t =>
    let u := endTx 0 ((lanesOf t.mask).map (fun l => (l, 5))) (some code) s
    let t2 : Tx := { t with log := [], writes := [], failed := [], phase := .ended, token := false, locked := [] }
    { u with g := { u.g with tx := some t2 } }

/-! Atomics. -/

/-- R152: the size of the element of an atomic. -/
def atomSize (op : Nat) : Nat := if op = 27 ∨ op = 38 ∨ op = 40 then 8 else 4

/-- R152: the number of registers an atomic's operand takes. -/
def atomRegs (op : Nat) : Nat := if op = 40 then 4 else if op = 27 ∨ op = 38 ∨ op = 39 then 2 else 1

/-- R152: the floating-point sum of a format: nearest even, subnormals kept, canonical NaN. -/
def atomFadd (f : Fmt) (m x : Nat) : Nat := (elem2 f addExact 0 m x 0).1

/-- R152: the new memory value of an atomic op; y is the new value of a compare-and-swap. -/
def atomResult (op m : Nat) (x y : W64) : Nat :=
  let a := x.toNat
  match op with
  | 26 => (m + a) % 2 ^ 32
  | 27 => (m + a) % 2 ^ 64
  | 28 => atomFadd fmtF32 m (a % 2 ^ 32)
  | 29 => atomFadd fmtBf16 (m % 65536) (a % 65536) + atomFadd fmtBf16 (m / 65536) (a / 65536 % 65536) * 65536
  | 30 => if toSigned 32 m ≤ toSigned 32 a then m else a % 2 ^ 32
  | 31 => if toSigned 32 a ≤ toSigned 32 m then m else a % 2 ^ 32
  | 32 => min m (a % 2 ^ 32)
  | 33 => max m (a % 2 ^ 32)
  | 34 => m &&& (a % 2 ^ 32)
  | 35 => m ||| (a % 2 ^ 32)
  | 36 => m ^^^ (a % 2 ^ 32)
  | 37 => a % 2 ^ 32
  | 38 => a
  | 39 => if m = a % 2 ^ 32 then y.toNat % 2 ^ 32 else m
  | _ => if m = a then y.toNat else m

/-- R151, R152, R87: the operands of a lane of an atomic. -/
def atomOperand (op d : Nat) (lit : Option W) (l : Nat) (s : State) : W64 × W64 :=
  match lit with
  | some w => (if op = 27 then sext64 w else zext64 w, 0)
  | none =>
    if op = 39 then (zext64 (vGet s d l), zext64 (vGet s (d + 1) l))
    else if op = 40 then (vGet64 s d l, vGet64 s (d + 2) l)
    else if atomSize op = 8 then (vGet64 s d l, 0)
    else (zext64 (vGet s d l), 0)

/-- R152: the returned value of a lane written to v(d) of a group, and the lane's done bit set. -/
def atomReturn (a : Atom) (lane old : Nat) (s : State) : State :=
  let t :=
    match a.d with
    | none => s
    | some d =>
      modGroup a.gid (fun g =>
        if atomSize a.op = 8 then
          g.setWide d 2 (laneBit lane) (fun _ j => BitVec.ofNat 32 (old / 2 ^ (32 * j)))
        else g.setLanes d (laneBit lane) (fun _ => BitVec.ofNat 32 old)) s
  modSplits a.gid (fun p => if p.num = a.split then { p with done := p.done ||| laneBit lane } else p) t

/-- An outstanding atomic changed. -/
def modAtom (uid : Nat) (f : Atom → Atom) (s : State) : State :=
  { s with ms := { s.ms with atoms := updateFirst (fun a => a.uid == uid) f s.ms.atoms } }

/-- R153: a lane leaves an atomic's lanes. -/
def atomDrop (uid lane : Nat) (s : State) : State :=
  modAtom uid (fun a => { a with lanes := a.lanes.filter (fun x => x.1 != lane) }) s

/-- R306, R419: the fault that an atomic lane of a group meets at its home. -/
def atomFault? (s : State) (ctx va : Nat) : Option WalkFault :=
  match accessIn s ctx needRdW va with
  | .error f => some f
  | .ok l => if isPoisoned s l.phys then some ⟨3, false, 0⟩ else none

/-- R308: the record of an atomic lane's fault. -/
def atomRec (s : State) (g : Group) (a : Atom) (lane va : Nat) (f : WalkFault) : FaultRec :=
  { vaddr := va, gpa := if f.stage2 then f.gpa else 0, lanes := laneBit lane, domain := domainOf s g.ctx va,
    core := g.core, gslot := g.gslot, kind := 2, cause := f.cause, stage2 := f.stage2, last := false,
    split := a.split, die := g.die, seq := 0, ctx := g.ctx }

/-- R311, R286: one lane of an atomic performed at the home of its line, one read and one write of the word. -/
def homeAtomic (g : Group) (a : Atom) (lane va : Nat) (x y : W64) (l : Leaf) (s : State) : State :=
  let n := atomSize a.op
  let u := recallHome va l s
  let old := rdNat u l.phys n
  let bs := lineBytes va (natToBytes n (atomResult a.op old x y))
  let v := homeWrite g.ctx (lineOf va) g.die ⟨.atomic, a.gid, a.split⟩ l bs (attrFill g.die g.core va l u)
  atomReturn a lane old (atomDrop a.uid lane (l1Update g.die g.core l.dom (lineOf va) bs v))

/-- R151, R154, R290, R311: whether a lane of an atomic can be performed now: no lower lane of it at the same
address is left, the group's earlier loads and stores of the line are done, and the line does not wait. -/
def atomReady (s : State) (g : Group) (a : Atom) (lane va : Nat) : Bool :=
  !a.lanes.any (fun x => decide (x.1 < lane) && x.2.1 == va) &&
    lineReady s g.ctx a.gid a.uid (domainOf s g.ctx va) (lineOf va) &&
    match accessIn s g.ctx needRdW va with
    | .ok l => !lineWaits s l va
    | .error _ => true

/-- R153, R311: a lane of an atomic reaches its home: it is performed, or its fault is recorded and it is left
not done. -/
def performLane (a : Atom) (lane : Nat) (s : State) : State :=
  match groupOf? s a.gid, a.lanes.find? (fun x => x.1 == lane) with
  | some g, some (_, va, x, y) =>
    if atomReady s g a lane va then
      match atomFault? s g.ctx va with
      | some f =>
        modAtom a.uid (fun b => { b with faults := b.faults ++ [atomRec s g a lane va f] }) (atomDrop a.uid lane s)
      | none =>
        match accessIn s g.ctx needRdW va with
        | .ok l => homeAtomic g a lane va x y l s
        | .error _ => s
    else s
  | _, _ => s

/-- R153, R477: the record of an atomic lane that meets a poisoned word of core store or quad store. -/
def chipRec (s : State) (g : Group) (a : Atom) (lane : Nat) : FaultRec :=
  { atomRec s g a lane 0 ⟨3, false, 0⟩ with domain := ((ctxOf? s g.ctx).map (fun c => c.tagdom)).getD 0 }

/-- R314: one lane of a request applied to core store or quad store by the keystone; a lane whose word is poisoned is
left not done (R153). -/
def keystoneLane (g : Group) (a : Atom) (s : State) (e : Nat × Nat × W64 × W64) : State :=
  let n := atomSize a.op
  let off := e.2.1 % 2 ^ 48
  let isQuad := bitsOf e.2.1 55 48 == 2
  if (if isQuad then quadPoisoned s g.span off n else storePoisoned s g.span g.core off n) then
    modAtom a.uid (fun b => { b with faults := b.faults ++ [chipRec s g a e.1] }) (atomDrop a.uid e.1 s)
  else
  let byte (i : Nat) : Byte := if isQuad then quadByte s g.span (off + i) else storeByte s g.span g.core (off + i)
  let old := bytesToNat ((List.range n).map byte)
  let bs := natToBytes n (atomResult a.op old e.2.2.1 e.2.2.2)
  let t := if isQuad then quadWrite g.span off bs false s else storeWrite g.span g.core off bs false s
  atomReturn a e.1 old (atomDrop a.uid e.1 t)

/-- R313: the keystone requests of a quad, in queue order. -/
def keystoneQueue (s : State) (die quad : Nat) : List Atom :=
  s.ms.atoms.filter (fun a => a.keystone && a.lanes != [] &&
    match groupOf? s a.gid with
    | some g => g.die == die && g.core / 4 == quad
    | none => false)

/-- R313: whether the keystone's queue has no entry for a group: its reserved entry is taken and the shared ones
are full. -/
def keystoneFull (s : State) (g : Group) : Bool :=
  let q := keystoneQueue s g.die (g.core / 4)
  q.any (fun a => a.gid == g.gid) && decide (16 ≤ q.length - ((q.map (fun a => a.gid)).eraseDups).length)

/-- R153: the atomics of the split in focus. -/
def ownAtoms (s : State) : List Atom := s.ms.atoms.filter (fun a => a.gid == s.g.gid && a.split == s.sp.num)

/-- R151, R153: the lanes of an atomic that are active and not done go to their homes and to the keystone; L
rises by 1. -/
def sendAtom (op : Nat) (d : Option Nat) (lit : Option W) (ps : List (Nat × Nat × Place)) (s : State) : State :=
  if ps = [] then s
  else
    let arg (l : Nat) : W64 × W64 := atomOperand op (d.getD 0) lit l s
    let home := ps.filterMap (fun p =>
      match p.2.2 with
      | .mem va => some (p.1, va, (arg p.1).1, (arg p.1).2)
      | _ => none)
    let chip := ps.filterMap (fun p => if p.2.2.onChip then some (p.1, p.2.1, (arg p.1).1, (arg p.1).2) else none)
    let mk (u : Nat) (k : Bool) (ls : List (Nat × Nat × W64 × W64)) : Atom :=
      { uid := u, gid := s.g.gid, split := s.sp.num, clause := s.iss.clause, word := s.iss.word, op := op, d := d,
        keystone := k, lanes := ls, faults := [] }
    let u := fresh s
    let v := fresh u.2
    { v.2 with ms := { v.2.ms with atoms := v.2.ms.atoms ++ [mk u.1 false home, mk v.1 true chip] },
               g := { v.2.g with cntL := v.2.g.cntL + 1 } }

/-- R153: the places of the lanes of an atomic that are active and not done. -/
def atomPlaces (op : Nat) (m : MAddr) (s : State) : Except Trap (List (Nat × Nat × Place)) :=
  placesOf s storeSpaces (atomSize op) ((lanesOf (s.sp.em &&& ~~~ s.sp.done)).map (fun l => (l, m.addr s l)))

/-- R153: the atomics of the split in focus are gone and L falls. -/
def atomsGone (s : State) : State :=
  if ownAtoms s = [] then s
  else
    { s with ms := { s.ms with atoms := s.ms.atoms.filter (fun a => !(a.gid == s.g.gid && a.split == s.sp.num)) },
             g := { s.g with cntL := s.g.cntL - 1 } }

end Sys2Proof.Machine
end

