-- ==== Sys2Proof/Machine/Blocking.lean ====
section
/-! DEFINITION. Words that wait: the parts of a blocked word, run in order as far as they go (R205, R300). -/

namespace Sys2Proof.Machine

open Sys2Proof

/-- What one part of a blocked word leads to: it is done, it waits (as a part, perhaps another), or the word is
over with all its parts: a trap, an abort, or the end of the split. -/
inductive Ran
  | done (s : State)
  | wait (m : Micro) (s : State)
  | over (s : State)

/-- A part that waits unless a condition holds. -/
def waitUntil (c : Bool) (m : Micro) (s : State) : Ran := if c then .done s else .wait m s

/-! Region boundaries. -/

/-- R300: the boundary of the region of the split in focus; more are the faults met beside the region's. -/
def runBoundary (m : Micro) (more : List FaultRec) (s : State) : Ran :=
  if !claimsAnswered s then .wait m s
  else
    let rs := regionFaults s ++ more
    if rs ≠ [] then .over (abortRegion rs s) else .done (commitRegion s)

/-- R220, R308: the fault that the translation of a watched word meets at its home. -/
def watchFault (s : State) (addr : Nat) : List FaultRec :=
  match accessIn s s.g.ctx needRd addr with
  | .ok _ => []
  | .error f => [faultOf s 10 1 addr (domainOf s s.g.ctx addr) f]

/-- R20, R65: whether a counter has fallen to a field; 15 does not wait. -/
def counterMet (c v : Nat) : Bool := v == 15 || decide (c ≤ v)

/-- R288: whether the split in focus has no load or atomic outstanding. -/
def loadsReturned (s : State) : Bool :=
  !s.ms.loads.any (fun d => d.gid == s.g.gid && d.split == s.sp.num) && ownAtoms s == []

/-- R292: whether an invalidation is one that a scope waits for: none below the package, those of the package's own
remote data caches until they are acknowledged there, and every one until the home has its acknowledgement. -/
def Inval.counts (s : State) (sc : Scope) (v : Inval) : Bool :=
  match sc with
  | .pkg => localAgent s v.agent && !v.acked
  | .pod => true
  | .group => false
  | .core => false
  | .quad => false
  | .die => false

/-- R292: whether the committed stores of the group in focus are performed at a scope: they have been applied at
the homes, and for the wider scopes the copies have been invalidated and the homes have acknowledged. -/
def storesPerformed (s : State) (sc : Scope) : Bool :=
  !s.ms.entries.any (fun e => e.gid == s.g.gid && e.st == EntrySt.committed) &&
    !s.ms.invals.any (fun v => v.counts s sc && v.writer.gid == s.g.gid &&
      match v.writer.cls with
      | .store _ => true
      | _ => false) &&
    (sc != .pod || !s.ms.entries.any (fun e => e.gid == s.g.gid && e.st != EntrySt.opened))

/-- R288, R297: whether the writes of the split in focus through atomics, copies and tile operations are performed at a
scope, of the classes asked for: they are applied at their homes already. -/
def joinsPerformed (s : State) (sc : Scope) (atomics copies tiles : Bool) : Bool :=
  !s.ms.invals.any (fun v => v.counts s sc && v.writer.gid == s.g.gid && v.writer.split == s.sp.num &&
    match v.writer.cls with
    | .atomic => atomics
    | .copy => copies
    | .tile => tiles
    | _ => false)

/-! Barriers (R213, R215, R218). -/

/-- R213, R215: the arrival of the split in focus at a barrier register, and the wait for its phase. -/
def runArrive (b : Nat) (s : State) : Ran :=
  let p := (barGet s b).phase
  match arriveOn s.g.span b s with
  | none => .over (takeTrap (plainTrap .barrierState) s)
  | some t => waitUntil ((barGet t b).phase != p) (.barWait b p) t

/-- R262: the hardware barrier of a level on a die of a viaduct. -/
def hwBarOf (v : Viaduct) (level die : Nat) : HwBar :=
  (v.bars.find? (fun b => b.level == level && (level != 3 || b.die == die))).getD ⟨level, die, [], [], 0⟩

/-- R262: a hardware barrier of a viaduct replaced. -/
def setHwBar (v : Viaduct) (b : HwBar) : Viaduct :=
  { v with bars := v.bars.filter (fun x => !(x.level == b.level && (b.level != 3 || x.die == b.die))) ++ [b] }

/-- R218: the group in focus arrives at a hardware barrier. -/
def runHwArrive (level : Nat) (s : State) : Ran :=
  match viaductOf? s s.g.viaduct with
  | none => .wait (.hwArrive level) s
  | some v =>
    let b := hwBarOf v level s.g.die
    .wait (.hwWait level b.phases)
      (modViaduct v.uid (fun x => setHwBar x { b with arrived := b.arrived ++ [s.g.gid] }) s)

/-! Waits on slots (R221, R222, R329, R331). -/

/-- The condition slots a mask names, by number. -/
def namedSlots (mask : Nat) : List Nat := [0, 1, 2, 3].filter (fun i => bitOf mask i)

/-- A mask of condition slots. -/
def slotMask (is : List Nat) : Nat := is.foldl (fun m i => m + 2 ^ i) 0

/-- R221, R222: the wait ends: %wstat is written and the fired slots are consumed. -/
def endWait (mask : Nat) (timeout : Bool) (s : State) : State :=
  let f := (namedSlots mask).filter (fun i => (s.g.slot i).st == .fired)
  let forced := f.filter (fun i => (s.g.slot i).forced)
  let w := slotMask f + slotMask forced * 16 + bit01 timeout * 256 + bit01 s.sp.restored * 512
  let g := f.foldl (fun g i => g.setSlot i (Slot.none (g.slot i).gen)) s.g
  { s with g := { g with wstat := BitVec.ofNat 64 w, wakePending := g.wakePending.filter (fun i => !memNat i f) },
           sp := { s.sp with restored := false } }

/-- R221: the wait on the slots of a mask. -/
def runSlotWait (mask : Nat) (all : Bool) (deadline : Option Nat) (s : State) : Ran :=
  let named := (namedSlots mask).filter (fun i => (s.g.slot i).st != .empty)
  let fired (i : Nat) : Bool := (s.g.slot i).st == .fired
  let holds := if all then named.all fired else named.any fired
  let late := named.all (fun i => (s.g.slot i).answered) &&
    (match deadline with
     | some d => decide (d ≤ s.tick)
     | none => false)
  if holds then .done (endWait mask false s)
  else if late then .done (endWait mask true s)
  else .wait (.slotWait mask all deadline) s

/-! Splits (R209 to R211, R269). -/

/-- R209: the split in focus divides, after its boundary: the lanes taken go to the target. -/
def runDivide (taken : W) (target : Nat) (s : State) : Ran :=
  let f := s.sp.em &&& ~~~ taken
  if splitCount s < 4 then
    let used := (insertSplit s.sp s.g.splits).map (fun p => p.num)
    let n := ((List.range 4).find? (fun i => !memNat i used)).getD 3
    let child : Split :=
      { s.sp with num := n, member := taken, em := taken, pc := target, widx := 0, regionPc := target,
                  regionWord := 0, pend := [], ckpt := { s.sp.ckpt with em := taken } }
    .done { s with sp := { s.sp with member := f, em := f }, g := { s.g with splits := insertSplit child s.g.splits } }
  else if 6 < s.sp.stack.length then .over (takeTrap (plainTrap .splitStack) s)
  else .done { s with sp := { s.sp with
      em := f, stack := ⟨.path, taken, target⟩ :: ⟨.merge, s.sp.em, 0⟩ :: s.sp.stack } }

/-- R210: the top entry of the reconvergence stack is popped. -/
def runPop (s : State) : Ran :=
  match s.sp.stack with
  | [] => .done s
  | e :: rest =>
    let p := { s.sp with stack := rest, em := e.mask }
    match e.kind with
    | .path => .done { s with sp := { p with pc := e.target, widx := 0 } }
    | .merge => .done { s with sp := p }

/-- Whether a split waits at a join. -/
def Split.joining (p : Split) : Bool := p.pend.head? == some .joinWait

/-- R210: splits that wait at one join as one: the lowest number, all strands. -/
def mergeJoined (ps : List Split) : Option Split :=
  ps.head?.map (fun k =>
    let em := ps.foldl (fun m p => m ||| p.em) 0
    { k with member := ps.foldl (fun m p => m ||| p.member) 0, em := em, pend := [], ckpt := { k.ckpt with em := em } })

/-- R210: the join of the split in focus: when every other split waits at a join, those at equal addresses
merge, and each merged split goes on. -/
def runJoin (s : State) : Ran :=
  if s.g.splits.all Split.joining then
    let all := insertSplit s.sp s.g.splits
    let places := (all.map (fun p => p.pendAt)).eraseDups
    let merged := places.filterMap (fun a => mergeJoined (all.filter (fun p => p.pendAt == a)))
    let ours := merged.find? (fun p => p.pendAt == s.sp.pendAt)
    match ours with
    | none => .wait .joinWait s
    | some k =>
      let t := all.foldl (fun u p =>
        match merged.find? (fun q => q.pendAt == p.pendAt) with
        | some q => if q.num = p.num then u else renumberSplit s.g.gid p.num q.num u
        | none => u) s
      .done { t with sp := k, g := { t.g with splits := merged.filter (fun p => p.num != k.num) } }
  else .wait .joinWait s

/-- R211, R328: the strands in em end; a split without strands ends, and a group without splits exits. -/
def runExit (s : State) : Ran :=
  let rest := s.sp.member &&& ~~~ s.sp.em
  if rest ≠ 0 then .done { s with sp := { s.sp with member := rest, em := rest } }
  else
    let t := renumberSplit s.g.gid s.sp.num endedSplit s
    let u := { t with sp := { t.sp with member := 0, em := 0 } }
    if s.g.splits = [] then .over (withdrawGroup u.g { u with g := { u.g with exited := true } }) else .over u

/-- R269: the splits of the group in focus merge, after both boundaries. -/
def runMerge (other : Nat) (s : State) : Ran :=
  match s.g.splits.find? (fun p => p.num == other) with
  | none => .done s
  | some o =>
    match o.pend with
    | .mergeReady :: _ =>
      let n := min s.sp.num o.num
      let t := renumberSplit s.g.gid (max s.sp.num o.num) n s
      .done { t with
        sp := { t.sp with num := n, member := t.sp.member ||| o.member, em := t.sp.em ||| o.em },
        g := { t.g with splits := t.g.splits.filter (fun p => p.num != other) } }
    | .boundary :: .mergeReady :: _ => .wait (.mergeWith other) s
    | _ => .done s

/-- R269: the other of two merging splits waits until the first has merged with it or goes on alone. -/
def runMergeReady (s : State) : Ran :=
  waitUntil (!s.g.splits.any (fun p => p.pend.any (fun m => m == .mergeWith s.sp.num))) .mergeReady s

/-! Queues (R198). -/

/-- A queue register of a group replaced. -/
def Group.setQueue (q : Nat) (x : QueueReg) (g : Group) : Group := { g with queues := g.queues.set q x }

/-- A queue register of a group. -/
def Group.queue (g : Group) (q : Nat) : QueueReg := nthD QueueReg.unbound g.queues q

/-- R193: the oldest held entry of a queue register. -/
def QueueReg.oldest (q : QueueReg) : Option QEntry := q.entries.find? (fun e => e.taken == none)

/-- R198: a blocked pop takes the oldest held entry, which is released at once. -/
def runPopQueue (q d : Nat) (s : State) : Ran :=
  match (s.g.queue q).oldest with
  | none => .wait (.queueWait q d) s
  | some e =>
    let r := s.g.queue q
    let t := vSet d (fun l => mapGet 0 e.data l) s
    .done { t with g := t.g.setQueue q { r with entries := r.entries.filter (fun x => x.seq != e.seq) } }

/-! Transactions and atomics. -/

/-- R227, R316, R321, R322: tx.end: the region's claims and transactional loads, the token of serial lanes, and the lane
rule; then the logs and writes are sent. -/
def runTxSend (s : State) : Ran :=
  match s.g.tx with
  | none => .done s
  | some t =>
    if !claimsAnswered s || s.ms.loads.any (fun d => (ownTx? s d).isSome && d.gid == s.g.gid && d.split == s.sp.num) then
      .wait .txSend s
    else
      let rs := regionFaults s ++ txPoison s t
      if rs ≠ [] then .over (abortRegion rs s)
      else if (survivors t).any (inMask t.serial) && !holdsToken s then .wait .txSend (requestToken s)
      else .done { s with g := { s.g with tx := some { laneRule (txOrder t) [] [] t with phase := .sent } } }

/-- R20, R153, R313: the lanes of an atomic that are active and not done are sent, once L and the keystone's queue have
room; the region PC is the atomic's word. -/
def runAtomIssue (op : Nat) (o : CasOp) (lit : Option W) (s : State) : Ran :=
  let t := settleCheckpoint s.iss.clause s.iss.word s
  let t := { t with sp := { t.sp with bndPending := false } }
  match atomPlaces op o.mem t with
  | .error e => .over (takeTrap e t)
  | .ok ps =>
    if ps ≠ [] ∧ (63 ≤ t.g.cntL ∨ (ps.any (fun p => p.2.2.onChip) ∧ keystoneFull t t.g)) then .wait (.atomIssue op o lit) t
    else .done (sendAtom op (if lit.isSome then none else some o.d) lit ps t)

/-- R308: records in ascending order of their lanes. -/
def byLane (rs : List FaultRec) : List FaultRec :=
  (List.range 32).flatMap (fun l => rs.filter (fun r => lowLane r.lanes == l))

/-- R153: an atomic completes when every lane is done; lanes that faulted abort it. -/
def runAtomWait (s : State) : Ran :=
  let as := ownAtoms s
  if as.any (fun a => a.lanes != []) then .wait .atomWait s
  else
    let rs := byLane (as.flatMap (fun a => a.faults))
    if rs ≠ [] then .over (abortRegion rs (atomsGone s)) else .done (atomsGone s)

/-! The runner. -/

/-- One part of a blocked word of the split in focus. -/
def runMicro (m : Micro) (s : State) : Ran :=
  match m with
  | .boundary => runBoundary .boundary [] s
  | .boundaryAt a => runBoundary (.boundaryAt a) (watchFault s a) s
  | .counters l st c t => waitUntil (counterMet s.g.cntL l && counterMet s.g.cntS st && counterMet s.g.cntC c &&
      counterMet s.g.cntT t) m s
  | .loadsDone => waitUntil (loadsReturned s) m s
  | .performed sc => waitUntil (storesPerformed s sc) m s
  | .joined sc at_ cw mw => waitUntil (joinsPerformed s sc at_ cw mw) m s
  | .drained => waitUntil (storesPerformed s .die) m s
  | .acquire sc => .done (if 2 ≤ sc.rank then l1Invalidate s.g.die s.g.core s else s)
  | .liveFree n => waitUntil (!(pendingV s none).any (fun r => decide (r < n))) m s
  | .setLive n => .done { s with g := { s.g with live := n } }
  | .barArrive b => runArrive b s
  | .barWait b p => waitUntil ((barGet s b).phase != p) m s
  | .hwArrive level => runHwArrive level s
  | .hwWait level p =>
    waitUntil (((viaductOf? s s.g.viaduct).map (fun v => decide (p < (hwBarOf v level s.g.die).phases))).getD false) m s
  | .arm n c => .done (armSlot n c true false s)
  | .slotWait mask all d => runSlotWait mask all d s
  | .txStart mask => if s.g.tx.isSome then .wait m s else .done (startTx mask s)
  | .txSend => runTxSend s
  | .txWait => waitUntil (s.g.tx.all (fun t => t.split != s.sp.num)) m s
  | .quiesce _ _ _ => .wait m s
  | .xshf _ _ _ _ _ => .wait m s
  | .divide t a => runDivide t a s
  | .popPath => runPop s
  | .joinWait => runJoin s
  | .exitDo => runExit s
  | .queueWait q d => runPopQueue q d s
  | .atomIssue op o lit => runAtomIssue op o lit s
  | .atomWait => runAtomWait s
  | .mergeWith o => runMerge o s
  | .mergeReady => runMergeReady s

/-- R21, R300: the region PC of a region that has not begun its first clause is the point where it will begin. -/
def settleRegion (s : State) : State := if s.sp.bndPending then settleCheckpoint s.sp.pc s.sp.widx s else s

/-- R205: the parts of a blocked word of the split in focus, run as far as they go. -/
def runMicros : List Micro → State → State
  | [], s => settleRegion { s with sp := { s.sp with pend := [] } }
  | m :: ms, s =>
    match runMicro m s with
    | .done t => runMicros ms t
    | .wait n t => { t with sp := { t.sp with pend := n :: ms } }
    | .over t => { t with sp := { t.sp with pend := [] } }

/-- The word in focus with its parts, run as far as they go; the split blocks at the first that waits. -/
def blockOn (ms : List Micro) (s : State) : State :=
  runMicros ms { s with sp := { s.sp with pendAt := (s.iss.clause, s.iss.word) } }

/-- R205, R329, R331: a blocked split goes on as far as it can. One whose group is saving or saved stays blocked:
it looks at its wait again once it is restored. -/
def resumeSplit (gid num : Nat) (s : State) : State :=
  onSplit gid num (fun t => if t.sp.pend = [] ∨ t.g.residence ≠ .resident then t else runMicros t.sp.pend t) s

/-- A split whose blocked word starts with a part goes on after it, once an operation has been done on it. -/
def finishPart (gid num : Nat) (p : Micro → Bool) (f : Micro → State → State) (s : State) : State :=
  onSplit gid num (fun t =>
    match t.sp.pend with
    | m :: ms => if p m then runMicros ms (f m t) else t
    | [] => t) s

end Sys2Proof.Machine
end

