-- ==== Sys2Proof/Machine/Atomics.lean ====
section
/-! DEFINITION. Major 6, ops 26 to 40: the atomics, the events that perform their lanes, and the end of a
transaction's validation (R151 to R154, R311 to R315, R319). -/

namespace Sys2Proof.Machine

open Sys2Proof

/-- R153: whether the word in focus is an atomic that its split resumes after an abort. -/
def atomAgain (s : State) : Bool :=
  s.sp.regionWord != 0 && s.sp.regionPc == s.iss.clause && s.sp.regionWord == s.iss.word && !s.sp.bndPending

/-- R143, R151, R153, R313: the effect of an atomic. -/
def atomEff (op : Nat) (o : CasOp) (lit : Option W) (s : State) : State :=
  if 63 ≤ s.g.cntL then stallWord s
  else
    match atomPlaces op o.mem s with
    | .error t => takeTrap t s
    | .ok ps =>
      let n := atomSize op
      if ps.any (fun p => p.2.2.onChip) && keystoneFull s s.g then stallWord s
      else if ps.any (fun p => copyHeld s p.2.2 n) then stallWord s
      else
        let parts := [.atomIssue op o lit, .atomWait, .boundary]
        blockOn (if atomAgain s then parts else .boundary :: parts) s

/-- The registers of an atomic's operand. -/
def atomRange (op : Nat) (o : CasOp) (lit : Option W) : List (Nat × Nat) :=
  if lit.isSome then [] else [(o.d, atomRegs op)]

/-- R143, R151, R226: an atomic word. -/
def atomWord (op : Nat) (o : CasOp) (lit : Option W) (s : State) : Out :=
  let regs := atomRange op o lit ++ o.mem.off.range 1
  issueWord (firstTrap [trapIf (inTx s) .txState, rangeTrap s regs,
      liveTrap s ((atomRange op o lit).map (fun p => p.1))])
    (regsOf regs) [o.mem.base] (readGuard (regsOf regs) (atomEff op o lit)) s

/-- R151: an atomic whose operand is a register or the literal of the discard form. -/
def atomOp (op : Nat) (o : AtomOp) (s : State) : Out :=
  match o.d with
  | .reg n => atomWord op ⟨n, o.mem⟩ none s
  | .lit w => atomWord op ⟨127, o.mem⟩ (some w) s

/-- R152. -/
def execAtomAddI32 (o : AtomOp) (s : State) : Out := atomOp 26 o s
/-- R152. -/
def execAtomAddI64 (o : AtomOp) (s : State) : Out := atomOp 27 o s
/-- R152. -/
def execAtomFaddF32 (o : AtomOp) (s : State) : Out := atomOp 28 o s
/-- R152. -/
def execAtomFaddBf16x2 (o : AtomOp) (s : State) : Out := atomOp 29 o s
/-- R152. -/
def execAtomMinI32 (o : AtomOp) (s : State) : Out := atomOp 30 o s
/-- R152. -/
def execAtomMaxI32 (o : AtomOp) (s : State) : Out := atomOp 31 o s
/-- R152. -/
def execAtomMinN32 (o : AtomOp) (s : State) : Out := atomOp 32 o s
/-- R152. -/
def execAtomMaxN32 (o : AtomOp) (s : State) : Out := atomOp 33 o s
/-- R152. -/
def execAtomAndB32 (o : AtomOp) (s : State) : Out := atomOp 34 o s
/-- R152. -/
def execAtomOrB32 (o : AtomOp) (s : State) : Out := atomOp 35 o s
/-- R152. -/
def execAtomXorB32 (o : AtomOp) (s : State) : Out := atomOp 36 o s
/-- R152. -/
def execAtomXchgB32 (o : AtomOp) (s : State) : Out := atomOp 37 o s
/-- R152. -/
def execAtomXchgB64 (o : AtomOp) (s : State) : Out := atomOp 38 o s
/-- R152. -/
def execAtomCasB32 (o : CasOp) (s : State) : Out := atomWord 39 o none s
/-- R152. -/
def execAtomCasB64 (o : CasOp) (s : State) : Out := atomWord 40 o none s

/-- R153: after a lane: the split goes on once its atomic has no lane left; what a stopped group left is
dropped. -/
def afterLane (gid num : Nat) (s : State) : State :=
  onSplit gid num (fun t =>
    if t.sp.member = 0 then (if (ownAtoms t).all (fun a => a.lanes == []) then atomsGone t else t)
    else if t.sp.pend = [] then t
    else runMicros t.sp.pend t) s

/-- ATOMIC_LANE_PERFORM (R153, R311). -/
def execAtomicLanePerform (req lane : Nat) (s : State) : Out :=
  match s.ms.atoms.find? (fun a => a.uid == req && !a.keystone) with
  | none => .next s
  | some a => .next (afterLane a.gid a.split (performLane a lane s))

/-- KEYSTONE_REQUEST (R314): the request at the head of a quad's queue, lane by lane. -/
def execKeystoneRequest (die quad : Nat) (s : State) : Out :=
  match (keystoneQueue s die quad).head? with
  | none => .next s
  | some a =>
    match groupOf? s a.gid with
    | none => .next s
    | some g => .next (afterLane a.gid a.split (a.lanes.foldl (keystoneLane g a) s))

/-- R319: the outcome of a commit for the group in focus: the surviving lanes' writes are applied, all at once,
and the transaction ends. -/
def finishTx (t : Tx) (s : State) : State :=
  let s := recallLog s.g t s
  let v := validate s s.g t
  let u := applyTx s.g v s
  endTx (maskOf (fun l => memNat l (survivors v))) v.failed none { u with g := { u.g with tx := some v } }

/-- TX_VALIDATION_RESULT (R227, R319): every slice is locked: values are compared, writes applied, locks
released and tx.end completes with its boundary. -/
def execTxValidationResult (gid : Nat) (s : State) : Out :=
  match groupOf? s gid with
  | none => .next s
  | some g =>
    match g.tx with
    | none => .next s
    | some t =>
      if t.phase = .locking ∧ (txSlices s g t).all (fun n => memNat n t.locked) then
        .next (onSplit gid t.split (fun u => let v := finishTx t u; runMicros v.sp.pend v) s)
      else .next s

end Sys2Proof.Machine
end

