-- ==== Sys2Proof/Machine/Faults.lean ====
section
/-! DEFINITION. Events of aborts, fault records and parked splits, and deferred traps (R243, R306 to R310). -/

namespace Sys2Proof.Machine

open Sys2Proof

/-- REGION_ABORT (R307): the region of a split whose outstanding loads have met faults is discarded; a split
that blocks in a closing instruction has no region. -/
def execRegionAbort (gid split : Nat) (s : State) : Out :=
  .next (onSplit gid split (fun t =>
    if loadFaults t = [] ∨ (t.sp.bndPending ∧ t.sp.pend ≠ []) ∨ t.sp.state ≠ .running ∨
        (ownAtoms t).any (fun a => a.lanes != []) then t
    else
      let rs := byLane ((ownAtoms t).flatMap (fun a => a.faults))
      abortRegion ((loadFaults t).map (fun p => p.2) ++ rs) (atomsGone t)) s)

/-- R308: the permission that an access of a record's kind needs. -/
def kindNeed (kind : Nat) : Need :=
  match kind with
  | 1 => needW
  | 2 => needRdW
  | 3 => needX
  | 5 => needW
  | 7 => needW
  | 9 => needW
  | _ => needRd

/-- R310: whether the page of a record permits the access recorded for it now: a page of cause 1 does once it is
resident. -/
def FaultRec.permits (s : State) (r : FaultRec) : Bool :=
  match accessIn s r.ctx (if r.cause = 1 then ⟨false, false, false⟩ else kindNeed r.kind) r.vaddr with
  | .ok l => r.cause != 3 || !isPoisoned s l.phys
  | .error _ => false

/-- SPLIT_RESTART (R310): a parked split restarts once every record is written and every recorded page permits
its access. -/
def execSplitRestart (gid split : Nat) (s : State) : Out :=
  .next (onSplit gid split (fun t =>
    if t.sp.state = .parked ∧ t.sp.unsent = [] ∧ t.sp.faults.all (FaultRec.permits t) then
      { t with sp := { t.sp with state := .running, faults := [] } }
    else t) s)

/-- R309: the waiting records of a split written as far as there is room. -/
def sendWaiting (gid split : Nat) (s : State) : State :=
  onSplit gid split (fun t =>
    let p := writeFaults t.sp.unsent t
    { p.1 with sp := { p.1.sp with unsent := p.2 } }) s

/-- R309: every waiting record of a context written as far as there is room. -/
def sendWaitingAll (ctx : Nat) (s : State) : State :=
  let gs := (allGroups s).filter (fun g => g.ctx == ctx)
  let t := gs.foldl (fun t g => (splitsOf s g).foldl (fun u p => sendWaiting g.gid p.num u) t) s
  let p := writeFaults t.ms.unsent { t with ms := { t.ms with unsent := [] } }
  { p.1 with ms := { p.1.ms with unsent := p.1.ms.unsent ++ p.2 } }

/-- R310, R422: the message with which H3 passes a record that it has taken, and whose fault is still open, to the driver
of the context's function. -/
def driverMessage (c : Context) (k : Nat) (s : State) : Option Reply :=
  match readVa s c.num needRd (c.fqbase + 32 * (k % c.fqlen)) 32 with
  | .error _ => none
  | .ok bs =>
    if s.ms.openFaults.any (fun f => f.ctx == c.num && f.page == pageOf (bytesToNat (bs.take 8)) && !f.stage2) then
      some { func := c.func, code := 0, seq := 0, status := 0,
             body := bs ++ natToBytes 2 c.func ++ natToBytes 2 c.num ++ natToBytes 28 0 }
    else none

/-- FAULT_QUEUE_READ_ADVANCE (R309, R422): H3 takes n records and passes on those it does not resolve itself; waiting
records go into the room. -/
def execFaultQueueReadAdvance (ctx n : Nat) (s : State) : Out :=
  match ctxOf? s ctx with
  | none => .next s
  | some c =>
    if n ≤ (c.fqwr + 2 ^ 32 - c.fqrd) % 2 ^ 32 then
      let t := { s with front := { s.front with
        replies := s.front.replies ++ (List.range n).filterMap (fun i => driverMessage c (c.fqrd + i) s) } }
      .next (sendWaitingAll ctx (modCtx ctx (fun x => { x with fqrd := (x.fqrd + n) % 2 ^ 32 }) t))
    else .next s

/-- R310: a split parked on a page takes the translation-abort trap, at its region PC, with the page's recorded
address. -/
def abortParked (ctx page gid split : Nat) (s : State) : State :=
  onSplit gid split (fun t =>
    match t.sp.faults.find? (fun r => r.ctx == ctx && pageOf r.vaddr == page) with
    | some r =>
      if t.sp.state = .parked then
        takeTrap ⟨.translationAbort, none, some (BitVec.ofNat 64 r.vaddr), 0, some (t.sp.regionPc, t.sp.regionWord)⟩
          { t with iss := { t.iss with clause := t.sp.regionPc, word := t.sp.regionWord } }
      else t
    | none => t) s

/-- R160: whether an engine's address of a context lies on a page. -/
def onPage (page a : Nat) : Bool := bitsOf a 63 56 == 0 && pageOf a == page

/-- R160, R184, R232, R354: the held lanes of a context's engines, and the held writes of its mordant slots and
collectives, on a page are to be skipped. -/
def skipHeld (ctx page : Nat) (s : State) : State :=
  let ours (gid : Nat) : Bool := ((groupOf? s gid).map (fun g => g.ctx == ctx)).getD false
  let reads (c : Copy) : Bool := c.op == .g2s || c.op == .g2p || c.op == .mcast
  let writes (c : Copy) : Bool := c.op == .s2g || c.op == .put || c.op == .fill
  let copyLane (c : Copy) (l : CopyLane) : CopyLane :=
    if l.held && ((reads c && onPage page l.src) || (writes c && onPage page l.dst)) then { l with skip := true } else l
  let fabLane (l : FabLane) : FabLane := if l.held && onPage page l.heldVa then { l with skip := true } else l
  let slot (m : MordSlot) : MordSlot := if m.ctx = ctx ∧ m.held ∧ onPage page m.heldVa then { m with skip := true } else m
  let part (p : Partial) : Partial :=
    match s.fab.windows.find? (fun w => agentOf s w.die == p.agent && w.ctx == ctx && w.idx == p.win) with
    | some w => if p.ctx = ctx ∧ p.held ∧ pageOf (w.base + p.off) = page then { p with skip := true } else p
    | none => p
  { s with
    eng := { s.eng with
      copies := updateAll (fun c => ours c.gid) (fun c => { c with lanes := c.lanes.map (copyLane c) }) s.eng.copies,
      tiles := updateAll (fun c => ours c.gid && c.held) (fun c => { c with skipPages := page :: c.skipPages }) s.eng.tiles,
      fabs := updateAll (fun c => c.ctx == ctx) (fun c => { c with lanes := c.lanes.map fabLane }) s.eng.fabs },
    fab := { s.fab with slots := s.fab.slots.map slot, partials := s.fab.partials.map part } }

/-- R384: the addresses of the signal words of a WAIT, SIGNAL or BARRIER-AND packet. -/
def signalWords (p : Packet) : List Nat :=
  match p.field 1 1 with
  | 3 => [p.field 16 8]
  | 4 => [p.field 16 8]
  | 9 => (List.range (p.field 8 1)).map (fun i => p.field (16 + 8 * i) 8)
  | _ => []

/-- R384: the started packets of a context that a page holds up complete with signal-fault. -/
def failSignals (ctx page : Nat) (s : State) : State :=
  let held := (s.front.queues.filter (fun q => q.ctx == ctx)).flatMap (fun q => q.packets.filter (fun p =>
    p.started && p.hold.isSome && (signalWords p).any (onPage page)))
  held.foldl (fun t p => completePacket p.journal 5 0 t) s

/-- R384: whether a started packet of a context is held up by a page. -/
def signalHeld (s : State) (ctx page : Nat) : Bool :=
  s.front.queues.any (fun q => q.ctx == ctx && q.packets.any (fun p =>
    p.started && p.hold.isSome && (signalWords p).any (onPage page)))

/-- FAULT_DECLARE_UNRESOLVABLE (R310, R160, R384): splits parked on the page trap, the engines skip what it holds
there, and packets whose signal words it holds up fail. -/
def execFaultDeclareUnresolvable (ctx va : Nat) (s : State) : Out :=
  let page := pageOf va
  if s.ms.openFaults.any (fun f => f.ctx == ctx && f.page == page) || signalHeld s ctx page then
    let t := { s with ms := { s.ms with openFaults := s.ms.openFaults.filter (fun f => !(f.ctx == ctx && f.page == page)) } }
    let u := skipHeld ctx page t
    let ws := (allGroups u).flatMap (fun g => (splitsOf u g).map (fun p => (g.gid, p.num)))
    .next (ws.foldl (fun v w => abortParked ctx page w.1 w.2 v) (failSignals ctx page u))
  else .next s

/-- R261, R389: whether the viaduct of a group lets its groups issue now. -/
def viaductRuns (s : State) (g : Group) : Bool :=
  ((viaductOf? s g.viaduct).map (fun v => v.st == .started && decide (v.readyTick ≤ s.tick))).getD false

/-- R243: the deferred trap of a group raised at an issue opportunity of it: its %trapinfo, which holds the address of
the word where there is no other (R160, R232), and the trap of its viaduct. -/
def raiseDeferred (gid : Nat) (s : State) : State :=
  match groupOf? s gid with
  | none => s
  | some g =>
    match g.deferred with
    | [] => s
    | r :: rest =>
      if g.residence ≠ .resident ∨ ¬ viaductRuns s g then s else
      let alive := (splitsOf s g).any (fun p => some p.num == r.split)
      let r2 : TrapRec := { r with split := if alive then r.split else none, tick := s.tick }
      let info := trapInfo r.kind ((r.detail.map (fun d => d.toNat)).getD (r.clause + 4 * r.word))
      stopViaduct g.viaduct r2 (modGroup gid (fun x => { x with deferred := rest, trapinfo := info }) s)

/-- DEFERRED_TRAP_RAISE (R243). -/
def execDeferredTrapRaise (gid : Nat) (s : State) : Out := .next (raiseDeferred gid s)

end Sys2Proof.Machine
end

