-- ==== Sys2Proof/Machine/Sync.lean ====
section
/-! DEFINITION. Major A: barriers, condition slots, waits, fences, commits, transactions, beats and quiescence, and
their events (R212 to R230, R262, R323 to R332, R365). -/

namespace Sys2Proof.Machine

open Sys2Proof

/-- R226: a closing instruction in a transaction. -/
def closingTrap (s : State) : Option Trap := trapIf (inTx s) .txState

/-- R212, R17: a barrier register the span does not have. -/
def barTrap (s : State) (n : Nat) : Option Trap := trapIf (decide (barCount s ≤ n)) .registerRange

/-- R213: a barrier register that expects no member. -/
def expectedTrap (s : State) (n : Nat) : Option Trap := trapIf ((barGet s n).expected == 0) .barrierState

/-- R214: a group with more than one split. -/
def singleTrap (s : State) : Option Trap := trapIf (decide (1 < splitCount s)) .divergence

/-! Barriers. -/

/-- R215: a barrier at a scope: commit, release, arrive, wait, acquire. -/
def barWord (sc : Scope) (n : Nat) (s : State) : Out :=
  issueWord (firstTrap [barTrap s n, closingTrap s, singleTrap s, expectedTrap s n]) [] []
    (blockOn [.boundary, .loadsDone, .performed sc, .barArrive n, .acquire sc]) s

/-- R215. -/
def execBarCore (n : Nat) (s : State) : Out := barWord .core n s
/-- R215. -/
def execBarQuad (n : Nat) (s : State) : Out := barWord .quad n s

/-- R218: whether the viaduct in focus is cooperative. -/
def isCoop (s : State) : Bool := ((launchOf? s).map (fun l => l.coop)).getD false

/-- R218: a hardware barrier. -/
def hwBarWord (level : Nat) (sc : Scope) (s : State) : Out :=
  issueWord (firstTrap [trapIf (!isCoop s) .cooperativeRequired, closingTrap s, singleTrap s]) [] []
    (blockOn [.boundary, .loadsDone, .performed sc, .joined sc true true true, .hwArrive level, .acquire sc]) s

/-- R218. -/
def execBarDie (s : State) : Out := hwBarWord 3 .die s
/-- R218. -/
def execBarPkg (s : State) : Out := hwBarWord 4 .pkg s
/-- R218. -/
def execBarPod (s : State) : Out := hwBarWord 5 .pod s

/-- R213: sets a barrier's expected count. -/
def setExpected (n c : Nat) (s : State) : State :=
  modSpan s.g.span (fun x => { x with bars := x.bars.set n { nthD Barrier.zero x.bars n with expected := c } }) s

/-- R213. -/
def execBexp (n : Nat) (c : Nat) (s : State) : Out :=
  issueWord (firstTrap [barTrap s n, trapIf ((barGet s n).arrived != 0) .barrierState]) [] [] (setExpected n c) s

/-- R216: whether the release of an arrival is over: the loads that its split issued, and the stores that it committed,
before its latest region boundary are performed at quad scope. -/
def releaseOver (s : State) (g : Group) (a : Arrival) : Bool :=
  !s.ms.loads.any (fun d => d.gid == g.gid && d.split == a.split && decide (d.uid < a.before)) &&
    !s.ms.entries.any (fun e => e.gid == g.gid && e.split == a.split && decide (e.uid < a.before) && e.st == .committed)

/-- R213, R216: one arrival of the group in focus, which receives the phase of that moment; a barrier that expects no
member by then traps at the word of the arrival. -/
def makeArrival (a : Arrival) (s : State) : State :=
  let p := ((spanOf? s a.span).map (fun x => (nthD Barrier.zero x.bars a.bar).phase)).getD false
  match arriveOn a.span a.bar s with
  | some t =>
    match a.dst with
    | some d => sSet d (if p then 1 else 0) t
    | none => t
  | none => takeTrap { plainTrap .barrierState with place := some (a.clause, a.word) } s

/-- R216: the arrivals of a resident group whose releases are over are made, in order. -/
def arriveNow (gid : Nat) (s : State) : State :=
  match groupOf? s gid with
  | none => s
  | some g =>
    match g.arrivals with
    | [] => s
    | a :: rest =>
      if g.residence = .resident ∧ releaseOver s g a then
        onSplit gid a.split (makeArrival a) (modGroup gid (fun x => { x with arrivals := rest }) s)
      else s

/-- R216: an arrival of the word in focus: it is made at once where its release is over, and waits otherwise while the
split goes on. -/
def arriveEff (span n : Nat) (dst : Option Nat) (s : State) : State :=
  let a : Arrival := ⟨s.sp.num, s.iss.clause, s.iss.word, span, n, dst, s.sp.bndUid⟩
  if s.g.arrivals = [] ∧ releaseOver s s.g a then makeArrival a s
  else { s with g := { s.g with arrivals := s.g.arrivals ++ [a] } }

/-- R216. -/
def execArrive (n : Nat) (d : Nat) (s : State) : Out :=
  issueWord (firstTrap [barTrap s n, singleTrap s, expectedTrap s n]) [] [d] (arriveEff s.g.span n (some d)) s

/-- R217: the span of the viaduct in focus with a linear index, resident in the issuing quad. -/
def remoteSpan? (s : State) (lin : Nat) : Option Span :=
  s.spans.find? (fun x => x.viaduct == s.g.viaduct && x.lin == lin && x.residence == .resident &&
    x.die == s.g.die && x.core0 / 4 == s.g.core / 4)

/-- R217. -/
def execArriveRemote (n : Nat) (a : Nat) (s : State) : Out :=
  issueWord (singleTrap s) [] [a] (fun t =>
    match remoteSpan? t ((sGet t a).toNat % 2 ^ 32) with
    | none => takeTrap (plainTrap .barrierState) t
    | some x =>
      if x.bars.length ≤ n ∨ (nthD Barrier.zero x.bars n).expected = 0 then takeTrap (plainTrap .barrierState) t
      else arriveEff x.uid n none t) s

/-- R216. -/
def execBwait (n : Nat) (a : Nat) (s : State) : Out :=
  issueWord (firstTrap [barTrap s n, closingTrap s]) [] [a]
    (fun t => blockOn [.boundary, .barWait n (bitOf (sGet t a).toNat 0), .acquire .quad] t) s

/-- R262: the groups that a hardware barrier of a level counts. -/
def hwMembers (s : State) (viaduct level die : Nat) : List Group :=
  (allGroups s).filter (fun g => g.viaduct == viaduct && (level != 3 || g.die == die))

/-- R218, R389: the other packages of a viaduct's gang launch. -/
def otherPackages (s : State) (v : Viaduct) : List Nat :=
  match v.gang.bind (fun n => s.front.gangs.find? (fun g => g.uid == n)) with
  | some g => ((g.members.map (fun m => m.pkg)).filter (fun p => p != s.pkg)).eraseDups
  | none => []

/-- R218: another package of a gang says that all its groups have arrived at the pod barrier or exited. -/
def podArrive (viaduct pkg : Nat) (s : State) : State :=
  modViaduct viaduct (fun v =>
    let b := hwBarOf v 5 0
    if memNat pkg (otherPackages s v) && !memNat pkg b.away then setHwBar v { b with away := b.away ++ [pkg] } else v) s

/-- HW_BARRIER_COMPLETE (R211, R218, R262): every member has arrived or exited, those of the gang's other packages
included at the pod barrier; the waiters go on. -/
def execHwBarrierComplete (viaduct level die : Nat) (s : State) : Out :=
  match viaductOf? s viaduct with
  | none => .next s
  | some v =>
    let b := hwBarOf v level die
    let ms := hwMembers s viaduct level die
    let others := if level = 5 then otherPackages s v else []
    if b.arrived ≠ [] ∧ ms.all (fun g => g.exited || memNat g.gid b.arrived) ∧ others.all (fun p => memNat p b.away) then
      let t := modViaduct viaduct (fun x => setHwBar x { b with arrived := [], away := [], phases := b.phases + 1 }) s
      .next (ms.foldl (fun u g => (splitsOf t g).foldl (fun w p => resumeSplit g.gid p.num w) u) t)
    else .next s

/-! Condition slots. -/

/-- R143, R220: the check of a watched address of 4 or 8 bytes. The scalar address is reported as that of lane 0 (DESIGN
CHOICE, log entry 106). -/
def watchTrap (a : W64) (w64 : Nat) : Option Trap :=
  let x := a.toNat
  if bitsOf x 63 56 = 255 then some (laneTrap .aperture 0 a)
  else if bitsOf x 63 56 ≠ 0 then some (laneTrap .nonCanonical 0 a)
  else if x % (if w64 = 1 then 8 else 4) ≠ 0 then some (laneTrap .misaligned 0 a)
  else none

/-- R219: the condition of a watch. -/
def watchCond (a b cmp w64 : Nat) (s : State) : Cond := .word (sGet s a).toNat cmp (sGet s b) (w64 == 1)

/-- R220. -/
def execWatch (n : Nat) (a : Nat) (b : Nat) (cmp : Nat) (w64 : Nat) (s : State) : Out :=
  issueWord none [] [a, b] (fun t =>
    match watchTrap (sGet t a) w64 with
    | some e => takeTrap e t
    | none =>
      let fs := watchFault t (sGet t a).toNat
      if fs ≠ [] then abortRegion fs t else armSlot n (watchCond a b cmp w64 t) false true t) s

/-- R220, R355: whether a window of the context in focus is bound on the issuing die. -/
def windowBound (s : State) (w : Nat) : Bool :=
  s.fab.windows.any (fun v => v.die == s.g.die && v.ctx == s.g.ctx && v.idx == w && v.bound)

/-- R220: the check of a cond's index. -/
def condTrap (s : State) (kind idx : Nat) : Option Trap :=
  match kind with
  | 0 => barTrap s idx
  | 1 => trapIf (!windowBound s idx) .windowAccess
  | 2 => trapIf (s.g.queue idx).bind.isNone .queueUnbound
  | _ => none

/-- R220: the condition of a cond. -/
def condOf (kind idx b : Nat) (s : State) : Cond :=
  match kind with
  | 0 => .barPhase idx (bitOf (sGet s b).toNat 0)
  | 1 => .window idx (lowWord (sGet s b))
  | 2 => .queue idx
  | _ => .mordant (lowWord (sGet s b))

/-- R220, R332. -/
def execCond (n : Nat) (kind : Nat) (idx : Nat) (b : Nat) (s : State) : Out :=
  issueWord (condTrap s kind idx) [] [b] (fun t => armSlot n (condOf kind idx b t) false true t) s

/-- R221: the deadline of a wait. -/
def deadlineOf (s : State) (t : W64) : Option Nat :=
  if t = BitVec.allOnes 64 then none else some (s.tick + t.toNat)

/-- R221. -/
def execWaitv (mask : Nat) (all : Nat) (t : Nat) (s : State) : Out :=
  issueWord (firstTrap [trapIf (mask == 0) .illegalEncoding, closingTrap s,
      trapIf ((namedSlots mask).all (fun i => (s.g.slot i).st == .empty)) .waitEmpty]) [] [t]
    (fun u => blockOn [.boundary, .slotWait mask (all == 1) (deadlineOf u (sGet u t)), .acquire .pod] u) s

/-- R220, R221: the watched word's page is checked in the boundary; then the slot is armed and waited on. -/
def execWaitu (n : Nat) (a : Nat) (b : Nat) (cmp : Nat) (w64 : Nat) (s : State) : Out :=
  issueWord (closingTrap s) [] [a, b, b + 1] (fun t =>
    match watchTrap (sGet t a) w64 with
    | some e => takeTrap e t
    | none =>
      blockOn [.boundaryAt (sGet t a).toNat, .arm n (watchCond a b cmp w64 t),
        .slotWait (2 ^ n) false (deadlineOf t (sGet t (b + 1))), .acquire .pod] t) s

/-- WAITV_DEADLINE (R221, R329): the deadline of a wait passes. -/
def execWaitvDeadline (gid split : Nat) (s : State) : Out := .next (resumeSplit gid split s)

/-- R223. -/
def execWait (l : Nat) (st : Nat) (c : Nat) (t : Nat) (s : State) : Out :=
  issueWord none [] [] (blockOn [.counters l st c t]) s

/-! Watch events. -/

/-- R330: sends a fire. -/
def sendFire (ctx lslot slot gen : Nat) (forced : Bool) (s : State) : State :=
  let u := fresh s
  { u.2 with wat := { u.2.wat with fires := u.2.wat.fires ++ [⟨u.1, ctx, lslot, slot, gen, forced⟩] } }

/-- R220: the home has kept an entry for a slot: its registration is answered. -/
def answerSlot (gid i gen : Nat) (s : State) : State :=
  let f (x : Slot) : Slot := if x.gen = gen then { x with answered := true } else x
  modSplits gid (fun p => { p with ckpt := { p.ckpt with slots := p.ckpt.slots.set i (f (nthD (Slot.none 0) p.ckpt.slots i)) } })
    (modGroup gid (fun g => g.setSlot i (f (g.slot i))) s)

/-- R324, R326: the home handles a registration of a group at a leaf. -/
def registerAt (g : Group) (r : WatchReg) (l : Leaf) (s : State) : State :=
  let t := recallHome r.addr l s
  if !isPoisoned t l.phys && cmpHolds r.cmp r.w64 (wordAt t l.phys r.w64) r.x then
    sendFire g.ctx g.lslot r.slot r.gen false t
  else
    match placeEntry? t (homeAgent l) (sliceOf l r.addr) g.ctx false with
    | none => sendFire g.ctx g.lslot r.slot r.gen true t
    | some inList =>
      let u := fresh t
      answerSlot g.gid r.slot r.gen (keepEntry
        ⟨u.1, homeAgent l, sliceOf l r.addr, inList, r.addr, r.x, l.dom, g.ctx, s.pkg, g.lslot, r.slot, r.w64, r.cmp,
          r.gen, s.tick, none⟩ l.phys u.2)

/-- WATCH_REGISTRATION (R220, R299, R300, R326): a registration is handled at its home. A page that is not
resident aborts the region of a watch, and fires the slot of a waitu, or of a region that has ended, by force. -/
def execWatchRegistration (reg : Nat) (s : State) : Out :=
  match s.wat.regs.find? (fun r => r.uid == reg) with
  | none => .next s
  | some r =>
    let t := { s with wat := { s.wat with regs := s.wat.regs.filter (fun x => x.uid != reg) } }
    match groupOf? s r.gid with
    | none => .next t
    | some g =>
      match accessIn s g.ctx needRd r.addr with
      | .ok l => if lineWaits s l r.addr then .next s else .next (registerAt g r l t)
      | .error _ =>
        if r.region && !r.isWaitu then .next (onSplit r.gid r.split (fun u => abortRegion (watchFault u r.addr) u) t)
        else .next (sendFire g.ctx g.lslot r.slot r.gen true t)

/-- WATCH_WITHDRAW (R328): entries of a slot that is no longer armed under their generation are removed. -/
def execWatchWithdraw (gid slot : Nat) (s : State) : Out :=
  match groupOf? s gid with
  | none => .next s
  | some g =>
    let x := g.slot slot
    .next (dropEntries (fun e => entryOfSlot g slot e && !(x.st == .armed && x.gen == e.gen)) s)

/-- WATCH_FIRE_DELIVERY (R328, R330): a fire reaches a resident group or a saved record; one for a group that is
being saved is held. -/
def execWatchFireDelivery (fire : Nat) (s : State) : Out :=
  match s.wat.fires.find? (fun f => f.uid == fire) with
  | none => .next s
  | some f =>
    let t := { s with wat := { s.wat with fires := s.wat.fires.filter (fun x => x.uid != fire) } }
    match (allGroups s).find? (fun g => g.ctx == f.ctx && g.lslot == f.lslot && !g.released) with
    | none => .next t
    | some g =>
      match g.residence with
      | .resident => .next (fireSlot g.gid f.slot f.gen f.forced t)
      | .saving => .next s
      | .saved =>
        let hit := (g.slot f.slot).st == .armed && (g.slot f.slot).gen == f.gen
        .next (fireSlot g.gid f.slot f.gen f.forced
          (modGroup g.gid (fun x => if hit then { x with wakePending := insertNat f.slot x.wakePending } else x) t))

/-- R327: the filter of a slice holds the bits of the entries that a scan has left in its list. -/
def clearFilter (home slice : Nat) (s : State) : State :=
  let es := s.wat.entries.filter (fun e => e.home == home && e.slice == slice && e.inList)
  let v := es.foldl (fun n e => setBits n (filterIndex e.addr) (filterIndex e.addr) 1) 0
  { s with wat := { s.wat with filters := mapSet 0 s.wat.filters (filterKey home slice) v } }

/-- WATCH_LIST_SCAN_END (R327): the running scan of a slice fires the list entries its write satisfies, and clears the
filter bits of which no entry is left. -/
def execWatchListScanEnd (die slice : Nat) (s : State) : Out :=
  match s.wat.scans.find? (fun c => c.home == agentOf s die && c.slice == slice) with
  | none => .next s
  | some c =>
    let t := { s with wat := { s.wat with scans := s.wat.scans.erase c } }
    .next (clearFilter c.home c.slice
      (fireEntries (firing t c.dom c.line c.phys (c.written.map (fun b => b.1)) true) t))

/-! Fences, commits, transactions and beats. -/

/-- R224: the parts of a fence. -/
def fenceParts (p scope : Nat) : List Micro :=
  let sc := Scope.ofCode scope
  let r := bitOf p 0
  let w := bitOf p 1
  (if w then [.boundary] else []) ++
    [.counters (if r then 0 else 15) 15 (if bitOf p 2 || bitOf p 3 then 0 else 15)
      (if bitOf p 4 || bitOf p 5 then 0 else 15)] ++
    (if w then [.performed sc, .joined sc true (bitOf p 3) (bitOf p 5)] else []) ++ (if r then [.acquire sc] else [])

/-- R224. -/
def execFence (p : Nat) (_q : Nat) (scope : Nat) (s : State) : Out :=
  issueWord (if bitOf p 1 then closingTrap s else none) [] [] (blockOn (fenceParts p scope)) s

/-- R225, R301. -/
def execCommit (n : Nat) (s : State) : Out :=
  issueWord (firstTrap [closingTrap s, trapIf (decide (s.g.nregs < n)) .registerRange,
      trapIf (n != s.g.live && decide (1 < splitCount s)) .divergence]) [] []
    (blockOn [.liveFree n, .boundary, .setLive n]) s

/-- R226, R317. -/
def execTxBegin (s : State) : Out :=
  issueWord (closingTrap s) [] [] (blockOn [.boundary, .txStart s.sp.em, .drained]) s

/-- R227. -/
def execTxEnd (s : State) : Out :=
  issueWord (trapIf (!inTx s) .txState) [] [] (blockOn [.txSend, .txWait, .boundary]) s

/-- R227. -/
def execTxAbort (c : Nat) (s : State) : Out :=
  issueWord (trapIf (!inTx s) .txState) [] [] (giveUpTx c) s

/-- R229: an amount of beats held with the region. -/
def holdBeats (n : Nat) (s : State) : State := { s with sp := { s.sp with beats := s.sp.beats + n } }

/-- R229. -/
def execBeat (s : State) : Out := issueWord none [] [] (holdBeats 1) s

/-- R229. -/
def execBeatReg (a : Nat) (s : State) : Out :=
  issueWord none [] [a] (fun t => holdBeats (min (sGet t a).toNat (2 ^ 24 - 1)) t) s

/-! Quiescence. -/

/-- R230: whether the context in focus has the quiesce right. -/
def mayQuiesce (s : State) : Bool := ((ctxOf? s s.g.ctx).map (fun c => c.quiesceRight)).getD false

/-- R230: a wait for the idle tree. -/
def quiesceWord (pod : Bool) (t d : Nat) (s : State) : Out :=
  issueWord (trapIf (!mayQuiesce s) .privilege) [] [t, d]
    (fun u => blockOn [.quiesce pod d (u.tick + (sGet u t).toNat)] u) s

/-- R230. -/
def execQuiescePkg (t : Nat) (d : Nat) (s : State) : Out := quiesceWord false t d s
/-- R230. -/
def execQuiescePod (t : Nat) (d : Nat) (s : State) : Out := quiesceWord true t d s

/-- R365: whether a split issues nothing: it is blocked, parked or stopped. -/
def Split.idles (p : Split) : Bool := p.pend != [] || p.state != .running

/-- R365: whether a group leaves its core idle. -/
def groupIdle (s : State) (g : Group) : Bool :=
  g.residence != .resident || g.stopped ||
    ((splitsOf s g).all Split.idles &&
      ((g.cntL == 0 && g.cntS == 0 && g.cntC == 0 && g.cntT == 0) || (splitsOf s g).all (fun p => p.pend != [])))

/-- R230, R365: the idle tree of the package. -/
def packageIdle (s : State) : Bool :=
  (allGroups s).all (groupIdle s) && s.ms.entries.all (fun e => e.st == .opened) && s.eng.copies.isEmpty &&
    s.eng.tiles.isEmpty && s.eng.fns.isEmpty && s.eng.fabs.isEmpty && s.ms.atoms.isEmpty && s.ms.loads.isEmpty &&
    s.ms.invals.isEmpty && s.ms.getxs.isEmpty && s.fab.slots.all (fun m => m.st == .free) && s.wat.fires.isEmpty &&
    s.wat.regs.isEmpty && s.dev.links.all (fun l => l.unacked.isEmpty)

/-- The clk of every die. -/
def dieClks (s : State) : List Nat := [0, 1, 2, 3].map (clkOf s)

/-- R230, R365: from when the idle trees have been high, kept at the end of every step: a tree that is low has no such
moment. -/
def keepIdle (s : State) : State :=
  let pkg := packageIdle s
  let start (b : Bool) (x : List Nat) : List Nat := if b then (if x = [] then dieClks s else x) else []
  { s with dev := { s.dev with idleFrom := start pkg s.dev.idleFrom,
                               podFrom := start (pkg && s.dev.podBusy.isEmpty) s.dev.podFrom } }

/-- R365: the idle signal of another package of the domain: a package that drops it restarts the pod's count. -/
def podSignal (pkg : Nat) (high : Bool) (s : State) : State :=
  { s with dev := { s.dev with
      podBusy := (s.dev.podBusy.filter (fun p => p != pkg)) ++ (if high then [] else [pkg]),
      podFrom := if high then s.dev.podFrom else [] } }

/-- R365: whether an idle tree has been high for n clk of every die without a break. -/
def highFor (s : State) (start : List Nat) (n : Nat) : Bool :=
  start != [] && (List.range 4).all (fun d => decide (nthD 0 start d + n ≤ clkOf s d))

/-- R230, R365: whether the idle tree of the package, or of the pod, has stayed high for its worst-case transit. -/
def quiet (s : State) (pod : Bool) : Bool :=
  packageIdle s && (if pod then s.dev.podBusy.isEmpty && highFor s s.dev.podFrom (2 * Config.podTransit + 2048)
    else highFor s s.dev.idleFrom 2048)

/-- R230: a quiesce ends with a result. -/
def endQuiesce (gid split : Nat) (ok : State → Bool → Nat → Bool) (res : W64) (s : State) : State :=
  finishPart gid split (fun m =>
      match m with
      | .quiesce pod _ d => ok s pod d
      | _ => false)
    (fun m t =>
      match m with
      | .quiesce _ d _ => sSet d res t
      | _ => t) s

/-- QUIESCE_IDLE_COMPLETE (R365): the idle tree has stayed high. -/
def execQuiesceIdleComplete (gid split : Nat) (s : State) : Out :=
  .next (endQuiesce gid split (fun t pod _ => quiet t pod) 0 s)

/-- QUIESCE_TIMEOUT (R230). -/
def execQuiesceTimeout (gid split : Nat) (s : State) : Out :=
  .next (endQuiesce gid split (fun t _ d => decide (d ≤ t.tick)) 1 s)

end Sys2Proof.Machine
end

