-- ==== Sys2Proof/Machine/Branch.lean ====
section
/-! DEFINITION. Major B: the words of the instruction path, branches, calls, and the division and reunion of
splits (R62, R63, R72, R84, R207 to R211). -/

namespace Sys2Proof.Machine

open Sys2Proof

/-! The instruction path (R62, R63). -/

/-- R63: the memory of the start of the viaduct in focus, with the page tables as they stood in it. -/
def startMemory (s : State) : State :=
  { s with mem := ((viaductOf? s s.g.viaduct).map (fun v => v.image)).getD [], wq := [] }

/-- R63, R419: the word at an address of the image of the viaduct in focus: today's pages say whether it may be fetched;
its bytes are those of the page at the start of the viaduct, or of a page that was not resident then, as it came in. -/
def fetchWord (s : State) (va : Nat) : Except WalkFault Nat :=
  match accessIn s s.g.ctx needX va with
  | .error f => .error f
  | .ok l =>
    let u := startMemory s
    match accessIn u s.g.ctx ⟨false, false, false⟩ va with
    | .ok k => .ok (rdNat u k.phys 4)
    | .error _ => .ok (rdNat s l.phys 4)

/-- R64: whether a word has the tag of a header. -/
def isHeaderWord (w : Nat) : Bool := bitsOf w 31 28 == 14

/-- R72: whether a taken target names no clause. A target whose page faults is left to the fetch. -/
def badTarget (s : State) (a : Nat) : Bool :=
  a % 4 != 0 || bitsOf a 63 56 != 0 ||
    match fetchWord s a with
    | .ok w => !isHeaderWord w
    | .error _ => false

/-- R72: the trap of a bad target. -/
def targetTrap (a : Nat) : Trap := ⟨.clauseFormat, none, some (BitVec.ofNat 64 a), 0, some (a, 0)⟩

/-- R72, R207: a taken branch. -/
def jumpTo (a : Nat) (s : State) : State :=
  if badTarget s a then takeTrap (targetTrap a) s else { s with sp := { s.sp with pc := a, widx := 0 } }

/-- R84: the target of a word offset in the clause in focus. -/
def branchTarget (s : State) (off : Nat) : Nat :=
  (BitVec.ofNat 64 s.iss.clause + BitVec.ofInt 64 (4 * toSigned 16 off)).toNat

/-- R207: a conditional branch. -/
def branchIf (c : Bool) (off : Nat) (s : State) : State := if c then jumpTo (branchTarget s off) s else s

/-- R207. -/
def execBr (off : Nat) (s : State) : Out := issueWord none [] [] (branchIf true off) s
/-- R207. -/
def execBrz (c : Nat) (off : Nat) (s : State) : Out :=
  issueWord none [] [c] (fun t => branchIf (sGet t c == 0) off t) s
/-- R207. -/
def execBrnz (c : Nat) (off : Nat) (s : State) : Out :=
  issueWord none [] [c] (fun t => branchIf (sGet t c != 0) off t) s
/-- R207. -/
def execBra (k : Nat) (off : Nat) (s : State) : Out :=
  issueWord none [] [] (fun t => branchIf (maskGet t k &&& t.sp.em == t.sp.em) off t) s
/-- R207. -/
def execBrn (k : Nat) (off : Nat) (s : State) : Out :=
  issueWord none [] [] (fun t => branchIf (maskGet t k &&& t.sp.em == 0) off t) s

/-- R209: the effect of brv. -/
def brvEff (k off : Nat) (s : State) : State :=
  let t := s.sp.em &&& maskGet s k
  let a := branchTarget s off
  if s.sp.em &&& ~~~ t = 0 then jumpTo a s
  else if t = 0 then s
  else if inTx s then takeTrap (plainTrap .txState) s
  else if badTarget s a then takeTrap (targetTrap a) s
  else blockOn [.boundary, .divide t a] s

/-- R209. -/
def execBrv (k : Nat) (off : Nat) (s : State) : Out := issueWord none [] [] (brvEff k off) s

/-- R207: the link value: the header of the clause that follows. -/
def linkValue (s : State) : W64 := BitVec.ofNat 64 s.sp.pc

/-- R207. -/
def execCall (l : Nat) (off : Nat) (s : State) : Out :=
  issueWord none [] [l] (fun t => jumpTo (branchTarget t off) (sSet l (linkValue t) t)) s
/-- R207: the target is read before the link is written. -/
def execCallr (l : Nat) (t : Nat) (s : State) : Out :=
  issueWord none [] [l, t] (fun u => jumpTo (sGet u t).toNat (sSet l (linkValue u) u)) s
/-- R207. -/
def execRet (t : Nat) (s : State) : Out := issueWord none [] [t] (fun u => jumpTo (sGet u t).toNat u) s

/-- R210. -/
def execJoin (s : State) : Out :=
  issueWord (trapIf (inTx s) .txState) [] [] (fun t =>
    if t.sp.stack ≠ [] then blockOn [.boundary, .popPath] t
    else if 1 < splitCount t then blockOn [.boundary, .joinWait] t
    else t) s

/-- R211. -/
def execExit (s : State) : Out := issueWord (trapIf (inTx s) .txState) [] [] (blockOn [.boundary, .exitDo]) s

/-- R66, R207. -/
def execYield (s : State) : Out :=
  issueWord none [] [] (fun t => { t with g := { t.g with yieldMark := true } }) s

end Sys2Proof.Machine
end

