-- ==== Sys2Proof/Machine/System.lean ====
section
/-! DEFINITION. Major D: special registers, traps, breakpoints and the words of firmware groups (R26 to R31,
R85, R238 to R241). -/

namespace Sys2Proof.Machine

open Sys2Proof

/-- R239: the user trap. -/
def execTrap (code : Nat) (s : State) : Out := issueWord (some ⟨.user, none, none, code, none⟩) [] [] nop s

/-- R240: whether a debugger is attached to the context in focus. -/
def debuggerOn (s : State) : Bool := ((ctxOf? s s.g.ctx).map (fun c => c.debugger)).getD false

/-- R239: every split of the group in focus changes its state. -/
def groupState (x : SplitSt) (s : State) : State :=
  modSplits s.g.gid (fun p => if p.state = .running then { p with state := x } else p) s

/-- R239: with a debugger, the group parks at the clauses that follow; otherwise the breakpoint trap. -/
def execBrk (code : Nat) (s : State) : Out :=
  issueWord (if debuggerOn s then none else some ⟨.breakpoint, none, none, code, none⟩) [] [] (groupState .breaking) s

/-- R203: %qstat. -/
def qStat (g : Group) : Nat :=
  (List.range 16).foldl (fun n i =>
    n + (if (g.queue i).bind.isSome then 2 ^ i else 0) + (if (g.queue i).oldest.isSome then 2 ^ (16 + i) else 0)) 0

/-- R30: the value of a special register that is read into a scalar. -/
def specialValue (s : State) (idx : Nat) : Nat :=
  let lin := ((spanOf? s s.g.span).map (fun x => x.lin)).getD 0
  let vx := ((launchOf? s).map (fun l => l.vdx)).getD 1
  let vy := ((launchOf? s).map (fun l => l.vdy)).getD 1
  let vz := ((launchOf? s).map (fun l => l.vdz)).getD 1
  match idx with
  | 1 => s.g.index
  | 2 => lin % vx
  | 3 => lin / vx % vy
  | 4 => lin / (vx * vy)
  | 5 => vx
  | 6 => vy
  | 7 => vz
  | 8 => s.g.core
  | 9 => s.g.core / 4
  | 10 => s.g.die
  | 11 => s.pkg
  | 12 => s.tick
  | 13 => s.g.ctx
  | 14 => ((ctxOf? s s.g.ctx).map (fun c => c.owner)).getD 0
  | 15 => s.g.txstat.toNat
  | 16 => s.g.wstat.toNat
  | 17 => qStat s.g
  | 18 => s.g.trapinfo.toNat
  | 19 => s.g.fmode.toNat
  | 20 => s.g.flags.toNat
  | 22 => s.g.cntT * 2 ^ 24 + s.g.cntC * 2 ^ 16 + s.g.cntS * 2 ^ 8 + s.g.cntL
  | 23 => s.g.live
  | _ => 0

/-- R30, R85: whether a special register is per lane. -/
def perLane (idx : Nat) : Bool := idx == 0 || idx == 21

/-- R238. -/
def execSreg (idx : Nat) (r : Nat) (s : State) : Out :=
  if 24 ≤ idx then issueWord (some (plainTrap .specialRegister)) [] [] nop s
  else if perLane idx then
    issueWord (firstTrap [rangeTrap s [(r, 1)], liveTrap s [r]]) [r] []
      (fun t => vSet r (fun l => if idx = 0 then BitVec.ofNat 32 l else rngGet t l) t) s
  else issueWord none [] [r] (fun t => sSet r (BitVec.ofNat 64 (specialValue t idx)) t) s

/-- R27, R28: a write of %fmode: reserved bits are ignored, and rounding modes 6 and 7 trap. -/
def writeFmode (x : W64) (s : State) : State :=
  let v := x.toNat % 32
  if 6 ≤ v % 8 then takeTrap (plainTrap .specialRegister) s
  else { s with g := { s.g with fmode := BitVec.ofNat 32 v } }

/-- R26: writing 1 to a flag clears it. -/
def clearFlags (x : W64) (s : State) : State :=
  { s with g := { s.g with flags := s.g.flags &&& ~~~ (BitVec.ofNat 16 (x.toNat % 2048)) } }

/-- R29: %rng written in the active lanes; 0 is stored as 1. -/
def writeRng (r : Nat) (s : State) : State :=
  (lanesOf s.sp.em).foldl (fun t l => rngSet l (if vGet s r l = 0 then 1 else vGet s r l) t) s

/-- R238, R27, R28, R31. -/
def execSwreg (idx : Nat) (r : Nat) (s : State) : Out :=
  match idx with
  | 19 => issueWord none [] [r] (fun t => writeFmode (sGet t r) t) s
  | 20 => issueWord none [] [r] (fun t => clearFlags (sGet t r) t) s
  | 21 => issueWord (rangeTrap s [(r, 1)]) [r] [] (readGuard [r] (writeRng r)) s
  | _ => issueWord (some (plainTrap .specialRegister)) [] [] nop s

/-- R85: whether the group in focus is of the firmware complex. -/
def isFirmware (s : State) : Bool := ((viaductOf? s s.g.viaduct).map (fun v => v.firmware)).getD false

/-- R85, R239: halt stops a firmware group until a doorbell of its quad's mailbox. -/
def execHalt (s : State) : Out :=
  issueWord (trapIf (!isFirmware s) .illegalEncoding) [] [] (groupState .halted) s

/-- R239: the group and split whose trap state firmware holds. DESIGN CHOICE, log entry 31: the first split, in
the order of groups and splits, that is parked for a debugger or by faults. -/
def heldSplit (s : State) : Option (Nat × Nat) :=
  ((allGroups s).flatMap (fun g =>
    ((splitsOf s g).filter (fun p => p.state == .debug || p.state == .parked)).map (fun p => (g.gid, p.num)))).head?

/-- R239, R240: a viaduct parked for the debugger runs again. -/
def unparkViaduct (v : Viaduct) : Viaduct := if v.st = .debugParked then { v with st := .started, trap := none } else v

/-- R239: a held split runs on at its saved PC, its viaduct with it; its done mask and replay count are kept. -/
def resumeHeld (s : State) : State :=
  match heldSplit s with
  | none => s
  | some w =>
    modSplits w.1 (fun p => if p.num = w.2 then { p with state := .running, faults := [] } else p)
      (modViaduct (((groupOf? s w.1).map (fun g => g.viaduct)).getD 0) unparkViaduct s)

/-- R85, R239. -/
def execEret (s : State) : Out := issueWord (trapIf (!isFirmware s) .illegalEncoding) [] [] resumeHeld s

/-- DEBUGGER_RESUME (R240): a viaduct, or a group of it, parked for a debugger goes on. -/
def execDebuggerResume (viaduct : Nat) (s : State) : Out :=
  let t := modViaduct viaduct unparkViaduct s
  .next (((allGroups t).filter (fun g => g.viaduct == viaduct)).foldl (fun u g =>
    modSplits g.gid (fun p => if p.state = .debug ∨ p.state = .breaking then { p with state := .running } else p) u) t)

/-- MAILBOX_DOORBELL (R239): the halted firmware groups of a quad go on. -/
def execMailboxDoorbell (die quad : Nat) (s : State) : Out :=
  .next (((allGroups s).filter (fun g => g.die == die && g.core / 4 == quad)).foldl (fun u g =>
    modSplits g.gid (fun p => if p.state = .halted then { p with state := .running } else p) u) s)

end Sys2Proof.Machine
end

