-- ==== Sys2Proof/Machine/Fetch.lean ====
section
/-! DEFINITION. The issue of a split's next word: the conditions of issue, the fetch and check of a clause, and
the merge of splits that meet at a header (R63 to R74, R264 to R269). -/

namespace Sys2Proof.Machine

open Sys2Proof

/-! Conditions of issue. -/

/-- R264: whether a group has issued its first clause and its span's start gate is shut. -/
def gateShut (s : State) (g : Group) : Bool :=
  g.issuedFirst && !((spanOf? s g.span).map (fun x => x.gateOpen || x.restored)).getD true

/-- R267, R454: the group-slot grant of a context on a core of a die. -/
def slotGrant (s : State) (ctx die core : Nat) : Nat :=
  match ctxOf? s ctx with
  | none => 32
  | some c => let v := mapGet 0 c.coreGrants (die * 1024 + core); if v = 0 then 32 else v

/-- Groups in ascending slot order. -/
def bySlot (gs : List Group) : List Group :=
  (List.range 32).flatMap (fun i => gs.filter (fun g => g.gslot == i))

/-- R267: the resident groups of a context on a core, in ascending slot order. -/
def residentOn (s : State) (ctx die core : Nat) : List Group :=
  bySlot ((allGroups s).filter (fun g => g.ctx == ctx && g.die == die && g.core == core &&
    g.residence == .resident && !g.released))

/-- The key of a context's rotation pointer on a core. -/
def rotationKey (ctx die core : Nat) : Nat := (ctx * 4 + die) * 1024 + core

/-- R364: whether a group is the communication group of its span. -/
def isComm (s : State) (g : Group) : Bool :=
  ((viaductOf? s g.viaduct).map (fun v => v.launch.comm == g.index)).getD false

/-- R267, R364: whether a group lies in its context's issue set: the pointer counts groups from the lowest slot. -/
def inIssueSet (s : State) (g : Group) : Bool :=
  let gs := residentOn s g.ctx g.die g.core
  let n := slotGrant s g.ctx g.die g.core
  let r := gs.length
  if r ≤ n ∨ isComm s g then true
  else
    let p := mapGet 0 s.ten.rotation (rotationKey g.ctx g.die g.core)
    (List.range n).any (fun i => ((gs[(p + i) % r]?).map (fun x => x.gid == g.gid)).getD false)

/-- Whether a group's words can issue at all: it is resident and its viaduct runs. -/
def groupRuns (s : State) (g : Group) : Bool :=
  g.residence == .resident && !g.stopped && !g.exited && viaductRuns s g

/-! The fetch of a clause (R62, R63). -/

/-- The words of a clause: its header and its body, or a fault with the address it was met at. -/
def fetchBody (s : State) (pc : Nat) : Nat → Except (WalkFault × Nat) (List W)
  | 0 => .ok []
  | n + 1 =>
    match fetchBody s pc n with
    | .error e => .error e
    | .ok ws =>
      match fetchWord s (pc + 4 * (n + 1)) with
      | .error f => .error (f, pc + 4 * (n + 1))
      | .ok w => .ok (ws ++ [BitVec.ofNat 32 w])

/-- R62, R63: the header and body at an address; a word that is no header has no body. -/
def fetchClause (s : State) (pc : Nat) : Except (WalkFault × Nat) (W × List W) :=
  match fetchWord s pc with
  | .error f => .error (f, pc)
  | .ok w =>
    let h := BitVec.ofNat 32 w
    match fetchBody s pc (if isHeaderWord w then (headerOf h).n else 0) with
    | .error e => .error e
    | .ok ws => .ok (h, ws)

/-- R63, R308: a fetch that faults aborts the region. -/
def fetchFault (e : WalkFault × Nat) (s : State) : State :=
  abortRegion (regionFaults s ++ [faultOf s 3 1 e.2 (domainOf s s.g.ctx e.2) e.1]) s

/-- R70: the trap of a failed clause check. -/
def failKind : ClauseFail → TrapKind
  | .clauseFormat => .clauseFormat
  | .illegalEncoding => .illegalEncoding

/-- R65: whether a header's wait fields are met. -/
def waitsMet (s : State) (h : Header) : Bool :=
  counterMet s.g.cntL h.l && counterMet s.g.cntS h.s && counterMet s.g.cntC h.c && counterMet s.g.cntT h.t

/-! Words. -/

/-- What taking up a split leads to: a word to execute, or another next state. -/
inductive Prepared
  | other (s : State)
  | run (i : Instr) (s : State)

/-- The state in which body word k of the clause of n words at sp.pc is executed, with rest words after it: the
PC has moved past the word, and past the clause after its last word. -/
def advance (k n rest : Nat) (s : State) : State :=
  let next := n + 1 - rest
  { s with iss := ⟨s.sp.pc, k, next, n, false⟩,
           sp := if rest = 0 then { s.sp with pc := s.sp.pc + 4 * (n + 1), widx := 0 } else { s.sp with widx := next } }

/-- Body word k of a fetched clause, decoded. -/
noncomputable def wordAtIndex (body : List W) (k : Nat) (s : State) : Prepared :=
  match decodeWords (body.drop (k - 1)) with
  | .ok p => .run p.1 (advance k body.length p.2.length s)
  | .error _ => .other (takeTrap (plainTrap .illegalEncoding) (advance k body.length 0 s))

/-- R66, R264, R266: what the issue of a clause's first word records in its group. -/
def markIssued (h : Header) (s : State) : State :=
  { s with g := { s.g with issuedFirst := true, lastSplit := s.sp.num, stamp := coreClk s s.g.die s.g.core + 1,
                           yieldMark := h.yieldBit } }

/-! Merging at a header (R269). -/

/-- R269: whether two splits of the group in focus may merge at a header. -/
def mayMerge (s : State) (o : Split) : Bool :=
  o.pc == s.sp.pc && o.widx == 0 && o.state == .running && o.pend == [] && o.stack == s.sp.stack &&
    !inTx s && !(s.g.tx.any (fun t => t.split == o.num && t.phase != .ended))

/-- R269: both splits run their boundaries, then the split in focus merges with the other. -/
def startMerge (o : Split) (s : State) : State :=
  let others := updateFirst (fun p => p.num == o.num)
    (fun p => { p with pend := [.boundary, .mergeReady], pendAt := (p.pc, 0) }) s.g.splits
  let t := { s with g := { s.g with splits := others }, iss := ⟨s.sp.pc, 0, 0, 0, false⟩ }
  blockOn [.boundary, .mergeWith o.num] t

/-! Taking up a split. -/

/-- R65, R70: the first word of the clause at the PC of the split in focus; u is the state where nothing is done
because the clause waits. -/
noncomputable def firstWord (u s : State) : Prepared :=
  let v := settleRegion s
  let t := { v with sp := { v.sp with bndPending := false } }
  match fetchClause t t.sp.pc with
  | .error e => .other (fetchFault e t)
  | .ok c =>
    match clauseCheck c.1 c.2 with
    | some x => .other (takeTrap (plainTrap (failKind x.1)) { t with iss := ⟨t.sp.pc, x.2, 0, 0, false⟩ })
    | none =>
      if waitsMet t (headerOf c.1) then
        wordAtIndex c.2 1 (markIssued (headerOf c.1) (attrUse t.g.die t.g.core t.g.ctx t.sp.pc t))
      else .other u

/-- A later word of the clause at the PC of the split in focus. -/
noncomputable def laterWord (s : State) : Prepared :=
  match fetchClause s s.sp.pc with
  | .error e => .other (fetchFault e s)
  | .ok c => wordAtIndex c.2 s.sp.widx s

/-- R239: a split that reaches the clause after a breakpoint parks. -/
def parkForDebug (s : State) : State := { s with sp := { s.sp with state := .debug } }

/-- The next word of the running split in focus; u is the state where nothing is done. -/
noncomputable def nextWord (u s : State) : Prepared :=
  if s.sp.widx ≠ 0 then laterWord s
  else if gateShut s s.g then .other u
  else
    match s.g.splits.find? (mayMerge s) with
    | some o => .other (startMerge o s)
    | none => firstWord u s

/-- R205, R243, R265: a split of a group is taken up: its deferred trap, its blocked word, or its next word. -/
noncomputable def takeUp (gid num : Nat) (s : State) : Prepared :=
  match focus? gid num s with
  | none => .other s
  | some t =>
    if !groupRuns t t.g then .other s
    else if t.g.deferred ≠ [] then .other (raiseDeferred gid t)
    else
      match t.sp.state with
      | .parked => .other s
      | .halted => .other s
      | .debug => .other s
      | .running =>
        if t.sp.pend ≠ [] then .other (runMicros t.sp.pend t)
        else if !inIssueSet t t.g then .other s else nextWord s t
      | .breaking =>
        if t.sp.pend ≠ [] then .other (runMicros t.sp.pend t)
        else if t.sp.widx = 0 then .other (parkForDebug t)
        else nextWord s t

/-- R265: whether a split is ready: its next word could issue. -/
def splitReady (s : State) (g : Group) (p : Split) : Bool :=
  groupRuns s g && p.state == .running && p.pend == [] && inIssueSet s g &&
    (p.widx != 0 || (!gateShut s g &&
      match focus? g.gid p.num s with
      | none => false
      | some t =>
        match fetchWord t p.pc with
        | .ok w => !isHeaderWord w || waitsMet t (headerOf (BitVec.ofNat 32 w))
        | .error _ => true))

/-- R266: whether a group is ready: one of its splits is. -/
def groupReady (s : State) (g : Group) : Bool := g.deferred != [] || (splitsOf s g).any (splitReady s g)

/-- R266: groups that have become ready since a state carry the clk of now as their ready stamp. -/
def restamp (old s : State) : State :=
  { s with groups := s.groups.map (fun g =>
      if groupReady s g && !(((groupOf? old g.gid).map (groupReady old)).getD false) && decide (g.stamp ≤ coreClk s g.die g.core)
      then { g with stamp := coreClk s g.die g.core } else g) }

end Sys2Proof.Machine
end

