-- ==== Sys2Proof/Machine/Planes.lean ====
section
/-! DEFINITION. The plane store: reservation records, images, the conversion of blocks at load and their counts
(R52 to R57, R168 to R176). -/

namespace Sys2Proof.Machine

open Sys2Proof

/-! Formats (R52). -/

/-- R52: the element bits of a format code. -/
def planeBits (fmt : Nat) : Nat :=
  match fmt with
  | 0 => 4
  | 1 => 4
  | 8 => 6
  | 9 => 6
  | 10 => 4
  | 11 => 16
  | 12 => 16
  | 13 => 1
  | 14 => 2
  | 15 => 2
  | 16 => 4
  | _ => 8

/-- R52, R171: the plane count W of a format code, the weight width for codes 13 to 16. -/
def planeWidth (fmt : Nat) : Nat := if fmt = 10 then 5 else planeBits fmt

/-- R52: whether a format has one E8M0 scale per block, apart from the elements. -/
def planeMx (fmt : Nat) : Bool := memNat fmt [3, 6, 7, 8, 9, 10]

/-- R52: the element format of a floating-point code. -/
def planeFloat (fmt : Nat) : Option Fmt :=
  match fmt with
  | 4 => some fmtE4M3
  | 5 => some fmtE5M2
  | 6 => some fmtE4M3
  | 7 => some fmtE5M2
  | 8 => some fmtE3M2
  | 9 => some fmtE2M3
  | 10 => some fmtE2M1
  | 11 => some fmtBf16
  | 12 => some fmtF16
  | _ => none

/-! Reservation records (R169 to R172). -/

/-- R169: the fields of a reservation record. -/
structure ResRec where
  fmt : Nat
  roleB : Bool
  tl : Bool
  mext : Nat
  kext : Nat
  korg : Nat
  base : Nat
  size : Nat
  soff : Nat
  clean : Bool
  deriving DecidableEq, Repr

/-- R169: the fields of the two words of a record; clean says that every reserved field is zero. -/
def resRec (w0 w1 : W64) : ResRec :=
  let a := w0.toNat
  let b := w1.toNat
  { fmt := bitsOf a 58 54, roleB := bitOf a 53, tl := bitOf a 52, mext := bitsOf a 47 41, kext := bitsOf a 40 30,
    korg := bitsOf a 29 24, base := bitsOf a 23 15, size := bitsOf a 14 5, soff := bitsOf b 17 0,
    clean := bitsOf a 63 59 == 0 && bitsOf a 51 48 == 0 && bitsOf a 4 0 == 0 && bitsOf b 63 18 == 0 }

/-- The record of a held reservation. -/
def Reservation.record (r : Reservation) : ResRec := resRec r.word0 r.word1

/-- R170: the blocks along k. -/
def ResRec.nb (r : ResRec) : Nat := (r.kext + 31) / 32

/-- R170: the image bytes of a block. -/
def ResRec.bsz (r : ResRec) : Nat := 4 * planeBits r.fmt + (if r.fmt = 1 then 1 else 0)

/-- R170: the image bytes of all blocks. -/
def ResRec.body (r : ResRec) : Nat := r.mext * r.nb * r.bsz

/-- R170: the image size. -/
def ResRec.imageSize (r : ResRec) : Nat := if planeMx r.fmt then r.soff + r.mext * r.nb else r.body

/-- R171: the plane-store bytes a reservation must have. -/
def ResRec.need (r : ResRec) : Nat :=
  r.mext * r.nb * (4 * planeWidth r.fmt + (if r.fmt = 1 then 48 else 16) + (if r.tl then 256 else 0))

/-- R172: whether a record may not be used: units is the allotment, others the other held records. -/
def ResRec.bad (units : Nat) (others : List ResRec) (r : ResRec) : Bool :=
  !r.clean || decide (17 ≤ r.fmt) || (!r.roleB && r.tl) || (r.roleB && r.fmt == 1) ||
    (r.tl && !memNat r.fmt [2, 4, 5, 6, 7]) ||
    decide (r.mext = 0 ∨ (if r.roleB then 64 else 32) < r.mext ∨ r.kext = 0 ∨ 1024 < r.kext ∨ r.size = 0 ∨ 512 < r.size) ||
    decide (units < r.base + r.size) ||
    others.any (fun o => decide (o.base < r.base + r.size ∧ r.base < o.base + o.size)) ||
    decide (r.size * 256 < r.need) || (!planeMx r.fmt && r.soff != 0) ||
    (planeMx r.fmt && decide (r.soff < r.body ∨ 2 ^ 18 < r.soff + r.mext * r.nb))

/-- R168: a held reservation of the span and core of a group. -/
def resOf? (s : State) (span core h : Nat) : Option Reservation :=
  (spanCoreOf? s span core).bind (fun c => c.resv.find? (fun r => r.handle == h))

/-- A held reservation changed. -/
def modRes (span core h : Nat) (f : Reservation → Reservation) (s : State) : State :=
  modSpanCore span core (fun c => { c with resv := updateFirst (fun r => r.handle == h) f c.resv }) s

/-- The index of block b of row or column m. -/
def blockKey (m b : Nat) : Nat := m * 32 + b

/-- Block b of row or column m of a reservation. -/
def Reservation.block (r : Reservation) (m b : Nat) : Block := mapGet Block.zero r.blocks (blockKey m b)

/-! Conversion (R38, R53 to R57). -/

/-- R35: element j of a packed run of e-bit elements. -/
def packedElem (run : Nat) (e j : Nat) : Nat := run / 2 ^ (e * j) % 2 ^ e

/-- What a conversion makes of one element: its integer, its class, and whether it was rounded. -/
structure ElemConv where
  n : Int
  cls : Option ElemClass
  rounded : Bool
  deriving DecidableEq, Repr

/-- A padding position. -/
def ElemConv.pad : ElemConv := ⟨0, none, false⟩

/-- R54: an integer element. -/
def convInt (w code : Nat) : ElemConv :=
  let n := toSigned w code
  ⟨n, if n = 0 then some .zero else none, false⟩

/-- R53: a weight; its code is kept beside it. -/
def convWeight (fmt code : Nat) : ElemConv :=
  let n : Int :=
    match fmt with
    | 13 => if code = 1 then 1 else -1
    | 15 => if code = 1 then 1 else if code = 3 then -1 else 0
    | 14 => toSigned 2 code
    | _ => toSigned 4 code
  ⟨n, if n = 0 then some .zero else none, false⟩

/-- R54, R56: a floating-point element in a block whose largest exponent is emax. -/
def convFloat (w : Nat) (emax : Int) (v : FVal) : ElemConv :=
  match v with
  | .nan _ => ⟨0, some .nan, false⟩
  | .inf neg => ⟨0, some (if neg then .negInf else .posInf), false⟩
  | .fin neg m e =>
    if m = 0 then ⟨0, some .zero, false⟩
    else
      let u := roundAt .rne neg m 1 e (emax - (w - 2))
      ⟨if neg then -(u.1 : Int) else u.1, none, u.2.1⟩

/-- R38, R57: the slots of an ochre-4 block decoded left to right from slot i, in at most the steps given. -/
def ochreSlots (run : Nat) : Nat → Nat → List (Option ElemClass × Int × Bool)
  | 0, _ => []
  | fuel + 1, i =>
    if 32 ≤ i then []
    else
      let c := packedElem run 4 i
      if c ≠ 8 then
        (if c = 0 then some .zero else none, toSigned 4 c, false) :: ochreSlots run fuel (i + 1)
      else if 30 ≤ i then (some .zero, 0, true) :: ochreSlots run fuel (i + 1)
      else
        let e := packedElem run 4 (i + 1) * 16 + packedElem run 4 (i + 2)
        let o : ElemClass := if e % 128 = 127 then .nan else .outlier e
        (some o, 0, false) :: (some .payload, 0, false) :: (some .payload, 0, false) :: ochreSlots run fuel (i + 3)

/-- R54: the largest exponent of the real finite nonzero elements. -/
def blockEmax (vs : List FVal) : Option Int :=
  vs.foldl (fun acc v =>
    match v with
    | .fin _ m e =>
      if m = 0 then acc
      else
        let x : Int := (Nat.log2 m : Int) + e
        some (match acc with | none => x | some y => max x y)
    | .inf _ => acc
    | .nan _ => acc) none

/-- R55: a 6-bit saturating count raised. -/
def sat63 (a b : Nat) : Nat := min 63 (a + b)

/-- The mark that a written map carries once a poisoned byte has come in since the last conversion. -/
def poisonMark : Nat := 1000

/-- A mark put into a written map. -/
def addMark (i : Nat) (ws : List Nat) : List Nat := if memNat i ws then ws else ws ++ [i]

/-- What converting a block gives: the block, and the flags by position. -/
structure Converted where
  block : Block
  flags : List (Nat × Flags)

/-- R54 to R57: the block of a record with element run and scale byte x; real counts the real positions. -/
def convertBlock (r : ResRec) (real run x : Nat) (old : Block) : Converted :=
  let w := planeWidth r.fmt
  let ps := List.range real
  let codes := ps.map (fun j => (j, packedElem run (planeBits r.fmt) j))
  let nanB := (planeMx r.fmt || r.fmt == 1) && x == 255
  let scale : Int := if planeMx r.fmt ∨ r.fmt = 1 then (x : Int) - 127 else 0
  let slots := ochreSlots run 32 0
  let vals := (planeFloat r.fmt).map (fun f => codes.map (fun c => decodeFloat f c.2))
  let emax := (vals.bind blockEmax).getD 0
  let elems : List (Nat × ElemConv × Bool) :=
    if nanB then ps.map (fun j => (j, ⟨0, some .nan, false⟩, false))
    else if r.fmt = 1 then
      ps.map (fun j => let o := nthD (none, 0, false) slots j; (j, ⟨o.2.1, o.1, false⟩, o.2.2))
    else
      match planeFloat r.fmt with
      | some f => codes.map (fun c => (c.1, convFloat w emax (decodeFloat f c.2), false))
      | none =>
        if 13 ≤ r.fmt then codes.map (fun c => (c.1, convWeight r.fmt c.2, false))
        else codes.map (fun c => (c.1, convInt (planeBits r.fmt) c.2, false))
  let rounded := elems.filter (fun e => e.2.1.rounded)
  let lost := rounded.filter (fun e => e.2.1.n == 0)
  let quant : Int :=
    if (planeFloat r.fmt).isSome then emax - (w - 2) + scale else if r.fmt = 3 then scale - 6 else scale
  let block : Block :=
    { ints := elems.foldl (fun m e => mapSet 0 m e.1 e.2.1.n) [], quant := quant, nanBlock := nanB,
      classes := elems.filterMap (fun e => e.2.1.cls.map (fun c => (e.1, c))),
      raw := codes.foldl (fun m c => mapSet 0 m c.1 c.2) [],
      under := sat63 old.under lost.length, align := sat63 old.align rounded.length, written := [],
      tabLo := false, tabHi := false, poison := memNat poisonMark old.written }
  ⟨block, elems.map (fun e => (e.1, flIf e.2.1.rounded flAlign ||| flIf (e.2.1.rounded && e.2.1.n == 0) flUnderflow |||
    flIf e.2.2 flEscape))⟩

/-! The image (R170, R176). -/

/-- R170: the block (m, b) and the place in it of an image byte; the scale byte has place bsz. -/
def imagePlace (r : ResRec) (off : Nat) : Option (Nat × Nat × Nat) :=
  if off < r.body then some (off / r.bsz / r.nb, off / r.bsz % r.nb, off % r.bsz)
  else if planeMx r.fmt ∧ r.soff ≤ off ∧ off < r.soff + r.mext * r.nb then
    some ((off - r.soff) / r.nb, (off - r.soff) % r.nb, r.bsz)
  else none

/-- R176: how many written-map marks a complete block has. -/
def ResRec.marks (r : ResRec) : Nat := r.bsz + (if planeMx r.fmt then 1 else 0)

/-- R54: the real positions of block b. -/
def ResRec.realIn (r : ResRec) (b : Nat) : Nat := min 32 (r.kext - 32 * b)

/-- R176: a block whose bytes have all been written is converted from the image. -/
def convertIfWhole (m b : Nat) (r : Reservation) : Reservation × List (Nat × Flags) :=
  let k := r.record
  let blk := r.block m b
  if (blk.written.filter (fun i => i != poisonMark)).length < k.marks then (r, [])
  else
    let start := (m * k.nb + b) * k.bsz
    let bytes := (List.range k.bsz).map (fun i => mapGet 0 r.image (start + i))
    let x := if k.fmt = 1 then (nthD 0 bytes 16).toNat else (mapGet 0 r.image (k.soff + m * k.nb + b)).toNat
    let c := convertBlock k (k.realIn b) (bytesToNat (bytes.take (4 * planeBits k.fmt))) x blk
    ({ r with blocks := mapSet Block.zero r.blocks (blockKey m b) c.block }, c.flags)

/-- R160, R176: one image byte written: its mark in its block's written map, and the block's poison. -/
def putImageByte (off : Nat) (v : Byte) (poison : Bool) (r : Reservation) : Reservation :=
  match imagePlace r.record off with
  | none => { r with image := mapSet 0 r.image off v }
  | some p =>
    let blk := r.block p.1 p.2.1
    let b2 := { blk with
      written := addMark p.2.2 (if poison then addMark poisonMark blk.written else blk.written),
      poison := blk.poison || poison }
    { r with image := mapSet 0 r.image off v, blocks := mapSet Block.zero r.blocks (blockKey p.1 p.2.1) b2 }

/-- R26, R54: the flags of a converted block's elements that lie in the image bytes of a copy's active lanes. The elements
whose bytes an earlier copy wrote raise theirs for no group (DESIGN CHOICE, log entry 106). -/
def ownFlags (k : ResRec) (m b : Nat) (own : Nat → Bool) (fl : List (Nat × Flags)) : Flags :=
  let e := planeBits k.fmt
  let start := (m * k.nb + b) * k.bsz
  flAll (fl.map (fun p => flIf (own (start + e * p.1 / 8)) p.2))

/-- R176: bytes written to an image from an offset on; whole blocks convert, and the flags of the elements that
own names come with it. -/
def writeImage (off : Nat) (bs : List Byte) (poison : Bool) (own : Nat → Bool) (r : Reservation) : Reservation × Flags :=
  let r1 := bs.zipIdx.foldl (fun a p => putImageByte (off + p.2) p.1 poison a) r
  let touched := ((List.range bs.length).filterMap (fun i =>
    (imagePlace r.record (off + i)).map (fun p => (p.1, p.2.1)))).eraseDups
  touched.foldl (fun a t =>
    let c := convertIfWhole t.1 t.2 a.1
    (c.1, a.2 ||| ownFlags r.record t.1 t.2 own c.2)) (r1, 0)

end Sys2Proof.Machine
end

