-- ==== Sys2Proof/Machine/Windows.lean ====
section
/-! DEFINITION. Fabric windows, their counters, and streams (R355 to R358). -/

namespace Sys2Proof.Machine

open Sys2Proof

/-- R355: the bound window of an index of a context on a die of this package. -/
def windowOf? (s : State) (die ctx idx : Nat) : Option Window :=
  s.fab.windows.find? (fun w => w.die == die && w.ctx == ctx && w.idx == idx && w.bound)

/-- A window record changed; the conditions on its counter are evaluated (R332). -/
def modWindow (die ctx idx : Nat) (f : Window → Window) (s : State) : State :=
  evalMonitors { s with fab := { s.fab with
    windows := updateFirst (fun w => w.die == die && w.ctx == ctx && w.idx == idx) f s.fab.windows } }

/-- R355: n more lanes issued that name a window of the issuing die. -/
def noteIssued (die ctx idx n : Nat) (s : State) : State :=
  modWindow die ctx idx (fun w => { w with issued := (w.issued + n) % 2 ^ 32 }) s

/-- R355: one more of those lanes acknowledged. -/
def noteAcked (die ctx idx : Nat) (s : State) : State :=
  modWindow die ctx idx (fun w => { w with acked := (w.acked + 1) % 2 ^ 32 }) s

/-- R355: the target completion counter of a window raised. -/
def raiseTarget (die ctx idx n : Nat) (s : State) : State :=
  modWindow die ctx idx (fun w => { w with target := (w.target + n) % 2 ^ 32 }) s

/-- R356: the stream of a context from a source agent to a window of an agent. -/
def streamOf (s : State) (ctx src agent win : Nat) : Stream :=
  (s.fab.streams.find? (fun t => t.ctx == ctx && t.src == src && t.agent == agent && t.win == win)).getD
    ⟨ctx, src, agent, win, 0, 0, [], 0⟩

/-- A stream replaced. -/
def setStream (t : Stream) (s : State) : State :=
  { s with fab := { s.fab with streams := s.fab.streams.filter (fun x =>
      !(x.ctx == t.ctx && x.src == t.src && x.agent == t.agent && x.win == t.win)) ++ [t] } }

/-- R356: the 32-bit sequence number after another. -/
def nextSeq (n : Nat) : Nat := (n + 1) % 2 ^ 32

/-- R356: the next sequence number of a stream is taken. -/
def takeSeq (ctx src agent win : Nat) (s : State) : Nat × State :=
  let t := streamOf s ctx src agent win
  (nextSeq t.next, setStream { t with next := nextSeq t.next } s)

/-- R356: the highest contiguous number after the numbers above it are drawn in. -/
def drawIn : Nat → Nat → List Nat → Nat × List Nat
  | 0, b, xs => (b, xs)
  | fuel + 1, b, xs =>
    if memNat (nextSeq b) xs then drawIn fuel (nextSeq b) (xs.filter (fun x => x != nextSeq b)) else (b, xs)

/-- R356: whether a number has been applied: it is not above the highest contiguous one, or stands in the map above it. The
64 unacknowledged lanes of a stream lie within half the numbers. -/
def Stream.has (t : Stream) (seq : Nat) : Bool :=
  let d := (seq + 2 ^ 32 - t.base) % 2 ^ 32
  d == 0 || decide (2 ^ 31 ≤ d) || memNat seq t.above

/-- R356, R357: a sequence number applied at the target, an applied put's being counted: none where it is a duplicate. -/
def Stream.apply? (t : Stream) (seq : Nat) (put : Bool) : Option Stream :=
  if t.has seq then none
  else
    let p := drawIn 65 t.base (seq :: t.above)
    some { t with base := p.1, above := p.2, puts := if put then t.puts + 1 else t.puts }

/-- R356: a sequence number applied; a duplicate changes nothing. -/
def applySeq (ctx src agent win seq : Nat) (put : Bool) (s : State) : State :=
  match (streamOf s ctx src agent win).apply? seq put with
  | some t => setStream t s
  | none => s

/-- R355, R356: the commands whose lanes belong to streams and are counted at their windows. -/
def FabKind.streams : FabKind → Bool
  | .putWin => true
  | .winAdd => true
  | .collRed => true
  | .collBcast => true
  | .getWin => false
  | .winRead => false
  | .mordAlloc => false
  | .mordSend => false
  | .mordStat => false
  | .mordFree => false
  | .histRead => false

/-- R356: the lanes of a stream that are not acknowledged. -/
def unacked (s : State) (ctx src agent win : Nat) : Nat :=
  let puts := (s.eng.copies.filter (fun c => c.op == .put && agentOf s c.die == src && src == agent &&
      (groupOf? s c.gid).any (fun g => g.ctx == ctx))).map (fun c =>
    (c.lanes.filter (fun l => !l.done && l.mask == win)).length)
  let cmds := (s.eng.fabs.filter (fun c => c.ctx == ctx && c.src == src && c.kind.streams)).map (fun c =>
    (c.lanes.filter (fun l => !l.acked && l.win == win && l.agent == agent)).length)
  (puts ++ cmds).foldl (fun a n => a + n) 0

/-- R356: whether lanes, as (agent, window), would lift a stream above 64 unacknowledged lanes. -/
def streamFull (s : State) (ctx src : Nat) (ls : List (Nat × Nat)) : Bool :=
  ls.eraseDups.any (fun p => decide (64 < unacked s ctx src p.1 p.2 + (ls.filter (fun q => q == p)).length))

/-- Each lane of a list takes the next sequence number of its stream. -/
def takeSeqs (ctx src : Nat) : List (Nat × Nat) → State → List Nat × State
  | [], s => ([], s)
  | p :: ps, s =>
    let a := takeSeq ctx src p.1 p.2 s
    let r := takeSeqs ctx src ps a.2
    (a.1 :: r.1, r.2)

/-- R355: each lane of a list counts as issued at its window. -/
def noteIssuedAll (die ctx : Nat) (ls : List Nat) (s : State) : State :=
  ls.eraseDups.foldl (fun t w => noteIssued die ctx w ((ls.filter (fun x => x == w)).length) t) s

end Sys2Proof.Machine
end

