-- ==== Sys2Proof/Machine/Copies.lean ====
section
/-! DEFINITION. Major 7: the copies and the transfers of the copy engine (R155 to R162, R333 to R337). -/

namespace Sys2Proof.Machine

open Sys2Proof

/-! Issue (R155 to R158, R162, R176). -/

/-- R157: the apertures a copy's source may name. -/
def CopyOp.srcSpaces : CopyOp → List Space
  | .g2s => [.glob, .loc]
  | .g2p => [.glob, .loc]
  | .mcast => [.glob, .loc]
  | .s2g => [.store, .quad]
  | .s2s => [.store, .quad]
  | .s2p => [.store, .quad]
  | .put => [.store, .quad]
  | .fill => []
  | .close => []

/-- R157: the apertures a copy's destination may name. -/
def CopyOp.dstSpaces : CopyOp → List Space
  | .g2s => [.store, .quad]
  | .s2s => [.store, .quad]
  | .s2g => [.glob, .loc]
  | .fill => [.glob, .loc, .store, .quad]
  | .put => [.glob]
  | .g2p => []
  | .s2p => []
  | .mcast => []
  | .close => []

/-- R143: a checked address as the generic address or global address it stands for. -/
def copyPlace (s : State) (spaces : List Space) (z l : Nat) (a : W64) : Except Trap Nat :=
  match placeOf s spaces z l a with
  | .ok p => .ok p.generic
  | .error k => .error (laneTrap k l a)

/-- R176: a destination in the plane store: handle * 2^32 + image offset. -/
def planeDst (s : State) (z l : Nat) (a : W64) : Except Trap Nat :=
  let hi := a.toNat / 2 ^ 32
  let off := a.toNat % 2 ^ 32
  match (if 32 ≤ hi then none else resOf? s s.g.span s.g.core hi) with
  | none => .error (laneTrap .planeReservation l a)
  | some r =>
    if r.record.imageSize < off + z then .error (laneTrap .aperture l a)
    else if off % z ≠ 0 then .error (laneTrap .misaligned l a)
    else .ok (hi * 2 ^ 32 + off)

/-- R162: the receiver span of a core of the issuing quad: the resident span of the same viaduct with the lowest
linear index there. -/
def receiverOf (s : State) (core : Nat) : Option Nat :=
  let xs := s.spans.filter (fun x => x.viaduct == s.g.viaduct && x.die == s.g.die && x.residence == .resident &&
    x.cores.any (fun c => c.core == core))
  (leastBy (fun x => x.lin) xs).map (fun x => x.uid)

/-- R162: the cores of the issuing quad that a receiver mask names. -/
def maskCores (s : State) (mask : Nat) : List Nat :=
  ((List.range 4).filter (fun i => bitOf mask i)).map (fun i => s.g.core / 4 * 4 + i)

/-- R162, R381: the core store of a span, in bytes. -/
def storeExtent (s : State) (span : Nat) : Nat :=
  (((spanOf? s span).bind (fun x => viaductOf? s x.viaduct)).map (fun v => v.launch.store * 256)).getD 0

/-- R162: a multicast destination: its offset and receiver mask, bits [3:0] of the high word, whose other bits are ignored
(DESIGN CHOICE, log entry 106). -/
def mcastDst (s : State) (z l : Nat) (a : W64) : Except Trap (Nat × Nat) :=
  let mask := a.toNat / 2 ^ 32 % 16
  let off := a.toNat % 2 ^ 32
  let ok (c : Nat) : Bool := ((receiverOf s c).map (fun u => decide (off + z ≤ storeExtent s u))).getD false
  if mask = 0 ∨ ¬ (maskCores s mask).all ok then .error (laneTrap .aperture l a)
  else if off % z ≠ 0 then .error (laneTrap .misaligned l a)
  else .ok (off, mask)

/-- R157, R355: the window that registers the destination of a put: the lowest bound one of the issuing die that
holds it (DESIGN CHOICE, log entry 40). -/
def putWindow (s : State) (va z : Nat) : Option Nat :=
  (leastBy (fun w => w.idx) (s.fab.windows.filter (fun w => w.die == s.g.die && w.ctx == s.g.ctx && w.bound &&
    decide (w.base ≤ va ∧ va + z ≤ w.base + w.size)))).map (fun w => w.idx)

/-- R157: a copy's destination: its address and its mask or window. -/
def copyDst (s : State) (op : CopyOp) (z l : Nat) (a : W64) : Except Trap (Nat × Nat) :=
  match op with
  | .g2p => (planeDst s z l a).map (fun d => (d, 0))
  | .s2p => (planeDst s z l a).map (fun d => (d, 0))
  | .mcast => mcastDst s z l a
  | .put =>
    match copyPlace s op.dstSpaces z l a with
    | .error t => .error t
    | .ok d =>
      match putWindow s d z with
      | some w => .ok (d, w)
      | none => .error (laneTrap .aperture l a)
  | .g2s => (copyPlace s op.dstSpaces z l a).map (fun d => (d, 0))
  | .s2g => (copyPlace s op.dstSpaces z l a).map (fun d => (d, 0))
  | .s2s => (copyPlace s op.dstSpaces z l a).map (fun d => (d, 0))
  | .fill => (copyPlace s op.dstSpaces z l a).map (fun d => (d, 0))
  | .close => .ok (0, 0)

/-- R158: the lanes of a copy, checked in ascending order, source before destination. -/
def copyLanes (s : State) (op : CopyOp) (o : CpOp) (z : Nat) : List Nat → Except Trap (List CopyLane)
  | [] => .ok []
  | l :: ls =>
    let a := vGet64 s o.src l
    match (if op = .fill then .ok a.toNat else copyPlace s op.srcSpaces z l a) with
    | .error t => .error t
    | .ok src =>
      match copyDst s op z l (vGet64 s o.dst l) with
      | .error t => .error t
      | .ok d =>
        match copyLanes s op o z ls with
        | .error t => .error t
        | .ok rest => .ok (⟨l, src, d.1, d.2, false, false, false, false, 0⟩ :: rest)

/-- R157: the bytes a lane accounts. -/
def laneBytes (op : CopyOp) (z : Nat) (l : CopyLane) : Nat := if op = .mcast then z * popCount 4 l.mask else z

/-- R155, R337: whether the copy queue of a core has no entry for a group. -/
def copyQueueFull (s : State) (g : Group) : Bool :=
  let q := (s.eng.copies.filter (fun c => !c.suspended)).filterMap (fun c =>
    (groupOf? s c.gid).bind (fun x => if x.die = g.die ∧ x.core = g.core then some x.gid else none))
  memNat g.gid q && decide (32 ≤ q.length - q.eraseDups.length)

/-- A barrier register of a span changed. -/
def modBar (span b : Nat) (f : Barrier → Barrier) (s : State) : State :=
  modSpan span (fun x => { x with bars := x.bars.set b (f (nthD Barrier.zero x.bars b)) }) s

/-- R158: a checked copy goes to the engine queue. -/
def sendCopy (op : CopyOp) (o : CpOp) (z : Nat) (ls : List CopyLane) (s : State) : State :=
  let u := fresh s
  let cores := (ls.flatMap (fun l => maskCores s l.mask)).eraseDups
  let recv := if op = .mcast then cores.filterMap (fun c => (receiverOf s c).map (fun x => (x, c))) else []
  let agent := agentOf s s.g.die
  let q := if op = .put then takeSeqs s.g.ctx agent (ls.map (fun l => (agent, l.mask))) u.2 else ([], u.2)
  let lanes := ls.zipIdx.map (fun p => { p.1 with seq := nthD 0 q.1 p.2 })
  let t := if op = .put then noteIssuedAll s.g.die s.g.ctx (ls.map (fun l => l.mask)) q.2 else q.2
  let bytes := (ls.map (laneBytes op z)).foldl (fun a n => a + n) 0
  let t := if o.acc then modBar s.g.span o.bar (fun b => { b with pending := b.pending + bytes }) t else t
  let c : Copy :=
    { uid := u.1, gid := s.g.gid, span := s.g.span, split := s.sp.num, clause := s.iss.clause, word := s.iss.word,
      op := op, z := z, bar := if o.acc then some o.bar else none, nt := o.nt, lanes := lanes, receivers := recv,
      die := s.g.die, flags := 0, suspended := false }
  { t with eng := { t.eng with copies := t.eng.copies ++ [c] }, g := { t.g with cntC := t.g.cntC + 1 } }

/-- R155 to R158: the effect of a copy. -/
def copyEff (op : CopyOp) (o : CpOp) (s : State) : State :=
  let z := 4 * 2 ^ o.size
  if s.sp.em = 0 then s
  else if 63 ≤ s.g.cntC then stallWord s
  else
    match copyLanes s op o z (lanesOf s.sp.em) with
    | .error t => takeTrap t s
    | .ok ls =>
      let bytes := (ls.map (laneBytes op z)).foldl (fun a n => a + n) 0
      if o.acc && decide (16777215 < (barGet s o.bar).pending + bytes) then stallWord s
      else if copyQueueFull s s.g then stallWord s
      else if op = .put && streamFull s s.g.ctx (agentOf s s.g.die) (ls.map (fun l => (agentOf s s.g.die, l.mask))) then stallWord s
      else sendCopy op o z ls s

/-- R155 to R158: a copy word. -/
def copyWord (op : CopyOp) (o : CpOp) (s : State) : Out :=
  issueWord (firstTrap [trapIf (inTx s) .txState, rangeTrap s [(o.src, 2), (o.dst, 2)],
      trapIf (o.acc && decide (barCount s ≤ o.bar)) .registerRange])
    (regsOf [(o.src, 2), (o.dst, 2)]) [] (readGuard (regsOf [(o.src, 2), (o.dst, 2)]) (copyEff op o)) s

/-- R157. -/
def execCpG2s (o : CpOp) (s : State) : Out := copyWord .g2s o s
/-- R157. -/
def execCpS2g (o : CpOp) (s : State) : Out := copyWord .s2g o s
/-- R157. -/
def execCpS2s (o : CpOp) (s : State) : Out := copyWord .s2s o s
/-- R157, R176. -/
def execCpG2p (o : CpOp) (s : State) : Out := copyWord .g2p o s
/-- R157, R176. -/
def execCpS2p (o : CpOp) (s : State) : Out := copyWord .s2p o s
/-- R157, R162. -/
def execCpMcast (o : CpOp) (s : State) : Out := copyWord .mcast o s
/-- R157, R355. -/
def execCpPut (o : CpOp) (s : State) : Out := copyWord .put o s
/-- R157. -/
def execCpFill (o : CpOp) (s : State) : Out := copyWord .fill o s

/-! The transfer member (R161, R213, R335). -/

/-- A counted copy of a group is complete. -/
def lowerC (gid : Nat) (s : State) : State := modGroup gid (fun g => { g with cntC := g.cntC - 1 }) s

/-- R161, R213: the transfer member of a closed barrier arrives once no bytes are pending; an expected count of 0
drops the arrival, with a deferred trap on the group that closed. -/
def memberArrive (span b : Nat) (s : State) : State :=
  match spanOf? s span with
  | none => s
  | some x =>
    let r := nthD Barrier.zero x.bars b
    match r.closer with
    | none => s
    | some c =>
      if !r.closed || r.pending != 0 then s
      else
        let t := modBar span b (fun y => { y with closed := false, closer := none }) s
        let t := { t with eng := { t.eng with copies := t.eng.copies.filter (fun k =>
          !(k.op == .close && k.span == span && k.bar == some b)) } }
        let u := lowerC c.1 t
        match arriveOn span b u with
        | some v => v
        | none =>
          match groupOf? u c.1 with
          | some g => deferTrap c.1 (engineTrap g c.2.1 c.2.2.1 c.2.2.2 .barrierState none none u.tick) u
          | none => u

/-- R161: the effect of cp.close. -/
def closeEff (bar : Nat) (s : State) : State :=
  if (barGet s bar).closed then s
  else if 63 ≤ s.g.cntC then stallWord s
  else if copyQueueFull s s.g then stallWord s
  else
    let u := fresh s
    let c : Copy :=
      { uid := u.1, gid := s.g.gid, span := s.g.span, split := s.sp.num, clause := s.iss.clause, word := s.iss.word,
        op := .close, z := 0, bar := some bar, nt := false, lanes := [], receivers := [], die := s.g.die, flags := 0,
        suspended := false }
    let t := modBar s.g.span bar (fun b =>
      { b with closed := true, closer := some (s.g.gid, s.sp.num, s.iss.clause, s.iss.word) }) u.2
    memberArrive s.g.span bar
      { t with eng := { t.eng with copies := t.eng.copies ++ [c] }, g := { t.g with cntC := t.g.cntC + 1 } }

/-- R161. -/
def execCpClose (bar : Nat) (s : State) : Out :=
  issueWord (firstTrap [trapIf (inTx s) .txState, trapIf (decide (barCount s ≤ bar)) .registerRange]) [] []
    (closeEff bar) s

/-! The engine (R159, R160, R333, R334). -/

/-- Whether an address of a copy is in memory. -/
def inMemory (a : Nat) : Bool := bitsOf a 63 56 == 0

/-- Whether a copy's sources are in memory. -/
def CopyOp.readsMemory (op : CopyOp) : Bool := op == .g2s || op == .g2p || op == .mcast

/-- Whether a copy's destination address names memory. -/
def CopyOp.writesMemory (op : CopyOp) (dst : Nat) : Bool :=
  op == .s2g || op == .put || (op == .fill && inMemory dst)

/-- R333: whether two lanes of a copy lie in one transfer. -/
def sameTransfer (op : CopyOp) (a b : CopyLane) : Bool :=
  a.dst / 128 == b.dst / 128 && a.mask == b.mask &&
    (op == .fill || (a.src / 128 == b.src / 128 && a.dst + b.src == b.dst + a.src))

/-- R160, R308: the faults that a lane of a copy meets, as (kind, address, fault). -/
def laneFaults (s : State) (ctx : Nat) (op : CopyOp) (l : CopyLane) : List (Nat × Nat × WalkFault) :=
  let rd := if op.readsMemory then
      (match accessIn s ctx needRd l.src with
       | .ok _ => []
       | .error f => [(4, l.src, f)])
    else []
  let wr := if op.writesMemory l.dst then
      (match accessIn s ctx needW l.dst with
       | .ok _ => []
       | .error f => [(5, l.dst, f)])
    else []
  rd ++ wr

/-- R308: the record of an engine's fault on behalf of a group. -/
def engineRec (s : State) (g : Group) (split lane kind va : Nat) (f : WalkFault) : FaultRec :=
  { vaddr := va, gpa := if f.stage2 then f.gpa else 0, lanes := laneBit lane, domain := domainOf s g.ctx va,
    core := g.core, gslot := g.gslot, kind := kind, cause := f.cause, stage2 := f.stage2, last := false,
    split := split, die := g.die, seq := 0, ctx := g.ctx }

/-- R160: the records of an engine's faults written, merged by page and numbered. -/
def engineFaults (rs : List FaultRec) (s : State) : State :=
  sendFaults (mergeFaults rs) s

/-- R296, R299: whether a lane of a copy can be carried out now: its fork edge is done, and the home of its destination
does not make it wait. -/
def laneReady (s : State) (g : Group) (c : Copy) (l : CopyLane) : Bool :=
  forkReady s g.gid c.split c.uid &&
    (!c.op.writesMemory l.dst ||
      match accessIn s g.ctx needW l.dst with
      | .ok f => !lineWaits s f l.dst
      | .error _ => false)

/-- R333: whether a copy has started. -/
def Copy.started (c : Copy) : Bool := c.lanes.any (fun l => l.done || l.held || l.skip)

/-- R333, R364: whether a copy of a core may start, every earlier one of the core's queue having started; the puts of a
communication group go ahead of those of other groups. -/
def mayStart (s : State) (g : Group) (c : Copy) : Bool :=
  let commPut (k : Copy) : Bool := k.op == .put && ((groupOf? s k.gid).map (isComm s)).getD false
  let queue := s.eng.copies.filter (fun k => !k.suspended && k.op != .close && !k.started &&
    ((groupOf? s k.gid).map (fun x => x.die == g.die && x.core == g.core)).getD false)
  c.started ||
    queue.all (fun k => k.uid == c.uid ||
      (if decide (k.uid < c.uid) then commPut c && k.op == .put && !commPut k
       else !(c.op == .put && !commPut c && commPut k)))

/-- R157: the bytes a lane of a fill writes. -/
def fillBytes (z pat : Nat) : List Byte :=
  if z = 16 then natToBytes 8 pat ++ natToBytes 8 pat else natToBytes z pat

/-- R159, R160: the source bytes of a lane of a copy, and whether they are poisoned. -/
def laneSource (s : State) (g : Group) (c : Copy) (l : CopyLane) : List Byte × Bool :=
  if c.op = .fill then (fillBytes c.z l.src, false)
  else if c.op.readsMemory then
    match accessIn s g.ctx needRd l.src with
    | .ok f => (rdBytes s f.phys c.z, isPoisoned s f.phys)
    | .error _ => (List.replicate c.z 0, false)
  else
    let off := bitsOf l.src 47 0
    if l.src / 2 ^ 48 = 0xFF01 then
      ((List.range c.z).map (fun i => storeByte s c.span g.core (off + i)), storePoisoned s c.span g.core off c.z)
    else ((List.range c.z).map (fun i => quadByte s c.span (off + i)), quadPoisoned s c.span off c.z)

/-- R159, R162: whether a higher lane of a copy, among the lanes for a receiver, has already written an address. -/
def overwritten (c : Copy) (here : CopyLane → Bool) (lane a : Nat) : Bool :=
  c.lanes.any (fun l => l.wrote && here l && decide (lane < l.lane ∧ l.dst ≤ a ∧ a < l.dst + c.z))

/-- The bytes of a lane that stand, by destination address, for a receiver of the lanes given. -/
def standing (c : Copy) (here : CopyLane → Bool) (l : CopyLane) (bs : List Byte) : List (Nat × Byte) :=
  (bs.zipIdx.map (fun p => (l.dst + p.2, p.1))).filter (fun p => !overwritten c here l.lane p.1)

/-- Every lane of a copy. -/
def anyLane (_ : CopyLane) : Bool := true

/-- R282, R290: bytes that an engine of a core wrote at a home, in that core's L1. -/
def coreSees (g : Group) (dom va : Nat) (bytes : List (Nat × Byte)) (s : State) : State :=
  l1Update g.die g.core dom (lineOf va) bytes s

/-- R333, R434: the bytes of a transfer written at the home of their line. -/
def writeHomeLine (g : Group) (w : Writer) (va : Nat) (bytes : List (Nat × Byte)) (poison : Bool) (s : State) : State :=
  match accessIn s g.ctx needW va with
  | .error _ => s
  | .ok f =>
    let t := homeWrite g.ctx (lineOf va) g.die w { f with phys := lineOf f.phys } bytes
      (recallHome va f (requestCount (agentOf s g.die) g.ctx va f s))
    let u := coreSees g f.dom va bytes t
    if poison then poisonLine f.phys u else u

/-- R277: bytes written to core store or quad store at a generic address. -/
def writeRun (span core a : Nat) (bs : List Byte) (poison : Bool) (s : State) : State :=
  if a / 2 ^ 48 = 0xFF01 then storeWrite span core (bitsOf a 47 0) bs poison s
  else quadWrite span (bitsOf a 47 0) bs poison s

/-- R159, R277: the bytes of a lane that stand, written to core store or quad store at an offset of their
addresses. -/
def writeChip (span core : Nat) (c : Copy) (here : CopyLane → Bool) (l : CopyLane) (base : Nat) (bs : List Byte)
    (poison : Bool) (s : State) : State :=
  let keep := standing c here l bs
  if keep.length = bs.length then writeRun span core (base + l.dst) bs poison s
  else keep.foldl (fun t p => writeRun span core (base + p.1) [p.2] poison t) s

/-- A copy changed. -/
def modCopy (uid : Nat) (f : Copy → Copy) (s : State) : State :=
  { s with eng := { s.eng with copies := updateFirst (fun c => c.uid == uid) f s.eng.copies } }

/-- R176: whether an image byte of a handle lies in a lane of a copy. -/
def ownByte (c : Copy) (h off : Nat) : Bool :=
  c.lanes.any (fun l => l.dst / 2 ^ 32 == h && decide (l.dst % 2 ^ 32 ≤ off ∧ off < l.dst % 2 ^ 32 + c.z))

/-- R55, R176: a lane of a copy into the plane store. -/
def writePlane (g : Group) (c : Copy) (l : CopyLane) (bs : List Byte) (poison : Bool) (s : State) : State :=
  let h := l.dst / 2 ^ 32
  match resOf? s c.span g.core h with
  | none => s
  | some r =>
    let keep := standing c anyLane l bs
    let w := keep.foldl (fun a p =>
      let x := writeImage (p.1 % 2 ^ 32) [p.2] poison (ownByte c h) a.1
      (x.1, a.2 ||| x.2)) (r, (0 : Flags))
    modCopy c.uid (fun k => { k with flags := k.flags ||| w.2 }) (modRes c.span g.core h (fun _ => w.1) s)

/-- R162: a lane of a multicast written to its receivers. -/
def writeMcast (c : Copy) (l : CopyLane) (bs : List Byte) (poison : Bool) (s : State) : State :=
  (c.receivers.filter (fun r => bitOf l.mask (r.2 % 4))).foldl (fun t r =>
    writeChip r.1 (receiverCore s r.1 r.2) c (fun x => bitOf x.mask (r.2 % 4)) l (0xFF01 * 2 ^ 48) bs poison t) s

/-- R159: one lane of a copy written to its on-chip destination. -/
def writeLane (g : Group) (c : Copy) (l : CopyLane) (bs : List Byte) (poison : Bool) (s : State) : State :=
  match c.op with
  | .g2p => writePlane g c l bs poison s
  | .s2p => writePlane g c l bs poison s
  | .mcast => writeMcast c l bs poison s
  | .g2s => writeChip c.span g.core c anyLane l 0 bs poison s
  | .s2s => writeChip c.span g.core c anyLane l 0 bs poison s
  | .fill => writeChip c.span g.core c anyLane l 0 bs poison s
  | .s2g => s
  | .put => s
  | .close => s

/-- R355: whether the window of a put still holds its destination. -/
def putAllowed (s : State) (g : Group) (c : Copy) (l : CopyLane) : Bool :=
  match windowOf? s c.die g.ctx l.mask with
  | some w => decide (w.base ≤ l.dst ∧ l.dst + c.z ≤ w.base + w.size)
  | none => false

/-- R355, R356: a lane of a put is answered by its target: applied there, or dropped. -/
def answerPut (g : Group) (c : Copy) (applied : Bool) (s : State) (l : CopyLane) : State :=
  let t := applySeq g.ctx (agentOf s c.die) (agentOf s c.die) l.mask l.seq applied s
  noteAcked c.die g.ctx l.mask (if applied then raiseTarget c.die g.ctx l.mask 1 t else t)

/-- R297: every remote copy of the line of an address of a context is gone. -/
def dropLine (ctx va : Nat) (s : State) : State :=
  match accessIn s ctx ⟨false, false, false⟩ va with
  | .ok f => dropCopies f.dom (lineOf va) s
  | .error _ => s

/-- R333, R355, R356: the lanes of a transfer whose destination is in memory, written in one request. -/
def writeTransfer (g : Group) (c : Copy) (ls : List CopyLane) (s : State) : State :=
  match ls with
  | [] => s
  | first :: _ =>
    let ok := ls.filter (fun l => c.op != .put || putAllowed s g c l)
    let parts := ok.map (fun l => (l, laneSource s g c l))
    let bytes := parts.foldl (fun m p =>
      mergeBytes m ((standing c anyLane p.1 p.2.1).map (fun b => (b.1 % 128, b.2)))) []
    let poison := parts.any (fun p => p.2.2)
    let t := if ok = [] then s else writeHomeLine g ⟨.copy, c.gid, c.split⟩ first.dst bytes poison s
    if c.op = .put then
      let t := dropLine g.ctx first.dst t
      let t := ls.foldl (fun u l => answerPut g c (putAllowed s g c l) u l) t
      if ok.length = ls.length then t
      else deferTrap g.gid (engineTrap g c.split c.clause c.word .windowAccess none none t.tick) t
    else t

/-- R334: the bytes of lanes leave a barrier's pending field. -/
def countDown (c : Copy) (ls : List CopyLane) (s : State) : State :=
  match c.bar with
  | none => s
  | some b =>
    let n := (ls.map (laneBytes c.op c.z)).foldl (fun a n => a + n) 0
    modBar c.span b (fun x => { x with pending := x.pending - n }) s

/-- R26, R159, R334: lanes of a copy are subtracted, those that wrote their bytes among them; the copy completes with its
last lane. -/
def finishLanes (gid uid : Nat) (ls wrote : List CopyLane) (s : State) : State :=
  let has (xs : List CopyLane) (l : CopyLane) : Bool := xs.any (fun x => x.lane == l.lane)
  let t := modCopy uid (fun c => { c with
    lanes := updateAll (has ls) (fun l => { l with done := true, held := false, wrote := has wrote l }) c.lanes }) s
  match t.eng.copies.find? (fun c => c.uid == uid) with
  | none => t
  | some c =>
    let u := countDown c ls t
    let v :=
      if c.lanes.all (fun l => l.done) then
        let w := lowerC gid (modGroup gid (fun g => { g with flags := g.flags ||| c.flags }) u)
        { w with eng := { w.eng with copies := w.eng.copies.filter (fun k => k.uid != uid) } }
      else u
    match c.bar with
    | some b => memberArrive c.span b v
    | none => v

/-- R160, R355, R356: a skipped lane writes nothing, is counted down, a put's as answered by its target, and its group
takes the copy-abort trap. -/
def skipLane (g : Group) (c : Copy) (l : CopyLane) (s : State) : State :=
  let t := if c.op = .put then answerPut g c false s l else s
  deferTrap g.gid (engineTrap g c.split c.clause c.word .copyAbort (some l.lane) none s.tick)
    (finishLanes g.gid c.uid [l] [] t)

/-- R160, R308: a transfer of a copy is held; the records are those of every faulting lane of the copy not yet held. -/
def holdCopy (g : Group) (c : Copy) (ls : List CopyLane) (s : State) : State :=
  let bad := c.lanes.filter (fun x => !x.done && !x.skip && !x.held && laneFaults s g.ctx c.op x != [])
  let recs := bad.flatMap (fun x => (laneFaults s g.ctx c.op x).map (fun f => engineRec s g c.split x.lane f.1 f.2.1 f.2.2))
  let hit (x : CopyLane) : Bool := ls.any (fun y => y.lane == x.lane) || bad.any (fun y => y.lane == x.lane)
  let t := modCopy c.uid (fun k => { k with lanes := updateAll hit (fun x => { x with held := true }) k.lanes }) s
  if recs = [] then t else engineFaults recs t

/-- R406, R423, R435: what the one read request of a transfer from memory does to the lookaside, the requester counts and
the home slice. -/
def readTransfer (g : Group) (c : Copy) (l : CopyLane) (s : State) : State :=
  if c.op.readsMemory then
    match accessIn s g.ctx needRd l.src with
    | .ok f =>
      homeTouch g.ctx f l.src (requestCount (agentOf s g.die) g.ctx l.src f (attrFill g.die g.core l.src f s))
    | .error _ => s
  else if c.op.writesMemory l.dst then attrUse g.die g.core g.ctx l.dst s
  else s

/-- R159, R160, R333: one transfer of a copy, whose source bytes are all read before any is written: held by faults,
waiting, or carried out. -/
def runTransfer (g : Group) (c : Copy) (l : CopyLane) (s : State) : State :=
  let ls := c.lanes.filter (fun x => !x.done && !x.skip && sameTransfer c.op l x)
  if ls.any (fun x => laneFaults s g.ctx c.op x != []) then
    if ls.all (fun x => x.held) then s else holdCopy g c ls s
  else if !ls.all (laneReady s g c) then s
  else
    let wrote := if c.op = .put then ls.filter (putAllowed s g c) else ls
    let u := readTransfer g c l s
    let t :=
      if c.op.writesMemory l.dst then writeTransfer g c ls u
      else
        let parts := ls.map (fun x => (x, laneSource s g c x))
        parts.foldl (fun v p => writeLane g c p.1 p.2.1 p.2.2 v) u
    finishLanes g.gid c.uid ls wrote t

/-- COPY_TRANSFER_WRITE (R333): the transfer of a lane of an outstanding copy, which starts in queue order. -/
def execCopyTransferWrite (copy lane : Nat) (s : State) : Out :=
  match s.eng.copies.find? (fun c => c.uid == copy) with
  | none => .next s
  | some c =>
    match groupOf? s c.gid, c.lanes.find? (fun l => l.lane == lane && !l.done) with
    | some g, some l =>
      if c.suspended || !(mayStart s g c || l.skip) then .next s
      else if l.skip then .next (skipLane g c l s)
      else .next (runTransfer g c l s)
    | _, _ => .next s

end Sys2Proof.Machine
end

