-- ==== Sys2Proof/Machine/Matrix.lean ====
section
/-! DEFINITION. Major 8: reservations, matrix operations, drains and the tile-operation queue (R58 to R61, R163
to R191). -/

namespace Sys2Proof.Machine

open Sys2Proof

/-! Replay (R166, R233). -/

/-- R166: whether the next counted word of the split in focus is one its aborted region has already issued. -/
def replayed (s : State) : Bool := decide (s.sp.replay < s.sp.kept)

/-- R166: a counted word is counted. -/
def countReplay (s : State) : State := { s with sp := { s.sp with replay := s.sp.replay + 1 } }

/-- R166: a counted word acts, or issues as a no-op where the aborted region has already issued it. A word that
stalls is not counted. -/
def counted (f : State → State) (s : State) : State :=
  if replayed s then countReplay s
  else
    let t := f s
    if t.iss.stalled then t else countReplay t

/-! Issue. -/

/-- R163, R226: a word of major 8. -/
def matWord (trap : Option Trap) (vs ss : List Nat) (eff : State → State) (s : State) : Out :=
  issueWord (firstTrap [trapIf (inTx s) .txState, trap]) vs ss eff s

/-- R18: the register-range check of a tile. -/
def tileTrap (s : State) (t : Nat) : Option Trap := trapIf (decide (tileCount s ≤ t)) .registerRange

/-- R165: whether the tile-operation queue of a core has no entry for a group. -/
def tileQueueFull (s : State) (g : Group) : Bool :=
  let q := (s.eng.tiles.filter (fun c => c.die == g.die && c.core == g.core && !c.suspended)).map (fun c => c.gid)
  memNat g.gid q && decide (8 ≤ q.length - q.eraseDups.length)

/-- R163: an operation goes to the tile-operation queue, and T rises; the word stalls where there is no room. -/
def pushTile (op : TileOp) (s : State) : State :=
  if decide (63 ≤ s.g.cntT) || tileQueueFull s s.g then stallWord s
  else
    let u := fresh s
    let c : TileCmd :=
      { uid := u.1, gid := s.g.gid, span := s.g.span, split := s.sp.num, die := s.g.die, core := s.g.core,
        clause := s.iss.clause, word := s.iss.word, em := s.sp.em, op := op, cancelled := false, held := false,
        skipPages := [], suspended := false }
    { u.2 with eng := { u.2.eng with tiles := u.2.eng.tiles ++ [c] }, g := { u.2.g with cntT := u.2.g.cntT + 1 } }

/-- R168: the held reservation of a handle of the group in focus. -/
def heldRes? (s : State) (h : Nat) : Option Reservation := resOf? s s.g.span s.g.core h

/-- R168: the plane-store units of the span in focus. -/
def planeUnits (s : State) : Nat := ((launchOf? s).map (fun l => l.plane)).getD 0

/-- The other held records of the span and core in focus. -/
def otherRecords (s : State) (h : Nat) : List ResRec :=
  match spanCoreOf? s s.g.span s.g.core with
  | none => []
  | some c => (c.resv.filter (fun r => r.handle != h)).map Reservation.record

/-- The plane-reservation trap where a condition holds. -/
def planeTrap (c : Bool) : Option Trap := trapIf c .planeReservation

/-! Reservations (R172 to R174). -/

/-- R172: a new reservation of a record. -/
def newRes (h : Nat) (w0 w1 : W64) : Reservation := ⟨h, w0, w1, [], []⟩

/-- R172: the effect of pres. -/
def presEff (n e : Nat) (s : State) : State :=
  let w0 := sGet s e
  let w1 := sGet s (e + 1)
  match heldRes? s n with
  | some r => if r.word0 = w0 ∧ r.word1 = w1 then s else takeTrap (plainTrap .planeReservation) s
  | none =>
    if (resRec w0 w1).bad (planeUnits s) (otherRecords s n) then takeTrap (plainTrap .planeReservation) s
    else modSpanCore s.g.span s.g.core (fun c => { c with resv := c.resv ++ [newRes n w0 w1] }) s

/-- R172. -/
def execPres (n : Nat) (e : Nat) (s : State) : Out := matWord none [] [e, e + 1] (presEff n e) s

/-- R173, R174: whether a tile operation names a handle. -/
def TileOp.names (h : Nat) : TileOp → Bool
  | .mmk _ a b _ _ _ _ _ => a == h || b == h
  | .mtab b _ _ _ => b == h
  | .mlut _ a b _ _ _ _ _ => a == h || b == h
  | .mstatBlock n _ _ _ => n == h
  | .mzero _ => false
  | .mdrain _ _ _ => false
  | .mdrainMx _ _ _ _ _ _ _ _ _ => false
  | .msave _ _ => false
  | .mload _ _ => false
  | .mstatTile _ _ => false
  | .msuggest _ _ _ => false

/-- R173, R174: whether anything that names a handle of the span and core in focus is outstanding. A copy names a handle
while a lane of it to that handle is outstanding (DESIGN CHOICE, log entry 106). -/
def resBusy (s : State) (h : Nat) : Bool :=
  s.eng.tiles.any (fun c => c.span == s.g.span && c.core == s.g.core && c.op.names h) ||
    s.eng.copies.any (fun c => c.span == s.g.span && (c.op == .g2p || c.op == .s2p) &&
      ((groupOf? s c.gid).map (fun g => g.core == s.g.core)).getD false &&
      c.lanes.any (fun l => !l.done && l.dst / 2 ^ 32 == h))

/-- R169, R173: a record with another k origin. -/
def withKorg (w0 : W64) (k : Nat) : W64 := BitVec.ofNat 64 (setBits w0.toNat 29 24 k)

/-- R55, R173: a reservation with a new record: elements, written maps and tables cleared, counts kept unless
the format changes. -/
def Reservation.replace (w0 w1 : W64) (r : Reservation) : Reservation :=
  let keep (b : Block) : Block := { Block.zero with under := b.under, align := b.align }
  let blocks := if (resRec w0 w1).fmt = r.record.fmt then
      r.blocks.foldl (fun m p => mapSet Block.zero m p.1 (keep p.2)) [] else []
  { r with word0 := w0, word1 := w1, image := [], blocks := blocks }

/-- R173: the effect of pset with SEL 0. A record that changes nothing is treated as one that changes only korg (DESIGN
CHOICE, log entry 106). -/
def psetWhole (n e : Nat) (r : Reservation) (s : State) : State :=
  let w0 := sGet s e
  let w1 := sGet s (e + 1)
  if (resRec w0 w1).bad (planeUnits s) (otherRecords s n) then takeTrap (plainTrap .planeReservation) s
  else if withKorg w0 0 = withKorg r.word0 0 ∧ w1 = r.word1 then
    modRes s.g.span s.g.core n (fun x => { x with word0 := w0 }) s
  else if resBusy s n then stallWord s
  else modRes s.g.span s.g.core n (Reservation.replace w0 w1) s

/-- R173: the effect of pset. -/
def psetEff (n sel e : Nat) (s : State) : State :=
  match heldRes? s n with
  | none => takeTrap (plainTrap .planeReservation) s
  | some r =>
    match sel with
    | 0 => psetWhole n e r s
    | 1 => modRes s.g.span s.g.core n (fun x => { x with word0 := withKorg x.word0 ((sGet s e).toNat % 64) }) s
    | _ => sSet (e + 1) r.word1 (sSet e r.word0 s)

/-- R173. -/
def execPset (n : Nat) (sel : Nat) (e : Nat) (s : State) : Out :=
  matWord none [] (if sel = 1 then [e] else [e, e + 1]) (psetEff n sel e) s

/-- R174: the effect of prel. -/
def prelEff (n : Nat) (s : State) : State :=
  if (heldRes? s n).isNone then s
  else if resBusy s n then stallWord s
  else modSpanCore s.g.span s.g.core (fun c => { c with resv := c.resv.filter (fun r => r.handle != n) }) s

/-- R174. -/
def execPrel (n : Nat) (s : State) : Out := matWord none [] [] (prelEff n) s

/-! Matrix operations at issue (R178 to R190). -/

/-- R179. -/
def execMzero (t : Nat) (s : State) : Out := matWord (tileTrap s t) [] [] (counted (pushTile (.mzero t))) s

/-- R178, R181: the checks common to mmk and mlut on two records, for n steps. -/
def pairBad (a b : ResRec) (n : Nat) : Bool :=
  a.roleB || !b.roleB || (a.korg + b.korg) % 2 != 0 || decide (1024 < 16 * (a.korg + n) ∨ 1024 < 16 * (b.korg + n))

/-- R177: whether mmk accepts two formats. -/
def mmkAccepts (a b : ResRec) : Bool := decide (a.fmt ≤ 12 ∧ b.fmt ≤ 12 ∧ b.fmt ≠ 1)

/-- R181: whether mlut accepts two records. -/
def mlutAccepts (a b : ResRec) : Bool := decide (13 ≤ a.fmt ∧ a.fmt ≤ 16) && memNat b.fmt [2, 4, 5, 6, 7] && b.tl

/-- R166, R175, R178: an operation on two reservations, with the records it captures; a replayed one is a no-op, whatever
has become of the reservations. -/
def pairEff (accepts : ResRec → ResRec → Bool) (ha hb n : Nat)
    (mk : W64 → W64 → W64 → W64 → TileOp) (s : State) : State :=
  if replayed s then countReplay s
  else
    match heldRes? s ha, heldRes? s hb with
    | some a, some b =>
      if pairBad a.record b.record n || !accepts a.record b.record then takeTrap (plainTrap .planeReservation) s
      else counted (pushTile (mk a.word0 a.word1 b.word0 b.word1)) s
    | _, _ => takeTrap (plainTrap .planeReservation) s

/-- R178. -/
def execMmk (t : Nat) (ha : Nat) (hb : Nat) (n : Nat) (s : State) : Out :=
  matWord (tileTrap s t) [] [] (pairEff mmkAccepts ha hb n (fun a0 a1 b0 b1 => .mmk t ha hb a0 a1 b0 b1 n)) s

/-- R181. -/
def execMlut (t : Nat) (ha : Nat) (hb : Nat) (n : Nat) (s : State) : Out :=
  matWord (tileTrap s t) [] [] (pairEff mlutAccepts ha hb n (fun a0 a1 b0 b1 => .mlut t ha hb a0 a1 b0 b1 n)) s

/-- R180: the effect of mtab. -/
def mtabEff (hb n : Nat) (s : State) : State :=
  match heldRes? s hb with
  | none => takeTrap (plainTrap .planeReservation) s
  | some b =>
    if !b.record.roleB || !b.record.tl || decide (1024 < 16 * (b.record.korg + n)) then
      takeTrap (plainTrap .planeReservation) s
    else pushTile (.mtab hb b.word0 b.word1 n) s

/-- R180. -/
def execMtab (hb : Nat) (n : Nat) (s : State) : Out := matWord none [] [] (mtabEff hb n) s

/-- R182. -/
def execMdrain (t : Nat) (d : Nat) (g : Nat) (s : State) : Out :=
  matWord (firstTrap [tileTrap s t, rangeTrap s [(d, 8)], liveTrap s [d]]) (regSpan d 8) [] (pushTile (.mdrain t d g)) s

/-- R143, R184: a range of n bytes from a lane's address, checked: the address where it passes. -/
def rangePlace (s : State) (spaces : List Space) (al n l : Nat) (a : W64) : Except Trap Nat :=
  match placeOf s spaces al l a with
  | .error k => .error (laneTrap k l a)
  | .ok _ =>
    match spaceOf a.toNat with
    | none => .error (laneTrap .aperture l a)
    | some sp =>
      let off := if sp = .glob then a.toNat else bitsOf a.toNat 47 0
      if extentOf s sp < off + n then .error (laneTrap .aperture l a) else .ok a.toNat

/-- R184: the bytes of an element block of a drain format. -/
def drainBytes (fmt : Nat) : Nat := 4 * planeBits fmt

/-- R184: the number of blocks that m selects. -/
def drainBlocks (m : Nat) : Nat := popCount 2 m

/-- R184: the element and scale addresses of lanes, checked in ascending order. -/
def drainAddrs (s : State) (d fmt m : Nat) : List Nat → Except Trap (List (Nat × Nat × Nat))
  | [] => .ok []
  | l :: ls =>
    match rangePlace s storeSpaces 8 (drainBytes fmt * drainBlocks m) l (vGet64 s d l) with
    | .error t => .error t
    | .ok a =>
      match rangePlace s storeSpaces 1 (drainBlocks m) l (vGet64 s (d + 2) l) with
      | .error t => .error t
      | .ok b =>
        match drainAddrs s d fmt m ls with
        | .error t => .error t
        | .ok rest => .ok ((l, a, b) :: rest)

/-- R183: a tile of a span on a core. -/
def tileOf (s : State) (span core t : Nat) : Tile :=
  ((spanCoreOf? s span core).map (fun c => nthD Tile.zero c.tiles t)).getD Tile.zero

/-- A tile changed. -/
def modTile (span core t : Nat) (f : Tile → Tile) (s : State) : State :=
  modSpanCore span core (fun c => { c with tiles := c.tiles.set t (f (nthD Tile.zero c.tiles t)) }) s

/-- R184, R186: the effect of mdrain.mx, which captures the tile's mode and off. -/
def drainMxEff (t int fmt d m : Nat) (s : State) : State :=
  match drainAddrs s d fmt m (lanesOf s.sp.em) with
  | .error e => takeTrap e s
  | .ok as =>
    let x := tileOf s s.g.span s.g.core t
    let ea := as.foldl (fun m p => mapSet 0 m p.1 (BitVec.ofNat 64 p.2.1)) ([] : SMap W64)
    let sa := as.foldl (fun m p => mapSet 0 m p.1 (BitVec.ofNat 64 p.2.2)) ([] : SMap W64)
    counted (pushTile (.mdrainMx t d fmt m (int == 1) x.mode x.off ea sa)) s

/-- R184. -/
def execMdrainMx (t : Nat) (int : Nat) (fmt : Nat) (d : Nat) (m : Nat) (s : State) : Out :=
  matWord (firstTrap [tileTrap s t, rangeTrap s [(d, 4)]]) (regSpan d 4) [] (readGuard (regSpan d 4) (drainMxEff t int fmt d m)) s

/-- R190: the address of msave and mload, checked. -/
def tileAddr (s : State) (e : Nat) : Except Trap Nat := rangePlace s [.glob, .store, .quad] 128 8192 0 (sGet s e)

/-- R190. -/
def execMsave (t : Nat) (e : Nat) (s : State) : Out :=
  matWord (tileTrap s t) [] [e] (fun u =>
    match tileAddr u e with
    | .error x => takeTrap x u
    | .ok a => pushTile (.msave t a) u) s

/-- R190. -/
def execMload (t : Nat) (e : Nat) (s : State) : Out :=
  matWord (tileTrap s t) [] [e] (fun u =>
    match tileAddr u e with
    | .error x => takeTrap x u
    | .ok a => counted (pushTile (.mload t a)) u) s

/-- R187: the effect of mstat on a reservation. -/
def mstatEff (hi n k d : Nat) (s : State) : State :=
  match heldRes? s n with
  | none => takeTrap (plainTrap .planeReservation) s
  | some r =>
    if hi = 1 ∧ ¬ r.record.roleB then takeTrap (plainTrap .planeReservation) s
    else pushTile (.mstatBlock n k (hi == 1) d) s

/-- R187. -/
def execMstatBlock (hi : Nat) (n : Nat) (k : Nat) (d : Nat) (s : State) : Out :=
  matWord (firstTrap [rangeTrap s [(d, 1)], liveTrap s [d]]) [d] [] (mstatEff hi n k d) s
/-- R188. -/
def execMstatTile (t : Nat) (d : Nat) (s : State) : Out :=
  matWord (firstTrap [tileTrap s t, rangeTrap s [(d, 1)], liveTrap s [d]]) [d] [] (pushTile (.mstatTile t d)) s
/-- R189. -/
def execMsuggest (t : Nat) (thr : Nat) (d : Nat) (s : State) : Out :=
  matWord (tileTrap s t) [] [d] (pushTile (.msuggest t thr d)) s

/-- R183, R186: the scale offset clamped to its range. -/
def clampOff (i : Int) : Int := max (-8) (min 7 i)

/-- R186. -/
def execMscaleImm (t : Nat) (mode : Nat) (off : Nat) (s : State) : Out :=
  matWord (tileTrap s t) [] []
    (fun u => modTile u.g.span u.g.core t (fun x => { x with mode := mode == 1, off := toSigned 4 off }) u) s
/-- R186. -/
def execMscaleReg (t : Nat) (mode : Nat) (e : Nat) (s : State) : Out :=
  matWord (tileTrap s t) [] [e] (counted (fun u =>
    modTile u.g.span u.g.core t (fun x => { x with mode := mode == 1, off := clampOff (x.off + (sGet u e).toInt) }) u)) s

/-! Block sums (R58 to R60, R178, R181). -/

/-- R178: the units of n steps from two origins, as (block of A, block of B, first and last position + 1). -/
def unitsFrom (korgB korgA n : Nat) : List (Nat × Nat × Nat × Nat) :=
  if n = 0 then []
  else
    let first := korgA / 2
    let last := (korgA + n - 1) / 2
    (List.range (last + 1 - first)).map (fun i =>
      let k := first + i
      (k, korgB / 2 + i, if i = 0 ∧ korgA % 2 = 1 then 16 else 0,
        if k = last ∧ (korgA + n) % 2 = 1 then 16 else 32))

/-- R56: the class of an element, a zero outlier counted among the zeros. -/
def Block.cls (b : Block) (j : Nat) : Option ElemClass := (b.classes.find? (fun c => c.1 == j)).map (fun c => c.2)

/-- R60: whether an element's source value is zero. An element that nothing has loaded since pres or pset set it to 0 has no
source value, and counts as none (DESIGN CHOICE, log entry 106). -/
def Block.isZero (b : Block) (j : Nat) : Bool :=
  match b.cls j with
  | some .zero => true
  | some (.outlier e) => e % 128 == 0
  | some .nan => false
  | some .posInf => false
  | some .negInf => false
  | some .payload => false
  | none => false

/-- R60: the sign of an element that is infinite or not zero; an element that rounded to 0 keeps its code's. -/
def Block.neg (b : Block) (fmt j : Nat) : Bool :=
  match b.cls j with
  | some .negInf => true
  | some .posInf => false
  | some (.outlier e) => decide (128 ≤ e)
  | _ =>
    let n := mapGet 0 b.ints j
    if n = 0 then bitOf (mapGet 0 b.raw j) (planeBits fmt - 1) else decide (n < 0)

/-- Whether an element is infinite. -/
def Block.isInf (b : Block) (j : Nat) : Bool := b.cls j == some .posInf || b.cls j == some .negInf

/-- Whether an element is a NaN. -/
def Block.isNan (b : Block) (j : Nat) : Bool := b.cls j == some .nan

/-- R60: the result of a unit with a special element. -/
def specialUnit (fa fb : Nat) (a b : Block) (js : List Nat) : Option (FVal × Flags) :=
  let infs := js.filter (fun j => a.isInf j || b.isInf j)
  if js.any (fun j => a.isNan j || b.isNan j) then some (.nan false, 0)
  else if infs.any (fun j => a.isZero j || b.isZero j) then some (.nan false, flInvalid)
  else
    match (infs.map (fun j => a.neg fa j != b.neg fb j)).eraseDups with
    | [] => none
    | [x] => some (.inf x, 0)
    | _ => some (.nan false, flInvalid)

/-- R58: the exact value of a unit, as a signed integer times a power of two. -/
def unitValue (a b : Block) (js : List Nat) : Int × Int :=
  let sum : Int := js.foldl (fun acc j => acc + mapGet 0 a.ints j * mapGet 0 b.ints j) 0
  let outs : List (Int × Int) := js.filterMap (fun j =>
    match a.cls j with
    | some (.outlier e) =>
      match decodeFloat fmtE4M3 e with
      | .fin neg m ex => some ((if neg then -(m : Int) else m) * mapGet 0 b.ints j, ex)
      | .inf _ => none
      | .nan _ => none
    | _ => none)
  let low : Int := outs.foldl (fun q o => min q o.2) 0
  let total : Int := outs.foldl (fun acc o => acc + o.1 * 2 ^ (o.2 - low).toNat) (sum * 2 ^ (0 - low).toNat)
  (total, low + a.quant + b.quant)

/-- R59: one unit added to an accumulator element that is a 32-bit integer. -/
def accInt (acc : W) (v : Int) : W × Flags :=
  let n := acc.toInt + v
  (BitVec.ofInt 32 n, flIf (decide (n < -(2 ^ 31) ∨ 2 ^ 31 ≤ n)) flIntOverflow)

/-- R59: one unit added to an f32 accumulator element. -/
def accFloat (acc : W) (v : FVal × Flags) : W × Flags :=
  match decodeFloat fmtF32 acc.toNat with
  | .nan _ => (BitVec.ofNat 32 fmtF32.canonNan, v.2)
  | x =>
    let r := addExact .rne x v.1
    let e := encodeFloat fmtF32 .rne false false r.1
    (BitVec.ofNat 32 e.1, v.2 ||| r.2 ||| e.2)

/-- R59: an exact value rounded to f32. -/
def roundUnit (v : Int × Int) : FVal × Flags :=
  let e := encodeFloat fmtF32 .rne false false (FVal.ofInt v.1 v.2 false)
  (decodeFloat fmtF32 e.1, e.2)

/-- R59: whether a pair of formats accumulates integers. -/
def intPair (fa fb : Nat) : Bool :=
  let c (f : Nat) : Bool := f == 0 || f == 2 || decide (13 ≤ f)
  c fa && c fb

/-- R54, R57: the positions of a unit that are real in both operands. -/
def realPairs (ra rb : ResRec) (a : Block) (u : Nat × Nat × Nat × Nat) : List Nat :=
  (List.range 32).filter (fun j => decide (u.2.2.1 ≤ j ∧ j < u.2.2.2 ∧ 32 * u.1 + j < ra.kext ∧
    32 * u.2.1 + j < rb.kext) && a.cls j != some .payload)

/-- R181: what the binary codes beyond A's k extent, which count as 0, add to a unit: by R181's formula each takes away the
integer of B at its position. -/
def binaryPad (ra rb : ResRec) (b : Block) (u : Nat × Nat × Nat × Nat) : Int :=
  if ra.fmt = 13 then
    ((List.range 32).filter (fun j => decide (u.2.2.1 ≤ j ∧ j < u.2.2.2 ∧ ra.kext ≤ 32 * u.1 + j ∧
      32 * u.2.1 + j < rb.kext))).foldl (fun acc j => acc - mapGet 0 b.ints j) 0
  else 0

/-- R53, R181: whether a unit meets a ternary code 0b10. -/
def badTernary (ra : ResRec) (a : Block) (js : List Nat) : Bool :=
  ra.fmt == 15 && js.any (fun j => mapGet 0 a.raw j == 2)

/-- What an accumulation gives: the element, flags, and whether a poisoned block was met. -/
structure Accum where
  val : W
  flags : Flags
  bad : Bool

/-- R58 to R60: one unit added to an element. -/
def addUnit (ra rb : ResRec) (a b : Block) (u : Nat × Nat × Nat × Nat) (x : Accum) : Accum :=
  if a.poison || b.poison then { x with bad := true }
  else
    let js := realPairs ra rb a u
    let pad := binaryPad ra rb b u
    if js = [] ∧ pad = 0 then x
    else
      let tern := flIf (badTernary ra a js) flInvalid
      let v := unitValue a b js
      if intPair ra.fmt rb.fmt then
        let r := accInt x.val (v.1 + pad)
        ⟨r.1, x.flags ||| r.2 ||| tern, x.bad⟩
      else
        let r := accFloat x.val ((specialUnit ra.fmt rb.fmt a b js).getD (roundUnit (v.1 + pad, v.2)))
        ⟨r.1, x.flags ||| r.2 ||| tern, x.bad⟩

/-- R178: one element of the tile after all units. -/
def accumElem (ra rb : ResRec) (a b : Reservation) (us : List (Nat × Nat × Nat × Nat)) (row col : Nat) (v : W) : Accum :=
  us.foldl (fun x u => addUnit ra rb (a.block row u.1) (b.block col u.2.1) u x) ⟨v, 0, false⟩

/-- The place of a tile element. -/
def elemKey (row col : Nat) : Nat := row * 64 + col

/-- R178: a matrix operation on a tile for the active rows: the tile, its flags, and the rows and columns that met
poison. -/
def accumTile (ra rb : ResRec) (a b : Reservation) (n : Nat) (em : W) (x : Tile) : Tile × Flags × Bool :=
  let us := unitsFrom rb.korg ra.korg n
  let rows := (lanesOf em).filter (fun r => decide (r < ra.mext))
  let cells := rows.flatMap (fun r => (List.range rb.mext).map (fun c => (r, c)))
  cells.foldl (fun acc rc =>
    let k := elemKey rc.1 rc.2
    let v := accumElem ra rb a b us rc.1 rc.2 (mapGet 0 acc.1.elems k)
    ({ acc.1 with elems := mapSet 0 acc.1.elems k v.val }, acc.2.1 ||| v.flags,
      acc.2.2 || v.bad || memNat k acc.1.poison)) (x, 0, false)

/-! Requantisation (R185). -/

/-- R185: the largest finite element of a drain format, as m * 2^e, and floor(log2 of it). -/
def drainMax (fmt : Nat) : Nat × Int × Int :=
  match fmt with
  | 3 => (127, -6, 0)
  | 6 => (7, 6, 8)
  | 7 => (7, 13, 15)
  | 8 => (7, 2, 4)
  | 9 => (15, -1, 2)
  | _ => (3, 1, 2)

/-- R185: the magnitude of an element code of a drain format as m * 2^e, from a value already scaled, with
whether it exceeds F. -/
def drainElem (fmt : Nat) (v : FVal) : Nat × Bool × Bool × Bool :=
  let f := drainMax fmt
  match v with
  | .nan _ => (0, false, false, false)
  | .inf neg =>
    let code := match planeFloat fmt with
      | some g => g.signBit neg + g.maxBits
      | none => if neg then 256 - 127 else 127
    (code, true, false, false)
  | .fin neg m e =>
    match planeFloat fmt with
    | none =>
      -- MXINT8: the nearest multiple of 2^-6
      let u := roundAt .rne neg m 1 e (-6)
      let big := dyadicLt f.1 f.2.1 u.1 (-6)
      let k := if big then 127 else u.1
      (if neg ∧ k ≠ 0 then 256 - k else k, big, m != 0 && k == 0, big || u.2.1)
    | some g =>
      let lead := if m = 0 then 0 else (Nat.log2 m : Int) + e
      let q := max (lead - g.frac) (g.emin - g.frac)
      let u := roundAt .rne neg m 1 e q
      let big := dyadicLt f.1 f.2.1 u.1 q
      let bits := if big then g.signBit neg + g.maxBits
        else exactBits g (.fin neg u.1 q)
      (bits, big, m != 0 && u.1 == 0, big || u.2.1)

/-- What requantising a block gives: the element codes, the scale, flags, and the counts to add. -/
structure Requant where
  codes : List Nat
  scale : Nat
  flags : Flags
  dunder : Nat
  dsat : Nat

/-- R185: floor(log2) of a value m * 2^e. -/
def floorLog (m : Nat) (e : Int) : Int := (Nat.log2 m : Int) + e

/-- R185: the smallest x with m * 2^e at most F * 2^x. -/
def fitExp (fm : Nat) (fe : Int) (m : Nat) (e : Int) : Int :=
  let x := floorLog m e - floorLog fm fe
  if dyadicLt fm (fe + x) m e then x + 1 else x

/-- R185: the scale of a block of values. -/
def drainScale (fmt : Nat) (expMode : Bool) (off : Int) (vs : List FVal) : Nat :=
  let f := drainMax fmt
  let amax := vs.foldl (fun (acc : Option (Nat × Int)) v =>
    match v with
    | .fin _ m e =>
      if m = 0 then acc
      else
        match acc with
        | none => some (m, e)
        | some p => if dyadicLt p.1 p.2 m e then some (m, e) else acc
    | .inf _ => acc
    | .nan _ => acc) none
  match amax with
  | none => 127
  | some p =>
    let x := if expMode then floorLog p.1 p.2 - f.2.2 else fitExp f.1 f.2.1 p.1 p.2
    (max 0 (min 254 (127 + x + off))).toNat

/-- R185: a block of 32 values requantised. -/
def requantise (fmt : Nat) (expMode : Bool) (off : Int) (vs : List FVal) : Requant :=
  if vs.any FVal.isNan then ⟨List.replicate vs.length 0, 255, flInvalid, 0, 0⟩
  else
    let x := drainScale fmt expMode off vs
    let scaled (v : FVal) : FVal :=
      match v with
      | .fin neg m e => .fin neg m (e + 127 - x)
      | .inf neg => .inf neg
      | .nan sg => .nan sg
    let rs := vs.map (fun v => (v, drainElem fmt (scaled v)))
    let sat := (rs.filter (fun r => r.2.2.1)).length
    let und := (rs.filter (fun r => r.2.2.2.1)).length
    let inex := rs.any (fun r => !r.1.isInf && r.2.2.2.2)
    ⟨rs.map (fun r => r.2.1), x,
      flIf (decide (0 < sat)) flSaturate ||| flIf (decide (0 < und)) flUnderflow ||| flIf inex flInexact, und, sat⟩

/-- R35: element codes of a drain format packed into bytes. -/
def packCodes (fmt : Nat) (cs : List Nat) : List Byte :=
  natToBytes (drainBytes fmt) (cs.zipIdx.foldl (fun n p => n + p.1 % 2 ^ planeBits fmt * 2 ^ (planeBits fmt * p.2)) 0)

/-- R184: the value of a tile element as a drain reads it. -/
def drainValue (int : Bool) (w : W) : FVal :=
  if int then FVal.ofInt w.toInt 0 false else decodeFloat fmtF32 w.toNat

/-- R184: the values of one block of a tile row. -/
def rowBlock (x : Tile) (int : Bool) (row blk : Nat) : List FVal :=
  (List.range 32).map (fun j => drainValue int (mapGet 0 x.elems (elemKey row (32 * blk + j))))

/-! Memory of tile operations (R160, R184, R190). -/

/-- R275: the address of byte i of a lane's range: in memory, or a generic on-chip address. -/
def byteAddr (s : State) (g : Group) (lane a i : Nat) : Nat :=
  if spaceOf a = some .loc then
    let o := bitsOf a 47 0 + i
    let lb := ((ctxOf? s g.ctx).map (fun c => c.lbase)).getD 0
    (lb + g.lslot * 2 ^ 31 + o / 16 * 512 + lane * 16 + o % 16) % 2 ^ 64
  else a + i

/-- A run of bytes of a lane, cut into bytes with their addresses. -/
def runBytes (s : State) (g : Group) (lane a : Nat) (bs : List Byte) : List (Nat × Nat × Byte) :=
  bs.zipIdx.map (fun p => (lane, byteAddr s g lane a p.2, p.1))

/-- R160, R184: the faults of memory bytes, one for each lane and page that is not to be skipped. -/
def byteFaults (s : State) (g : Group) (c : TileCmd) (kind : Nat) (need : Need) (as : List (Nat × Nat)) : List FaultRec :=
  let pages := (as.map (fun p => (p.1, pageOf p.2))).eraseDups
  pages.filterMap (fun p =>
    if memNat p.2 c.skipPages then none
    else
      match as.find? (fun a => a.1 == p.1 && pageOf a.2 == p.2) with
      | none => none
      | some a =>
        match accessIn s g.ctx need a.2 with
        | .ok _ => none
        | .error f => some (engineRec s g c.split a.1 kind a.2 f))

/-- R160: the addresses on pages declared unresolvable that still fault. -/
def skipped (s : State) (g : Group) (c : TileCmd) (need : Need) (a : Nat) : Bool :=
  memNat (pageOf a) c.skipPages &&
    match accessIn s g.ctx need a with
    | .ok _ => false
    | .error _ => true

/-- R296, R299: whether the fork edge of an operation is done and every line of its memory addresses can be reached now. -/
def linesReady (s : State) (g : Group) (c : TileCmd) (need : Need) (as : List Nat) : Bool :=
  forkReady s g.gid c.split c.uid &&
    (!need.w || ((as.map lineOf).eraseDups).all (fun a =>
      match accessIn s g.ctx need a with
      | .error _ => true
      | .ok l => !lineWaits s l a))

/-- R423: what an operation's accesses do to the lookaside of its core. -/
def useLines (g : Group) (c : TileCmd) (as : List Nat) (s : State) : State :=
  ((as.map lineOf).eraseDups).foldl (fun t a => attrUse c.die c.core g.ctx a t) s

/-- Bytes written to memory, gathered by line. -/
def writeByLine (g : Group) (split : Nat) (bs : List (Nat × Byte)) (s : State) : State :=
  ((bs.map (fun p => lineOf p.1)).eraseDups).foldl (fun t line =>
    let mine := (bs.filter (fun p => lineOf p.1 == line)).map (fun p => (p.1 % 128, p.2))
    writeHomeLine g ⟨.tile, g.gid, split⟩ line (mergeBytes [] mine) false t) s

/-- Runs of bytes, as (lane, address, bytes), written on chip or to memory; addresses on skipped pages are left
out. -/
def writeRuns (g : Group) (c : TileCmd) (runs : List (Nat × Nat × List Byte)) (s : State) : State :=
  let t := (runs.filter (fun r => spaceOf r.2.1 == some .store || spaceOf r.2.1 == some .quad)).foldl
    (fun u r => writeRun c.span c.core r.2.1 r.2.2 false u) s
  let mem := (runs.filter (fun r => !(spaceOf r.2.1 == some .store || spaceOf r.2.1 == some .quad))).flatMap
    (fun r => runBytes s g r.1 r.2.1 r.2.2)
  writeByLine g c.split ((mem.filter (fun p => !skipped s g c needW p.2.1)).map (fun p => (p.2.1, p.2.2))) t

/-- The memory addresses of runs, with their lanes. -/
def runAddrs (s : State) (g : Group) (runs : List (Nat × Nat × List Byte)) : List (Nat × Nat) :=
  (runs.filter (fun r => !(spaceOf r.2.1 == some .store || spaceOf r.2.1 == some .quad))).flatMap
    (fun r => (runBytes s g r.1 r.2.1 r.2.2).map (fun p => (p.1, p.2.1)))

/-! Completion (R163, R165, R167, R243). -/

/-- R26, R163: a tile operation completes: T falls, its flags are set, and a tile-abort trap is left for its
group where part of it was skipped. -/
def finishTile (g : Group) (c : TileCmd) (fl : Flags) (abort : Bool) (s : State) : State :=
  let t := modGroup g.gid (fun x => { x with cntT := x.cntT - 1, flags := x.flags ||| fl })
    { s with eng := { s.eng with tiles := s.eng.tiles.filter (fun k => k.uid != c.uid) } }
  if abort then deferTrap g.gid (engineTrap g c.split c.clause c.word .tileAbort none none t.tick) t else t

/-- R184: a tile operation that reaches memory: held by its faults, waiting, or carried out. -/
def withMemory (g : Group) (c : TileCmd) (kind : Nat) (need : Need) (as : List (Nat × Nat)) (f : State → State)
    (s : State) : State :=
  let faults := byteFaults s g c kind need as
  if faults ≠ [] then
    if c.held then s
    else engineFaults faults { s with eng := { s.eng with
      tiles := updateFirst (fun k => k.uid == c.uid) (fun k => { k with held := true }) s.eng.tiles } }
  else if !linesReady s g c need (as.map (fun p => p.2)) then s
  else f (useLines g c (as.map (fun p => p.2)) s)

/-- R187, R188: what a completed mstat leaves for its split's next boundary. -/
def leavePending (g : Group) (c : TileCmd) (ps : List Pending) (s : State) : State :=
  if c.cancelled then s
  else modGroup g.gid (fun x => { x with pendings := x.pendings ++ ps.map (fun p => (c.split, p)) }) s

/-- R178, R181: a matrix operation completes. -/
def runPair (g : Group) (c : TileCmd) (t ha hb : Nat) (a0 a1 b0 b1 : W64) (n : Nat) (s : State) : State :=
  match resOf? s c.span c.core ha, resOf? s c.span c.core hb with
  | some a, some b =>
    let r := accumTile (resRec a0 a1) (resRec b0 b1) a b n c.em (tileOf s c.span c.core t)
    finishTile g c r.2.1 r.2.2 (modTile c.span c.core t (fun _ => r.1) s)
  | _, _ => finishTile g c 0 true s

/-- R180, R181: the tables of n steps from an origin are valid. -/
def markTables (korg n : Nat) (rec : ResRec) (r : Reservation) : Reservation :=
  let ks := (List.range rec.mext).flatMap (fun m => (List.range n).map (fun i => (m, korg + i)))
  let upd (x : Reservation) (p : Nat × Nat) : Reservation :=
    if rec.nb ≤ p.2 / 2 then x
    else
      let k := blockKey p.1 (p.2 / 2)
      let b := mapGet Block.zero x.blocks k
      let b2 := if p.2 % 2 = 0 then { b with tabLo := true } else { b with tabHi := true }
      { x with blocks := mapSet Block.zero x.blocks k b2 }
  ks.foldl upd r

/-- R185: a row of a drain: the runs it writes, its flags and counts. -/
def drainRow (x : Tile) (fmt m : Nat) (int mode : Bool) (off : Int) (row ea sa : Nat) :
    List (Nat × Nat × List Byte) × Flags × Nat × Nat :=
  let blks := (List.range 2).filter (fun b => bitOf m b)
  let rs := blks.map (fun b => requantise fmt mode off (rowBlock x int row b))
  let runs := rs.zipIdx.flatMap (fun p =>
    [(row, ea + p.2 * drainBytes fmt, packCodes fmt p.1.codes), (row, sa + p.2, natToBytes 1 p.1.scale)])
  (runs, flAll (rs.map (fun r => r.flags)), (rs.map (fun r => r.dunder)).foldl (fun a n => a + n) 0,
    (rs.map (fun r => r.dsat)).foldl (fun a n => a + n) 0)

/-- R183: an 8-bit saturating count raised. -/
def sat255 (m : SMap Nat) (k n : Nat) : SMap Nat := mapSet 0 m k (min 255 (mapGet 0 m k + n))

/-- R184, R185: a drain completes. -/
def runDrainMx (g : Group) (c : TileCmd) (t fmt m : Nat) (int mode : Bool) (off : Int) (ea sa : SMap W64)
    (s : State) : State :=
  let x := tileOf s c.span c.core t
  let rows := (lanesOf c.em).map (fun l =>
    (l, drainRow x fmt m int mode off l (mapGet 0 ea l).toNat (mapGet 0 sa l).toNat))
  let runs := rows.flatMap (fun r => r.2.1)
  let as := runAddrs s g runs
  let poison := (lanesOf c.em).any (fun l => x.poison.any (fun k => k / 64 == l && bitOf m (k % 64 / 32)))
  withMemory g c 7 needW as (fun u =>
    let v := modTile c.span c.core t (fun y => rows.foldl (fun z r =>
      { z with dunder := sat255 z.dunder r.1 r.2.2.2.1, dsat := sat255 z.dsat r.1 r.2.2.2.2 }) y) u
    finishTile g c (flAll (rows.map (fun r => r.2.2.1))) (poison || as.any (fun p => skipped s g c needW p.2))
      (writeRuns g c runs v)) s

/-- R190: the runs of a saved tile, one for each row. -/
def saveRuns (x : Tile) (a : Nat) : List (Nat × Nat × List Byte) :=
  (List.range 32).map (fun r =>
    (r, a + 256 * r, (List.range 64).flatMap (fun c => natToBytes 4 (mapGet 0 x.elems (elemKey r c)).toNat)))

/-- R190: msave completes. -/
def runSave (g : Group) (c : TileCmd) (t a : Nat) (s : State) : State :=
  let x := tileOf s c.span c.core t
  let runs := saveRuns x a
  let as := runAddrs s g runs
  withMemory g c 7 needW as (fun u =>
    finishTile g c 0 (x.poison != [] || as.any (fun p => skipped s g c needW p.2)) (writeRuns g c runs u)) s

/-- R190: the word of a tile at an offset of its saved layout, and whether it is poisoned; a word on a skipped
page is kept as it was. -/
def loadWord (s : State) (g : Group) (c : TileCmd) (a i : Nat) (old : W) : W × Bool :=
  let ad := a + 4 * i
  match spaceOf a with
  | some .store => (BitVec.ofNat 32 (bytesToNat ((List.range 4).map (fun j => storeByte s c.span c.core (bitsOf ad 47 0 + j)))),
      storePoisoned s c.span c.core (bitsOf ad 47 0) 4)
  | some .quad => (BitVec.ofNat 32 (bytesToNat ((List.range 4).map (fun j => quadByte s c.span (bitsOf ad 47 0 + j)))),
      quadPoisoned s c.span (bitsOf ad 47 0) 4)
  | _ =>
    match accessIn s g.ctx needRd ad with
    | .ok l => (BitVec.ofNat 32 (rdNat s l.phys 4), isPoisoned s l.phys)
    | .error _ => (old, false)

/-- R190: mload completes. -/
def runLoadTile (g : Group) (c : TileCmd) (t a : Nat) (s : State) : State :=
  let as := if spaceOf a = some .glob then (List.range 64).map (fun i => (i / 2, a + 128 * i)) else []
  withMemory g c 6 needRd as (fun u =>
    let load (x : Tile) : Tile := (List.range 2048).foldl (fun y i =>
      let k := elemKey (i / 64) (i % 64)
      let w := loadWord u g c a i (mapGet 0 x.elems k)
      { y with elems := mapSet 0 y.elems k w.1, poison := if w.2 then y.poison ++ [k] else y.poison })
        { x with poison := [] }
    finishTile g c 0 (as.any (fun p => skipped s g c needRd p.2)) (modTile c.span c.core t load u)) s

/-- R187: the word that mstat gives for one block. -/
def statWord (b : Block) : W :=
  let special := b.classes.any (fun c => c.2 == .nan || c.2 == .posInf || c.2 == .negInf)
  BitVec.ofNat 32 (b.under + b.align * 256 + (if special then 65536 else 0))

/-- R187: mstat on a reservation completes. -/
def runStatBlock (g : Group) (c : TileCmd) (n k : Nat) (hi : Bool) (d : Nat) (s : State) : State :=
  match resOf? s c.span c.core n with
  | none => finishTile g c 0 false s
  | some r =>
    let row (l : Nat) : Nat := if r.record.roleB ∧ hi then l + 32 else l
    let real (l : Nat) : Bool := decide (row l < r.record.mext ∧ k < r.record.nb)
    let t := modGroup g.gid (fun x => x.setLanes d c.em (fun l => if real l then statWord (r.block (row l) k) else 0)) s
    let ps := ((lanesOf c.em).filter real).map (fun l =>
      Pending.block c.core n (blockKey (row l) k) (r.block (row l) k).under (r.block (row l) k).align)
    finishTile g c 0 false (leavePending g c ps t)

/-- R188: mstat on a tile completes. -/
def runStatTile (g : Group) (c : TileCmd) (t d : Nat) (s : State) : State :=
  let x := tileOf s c.span c.core t
  let w (l : Nat) : W := BitVec.ofNat 32 (mapGet 0 x.dunder l + mapGet 0 x.dsat l * 256)
  let u := modGroup g.gid (fun y => y.setLanes d c.em w) s
  let ps := (lanesOf c.em).map (fun l => Pending.tileRow c.core t l (mapGet 0 x.dunder l) (mapGet 0 x.dsat l))
  finishTile g c 0 false (leavePending g c ps u)

/-- The sum of the counts of all 32 rows. -/
def rowSum (m : SMap Nat) : Nat := (List.range 32).foldl (fun a r => a + mapGet 0 m r) 0

/-- R189: the suggestion of a tile. -/
def suggestion (x : Tile) (thr : Nat) : W64 :=
  if 0 < rowSum x.dsat then 1 else if 2 ^ thr ≤ rowSum x.dunder then BitVec.allOnes 64 else 0

/-- R179: the rows of a mask zeroed. -/
def zeroRows (em : W) (x : Tile) : Tile :=
  { x with elems := x.elems.filter (fun p => !inMask em (p.1 / 64)),
           poison := x.poison.filter (fun k => !inMask em (k / 64)) }

/-- R163: a tile operation carried out by the array. -/
def runTile (g : Group) (c : TileCmd) (s : State) : State :=
  match c.op with
  | .mzero t => finishTile g c 0 false (modTile c.span c.core t (zeroRows c.em) s)
  | .mmk t ha hb a0 a1 b0 b1 n => runPair g c t ha hb a0 a1 b0 b1 n s
  | .mtab hb b0 b1 n =>
    finishTile g c 0 false (modRes c.span c.core hb (markTables (resRec b0 b1).korg n (resRec b0 b1)) s)
  | .mlut t ha hb a0 a1 b0 b1 n =>
    runPair g c t ha hb a0 a1 b0 b1 n (modRes c.span c.core hb (markTables (resRec b0 b1).korg n (resRec b0 b1)) s)
  | .mdrain t d gi =>
    let x := tileOf s c.span c.core t
    let bad := (lanesOf c.em).any (fun l => x.poison.any (fun k => k / 64 == l && k % 64 / 8 == gi))
    finishTile g c 0 bad (modGroup g.gid (fun y =>
      y.setWide d 8 c.em (fun l j => mapGet 0 x.elems (elemKey l (8 * gi + j)))) s)
  | .mdrainMx t _ fmt m int mode off ea sa => runDrainMx g c t fmt m int mode off ea sa s
  | .msave t a => runSave g c t a s
  | .mload t a => runLoadTile g c t a s
  | .mstatBlock n k hi d => runStatBlock g c n k hi d s
  | .mstatTile t d => runStatTile g c t d s
  | .msuggest t thr d =>
    finishTile g c 0 false (modGroup g.gid (fun y =>
      { y with sregs := mapSet 0 y.sregs d (suggestion (tileOf s c.span c.core t) thr) }) s)

/-! Array time (R177, R180, R181, R411). -/

/-- R177: the planes of a step of 16 k: those of A, once for B of at most 8 bits and twice for wider B. -/
def pairPlanes (fa fb : Nat) : Nat := planeWidth fa * ((planeWidth fb + 7) / 8)

/-- R177: the largest number of outliers that a block of an active row of A has between two positions. -/
def unitOutliers (a : Reservation) (em : W) (u : Nat × Nat × Nat × Nat) : Nat :=
  (lanesOf em).foldl (fun m l => max m ((a.block l u.1).classes.filter (fun c => decide (u.2.2.1 ≤ c.1 ∧ c.1 < u.2.2.2) &&
    match c.2 with
    | .outlier _ => true
    | _ => false)).length) 0

/-- R181: the steps of 16 positions whose tables are not all valid. -/
def staleTables (b : Reservation) (korg n : Nat) : Nat :=
  ((List.range n).filter (fun i => (List.range b.record.mext).any (fun m =>
    let k := b.block m ((korg + i) / 2)
    if (korg + i) % 2 = 0 then !k.tabLo else !k.tabHi))).length

/-- R181: the bits of a table-lookup weight. -/
def weightBits (fmt : Nat) : Nat := if fmt = 13 then 1 else if fmt = 16 then 4 else 2

/-- R411: the array clk that an operation is charged: R177, R180 and R181, and 2 for a drain or statistics word. -/
def tileClk (s : State) (c : TileCmd) : Nat :=
  match c.op with
  | .mmk _ ha _ a0 a1 b0 b1 n =>
    let out := ((resOf? s c.span c.core ha).map (fun a =>
      ((unitsFrom (resRec b0 b1).korg (resRec a0 a1).korg n).map (unitOutliers a c.em)).sum)).getD 0
    n * pairPlanes (resRec a0 a1).fmt (resRec b0 b1).fmt + out
  | .mtab _ _ _ n => 4 * n
  | .mlut _ _ hb a0 a1 b0 b1 n =>
    let stale := ((resOf? s c.span c.core hb).map (fun b => staleTables b (resRec b0 b1).korg n)).getD 0
    (n * weightBits (resRec a0 a1).fmt + 1) / 2 + 4 * stale
  | .mdrain _ _ _ => 2
  | .mdrainMx _ _ _ _ _ _ _ _ _ => 2
  | .mstatBlock _ _ _ _ => 2
  | .mstatTile _ _ => 2
  | .mzero _ => 0
  | .msave _ _ => 0
  | .mload _ _ => 0
  | .msuggest _ _ _ => 0

/-- R411: a completed operation charged to the owner of its context. -/
def chargeTile (g : Group) (c : TileCmd) (n : Nat) (s : State) : State :=
  if s.eng.tiles.any (fun k => k.uid == c.uid) then s
  else
    match ctxOf? s g.ctx with
    | some x => addUse x.owner 1 n s
    | none => s

/-- TILE_OP_COMPLETE (R163): the oldest operation of a core's queue is carried out. -/
def execTileOpComplete (die core : Nat) (s : State) : Out :=
  match s.eng.tiles.find? (fun c => c.die == die && c.core == core && !c.suspended) with
  | none => .next s
  | some c =>
    match groupOf? s c.gid with
    | none => .next s
    | some g => .next (chargeTile g c (tileClk s c) (runTile g c s))

end Sys2Proof.Machine
end

