-- ==== Sys2Proof/Machine/Convert.lean ====
section
/-! DEFINITION. Major 3: moves and conversions (R124 to R129). -/

namespace Sys2Proof.Machine

open Sys2Proof

/-- A conversion of shape 32, 32 whose result depends on A, %fmode and %rng. -/
def convWord (d : Nat) (a : VSrc) (f : W → W → W → LaneOut) (s : State) : Out :=
  vecWord d 1 (a.range 1) [] (fun t l => f t.g.fmode (rngGet t l) (a.val t l)) s

/-- R124. -/
def execMovB32 (o : V2) (s : State) : Out := o.int out32 s

/-- R124, R87: a literal is zero-extended. -/
def execMovB64 (o : V2) (s : State) : Out := o.word 2 2 (fun t l => out64 (o.a.val64 .zero t l)) s

/-- R125: an integer rounded to f32. -/
def intToF32 (rnd : Nat) (sat : Bool) (fmode rng : W) (i : Int) : LaneOut :=
  let r := rndTo fmtF32 rnd sat fmode (FVal.ofInt i 0 false, 0) rng
  outRng r.1 r.2.1 rng r.2.2

/-- R125. -/
def execCvtF32I32 (o : C2) (s : State) : Out :=
  convWord o.d o.a (fun fm rng a => intToF32 o.rnd o.sat fm rng a.toInt) s

/-- R125. -/
def execCvtF32N32 (o : C2) (s : State) : Out :=
  convWord o.d o.a (fun fm rng a => intToF32 o.rnd o.sat fm rng a.toNat) s

/-- R125, R46: an f32 word to an integer. -/
def f32ToInt (signed : Bool) (rnd : Nat) (sat : Bool) (fmode rng a : W) : LaneOut :=
  let x := readFloat fmtF32 (ftzOf fmode) a.toNat
  let m := roundMode rnd fmode rng
  let r := floatToInt 32 signed m sat x.1
  outRng r.1 (x.2 ||| r.2) rng (if m.isSto then xorshift rng else rng)

/-- R125. -/
def execCvtI32F32 (o : C2) (s : State) : Out := convWord o.d o.a (f32ToInt true o.rnd o.sat) s

/-- R125. -/
def execCvtN32F32 (o : C2) (s : State) : Out := convWord o.d o.a (f32ToInt false o.rnd o.sat) s

/-- R126. -/
def roundF32 (rnd : Nat) (fmode rng a : W) : LaneOut :=
  let x := readFloat fmtF32 (ftzOf fmode) a.toNat
  let m := roundMode rnd fmode rng
  let r := floatRoundIntegral m x.1
  outRng (exactBits fmtF32 r.1) (x.2 ||| r.2) rng (if m.isSto then xorshift rng else rng)

/-- R126. -/
def execFroundF32 (o : C2) (s : State) : Out := convWord o.d o.a (roundF32 o.rnd) s

/-- R127: the elements of a packing conversion, in ascending order, each with the random state the one
before left: the packed bits, the flags and the random state after. -/
def packElems (w : Nat) (conv : Nat → W → Nat × Flags × W) : Nat → W → Nat × Flags × W
  | 0, rng => (0, 0, rng)
  | n + 1, rng =>
    let p := packElems w conv n rng
    let e := conv n p.2.2
    (p.1 + e.1 * 2 ^ (w * n), p.2.1 ||| e.2.1, e.2.2)

/-- R127: a packing conversion of n elements of w bits from consecutive registers. -/
def packWord (w n : Nat) (o : P2) (conv : W → W → W → Nat × Flags × W) (s : State) : Out :=
  vecWord o.d 1 [(o.a, n)] [] (fun t l =>
    let r := packElems w (fun e rng => conv t.g.fmode (vGet t (o.a + e) l) rng) n (rngGet t l)
    outRng r.1 r.2.1 (rngGet t l) r.2.2) s

/-- R127: one f32 element rounded into a narrower format. -/
def narrowElem (f : Fmt) (rnd : Nat) (sat : Bool) (fmode a rng : W) : Nat × Flags × W :=
  let x := readFloat fmtF32 (ftzOf fmode) a.toNat
  let r := rndTo f rnd sat fmode (x.1, 0) rng
  (r.1, x.2 ||| r.2.1, r.2.2)

/-- R127. -/
def execCvtF16x2F32 (o : P2) (s : State) : Out := packWord 16 2 o (narrowElem fmtF16 o.rnd o.sat) s

/-- R127. -/
def execCvtBf16x2F32 (o : P2) (s : State) : Out := packWord 16 2 o (narrowElem fmtBf16 o.rnd o.sat) s

/-- R127. -/
def execCvtE4m3x4F32 (o : P2) (s : State) : Out := packWord 8 4 o (narrowElem fmtE4M3 o.rnd o.sat) s

/-- R127. -/
def execCvtE5m2x4F32 (o : P2) (s : State) : Out := packWord 8 4 o (narrowElem fmtE5M2 o.rnd o.sat) s

/-- R127: one element clamped to a signed byte. -/
def clampByte (sat : Bool) (a rng : W) : Nat × Flags × W :=
  let x := a.toInt
  let bad := if sat then flSaturate else flInvalid
  if x < -128 then (128, bad, rng) else if 127 < x then (127, bad, rng) else (wrapInt 8 x, 0, rng)

/-- R127. -/
def execCvtI8x4I32 (o : P2) (s : State) : Out := packWord 8 4 o (fun _ => clampByte o.sat) s

/-- R128: an element of a format widened to f32. -/
def widenElem (f : Fmt) (fmode : W) (bits : Nat) : LaneOut :=
  let x := readFloat f (ftzOf fmode) bits
  ⟨BitVec.ofNat 64 (exactBits fmtF32 x.1), x.2 ||| flIf x.1.isSig flInvalid, none⟩

/-- R128: an unpacking conversion to f32. -/
def widenWord (f : Fmt) (o : U2) (s : State) : Out :=
  convWord o.d o.a (fun fm _ a => widenElem f fm (elemAt f.width o.elem a)) s

/-- R128. -/
def execCvtF32F16 (o : U2) (s : State) : Out := widenWord fmtF16 o s

/-- R128. -/
def execCvtF32Bf16 (o : U2) (s : State) : Out := widenWord fmtBf16 o s

/-- R128. -/
def execCvtF32E4m3 (o : U2) (s : State) : Out := widenWord fmtE4M3 o s

/-- R128. -/
def execCvtF32E5m2 (o : U2) (s : State) : Out := widenWord fmtE5M2 o s

/-- R128. -/
def execCvtI32I8 (o : U2) (s : State) : Out :=
  convWord o.d o.a (fun _ _ a => out32 (BitVec.ofInt 32 (toSigned 8 (elemAt 8 o.elem a)))) s

/-- R129: exact. -/
def execCvtF64F32 (o : V2) (s : State) : Out :=
  o.word 2 1 (fun t l =>
    let x := readFloat fmtF32 (ftzOf t.g.fmode) (o.a.val t l).toNat
    ⟨BitVec.ofNat 64 (exactBits fmtF64 x.1), x.2 ||| flIf x.1.isSig flInvalid, none⟩) s

/-- R129, R87: a literal operand is an f32 widened. -/
def execCvtF32F64 (o : C2) (s : State) : Out :=
  vecWord o.d 1 (o.a.range 2) [] (fun t l =>
    let x := readFloat fmtF64 (ftzOf t.g.fmode) (o.a.val64 .float t l).toNat
    let r := rndTo fmtF32 o.rnd o.sat t.g.fmode (x.1, 0) (rngGet t l)
    outRng r.1 (x.2 ||| r.2.1) (rngGet t l) r.2.2) s

end Sys2Proof.Machine
end

