-- ==== Sys2Proof/Machine/Floating.lean ====
section
/-! DEFINITION. Major 1: floating-point instructions (R111 to R118). -/

namespace Sys2Proof.Machine

open Sys2Proof

/-- R111. -/
def execFaddF32 (o : V3) (s : State) : Out := o.f32 addExact s

/-- R111. -/
def execFsubF32 (o : V3) (s : State) : Out := o.f32 subExact s

/-- R111. -/
def execFmulF32 (o : V3) (s : State) : Out := o.f32 (fun _ => mulExact) s

/-- R112. -/
def execFminF32 (o : V3) (s : State) : Out := o.minMax32 false false s

/-- R112. -/
def execFmaxF32 (o : V3) (s : State) : Out := o.minMax32 true false s

/-- R112. -/
def execFminnF32 (o : V3) (s : State) : Out := o.minMax32 false true s

/-- R112. -/
def execFmaxnF32 (o : V3) (s : State) : Out := o.minMax32 true true s

/-- R113: a sign operation on f32: the sign is a function of the old one; a NaN gives the canonical NaN. -/
def signElem (newSign : Bool → Bool) (fmode a : W) : LaneOut :=
  let x := readFloat fmtF32 (ftzOf fmode) a.toNat
  match x.1 with
  | .nan sig => ⟨BitVec.ofNat 64 fmtF32.canonNan, x.2 ||| flIf sig flInvalid, none⟩
  | .inf neg => ⟨BitVec.ofNat 64 (exactBits fmtF32 (.inf (newSign neg))), x.2, none⟩
  | .fin neg m e => ⟨BitVec.ofNat 64 (exactBits fmtF32 (.fin (newSign neg) m e)), x.2, none⟩

/-- R113. -/
def execFabsF32 (o : V2) (s : State) : Out := o.int (signElem (fun _ => false) s.g.fmode) s

/-- R113. -/
def execFnegF32 (o : V2) (s : State) : Out := o.int (signElem (fun n => !n) s.g.fmode) s

/-- R114: the number of the class of an f32 word. -/
def classBit (a : W) : Nat :=
  match decodeFloat fmtF32 a.toNat with
  | .nan sig => if sig then 0 else 1
  | .inf neg => if neg then 2 else 9
  | .fin neg m _ =>
    if m = 0 then (if neg then 5 else 6)
    else if isSubnormal fmtF32 a.toNat then (if neg then 4 else 7)
    else if neg then 3 else 8

/-- R114: no flag, whatever %fmode holds. -/
def execFclassF32 (o : V2) (s : State) : Out := o.int (fun a => out32 (BitVec.ofNat 32 (2 ^ classBit a))) s

/-- R115. -/
def execFscaleF32 (o : V3) (s : State) : Out :=
  o.word 1 1 1 (fun t l =>
    let x := readFloat fmtF32 (ftzOf t.g.fmode) (o.a.val t l).toNat
    let r := rndTo fmtF32 6 false t.g.fmode (scaleExact (o.b.val t l).toInt x.1, 0) (rngGet t l)
    outRng r.1 (x.2 ||| r.2.1) (rngGet t l) r.2.2) s

/-- R116: a compare of f32 operands. -/
def fcmp32 (o : K3) (ordered : Bool) (rel : Option Ordering → Bool) (s : State) : Out :=
  K3.cmp o (fun a b => compareElem fmtF32 ordered rel s.g.fmode a.toNat b.toNat) s

/-- R116: a compare of f64 operands. -/
def fcmp64 (o : K3) (ordered : Bool) (rel : Option Ordering → Bool) (s : State) : Out :=
  K3.cmp64 .float o (fun a b => compareElem fmtF64 ordered rel s.g.fmode a.toNat b.toNat) s

/-- R116: whether two values compare equal. -/
def relEq (r : Option Ordering) : Bool := r == some .eq

/-- R116: whether the first value is less. -/
def relLt (r : Option Ordering) : Bool := r == some .lt

/-- R116: whether the first value is less or equal. -/
def relLe (r : Option Ordering) : Bool := r == some .lt || r == some .eq

/-- R116: whether one of the values is a NaN. -/
def relUn (r : Option Ordering) : Bool := r == none

/-- R116. -/
def execFcmpEqF32 (o : K3) (s : State) : Out := fcmp32 o false relEq s

/-- R116. -/
def execFcmpLtF32 (o : K3) (s : State) : Out := fcmp32 o true relLt s

/-- R116. -/
def execFcmpLeF32 (o : K3) (s : State) : Out := fcmp32 o true relLe s

/-- R116. -/
def execFcmpUnF32 (o : K3) (s : State) : Out := fcmp32 o false relUn s

/-- R117. -/
def execFaddF16x2 (o : V3) (s : State) : Out := V3.x2 fmtF16 o addExact s

/-- R117. -/
def execFsubF16x2 (o : V3) (s : State) : Out := V3.x2 fmtF16 o subExact s

/-- R117. -/
def execFmulF16x2 (o : V3) (s : State) : Out := V3.x2 fmtF16 o (fun _ => mulExact) s

/-- R117. -/
def execFaddBf16x2 (o : V3) (s : State) : Out := V3.x2 fmtBf16 o addExact s

/-- R117. -/
def execFsubBf16x2 (o : V3) (s : State) : Out := V3.x2 fmtBf16 o subExact s

/-- R117. -/
def execFmulBf16x2 (o : V3) (s : State) : Out := V3.x2 fmtBf16 o (fun _ => mulExact) s

/-- R117. -/
def execFmaxBf16x2 (o : V3) (s : State) : Out := V3.minMaxX2 true o s

/-- R117. -/
def execFminBf16x2 (o : V3) (s : State) : Out := V3.minMaxX2 false o s

/-- R118. -/
def execFaddF64 (o : V3) (s : State) : Out := o.f64 addExact s

/-- R118. -/
def execFsubF64 (o : V3) (s : State) : Out := o.f64 subExact s

/-- R118. -/
def execFmulF64 (o : V3) (s : State) : Out := o.f64 (fun _ => mulExact) s

/-- R118. -/
def execFminF64 (o : V3) (s : State) : Out := V3.minMax64 false o s

/-- R118. -/
def execFmaxF64 (o : V3) (s : State) : Out := V3.minMax64 true o s

/-- R116. -/
def execFcmpLtF64 (o : K3) (s : State) : Out := fcmp64 o true relLt s

/-- R116. -/
def execFcmpEqF64 (o : K3) (s : State) : Out := fcmp64 o false relEq s

end Sys2Proof.Machine
end

