-- ==== Sys2Proof/Machine/Integer.lean ====
section
/-! DEFINITION. Major 0: integer instructions (R104 to R110). -/

namespace Sys2Proof.Machine

open Sys2Proof

/-- R104: an exact integer clamped to a range, with saturate where it clamps. -/
def clampOut (lo hi x : Int) : LaneOut :=
  if x < lo then ⟨BitVec.ofInt 64 lo, flSaturate, none⟩
  else if hi < x then ⟨BitVec.ofInt 64 hi, flSaturate, none⟩
  else ⟨BitVec.ofInt 64 x, 0, none⟩

/-- R104. -/
def execAddI32 (o : V3) (s : State) : Out := o.int (fun a b => out32 (a + b)) s

/-- R104. -/
def execSubI32 (o : V3) (s : State) : Out := o.int (fun a b => out32 (a - b)) s

/-- R104. -/
def execAddSatI32 (o : V3) (s : State) : Out :=
  o.int (fun a b => clampOut (-2147483648) 2147483647 (a.toInt + b.toInt)) s

/-- R104. -/
def execSubSatI32 (o : V3) (s : State) : Out :=
  o.int (fun a b => clampOut (-2147483648) 2147483647 (a.toInt - b.toInt)) s

/-- R104. -/
def execAddSatN32 (o : V3) (s : State) : Out :=
  o.int (fun a b => clampOut 0 4294967295 ((a.toNat : Int) + b.toNat)) s

/-- R104. -/
def execSubSatN32 (o : V3) (s : State) : Out :=
  o.int (fun a b => clampOut 0 4294967295 ((a.toNat : Int) - b.toNat)) s

/-- R104. -/
def execAddI64 (o : V3) (s : State) : Out := o.int64 .signed (fun a b => out64 (a + b)) s

/-- R104. -/
def execSubI64 (o : V3) (s : State) : Out := o.int64 .signed (fun a b => out64 (a - b)) s

/-- R105. -/
def execMulLoI32 (o : V3) (s : State) : Out := o.int (fun a b => out32 (a * b)) s

/-- R105. -/
def execMulHiI32 (o : V3) (s : State) : Out := o.int (fun a b => out32 (highWord (sext64 a * sext64 b))) s

/-- R105. -/
def execMulHiN32 (o : V3) (s : State) : Out := o.int (fun a b => out32 (highWord (zext64 a * zext64 b))) s

/-- R105. -/
def execMulWideI32 (o : V3) (s : State) : Out := o.wide (fun a b => out64 (sext64 a * sext64 b)) s

/-- R105. -/
def execMulWideN32 (o : V3) (s : State) : Out := o.wide (fun a b => out64 (zext64 a * zext64 b)) s

/-- R106. -/
def execMinI32 (o : V3) (s : State) : Out := o.int (fun a b => out32 (if a.toInt ≤ b.toInt then a else b)) s

/-- R106. -/
def execMaxI32 (o : V3) (s : State) : Out := o.int (fun a b => out32 (if a.toInt ≤ b.toInt then b else a)) s

/-- R106. -/
def execMinN32 (o : V3) (s : State) : Out := o.int (fun a b => out32 (if a.toNat ≤ b.toNat then a else b)) s

/-- R106. -/
def execMaxN32 (o : V3) (s : State) : Out := o.int (fun a b => out32 (if a.toNat ≤ b.toNat then b else a)) s

/-- R106. -/
def execAbsdiffN32 (o : V3) (s : State) : Out :=
  o.int (fun a b => out32 (if a.toNat ≤ b.toNat then b - a else a - b)) s

/-- R106: the average is rounded up, in 33 bits. -/
def execAvgN32 (o : V3) (s : State) : Out :=
  o.int (fun a b => out32 (BitVec.ofNat 32 ((a.toNat + b.toNat + 1) / 2))) s

/-- R107. -/
def execAndB32 (o : V3) (s : State) : Out := o.int (fun a b => out32 (a &&& b)) s

/-- R107. -/
def execOrB32 (o : V3) (s : State) : Out := o.int (fun a b => out32 (a ||| b)) s

/-- R107. -/
def execXorB32 (o : V3) (s : State) : Out := o.int (fun a b => out32 (a ^^^ b)) s

/-- R107. -/
def execAndnB32 (o : V3) (s : State) : Out := o.int (fun a b => out32 (a &&& ~~~ b)) s

/-- R107: a count of 32 or more gives 0. -/
def execShlB32 (o : V3) (s : State) : Out :=
  o.int (fun a b => out32 (if b.toNat < 32 then a <<< b.toNat else 0)) s

/-- R107: a count of 32 or more gives 0. -/
def execShrB32 (o : V3) (s : State) : Out :=
  o.int (fun a b => out32 (if b.toNat < 32 then a >>> b.toNat else 0)) s

/-- R107: a count of 32 or more gives the sign. -/
def execSraI32 (o : V3) (s : State) : Out :=
  o.int (fun a b => out32 (if b.toNat < 32 then a.sshiftRight b.toNat else if 0 ≤ a.toInt then 0 else BitVec.allOnes 32)) s

/-- R107. -/
def execRotlB32 (o : V3) (s : State) : Out := o.int (fun a b => out32 (a.rotateLeft (b.toNat % 32))) s

/-- R107: a count of 64 or more gives 0. -/
def execShlB64 (o : V3) (s : State) : Out :=
  o.shift64 (fun a b => out64 (if b.toNat < 64 then a <<< b.toNat else 0)) s

/-- R107: a count of 64 or more gives 0. -/
def execShrB64 (o : V3) (s : State) : Out :=
  o.shift64 (fun a b => out64 (if b.toNat < 64 then a >>> b.toNat else 0)) s

/-- R108. -/
def execPopcB32 (o : V2) (s : State) : Out := o.int (fun a => out32 (BitVec.ofNat 32 (popCount 32 a.toNat))) s

/-- R108. -/
def execClzB32 (o : V2) (s : State) : Out := o.int (fun a => out32 (BitVec.ofNat 32 (32 - bitLen a.toNat))) s

/-- R108. -/
def execCtzB32 (o : V2) (s : State) : Out := o.int (fun a => out32 (BitVec.ofNat 32 (lowestBit 32 a.toNat))) s

/-- R108. -/
def execBrevB32 (o : V2) (s : State) : Out := o.int (fun a => out32 (BitVec.ofNat 32 (reverseBits 32 a.toNat))) s

/-- R109: the width of the field that B describes. -/
def fieldWidth (b : W) : Nat := min (bitsOf b.toNat 15 8) 32

/-- R109: the position of the field that B describes. -/
def fieldPos (b : W) : Nat := bitsOf b.toNat 7 0

/-- R109. -/
def execBfeN32 (o : V3) (s : State) : Out :=
  o.int (fun a b => out32 (BitVec.ofNat 32 (a.toNat / 2 ^ fieldPos b % 2 ^ fieldWidth b))) s

/-- R109: the source is extended with copies of its sign, the field with copies of its top bit. -/
def execBfeI32 (o : V3) (s : State) : Out :=
  o.int (fun a b =>
    let w := fieldWidth b
    let f := ((a.toInt / (2 ^ fieldPos b : Nat)) % (2 ^ w : Nat)).toNat
    out32 (if w = 0 then 0 else BitVec.ofInt 32 (toSigned w f))) s

/-- R110. -/
def execCmpEqI32 (o : K3) (s : State) : Out := o.cmp (fun a b => (decide (a = b), 0)) s

/-- R110. -/
def execCmpNeI32 (o : K3) (s : State) : Out := o.cmp (fun a b => (decide (a ≠ b), 0)) s

/-- R110. -/
def execCmpLtI32 (o : K3) (s : State) : Out := o.cmp (fun a b => (decide (a.toInt < b.toInt), 0)) s

/-- R110. -/
def execCmpLeI32 (o : K3) (s : State) : Out := o.cmp (fun a b => (decide (a.toInt ≤ b.toInt), 0)) s

/-- R110. -/
def execCmpLtN32 (o : K3) (s : State) : Out := o.cmp (fun a b => (decide (a.toNat < b.toNat), 0)) s

/-- R110. -/
def execCmpLeN32 (o : K3) (s : State) : Out := o.cmp (fun a b => (decide (a.toNat ≤ b.toNat), 0)) s

/-- R110. -/
def execCmpEqI64 (o : K3) (s : State) : Out := o.cmp64 .signed (fun a b => (decide (a = b), 0)) s

/-- R110. -/
def execCmpLtI64 (o : K3) (s : State) : Out := o.cmp64 .signed (fun a b => (decide (a.toInt < b.toInt), 0)) s

/-- R110, R87: a literal operand of .n64 is zero-extended. -/
def execCmpLtN64 (o : K3) (s : State) : Out := o.cmp64 .zero (fun a b => (decide (a.toNat < b.toNat), 0)) s

end Sys2Proof.Machine
end

