-- ==== Sys2Proof/Machine/Lanes.lean ====
section
/-! DEFINITION. Major 4: lane exchanges, reductions, scans and masks (R133 to R141, R48 to R51). -/

namespace Sys2Proof.Machine

open Sys2Proof

/-- R136, R135: an exchange: a lane receives A of the lane that pick names. -/
def exchange (o : X3) (pick : Nat → Nat → Nat) (s : State) : Out :=
  vecWord o.d 1 (o.a.range 1) o.b.scalars (fun t l => out32 (o.a.val t (pick (o.b.val t).toNat l))) s

/-- R136: each lane names its source lane; every lane reads before any is written. -/
def execLpick (o : V3) (s : State) : Out :=
  o.word 1 1 1 (fun t l => out32 (o.a.val t ((o.b.val t l).toNat % 32))) s

/-- R136. -/
def execBflyB32 (o : X3) (s : State) : Out := exchange o (fun b l => l ^^^ (b % 32)) s

/-- R136: pairs; a literal is zero-extended. -/
def execBflyB64 (o : X3) (s : State) : Out :=
  vecWord o.d 2 (o.a.range 2) o.b.scalars
    (fun t l => out64 (o.a.val64 .zero t (l ^^^ ((o.b.val t).toNat % 32)))) s

/-- R136. -/
def execRotLane (o : X3) (s : State) : Out := exchange o (fun b l => (l + 32 - b % 32) % 32) s

/-- R136. -/
def execBcast (o : X3) (s : State) : Out := exchange o (fun b _ => b % 32) s

/-- R48, R50: one combining step; an absent side performs no operation and sets no flag. -/
def combine {α : Type} (f : α → α → α × Flags) (x y : Option α) : Option α × Flags :=
  match x, y with
  | some a, some b => let r := f a b; (some r.1, r.2)
  | some a, none => (some a, 0)
  | none, y => (y, 0)

/-- R48: one level of the fixed tree: neighbours combined. -/
def pairUp {α : Type} (f : α → α → α × Flags) : List (Option α) → List (Option α) × Flags
  | [] => ([], 0)
  | [x] => ([x], 0)
  | x :: y :: xs =>
    let r := combine f x y
    let p := pairUp f xs
    (r.1 :: p.1, r.2 ||| p.2)

/-- R48: n levels of the fixed tree, from the leaves of the lanes. -/
def reduceTree {α : Type} (f : α → α → α × Flags) : Nat → List (Option α) → List (Option α) × Flags
  | 0, xs => (xs, 0)
  | n + 1, xs =>
    let p := pairUp f xs
    let q := reduceTree f n p.1
    (q.1, p.2 ||| q.2)

/-- R48: the leaves: the values of the active lanes, absent elsewhere. -/
def leavesOf {α : Type} (em : W) (x : Nat → α) : List (Option α) :=
  laneList.map (fun l => if inMask em l then some (x l) else none)

/-- R48: the combination of the active lanes and the flags of the steps. -/
def reduceLanes {α : Type} (f : α → α → α × Flags) (em : W) (x : Nat → α) : Option α × Flags :=
  let r := reduceTree f 5 (leavesOf em x)
  (r.1.head?.join, r.2)

/-- R49: one step of the prefix tree at a distance; it reads the values from before the step. -/
def scanStep {α : Type} (f : α → α → α × Flags) (d : Nat) (p : List (Option α)) : List (Option α) × Flags :=
  let q := p.zipIdx.map (fun x => if d ≤ x.2 then combine f (nthD none p (x.2 - d)) x.1 else (x.1, 0))
  (q.map (fun x => x.1), flAll (q.map (fun x => x.2)))

/-- R49: the inclusive prefixes of the lanes and the flags of the steps. -/
def scanLanes {α : Type} (f : α → α → α × Flags) (em : W) (x : Nat → α) : List (Option α) × Flags :=
  [1, 2, 4, 8, 16].foldl (fun p d => let r := scanStep f d p.1; (r.1, p.2 ||| r.2)) (leavesOf em x, 0)

/-- R137: a reduction: the active lanes receive the combination; flags of leaves and steps. -/
def reduction (o : V2) (leaf : W → W → W × Flags) (comb : W → W → W → W × Flags) (fin : W → W) (s : State) : Out :=
  issueWord (vecTrap s o.d 1 (o.a.range 1)) (regsOf ((o.d, 1) :: o.a.range 1)) []
    (readGuard (regsOf (o.a.range 1)) fun t =>
      let lf (l : Nat) := leaf t.g.fmode (o.a.val t l)
      let r := reduceLanes (comb t.g.fmode) t.sp.em (fun l => (lf l).1)
      raise (r.2 ||| flAll ((lanesOf t.sp.em).map (fun l => (lf l).2))) (vSet o.d (fun _ => fin (r.1.getD 0)) t)) s

/-- R137: an integer reduction. -/
def intReduction (o : V2) (comb : W → W → W) (s : State) : Out :=
  reduction o (fun _ a => (a, 0)) (fun _ a b => (comb a b, 0)) (fun a => a) s

/-- R137, R42: a leaf read under ftz. -/
def floatLeaf (fmode a : W) : W × Flags :=
  if ftzOf fmode && isSubnormal fmtF32 a.toNat then (a &&& 0x80000000, flDenormal) else (a, 0)

/-- R33: a NaN written canonical. -/
def canonF32 (a : W) : W := if (decodeFloat fmtF32 a.toNat).isNan then BitVec.ofNat 32 fmtF32.canonNan else a

/-- R137, R50, R51: a step of the f32 sum, rounded once; a stochastic mode rounds RNE. -/
def sumStep (fmode a b : W) : W × Flags :=
  let m := treeMode (roundMode 6 fmode 0)
  let v := addExact m (decodeFloat fmtF32 a.toNat) (decodeFloat fmtF32 b.toNat)
  let r := encodeFloat fmtF32 m (ftzOf fmode) false v.1
  (BitVec.ofNat 32 r.1, v.2 ||| r.2)

/-- R137, R44: a step of the f32 minimum or maximum. -/
def minMaxStep (isMax : Bool) (a b : W) : W × Flags :=
  let x := decodeFloat fmtF32 a.toNat
  let y := decodeFloat fmtF32 b.toNat
  (BitVec.ofNat 32 (exactBits fmtF32 (minMaxFloat isMax false x y)), flIf (x.isSig || y.isSig) flInvalid)

/-- R137. -/
def execRedAddI32 (o : V2) (s : State) : Out := intReduction o (fun a b => a + b) s

/-- R137. -/
def execRedAddF32 (o : V2) (s : State) : Out := reduction o floatLeaf sumStep canonF32 s

/-- R137. -/
def execRedMinI32 (o : V2) (s : State) : Out := intReduction o (fun a b => if b.toInt < a.toInt then b else a) s

/-- R137. -/
def execRedMaxI32 (o : V2) (s : State) : Out := intReduction o (fun a b => if a.toInt < b.toInt then b else a) s

/-- R137. -/
def execRedMinF32 (o : V2) (s : State) : Out := reduction o floatLeaf (fun _ => minMaxStep false) canonF32 s

/-- R137. -/
def execRedMaxF32 (o : V2) (s : State) : Out := reduction o floatLeaf (fun _ => minMaxStep true) canonF32 s

/-- R138: the step that carries a value with its lane. -/
def indexStep (isMax : Bool) (x y : W × Nat) : (W × Nat) × Flags :=
  let a := decodeFloat fmtF32 x.1.toNat
  let b := decodeFloat fmtF32 y.1.toNat
  if a.isNan then (x, 0)
  else if b.isNan then (y, 0)
  else if (if isMax then lessSigned a b else lessSigned b a) then (y, 0)
  else (x, 0)

/-- R138: the extreme value with its lane; a signalling NaN at a leaf sets invalid. -/
def indexReduction (isMax : Bool) (o : V2) (s : State) : Out :=
  issueWord (vecTrap s o.d 2 (o.a.range 1)) (regsOf ((o.d, 2) :: o.a.range 1)) []
    (readGuard (regsOf (o.a.range 1)) fun t =>
      let lf (l : Nat) := floatLeaf t.g.fmode (o.a.val t l)
      let r := (reduceLanes (indexStep isMax) t.sp.em (fun l => ((lf l).1, l))).1.getD (0, 0)
      raise (flAll ((lanesOf t.sp.em).map (fun l => (lf l).2 ||| flIf (decodeFloat fmtF32 (lf l).1.toNat).isSig flInvalid)))
        (vSet (o.d + 1) (fun _ => BitVec.ofNat 32 r.2) (vSet o.d (fun _ => canonF32 r.1) t))) s

/-- R138. -/
def execRedxMaxF32 (o : V2) (s : State) : Out := indexReduction true o s

/-- R138. -/
def execRedxMinF32 (o : V2) (s : State) : Out := indexReduction false o s

/-- R139: an inclusive prefix. -/
def prefixWord (o : V2) (leaf : W → W → W × Flags) (comb : W → W → W → W × Flags) (fin : W → W) (s : State) : Out :=
  issueWord (vecTrap s o.d 1 (o.a.range 1)) (regsOf ((o.d, 1) :: o.a.range 1)) []
    (readGuard (regsOf (o.a.range 1)) fun t =>
      let lf (l : Nat) := leaf t.g.fmode (o.a.val t l)
      let r := scanLanes (comb t.g.fmode) t.sp.em (fun l => (lf l).1)
      raise (r.2 ||| flAll ((lanesOf t.sp.em).map (fun l => (lf l).2)))
        (vSet o.d (fun l => fin ((nthD none r.1 l).getD 0)) t)) s

/-- R139. -/
def execScanAddI32 (o : V2) (s : State) : Out :=
  prefixWord o (fun _ a => (a, 0)) (fun _ a b => (a + b, 0)) (fun a => a) s

/-- R139. -/
def execScanAddF32 (o : V2) (s : State) : Out := prefixWord o floatLeaf sumStep canonF32 s

/-- R140. -/
def execMnz (o : MnzOp) (s : State) : Out :=
  issueWord (rangeTrap s (o.a.range 1)) (regsOf (o.a.range 1)) []
    (readGuard (regsOf (o.a.range 1)) fun t => maskSet o.k (maskOf (fun l => inMask t.sp.em l && o.a.val t l != 0)) t) s

/-- R140: a mask word of two sources. -/
def maskWord (o : M3) (f : W → W → W) (s : State) : Out :=
  issueWord none [] [] (fun t => maskSet o.k (f (maskGet t o.a) (maskGet t o.b)) t) s

/-- R140. -/
def execMand (o : M3) (s : State) : Out := maskWord o (fun a b => a &&& b) s

/-- R140. -/
def execMor (o : M3) (s : State) : Out := maskWord o (fun a b => a ||| b) s

/-- R140. -/
def execMxor (o : M3) (s : State) : Out := maskWord o (fun a b => a ^^^ b) s

/-- R140. -/
def execMandn (o : M3) (s : State) : Out := maskWord o (fun a b => a &&& ~~~ b) s

/-- R140. -/
def execMnot (o : M2) (s : State) : Out :=
  issueWord none [] [] (fun t => maskSet o.k (~~~ (maskGet t o.a)) t) s

/-- R140, R15. -/
def execMmov (o : M2) (s : State) : Out := issueWord none [] [] (fun t => maskSet o.k (maskGet t o.a) t) s

/-- R141. -/
def execMcount (o : MaskToScalar) (s : State) : Out :=
  scaWord o.d [] (fun t => BitVec.ofNat 64 (popCount 32 (maskGet t o.a).toNat)) s

/-- R141: 32 for an empty mask. -/
def execMfirst (o : MaskToScalar) (s : State) : Out :=
  scaWord o.d [] (fun t => BitVec.ofNat 64 (lowestBit 32 (maskGet t o.a).toNat)) s

/-- R141, R15. -/
def execMfrom (o : MaskFrom) (s : State) : Out :=
  issueWord none [] o.a.scalars (fun t => maskSet o.k (lowWord (o.a.val t)) t) s

end Sys2Proof.Machine
end

