-- ==== Sys2Proof/Machine/FuncUnit.lean ====
section
/-! DEFINITION. The functions of the function unit, computed to far more bits than an f32 has and rounded once
(R195), and the ranking of the select engine (R196). -/

namespace Sys2Proof.Machine

open Sys2Proof

/-! Fixed-point numbers: a natural number n stands for n / 2^320. A result that is not exact is given one more
bit, set, below its digits, so that it lies strictly between two of them; no f32 result is so close to a rounding
boundary that the digits left out matter. -/

/-- The fraction bits of a fixed-point number. -/
def fxBits : Nat := 320

/-- The fixed-point number 1. -/
def fxOne : Nat := 2 ^ 320

/-- The product of two fixed-point numbers. -/
def fxMul (a b : Nat) : Nat := a * b / fxOne

/-- The inverse hyperbolic tangent of a number of at most 1/3. -/
def fxAtanh (t : Nat) : Nat :=
  let t2 := fxMul t t
  ((List.range 110).foldl (fun (p : Nat × Nat) k => (p.1 + p.2 / (2 * k + 1), fxMul p.2 t2)) (0, t)).1

/-- The natural logarithm of 2. -/
def fxLn2 : Nat := 2 * fxAtanh (fxOne / 3)

/-- The exponential of a number of at most 1. -/
def fxExp (x : Nat) : Nat :=
  ((List.range 95).foldl (fun (p : Nat × Nat) k => (p.1 + p.2, fxMul p.2 x / (k + 1))) (0, fxOne)).1

/-- The inverse tangent of 1 / n. -/
def fxAtanInv (n : Nat) : Int :=
  ((List.range 80).foldl (fun (p : Int × Nat) k =>
    let term : Int := (p.2 / (2 * k + 1) : Nat)
    (if k % 2 = 0 then p.1 + term else p.1 - term, p.2 / (n * n))) (0, fxOne / n)).1

/-- Twice pi. -/
def fxTwoPi : Nat := (2 * (16 * fxAtanInv 5 - 4 * fxAtanInv 239)).toNat

/-- The sine of an angle from 0 to a quarter turn, in radians. -/
def fxSin (x : Nat) : Nat :=
  let x2 := fxMul x x
  (((List.range 48).foldl (fun (p : Int × Nat) k =>
    (if k % 2 = 0 then p.1 + p.2 else p.1 - p.2, fxMul p.2 x2 / ((2 * k + 2) * (2 * k + 3)))) (0, x)).1).toNat

/-- An inexact fixed-point value times 2^e. -/
def fxValue (neg : Bool) (v : Nat) (e : Int) : FVal := .fin neg (2 * v + 1) (e - fxBits - 1)

/-- m * 2^e as a fixed-point number, for e at least -320. -/
def fxOf (m : Nat) (e : Int) : Nat := m * 2 ^ (e + fxBits).toNat

/-- The integer square root by bits from the highest. -/
def isqrtBits : Nat → Nat → Nat → Nat
  | 0, _, r => r
  | b + 1, n, r => let r2 := r + 2 ^ b; if r2 * r2 ≤ n then isqrtBits b n r2 else isqrtBits b n r

/-- R195: log2 of a positive value. -/
def fnLog2 (m : Nat) (e : Int) : FVal :=
  let l := Nat.log2 m
  let whole : Int := (l : Int) + e
  if m = 2 ^ l then FVal.ofInt whole 0 false
  else
    let t := (m - 2 ^ l) * fxOne / (m + 2 ^ l)
    let v : Int := whole * (fxOne : Int) + (2 * fxAtanh t * fxOne / fxLn2 : Nat)
    if v < 0 then fxValue true (-v).toNat 0 else fxValue false v.toNat 0

/-- R195: 2 to a finite value. -/
def fnExp2 (neg : Bool) (m : Nat) (e : Int) : FVal :=
  if m ≠ 0 ∧ 10 ≤ floorLog m e then .fin false 1 (if neg then -2000 else 2000)
  else
    let x : Int := if neg then -(fxOf m e : Int) else fxOf m e
    let n := x / (fxOne : Int)
    let f := (x % (fxOne : Int)).toNat
    if f = 0 then .fin false 1 n else fxValue false (fxExp (fxMul f fxLn2)) n

/-- R195: the sine of a number of turns, in fixed point. -/
def fnSinTurns (t : Nat) : FVal :=
  let u := t % fxOne
  let neg := decide (fxOne / 2 ≤ u)
  let h := u % (fxOne / 2)
  let r := if fxOne / 4 < h then fxOne / 2 - h else h
  if r = 0 then .fin false 0 0
  else if r = fxOne / 4 then .fin neg 1 0
  else fxValue neg (fxSin (fxMul r fxTwoPi)) 0

/-- R195: the hyperbolic tangent of a finite value that is not zero. -/
def fnTanh (neg : Bool) (m : Nat) (e : Int) : FVal :=
  if 4 ≤ floorLog m e then .fin neg (2 ^ 100 - 1) (-100)
  else if floorLog m e < -60 then .fin neg (m * 2 ^ 200 - 1) (e - 200)
  else
    let q := 2 * fxOf m e * fxOne / fxLn2
    let y := fxExp (fxMul (q % fxOne) fxLn2) * 2 ^ (q / fxOne)
    fxValue neg ((y - fxOne) * fxOne / (y + fxOne)) 0

/-- R195: 1 over the square root of a positive value. -/
def fnRsqrt (m : Nat) (e : Int) : FVal :=
  let odd := e % 2 = 1
  let m2 := if odd then 2 * m else m
  let e2 := if odd then e - 1 else e
  let k := isqrtBits 130 (2 ^ 240 / m2) 0
  if k * k * m2 = 2 ^ 240 then .fin false k (-120 - e2 / 2) else .fin false (2 * k + 1) (-121 - e2 / 2)

/-- R195: a function of the function unit on a value: its exact result and flags; rcp is rounded by itself. -/
def fnValue (fn : Nat) (v : FVal) : FVal × Flags :=
  match v with
  | .nan sig => (.nan false, flIf sig flInvalid)
  | .inf neg =>
    match fn with
    | 0 => if neg then (.nan false, flInvalid) else (.inf false, 0)
    | 1 => if neg then (.fin false 0 0, 0) else (.inf false, 0)
    | 3 => if neg then (.nan false, flInvalid) else (.fin false 0 0, 0)
    | 6 => (.fin neg 1 0, 0)
    | _ => (.nan false, flInvalid)
  | .fin neg m e =>
    match fn with
    | 0 => if m = 0 then (.inf true, 0) else if neg then (.nan false, flInvalid) else (fnLog2 m e, 0)
    | 1 => (fnExp2 neg m e, 0)
    | 3 => if m = 0 then (.inf neg, flDivZero) else if neg then (.nan false, flInvalid) else (fnRsqrt m e, 0)
    | 4 =>
      if m = 0 then (.fin neg 0 0, 0)
      else
        let r := fnSinTurns (fxOf m e)
        (if neg && !r.isZero then r.negate else r, 0)
    | 5 => (fnSinTurns (fxOf m e + fxOne / 4), 0)
    | _ => if m = 0 then (.fin neg 0 0, 0) else (fnTanh neg m e, 0)

/-- R195: the reciprocal of a value, rounded once. -/
def fnRcp (ftz : Bool) (v : FVal) : Nat × Flags :=
  match v with
  | .nan sig => (fmtF32.canonNan, flIf sig flInvalid)
  | .inf neg => (fmtF32.signBit neg, 0)
  | .fin neg m e =>
    if m = 0 then (fmtF32.signBit neg + fmtF32.infBits, flDivZero)
    else roundFinite fmtF32 .rne ftz false neg 1 m (-e)

/-- R195: a function of the function unit on an f32 word. -/
def fnWord (fn : Nat) (ftz : Bool) (w : W) : W × Flags :=
  let x := readFloat fmtF32 ftz w.toNat
  if fn = 2 then
    let r := fnRcp ftz x.1
    (BitVec.ofNat 32 r.1, x.2 ||| r.2)
  else
    let v := fnValue fn x.1
    let r := encodeFloat fmtF32 .rne ftz false v.1
    (BitVec.ofNat 32 r.1, x.2 ||| v.2 ||| r.2)

/-! Select (R196). -/

/-- R196: the rank key of a word: ascending with the value, -0 below +0. -/
def orderKey (w : W) : Int :=
  let mag : Int := (w.toNat % 2 ^ 31 : Nat)
  if bitOf w.toNat 31 then -mag - 1 else mag

/-- R196: whether a lane's word goes ahead of another's; NaNs go ahead of numbers, equal ones keep the lower
lane first. -/
def ranksAhead (min : Bool) (l1 : Nat) (a : W) (l2 : Nat) (b : W) : Bool :=
  let na := (decodeFloat fmtF32 a.toNat).isNan
  let nb := (decodeFloat fmtF32 b.toNat).isNan
  if na && nb then decide (l1 < l2)
  else if na || nb then na
  else if orderKey a = orderKey b then decide (l1 < l2)
  else if min then decide (orderKey a < orderKey b)
  else decide (orderKey b < orderKey a)

/-- R196: the two entries of a select: values and lane numbers. -/
def selectEntries (k : Nat) (min : Bool) (em : W) (vals : SMap W) : SMap W × SMap W × Flags :=
  let ls := lanesOf em
  let v (l : Nat) : W := mapGet 0 vals l
  let canon (l : Nat) : W :=
    if (decodeFloat fmtF32 (v l).toNat).isNan then BitVec.ofNat 32 fmtF32.canonNan else v l
  let ranked := ls.map (fun l => ((ls.filter (fun x => ranksAhead min x (v x) l (v l))).length, l))
  let at_ (j : Nat) : Option Nat := if j < k then (ranked.find? (fun r => r.1 == j)).map (fun r => r.2) else none
  (laneList.foldl (fun m j => mapSet 0 m j ((at_ j).map canon |>.getD 0)) [],
    laneList.foldl (fun m j => mapSet 0 m j ((at_ j).map (fun l => BitVec.ofNat 32 l) |>.getD (BitVec.allOnes 32))) [],
    flAll (ls.map (fun l => flIf (decodeFloat fmtF32 (v l).toNat).isSig flInvalid)))

end Sys2Proof.Machine
end

