-- ==== Sys2Proof/Machine/Queues.lean ====
section
/-! DEFINITION. Major 9: queue registers, the function unit and the select engine (R16, R192 to R203). -/

namespace Sys2Proof.Machine

open Sys2Proof

/-- R193, R196: the places a command needs. -/
def FnCmd.places (c : FnCmd) : Nat := if c.fn = 7 then 2 else 1

/-- R193: the commands in flight of a queue register of a group. -/
def inFlight (s : State) (gid q : Nat) : List FnCmd := s.eng.fns.filter (fun c => c.gid == gid && c.q == q)

/-- R193: the places in flight of a queue register of a group. -/
def placesInFlight (s : State) (gid q : Nat) : Nat := ((inFlight s gid q).map FnCmd.places).foldl (fun a n => a + n) 0

/-- R194: whether an engine's queue on the quad of a group has no entry for the group. -/
def fnQueueFull (s : State) (g : Group) (select : Bool) : Bool :=
  let q := (s.eng.fns.filter (fun c => c.die == g.die && c.quad == g.core / 4 && (c.fn == 7) == select)).map (fun c => c.gid)
  memNat g.gid q && decide (16 ≤ q.length - q.eraseDups.length)

/-- R16: the queue-unbound check. -/
def boundTrap (s : State) (q : Nat) : Option Trap := trapIf (s.g.queue q).bind.isNone .queueUnbound

/-- A queue register of the group in focus replaced. -/
def putQueue (q : Nat) (x : QueueReg) (s : State) : State := { s with g := s.g.setQueue q x }

/-- R195, R202: the effect of qbind, which first acts as qunbind. -/
def qbindEff (q dir k fn : Nat) (s : State) : State :=
  if (inFlight s s.g.gid q) ≠ [] then stallWord s
  else putQueue q ⟨some (fn, k, dir == 1), []⟩ s

/-- R195. -/
def execQbind (q : Nat) (dir : Nat) (k : Nat) (fn : Nat) (s : State) : Out :=
  issueWord none [] [] (counted (qbindEff q dir k fn)) s

/-- R202: the effect of qunbind. -/
def qunbindEff (q : Nat) (s : State) : State :=
  if (inFlight s s.g.gid q) ≠ [] then stallWord s else putQueue q QueueReg.unbound s

/-- R202. -/
def execQunbind (q : Nat) (s : State) : Out := issueWord none [] [] (counted (qunbindEff q)) s

/-- R193, R194, R197: the effect of a qpush that is not replayed. -/
def qpushEff (a q : Nat) (s : State) : State :=
  match (s.g.queue q).bind with
  | none => s
  | some b =>
    let need := if b.1 = 7 then 2 else 1
    if 8 < (s.g.queue q).entries.length + placesInFlight s s.g.gid q + need then takeTrap (plainTrap .queueOverflow) s
    else if fnQueueFull s s.g (b.1 == 7) then stallWord s
    else
      let u := fresh s
      let c : FnCmd :=
        { uid := u.1, gid := s.g.gid, die := s.g.die, quad := s.g.core / 4, q := q, fn := b.1, k := b.2.1,
          min := b.2.2, ftz := ftzOf s.g.fmode, em := s.sp.em,
          vals := laneList.foldl (fun m l => mapSet 0 m l (vGet s a l)) [] }
      { u.2 with eng := { u.2.eng with fns := u.2.eng.fns ++ [c] } }

/-- R197: qpush; R226: not inside a transaction. -/
def execQpush (a : Nat) (q : Nat) (s : State) : Out :=
  issueWord (firstTrap [trapIf (inTx s) .txState, rangeTrap s [(a, 1)], boundTrap s q]) [a] []
    (readGuard [a] (counted (qpushEff a q))) s

/-- R193, R200: an entry of a queue register becomes taken by a split. -/
def QueueReg.take (seq split : Nat) (q : QueueReg) : QueueReg :=
  { q with entries := updateFirst (fun e => e.seq == seq) (fun e => { e with taken := some split }) q.entries }

/-- R198: the effect of qpop. -/
def qpopEff (d q : Nat) (s : State) : State :=
  let r := s.g.queue q
  match r.oldest with
  | some e => vSet d (fun l => mapGet 0 e.data l) (putQueue q (r.take e.seq s.sp.num) s)
  | none =>
    if inFlight s s.g.gid q = [] then takeTrap (plainTrap .queueEmpty) s
    else blockOn [.boundary, .queueWait q d] s

/-- R198: qpop; R226: not inside a transaction. -/
def execQpop (d : Nat) (q : Nat) (s : State) : Out :=
  issueWord (firstTrap [trapIf (inTx s) .txState, rangeTrap s [(d, 1)], liveTrap s [d], boundTrap s q]) [d] []
    (qpopEff d q) s

/-- R199: the effect of qtry. -/
def qtryEff (d q m : Nat) (s : State) : State :=
  let r := s.g.queue q
  match r.oldest with
  | some e => kSet m s.sp.em (vSet d (fun l => mapGet 0 e.data l) (putQueue q (r.take e.seq s.sp.num) s))
  | none => kSet m 0 s

/-- R199. -/
def execQtry (d : Nat) (q : Nat) (m : Nat) (s : State) : Out :=
  issueWord (firstTrap [rangeTrap s [(d, 1)], liveTrap s [d], boundTrap s q]) [d] [] (qtryEff d q m) s

/-- R201: the level word of a queue register of the group in focus. Its in-flight field counts the places promised to
commands in flight, two for one of the select engine (DESIGN CHOICE, log entry 106). -/
def levelWord (s : State) (q : Nat) : Nat :=
  let r := s.g.queue q
  let b := r.bind.getD (0, 0, false)
  (r.entries.filter (fun e => e.taken == none)).length + placesInFlight s s.g.gid q * 2 ^ 4 +
    (r.entries.filter (fun e => e.taken != none)).length * 2 ^ 8 + b.1 * 2 ^ 12 + b.2.1 * 2 ^ 16 + bit01 b.2.2 * 2 ^ 22

/-- R201. -/
def execQlevel (d : Nat) (q : Nat) (s : State) : Out :=
  issueWord (boundTrap s q) [] [d] (fun t => sSet d (BitVec.ofNat 64 (levelWord t q)) t) s

/-! The engines (R194 to R196). -/

/-- R193, R195: the entries a command places, and its flags. -/
def fnResults (c : FnCmd) : List (SMap W) × Flags :=
  if c.fn = 7 then
    let r := selectEntries c.k c.min c.em c.vals
    ([r.1, r.2.1], r.2.2)
  else
    let rs := (lanesOf c.em).map (fun l => (l, fnWord c.fn c.ftz (mapGet 0 c.vals l)))
    ([rs.foldl (fun m r => mapSet 0 m r.1 r.2.1) []], flAll (rs.map (fun r => r.2.2)))

/-- R195, R203, R332: the results of a command placed in its queue register, with its flags, and the conditions
on the queue evaluated. -/
def placeResults (c : FnCmd) (s : State) : State :=
  let r := fnResults c
  let put (g : Group) : Group :=
    let q := g.queue c.q
    let n := (q.entries.foldl (fun m e => max m e.seq) 0) + 1
    let es := r.1.zipIdx.map (fun p => (⟨n + p.2, p.1, none⟩ : QEntry))
    { g.setQueue c.q { q with entries := q.entries ++ es } with flags := g.flags ||| r.2 }
  evalMonitor c.gid (modGroup c.gid (fun g => if g.stopped then g else put g)
    { s with eng := { s.eng with fns := s.eng.fns.filter (fun k => k.uid != c.uid) } })

/-- FUNCTION_RESULT_PLACE (R194, R195): the oldest command of a quad's function unit. -/
def execFunctionResultPlace (die quad : Nat) (s : State) : Out :=
  match s.eng.fns.find? (fun c => c.die == die && c.quad == quad && c.fn != 7) with
  | none => .next s
  | some c => .next (placeResults c s)

/-- SELECT_RESULT_PLACE (R194, R196): the oldest command of a quad's select engine. -/
def execSelectResultPlace (die quad : Nat) (s : State) : Out :=
  match s.eng.fns.find? (fun c => c.die == die && c.quad == quad && c.fn == 7) with
  | none => .next s
  | some c => .next (placeResults c s)

end Sys2Proof.Machine
end

