-- ==== Sys2Proof/Machine/Scalar.lean ====
section
/-! DEFINITION. Major 5: scalar instructions (R130 to R132). -/

namespace Sys2Proof.Machine

open Sys2Proof

/-- A 64-bit truth value. -/
def truth (b : Bool) : W64 := if b then 1 else 0

/-- R131. -/
def execSadd (o : S3) (s : State) : Out := o.word (fun a b => a + b) s

/-- R131. -/
def execSsub (o : S3) (s : State) : Out := o.word (fun a b => a - b) s

/-- R131. -/
def execSmul (o : S3) (s : State) : Out := o.word (fun a b => a * b) s

/-- R131. -/
def execSmulhiN64 (o : S3) (s : State) : Out :=
  o.word (fun a b => BitVec.ofNat 64 (a.toNat * b.toNat / 2 ^ 64)) s

/-- R131. -/
def execSand (o : S3) (s : State) : Out := o.word (fun a b => a &&& b) s

/-- R131. -/
def execSor (o : S3) (s : State) : Out := o.word (fun a b => a ||| b) s

/-- R131. -/
def execSxor (o : S3) (s : State) : Out := o.word (fun a b => a ^^^ b) s

/-- R131: a count of 64 or more gives 0. -/
def execSshl (o : S3) (s : State) : Out := o.word (fun a b => if b.toNat < 64 then a <<< b.toNat else 0) s

/-- R131: a count of 64 or more gives 0. -/
def execSshr (o : S3) (s : State) : Out := o.word (fun a b => if b.toNat < 64 then a >>> b.toNat else 0) s

/-- R131: a count of 64 or more gives the sign. -/
def execSsra (o : S3) (s : State) : Out :=
  o.word (fun a b => if b.toNat < 64 then a.sshiftRight b.toNat else if 0 ≤ a.toInt then 0 else BitVec.allOnes 64) s

/-- R131. -/
def execSminI64 (o : S3) (s : State) : Out := o.word (fun a b => if a.toInt ≤ b.toInt then a else b) s

/-- R131. -/
def execSmaxI64 (o : S3) (s : State) : Out := o.word (fun a b => if a.toInt ≤ b.toInt then b else a) s

/-- R131. -/
def execSminN64 (o : S3) (s : State) : Out := o.word (fun a b => if a.toNat ≤ b.toNat then a else b) s

/-- R131. -/
def execSmaxN64 (o : S3) (s : State) : Out := o.word (fun a b => if a.toNat ≤ b.toNat then b else a) s

/-- R131. -/
def execSmov (o : S2) (s : State) : Out := o.word (fun a => a) s

/-- R131. -/
def execSsetEq (o : S3) (s : State) : Out := o.word (fun a b => truth (decide (a = b))) s

/-- R131. -/
def execSsetLtI64 (o : S3) (s : State) : Out := o.word (fun a b => truth (decide (a.toInt < b.toInt))) s

/-- R131. -/
def execSsetLtN64 (o : S3) (s : State) : Out := o.word (fun a b => truth (decide (a.toNat < b.toNat))) s

/-- R132: the vector register is the one A numbers; it is read like a source of the same clause. -/
def execSfromLane (o : S3) (s : State) : Out :=
  let r := (o.a.val s).toNat
  let l := (o.b.val s).toNat % 32
  issueWord (trapIf (decide (126 < r ∨ s.g.nregs ≤ r)) .registerRange) [r] (o.d :: (o.a.scalars ++ o.b.scalars))
    (fun t =>
      if memNat (regKey r l) t.g.regPoison then abortRegion [storePoison t 0 l] t
      else sSet o.d (zext64 (vGet t r l)) t) s

/-- R131: the high word from B and the low word from A. -/
def execShi (o : S3) (s : State) : Out := o.word (fun a b => joinWords (lowWord b) (lowWord a)) s

end Sys2Proof.Machine
end

