-- ==== Sys2Proof/Machine/Routine.lean ====
section
/-! DEFINITION. User reduction routines (R363): the words they may hold, and their run on a switch vector core. -/

namespace Sys2Proof.Machine

open Sys2Proof

/-- R363: the words of majors 0 to 5, which a user routine may hold; any other word traps. -/
def routineWord (i : Instr) (s : State) : Out :=
  match i with
  | .addI32 o => execAddI32 o s
  | .subI32 o => execSubI32 o s
  | .addSatI32 o => execAddSatI32 o s
  | .subSatI32 o => execSubSatI32 o s
  | .addSatN32 o => execAddSatN32 o s
  | .subSatN32 o => execSubSatN32 o s
  | .addI64 o => execAddI64 o s
  | .subI64 o => execSubI64 o s
  | .mulLoI32 o => execMulLoI32 o s
  | .mulHiI32 o => execMulHiI32 o s
  | .mulHiN32 o => execMulHiN32 o s
  | .mulWideI32 o => execMulWideI32 o s
  | .mulWideN32 o => execMulWideN32 o s
  | .minI32 o => execMinI32 o s
  | .maxI32 o => execMaxI32 o s
  | .minN32 o => execMinN32 o s
  | .maxN32 o => execMaxN32 o s
  | .absdiffN32 o => execAbsdiffN32 o s
  | .avgN32 o => execAvgN32 o s
  | .andB32 o => execAndB32 o s
  | .orB32 o => execOrB32 o s
  | .xorB32 o => execXorB32 o s
  | .andnB32 o => execAndnB32 o s
  | .shlB32 o => execShlB32 o s
  | .shrB32 o => execShrB32 o s
  | .sraI32 o => execSraI32 o s
  | .rotlB32 o => execRotlB32 o s
  | .shlB64 o => execShlB64 o s
  | .shrB64 o => execShrB64 o s
  | .popcB32 o => execPopcB32 o s
  | .clzB32 o => execClzB32 o s
  | .ctzB32 o => execCtzB32 o s
  | .brevB32 o => execBrevB32 o s
  | .bfeN32 o => execBfeN32 o s
  | .bfeI32 o => execBfeI32 o s
  | .cmpEqI32 o => execCmpEqI32 o s
  | .cmpNeI32 o => execCmpNeI32 o s
  | .cmpLtI32 o => execCmpLtI32 o s
  | .cmpLeI32 o => execCmpLeI32 o s
  | .cmpLtN32 o => execCmpLtN32 o s
  | .cmpLeN32 o => execCmpLeN32 o s
  | .cmpEqI64 o => execCmpEqI64 o s
  | .cmpLtI64 o => execCmpLtI64 o s
  | .cmpLtN64 o => execCmpLtN64 o s
  | .faddF32 o => execFaddF32 o s
  | .fsubF32 o => execFsubF32 o s
  | .fmulF32 o => execFmulF32 o s
  | .fminF32 o => execFminF32 o s
  | .fmaxF32 o => execFmaxF32 o s
  | .fminnF32 o => execFminnF32 o s
  | .fmaxnF32 o => execFmaxnF32 o s
  | .fabsF32 o => execFabsF32 o s
  | .fnegF32 o => execFnegF32 o s
  | .fclassF32 o => execFclassF32 o s
  | .fscaleF32 o => execFscaleF32 o s
  | .fcmpEqF32 o => execFcmpEqF32 o s
  | .fcmpLtF32 o => execFcmpLtF32 o s
  | .fcmpLeF32 o => execFcmpLeF32 o s
  | .fcmpUnF32 o => execFcmpUnF32 o s
  | .faddF16x2 o => execFaddF16x2 o s
  | .fsubF16x2 o => execFsubF16x2 o s
  | .fmulF16x2 o => execFmulF16x2 o s
  | .faddBf16x2 o => execFaddBf16x2 o s
  | .fsubBf16x2 o => execFsubBf16x2 o s
  | .fmulBf16x2 o => execFmulBf16x2 o s
  | .fmaxBf16x2 o => execFmaxBf16x2 o s
  | .fminBf16x2 o => execFminBf16x2 o s
  | .faddF64 o => execFaddF64 o s
  | .fsubF64 o => execFsubF64 o s
  | .fmulF64 o => execFmulF64 o s
  | .fminF64 o => execFminF64 o s
  | .fmaxF64 o => execFmaxF64 o s
  | .fcmpLtF64 o => execFcmpLtF64 o s
  | .fcmpEqF64 o => execFcmpEqF64 o s
  | .fmaF32 o => execFmaF32 o s
  | .fnmaF32 o => execFnmaF32 o s
  | .fmaF16x2 o => execFmaF16x2 o s
  | .fmaBf16x2 o => execFmaBf16x2 o s
  | .fmaF64 o => execFmaF64 o s
  | .fdot2F32Bf16 o => execFdot2F32Bf16 o s
  | .fdot2F32F16 o => execFdot2F32F16 o s
  | .madLoI32 o => execMadLoI32 o s
  | .madHiN32 o => execMadHiN32 o s
  | .madWideN32 o => execMadWideN32 o s
  | .bfiB32 o => execBfiB32 o s
  | .bdot4I32I8 o => execBdot4I32I8 o s
  | .bdot4I32N8 o => execBdot4I32N8 o s
  | .movB32 o => execMovB32 o s
  | .movB64 o => execMovB64 o s
  | .cvtF32I32 o => execCvtF32I32 o s
  | .cvtF32N32 o => execCvtF32N32 o s
  | .cvtI32F32 o => execCvtI32F32 o s
  | .cvtN32F32 o => execCvtN32F32 o s
  | .froundF32 o => execFroundF32 o s
  | .cvtF16x2F32 o => execCvtF16x2F32 o s
  | .cvtBf16x2F32 o => execCvtBf16x2F32 o s
  | .cvtF32F16 o => execCvtF32F16 o s
  | .cvtF32Bf16 o => execCvtF32Bf16 o s
  | .cvtE4m3x4F32 o => execCvtE4m3x4F32 o s
  | .cvtE5m2x4F32 o => execCvtE5m2x4F32 o s
  | .cvtF32E4m3 o => execCvtF32E4m3 o s
  | .cvtF32E5m2 o => execCvtF32E5m2 o s
  | .cvtF64F32 o => execCvtF64F32 o s
  | .cvtF32F64 o => execCvtF32F64 o s
  | .cvtI8x4I32 o => execCvtI8x4I32 o s
  | .cvtI32I8 o => execCvtI32I8 o s
  | .lpick o => execLpick o s
  | .bflyB32 o => execBflyB32 o s
  | .bflyB64 o => execBflyB64 o s
  | .rotLane o => execRotLane o s
  | .bcast o => execBcast o s
  | .redAddI32 o => execRedAddI32 o s
  | .redAddF32 o => execRedAddF32 o s
  | .redMinI32 o => execRedMinI32 o s
  | .redMaxI32 o => execRedMaxI32 o s
  | .redMinF32 o => execRedMinF32 o s
  | .redMaxF32 o => execRedMaxF32 o s
  | .redxMaxF32 o => execRedxMaxF32 o s
  | .redxMinF32 o => execRedxMinF32 o s
  | .scanAddI32 o => execScanAddI32 o s
  | .scanAddF32 o => execScanAddF32 o s
  | .mnz o => execMnz o s
  | .mand o => execMand o s
  | .mor o => execMor o s
  | .mxor o => execMxor o s
  | .mandn o => execMandn o s
  | .mnot o => execMnot o s
  | .mmov o => execMmov o s
  | .mcount o => execMcount o s
  | .mfirst o => execMfirst o s
  | .mfrom o => execMfrom o s
  | .sadd o => execSadd o s
  | .ssub o => execSsub o s
  | .smul o => execSmul o s
  | .smulhiN64 o => execSmulhiN64 o s
  | .sand o => execSand o s
  | .sor o => execSor o s
  | .sxor o => execSxor o s
  | .sshl o => execSshl o s
  | .sshr o => execSshr o s
  | .ssra o => execSsra o s
  | .sminI64 o => execSminI64 o s
  | .smaxI64 o => execSmaxI64 o s
  | .sminN64 o => execSminN64 o s
  | .smaxN64 o => execSmaxN64 o s
  | .smov o => execSmov o s
  | .ssetEq o => execSsetEq o s
  | .ssetLtI64 o => execSsetLtI64 o s
  | .ssetLtN64 o => execSsetLtN64 o s
  | .sfromLane o => execSfromLane o s
  | .shi o => execShi o s
  | _ => .next (takeTrap (plainTrap .illegalEncoding) s)

/-- R88: a word of majors 0 to 5, decoded with its literal. -/
def routineParse (w lit : W) : Option Instr :=
  let mj := w.toNat / 2 ^ 28
  let op := w.toNat / 2 ^ 22 % 64
  let f := w.toNat % 2 ^ 22
  let i :=
    match mj with
    | 0 => parseInteger op f lit
    | 1 => parseFloat op f lit
    | 2 => parseAccumulate op f lit
    | 3 => parseConvert op f lit
    | 4 => parseLane op f lit
    | 5 => parseScalar op f lit
    | _ => none
  i.filter Instr.wf

/-- Where a word of a routine leads: to a place (a clause, by the index of its header, and a word), to the end, or
to a trap. -/
inductive Routed
  | go (clause word : Nat) (s : State)
  | done (s : State)
  | trap

/-- R207: the clause that a branch of a routine names, where it lies in the routine. -/
def routineTarget (h off : Nat) : Option Nat :=
  let t : Int := (h : Int) + toSigned 16 off
  if t < 0 then none else some t.toNat

/-- R207, R363: a branch word of a routine at word p of the clause at h. -/
def routineBranch (w : W) (h p : Nat) (s : State) : Routed :=
  let op := w.toNat / 2 ^ 22 % 64
  let c := sGet s (bitsOf w.toNat 21 16)
  let go (b : Bool) : Routed :=
    if b then
      match routineTarget h (w.toNat % 65536) with
      | some t => .go t t s
      | none => .trap
    else .go h (p + 1) s
  match op with
  | 0 => go true
  | 1 => go (c == 0)
  | 2 => go (c != 0)
  | 8 => .done s
  | _ => .trap

/-- R363: the words of the clause whose header is word h. -/
def routineBody (code : List W) (h : Nat) : List W := (code.drop (h + 1)).take (headerOf (nthD 0 code h)).n

/-- R70, R363: whether the clause whose header is word h passes the checks of a clause's form and is of class ALU or LANE. -/
def routineClause (code : List W) (h : Nat) : Bool :=
  match code[h]? with
  | some w => (headerOf w).n == (routineBody code h).length && decide ((headerOf w).cls ≤ 1) &&
      (clauseForm w (routineBody code h)).isNone
  | none => false

/-- R363: one word of a routine: word p of the clause whose header is word h. -/
def routineStep (code : List W) (h p : Nat) (s : State) : Routed :=
  match code[p]? with
  | none => .trap
  | some w =>
    if w.toNat / 2 ^ 28 = 11 then routineBranch w h p s
    else
      let wide := wordCallsLiteral w
      match routineParse w (if wide then nthD 0 code (p + 1) else 0) with
      | none => .trap
      | some i =>
        match routineWord i s with
        | .next t => if t.traps = [] then .go h (p + (if wide then 2 else 1)) t else .trap
        | _ => .trap

/-- R363: a routine run for at most a number of words, each of which takes one clk (DESIGN CHOICE, log entry 47); a header
takes none. None is a trap or a run that is too long. -/
def runRoutine (code : List W) : Nat → Nat → Nat → State → Option State
  | 0, _, _, _ => none
  | fuel + 1, h0, p0, s =>
    let h := if p0 = h0 ∨ h0 + (headerOf (nthD 0 code h0)).n < p0 then p0 else h0
    let p := if h = p0 then p0 + 1 else p0
    if h = p0 ∧ !routineClause code h then none
    else
      match routineStep code h p s with
      | .go h2 p2 t => runRoutine code fuel h2 p2 t
      | .done t => some t
      | .trap => none

/-- R363: the lanes of n elements. -/
def elementMask (n : Nat) : W := BitVec.ofNat 32 (2 ^ n - 1)

/-- R363: a vector register that holds element i in lane i. -/
def elementReg (r : Nat) (xs : List W) : SMap W :=
  xs.zipIdx.foldl (fun m p => mapSet 0 m (regKey r p.2) p.1) []

/-- R363: the state of a switch vector core for one step over pairs of elements: element i in lane i, the earlier arrival in
v0, the later in v1, the type code in s0. -/
def routineState (xs : List (W × W)) (typ : Nat) : State :=
  { State.reset with
    g := { Group.idle with
      gid := 1, nregs := 127, exist := elementMask xs.length, sregs := mapSet 0 [] 0 (BitVec.ofNat 64 typ),
      regs := elementReg 0 (xs.map (fun p => p.1)) ++ elementReg 1 (xs.map (fun p => p.2)), stopped := false },
    sp := { Split.initial (elementMask xs.length) 0 0 [] with bndPending := false } }

/-- R363: the results of a user routine for pairs of elements, none where it traps or runs longer than 256 clk. -/
def userRoutine (code : List W) (xs : List (W × W)) (typ : Nat) : Option (List W) :=
  (runRoutine code 256 0 0 (routineState xs typ)).map (fun s => (List.range xs.length).map (fun i => vGet s 2 i))

end Sys2Proof.Machine
end

