-- ==== Sys2Proof/Machine/Fabric.lean ====
section
/-! DEFINITION. Major C and the fabric: windows, collectives and exchanges (R231 to R235, R355 to R364). The mordant
words and events stand in Mordant. -/

namespace Sys2Proof.Machine

open Sys2Proof

/-! Issue (R231 to R233). -/

/-- R231, R337: whether the fabric command queue of a core has no entry for a group. -/
def fabQueueFull (s : State) (g : Group) : Bool :=
  let q := s.eng.fabs.filterMap (fun c =>
    (groupOf? s c.gid).bind (fun x => if x.die = g.die ∧ x.core = g.core then some x.gid else none))
  memNat g.gid q && decide (16 ≤ q.length - q.eraseDups.length)

/-- A lane of a command before it acts. -/
def FabLane.start (lane agent win off : Nat) (data : W64) (aux : Nat) : FabLane :=
  ⟨lane, agent, win, off, data, aux, 0, false, false, false, 0, false⟩

/-- R355: the window record that stands for an agent of this package and an index in a context. -/
def targetWindow (s : State) (ctx agent win : Nat) : Option Window :=
  if localAgent s agent then windowOf? s (agent % 4) ctx win else none

/-- R2, R232: whether an agent belongs to the domain. -/
def agentInDomain (s : State) (agent : Nat) : Bool := localAgent s agent || Config.inDomain (agent / 4)

/-- R231, R232: the target pair of a lane checked: the agent, the window and the offset. -/
def laneTarget (s : State) (a : Nat) (offset : Bool) (l : Nat) : Except Trap (Nat × Nat × Nat) :=
  let x := (vGet s a l).toNat
  let off := (vGet s (a + 1) l).toNat
  let agent := bitsOf x 11 0
  let win := bitsOf x 19 16
  if !agentInDomain s agent ∨ (windowOf? s s.g.die s.g.ctx win).isNone ∨ bitsOf x 15 12 ≠ 0 ∨ bitsOf x 31 20 ≠ 0 then
    .error ⟨.windowAccess, some l, some (vGet64 s a l), 0, none⟩
  else if offset ∧ off % 4 ≠ 0 then .error ⟨.misaligned, some l, some (BitVec.ofNat 64 off), 0, none⟩
  else .ok (agent, win, off)

/-- R355: the key that an operation of the issuing die under a window index carries. -/
def windowKey (s : State) (win : Nat) : Nat := ((windowOf? s s.g.die s.g.ctx win).map (fun w => w.key)).getD 0

/-- R232: the lanes of a window word, checked in ascending order; data gives a lane's datum. -/
def windowLanes (s : State) (a : Nat) (offset : Bool) (data : Nat → W64) : List Nat → Except Trap (List FabLane)
  | [] => .ok []
  | l :: ls =>
    match laneTarget s a offset l with
    | .error t => .error t
    | .ok p =>
      match windowLanes s a offset data ls with
      | .error t => .error t
      | .ok rest => .ok (FabLane.start l p.1 p.2.1 (if offset then p.2.2 else 0) (data l) (windowKey s p.2.1) :: rest)

/-- R231, R355, R356: a checked command goes to the fabric queue. -/
def sendFab (kind : FabKind) (d : Nat) (desc : W64) (ls : List FabLane) (s : State) : State :=
  let u := fresh s
  let src := agentOf s s.g.die
  let q := if kind.streams then takeSeqs s.g.ctx src (ls.map (fun l => (l.agent, l.win))) u.2 else ([], u.2)
  let lanes := ls.zipIdx.map (fun p => { p.1 with seq := nthD 0 q.1 p.2 })
  let t := if kind.streams then noteIssuedAll s.g.die s.g.ctx (ls.map (fun l => l.win)) q.2 else q.2
  let c : FabCmd :=
    { uid := u.1, gid := s.g.gid, ctx := s.g.ctx, src := src, taken := false, span := s.g.span, split := s.sp.num,
      die := s.g.die, clause := s.iss.clause, word := s.iss.word, kind := kind, d := d, desc := desc,
      pos := s.sp.replay + 1, cancelled := false, lanes := lanes }
  { t with
    eng := { t.eng with fabs := t.eng.fabs ++ [c] },
    g := if kind.countsL then { t.g with cntL := t.g.cntL + 1 } else { t.g with cntC := t.g.cntC + 1 } }

/-- R231, R356: whether a command must stall: its counter is at its limit, its queue has no entry, or a stream
would pass 64 unacknowledged lanes. -/
def fabStalls (s : State) (kind : FabKind) (ls : List FabLane) : Bool :=
  decide (63 ≤ (if kind.countsL then s.g.cntL else s.g.cntC)) || fabQueueFull s s.g ||
    (kind.streams && streamFull s s.g.ctx (agentOf s s.g.die) (ls.map (fun l => (l.agent, l.win))))

/-- R231, R232: the effect of a command whose lanes are checked and whose scalar has reserved values or not. -/
def fabEff (kind : FabKind) (d : Nat) (desc : W64) (bad : Bool) (lanes : Except Trap (List FabLane)) (s : State) : State :=
  if s.sp.em = 0 then s
  else
    match lanes with
    | .error t => takeTrap t s
    | .ok ls =>
      if bad then takeTrap (plainTrap .descriptor) s
      else if fabStalls s kind ls then stallWord s
      else sendFab kind d desc ls s

/-- R226, R231, R232: the frame of a word of major C. -/
def fabWord (checks : Option Trap) (vs ss : List Nat) (eff : State → State) (s : State) : Out :=
  issueWord (firstTrap [trapIf (inTx s) .txState, checks]) vs ss eff s

/-- R234: the reserved bits and values of a collective descriptor. -/
def badCollDesc (x : Nat) : Bool :=
  bitsOf x 63 48 != 0 || bitsOf x 15 12 != 0 || decide (5 ≤ bitsOf x 11 8) ||
    decide (3 ≤ bitsOf x 7 0 ∧ bitsOf x 7 0 < 128)

/-- R234: the reserved bits of a put's flags. -/
def badPutFlags (x : Nat) : Bool := bitsOf x 31 1 != 0

/-- R231, R232: the range checks of a word with a data register and a target pair. -/
def dataTrap (s : State) (d a : Nat) : Option Trap := rangeTrap s [(d, 1), (a, 2)]

/-- R231 to R234: a word that sends v(d) to a target pair, under a scalar. -/
def sendWord (kind : FabKind) (d a b : Nat) (bad : Nat → Bool) (s : State) : Out :=
  fabWord (dataTrap s d a) [d, a, a + 1] [b] (readGuard [d, a, a + 1] (counted (fun t =>
    fabEff kind d (sGet t b) (bad (sGet t b).toNat) (windowLanes t a true (fun l => zext64 (vGet t d l)) (lanesOf t.sp.em)) t))) s

/-- R234, R359. -/
def execCollRed (d : Nat) (a : Nat) (b : Nat) (s : State) : Out := sendWord .collRed d a b badCollDesc s
/-- R234. -/
def execCollBcast (d : Nat) (a : Nat) (b : Nat) (s : State) : Out := sendWord .collBcast d a b badCollDesc s
/-- R234, R356, R357. -/
def execPutWin (d : Nat) (a : Nat) (b : Nat) (s : State) : Out := sendWord .putWin d a b badPutFlags s

/-- R234. -/
def execGetWin (d : Nat) (a : Nat) (s : State) : Out :=
  fabWord (firstTrap [rangeTrap s [(d, 1), (a, 2)], liveTrap s [d]]) [d, a, a + 1] []
    (readGuard [a, a + 1] fun t => fabEff .getWin d 0 false (windowLanes t a true (fun _ => 0) (lanesOf t.sp.em)) t) s

/-- R234. -/
def execWinAdd (a : Nat) (b : Nat) (s : State) : Out :=
  fabWord (rangeTrap s [(a, 2)]) [a, a + 1] [b] (readGuard [a, a + 1] (counted (fun t =>
    fabEff .winAdd 0 (sGet t b) false (windowLanes t a false (fun _ => sGet t b) (lanesOf t.sp.em)) t))) s

/-- The active lanes of a word that reads a record and names no target. -/
def recordLanes (s : State) : List FabLane := (lanesOf s.sp.em).map (fun l => FabLane.start l 0 0 0 0 0)

/-- R234: the lanes of win.read, whose window must be bound on the issuing die. -/
def winReadLanes (s : State) (b : Nat) : Except Trap (List FabLane) :=
  if (windowOf? s s.g.die s.g.ctx (bitsOf (sGet s b).toNat 3 0)).isNone then .error (plainTrap .windowAccess)
  else .ok (recordLanes s)

/-- R231, R234. -/
def execWinRead (d : Nat) (b : Nat) (s : State) : Out :=
  fabWord (firstTrap [rangeTrap s [(d, 1)], liveTrap s [d]]) [d] [b]
    (fun t => fabEff .winRead d (sGet t b) false (winReadLanes t b) t) s

/-- R231, R234, R362. -/
def execHistRead (d : Nat) (b : Nat) (s : State) : Out :=
  fabWord (firstTrap [rangeTrap s [(d, 1)], liveTrap s [d]]) [d] [b]
    (fun t => fabEff .histRead d (sGet t b) false (.ok (recordLanes t)) t) s

/-! Commands in the engine. -/

/-- R359: the bound collective tag of a context. -/
def tagOf? (s : State) (ctx tag : Nat) : Option CollTag := s.fab.tags.find? (fun t => t.ctx == ctx && t.tag == tag)

/-- A command changed. -/
def modFab (uid : Nat) (f : FabCmd → FabCmd) (s : State) : State :=
  { s with eng := { s.eng with fabs := updateFirst (fun c => c.uid == uid) f s.eng.fabs } }

/-- A lane of a command changed. -/
def modFabLane (uid lane : Nat) (f : FabLane → FabLane) (s : State) : State :=
  modFab uid (fun c => { c with lanes := updateFirst (fun l => l.lane == lane) f c.lanes }) s

/-- The group that issued a command changed; a command of another package has none here. -/
def modIssuer (c : FabCmd) (f : Group → Group) (s : State) : State := if c.gid = 0 then s else modGroup c.gid f s

/-- R24, R307: the registers that a command writes, unless the abort of its region cancelled them. -/
def writeBack (c : FabCmd) (f : Group → Group) (s : State) : State := if c.cancelled then s else modIssuer c f s

/-- The next lane of a command to act: the lowest that is not applied; a held lane gives way to the lanes above it, but
those of mord.alloc, which act in ascending order (R368). -/
def FabCmd.next? (c : FabCmd) : Option FabLane :=
  let first := c.lanes.find? (fun l => !l.applied)
  if c.kind = .mordAlloc then first else (c.lanes.find? (fun l => !l.applied && (!l.held || l.skip))).or first

/-- R231, R307: a command whose lanes are all acknowledged is gone and its counter falls; an abort that cancelled it has
taken it from L already. -/
def settleFab (uid : Nat) (s : State) : State :=
  match s.eng.fabs.find? (fun c => c.uid == uid) with
  | none => s
  | some c =>
    if c.lanes.all (fun l => l.acked) then
      modIssuer c (fun g =>
          if !c.kind.countsL then { g with cntC := g.cntC - 1 } else if c.cancelled then g else { g with cntL := g.cntL - 1 })
        { s with eng := { s.eng with fabs := s.eng.fabs.filter (fun x => x.uid != uid) } }
    else s

/-- A lane of a command is applied, and acknowledged where nothing more is sent back. -/
def laneApplied (uid lane : Nat) (acked : Bool) (s : State) : State :=
  settleFab uid (modFabLane uid lane (fun l => { l with applied := true, acked := acked, held := false }) s)

/-- R355, R356: a lane of a command is acknowledged to its die. -/
def ackLane (c : FabCmd) (l : FabLane) (s : State) : State :=
  let t := laneApplied c.uid l.lane true s
  if c.kind.streams && localAgent s c.src && !l.acked then noteAcked (c.src % 4) c.ctx l.win t else t

/-- R233: a value that a lane's command wrote is kept for a replay of its word. -/
def keepReplay (c : FabCmd) (lane : Nat) (v : W64) (s : State) : State :=
  if c.pos = 0 then s
  else
    modIssuer c (fun g =>
      let old := ((g.replays.find? (fun r => r.split == c.split && r.pos == c.pos)).map (fun r => r.lanes)).getD []
      { g with replays := g.replays.filter (fun r => !(r.split == c.split && r.pos == c.pos)) ++
          [⟨c.split, c.pos, mapInsert lane v (old.filter (fun p => p.1 != lane))⟩] }) s

/-- R233: the values kept for the word that the split in focus replays. -/
def keptLanes (s : State) : SMap W64 :=
  ((s.g.replays.find? (fun r => r.split == s.sp.num && r.pos == s.sp.replay + 1)).map (fun r => r.lanes)).getD []

/-- R233: whether the first attempt of the word that the split in focus replays is still in its engine. -/
def firstAttemptRuns (s : State) : Bool :=
  s.eng.fabs.any (fun c => c.gid == s.g.gid && c.split == s.sp.num && c.pos == s.sp.replay + 1)

/-- R233: a replayed word writes the values its first attempt wrote to n registers from d, once it has written them. -/
def writeKept (d n : Nat) (s : State) : State :=
  if firstAttemptRuns s then stallWord s
  else
    countReplay ((keptLanes s).foldl (fun t p =>
      { t with g := t.g.setWide d n (laneBit p.1) (fun _ j => BitVec.ofNat 32 (p.2.toNat / 2 ^ (32 * j))) }) s)

/-- R308: the fault record of a lane of a command; the core and the slot of a group of another package are not known here
and read 0 (log entry 105). -/
def fabRec (s : State) (c : FabCmd) (lane kind va : Nat) (f : WalkFault) : FaultRec :=
  match groupOf? s c.gid with
  | some g => engineRec s g c.split lane kind va f
  | none =>
    { engineRec s Group.idle c.split lane kind va f with
      domain := domainOf s c.ctx va, die := c.src % 4, ctx := c.ctx }

/-- R160, R232: a lane of a command is held by a fault, whose record is written. -/
def holdLane (c : FabCmd) (l : FabLane) (kind va : Nat) (f : WalkFault) (s : State) : State :=
  if l.held then s
  else
    engineFault (fabRec s c l.lane kind va f)
      (modFabLane c.uid l.lane (fun x => { x with held := true, heldVa := va }) s)

/-- R232: the place of a command's word in a trap record, for a lane. -/
def fabTrap (s : State) (c : FabCmd) (l : FabLane) : TrapRec :=
  engineTrap ((groupOf? s c.gid).getD Group.idle) c.split c.clause c.word .windowAccess (some l.lane) none s.tick

/-- R232: a deferred trap on the group that a command comes from; that of another package is told there. -/
def deferFab (gid : Nat) (r : TrapRec) (s : State) : State := if gid = 0 then s else deferTrap gid r s

/-- R232: the deferred window-access trap of a lane that is refused at its target. -/
def refuseLane (c : FabCmd) (l : FabLane) (s : State) : State := deferFab c.gid (fabTrap s c l) s

/-- R232, R355: whether a window admits an operation of 4 bytes at an offset under a key. -/
def Window.admits (w : Window) (key off : Nat) : Bool := w.key == key && decide (off + 4 ≤ w.size)

/-- R419: the fault that an engine's access of an address of a context meets; a read of poisoned data is a fault of
cause 3. -/
def engineFault? (s : State) (ctx : Nat) (n : Need) (va : Nat) : Option WalkFault :=
  match accessIn s ctx n va with
  | .error f => some f
  | .ok l => if n.rd && isPoisoned s l.phys then some ⟨3, false, 0⟩ else none

/-- R299, R327, R436: whether a write to an address of a context waits at its home. -/
def writeWaits (s : State) (ctx va : Nat) : Bool :=
  match accessIn s ctx needW va with
  | .ok l => lineWaits s l va
  | .error _ => false

/-- R296: whether the fork edge of a command is done. -/
def fabReady (s : State) (c : FabCmd) : Bool := forkReady s c.gid c.split c.uid

/-- R297: 4 bytes written at their home by the fabric, every remote copy of the line going with them. -/
def fabricWrite (ctx src va : Nat) (x : W) (s : State) : State :=
  dropLine ctx va (engineWrite ctx va src Writer.none (natToBytes 4 x.toNat) s)

/-- R364: whether a command may leave the queue of its core: no command of the core's communication groups is still in the
queue, or it is one. -/
def mayTake (s : State) (c : FabCmd) : Bool :=
  match groupOf? s c.gid with
  | none => true
  | some g =>
    c.taken || isComm s g ||
      s.eng.fabs.all (fun k => k.taken || k.gid == c.gid ||
        !((groupOf? s k.gid).any (fun x => x.die == g.die && x.core == g.core && isComm s x)))

/-- An event on the next lane of a command of some kinds, which leaves its queue. -/
def onLane (uid : Nat) (kinds : List FabKind) (f : FabCmd → FabLane → State → State) (s : State) : State :=
  match s.eng.fabs.find? (fun c => c.uid == uid && kinds.any (fun k => k == c.kind)) with
  | none => s
  | some c =>
    if !mayTake s c then s
    else
      match c.next? with
      | some l => f c l (modFab uid (fun x => { x with taken := true }) s)
      | none => s

/-! Puts (R355 to R358). -/

/-- R356: whether a lane has already been applied at its target of this package, through another copy of it. -/
def isDuplicate (s : State) (c : FabCmd) (l : FabLane) : Bool := (streamOf s c.ctx c.src l.agent l.win).has l.seq

/-- R356: a lane's number applied at the target. -/
def laneSeq (c : FabCmd) (l : FabLane) (put : Bool) (s : State) : State := applySeq c.ctx c.src l.agent l.win l.seq put s

/-- R355 to R357: a put or win.add is applied: it raises the target counter of its window. -/
def countApplied (c : FabCmd) (l : FabLane) (n : Nat) (put : Bool) (s : State) : State :=
  raiseTarget (l.agent % 4) c.ctx l.win n (laneSeq c l put (laneApplied c.uid l.lane false s))

/-- R232, R356: a lane dropped at its target, with its sequence number applied. -/
def dropPut (c : FabCmd) (l : FabLane) (s : State) : State :=
  refuseLane c l (laneSeq c l false (laneApplied c.uid l.lane false s))

/-- R234, R357: the number of applied puts that a release-flag put waits for. -/
def FabCmd.waitsFor (c : FabCmd) : Nat := if bitOf c.desc.toNat 0 then bitsOf c.desc.toNat 63 32 else 0

/-- R232, R356, R357: a put lane reaches its target. -/
def applyPut (c : FabCmd) (l : FabLane) (s : State) : State :=
  match targetWindow s c.ctx l.agent l.win with
  | none => dropPut c l s
  | some w =>
    let va := w.base + l.off
    if !w.admits l.aux l.off || l.skip then dropPut c l s
    else if (streamOf s c.ctx c.src l.agent l.win).puts < c.waitsFor then s
    else
      match engineFault? s c.ctx needW va with
      | some f => holdLane c l 5 va f s
      | none =>
        if writeWaits s c.ctx va || !fabReady s c then s
        else countApplied c l 1 true (fabricWrite c.ctx w.die va (lowWord l.data) s)

/-- R234, R355: a win.add lane reaches its target. -/
def applyWinAdd (c : FabCmd) (l : FabLane) (s : State) : State :=
  match targetWindow s c.ctx l.agent l.win with
  | none => dropPut c l s
  | some w => if w.key = l.aux then countApplied c l (l.data.toNat % 2 ^ 32) false s else dropPut c l s

/-- R234: the windows of the members of a collective that a broadcast writes here. DESIGN CHOICE, log entry 41: the dies
of this package on which the window is bound. -/
def bcastWindows (s : State) (ctx win : Nat) : List Window := [0, 1, 2, 3].filterMap (fun d => windowOf? s d ctx win)

/-- R234: a broadcast lane reaches the members of its collective. -/
def applyBcast (c : FabCmd) (l : FabLane) (s : State) : State :=
  let done (t : State) : State := laneSeq c l false (laneApplied c.uid l.lane false t)
  if (tagOf? s c.ctx (bitsOf c.desc.toNat 31 16)).isNone ∨ l.skip then refuseLane c l (done s)
  else
    let ws := bcastWindows s c.ctx l.win
    let ok := ws.filter (fun w => w.admits l.aux l.off)
    match (ok.filterMap (fun w => (engineFault? s c.ctx needW (w.base + l.off)).map (fun f => (w.base + l.off, f)))).head? with
    | some f => holdLane c l 5 f.1 f.2 s
    | none =>
      if !fabReady s c || ok.any (fun w => writeWaits s c.ctx (w.base + l.off)) then s
      else
        let t := ok.foldl (fun u w => raiseTarget w.die c.ctx l.win 1 (fabricWrite c.ctx w.die (w.base + l.off) (lowWord l.data) u)) s
        if ok.length = ws.length then done t else refuseLane c l (done t)

/-- R356, R358: a lane of a put, an addition or a broadcast: one for another package goes to it, which will answer; a
duplicate is dropped and acknowledged. -/
def applyStreamed (c : FabCmd) (l : FabLane) (s : State) : State :=
  if c.kind = .collBcast then applyBcast c l s
  else if !localAgent s l.agent then
    if fabReady s c then modFabLane c.uid l.lane (fun x => { x with applied := true }) s else s
  else if isDuplicate s c l then ackLane c l s
  else if c.kind = .putWin then applyPut c l s
  else applyWinAdd c l s

/-- R356, R358: a second copy of a lane reaches its target once the lane has been applied there: it is dropped and
acknowledged. -/
def dropResent (uid : Nat) (s : State) : State :=
  match s.fab.resent.find? (fun r => r.cmd == uid && (streamOf s r.ctx r.src r.agent r.win).has r.seq) with
  | none => s
  | some r =>
    let t := { s with fab := { s.fab with resent := s.fab.resent.filter (fun x => x != r) } }
    match t.eng.fabs.find? (fun c => c.uid == uid) with
    | none => t
    | some c =>
      match c.lanes.find? (fun l => l.lane == r.lane && l.applied && !l.acked) with
      | some l => ackLane c l t
      | none => t

/-- PUT_APPLY (R356): the next lane of a put, a win.add or a broadcast is applied or dropped at its target; once all are,
a second copy of one arrives (R358). -/
def execPutApply (put : Nat) (s : State) : Out :=
  let t := onLane put [.putWin, .winAdd, .collBcast] applyStreamed s
  .next (if s.fab.resent = [] then t else dropResent put t)

/-- PUT_ACK (R355, R356): the sender receives the acknowledgement of a lane from a target in this package. -/
def execPutAck (put : Nat) (s : State) : Out :=
  match s.eng.fabs.find? (fun c => c.uid == put) with
  | none => .next s
  | some c =>
    match c.lanes.find? (fun l => l.applied && !l.acked && (localAgent s l.agent || c.kind == .collBcast)) with
    | some l => .next (ackLane c l s)
    | none => .next s

/-- R358: the lanes of a link that has failed: every lane to another package that has gone out and is not acknowledged is
sent again over another path, under its own sequence number. -/
def resendLanes (s : State) : State :=
  let all := (s.eng.fabs.filter (fun c => c.kind.streams && localAgent s c.src)).flatMap (fun c =>
    (c.lanes.filter (fun l => l.applied && !l.acked && !localAgent s l.agent)).map (fun l =>
      (⟨c.uid, l.lane, c.ctx, c.src, l.agent, l.win, l.seq⟩ : Resent)))
  { s with fab := { s.fab with resent := s.fab.resent ++ all } }

/-- R234: a get.win lane receives its word. -/
def giveWord (c : FabCmd) (l : FabLane) (x : W) (s : State) : State :=
  laneApplied c.uid l.lane true (writeBack c (fun y => y.setLanes c.d (laneBit l.lane) (fun _ => x)) s)

/-- R234: a get.win lane is served at its target: committed memory, or 0 with a deferred trap where it is
refused. -/
def applyGet (c : FabCmd) (l : FabLane) (s : State) : State :=
  if !localAgent s l.agent then
    if fabReady s c then modFabLane c.uid l.lane (fun x => { x with applied := true }) s else s
  else
    match targetWindow s c.ctx l.agent l.win with
    | none => refuseLane c l (giveWord c l 0 s)
    | some w =>
      let va := w.base + l.off
      if !w.admits l.aux l.off || l.skip then refuseLane c l (giveWord c l 0 s)
      else
        match engineFault? s c.ctx needRd va with
        | some f => holdLane c l 4 va f s
        | none =>
          if !fabReady s c then s
          else
            match accessIn s c.ctx needRd va with
            | .ok f => giveWord c l (BitVec.ofNat 32 (rdNat s f.phys 4)) s
            | .error _ => s

/-- R231: every active lane of a word that reads a record receives its word, and the command is over. -/
def giveRecord (c : FabCmd) (f : Nat → W) (s : State) : State :=
  c.lanes.foldl (fun t l => giveWord c l (f l.lane) t) s

/-- R234, R355: the counters of a window of the issuing die. -/
def applyWinRead (c : FabCmd) (s : State) : State :=
  let w := windowOf? s (c.src % 4) c.ctx (bitsOf c.desc.toNat 3 0)
  giveRecord c (fun l => BitVec.ofNat 32 (match l with
    | 0 => (w.map (fun x => x.target)).getD 0
    | 1 => (w.map (fun x => x.issued)).getD 0
    | 2 => (w.map (fun x => x.acked)).getD 0
    | _ => 0)) s

/-- R234, R362: hist.read: the bins of a tag, which the split's next boundary clears as far as they were returned, unless
its region has been aborted. An unbound tag has no record, and reads as zero. -/
def applyHistRead (c : FabCmd) (s : State) : State :=
  let tag := bitsOf c.desc.toNat 15 0
  let bins := ((tagOf? s c.ctx tag).map (fun t => t.bins)).getD []
  let read := (List.range 16).map (fun i => if c.lanes.any (fun l => l.lane == i) then nthD 0 bins i else 0)
  giveRecord c (fun l => if l < 16 then BitVec.ofNat 32 (nthD 0 bins l) else 0)
    (writeBack c (fun g => { g with pendings := g.pendings ++ [(c.split, .histogram tag read)] }) s)

/-! Collectives (R359 to R363). -/

/-- R43, R360: an f32 operation under RNE, subnormals kept. -/
def floatStep (f : Fmt) (op : FVal → FVal → FVal) (a b : Nat) : Nat :=
  (encodeFloat f .rne false false (op (decodeFloat f a) (decodeFloat f b))).1

/-- An operation on both halves of packed words. -/
def halves (f : Nat → Nat → Nat) (a b : Nat) : Nat := f (a % 65536) (b % 65536) + f (a / 65536) (b / 65536) * 65536

/-- R44, R45, R360: the sum, minimum or maximum of two words of a type; routine is 0, 1 or 2. -/
def builtinStep (routine typ : Nat) (a b : Nat) : Nat :=
  let fl (f : Fmt) : Nat → Nat → Nat :=
    floatStep f (fun x y =>
      match routine with
      | 0 => (addExact .rne x y).1
      | 1 => minMaxFloat false false x y
      | _ => minMaxFloat true false x y)
  match typ with
  | 0 => fl fmtF32 a b
  | 1 => halves (fl fmtBf16) a b
  | 2 => halves (fl fmtF16) a b
  | _ =>
    let less : Bool := if typ = 3 then decide (toSigned 32 a ≤ toSigned 32 b) else decide (a ≤ b)
    match routine with
    | 0 => (a + b) % 2 ^ 32
    | 1 => if less then a else b
    | _ => if less then b else a

/-- R360, R363: one step of a combination over pairs of elements, the earlier arrival first, and whether a user routine
failed. -/
def mergeWords (s : State) (routine typ : Nat) (xs : List (W × W)) : List W × Bool :=
  if routine < 128 then (xs.map (fun p => BitVec.ofNat 32 (builtinStep routine typ p.1.toNat p.2.toNat)), false)
  else
    match userRoutine (mapGet [] s.fab.routines routine) xs typ with
    | some ys => (ys, false)
    | none => (xs.map (fun _ => BitVec.allOnes 32), true)

/-- R362: the bin of a floating-point value, as the bits of an f32. -/
def floatBin (x : Nat) : Nat :=
  let e := bitsOf x 30 23
  if e = 0 then 0 else if e = 255 then 15 else 1 + (e - 1) / 19

/-- R362: the bin of an integer value, by its magnitude. -/
def intBin (m : Nat) : Nat := if m = 0 then 0 else 1 + Nat.log2 m / 3

/-- R362: the bins of the elements of a result word of a type. -/
def resultBins (typ : Nat) (x : Nat) : List Nat :=
  let half (f : Fmt) (h : Nat) : Nat := floatBin (exactBits fmtF32 (decodeFloat f h))
  match typ with
  | 0 => [floatBin x]
  | 1 => [half fmtBf16 (x % 65536), half fmtBf16 (x / 65536)]
  | 2 => [half fmtF16 (x % 65536), half fmtF16 (x / 65536)]
  | 3 => [intBin (toSigned 32 x).natAbs]
  | _ => [intBin x]

/-- A 32-bit count raised by 1, saturating. -/
def satUp (n : Nat) : Nat := min (2 ^ 32 - 1) (n + 1)

/-- A collective tag changed. -/
def modTag (ctx tag : Nat) (f : CollTag → CollTag) (s : State) : State :=
  { s with fab := { s.fab with tags := updateFirst (fun t => t.ctx == ctx && t.tag == tag) f s.fab.tags } }

/-- R362: a result word of a type is recorded. -/
def CollTag.record (typ : Nat) (x : W) (t : CollTag) : CollTag :=
  { t with
    bins := (resultBins typ x.toNat).foldl (fun bs i => bs.set i (satUp (nthD 0 bs i))) t.bins,
    results := satUp t.results }

/-- A partial result changed. -/
def modPartial (uid : Nat) (f : Partial → Partial) (s : State) : State :=
  { s with fab := { s.fab with partials := updateFirst (fun p => p.uid == uid) f s.fab.partials } }

/-- A partial result is gone. -/
def dropPartial (uid : Nat) (s : State) : State :=
  { s with fab := { s.fab with partials := s.fab.partials.filter (fun p => p.uid != uid) } }

/-- The partial result of a number. -/
def partial? (s : State) (uid : Nat) : Option Partial := s.fab.partials.find? (fun p => p.uid == uid)

/-- R359: the member count of a bound tag. -/
def memberCount (s : State) (ctx tag : Nat) : Nat := ((tagOf? s ctx tag).map (fun t => t.members)).getD 0

/-- R308: a fault record from a template. -/
def FaultRec.at_ (r : FaultRec) (s : State) (kind va : Nat) (f : WalkFault) : FaultRec :=
  { r with vaddr := va, gpa := if f.stage2 then f.gpa else 0, domain := domainOf s r.ctx va, kind := kind,
           cause := f.cause, stage2 := f.stage2, last := true }

/-- R361: the flush time of a partial result, in ticks. -/
def flushTicks (s : State) (p : Partial) : Nat :=
  256 * (if p.flush = 0 then ((ctxOf? s p.ctx).map (fun c => c.flush)).getD 0 else p.flush)

/-- R359: whether two partial results are of one destination word of one tag. -/
def Partial.same (p q : Partial) : Bool :=
  p.ctx == q.ctx && p.tag == q.tag && p.agent == q.agent && p.win == q.win && p.off == q.off

/-- R363: a failed step of a user routine counts in the completion record. -/
def countRoutineFault (ctx tag : Nat) (bad : Bool) (s : State) : State :=
  if bad then modTag ctx tag (fun y => { y with faults := satUp y.faults }) s else s

/-- R361: a destination entry whose contributions are all in is gone, with what the switch remembers of its round. -/
def closeRound (p : Partial) (s : State) : State :=
  { s with fab := { s.fab with partials := s.fab.partials.filter (fun q =>
      q.uid != p.uid && !(q.gone && q.same p && q.round == p.round)) } }

/-- R232: a collective word that its destination refuses: its group takes the deferred trap. -/
def refusePartial (p : Partial) (s : State) : State := deferFab p.gid p.maker (closeRound p s)

/-- R361: a late correction combined into the written word; it is held by a fault, waits, or is applied. -/
def lateCorrection (p : Partial) (x : W) (n : Nat) (s : State) : State :=
  match targetWindow s p.ctx p.agent p.win with
  | none => refusePartial p s
  | some w =>
    let va := w.base + p.off
    if p.skip then refusePartial p s
    else
      match engineFault? s p.ctx needRdW va, accessIn s p.ctx needRdW va with
      | some f, _ =>
        if p.held then s
        else engineFault (p.tmpl.at_ s 5 va f) (modPartial p.uid (fun y => { y with held := true }) s)
      | none, .ok f =>
        if writeWaits s p.ctx va then s
        else
          let r := mergeWords s p.routine p.typ [(BitVec.ofNat 32 (rdNat s f.phys 4), x)]
          let t := fabricWrite p.ctx w.die va (nthD 0 r.1 0) s
          let t := modTag p.ctx p.tag (fun y => { y with late := satUp y.late }) (countRoutineFault p.ctx p.tag r.2 t)
          if memberCount s p.ctx p.tag ≤ p.count + n then closeRound p t
          else modPartial p.uid (fun y => { y with count := y.count + n, lates := y.lates.drop 1, held := false }) t
      | none, .error _ => s

/-- R361: the late corrections that wait for their word, in the order in which they came. -/
def applyLates (uid : Nat) : List (W × Nat) → State → State
  | [], s => s
  | x :: xs, s =>
    match partial? s uid with
    | none => s
    | some p =>
      let t := lateCorrection p x.1 x.2 s
      if (partial? t uid).any (fun q => q.lates.length < p.lates.length) then applyLates uid xs t else t

/-- R360 to R362: a partial result is written at its destination; it waits, is held by a fault, or is refused. -/
def writeResult (p : Partial) (s : State) : State :=
  match targetWindow s p.ctx p.agent p.win with
  | none => refusePartial p s
  | some w =>
    let va := w.base + p.off
    if p.skip || w.size < p.off + 4 then refusePartial p s
    else
      match engineFault? s p.ctx needW va with
      | some f =>
        if p.held then s
        else engineFault (p.tmpl.at_ s 5 va f) (modPartial p.uid (fun x => { x with held := true }) s)
      | none =>
        if writeWaits s p.ctx va then s
        else
          let t := fabricWrite p.ctx w.die va p.value s
          let t := raiseTarget w.die p.ctx p.win 1 (modTag p.ctx p.tag (CollTag.record p.typ p.value) t)
          if memberCount s p.ctx p.tag ≤ p.count then closeRound p t
          else applyLates p.uid p.lates (modPartial p.uid (fun x => { x with written := true, held := false }) t)

/-- R361: what the destination does with an entry: it writes a complete one, and one past its own flush time, and combines
late corrections into the written word. -/
def settlePartial (uid : Nat) (s : State) : State :=
  match partial? s uid with
  | none => s
  | some p =>
    if p.written then applyLates uid p.lates s
    else if memberCount s p.ctx p.tag ≤ p.count ∨ p.arrived + flushTicks s p < s.tick then writeResult p s
    else s

/-- R361: a part of a result, or a late correction, reaches its destination in this package. A late correction waits for
the writing of its word, and a part that comes after the writing is one (log entry 46). -/
def arrivePart (late : Bool) (p : Partial) (s : State) : State :=
  let here (q : Partial) : Bool := q.forwarded && q.same p &&
    (if q.written then q.round == p.round else q.round % 256 == p.round % 256)
  match s.fab.partials.find? here with
  | some q =>
    if q.written || late then
      settlePartial q.uid (modPartial q.uid (fun y => { y with lates := y.lates ++ [(p.value, p.count)] }) s)
    else
      let r := mergeWords s q.routine q.typ [(q.value, p.value)]
      settlePartial q.uid (countRoutineFault q.ctx q.tag r.2
        (modPartial q.uid (fun y => { y with value := nthD 0 r.1 0, count := y.count + p.count }) s))
  | none =>
    let u := fresh s
    let q : Partial := { p with uid := u.1, gone := false, forwarded := true, arrived := s.tick, lates := [],
                                written := false, held := false, skip := false }
    settlePartial u.1 { u.2 with fab := { u.2.fab with partials := u.2.fab.partials ++ [q] } }

/-- R361: a part goes on from the switch: to its destination here, or to another package. -/
def sendPart (late : Bool) (p : Partial) (s : State) : State := if localAgent s p.agent then arrivePart late p s else s

/-- R359: the number of a member's next contribution to a destination word. -/
def nextRound (ctx tag member agent win off : Nat) (s : State) : Nat × State :=
  let here (r : CollRound) : Bool :=
    r.ctx == ctx && r.tag == tag && r.member == member && r.agent == agent && r.win == win && r.off == off
  let n := ((s.fab.rounds.find? here).map (fun r => r.count)).getD 0 + 1
  (n, { s with fab := { s.fab with rounds := s.fab.rounds.filter (fun r => !here r) ++
      [⟨ctx, tag, member, agent, win, off, n⟩] } })

/-- R359, R360: the partial result that a lane's contribution alone makes. -/
def ownPartial (c : FabCmd) (l : FabLane) (round : Nat) (s : State) : Partial :=
  let d := c.desc.toNat
  { uid := 0, ctx := c.ctx, tag := bitsOf d 31 16, agent := l.agent, win := l.win, off := l.off, round := round,
    typ := bitsOf d 11 8, routine := bitsOf d 7 0, value := lowWord l.data, count := 1, first := s.tick,
    flush := bitsOf d 47 32, gone := false, forwarded := false, arrived := 0, lates := [], written := false,
    gid := c.gid, held := false, skip := false, maker := fabTrap s c l, tmpl := fabRec s c l.lane 5 0 ⟨0, false, 0⟩ }

/-- R359, R361: what the switch holds for a contribution: the partial result it joins, or the one that has gone on
before it. -/
def switchPartial? (s : State) (p : Partial) : Option Partial :=
  s.fab.partials.find? (fun q => !q.forwarded && q.same p &&
    (if q.gone then q.round == p.round else q.round % 256 == p.round % 256))

/-- R360: a contribution without a partial result in the switch starts one. -/
def startPartial (p : Partial) (s : State) : State :=
  let u := fresh s
  let old (q : Partial) : Bool := q.gone && q.same p && decide (q.round + 256 ≤ p.round)
  { u.2 with fab := { u.2.fab with partials := u.2.fab.partials.filter (fun q => !old q) ++ [{ p with uid := u.1 }] } }

/-- R360: a partial result of the switch that has every contribution goes on. -/
def passComplete (q : Partial) (s : State) : State :=
  match s.fab.partials.find? (fun x => !x.forwarded && !x.gone && x.same q && x.round % 256 == q.round % 256) with
  | some x => if memberCount s x.ctx x.tag ≤ x.count then sendPart false x (dropPartial x.uid s) else s
  | none => s

/-- R360, R361, R363: contributions of one packet reach the switch: each starts a partial result, goes on as a late
correction, or joins the partial result that is there; those that join are the elements of one step. -/
def joinPacket (ps : List Partial) (s : State) : State :=
  let joins : List (Partial × Partial) := ps.filterMap (fun p => (switchPartial? s p).bind (fun q => if q.gone then none else some (q, p)))
  let lates := ps.filter (fun p => (switchPartial? s p).any (fun q => q.gone))
  let starts := ps.filter (fun p => (switchPartial? s p).isNone)
  let r : List W × Bool :=
    match joins with
    | [] => ([], false)
    | j :: _ => mergeWords s j.1.routine j.1.typ (joins.map (fun (x : Partial × Partial) => (x.1.value, x.2.value)))
  let t := (joins.zip r.1).foldl (fun u (x : (Partial × Partial) × W) =>
    modPartial x.1.1.uid (fun y => { y with value := x.2, count := y.count + 1 }) u) s
  let t := match joins with
    | [] => t
    | j :: _ => countRoutineFault j.1.ctx j.1.tag r.2 t
  let t := starts.foldl (fun u p => startPartial p u) t
  let t := lates.foldl (fun u p => sendPart true p u) t
  ps.foldl (fun u p => passComplete p u) t

/-- R231, R355, R356: a contribution has reached the first switch, which acknowledges it. -/
def contributed (c : FabCmd) (l : FabLane) (s : State) : State := ackLane c l (laneSeq c l false s)

/-- R232, R359: whether a contribution is refused at a target in this package. -/
def contributionRefused (s : State) (c : FabCmd) (l : FabLane) : Bool :=
  localAgent s l.agent &&
    ((tagOf? s c.ctx (bitsOf c.desc.toNat 31 16)).isNone || l.skip ||
      !((targetWindow s c.ctx l.agent l.win).map (fun w => w.admits l.aux l.off)).getD false)

/-- R359: the numbers of the contributions of a packet. -/
def packetParts (c : FabCmd) : List FabLane → State → List Partial × State
  | [], s => ([], s)
  | l :: ls, s =>
    let n := nextRound c.ctx (bitsOf c.desc.toNat 31 16) c.src l.agent l.win l.off s
    let r := packetParts c ls n.2
    (ownPartial c l n.1 s :: r.1, r.2)

/-- R234, R359 to R361: the lanes of a coll.red with one destination, coalesced into a packet, reach the switch. -/
def applyContribution (c : FabCmd) (l : FabLane) (s : State) : State :=
  if !fabReady s c then s
  else
    let ls := c.lanes.filter (fun x => !x.applied && x.agent == l.agent && x.win == l.win)
    let bad := ls.filter (contributionRefused s c)
    let r := packetParts c (ls.filter (fun x => !contributionRefused s c x)) s
    let t := joinPacket r.1 r.2
    let t := bad.foldl (fun u x => refuseLane c x u) t
    ls.foldl (fun u x => contributed c x u) t

/-- COLL_COMBINE (R360): a switch combines the next packet of contributions of a coll.red. -/
def execCollCombine (contrib : Nat) (s : State) : Out := .next (onLane contrib [.collRed] applyContribution s)

/-- COLL_FLUSH (R361): a switch forwards a partial result that it has held for longer than the flush time, counted from its
first arrival; the destination goes on with one that it holds. -/
def execCollFlush (partial_ : Nat) (s : State) : Out :=
  match partial? s partial_ with
  | none => .next s
  | some p =>
    if p.forwarded then .next (settlePartial p.uid s)
    else if !p.gone && decide (p.first + flushTicks s p < s.tick) then
      .next (sendPart false p (modTag p.ctx p.tag (fun y => { y with flushes := satUp y.flushes })
        (modPartial p.uid (fun x => { x with gone := true }) s)))
    else .next s

/-- USER_ROUTINE_LOAD (R363). -/
def execUserRoutineLoad (slot : Nat) (code : List W) (s : State) : Out :=
  if 128 ≤ slot ∧ slot ≤ 255 then
    .next { s with fab := { s.fab with routines := mapSet [] s.fab.routines slot code } }
  else .next s

/-! Exchanges (R235). -/

/-- R252: the number of spans of a viaduct. -/
def Launch.spanCount (l : Launch) : Nat := l.vdx * l.vdy * l.vdz

/-- R253: the number of groups of a span. -/
def Launch.groupCount (l : Launch) : Nat := (l.sx * l.sy * l.sz + 31) / 32

/-- R235: whether a span and group exist in the viaduct in focus. -/
def peerExists (s : State) (lin grp : Nat) : Bool :=
  ((launchOf? s).map (fun l => decide (lin < l.spanCount) && decide (grp < l.groupCount))).getD false

/-- R235: the effect of xshf: the group waits for its peer. -/
def xshfEff (d a b : Nat) (s : State) : State :=
  let x := (sGet s b).toNat
  if replayed s then writeKept d 1 s
  else if bitsOf x 63 39 ≠ 0 then takeTrap (plainTrap .descriptor) s
  else if !peerExists s (bitsOf x 31 0) (bitsOf x 38 32) then takeTrap (plainTrap .peer) s
  else if 63 ≤ s.g.cntL then stallWord s
  else blockOn [.xshf d a (bitsOf x 31 0) (bitsOf x 38 32) s.tick] { s with g := { s.g with cntL := s.g.cntL + 1 } }

/-- R231, R232, R235. -/
def execXshf (d : Nat) (a : Nat) (b : Nat) (s : State) : Out :=
  fabWord (firstTrap [rangeTrap s [(d, 1), (a, 1)], liveTrap s [d]]) [d, a] [b] (readGuard [a] (xshfEff d a b)) s

/-- R235: a split of a group that waits in xshf: its number, registers, peer and issue tick. -/
structure XshfWait where
  split : Nat
  em : W
  d : Nat
  a : Nat
  lin : Nat
  grp : Nat
  start : Nat

/-- R235: what a split waits for. -/
def Split.xshf? (p : Split) : Option XshfWait :=
  match p.pend with
  | .xshf d a lin grp start :: _ => some ⟨p.num, p.em, d, a, lin, grp, start⟩
  | _ => none

/-- R235: the waiting splits of a group. -/
def xshfWaits (s : State) (g : Group) : List XshfWait := (splitsOf s g).filterMap Split.xshf?

/-- The linear index of a group's span. -/
def linOf (s : State) (g : Group) : Nat := ((spanOf? s g.span).map (fun x => x.lin)).getD 0

/-- R235: the group of the viaduct of another with a span index and a group index. -/
def peerOf? (s : State) (g : Group) (lin grp : Nat) : Option Group :=
  (allGroups s).find? (fun h => h.viaduct == g.viaduct && linOf s h == lin && h.index == grp && h.gid != g.gid)

/-- R235: whether a wait of a group names a group. -/
def XshfWait.names (w : XshfWait) (s : State) (g : Group) : Bool := w.lin == linOf s g && w.grp == g.index

/-- R235: one side of an exchange: the waiting word completes with its peer's values in the lanes of a mask. -/
def completeXshf (gid : Nat) (w : XshfWait) (both : W) (v : Nat → W) (s : State) : State :=
  finishPart gid w.split Micro.isXshf (fun _ t =>
    let vals : SMap W64 := (lanesOf both).map (fun l => (l, zext64 (v l)))
    let t := countReplay { t with
      g := { t.g with replays := t.g.replays ++ [⟨w.split, t.sp.replay + 1, vals⟩], cntL := t.g.cntL - 1 } }
    { t with g := t.g.setLanes w.d both v }) s

/-- R235: the two sides of an exchange of a group, where one can take place. -/
def exchangePair (s : State) (g : Group) : Option (XshfWait × Group × XshfWait) :=
  (xshfWaits s g).findSome? (fun w =>
    (peerOf? s g w.lin w.grp).bind (fun h =>
      if g.residence = .resident ∧ h.residence = .resident ∧ !g.stopped ∧ !h.stopped then
        ((xshfWaits s h).find? (fun v => v.names s g)).map (fun v => (w, h, v))
      else none))

/-- R235: a waiting split takes the peer trap, its word no longer counted on L. -/
def peerTrap (gid split : Nat) (s : State) : State :=
  onSplit gid split (fun t => takeTrap (plainTrap .peer) { t with g := { t.g with cntL := t.g.cntL - 1 } }) s

/-- R235, R240: two groups take the peer trap. The trap of the first stops the viaduct, and the second's record is written
beside it. -/
def bothPeerTraps (g h : Group) (w v : XshfWait) (s : State) : State :=
  let at_ := (((splitsOf s h).find? (fun p => p.num == v.split)).map (fun p => p.pendAt)).getD (0, 0)
  let t := peerTrap g.gid w.split s
  if (groupOf? t h.gid).any (fun x => (splitsOf t x).any (fun p => p.num == v.split && p.pend != [])) then
    peerTrap h.gid v.split t
  else
    stopViaduct h.viaduct (engineTrap h v.split at_.1 at_.2 .peer none none s.tick)
      (modGroup h.gid (fun x => { x with trapinfo := trapInfo .peer at_.1 }) t)

/-- R235: whether the span of a group has been restored. -/
def wasRestored (s : State) (g : Group) : Bool := ((spanOf? s g.span).map (fun x => x.restored)).getD false

/-- R235: whether another group waits for a group that has issued an xshf naming someone else: that group takes the peer
trap before any exchange of the group named. -/
def jilted (s : State) (g : Group) : Bool :=
  (allGroups s).any (fun x => x.viaduct == g.viaduct && (xshfWaits s x).any (fun w =>
    w.names s g && (xshfWaits s g).any (fun v => !v.names s x)))

/-- XSHF_EXCHANGE (R235): the exchange of a group with its peer, one step for both; groups on different dies, one of
which was restored, trap. -/
def execXshfExchange (gid : Nat) (s : State) : Out :=
  match groupOf? s gid with
  | none => .next s
  | some g =>
    match exchangePair s g with
    | none => .next s
    | some (w, h, v) =>
      if g.die ≠ h.die then
        if wasRestored s g || wasRestored s h then .next (bothPeerTraps g h w v s) else .next s
      else if jilted s g || jilted s h then .next s
      else
        let both := w.em &&& v.em
        .next (completeXshf h.gid v both (fun l => gReg g w.a l) (completeXshf gid w both (fun l => gReg h v.a l) s))

/-- R235: whether a wait of a group ends in the peer trap: the peer has exited or retired, it waits for another
group, or the time is up. -/
def peerGone (s : State) (g : Group) (w : XshfWait) : Bool :=
  decide (w.start + 2 ^ 24 ≤ s.tick) ||
    match peerOf? s g w.lin w.grp with
    | some h => h.exited || (xshfWaits s h).any (fun v => !v.names s g)
    | none => ((viaductOf? s g.viaduct).map (fun v => memNat w.lin v.placed)).getD false

/-- XSHF_TIMEOUT (R235): a waiting split whose peer is gone, or whose time is up, takes the peer trap. -/
def execXshfTimeout (gid : Nat) (s : State) : Out :=
  match groupOf? s gid with
  | none => .next s
  | some g =>
    match (xshfWaits s g).find? (peerGone s g) with
    | none => .next s
    | some w => .next (peerTrap gid w.split s)

end Sys2Proof.Machine
end

