-- ==== Sys2Proof/Machine/Mordant.lean ====
section
/-! DEFINITION. The mordant words, the mordant buffer and its events (R236, R237, R345 to R354). -/

namespace Sys2Proof.Machine

open Sys2Proof

/-! Pools (R345, R346). -/

/-- R345: the pool of a context on a die. -/
def poolOf? (s : State) (die ctx : Nat) : Option Pool :=
  s.fab.pools.find? (fun p => p.die == die && p.ctx == ctx && bitsOf p.word.toNat 63 48 != 0)

/-- R345: the token slots of a pool. -/
def Pool.slots (p : Pool) : Nat := bitsOf p.word.toNat 63 48
/-- R345: the parking entries of a pool. -/
def Pool.park (p : Pool) : Nat := bitsOf p.word.toNat 47 36
/-- R345: the contribution format of a pool. -/
def Pool.cfmt (p : Pool) : Nat := bitsOf p.word.toNat 29 28
/-- R345: the elements per token of a pool. -/
def Pool.elems (p : Pool) : Nat := bitsOf p.word.toNat 14 0

/-- R345, R236: a contribution or token format. -/
def mordFmt (f : Nat) : Fmt :=
  match f with
  | 0 => fmtF32
  | 1 => fmtBf16
  | 2 => fmtF16
  | _ => fmtE4M3

/-- The bytes of an element of a format. -/
def mordBytes (f : Nat) : Nat :=
  match f with
  | 0 => 4
  | 1 => 2
  | 2 => 2
  | _ => 1

/-- A pool changed. -/
def modPool (die ctx : Nat) (f : Pool → Pool) (s : State) : State :=
  { s with fab := { s.fab with pools := updateFirst (fun p => p.die == die && p.ctx == ctx) f s.fab.pools } }

/-- The slots of a pool that are not free. -/
def heldSlots (s : State) (die ctx : Nat) : List MordSlot :=
  s.fab.slots.filter (fun m => m.die == die && m.ctx == ctx && m.st != .free)

/-- The parked contributions of a pool. -/
def parkedCount (s : State) (die ctx : Nat) : Nat :=
  ((heldSlots s die ctx).map (fun m => m.parked.length)).foldl (fun a n => a + n) 0

/-- A mordant slot changed. -/
def modSlot (die ctx num : Nat) (f : MordSlot → MordSlot) (s : State) : State :=
  { s with fab := { s.fab with
      slots := updateFirst (fun m => m.die == die && m.ctx == ctx && m.num == num) f s.fab.slots } }

/-! Issue (R236, R237). -/

/-- R236, R237: the address of a lane checked: global memory or core store. -/
def mordPlace (s : State) (n l : Nat) (a : W64) : Except Trap Nat :=
  match placeOf s [.glob, .store] n l a with
  | .ok p => .ok p.generic
  | .error k => .error (laneTrap k l a)

/-- R236: the lanes of mord.alloc, checked in ascending order. -/
def allocLanes (s : State) (a : Nat) : List Nat → Except Trap (List FabLane)
  | [] => .ok []
  | l :: ls =>
    match mordPlace s 64 l (vGet64 s a l) with
    | .error t => .error t
    | .ok p =>
      match allocLanes s a ls with
      | .error t => .error t
      | .ok rest => .ok (FabLane.start l 0 0 p 0 0 :: rest)

/-- R237: the lanes of mord.send, checked in ascending order. -/
def sendLanes (s : State) (a b : Nat) : List Nat → Except Trap (List FabLane)
  | [] => .ok []
  | l :: ls =>
    match mordPlace s 1 l (vGet64 s (a + 2) l) with
    | .error t => .error t
    | .ok p =>
      match sendLanes s a b ls with
      | .error t => .error t
      | .ok rest => .ok (FabLane.start l 0 0 p (vGet64 s a l) ((vGet s b l).toNat % 65536) :: rest)

/-- R233, R236: mord.alloc; a replayed one writes the handles of its first attempt. -/
def execMordAlloc (d : Nat) (a : Nat) (s : State) : Out :=
  fabWord (firstTrap [rangeTrap s [(d, 2), (a, 2)], liveTrap s [d, d + 1]]) [d, d + 1, a, a + 1] [] (readGuard [a, a + 1] fun t =>
    if replayed t then writeKept d 2 t
    else counted (fun u => fabEff .mordAlloc d 0 false (allocLanes u a (lanesOf u.sp.em)) u) t) s

/-- R233, R237: mord.send; a replayed one writes the statuses of its first attempt. -/
def execMordSend (d : Nat) (a : Nat) (b : Nat) (s : State) : Out :=
  fabWord (firstTrap [rangeTrap s [(d, 1), (a, 4), (b, 1)], liveTrap s [d]]) [d, a, a + 1, a + 2, a + 3, b] [] (readGuard [a, a + 1, a + 2, a + 3, b] fun t =>
    if replayed t then writeKept d 1 t
    else counted (fun u => fabEff .mordSend d 0 false (sendLanes u a b (lanesOf u.sp.em)) u) t) s

/-- R237. -/
def execMordFree (a : Nat) (s : State) : Out :=
  fabWord (rangeTrap s [(a, 2)]) [a, a + 1] [] (readGuard [a, a + 1] (counted (fun t =>
    fabEff .mordFree 0 0 false (.ok ((lanesOf t.sp.em).map (fun l => FabLane.start l 0 0 0 (vGet64 t a l) 0))) t))) s

/-- R237: the counts of the pool of a context on a die. -/
def poolCounts (s : State) (die ctx : Nat) : List Nat :=
  match poolOf? s die ctx with
  | none => []
  | some p =>
    let used := (heldSlots s die ctx).length
    let parked := parkedCount s die ctx
    [p.slots - used, used, parked, p.park - parked, p.late, p.timeouts, p.retries, p.fails]

/-- R231, R237. -/
def execMordStat (d : Nat) (s : State) : Out :=
  fabWord (firstTrap [rangeTrap s [(d, 1)], liveTrap s [d]]) [d] []
    (fun t => fabEff .mordStat d 0 false (.ok (recordLanes t)) t) s

/-- R237: mord.stat reads the counts of the pool of its context on the issuing die. -/
def applyMordStat (c : FabCmd) (s : State) : State :=
  giveRecord c (fun l => BitVec.ofNat 32 (nthD 0 (poolCounts s (c.src % 4) c.ctx) l)) s

/-- GET_WIN_READ (R231, R234, R237): a word that reads a window or a record is served. -/
def execGetWinRead (get : Nat) (s : State) : Out :=
  .next (onLane get [.getWin, .winRead, .mordStat, .histRead] (fun c l =>
    match c.kind with
    | .getWin => applyGet c l
    | .winRead => applyWinRead c
    | .mordStat => applyMordStat c
    | _ => applyHistRead c) s)

/-! The reads of an engine (R160, R236, R354). -/

/-- Runs of n bytes from an address, cut at the line boundaries: (address, length). -/
def lineRuns : Nat → Nat → Nat → List (Nat × Nat)
  | 0, _, _ => []
  | fuel + 1, a, n =>
    if n = 0 then []
    else let k := min n (128 - a % 128); (a, k) :: lineRuns fuel (a + k) (n - k)

/-- What an engine's read of bytes gives. -/
inductive Fetched
  | bytes (bs : List Byte)
  | fault (va : Nat) (f : WalkFault)
  | unreadable
  | wait

/-- R236, R354: n bytes read at the generic address of a lane of a command, in committed memory or in the core store
of its span. A read past the core store's extent is unreadable (log entry 42). -/
def mordRead (s : State) (c : FabCmd) (a n : Nat) : Fetched :=
  let core := ((groupOf? s c.gid).map (fun g => g.core)).getD 0
  if inMemory a then
    let runs := lineRuns (n / 128 + 2) a n
    match (runs.filterMap (fun r =>
        match accessIn s c.ctx needRd r.1 with
        | .ok _ => none
        | .error f => some (r.1, f))).head? with
    | some f => .fault f.1 f.2
    | none =>
      if rangePoisoned s c.ctx a n then .unreadable
      else if !fabReady s c then .wait
      else
        .bytes (runs.flatMap (fun r =>
          match accessIn s c.ctx needRd r.1 with
          | .ok l => rdBytes s l.phys r.2
          | .error _ => []))
  else
    let off := bitsOf a 47 0
    if storeExtent s c.span < off + n ∨ storePoisoned s c.span core off n then .unreadable
    else .bytes ((List.range n).map (fun i => storeByte s c.span core (off + i)))

/-! mord.alloc (R236, R347). -/

/-- R236: the descriptor in 128 bytes. -/
def mordDesc (bs : List Byte) : MordDesc :=
  let at_ (lo n : Nat) : Nat := bytesToNat ((bs.drop lo).take n)
  let k := at_ 12 1 % 16
  { dest := at_ 0 8, timeout := at_ 8 4, k := k, policy := bitsOf (at_ 12 1) 5 4, format := at_ 13 1,
    relKind := bitsOf (at_ 14 2) 1 0, relIdx := bitsOf (at_ 14 2) 5 2,
    experts := (List.range k).map (fun i => at_ (16 + 2 * i) 2),
    gates := (List.range k).map (fun i => BitVec.ofNat 32 (at_ (32 + 4 * i) 4)), target := at_ 64 4 }

/-- Whether numbers strictly rise. -/
def ascending : List Nat → Bool
  | [] => true
  | [_] => true
  | x :: y :: r => decide (x < y) && ascending (y :: r)

/-- R236, R347: whether a descriptor is malformed; spans is the viaduct's span count. -/
def badMordDesc (bs : List Byte) (spans : Nat) : Bool :=
  let d := mordDesc bs
  let at_ (lo n : Nat) : Nat := bytesToNat ((bs.drop lo).take n)
  d.k == 0 || decide (8 < d.k) || d.timeout == 0 || !ascending d.experts || d.policy == 3 ||
    bitsOf (at_ 12 1) 7 6 != 0 || decide (3 < d.format) || d.relKind == 3 || bitsOf (at_ 14 2) 15 6 != 0 ||
    d.dest % mordBytes d.format != 0 ||
    (d.relKind == 2 && (decide (spans ≤ d.target) || at_ 68 60 != 0))

/-- R236: a handle. -/
def mordHandle (pkg die slot gen : Nat) : W64 :=
  BitVec.ofNat 64 (pkg % 1024 * 2 ^ 48 + die % 4 * 2 ^ 46 + slot % 32768 * 2 ^ 31 + gen % 2 ^ 31)

/-- R236: the handle of a status that allocated nothing. -/
def handleStatus (n : Nat) : W64 := BitVec.ofNat 64 (n * 2 ^ 58)

/-- R236: a lane of mord.alloc receives its handle. -/
def giveHandle (c : FabCmd) (l : FabLane) (h : W64) (s : State) : State :=
  let t := writeBack c (fun g => g.setWide c.d 2 (laneBit l.lane) (fun _ j => BitVec.ofNat 32 (h.toNat / 2 ^ (32 * j)))) s
  laneApplied c.uid l.lane true (keepReplay c l.lane h t)

/-- R347: the lowest free slot number of a pool, and its generation. -/
def freeSlot (s : State) (die ctx slots : Nat) : Option (Nat × Nat) :=
  let held := heldSlots s die ctx
  ((List.range (held.length + 1)).find? (fun n => decide (n < slots) && !held.any (fun m => m.num == n))).map (fun n =>
    (n, ((s.fab.slots.find? (fun m => m.die == die && m.ctx == ctx && m.num == n)).map (fun m => m.gen)).getD 0))

/-- R347, R348: a slot is initialised for a descriptor. -/
def openSlot (g : Group) (c : FabCmd) (l : FabLane) (p : Pool) (d : MordDesc) (num gen : Nat) (s : State) : State :=
  let m : MordSlot :=
    { die := p.die, ctx := p.ctx, num := num, gen := gen, st := .opened, desc := d, acc := List.replicate p.elems 0,
      n := 0, received := [], parked := [], deadline := s.tick + d.timeout, viaduct := g.viaduct, span := c.span,
      gid := g.gid, fail := false, write := 0, held := false, heldVa := 0, skip := false,
      maker := engineTrap g c.split c.clause c.word .windowAccess (some l.lane) none s.tick,
      tmpl := engineRec s g c.split l.lane 5 0 ⟨0, false, 0⟩ }
  let here (x : MordSlot) : Bool := x.die == p.die && x.ctx == p.ctx && x.num == num
  if s.fab.slots.any here then modSlot p.die p.ctx num (fun _ => m) s
  else { s with fab := { s.fab with slots := s.fab.slots ++ [m] } }

/-- R236: a lane of mord.alloc at the mordant buffer of its die. -/
def applyAlloc (c : FabCmd) (l : FabLane) (s : State) : State :=
  let die := c.src % 4
  let g := (groupOf? s c.gid).getD Group.idle
  match poolOf? s die c.ctx with
  | none => giveHandle c l (handleStatus 3) s
  | some p =>
    let first := mordRead s c l.off 64
    let r :=
      match first with
      | .bytes bs =>
        if (mordDesc bs).relKind = 2 then
          (match mordRead s c (l.off + 64) 64 with
           | .bytes more => Fetched.bytes (bs ++ more)
           | .fault va f => .fault va f
           | .unreadable => .unreadable
           | .wait => .wait)
        else first
      | .fault va f => .fault va f
      | .unreadable => .unreadable
      | .wait => .wait
    match r with
    | .wait => s
    | .unreadable => giveHandle c l (handleStatus 4) s
    | .fault va f => if l.skip then giveHandle c l (handleStatus 4) s else holdLane c l 4 va f s
    | .bytes bs =>
      let spans := ((viaductOf? s g.viaduct).map (fun v => v.launch.spanCount)).getD 0
      if badMordDesc bs spans then giveHandle c l (handleStatus 2) s
      else
        match freeSlot s die c.ctx p.slots with
        | none => giveHandle c l (handleStatus 1) s
        | some n => giveHandle c l (mordHandle s.pkg die n.1 n.2) (openSlot g c l p (mordDesc bs) n.1 n.2 s)

/-- MORDANT_ALLOC_APPLY (R347). -/
def execMordantAllocApply (req : Nat) (s : State) : Out := .next (onLane req [.mordAlloc] applyAlloc s)

/-! Application and completion (R348 to R351). -/

/-- R349: an f32 operation under RNE, subnormals kept. -/
def f32Step (op : FVal → FVal → FVal) (a b : W) : W := BitVec.ofNat 32 (floatStep fmtF32 op a.toNat b.toNat)

/-- R349: a sum. -/
def f32Add (a b : W) : W := f32Step (fun x y => (addExact .rne x y).1) a b

/-- R349: a product. -/
def f32Mul (a b : W) : W := f32Step (fun x y => (mulExact x y).1) a b

/-- R351: a quotient, by a divisor that is not zero. -/
def f32Div (a b : W) : W :=
  match decodeFloat fmtF32 a.toNat, decodeFloat fmtF32 b.toNat with
  | .nan _, _ => BitVec.ofNat 32 fmtF32.canonNan
  | _, .nan _ => BitVec.ofNat 32 fmtF32.canonNan
  | .inf _, .inf _ => BitVec.ofNat 32 fmtF32.canonNan
  | .inf x, .fin y _ _ => BitVec.ofNat 32 (fmtF32.signBit (x != y) + fmtF32.infBits)
  | .fin x _ _, .inf y => BitVec.ofNat 32 (fmtF32.signBit (x != y))
  | .fin x m e, .fin y n f => BitVec.ofNat 32 (roundFinite fmtF32 .rne false false (x != y) m n (e - f)).1

/-- R349: a contribution applied at a position. -/
def MordSlot.apply (p : Nat) (xs : List W) (m : MordSlot) : MordSlot :=
  let g := nthD 0 m.desc.gates p
  { m with acc := m.acc.zipIdx.map (fun a => f32Add a.1 (f32Mul g (nthD 0 xs a.2))) }

/-- R348: the parked positions from n on applied while the position n is parked; their parking entries stay in use until
the slot is free. -/
def MordSlot.drainParked : Nat → MordSlot → MordSlot
  | 0, m => m
  | fuel + 1, m =>
    match m.parked.find? (fun p => p.1 == m.n) with
    | none => m
    | some p => MordSlot.drainParked fuel
        { m.apply m.n p.2 with n := m.n + 1 }

/-- R348: a slot whose positions are all applied is releasing. -/
def MordSlot.completeIfFull (m : MordSlot) : MordSlot := if m.n = m.desc.k then { m with st := .releasing } else m

/-- R351: the sum of the gates of the received positions, ascending. -/
def MordSlot.gateSum (m : MordSlot) : W :=
  ((List.range m.desc.k).filter (fun p => memNat p m.received)).foldl (fun a p => f32Add a (nthD 0 m.desc.gates p)) 0

/-- R351: the deadline of an open slot: parked positions applied in ascending order, then the policy. -/
def MordSlot.timeOut (m : MordSlot) : MordSlot :=
  let a := (List.range m.desc.k).foldl (fun x p =>
    match m.parked.find? (fun q => q.1 == p && decide (m.n ≤ p)) with
    | some q => x.apply p q.2
    | none => x) m
  let b := { a with st := .releasing, fail := m.desc.policy == 2 }
  let gs := m.gateSum
  if m.desc.policy = 1 ∧ gs.toNat % 2 ^ 31 ≠ 0 then { b with acc := b.acc.map (fun x => f32Div x gs) } else b

/-- R351, R353: the deadline of a slot, once it has passed, takes effect. -/
def deadlineSlot (m : MordSlot) (s : State) : State :=
  if m.st = .opened ∧ m.deadline ≤ s.tick then
    modPool m.die m.ctx (fun p =>
        { p with timeouts := satUp p.timeouts, fails := if m.desc.policy = 2 then satUp p.fails else p.fails })
      (modSlot m.die m.ctx m.num MordSlot.timeOut s)
  else s

/-- MORDANT_DEADLINE (R351). -/
def execMordantDeadline (slot : Nat) (s : State) : Out :=
  match s.fab.slots[slot]? with
  | none => .next s
  | some m => .next (deadlineSlot m s)

/-- R348: a slot becomes free: its generation rises, and waits for free slots are looked at. -/
def freeMordSlot (die ctx num : Nat) (s : State) : State :=
  evalMonitors (modSlot die ctx num (fun m =>
    { m with st := .free, gen := (m.gen + 1) % 2 ^ 31, acc := [], received := [], parked := [], write := 0 }) s)

/-! mord.send and mord.free (R237, R348, R353). -/

/-- R236, R237: whether a handle names a pool of another package of the domain. -/
def handleAway (s : State) (h : W64) : Bool :=
  bitsOf h.toNat 63 58 == 0 && bitsOf h.toNat 57 48 != s.pkg && Config.inDomain (bitsOf h.toNat 57 48)

/-- The slot record that a handle names on this package, of any generation, with its pool; none is status 5. -/
def handlePool? (s : State) (ctx : Nat) (h : W64) : Option (Pool × Nat × Nat) :=
  let x := h.toNat
  if bitsOf x 63 58 ≠ 0 ∨ bitsOf x 57 48 ≠ s.pkg then none
  else
    (poolOf? s (bitsOf x 47 46) ctx).bind (fun p =>
      if bitsOf x 45 31 < p.slots then some (p, bitsOf x 45 31, bitsOf x 30 0) else none)

/-- R348: the slot of a pool that a handle's number and generation name, if it is not stale. -/
def liveSlot? (s : State) (p : Pool) (num gen : Nat) : Option MordSlot :=
  s.fab.slots.find? (fun m => m.die == p.die && m.ctx == p.ctx && m.num == num && m.gen == gen && m.st != .free)

/-- R237: a lane of mord.send receives its status. -/
def giveStatus (c : FabCmd) (l : FabLane) (n : Nat) (s : State) : State :=
  let t := writeBack c (fun g => g.setLanes c.d (laneBit l.lane) (fun _ => BitVec.ofNat 32 n)) s
  laneApplied c.uid l.lane true (keepReplay c l.lane (BitVec.ofNat 64 n) t)

/-- R349: the elements of a contribution, as f32. -/
def contribution (cfmt n : Nat) (bs : List Byte) : List W :=
  let z := mordBytes cfmt
  (List.range n).map (fun i =>
    BitVec.ofNat 32 (exactBits fmtF32 (decodeFloat (mordFmt cfmt) (bytesToNat ((bs.drop (z * i)).take z)))))

/-- R348: a contribution reaches an open slot; what it answers, and the state after. -/
def contribute (expert : Nat) (p : Pool) (m : MordSlot) (xs : List W) (s : State) : Nat × State :=
  match m.desc.experts.findIdx? (fun e => e == expert) with
  | none => (3, s)
  | some pos =>
    if memNat pos m.received then (4, s)
    else if pos = m.n then
      (0, modSlot m.die m.ctx m.num (fun x =>
        (MordSlot.drainParked 8 { x.apply pos xs with n := x.n + 1, received := pos :: x.received }).completeIfFull) s)
    else if parkedCount s m.die m.ctx < p.park then
      (0, modSlot m.die m.ctx m.num (fun x =>
        { x with received := pos :: x.received, parked := x.parked ++ [(pos, xs)] }) s)
    else (1, modPool p.die p.ctx (fun x => { x with retries := satUp x.retries }) s)

/-- R237, R348, R353: a contribution that has been read reaches its slot; a deadline that has passed takes effect first, and
a late send is dropped and counted. -/
def deliver (expert : Nat) (p : Pool) (num gen : Nat) (xs : List W) (s : State) : Nat × State :=
  let late (t : State) : Nat × State := (2, modPool p.die p.ctx (fun x => { x with late := satUp x.late }) t)
  match liveSlot? s p num gen with
  | none => late s
  | some m =>
    let t := deadlineSlot m s
    match liveSlot? t p num gen with
    | none => late t
    | some x => if x.st = .opened then contribute expert p x xs t else late t

/-- R237, R354: a lane of mord.send reads its contribution, with the count and the format of a pool, and goes on with it. -/
def readContribution (p : Pool) (c : FabCmd) (l : FabLane) (f : List W → State → State) (s : State) : State :=
  let z := mordBytes p.cfmt
  if l.off % z ≠ 0 then giveStatus c l 6 s
  else
    match mordRead s c l.off (z * p.elems) with
    | .wait => s
    | .unreadable => giveStatus c l 7 s
    | .fault va w => if l.skip then giveStatus c l 7 s else holdLane c l 4 va w s
    | .bytes bs => f (contribution p.cfmt p.elems bs) s

/-- A lane that has gone to another package, which will answer. -/
def laneAway (c : FabCmd) (l : FabLane) (s : State) : State :=
  modFabLane c.uid l.lane (fun x => { x with applied := true, held := false }) s

/-- R237: a lane of mord.send. A contribution to another package's pool is read with the configuration of the context's pool
on the sending die (DESIGN CHOICE, log entry 105), and its status comes back. -/
def applySend (c : FabCmd) (l : FabLane) (s : State) : State :=
  if handleAway s l.data then
    match poolOf? s (c.src % 4) c.ctx with
    | some p => readContribution p c l (fun _ => laneAway c l) s
    | none => laneAway c l s
  else
    match handlePool? s c.ctx l.data with
    | none => giveStatus c l 5 s
    | some (p, num, gen) =>
      readContribution p c l (fun xs t => let r := deliver l.aux p num gen xs t; giveStatus c l r.1 r.2) s

/-- MORDANT_SEND_ARRIVAL (R348). -/
def execMordantSendArrival (req : Nat) (s : State) : Out := .next (onLane req [.mordSend] applySend s)

/-- R237, R348: a token is abandoned; a deadline that has passed takes effect first. -/
def abandon (ctx : Nat) (h : W64) (s : State) : State :=
  match handlePool? s ctx h with
  | none => s
  | some (p, num, gen) =>
    match liveSlot? s p num gen with
    | none => s
    | some m =>
      let t := deadlineSlot m s
      match liveSlot? t p num gen with
      | some x => if x.st = .opened then freeMordSlot x.die x.ctx x.num t else t
      | none => t

/-- R237, R348: a lane of mord.free. -/
def applyFree (c : FabCmd) (l : FabLane) (s : State) : State :=
  if handleAway s l.data then laneAway c l s else laneApplied c.uid l.lane true (abandon c.ctx l.data s)

/-- MORDANT_FREE_ARRIVAL (R348). -/
def execMordantFreeArrival (req : Nat) (s : State) : Out := .next (onLane req [.mordFree] applyFree s)

/-! The mordant write and the release (R352, R354). -/

/-- R352: the bytes of a completed token. -/
def MordSlot.bytes (m : MordSlot) : List Byte :=
  m.acc.flatMap (fun x =>
    natToBytes (mordBytes m.desc.format)
      (encodeFloat (mordFmt m.desc.format) .rne false false (decodeFloat fmtF32 x.toNat)).1)

/-- R354: the first fault that a mordant write meets, with its address. -/
def mordFault? (s : State) (m : MordSlot) : Option (Nat × WalkFault) :=
  let n := mordBytes m.desc.format * m.acc.length
  ((lineRuns (n / 128 + 2) m.desc.dest n).filterMap (fun r =>
    (engineFault? s m.ctx needW r.1).map (fun f => (r.1, f)))).head?

/-- R352: the mordant write at the homes; a number is what its invalidations carry. -/
def mordWrite (m : MordSlot) (uid : Nat) (s : State) : State :=
  let bs := m.bytes
  (cutLines (bs.length / 128 + 2) m.desc.dest bs).foldl (fun t p =>
    match accessIn t m.ctx needW p.1 with
    | .error _ => t
    | .ok l => homeWrite m.ctx p.1 m.die ⟨.store uid, 0, 0⟩ l (lineBytes p.1 p.2) (recallHome p.1 l t)) s

/-- R352: the deferred barrier-state trap of a remote arrival, on group 0 of the target span. -/
def remoteTrap (x : Span) (m : MordSlot) (s : State) : State :=
  let r : TrapRec := { m.maker with kind := .barrierState, group := 0, split := none, lane := none }
  if x.residence = .resident then
    match (groupsOfSpan s x.uid).find? (fun g => g.index == 0) with
    | some g => deferTrap g.gid r s
    | none => stopViaduct m.viaduct r s
  else modSpan x.uid (fun y => { y with savedTraps := y.savedTraps ++ [r] }) s

/-- R352: the remote arrive of a release; none where the target is not yet placed. -/
def remoteArrive (m : MordSlot) (s : State) : Option State :=
  match viaductOf? s m.viaduct with
  | none => some s
  | some v =>
    if v.st = .complete ∨ v.st = .trapped then some s
    else
      match s.spans.find? (fun x => x.viaduct == v.uid && x.lin == m.desc.target) with
      | some x =>
        if x.bars.length ≤ m.desc.relIdx then some (remoteTrap x m s)
        else
          match arriveOn x.uid m.desc.relIdx s with
          | some t => some t
          | none => some (remoteTrap x m s)
      | none =>
        if memNat m.desc.target v.placed then
          some (deferTrap m.gid { m.maker with kind := .barrierState } s)
        else if v.firstSpan ≤ m.desc.target ∧ m.desc.target < v.lastSpan then none
        else some s

/-- R352: a viaduct that has not completed takes a deferred trap of a release. -/
def releaseTrap (m : MordSlot) (s : State) : State :=
  match viaductOf? s m.viaduct with
  | some v => if v.st = .complete then s else deferTrap m.gid m.maker s
  | none => s

/-- R352: an arrival applied, or held until its span is placed. -/
def remoteArriveOrHold (m : MordSlot) (s : State) : State :=
  match remoteArrive m s with
  | some t => t
  | none => { s with fab := { s.fab with arrives := s.fab.arrives ++ [m] } }

/-- R352: the arrivals that were held for a span of a viaduct, applied in the order in which they came. -/
def applyHeldArrives (viaduct lin : Nat) (s : State) : State :=
  let mine := s.fab.arrives.filter (fun m => m.viaduct == viaduct && m.desc.target == lin)
  mine.foldl (fun t m => (remoteArrive m t).getD t)
    { s with fab := { s.fab with arrives := s.fab.arrives.filter (fun m => !(m.viaduct == viaduct && m.desc.target == lin)) } }

/-- R352: the release of a token. -/
def sendRelease (m : MordSlot) (s : State) : State :=
  match m.desc.relKind with
  | 1 =>
    match windowOf? s m.die m.ctx m.desc.relIdx with
    | some _ => raiseTarget m.die m.ctx m.desc.relIdx 1 s
    | none => releaseTrap m s
  | 2 => remoteArriveOrHold m s
  | _ => s

/-- R352, R354: the write of a releasing slot: skipped for a FAIL, held by a fault, or performed. -/
def writeToken (m : MordSlot) (s : State) : State :=
  let u := fresh s
  let wrote (t : State) : State := modSlot m.die m.ctx m.num (fun x => { x with write := u.1, held := false }) t
  if m.fail then wrote u.2
  else
    match mordFault? s m with
    | some f =>
      if m.skip then
        modPool m.die m.ctx (fun p => { p with fails := satUp p.fails })
          (modSlot m.die m.ctx m.num (fun x => { x with fail := true, held := false }) s)
      else if m.held then s
      else
        engineFault (m.tmpl.at_ s 5 f.1 f.2)
          (modSlot m.die m.ctx m.num (fun x => { x with held := true, heldVa := f.1 }) s)
    | none =>
      if (lineRuns (m.bytes.length / 128 + 2) m.desc.dest m.bytes.length).any (fun r => writeWaits s m.ctx r.1) then s
      else wrote (mordWrite m u.1 u.2)

/-- MORDANT_RELEASE (R352): a releasing slot writes its token; once the write is performed at pod scope it sends its
release and is free. -/
def execMordantRelease (slot : Nat) (s : State) : Out :=
  match s.fab.slots[slot]? with
  | none => .next s
  | some m =>
    if m.st ≠ .releasing then .next s
    else if m.write = 0 then .next (writeToken m s)
    else if s.ms.invals.any (fun v => v.writer.cls == WriteClass.store m.write) then .next s
    else .next (freeMordSlot m.die m.ctx m.num (sendRelease m s))

/-! What other packages do (R231 to R237, R352, R356 to R361). -/

/-- R413: the context here of a domain. -/
def ctxOfDomain? (s : State) (dom : Nat) : Option Nat := (s.ten.ctxs.find? (fun c => c.tagdom == dom)).map (fun c => c.num)

/-- R231, R232, R237: another package answers a lane that has gone to it. -/
def answerLane (cmd lane : Nat) (refused : Bool) (data : W64) (s : State) : State :=
  match s.eng.fabs.find? (fun c => c.uid == cmd) with
  | none => s
  | some c =>
    match c.lanes.find? (fun l => l.lane == lane && l.applied && !l.acked) with
    | none => s
    | some l =>
      let t := if refused then refuseLane c l s else s
      match c.kind with
      | .putWin => if localAgent s l.agent then s else ackLane c l t
      | .winAdd => if localAgent s l.agent then s else ackLane c l t
      | .getWin => if localAgent s l.agent then s else giveWord c l (if refused then 0 else lowWord data) t
      | .mordSend => if handleAway s l.data then giveStatus c l (data.toNat % 8) s else s
      | .mordFree => if handleAway s l.data then laneApplied c.uid l.lane true s else s
      | .collRed => s
      | .collBcast => s
      | .winRead => s
      | .mordAlloc => s
      | .mordStat => s
      | .histRead => s

/-- R231, R356: a command of another package reaches this one, with those of its lanes that name an agent here. -/
def takeCommand (ctx : Nat) (c : FabCmd) (s : State) : State :=
  let u := fresh s
  let ls := (c.lanes.filter (fun l => c.kind == .collBcast || localAgent s l.agent)).map (fun l =>
    { l with applied := false, acked := false, held := false, skip := false })
  let ok := c.kind == .putWin || c.kind == .winAdd || c.kind == .getWin || c.kind == .collBcast
  if !ok || ls.isEmpty || localAgent s c.src then s
  else
    { u.2 with eng := { u.2.eng with fabs := u.2.eng.fabs ++
        [{ c with uid := u.1, gid := 0, ctx := ctx, taken := true, pos := 0, cancelled := false, lanes := ls }] } }

/-- R232, R359, R361: a part of a collective's result reaches its destination here; one to an unbound tag is refused, which
its own package is told. -/
def takePart (ctx : Nat) (late : Bool) (p : Partial) (s : State) : State :=
  if (tagOf? s ctx p.tag).isNone || !localAgent s p.agent then s
  else arrivePart late { p with ctx := ctx, gid := 0, first := s.tick, tmpl := { p.tmpl with ctx := ctx } } s

/-- R237, R353: a contribution of another package reaches a slot here. -/
def takeSend (ctx : Nat) (h : W64) (expert : Nat) (xs : List W) (s : State) : State :=
  match handlePool? s ctx h with
  | some (p, num, gen) => (deliver expert p num gen xs s).2
  | none => s

end Sys2Proof.Machine
end

