-- ==== Sys2Proof/Machine/Place.lean ====
section
/-! DEFINITION. Placement: what a span needs, where it may go, the owners' turns, restoring, chunks and stealing,
the start gate, the issue set, release and retirement (R252 to R273, R392 to R399). -/

namespace Sys2Proof.Machine

open Sys2Proof

/-! Needs and capacities. -/

/-- R10: the vector registers a declaration of n gives. -/
def Launch.vcount (l : Launch) : Nat := min 127 (8 * ((l.vregs + 7) / 8))

/-- R253, R254: the groups of a span on core k of those it occupies. -/
def Launch.groupsOn (l : Launch) (k : Nat) : Nat :=
  if l.quadSpan then (l.groupCount + 3 - k) / 4 else l.groupCount

/-- R254: the number of cores a span occupies. -/
def Launch.coreCount (l : Launch) : Nat := if l.quadSpan then 4 else 1

/-- R254: the core store a span needs on core k, its quad store's share included. -/
def Launch.storeOn (l : Launch) (k : Nat) : Nat :=
  l.store * 256 + (if l.quadSpan then min 131072 (l.qstore * 1024 - 131072 * k) else 0)

/-- R254: what a span needs of core k: group slots, register-file bytes, core-store bytes, plane-store units,
tiles and barrier registers. -/
def Launch.needOn (l : Launch) (k : Nat) : List Nat :=
  [l.groupsOn k, l.groupsOn k * l.vcount * 128, l.storeOn k, l.plane, l.acc, if k = 0 then l.bars else 0]

/-- R254: the capacity of a core. -/
def coreCapacity : List Nat := [32, 262144, 131072, 512, 4, 16]

/-- The sums of two lists of amounts, place by place. -/
def addAmounts (xs ys : List Nat) : List Nat := List.zipWith (fun x y => x + y) xs ys

/-- Whether amounts are at most others, place by place. -/
def withinAmounts (xs ys : List Nat) : Bool := (List.zipWith (fun x y => decide (x ≤ y)) xs ys).all id

/-- Whether a span occupies a core. -/
def Span.onCore (x : Span) (die core : Nat) : Bool :=
  x.die == die && x.residence != .saved && x.cores.any (fun c => c.core == core)

/-- R254: what a span that is placed holds of a core until it retires: store, plane store, tiles and barriers. -/
def spanHolds (s : State) (x : Span) (core : Nat) : List Nat :=
  match viaductOf? s x.viaduct with
  | none => [0, 0, 0, 0, 0, 0]
  | some v => [0, 0] ++ (v.launch.needOn (core - x.core0)).drop 2

/-- R211, R254: what the groups and spans on a core hold, counting only the spans that a test keeps. -/
def coreHeld (s : State) (keep : Span → Bool) (die core : Nat) : List Nat :=
  let xs := s.spans.filter (fun x => x.onCore die core && keep x)
  let gs := (allGroups s).filter (fun g => g.die == die && g.core == core && !g.released && g.residence != .saved &&
    xs.any (fun x => x.uid == g.span))
  let own := [gs.length, (gs.map (fun g => g.nregs * 128)).sum, 0, 0, 0, 0]
  xs.foldl (fun a x => addAmounts a (spanHolds s x core)) own

/-- R256: whether a span's needs can be met on the cores from core0 on, beside the spans that a test keeps. -/
def needsMet (s : State) (keep : Span → Bool) (l : Launch) (die core0 : Nat) : Bool :=
  (List.range l.coreCount).all (fun k =>
    withinAmounts (addAmounts (l.needOn k) (coreHeld s keep die (core0 + k))) coreCapacity)

/-! Reach (R257, R393, R403). -/

/-- The key of a logical quad. -/
def quadKey (die quad : Nat) : Nat := die * 256 + quad

/-- R480: whether a quad is enabled. -/
def quadEnabled (s : State) (die quad : Nat) : Bool := !(s.dev.disabledQuads.any (fun q => q.1 == die && q.2 == quad))

/-- R403: the lend entry of a quad under which an owner may borrow it. -/
def lendOf? (s : State) (owner die quad : Nat) : Option Lend :=
  s.ten.lends.find? (fun l => l.die == die && l.quad == quad && l.owner != owner && (l.any || l.borrower == owner))

/-- R393: whether a context of an owner and a partition may place spans on a quad. -/
def inReach (s : State) (owner part die quad : Nat) : Bool :=
  let e := mapGet 0 s.ten.partMap (quadKey die quad)
  quadEnabled s die quad && bitsOf e 3 0 == part &&
    (!bitOf e 12 || bitsOf e 11 4 == owner || (lendOf? s owner die quad).isSome)

/-- R259: the dies on which a partition holds at least one quad. -/
def partDies (s : State) (part : Nat) : List Nat :=
  (List.range 4).filter (fun d => (List.range 256).any (fun q =>
    quadEnabled s d q && bitsOf (mapGet 0 s.ten.partMap (quadKey d q)) 3 0 == part))

/-- R254: the first cores of the places of a die for spans of a launch. -/
def Launch.places (l : Launch) : List Nat :=
  if l.quadSpan then (List.range 256).map (fun q => 4 * q) else List.range 1024

/-- R454: the logical quads on which a context has spans. -/
def quadsOf (s : State) (ctx : Nat) : List (Nat × Nat) :=
  ((s.spans.filter (fun x => x.ctx == ctx && x.residence != .saved)).map (fun x => (x.die, x.core0 / 4))).eraseDups

/-- R257, R454: the quad grant of a context's loop: a new quad only while the quads with its spans are fewer. -/
def quadGranted (s : State) (c : Context) (die quad : Nat) : Bool :=
  let n := nthD 0 c.loop.grant 1
  let qs := quadsOf s c.num
  n == 0 || qs.any (fun q => q.1 == die && q.2 == quad) || decide (qs.length < n)

/-- R400: whether a pre-emption covers a core. -/
def Preempt.covers (p : Preempt) (die core : Nat) : Bool :=
  p.die == die && (if p.isQuad then p.core / 4 == core / 4 else p.core == core)

/-- R400: whether a pre-emption keeps an owner off the cores of a place. -/
def preemptBlocks (s : State) (l : Launch) (owner die core0 : Nat) : Bool :=
  s.ten.preempts.any (fun p => p.beneficiary != some owner &&
    (List.range l.coreCount).any (fun k => p.covers die (core0 + k)))

/-- R257: whether a span of a context's launch may go to a place now. -/
def placeFits (s : State) (c : Context) (l : Launch) (die core0 : Nat) : Bool :=
  inReach s c.owner c.part die (core0 / 4) && quadGranted s c die (core0 / 4) &&
    !preemptBlocks s l c.owner die core0 && needsMet s (fun _ => true) l die core0

/-- R257: the lowest-numbered place of a die where a span fits. -/
def fitPlace? (s : State) (c : Context) (l : Launch) (die : Nat) : Option Nat :=
  l.places.find? (fun p => placeFits s c l die p)

/-- R394: whether a context is resident, or may become so beside the others: at most 256 are. -/
def residentAllows (s : State) (ctx : Nat) : Bool :=
  let placed := (s.spans.filter (fun x => x.residence != .saved)).map (fun x => x.ctx)
  memNat ctx placed || decide (placed.eraseDups.length < 256)

/-- R394, R395: the limits of a context's local slots, span slots and of resident contexts. -/
def limitsAllow (s : State) (c : Context) (spans groups : Nat) : Bool :=
  let live := ((allGroups s).filter (fun g => g.ctx == c.num && !g.released)).length
  let have_ := (s.spans.filter (fun x => x.ctx == c.num)).length
  decide (live + groups ≤ c.lslots) && decide (have_ + spans ≤ c.sslots) && residentAllows s c.num

/-! Acceptance (R255, R261). -/

/-- R255: whether an empty core meets a span's needs. -/
def emptyCoreMeets (l : Launch) : Bool :=
  (List.range l.coreCount).all (fun k => withinAmounts (l.needOn k) coreCapacity)

/-- How many times an amount goes into a capacity; none of a resource not needed. -/
def timesInto (need cap : Nat) : Nat := if need = 0 then cap + 1 else cap / need

/-- R261: how many spans an empty place takes. -/
def spansPerPlace (l : Launch) : Nat :=
  (List.range l.coreCount).foldl (fun m k =>
    (List.zipWith timesInto (l.needOn k) coreCapacity).foldl min m) 131072

/-- R261: how many spans of a launch the empty cores of a die take within a context's reach. -/
def dieTakes (s : State) (c : Context) (l : Launch) (die : Nat) : Nat :=
  spansPerPlace l * (l.places.filter (fun p => inReach s c.owner c.part die (p / 4))).length

/-- R259, R261: the die that the chunk of a span of a viaduct is given to. -/
def spanDie (v : Viaduct) (n : Nat) : Nat :=
  ((v.chunks.find? (fun k => k.idx == (n - v.firstSpan) / 64)).map (fun k => k.die)).getD 0

/-- R259, R261: the dies to which spans go one after another while each die has room for so many: to the die of its chunk,
or, where it has no room, to the first that has. -/
def spreadOver (v : Viaduct) : List Nat → List (Nat × Nat) → List Nat
  | [], _ => []
  | n :: ns, room =>
    let mine := room.find? (fun r => r.1 == spanDie v n && r.2 != 0)
    match mine.or (room.find? (fun r => r.2 != 0)) with
    | none => []
    | some r => r.1 :: spreadOver v ns (updateFirst (fun x => x.1 == r.1) (fun x => (x.1, x.2 - 1)) room)

/-- The linear indices of the spans of a viaduct. -/
def spanIndices (v : Viaduct) : List Nat := (List.range (v.lastSpan - v.firstSpan)).map (fun i => v.firstSpan + i)

/-- R261: the dies on which spans of a cooperative viaduct would be placed in an empty partition. -/
def coopDies (s : State) (c : Context) (v : Viaduct) : List Nat :=
  (spreadOver v (spanIndices v) ((partDies s c.part).map (fun d => (d, dieTakes s c v.launch d)))).eraseDups

/-- R261: whether n cooperative spans fit together in the context's partition if it is empty. -/
def coopFitsEmpty (s : State) (c : Context) (l : Launch) (n : Nat) : Bool :=
  decide (n ≤ ((partDies s c.part).map (dieTakes s c l)).sum)

/-- R255, R261, R382: whether a part of n spans of a launch of a context is placeable. -/
def placeable (s : State) (c : Context) (l : Launch) (n : Nat) : Bool :=
  let dies := partDies s c.part
  emptyCoreMeets l && decide (l.groupCount ≤ c.lslots) && !dies.isEmpty &&
    (!l.coop || (decide (n * l.groupCount ≤ c.lslots) && decide (n ≤ c.sslots) && coopFitsEmpty s c l n))

/-! Placing a span (R9, R256). -/

/-- R29: the seed of a lane's random state. -/
def rngSeed (seed vid : W) (lin groups group lane : Nat) : W :=
  let strand := BitVec.ofNat 32 (lin * groups * 32 + group * 32 + lane)
  let x := seed ^^^ (vid * 0x9E3779B9) ^^^ (strand * 0x85EBCA6B)
  if x = 0 then 1 else x

/-- R253: the existing-strand mask of a group. -/
def Launch.existMask (l : Launch) (g : Nat) : W := maskOf (fun i => decide (32 * g + i < l.sx * l.sy * l.sz))

/-- The least number that is not in a list. -/
def leastFree (xs : List Nat) : Nat := ((List.range (xs.length + 1)).find? (fun n => !memNat n xs)).getD 0

/-- The lowest free group slot of a core. -/
def freeGslot (s : State) (die core : Nat) : Nat :=
  leastFree (((allGroups s).filter (fun g => g.die == die && g.core == core && !g.released &&
    g.residence != .saved)).map (fun g => g.gslot))

/-- R275: the lowest free local slot of a context. -/
def freeLslot (s : State) (ctx : Nat) : Nat :=
  leastFree (((allGroups s).filter (fun g => g.ctx == ctx && !g.released)).map (fun g => g.lslot))

/-- R9, R256: group k of a span at its start values. -/
def placeGroup (v : Viaduct) (c : Context) (x : Span) (k : Nat) (s : State) : State :=
  let l := v.launch
  let core := x.core0 + (if l.quadSpan then k % 4 else 0)
  let u := fresh s
  let rng := laneList.map (fun i => (i, rngSeed c.seed l.vid x.lin l.groupCount k i))
  let fm := l.fmode &&& 31
  let g : Group := { Group.idle with
    gid := u.1, span := x.uid, viaduct := v.uid, ctx := c.num, index := k, die := x.die, core := core,
    gslot := freeGslot s x.die core, lslot := freeLslot s c.num, nregs := l.vcount, exist := l.existMask k,
    rng := rng, fmode := fm, splits := [Split.initial (l.existMask k) l.entry fm rng], lastSplit := 3,
    stamp := coreClk s x.die core, issuedFirst := false, exited := false, released := false, stopped := false }
  { u.2 with groups := insertGroup g u.2.groups }

/-- R256: the part of a new span on core k of its cores. -/
def newSpanCore (l : Launch) (core0 k : Nat) : SpanCore :=
  { core := core0 + k, store := [], quad := [], storePoison := [], quadPoison := [],
    tiles := List.replicate l.acc Tile.zero, resv := [] }

/-- R394: the state of a context as its spans stand: restoring from the restore of its first saved span to that of its
last, which R394 does not say (log entry 108). -/
def contextState (s : State) (n : Nat) : Nat :=
  let xs := s.spans.filter (fun x => x.ctx == n)
  if xs.any (fun x => x.evicting) then 2
  else if xs.any (fun x => x.residence == .saved) && xs.any (fun x => x.residence == .resident && x.restored) then 4
  else if xs.any (fun x => x.residence == .resident) then 1
  else if xs ≠ [] then 3 else 0

/-- R394: the state field of a context brought up to date. -/
def refreshCtx (n : Nat) (s : State) : State := modCtx n (fun c => { c with state := contextState s n }) s

/-- R402: a starvation pre-emption ends when its beneficiary's span is placed on what it covers. -/
def endPreempts (owner die core0 n : Nat) (s : State) : State :=
  { s with ten := { s.ten with preempts := s.ten.preempts.filter (fun p =>
      !(!p.isRecall && p.beneficiary == some owner && (List.range n).any (fun k => p.covers die (core0 + k)))) } }

/-- R397, R398: an owner's span of n groups goes to a die: its groups are charged, its level there returns to 0, and its
wait is counted anew. -/
def chargeOwner (owner die n : Nat) (s : State) : State :=
  modOwner owner (fun o =>
    { o with levels := o.levels.set die 0, waits := o.waits.set die (clkOf s die + 1),
             deficits := o.deficits.set die (nthD 0 o.deficits die - (n : Int)) }) s

/-- R256, R397, R398: THE PLACEMENT of the span of a viaduct with a linear index: all its needs are taken in one
step, its groups are ready, its owner is charged and its level there returns to 0. Its cores hold no line of L1, so that
it sees what a WAIT before it has acquired (R384; log entry 107). -/
def placeSpan (v : Viaduct) (c : Context) (lin die core0 : Nat) (s : State) : State :=
  let l := v.launch
  let u := fresh s
  let x : Span :=
    { uid := u.1, viaduct := v.uid, ctx := c.num, lin := lin, die := die, core0 := core0, isQuad := l.quadSpan,
      groups := l.groupCount, bars := List.replicate l.bars Barrier.zero,
      cores := (List.range l.coreCount).map (newSpanCore l core0), gateOpen := false, residence := .resident,
      evicting := false, restored := false, evictOrder := 0, slot := none, savedTraps := [] }
  let t := { u.2 with spans := u.2.spans ++ [x] }
  let t := applyHeldArrives v.uid lin ((List.range l.groupCount).foldl (fun w k => placeGroup v c x k w) t)
  let t := modViaduct v.uid (fun y => { y with placed := y.placed ++ [lin] }) t
  let t := chargeOwner c.owner die l.groupCount t
  let t := (List.range l.coreCount).foldl (fun w k => l1Invalidate die (core0 + k) w) t
  refreshCtx c.num (endPreempts c.owner die core0 l.coreCount t)

/-! Shares (R258, R259). -/

/-- R259: the spans of a chunk that are not placed, in ascending linear index. -/
def unplacedOf (v : Viaduct) (k : Chunk) : List Nat :=
  ((List.range 64).map (fun i => v.firstSpan + 64 * k.idx + i)).filter
    (fun n => decide (n < v.lastSpan) && !memNat n v.placed)

/-- R258: the next span that a die's distributor places of a viaduct. -/
def nextLin? (v : Viaduct) (die : Nat) : Option Nat :=
  (v.chunks.filter (fun k => k.die == die)).findSome? (fun k => (unplacedOf v k).head?)

/-- R259: the chunks of a part of n spans over the dies of a partition. -/
def dealChunks (dies : List Nat) (n : Nat) : List Chunk :=
  (List.range ((n + 63) / 64)).map (fun i => ⟨i, nthD 0 dies (i % max 1 dies.length)⟩)

/-- R276: whether an evicted span of a context waits to be restored. -/
def hasSaved (s : State) (ctx : Nat) : Bool := s.spans.any (fun x => x.ctx == ctx && x.residence == .saved)

/-- R261: whether a cooperative viaduct waits to be placed. -/
def coopWaits (v : Viaduct) : Bool := v.launch.coop && v.st == .started && v.placed == []

/-- R261: whether an earlier cooperative viaduct of the same owner waits to fit. -/
def coopAhead (s : State) (v : Viaduct) : Bool :=
  (s.viaducts.takeWhile (fun w => w.uid != v.uid)).any (fun w => coopWaits w && w.owner == v.owner)

/-- R397: whether a viaduct has a span that a die's distributor could place but for room. -/
def viaductWaits (s : State) (die : Nat) (v : Viaduct) : Bool :=
  v.st == .started && !v.launch.coop && (nextLin? v die).isSome && !hasSaved s v.ctx && !coopAhead s v &&
    ((ctxOf? s v.ctx).map (fun c => limitsAllow s c 1 v.launch.groupCount)).getD false

/-! Saved spans (R276, R331, R396). -/

/-- R331: whether a saved group could go on: a split of it is not blocked in a wait on slots. -/
def groupWants (g : Group) : Bool :=
  !g.exited && (g.deferred != [] || g.splits.any (fun p =>
    match p.pend with
    | .slotWait _ _ _ :: _ => false
    | _ => true))

/-- R331, R396: whether the saved spans of a span's context are to be restored, in their order: the context is runnable,
or a group of one of them could go on. -/
def spanWants (s : State) (x : Span) : Bool :=
  ((ctxOf? s x.ctx).map (fun c => c.runnable)).getD false ||
    (s.spans.filter (fun y => y.ctx == x.ctx && y.residence == .saved)).any (fun y => y.savedTraps != [] ||
      (groupsOfSpan s y.uid).any groupWants || (groupsOfSpan s y.uid).all (fun g => g.exited))

/-- Whether a viaduct of a number is cooperative. -/
def coopViaduct (s : State) (n : Nat) : Bool := ((viaductOf? s n).map (fun v => v.launch.coop)).getD false

/-- A span put among others in the order of their eviction. -/
def insertEvicted (x : Span) : List Span → List Span
  | [] => [x]
  | y :: ys => if x.evictOrder < y.evictOrder then x :: y :: ys else y :: insertEvicted x ys

/-- R396: the saved spans of a die in eviction order. -/
def savedSpans (s : State) (die : Nat) : List Span :=
  (s.spans.filter (fun x => x.die == die && x.residence == .saved)).foldl (fun acc x => insertEvicted x acc) []

/-- R396: whether a saved span is the next of its context: none was evicted before it, but for the spans of its own
cooperative viaduct, which is restored whole. -/
def firstSaved (s : State) (x : Span) : Bool :=
  s.spans.all (fun y => !(y.ctx == x.ctx && y.residence == .saved && decide (y.evictOrder < x.evictOrder) &&
    !(coopViaduct s x.viaduct && y.viaduct == x.viaduct)))

/-- R396: the place a saved span returns to: the one it left if it fits, otherwise the lowest that fits. -/
def restorePlace? (s : State) (x : Span) : Option Nat :=
  match viaductOf? s x.viaduct, ctxOf? s x.ctx with
  | some v, some c =>
    if placeFits s c v.launch x.die x.core0 then some x.core0 else fitPlace? s c v.launch x.die
  | _, _ => none

/-! The owners' turns (R397). -/

/-- What a distributor does next for an owner: restore a span, or place the next span of a viaduct. -/
inductive Work
  | restore (span : Nat) (place groups : Nat)
  | place (viaduct lin place groups : Nat)
  deriving DecidableEq, Repr

/-- R397: the groups that a work charges. -/
def Work.cost : Work → Nat
  | .restore _ _ n => n
  | .place _ _ _ n => n

/-- R396, R397: the saved span of an owner that a die restores next. -/
def restoreWork? (s : State) (die owner : Nat) : Option Work :=
  (savedSpans s die).findSome? (fun x =>
    let mine := ((ctxOf? s x.ctx).map (fun c => c.owner == owner)).getD false
    if mine && !coopViaduct s x.viaduct && firstSaved s x && spanWants s x && residentAllows s x.ctx then
      (restorePlace? s x).map (fun p => .restore x.uid p x.groups)
    else none)

/-- R397: the next span of an owner's viaducts, in the order of their start, that fits on a die. -/
def placeWork? (s : State) (die owner : Nat) : Option Work :=
  (s.viaducts.filter (fun v => v.owner == owner && viaductWaits s die v)).findSome? (fun v =>
    match ctxOf? s v.ctx, nextLin? v die with
    | some c, some n => (fitPlace? s c v.launch die).map (fun p => .place v.uid n p v.launch.groupCount)
    | _, _ => none)

/-- R397: what a distributor would do next for an owner. -/
def ownerWork? (s : State) (die owner : Nat) : Option Work := (restoreWork? s die owner).or (placeWork? s die owner)

/-- The owners of started viaducts, in ascending order. -/
def activeOwners (s : State) : List Nat :=
  ((s.viaducts.filter (fun v => v.st != .complete)).map (fun v => v.owner)).foldl
    (fun acc n => if memNat n acc then acc else (acc.filter (fun m => decide (m < n))) ++ [n] ++ (acc.filter (fun m => decide (n < m)))) []

/-- R397: the owners with placeable work on a die, at the highest level among them. -/
def turnOwners (s : State) (die : Nat) : List (Nat × Work) :=
  let all := (activeOwners s).filterMap (fun o => (ownerWork? s die o).map (fun w => (o, w)))
  let lv (o : Nat) : Nat := nthD 0 (ownerRec s o).levels die
  let top := (all.map (fun p => lv p.1)).foldl max 0
  all.filter (fun p => lv p.1 == top)

/-- R397: an owner with no placeable span left keeps no positive deficit; the others keep theirs. -/
def dropDeficits (die : Nat) (keep : List Nat) (s : State) : State :=
  { s with ten := { s.ten with owners := s.ten.owners.map (fun o =>
      if memNat o.num keep then o else { o with deficits := o.deficits.set die (min 0 (nthD 0 o.deficits die)) }) } }

/-- The first pair of an owner list at or after an owner, in cyclic order. -/
def fromOwner? (n : Nat) (ps : List (Nat × Work)) : Option (Nat × Work) :=
  (ps.find? (fun p => decide (n ≤ p.1))).or ps.head?

/-- A die's turn pointer: 2 times the owner, plus 1 while its turn lasts. -/
def setPointer (die n : Nat) (s : State) : State :=
  { s with ten := { s.ten with pointers := s.ten.pointers.set die n } }

/-- R397: the turns of a die, continued until an owner's deficit covers its next span: that work, and the state
with the turns' deficits. -/
def takeTurns (die : Nat) (ps : List (Nat × Work)) : Nat → State → Option (Nat × Work) × State
  | 0, s => (none, s)
  | n + 1, s =>
    let ptr := nthD 0 s.ten.pointers die
    let cur := ps.find? (fun p => p.1 == ptr / 2)
    match (if ptr % 2 = 1 then cur else none) with
    | some p =>
      if ((p.2.cost : Int) ≤ nthD 0 (ownerRec s p.1).deficits die) then (some p, s)
      else takeTurns die ps n (setPointer die (2 * ((p.1 + 1) % 256)) s)
    | none =>
      match fromOwner? (if ptr % 2 = 1 then ptr / 2 + 1 else ptr / 2) ps with
      | none => (none, s)
      | some p =>
        let t := modOwner p.1 (fun o =>
          { o with deficits := o.deficits.set die (nthD 0 o.deficits die + (o.weight * 32 : Nat)) }) s
        takeTurns die ps n (setPointer die (2 * p.1 + 1) t)

/-- R397: the next work of a die and its owner, with the turns taken. -/
def nextWork (die : Nat) (s : State) : Option (Nat × Work) × State :=
  let ps := turnOwners s die
  let t := dropDeficits die ((activeOwners s).filter (fun o => (ownerWork? s die o).isSome)) s
  if ps = [] then (none, t) else takeTurns die ps 1024 t

/-! Cooperative viaducts (R261). -/

/-- R257, R259, R261: the first place where a span of a cooperative viaduct fits: on the die of its chunk, or else die after
die of the partition (DEDUCED, log entry 109). -/
def firstFit? (s : State) (c : Context) (v : Viaduct) (n : Nat) : Option (Nat × Nat) :=
  (spanDie v n :: partDies s c.part).findSome? (fun d => (fitPlace? s c v.launch d).map (fun p => (d, p)))

/-- R261: the spans of a cooperative viaduct placed one after another, first-fit, none if one does not fit. -/
def placeCoop (v : Viaduct) (c : Context) : List Nat → State → Option State
  | [], s => some s
  | n :: ns, s =>
    match firstFit? s c v n with
    | none => none
    | some (die, p) => placeCoop v c ns (placeSpan v c n die p s)

/-- R261, R276: a waiting cooperative viaduct whole, if its whole reservation fits now. -/
def tryCoop (v : Viaduct) (s : State) : Option State :=
  match ctxOf? s v.ctx with
  | none => none
  | some c =>
    let n := v.lastSpan - v.firstSpan
    if hasSaved s v.ctx || coopAhead s v || !limitsAllow s c n (n * v.launch.groupCount) then none
    else
      (placeCoop v c (spanIndices v) s).map (fun t =>
        modViaduct v.uid (fun y => { y with readyTick := max y.readyTick t.tick }) t)

/-- R261: the first waiting cooperative viaduct that fits, placed. -/
def coopPlacement? (s : State) : Option State := (s.viaducts.filter coopWaits).findSome? (fun v => tryCoop v s)

/-! Waiting owners (R398). -/

/-- R398: whether a span of a launch would fit on an empty place within an owner's reach on a die. -/
def fitsEmptyReach (s : State) (c : Context) (l : Launch) (die : Nat) : Bool :=
  emptyCoreMeets l && l.places.any (fun p => inReach s c.owner c.part die (p / 4))

/-- R261: whether one of the spans of a waiting cooperative viaduct would be placed on a die. -/
def coopOn (s : State) (die : Nat) (v : Viaduct) : Bool :=
  coopWaits v && ((ctxOf? s v.ctx).map (fun c =>
    memNat die (coopDies s c v))).getD false

/-- R261, R397, R398: the contexts and launches with which an owner waits on a die, saved spans first. -/
def waitingWork (s : State) (die owner : Nat) : List (Context × Launch) :=
  let fresh_ := s.viaducts.filter (fun v => v.owner == owner && (viaductWaits s die v || coopOn s die v))
  let saved := (savedSpans s die).filter (fun x => spanWants s x &&
    ((ctxOf? s x.ctx).map (fun c => c.owner == owner)).getD false)
  let vs := (saved.filterMap (fun x => viaductOf? s x.viaduct)) ++ fresh_
  (vs.filterMap (fun v => (ctxOf? s v.ctx).map (fun c => (c, v.launch)))).filter
    (fun w => fitsEmptyReach s w.1 w.2 die)

/-- R398: whether an owner waits on a die. -/
def ownerWaits (s : State) (die owner : Nat) : Bool := waitingWork s die owner != []

/-! Recall on demand (R404). -/

/-- R404: what a lender's waiting span would find on a lent quad if the borrowers' spans were gone. -/
def fitsWithoutBorrowers (s : State) (lender : Nat) (l : Launch) (die quad : Nat) : Bool :=
  let keep (x : Span) : Bool := ((ctxOf? s x.ctx).map (fun c => c.owner == lender)).getD false
  if l.quadSpan then needsMet s keep l die (4 * quad)
  else (List.range 4).any (fun k => needsMet s keep l die (4 * quad + k))

/-- R404: the groups of borrowers on a quad. -/
def borrowerGroups (s : State) (lender die quad : Nat) : Nat :=
  ((allGroups s).filter (fun g => g.die == die && g.core / 4 == quad && !g.released && g.residence != .saved &&
    ((ctxOf? s g.ctx).map (fun c => c.owner != lender)).getD false)).length

/-- R403, R404: the lent quad that a waiting span of a lender recalls: one in the reach and the grant of its context. -/
def recallTarget? (s : State) (c : Context) (h : Launch) (die : Nat) : Option Lend :=
  let ls := s.ten.lends.filter (fun l => l.owner == c.owner && l.auto && l.die == die &&
    inReach s c.owner c.part die l.quad && quadGranted s c die l.quad &&
    decide (0 < borrowerGroups s c.owner die l.quad) && fitsWithoutBorrowers s c.owner h die l.quad)
  let least := (ls.map (fun l => borrowerGroups s c.owner die l.quad)).foldl min 131072
  let best := ls.filter (fun l => borrowerGroups s c.owner die l.quad == least)
  best.find? (fun l => best.all (fun m => decide (l.quad ≤ m.quad)))

/-- R400, R404: a recall starts: its entry is cleared and a pre-emption for the lender begins. -/
def startRecall (l : Lend) (s : State) : State :=
  let u := fresh s
  let p : Preempt := { uid := u.1, die := l.die, core := 4 * l.quad, isQuad := true, beneficiary := some l.owner,
                       isRecall := true, start := s.tick, deadline := (ownerRec s l.owner).recallTicks, evicted := false,
                       only := none }
  { u.2 with ten := { u.2.ten with
      lends := u.2.ten.lends.filter (fun m => !(m.die == l.die && m.quad == l.quad)),
      preempts := u.2.ten.preempts ++ [p] } }

/-- R404: the recall that a lender's waiting span calls for on a die where it fits nowhere; a cooperative viaduct that
waits fits nowhere as a whole. -/
def demandRecall? (s : State) (die : Nat) : Option Lend :=
  ((activeOwners s).flatMap (waitingWork s die)).findSome? (fun w =>
    if (fitPlace? s w.1 w.2 die).isSome && !w.2.coop then none else recallTarget? s w.1 w.2 die)

/-- R400: whether a span stands on what a pre-emption covers and is not its beneficiary's. -/
def Preempt.victim (s : State) (p : Preempt) (x : Span) : Bool :=
  x.residence != .saved && x.cores.any (fun c => p.covers x.die c.core) &&
    (p.only == none || p.only == some x.ctx) &&
    ((ctxOf? s x.ctx).map (fun c => some c.owner != p.beneficiary)).getD true

/-- R400, R402: whether a pre-emption goes on: a victim is left, or the starved owner still waits there. -/
def Preempt.lives (s : State) (p : Preempt) : Bool :=
  s.spans.any (p.victim s) || (!p.isRecall && p.only == none &&
    match p.beneficiary with
    | some o => ownerWaits s p.die o
    | none => !p.evicted)

/-- R402, R404: pre-emptions that are over end. -/
def dropPreempts (s : State) : State :=
  { s with ten := { s.ten with preempts := s.ten.preempts.filter (Preempt.lives s) } }

/-- SPAN_PLACE (R256, R257, R261, R397, R404): the distributor of a die places the next span, all or nothing; a
cooperative viaduct goes whole at the first moment it fits; where nothing fits, a lender's demand recalls a lent
quad. -/
def execSpanPlace (die : Nat) (s : State) : Out :=
  if s.dev.stage ≠ 4 then .next s
  else
    match coopPlacement? s with
    | some t => .next t
    | none =>
      let p := nextWork die (dropPreempts s)
      match p.1 with
      | some (_, .place n lin place _) =>
        match viaductOf? s n with
        | none => .next s
        | some v =>
          match ctxOf? s v.ctx with
          | none => .next s
          | some c => .next (placeSpan v c lin die place p.2)
      | some (_, .restore _ _ _) => .next s
      | none =>
        match demandRecall? s die with
        | some l => .next (startRecall l s)
        | none => .next p.2

/-! Restoring (R23, R396, R401). -/

/-- R23, R331, R396: a group of a span restored on the span's new cores: registers above the live count read as
zero, and splits that wait remember that they were restored. -/
def restoreGroup (oldCore newCore : Nat) (gid : Nat) (s : State) : State :=
  match groupOf? s gid with
  | none => s
  | some g =>
    let core := g.core - oldCore + newCore
    let slot := freeGslot s g.die core
    let mark (p : Split) : Split :=
      { p with restored := match p.pend with
          | .slotWait _ _ _ :: _ => true
          | _ => p.restored }
    let move (q : Nat × Pending) : Nat × Pending :=
      match q.2 with
      | .block c h i a b => (q.1, .block (c - oldCore + newCore) h i a b)
      | .tileRow c t r a b => (q.1, .tileRow (c - oldCore + newCore) t r a b)
      | .histogram t b => (q.1, .histogram t b)
    modGroup gid (fun x =>
      { x with core := core, gslot := if x.released then x.gslot else slot, residence := .resident, stamp := coreClk s g.die core,
               regs := x.regs.filter (fun r => decide (r.1 < 32 * x.live)),
               regPoison := x.regPoison.filter (fun n => decide (n < 32 * x.live)), splits := x.splits.map mark,
               pendings := x.pendings.map move }) s

/-- R401: whether a copy reads or writes the stores of a span. -/
def copySpans (c : Copy) (u : Nat) : Bool := c.span == u || c.receivers.any (fun r => r.1 == u)

/-- R396, R401: THE RESTORE of a saved span at a place: its groups, its engine work, and the traps that waited. -/
def restoreSpan (u place : Nat) (s : State) : State :=
  match spanOf? s u with
  | none => s
  | some x =>
    let t := modSpan u (fun y =>
      { y with core0 := place, residence := .resident, evicting := false, restored := true, slot := none, savedTraps := [],
               cores := y.cores.map (fun c => { c with core := c.core - x.core0 + place }) }) s
    let gs := groupsOfSpan s u
    let t := gs.foldl (fun w g => restoreGroup x.core0 place g.gid w) t
    let t := { t with eng := { t.eng with
      copies := updateAll (fun c => c.suspended && copySpans c u && (c.span :: c.receivers.map (fun r => r.1)).all
          (fun n => ((spanOf? t n).map (fun y => y.residence != .saved)).getD true))
        (fun c => { c with suspended := false }) t.eng.copies,
      tiles := updateAll (fun c => c.span == u)
        (fun c => { c with suspended := false, core := c.core - x.core0 + place }) t.eng.tiles } }
    let t := gs.foldl (fun w g => evalMonitor g.gid w) t
    let t := x.savedTraps.foldl (fun w r =>
      match gs.head? with
      | some g => deferTrap g.gid r w
      | none => stopViaduct r.viaduct r w) t
    let t := refreshCtx x.ctx t
    modCtx x.ctx (fun c => { c with runnable := c.runnable && hasSaved t x.ctx }) t

/-- R396 to R398, R402: a saved span restored at a place, with what a placement does for its owner. -/
def restoreFor (owner : Nat) (x : Span) (place : Nat) (s : State) : State :=
  chargeOwner owner x.die x.groups (endPreempts owner x.die place (if x.isQuad then 4 else 1) (restoreSpan x.uid place s))

/-- R261, R396: the saved spans of a cooperative viaduct restored one after another, none if one does not fit. -/
def restoreCoop : List Span → State → Option State
  | [], s => some s
  | x :: xs, s =>
    match restorePlace? s x, ctxOf? s x.ctx with
    | some p, some c => restoreCoop xs (restoreFor c.owner x p s)
    | _, _ => none

/-- SPAN_RESTORE (R276, R396): a saved span returns to its die when its turn comes; a cooperative viaduct returns
whole. -/
def execSpanRestore (span : Nat) (s : State) : Out :=
  match spanOf? s span with
  | none => .next s
  | some x =>
    if x.residence ≠ .saved then .next s
    else if coopViaduct s x.viaduct then
      let xs := s.spans.filter (fun y => y.viaduct == x.viaduct)
      if xs.all (fun y => y.residence == .saved && firstSaved s y) && spanWants s x && residentAllows s x.ctx then
        match restoreCoop xs (dropPreempts s) with
        | some t => .next t
        | none => .next s
      else .next s
    else
      let p := nextWork x.die (dropPreempts s)
      match p.1 with
      | some (o, .restore u place _) => if u = span then .next (restoreFor o x place p.2) else .next s
      | _ => .next s

/-! The start gate, the issue set, release and retirement. -/

/-- START_GATE_OPEN (R264): every group of a span has issued its first clause. -/
def execStartGateOpen (span : Nat) (s : State) : Out :=
  if (groupsOfSpan s span).all (fun g => g.issuedFirst || g.exited) then
    .next (modSpan span (fun x => { x with gateOpen := true }) s)
  else .next s

/-- ISSUE_SET_ROTATE (R267): the pointer of a context's issue set on a core advances by the grant, once for every 2048
clk of the die that have passed; rotated holds how many it has advanced for. -/
def execIssueSetRotate (die core ctx : Nat) (s : State) : Out :=
  let r := (residentOn s ctx die core).length
  let n := slotGrant s ctx die core
  let key := rotationKey ctx die core
  let past := mapGet 0 s.ten.rotated key
  let now := clkOf s die / 2048
  if now ≤ past then .next s
  else
    let p := mapGet 0 s.ten.rotation key
    let q := if r ≤ n then p else (p + n * (now - past)) % r
    .next { s with ten := { s.ten with rotation := mapSet 0 s.ten.rotation key q,
                                       rotated := mapSet 0 s.ten.rotated key now } }

/-- GROUP_RESOURCE_RELEASE (R211): an exited group with nothing outstanding gives up its slot, its registers and
its local slot. -/
def execGroupResourceRelease (gid : Nat) (s : State) : Out :=
  match groupOf? s gid with
  | none => .next s
  | some g =>
    if g.exited && !g.released && !groupWork s g && g.deferred == [] then
      .next (modGroup gid (fun x => { x with released := true }) s)
    else .next s

/-- R270: whether a span may retire. -/
def mayRetire (s : State) (x : Span) : Bool :=
  let trapped := ((viaductOf? s x.viaduct).map (fun v => v.st == .trapped)).getD false
  !spanBusy s x.uid && (trapped ||
    ((groupsOfSpan s x.uid).all (fun g => g.exited && g.deferred == []) && x.savedTraps == []))

/-- SPAN_RETIRE (R270, R271): a span whose groups have exited and whose work is complete retires, and with the
last span the viaduct completes. -/
def execSpanRetire (span : Nat) (s : State) : Out :=
  match spanOf? s span with
  | none => .next s
  | some x =>
    if mayRetire s x then .next (refreshCtx x.ctx (settleViaduct x.viaduct (retireSpan span s))) else .next s

/-! Stealing (R260). -/

/-- R260: the dies a thief asks, in order. -/
def askOrder (s : State) (part thief : Nat) : List Nat :=
  let ds := partDies s part
  (ds.filter (fun d => decide (thief < d))) ++ (ds.filter (fun d => decide (d < thief)))

/-- R260: the refusals a thief has counted, with 8 added while a refusal is on its way. -/
def askedCount (v : Viaduct) (thief : Nat) : Nat := ((v.asked.find? (fun a => a.1 == thief)).map (fun a => a.2)).getD 0

/-- R260: the count of a thief set. -/
def setAsked (thief n : Nat) (v : Viaduct) : Viaduct :=
  { v with asked := v.asked.filter (fun a => a.1 != thief) ++ (if n = 0 then [] else [(thief, n)]) }

/-- R260: whether no span of a chunk has been placed. -/
def unstarted (v : Viaduct) (k : Chunk) : Bool :=
  (List.range 64).all (fun i => !memNat (v.firstSpan + 64 * k.idx + i) v.placed)

/-- R260: the chunk that an asked die yields, if any. -/
def yieldedChunk? (v : Viaduct) (die : Nat) : Option Chunk :=
  let mine := v.chunks.filter (fun k => k.die == die)
  let free := mine.filter (unstarted v)
  if free.length = 1 ∧ ¬ mine.any (fun k => !unstarted v k && unplacedOf v k != []) then none
  else free.find? (fun k => free.all (fun j => decide (j.idx ≤ k.idx)))

/-- The number of a die that a chunk is on its way to. -/
def inTransit (thief : Nat) : Nat := 4 + thief

/-- STEAL_REQUEST (R260): a thief with room and no unplaced span asks the next die, which yields its
highest-numbered unstarted chunk or declines. -/
def execStealRequest (thief asked viaduct : Nat) (s : State) : Out :=
  match viaductOf? s viaduct with
  | none => .next s
  | some v =>
    match ctxOf? s v.ctx with
    | none => .next s
    | some c =>
      let n := askedCount v thief
      if v.st ≠ .started ∨ v.launch.coop ∨ (nextLin? v thief).isSome ∨ 8 ≤ n ∨
          v.chunks.any (fun k => k.die == inTransit thief) ∨ (askOrder s c.part thief)[n]? ≠ some asked ∨
          (fitPlace? s c v.launch thief).isNone then .next s
      else
        match yieldedChunk? v asked with
        | some k =>
          .next (modViaduct viaduct (fun y =>
            { y with chunks := updateFirst (fun j => j.idx == k.idx) (fun j => { j with die := inTransit thief }) y.chunks }) s)
        | none => .next (modViaduct viaduct (setAsked thief (n + 8)) s)

/-- STEAL_ANSWER (R260): the thief receives a chunk, or a refusal. -/
def execStealAnswer (thief viaduct : Nat) (s : State) : Out :=
  match viaductOf? s viaduct with
  | none => .next s
  | some v =>
    if v.chunks.any (fun k => k.die == inTransit thief) then
      .next (modViaduct viaduct (fun y => setAsked thief 0
        { y with chunks := y.chunks.map (fun k => if k.die = inTransit thief then { k with die := thief } else k) }) s)
    else if 8 ≤ askedCount v thief then .next (modViaduct viaduct (setAsked thief (askedCount v thief - 8 + 1)) s)
    else .next s

end Sys2Proof.Machine
end

