-- ==== Sys2Proof/Machine/Firmware.lean ====
section
/-! DEFINITION. The management mailbox: requests and replies (R463, R468). -/

namespace Sys2Proof.Machine

open Sys2Proof

/-- R468: a reply of the management mailbox. -/
def reply (func code seq status : Nat) (body : List Byte) (s : State) : State :=
  { s with front := { s.front with replies := s.front.replies ++ [⟨func, code, seq % 65536, status, body⟩] } }

/-- R468: the reply statuses. -/
def stDone : Nat := 0
/-- R468. -/
def stNotReady : Nat := 1
/-- R468. -/
def stBusy : Nat := 2
/-- R468. -/
def stRefused : Nat := 3
/-- R468. -/
def stBadImage : Nat := 4

/-- R463, R468: a request of a function that only full function serves: not-ready below stage 4; refused of a
virtual function where only the physical function may send it. f answers the status and body with the new state. -/
def request (func code seq : Nat) (pf : Bool) (f : State → (Nat × List Byte) × State) (s : State) : Out :=
  if s.dev.stage = 0 then .next s
  else if s.dev.stage ≠ 4 then .next (reply func code seq stNotReady [] s)
  else if pf && func != 0 then .next (reply func code seq stRefused [] s)
  else
    let r := f s
    .next (reply func code seq r.1.1 r.1.2 r.2)

/-- The code of a request that a rule describes without giving it (log entry 8). -/
def ruleCode (rule : Nat) : Nat := Config.requestCode rule % 65536

/-- A request is done, with a body. -/
def done (body : List Byte) (s : State) : (Nat × List Byte) × State := ((stDone, body), s)

/-- A request is refused, and nothing changes. -/
def refuse (s : State) : (Nat × List Byte) × State := ((stRefused, []), s)

end Sys2Proof.Machine
end

