-- ==== Sys2Proof/Machine/Evict.lean ====
section
/-! DEFINITION. Owners, ageing, pre-emption, eviction, lending, wakes, and the end of contexts and partitions
(R328, R331, R346, R392 to R410). -/

namespace Sys2Proof.Machine

open Sys2Proof

/-! Eviction (R396, R400, R401). -/

/-- R322: a commit is withdrawn: every lane fails with cause 6, and the split stands after tx.end, its region over. -/
def withdrawCommit (t : Tx) (s : State) : State :=
  let u := endTx 0 ((lanesOf t.mask).map (fun l => (l, 6))) none s
  commitRegion { u with sp := { u.sp with pend := [] } }

/-- R205: whether the split in focus is blocked past its region boundary, so that it is saved as blocked. -/
def savedBlocked (s : State) : Bool := s.sp.bndPending && s.sp.pend != []

/-- R227, R322: the transaction in whose tx.end the split in focus is blocked, with the faults that its claims and loads
have met. -/
def inCommit? (s : State) : Option (Tx × List FaultRec) :=
  match s.g.tx, s.sp.pend with
  | some t, .txSend :: _ => if t.split = s.sp.num then some (t, regionFaults s ++ txPoison s t) else none
  | some t, .txWait :: _ => if t.split = s.sp.num then some (t, []) else none
  | _, _ => none

/-- R306, R307: the region of a split that is evicted aborts; with faults their records are written and the split parks
for them. A split that is halted or stands in the debugger stays so. -/
def evictRegion (rs : List FaultRec) (s : State) : State :=
  let st := s.sp.state
  let faults := rs ++ byLane ((ownAtoms s).flatMap (fun a => a.faults))
  let t := atomsGone s
  if faults = [] then
    let u := countAbort 2 (discardRegion t)
    { u with sp := { u.sp with state := st } }
  else
    let u := abortRegion faults t
    if st = .running then u else { u with sp := { u.sp with state := st } }

/-- R205, R307, R322, R396: a split of a group that is evicted: a split blocked past its boundary is saved as blocked, a
commit without a lock is withdrawn, and every other region aborts. -/
def evictSplit (s : State) : State :=
  match inCommit? s with
  | some (t, rs) =>
    if t.locked ≠ [] then s else if rs = [] then withdrawCommit t s else evictRegion rs s
  | none => if savedBlocked s || s.sp.state == .parked then s else evictRegion (regionFaults s) s

/-- R24: what the saved record of a group does not hold, %wstat, %txstat and %trapinfo, has free values after the restore
(log entry 12); a commit that ends during the eviction writes %txstat and k7 after this (R322). -/
def loseStatus (gid : Nat) (s : State) : State :=
  let a := draw s
  let b := draw a.2
  let c := draw b.2
  modGroup gid (fun g => { g with wstat := Config.lostWord a.1, txstat := Config.lostWord b.1,
                                  trapinfo := Config.lostWord c.1 }) c.2

/-- R153, R307, R396: the regions of the splits of a group that is evicted, of those for which a test holds. -/
def evictGroup (keep : State → Bool) (gid : Nat) (s : State) : State :=
  match groupOf? s gid with
  | none => s
  | some g => (splitsOf s g).foldl (fun t p => onSplit gid p.num (fun u => if keep u then evictSplit u else u) t) s

/-- R401: tile operations of a span that have not begun are not started: those behind the head of a core's queue,
and those held by a fault. -/
def suspendTiles (u : Nat) (s : State) : State :=
  let begun (c : TileCmd) : Bool :=
    ((s.eng.tiles.find? (fun k => k.die == c.die && k.core == c.core && !k.suspended)).map (fun k => k.uid == c.uid)).getD false
  { s with eng := { s.eng with tiles := s.eng.tiles.map (fun c =>
      if c.span = u ∧ (c.held ∨ ¬ begun c) then { c with suspended := true } else c) } }

/-- R330, R396: THE EVICTION of a span begins: its groups stop at a word boundary and are marked saving, their regions
abort but for those whose atomics have lanes under way (R307), and its queued tile operations are kept. -/
def startEviction (u : Nat) (s : State) : State :=
  match spanOf? s u with
  | none => s
  | some x =>
    if x.evicting ∨ x.residence ≠ .resident then s
    else
      let t := modSpan u (fun y => { y with evicting := true }) s
      let t := (groupsOfSpan s u).foldl (fun w g =>
        evictGroup (fun y => (ownAtoms y).all (fun a => a.lanes == [])) g.gid
          (loseStatus g.gid (modGroup g.gid (fun y => { y with residence := .saving }) w))) t
      refreshCtx x.ctx (suspendTiles u t)

/-- R261, R400: the eviction of a span, or of every span of its cooperative viaduct. -/
def startEvictionWhole (x : Span) (s : State) : State :=
  if coopViaduct s x.viaduct then
    (s.spans.filter (fun y => y.viaduct == x.viaduct)).foldl (fun t y => startEviction y.uid t) s
  else startEviction x.uid s

/-- R396, R401: whether a copy writes a store of a span. -/
def Copy.fills (c : Copy) (u : Nat) : Bool :=
  c.receivers.any (fun r => r.1 == u) ||
    (c.span == u && (c.op == .g2s || c.op == .s2s || c.op == .g2p || c.op == .s2p ||
      (c.op == .fill && c.lanes.any (fun l => bitsOf l.dst 63 56 == 255 && bitsOf l.dst 55 48 != 0))))

/-- R401: whether what is left of a copy is held by a fault. -/
def Copy.stuck (c : Copy) : Bool := c.lanes.all (fun l => l.done || (l.held && !l.skip))

/-- R396, R401: whether nothing of a span is outstanding that its eviction waits for. -/
def evictionReady (s : State) (u : Nat) : Bool :=
  let mine (gid : Nat) : Bool := (groupsOfSpan s u).any (fun g => g.gid == gid)
  s.eng.tiles.all (fun c => c.span != u || c.suspended || c.held) &&
    s.eng.copies.all (fun c => c.suspended || !c.fills u || c.stuck) &&
    s.ms.atoms.all (fun a => !mine a.gid || a.lanes == []) &&
    (groupsOfSpan s u).all (fun g => match g.tx with
      | some t => !(t.phase == .locking && t.locked != [])
      | none => true)

/-! The save area (R395). -/

/-- R395: the size of the header of a context's save area. -/
def saveHeader (c : Context) : Nat := 65536 * ((64 + 8 * c.sslots + 4 * c.lslots + 65535) / 65536)

/-- R395: the address of the group record of a local slot; its spill slot stands 36 KiB further. -/
def groupRecordAt (c : Context) (j : Nat) : Nat := c.save + saveHeader c + j * 40960

/-- R395: the address of a span record slot. -/
def spanRecordAt (c : Context) (i : Nat) : Nat := groupRecordAt c c.lslots + i * 2097152

/-- R395: the saved spans of a context that the header lists, in eviction order, by their span record slots. -/
def evictionList (s : State) (ctx : Nat) : List Nat :=
  ((s.spans.filter (fun x => x.ctx == ctx && x.residence == .saved)).foldl
    (fun acc x => insertEvicted x acc) []).filterMap (fun x => x.slot)

/-- R395: the header's word of a local slot: the span record slot that holds it, or 0xFFFF_FFFF. -/
def slotWord (s : State) (ctx j : Nat) : Nat :=
  ((s.spans.find? (fun x => x.ctx == ctx && x.residence == .saved &&
    (groupsOfSpan s x.uid).any (fun g => g.lslot == j && !g.released))).bind (fun x => x.slot)).getD 0xFFFFFFFF

/-- R395: the span record slot that a span is saved into: the lowest that holds none (log entry 108). -/
def freeRecord (s : State) (ctx : Nat) : Nat :=
  leastFree ((s.spans.filter (fun x => x.ctx == ctx)).filterMap (fun x => x.slot))

/-- R396: the records of a span are written and its resources released, in one step. -/
def finishEviction (x : Span) (s : State) : State :=
  let gs := groupsOfSpan s x.uid
  let t := gs.foldl (fun w g => evictGroup (fun y => ownAtoms y != []) g.gid w) s
  let t := gs.foldl (fun w g => modGroup g.gid (fun y => { y with residence := .saved }) w) t
  let t := modSpan x.uid (fun y =>
    { y with residence := .saved, evicting := false, evictOrder := t.ten.evictSeq, slot := some (freeRecord t x.ctx) }) t
  let t := { t with
    ten := { t.ten with evictSeq := t.ten.evictSeq + 1 },
    eng := { t.eng with
      copies := updateAll (fun c => c.fills x.uid && !c.suspended) (fun c => { c with suspended := true }) t.eng.copies,
      tiles := updateAll (fun c => c.span == x.uid) (fun c => { c with suspended := true }) t.eng.tiles } }
  refreshCtx x.ctx t

/-- SPAN_EVICTION_SAVE (R396, R401): once its waits are over, a span that is being evicted is saved; one of a trapped
viaduct is freed instead (R402). -/
def execSpanEvictionSave (span : Nat) (s : State) : Out :=
  match spanOf? s span with
  | none => .next s
  | some x =>
    if !x.evicting ∨ x.residence ≠ .resident then .next s
    else if ((viaductOf? s x.viaduct).map (fun v => v.st == .trapped)).getD false then
      if spanBusy s span then .next s
      else .next (refreshCtx x.ctx (settleViaduct x.viaduct (retireSpan span s)))
    else if evictionReady s span then .next (finishEviction x s) else .next s

/-- FORCED_EVICTION (R400): at 12500 ticks before its deadline, every span that a pre-emption still finds there
is evicted. -/
def execForcedEviction (pre : Nat) (s : State) : Out :=
  match s.ten.preempts.find? (fun p => p.uid == pre) with
  | none => .next s
  | some p =>
    if p.evicted ∨ s.tick < p.start + p.deadline - 12500 then .next s
    else
      let t := (s.spans.filter (p.victim s)).foldl (fun w x => startEvictionWhole x w) s
      .next { t with ten := { t.ten with
        preempts := updateFirst (fun q => q.uid == pre) (fun q => { q with evicted := true }) t.ten.preempts } }

/-- R402: the pre-emption of a span's place for the span's context alone, with a deadline of 12500 ticks. -/
def swapSpan (x : Span) (s : State) : State :=
  let u := fresh s
  let p : Preempt := { uid := u.1, die := x.die, core := x.core0, isQuad := x.isQuad, beneficiary := none, isRecall := false,
                       start := s.tick, deadline := 12500, evicted := true, only := some x.ctx }
  startEvictionWhole x { u.2 with ten := { u.2.ten with preempts := u.2.ten.preempts ++ [p] } }

/-- CONTEXT_SWAP_OUT (R402): H2 pre-empts every span of a context with a deadline of 12500 ticks, so that eviction
starts at once. -/
def execContextSwapOut (ctx : Nat) (s : State) : Out :=
  .next ((s.spans.filter (fun x => x.ctx == ctx && x.residence == .resident)).foldl (fun t x => swapSpan x t) s)

/-! Waiting owners and ageing (R398, R399). -/

/-- R398: the start of every wait kept: 0 where the owner does not wait, 1 more than the die's clk of its start where it
does. -/
def keepWaits (s : State) : State :=
  (activeOwners s).foldl (fun t n =>
    let w := (List.range 4).map (fun d =>
      if ownerWaits s d n then (if nthD 0 (ownerRec s n).waits d = 0 then clkOf s d + 1 else nthD 0 (ownerRec s n).waits d)
      else 0)
    if w = (ownerRec s n).waits then t else modOwner n (fun o => { o with waits := w }) t) s

/-- R392: the highest level an owner holds on any die. -/
def Owner.level (o : Owner) : Nat := o.levels.foldl max 0

/-- R399: the spans on the cores of a place. -/
def spansAt (s : State) (l : Launch) (die core0 : Nat) : List Span :=
  s.spans.filter (fun x => (List.range l.coreCount).any (fun k => x.onCore die (core0 + k)))

/-- The owner of a span. -/
def spanOwner (s : State) (x : Span) : Nat := ((ctxOf? s x.ctx).map (fun c => c.owner)).getD 256

/-- R399: the place that a starved owner's first waiting span would take from others: the one whose owners' highest
level is lowest, the lowest-numbered among equals; none that holds a span of another owner at level 8. -/
def victimPlace? (s : State) (c : Context) (l : Launch) (die : Nat) : Option Nat :=
  let level (p : Nat) : Nat := ((spansAt s l die p).map (fun x => (ownerRec s (spanOwner s x)).level)).foldl max 0
  let ok (p : Nat) : Bool :=
    inReach s c.owner c.part die (p / 4) && quadGranted s c die (p / 4) && !preemptBlocks s l c.owner die p &&
      (spansAt s l die p).any (fun x => spanOwner s x != c.owner) &&
      (spansAt s l die p).all (fun x => spanOwner s x == c.owner || nthD 0 (ownerRec s (spanOwner s x)).levels die != 8)
  let ps := l.places.filter ok
  let least := (ps.map level).foldl min 9
  ps.find? (fun p => level p == least)

/-- R399, R400: a pre-emption starts for a starved owner, with the victims' largest recall deadline. -/
def startStarved (owner die : Nat) (s : State) : State :=
  match waitingWork s die owner with
  | [] => s
  | (c, l) :: _ =>
    match victimPlace? s c l die with
    | none => s
    | some p =>
      let d := ((spansAt s l die p).filter (fun x => spanOwner s x != owner)).foldl
        (fun m x => max m (ownerRec s (spanOwner s x)).recallTicks) 0
      let u := fresh s
      let e : Preempt := { uid := u.1, die := die, core := p, isQuad := l.quadSpan, beneficiary := some owner,
                           isRecall := false, start := s.tick, deadline := d, evicted := false, only := none }
      { u.2 with ten := { u.2.ten with preempts := u.2.ten.preempts ++ [e] } }

/-- OWNER_AGEING (R398, R399): 2^16 clk of waiting raise an owner's level on a die; at level 8 the distributor
pre-empts a victim for it. -/
def execOwnerAgeing (die owner : Nat) (s : State) : Out :=
  let o := ownerRec s owner
  let w := nthD 0 o.waits die
  let lv := nthD 0 o.levels die
  let again := lv == 8 && !s.ten.preempts.any (fun p => p.die == die && p.beneficiary == some owner)
  if w = 0 ∨ 4 ≤ die ∨ !ownerWaits s die owner then .next s
  else if again then .next (startStarved owner die s)
  else if lv < 8 ∧ w + 65536 ≤ clkOf s die + 1 then
    let t := modOwner owner (fun x => { x with levels := x.levels.set die (lv + 1), waits := x.waits.set die (w + 65536) }) s
    .next (if lv + 1 = 8 then startStarved owner die t else t)
  else .next s

/-! Owner records, lending and recalls through the mailbox. -/

/-- OWNER_RECORD_WRITE (R392). -/
def execOwnerRecordWrite (func seq owner : Nat) (word : W64) (s : State) : Out :=
  let w := word.toNat
  request func (ruleCode 392) seq true (fun t =>
    if bitsOf w 53 32 < 25000 ∨ 2500000 < bitsOf w 53 32 ∨ 255 < owner ∨
        (bitsOf w 23 16 = 0 ∧ t.ten.ctxs.any (fun c => c.owner == owner)) then refuse t
    else done [] (modOwner owner (fun o =>
      { o with recallTicks := bitsOf w 53 32, weight := bitsOf w 23 16, parts := bitsOf w 15 0 }) t)) s

/-- LEND_ENTRY_WRITE (R403): an owner lends a quad reserved to it. -/
def execLendEntryWrite (func seq owner : Nat) (word : W) (s : State) : Out :=
  let w := word.toNat
  let e := mapGet 0 s.ten.partMap (quadKey (bitsOf w 9 8) (bitsOf w 7 0))
  let l : Lend := { owner := owner, auto := bitOf w 25, any := bitOf w 24, borrower := bitsOf w 23 16,
                    die := bitsOf w 9 8, quad := bitsOf w 7 0 }
  request func (ruleCode 403) seq false (fun t =>
    if !bitOf e 12 ∨ bitsOf e 11 4 ≠ owner then refuse t
    else done [] { t with ten := { t.ten with
      lends := t.ten.lends.filter (fun m => !(m.die == l.die && m.quad == l.quad)) ++ [l] } }) s

/-- RECALL_REQUEST (R404): the driver recalls a lent quad. -/
def execRecallRequest (func seq owner die quad : Nat) (s : State) : Out :=
  request func (ruleCode 404) seq false (fun t =>
    match t.ten.lends.find? (fun l => l.owner == owner && l.die == die && l.quad == quad) with
    | none => refuse t
    | some l => done [] (startRecall l t)) s

/-! Wakes (R331). -/

/-- R331: whether a saved group has been woken, or a deadline of its waits has passed. -/
def wokenSaved (s : State) (g : Group) : Bool :=
  g.residence == .saved && (g.wakePending != [] || g.splits.any (fun p =>
    match p.pend with
    | .slotWait _ _ (some d) :: _ => decide (d ≤ s.tick)
    | _ => false))

/-- WAKE_MESSAGE (R331): H2 marks the context of a woken saved group runnable. -/
def execWakeMessage (ctx : Nat) (s : State) : Out :=
  if (allGroups s).any (fun g => g.ctx == ctx && wokenSaved s g) then
    .next (modCtx ctx (fun c => { c with runnable := true }) s)
  else .next s

/-! The end of a context or a partition. -/

/-- R383: every packet of a queue that is not complete completes with cancelled. -/
def cancelPackets (q : Queue) (s : State) : State := q.packets.foldl (fun t p => completePacket p.journal 7 0 t) s

/-- R383, R409: the queues of a context stop and their packets are cancelled, the LAUNCH entries of its viaducts
included. -/
def cancelQueues (ctx : Nat) (s : State) : State :=
  let qs := s.front.queues.filter (fun q => q.ctx == ctx)
  let t := qs.foldl (fun u q => cancelPackets q (stopQueue q.qid u)) s
  let vs := s.viaducts.filter (fun v => v.ctx == ctx && v.st != .complete)
  vs.foldl (fun u v => endGang v 7 0 (modViaduct v.uid (fun x => { x with st := .complete, chunks := [] }) u)) t

/-- R328, R346, R355, R409: all that a context has in the package is discarded: groups, spans, what they have
outstanding, pools and slots, windows, collectives. -/
def discardContext (ctx : Nat) (s : State) : State :=
  let gs := ((allGroups s).filter (fun g => g.ctx == ctx)).map (fun g => g.gid)
  let us := (s.spans.filter (fun x => x.ctx == ctx)).map (fun x => x.uid)
  let u := unfocus s
  { u with
    groups := u.groups.filter (fun g => g.ctx != ctx),
    spans := u.spans.filter (fun x => x.ctx != ctx),
    ms := { u.ms with
      entries := u.ms.entries.filter (fun e => e.ctx != ctx),
      loads := u.ms.loads.filter (fun l => !memNat l.gid gs),
      atoms := u.ms.atoms.filter (fun a => !memNat a.gid gs),
      heldMarks := u.ms.heldMarks.filter (fun p => !u.ms.tokens.any (fun t => t.1 == p.2 && memNat t.2 gs)),
      tokens := u.ms.tokens.filter (fun t => !memNat t.2 gs),
      tokenWaits := u.ms.tokenWaits.filter (fun t => !memNat t.2 gs),
      openFaults := u.ms.openFaults.filter (fun f => f.ctx != ctx),
      unsent := u.ms.unsent.filter (fun f => f.ctx != ctx) },
    eng := { copies := u.eng.copies.filter (fun c => !memNat c.span us),
             tiles := u.eng.tiles.filter (fun c => !memNat c.span us),
             fns := u.eng.fns.filter (fun c => !memNat c.gid gs),
             fabs := u.eng.fabs.filter (fun c => c.ctx != ctx) },
    wat := { u.wat with regs := u.wat.regs.filter (fun r => !memNat r.gid gs),
                        fires := u.wat.fires.filter (fun f => f.ctx != ctx) },
    fab := { u.fab with
      slots := u.fab.slots.filter (fun m => m.ctx != ctx), arrives := u.fab.arrives.filter (fun m => m.ctx != ctx),
      pools := u.fab.pools.filter (fun p => p.ctx != ctx),
      windows := u.fab.windows.filter (fun w => w.ctx != ctx),
      streams := u.fab.streams.filter (fun w => w.ctx != ctx),
      resent := u.fab.resent.filter (fun r => r.ctx != ctx),
      tags := u.fab.tags.filter (fun t => t.ctx != ctx),
      partials := u.fab.partials.filter (fun p => p.ctx != ctx),
      rounds := u.fab.rounds.filter (fun r => r.ctx != ctx) },
    front := { u.front with
      queues := u.front.queues.filter (fun q => q.ctx != ctx),
      gangs := u.front.gangs.filter (fun g => g.ctx != ctx) } }

/-- R328: a context ends: its packets are cancelled, what it has is discarded, and its purge is on its way to every
slice. -/
def endContext (ctx : Nat) (s : State) : State :=
  match ctxOf? s ctx with
  | none => s
  | some c =>
    let t := discardContext ctx (cancelQueues ctx s)
    { t with ten := { t.ten with ctxs := t.ten.ctxs.filter (fun x => x.num != ctx), dying := t.ten.dying ++ [(c, [])] } }

/-- CONTEXT_DESTROY (R328, R346, R383). -/
def execContextDestroy (ctx : Nat) (s : State) : Out := .next (endContext ctx s)

/-- R325, R328: a destroyed context's entry removed at its home, W following it. -/
def purgeEntry (c : Context) (e : WatchEntry) (s : State) : State :=
  let t := { s with wat := { s.wat with entries := s.wat.entries.filter (fun f => f.uid != e.uid) } }
  if t.wat.entries.any (fun f => f.dom == e.dom && lineOf f.addr == lineOf e.addr) then t
  else
    match walkVa t c e.addr with
    | .ok l => setWatched l.phys false t
    | .error _ => t

/-- R328: whether a destroyed context's purge is over: every slice of the package has acknowledged, and no slice of
another package of the domain holds an entry of it. -/
def purgeOver (s : State) (ctx : Nat) (acks : List Nat) : Bool :=
  acks.length == 1024 && s.wat.entries.all (fun e => e.ctx != ctx || e.pkg != s.pkg)

/-- WATCH_PURGE (R328): a slice removes every entry of a destroyed context and acknowledges; after the last slice of
the package and of the domain the number may be used again. A die number from 4 on is 4 more than the agent of
another package. -/
def execWatchPurge (ctx die slice : Nat) (s : State) : Out :=
  match s.ten.dying.find? (fun d => d.1.num == ctx) with
  | none => .next s
  | some d =>
    let k := die * 256 + slice
    let home := if die < 4 then agentOf s die else die - 4
    if (4 ≤ die ∧ home / 4 = s.pkg) ∨ 256 ≤ slice ∨ memNat k d.2 then .next s
    else
      let es := s.wat.entries.filter (fun e => e.ctx == ctx && e.pkg == s.pkg && e.home == home && e.slice == slice)
      let t := es.foldl (fun u e => purgeEntry d.1 e u) s
      let acks := if die < 4 then d.2 ++ [k] else d.2
      .next { t with ten := { t.ten with
        dying := if purgeOver t ctx acks then t.ten.dying.filter (fun x => x.1.num != ctx)
          else updateFirst (fun x => x.1.num == ctx) (fun x => (x.1, acks)) t.ten.dying } }

/-- R409, R410: the packets tagged with a partition are dropped; a copy whose invalidation is dropped goes too, which
R409 leaves open (log entry 60). -/
def dropPackets (part : Nat) (s : State) : State :=
  let mine := s.ms.invals.filter (fun v => v.part == part)
  { s with ms := { s.ms with
      invals := s.ms.invals.filter (fun v => v.part != part),
      rdc := s.ms.rdc.filter (fun r => !mine.any (fun v => v.agent == r.die && v.dom == r.dom && v.line == r.line)) } }

/-- PARTITION_RESET (R409, R410): the contexts of a partition end, with everything of theirs on its quads and on the
meshes. -/
def execPartitionReset (func seq part : Nat) (s : State) : Out :=
  request func (ruleCode 409) seq true (fun t =>
    if 16 ≤ part then refuse t
    else done [] (dropPackets part (((t.ten.ctxs.filter (fun c => c.part == part)).map (fun c => c.num)).foldl
      (fun u n => endContext n u) t))) s

end Sys2Proof.Machine
end

