-- ==== Sys2Proof/Machine/Sha.lean ====
section
/-! DEFINITION. SHA-256, which the journal's hash is taken from (R390). -/

namespace Sys2Proof.Machine

/-- The round constants of SHA-256. -/
def shaK : List W :=
  [0x428A2F98, 0x71374491, 0xB5C0FBCF, 0xE9B5DBA5,
    0x3956C25B, 0x59F111F1, 0x923F82A4, 0xAB1C5ED5,
    0xD807AA98, 0x12835B01, 0x243185BE, 0x550C7DC3,
    0x72BE5D74, 0x80DEB1FE, 0x9BDC06A7, 0xC19BF174] ++
  [0xE49B69C1, 0xEFBE4786, 0x0FC19DC6, 0x240CA1CC,
    0x2DE92C6F, 0x4A7484AA, 0x5CB0A9DC, 0x76F988DA,
    0x983E5152, 0xA831C66D, 0xB00327C8, 0xBF597FC7,
    0xC6E00BF3, 0xD5A79147, 0x06CA6351, 0x14292967] ++
  [0x27B70A85, 0x2E1B2138, 0x4D2C6DFC, 0x53380D13,
    0x650A7354, 0x766A0ABB, 0x81C2C92E, 0x92722C85,
    0xA2BFE8A1, 0xA81A664B, 0xC24B8B70, 0xC76C51A3,
    0xD192E819, 0xD6990624, 0xF40E3585, 0x106AA070] ++
  [0x19A4C116, 0x1E376C08, 0x2748774C, 0x34B0BCB5,
    0x391C0CB3, 0x4ED8AA4A, 0x5B9CCA4F, 0x682E6FF3,
    0x748F82EE, 0x78A5636F, 0x84C87814, 0x8CC70208,
    0x90BEFFFA, 0xA4506CEB, 0xBEF9A3F7, 0xC67178F2]

/-- The initial value of SHA-256. -/
def shaInit : List W :=
  [0x6A09E667, 0xBB67AE85, 0x3C6EF372, 0xA54FF53A,
    0x510E527F, 0x9B05688C, 0x1F83D9AB, 0x5BE0CD19]

/-- A word rotated right. -/
def rotr (x : W) (n : Nat) : W := x.rotateRight n

/-- The message schedule, oldest word first: n words are added to the last sixteen. -/
def shaSchedule : Nat → List W → List W
  | 0, ws => ws
  | n + 1, ws =>
    let g (i : Nat) : W := nthD 0 ws (ws.length - i)
    let s0 := rotr (g 15) 7 ^^^ rotr (g 15) 18 ^^^ (g 15 >>> 3)
    let s1 := rotr (g 2) 17 ^^^ rotr (g 2) 19 ^^^ (g 2 >>> 10)
    shaSchedule n (ws ++ [g 16 + s0 + g 7 + s1])

/-- One round on the eight working words. -/
def shaRound (v : List W) (kw : W × W) : List W :=
  let g (i : Nat) : W := nthD 0 v i
  let s1 := rotr (g 4) 6 ^^^ rotr (g 4) 11 ^^^ rotr (g 4) 25
  let ch := (g 4 &&& g 5) ^^^ (~~~ (g 4) &&& g 6)
  let t1 := g 7 + s1 + ch + kw.1 + kw.2
  let s0 := rotr (g 0) 2 ^^^ rotr (g 0) 13 ^^^ rotr (g 0) 22
  let maj := (g 0 &&& g 1) ^^^ (g 0 &&& g 2) ^^^ (g 1 &&& g 2)
  [t1 + (s0 + maj), g 0, g 1, g 2, g 3 + t1, g 4, g 5, g 6]

/-- One block of sixteen words compressed into the hash value. -/
def shaBlock (h ws : List W) : List W :=
  let v := (shaK.zip (shaSchedule 48 ws)).foldl shaRound h
  (h.zip v).map (fun p => p.1 + p.2)

/-- The big-endian words of bytes. -/
def beWords : List Byte → List W
  | a :: b :: c :: d :: r => (a ++ b ++ c ++ d) :: beWords r
  | _ => []

/-- The bytes of words, big-endian. -/
def beBytes (ws : List W) : List Byte := ws.flatMap (fun w => (natToBytes 4 w.toNat).reverse)

/-- The padding of a message of n bytes: a 1 bit, zeros to 56 modulo 64 bytes, and the length in bits. -/
def shaPad (n : Nat) : List Byte :=
  (0x80 : Byte) :: List.replicate ((119 - n % 64) % 64) 0 ++ (natToBytes 8 (8 * n)).reverse

/-- The first n blocks of words compressed into the hash value. -/
def shaBlocks : Nat → List W → List W → List W
  | 0, h, _ => h
  | n + 1, h, ws => shaBlocks n (shaBlock h (ws.take 16)) (ws.drop 16)

/-- SHA-256. -/
def sha256 (bs : List Byte) : List Byte :=
  let ws := beWords (bs ++ shaPad bs.length)
  beBytes (shaBlocks (ws.length / 16) shaInit ws)

/-- R469: HMAC-SHA-256 with a key of at most 64 bytes. -/
def hmac (key msg : List Byte) : List Byte :=
  let k := fitTo 0 64 key
  sha256 (k.map (fun b => b ^^^ 0x5C) ++ sha256 (k.map (fun b => b ^^^ 0x36) ++ msg))

/-- R469: the order of the curve P-256. -/
def orderP256 : Nat := 0xFFFFFFFF00000000FFFFFFFFFFFFFFFFBCE6FAADA7179E84F3B9CAC2FC632551

/-- R469: the private key of a secret and a label. -/
def identityKey (secret label : List Byte) : Nat := bytesToNat (hmac secret label).reverse % (orderP256 - 1) + 1

end Sys2Proof.Machine
end

