-- ==== Sys2Proof/Machine/Front.lean ====
section
/-! DEFINITION. The front end: kicks, acceptance, the packets, slot mapping, gangs and the journal (R374 to R391). -/

namespace Sys2Proof.Machine

open Sys2Proof

/-! Kicks and looks (R374, R377, R387). -/

/-- DOORBELL_KICK (R374, R463). -/
def execDoorbellKick (func page value : Nat) (s : State) : Out := .next (doorbell func page value s)

/-- RING_LOOK (R377): every 1024 ticks the front end looks again while wr exceeds its read count. -/
def execRingLook (qid : Nat) (s : State) : Out :=
  match queueOf? s qid with
  | none => .next s
  | some q =>
    match readVa s q.ctx needRd (q.qcb + 8) 8 with
    | .error _ => .next s
    | .ok bs =>
      if q.mapped ∧ q.lookTick + 1024 ≤ s.tick ∧ q.rd < bytesToNat bs then
        .next (modQueue qid (fun x => { x with looking := true, lookTick := s.tick }) s)
      else .next s

/-! The fields of packets (R380 to R385, R389). -/

/-- The bytes [lo, lo + n) of a packet's bytes as a number. -/
def fld (bs : List Byte) (lo n : Nat) : Nat := bytesToNat ((bs.drop lo).take n)

/-- R381: the launch that the 64 bytes of a LAUNCH packet describe. -/
def launchOf (bs : List Byte) : Launch :=
  { entry := fld bs 8 8, vdx := fld bs 16 2, vdy := fld bs 18 2, vdz := fld bs 20 2, sx := fld bs 22 2,
    sy := fld bs 24 2, sz := fld bs 26 2, vregs := fld bs 28 1, quadSpan := bitOf (fld bs 29 1) 0,
    coop := bitOf (fld bs 29 1) 1, acc := bitsOf (fld bs 30 1) 2 0, bars := bitsOf (fld bs 31 1) 4 0,
    store := fld bs 32 2, qstore := fld bs 34 2, plane := fld bs 36 2, comm := fld bs 38 1,
    fmode := BitVec.ofNat 32 (fld bs 40 4), vid := BitVec.ofNat 32 (fld bs 44 4), w0base := fld bs 48 8,
    w0size := fld bs 56 4 }

/-- R380 to R385, R389: the bits of byte i of a packet of a type that are not reserved. -/
def usedBits (type i : Nat) : Nat :=
  if i < 2 then 255 else if i = 2 then 3 else if i = 3 then 0 else if i < 8 then 255
  else
    let within (ps : List (Nat × Nat × Nat)) : Nat :=
      ((ps.find? (fun p => decide (p.1 ≤ i ∧ i < p.2.1))).map (fun p => p.2.2)).getD 0
    match type with
    | 1 => within [(8, 29, 255), (29, 30, 3), (30, 31, 7), (31, 32, 31), (32, 39, 255), (40, 60, 255)]
    | 2 => within [(8, 18, 255), (20, 36, 255)]
    | 3 => within [(8, 9, 255), (9, 10, 1), (16, 40, 255)]
    | 4 => within [(8, 9, 131), (10, 12, 255), (16, 32, 255)]
    | 6 => within [(8, 11, 255), (12, 16, 255), (16, 17, 3), (17, 19, 255), (19, 20, 127), (20, 24, 255), (24, 25, 1)]
    | 7 => within [(8, 9, 255), (9, 10, 15), (10, 11, 1), (12, 14, 255), (16, 32, 255)]
    | 8 => within [(8, 9, 255), (9, 10, 1), (16, 32, 255)]
    | 9 => within [(8, 9, 255), (16, 64, 255)]
    | _ => 0

/-- R382: the first byte of a packet's 64 with a reserved bit set. -/
def reservedByte? (type : Nat) (bs : List Byte) : Option Nat :=
  ((List.range 64).filter (fun i => decide (0 < i))).find? (fun i => fld bs i 1 &&& usedBits type i != fld bs i 1)

/-- R384: the bytes of a signal body that hold a reserved value, a value out of range or a bad address. -/
def signalBytes (type : Nat) (bs : List Byte) : List Nat :=
  let bad (i : Nat) : Bool := fld bs i 8 % 8 != 0 || bitsOf (fld bs i 8) 63 56 != 0
  match type with
  | 3 => (if 5 < fld bs 8 1 then [8] else []) ++ (if bad 16 then [16] else [])
  | 4 => (if 2 ≤ fld bs 8 1 % 4 then [8] else []) ++ (if 2047 < fld bs 10 2 then [10] else []) ++
      (if bad 16 then [16] else [])
  | 9 =>
    let n := fld bs 8 1
    if n = 0 ∨ 6 < n then [8]
    else ((List.range n).filter (fun i => bad (16 + 8 * i))).map (fun i => 16 + 8 * i) ++
      (List.range 64).filter (fun i => decide (16 + 8 * n ≤ i) && fld bs i 1 != 0)
  | _ => []

/-- The least of some numbers. -/
def leastOf : List Nat → Option Nat
  | [] => none
  | x :: xs => some (xs.foldl min x)

/-- R382: the offset of the first byte that makes a packet malformed. -/
def malformedAt (bs : List Byte) : Option Nat :=
  let t := fld bs 1 1
  if 9 < t then some 1 else leastOf ((reservedByte? t bs).toList ++ signalBytes t bs)

/-- R252, R381, R382: the offset of the first field that makes a launch invalid. -/
def invalidLaunch (bs : List Byte) : Option Nat :=
  let l := launchOf bs
  let n := l.sx * l.sy * l.sz
  let checks : List (Bool × Nat) :=
    [(l.entry % 4 != 0, 8), (bitsOf l.entry 63 56 != 0, 15), (l.vdx == 0, 16),
     (decide (2 ^ 32 ≤ l.vdx * l.vdy * l.vdz), 16), (l.vdy == 0, 18), (l.vdz == 0, 20), (l.sx == 0, 22),
     (decide ((if l.quadSpan then 4096 else 1024) < n), 22), (l.sy == 0, 24), (l.sz == 0, 26),
     (l.vregs == 0 || decide (127 < l.vregs), 28), (decide (4 < l.acc), 30), (decide (16 < l.bars), 31),
     (decide (512 < l.store), 32), (decide (512 < l.qstore) || (!l.quadSpan && l.qstore != 0), 34),
     (decide (512 < l.plane), 36), (l.comm != 255 && decide (l.groupCount ≤ l.comm), 38),
     (decide (6 ≤ bitsOf l.fmode.toNat 2 0), 40)]
  (checks.find? (fun c => c.1)).map (fun c => c.2)

/-- R389: the entries of a gang's member list: (package, partition, whether a reserved bit is set). -/
def memberList (bs : List Byte) (n : Nat) : List (Nat × Nat × Bool) :=
  (List.range n).map (fun i =>
    let e := fld bs (4 * i) 4
    (bitsOf e 9 0, bitsOf e 17 14, bitsOf e 13 10 != 0 || bitsOf e 31 18 != 0))

/-- R382, R389: the status of a GANG packet's own checks; more holds its image and its list, none of them where they
cannot be read. -/
def gangStatus (bs : List Byte) (more : Option (List Byte)) : Option (Nat × Nat) :=
  let n := fld bs 16 2
  let image := (more.getD []).take 64
  let ms := memberList ((more.getD []).drop 64) n
  if more.isSome ∧ fld image 1 1 ≠ 1 then some (4, 8)
  else if more.isSome ∧ (reservedByte? 1 image).isSome then some (4, 8)
  else if more.isNone ∨ (invalidLaunch image).isSome then some (1, 8)
  else if n = 0 ∨ 1024 < n then some (1, 16)
  else if fld bs 20 4 < 65536 then some (1, 20)
  else if ms.any (fun m => m.2.2) ∨ (ms.map (fun m => m.1)).eraseDups.length ≠ n then some (1, 24)
  else none

/-- R385: whether a binding packet's field lies outside its range, in a context. -/
def bindRefused (s : State) (c : Context) (bs : List Byte) : Bool :=
  let order := (List.range 5).map (fun i => fld bs 18 2 / 8 ^ i % 8)
  match fld bs 1 1 with
  | 6 => fld bs 17 1 == 0 || order.any (fun a => decide (4 < a)) || decide (order.eraseDups.length < 5)
  | 7 =>
    let mask := fld bs 9 1
    let unbind := bitOf (fld bs 10 1) 0
    decide (15 < fld bs 8 1) || mask == 0 ||
      (List.range 4).any (fun d => bitOf mask d && !memNat d (partDies s c.part)) ||
      (!unbind && (fld bs 16 8 % 128 != 0 || bitsOf (fld bs 16 8) 63 56 != 0 ||
        decide (2 ^ 40 ≤ fld bs 24 8) || fld bs 24 8 % 4 != 0))
  | 8 =>
    decide (15 < fld bs 8 1) ||
      (!bitOf (fld bs 9 1) 0 && (fld bs 24 8 == 0 || decide (2 ^ 32 < fld bs 24 8)))
  | _ => false

/-- R382: the status and the offset that a packet's checks at acceptance give, if they fail. -/
def packetStatus (s : State) (c : Context) (bs : List Byte) (more : Option (List Byte)) : Option (Nat × Nat) :=
  match malformedAt bs with
  | some o => some (4, o)
  | none =>
    match fld bs 1 1 with
    | 1 =>
      match invalidLaunch bs with
      | some o => some (1, o)
      | none => if placeable s c (launchOf bs) (launchOf bs).spanCount then none else some (2, 0)
    | 2 => gangStatus bs more
    | _ => if bindRefused s c bs then some (10, 0) else none

/-! Acceptance (R377 to R380, R390, R391). -/

/-- R390: the hash of a packet: the first 12 bytes of SHA-256 over its bytes with byte 0 taken as 0. -/
def packetHash (bs : List Byte) : List Byte := (sha256 ((0 : Byte) :: (bs.take 64).drop 1)).take 12

/-- R390, R391: a journal entry appended; the entry it overwrites goes. -/
def journalAppend (e : JEntry) (s : State) : State :=
  { s with front := { s.front with
      journal := s.front.journal.filter (fun x => decide (s.front.jseq < x.seq + 2 ^ 20)) ++ [{ e with seq := s.front.jseq }],
      jseq := s.front.jseq + 1 } }

/-- R391: whether the next entry would overwrite one that is not acknowledged. -/
def journalFull (s : State) : Bool := decide (s.front.acked + 2 ^ 20 ≤ s.front.jseq)

/-- R390: the journal entry of a queue's packet at an index, of a type and status. -/
def entryFor (q : Queue) (c : Context) (tick index type status : Nat) (bs : List Byte) : JEntry :=
  { seq := 0, hash := packetHash bs, tag := fld bs 4 4, accept := tick, done := if status = 255 then 0 else tick,
    index := index, queue := q.qid, owner := c.owner, part := c.part, type := type, status := status,
    ctx := c.num, detail := 0, func := c.func }

/-- R375: the address of a packet in its ring. -/
def ringAddr (q : Queue) (i : Nat) : Nat := q.base + 64 * (i % 2 ^ q.size)

/-- R376: the valid byte of the packet of an index. -/
def validByte (q : Queue) (i : Nat) : Nat := 1 + 2 * (i / 2 ^ q.size % 128)

/-- R389: the image and the member list that a GANG packet names. -/
def gangMore (s : State) (q : Queue) (bs : List Byte) : Option (List Byte) :=
  match readVa s q.ctx needRd (fld bs 8 8) 64, readVa s q.ctx needRd (fld bs 24 8) (4 * min 1024 (fld bs 16 2)) with
  | .ok a, .ok b => some (a ++ b)
  | _, _ => none

/-- R378: whether the read count is published after a packet. -/
def publishes (q : Queue) (bs : List Byte) : Bool := q.rd % 2 ^ q.pub == 0 || bitOf (fld bs 2 1) 0

/-- R377, R378, R390: a written packet at the read index copied, checked, journalled and counted. -/
def acceptPacket (q : Queue) (c : Context) (bs : List Byte) (s : State) : State :=
  let more := if fld bs 1 1 = 2 then gangMore s q bs else some []
  let p : Packet :=
    { index := q.rd, bytes := bs ++ more.getD [], journal := s.front.jseq, failed := packetStatus s c bs more,
      started := false, done := false, startTick := 0, hold := none, conds := [] }
  let t := journalAppend (entryFor q c s.tick q.rd (fld bs 1 1) 255 bs) s
  let t := modQueue q.qid (fun x => { x with rd := x.rd + 1, packets := x.packets ++ [p], idleTick := s.tick }) t
  match queueOf? t q.qid with
  | some x => if publishes x bs then publishRd x t else t
  | none => t

/-- R379: an overrun: its journal entry, and the stop of the queue. -/
def overrun (q : Queue) (c : Context) (bs : List Byte) (s : State) : State :=
  let e := entryFor q c s.tick q.rd 255 9 bs
  stopQueue q.qid (journalAppend { e with tag := 0 } s)

/-- PACKET_ACCEPT (R377, R379): the front end takes the packet at the read index of a mapped queue, or finds that it
is not written, or an overrun. -/
def execPacketAccept (qid : Nat) (s : State) : Out :=
  match queueOf? s qid with
  | none => .next s
  | some q =>
    match ctxOf? s q.ctx with
    | none => .next s
    | some c =>
      if s.dev.stage ≠ 4 ∨ !q.mapped ∨ q.stopped ∨ !q.looking ∨ 16 ≤ q.packets.length ∨ journalFull s then .next s
      else
        match readVa s q.ctx needRd (ringAddr q q.rd) 64 with
        | .error _ => .next (modQueue qid (fun x => { x with looking := false }) s)
        | .ok bs =>
          let v := fld bs 0 1
          if v = validByte q q.rd then .next (acceptPacket q c bs s)
          else if v % 2 = 1 ∧ v / 2 ≠ (q.rd / 2 ^ q.size + 127) % 128 then .next (overrun q c bs s)
          else .next (modQueue qid (fun x => { x with looking := false }) s)

/-! Starting packets (R380). -/

/-- A packet of a queue changed. -/
def modPacket (qid index : Nat) (f : Packet → Packet) (s : State) : State :=
  modQueue qid (fun q => { q with packets := updateFirst (fun p => p.index == index) f q.packets }) s

/-- R380: the packet of a queue that may start now: the first that has not started, no WAIT, FENCE or BARRIER-AND
being before it; a barrier packet and a FENCE only where nothing is. -/
def startable? (s : State) (q : Queue) : Option Packet :=
  if s.dev.stage ≠ 4 ∨ !q.mapped ∨ q.stopped then none
  else
    match q.packets.find? (fun p => !p.started) with
    | none => none
    | some p =>
      let before := q.packets.takeWhile (fun x => x.index != p.index)
      if before.any (fun x => memNat (x.field 1 1) [3, 5, 9]) then none
      else if (bitOf (p.field 2 1) 1 || p.field 1 1 == 5) && before != [] then none
      else some p

/-- R382: a packet that failed its checks completes when it starts, with its status. -/
def failPacket (p : Packet) (f : Nat × Nat) (s : State) : State :=
  completePacket p.journal f.1 (if f.1 = 1 ∨ f.1 = 4 then f.2 else 0) s

/-- A packet starts: it carries its start tick. -/
def markStarted (q : Queue) (p : Packet) (s : State) : State :=
  modPacket q.qid p.index (fun x => { x with started := true, startTick := s.tick, hold := none }) s

/-- R380: the next packet of a queue starts if it is of a type: it fails, or has its effect. -/
def startType (ok : Nat → Bool) (qid : Nat) (f : Queue → Packet → State → State) (s : State) : Out :=
  match queueOf? s qid with
  | none => .next s
  | some q =>
    match startable? s q with
    | none => .next s
    | some p =>
      if !ok (p.field 1 1) then .next s
      else
        match p.failed with
        | some e => .next (failPacket p e (markStarted q p s))
        | none => .next (f q p (markStarted q p s))

/-- NOP_PACKET (R380): a NOP completes when it starts; so does a packet of a reserved type, as malformed. -/
def execNopPacket (qid : Nat) (s : State) : Out :=
  startType (fun t => t == 0 || decide (9 < t)) qid (fun _ p t => completePacket p.journal 0 0 t) s

/-! LAUNCH (R252, R259, R381). -/

/-- R381, R385: the parameter windows that a viaduct captures: the queue's, with window 0 the launch's own. -/
def captureParams (q : Queue) (l : Launch) : List ParamBind :=
  if l.w0size = 0 then q.params else ⟨0, l.w0base, l.w0size⟩ :: q.params.filter (fun b => b.win != 0)

/-- R63: the memory of a start, from which a viaduct's code is fetched. -/
def codeImage (s : State) : List Host.Cell := memApply s.mem s.wq

/-- R259, R381: a viaduct for the spans first to last - 1 of a launch. -/
def newViaduct (uid : Nat) (ps : List ParamBind) (c : Context) (l : Launch) (first last journal : Nat)
    (gang : Option Nat) (ready : Nat) (st : ViaductSt) (s : State) : Viaduct :=
  { uid := uid, ctx := c.num, owner := c.owner, launch := l, image := codeImage s, params := ps,
    journal := journal, gang := gang, firstSpan := first, lastSpan := last, startTick := s.tick,
    readyTick := ready, chunks := dealChunks (partDies s c.part) (last - first), placed := [], retired := 0, bars := [],
    trap := none, st := st, asked := [], firmware := false }

/-- LAUNCH_PACKET (R381, R382): a viaduct starts, its placement checked once more. -/
def execLaunchPacket (qid : Nat) (s : State) : Out :=
  startType (fun t => t == 1) qid (fun q p t =>
    match ctxOf? t q.ctx with
    | none => t
    | some c =>
      let l := launchOf p.bytes
      if !placeable t c l l.spanCount then completePacket p.journal 2 0 t
      else
        let u := fresh t
        { u.2 with viaducts := u.2.viaducts ++
            [newViaduct u.1 (captureParams q l) c l 0 l.spanCount p.journal none t.tick .started u.2] }) s

/-! WAIT, SIGNAL, BARRIER-AND and FENCE (R384, R386, R388). -/

/-- R388: what H3 learns of the page that holds a packet up: the fault of the first of its words that has one, unless it
is open already. -/
def reportHold (q : Queue) (need : Need) (kind : Nat) (words : List Nat) (s : State) : State :=
  match words.findSome? (fun va =>
      match accessIn s q.ctx need va with
      | .ok _ => none
      | .error f => some (⟨q.ctx, pageOf va, kind, f.cause, f.stage2, f.gpa⟩ : OpenFault)) with
  | none => s
  | some f =>
    if memNat 1 (s.ms.openFaults.map (fun x => if x.ctx = f.ctx ∧ x.page = f.page then 1 else 0)) then s
    else { s with ms := { s.ms with openFaults := s.ms.openFaults ++ [f] } }

/-- A started packet waits, from now on if it did not before. -/
def holdPacket (q : Queue) (p : Packet) (s : State) : State :=
  modPacket q.qid p.index (fun x => { x with hold := some (x.hold.getD s.tick) }) s

/-- R384: whether every word of a waiting packet lies on a page that can be read. -/
def wordsReadable (s : State) (q : Queue) (p : Packet) : Bool :=
  p.waits.all (fun w => (packetWord s q.ctx w.2.1).isSome)

/-- R384, R388: a started WAIT or BARRIER-AND watches its words, or is held while a page of them is not there, which H3
learns. -/
def watchWords (q : Queue) (p : Packet) (s : State) : State :=
  if wordsReadable s q p then recheckPacket q.qid p.index (modPacket q.qid p.index (fun x => { x with hold := none }) s)
  else holdPacket q p (reportHold q needRd 0 (p.waits.map (fun w => w.2.1)) s)

/-- The started packet of a type that a queue holds because of a page. -/
def heldPacket? (q : Queue) (type : Nat) : Option Packet :=
  q.packets.find? (fun p => p.started && p.field 1 1 == type && p.hold.isSome)

/-- R384, R388: a packet of a type starts, or goes on once its page is there. -/
def startOrResume (type qid : Nat) (f : Queue → Packet → State → State) (s : State) : Out :=
  match (queueOf? s qid).bind (fun q => (heldPacket? q type).map (fun p => (q, p))) with
  | some (q, p) => if q.mapped then .next (f q p s) else .next s
  | none => startType (fun t => t == type) qid f s

/-- WAIT_PACKET (R384). -/
def execWaitPacket (qid : Nat) (s : State) : Out := startOrResume 3 qid watchWords s

/-- BARRIER_AND (R384). -/
def execBarrierAnd (qid : Nat) (s : State) : Out := startOrResume 9 qid watchWords s

/-- R384: the new value of a signal word. -/
def signalValue (p : Packet) (old : Nat) : Nat :=
  if p.field 8 1 % 4 = 1 then (old + p.field 24 8) % 2 ^ 64 else p.field 24 8

/-- R384: a SIGNAL whose write is performed at pod scope, the invalidations being acknowledged, sends its interrupt and
completes; before, it waits. -/
def finishSignal (q : Queue) (p : Packet) (s : State) : State :=
  if s.ms.invals.any (fun v => v.writer.cls == .packet p.journal) then holdPacket q p s
  else
    let t := if bitOf (p.field 8 1) 7 then
        { s with front := { s.front with msix := s.front.msix ++ [(q.func, p.field 10 2)] } } else s
    completePacket p.journal 0 0 t

/-- R384: a SIGNAL performs its write at the home of its word, or is held; a packet whose write has been made carries
that in conds. -/
def sendSignal (q : Queue) (p : Packet) (s : State) : State :=
  if p.conds ≠ [] then finishSignal q p s
  else
    let va := p.field 16 8
    let need := if p.field 8 1 % 4 = 1 then needRdW else needW
    match accessIn s q.ctx need va with
    | .error _ => holdPacket q p (reportHold q need (if p.field 8 1 % 4 = 1 then 2 else 1) [va] s)
    | .ok l =>
      if lineWaits s l va then holdPacket q p s
      else
        let t := recallHome va l s
        let bytes := lineBytes va (natToBytes 8 (signalValue p (rdNat t l.phys 8)))
        let t := homeWrite firmwareCtx va (homeAgent l % 4) ⟨.packet p.journal, 0, 0⟩ l bytes t
        finishSignal q p (modPacket q.qid p.index (fun x => { x with conds := [0] }) t)

/-- SIGNAL_PACKET (R384). -/
def execSignalPacket (qid : Nat) (s : State) : Out := startOrResume 4 qid sendSignal s

/-- R386: whether a record of a context still waits to be written, or the snapshots of a sample tick before a start. -/
def recordsWait (s : State) (ctx start : Nat) : Bool :=
  decide (nextSample s < start) || s.ms.unsent.any (fun r => r.ctx == ctx) ||
    (allGroups s).any (fun g => g.ctx == ctx && (splitsOf s g).any (fun p => p.unsent != []))

/-- R386: a FENCE completes once every record and snapshot is written; its start tick is that of its first look. -/
def finishFence (q : Queue) (p : Packet) (s : State) : State :=
  if recordsWait s q.ctx (p.hold.getD s.tick) then holdPacket q p s else completePacket p.journal 0 0 s

/-- FENCE_PACKET (R386). -/
def execFencePacket (qid : Nat) (s : State) : Out := startOrResume 5 qid finishFence s

/-- WAIT_PACKET_TIMEOUT (R384): the deadline of a started WAIT passes; without continue the queue stops. -/
def execWaitPacketTimeout (qid : Nat) (s : State) : Out :=
  match (queueOf? s qid).bind (fun q => (q.packets.find? (fun p => p.started && p.field 1 1 == 3)).map (fun p => (q, p))) with
  | none => .next s
  | some (q, p) =>
    if p.field 32 8 = 2 ^ 64 - 1 ∨ s.tick < p.startTick + p.field 32 8 then .next s
    else
      let t := completePacket p.journal 8 0 s
      .next (if bitOf (p.field 9 1) 0 then t else stopQueue q.qid t)

/-- PACKET_WATCH_POLL (R384): the conditions of a queue in the packet-watch store are read and registered again. -/
def execPacketWatchPoll (qid : Nat) (s : State) : Out :=
  match s.front.storeWatches.find? (fun w => w.qid == qid && decide (w.lastPoll + 1024 ≤ s.tick)) with
  | none => .next s
  | some w =>
    let ws := updateAll (fun x => x.qid == qid) (fun x => { x with lastPoll := s.tick }) s.front.storeWatches
    let t := { s with front := { s.front with storeWatches := ws } }
    .next (recheckPacket qid w.index t)

/-! Bindings (R355, R356, R385, R445). -/

/-- PARAM_BIND (R385). -/
def execParamBind (qid : Nat) (s : State) : Out :=
  startType (fun t => t == 8) qid (fun q p t =>
    let w := p.field 8 1
    let rest (x : Queue) : List ParamBind := x.params.filter (fun b => b.win != w)
    let bind_ (x : Queue) : Queue :=
      if bitOf (p.field 9 1) 0 then { x with params := rest x }
      else { x with params := rest x ++ [⟨w, p.field 16 8, p.field 24 8⟩] }
    completePacket p.journal 0 0 (modQueue q.qid bind_ t)) s

/-- WINDOW_BIND (R385): the packet waits for each die it names. -/
def execWindowBind (qid : Nat) (s : State) : Out :=
  startType (fun t => t == 7) qid (fun q p t =>
    modPacket q.qid p.index (fun x => { x with conds := (List.range 4).filter (bitOf (p.field 9 1)) }) t) s

/-- R355, R356, R385: the record of a window on a die replaced, its counters zero and its streams begun anew. -/
def rebindWindow (ctx die : Nat) (p : Packet) (s : State) : State :=
  let w := p.field 8 1
  let off := bitOf (p.field 10 1) 0
  let r : Window := { die := die, ctx := ctx, idx := w, base := p.field 16 8, key := p.field 12 2, bound := !off,
                      size := p.field 24 8, issued := 0, acked := 0, target := 0 }
  let agent := agentOf s die
  { s with fab := { s.fab with
      windows := s.fab.windows.filter (fun x => !(x.die == die && x.ctx == ctx && x.idx == w)) ++ [r],
      streams := s.fab.streams.filter (fun x => !(x.ctx == ctx && x.win == w && (x.src == agent || x.agent == agent))),
      resent := s.fab.resent.filter (fun x => !(x.ctx == ctx && x.win == w && (x.src == agent || x.agent == agent))) } }

/-- WINDOW_BIND_APPLY (R385): a die's window record is replaced once every lane issued has been acknowledged. -/
def execWindowBindApply (qid die : Nat) (s : State) : Out :=
  match (queueOf? s qid).bind (fun q => (q.packets.find? (fun p => p.started && memNat die p.conds)).map (fun p => (q, p))) with
  | none => .next s
  | some (q, p) =>
    let old := s.fab.windows.find? (fun x => x.die == die && x.ctx == q.ctx && x.idx == p.field 8 1)
    if !(old.map (fun x => x.acked == x.issued)).getD true then .next s
    else
      let t := evalMonitors (rebindWindow q.ctx die p s)
      let left := p.conds.filter (fun d => d != die)
      let u := modPacket qid p.index (fun x => { x with conds := left }) t
      .next (if left = [] then completePacket p.journal 0 0 u else u)

/-- LOOP_SET (R385, R445): the fields are kept for the next sample period. -/
def execLoopSet (qid : Nat) (s : State) : Out :=
  startType (fun t => t == 6) qid (fun q p t =>
    modCtx q.ctx (fun c => { c with pendingLoops := c.pendingLoops ++ [(p.journal, p.bytes)] }) t) s

/-! Mapping queues to slots (R387, R388). -/

/-- R387: the slot quota of a partition. -/
def slotQuotaOf (s : State) (part : Nat) : Nat := mapGet 8 s.ten.slotQuota part

/-- The owner and partition of a queue. -/
def queueHome (s : State) (q : Queue) : Option (Nat × Nat) := (ctxOf? s q.ctx).map (fun c => (c.owner, c.part))

/-- R387: whether the packet at a queue's read index is written. -/
def hasWritten (s : State) (q : Queue) : Bool :=
  match readVa s q.ctx needRd (ringAddr q q.rd) 1 with
  | .ok bs => bytesToNat bs == validByte q q.rd
  | .error _ => false

/-- R387: the queues of a partition. -/
def partQueues (s : State) (part : Nat) : List Queue :=
  s.front.queues.filter (fun q => ((queueHome s q).map (fun h => h.2 == part)).getD false)

/-- The owner of a queue. -/
def queueOwner (s : State) (q : Queue) : Nat := ((queueHome s q).map (fun h => h.1)).getD 256

/-- R387: the slots that an owner holds in a partition. -/
def slotsHeld (s : State) (part owner : Nat) : Nat :=
  ((partQueues s part).filter (fun q => q.mapped && queueOwner s q == owner)).length

/-- R387: an owner's entitlement to slots of a partition. -/
def entitlement (s : State) (part owner : Nat) : Nat :=
  let os := (((partQueues s part).filter (fun q => q.mapped || q.pending)).map (queueOwner s)).eraseDups
  let total := (os.map (fun o => (ownerRec s o).weight)).sum
  slotQuotaOf s part * (ownerRec s owner).weight / max 1 total

/-- R387: a pending queue's level. -/
def queueLevel (s : State) (q : Queue) : Nat := min 8 ((s.tick - q.kickTick) / 65536)

/-- R387: whether a pending queue counts under rule 1. -/
def underEntitled (s : State) (part : Nat) (q : Queue) : Bool :=
  decide (slotsHeld s part (queueOwner s q) < entitlement s part (queueOwner s q)) || queueLevel s q == 8

/-- R387: whether a pending queue is mapped before another. -/
def mapsBefore (s : State) (part : Nat) (a b : Queue) : Bool :=
  let key (q : Queue) : Nat × Nat × Nat × Nat :=
    (if underEntitled s part q then 0 else 1, 8 - queueLevel s q, q.kickTick, q.qid)
  let x := key a
  let y := key b
  decide (x.1 < y.1) || (x.1 == y.1 && (decide (x.2.1 < y.2.1) || (x.2.1 == y.2.1 &&
    (decide (x.2.2.1 < y.2.2.1) || (x.2.2.1 == y.2.2.1 && decide (x.2.2.2 ≤ y.2.2.2))))))

/-- R387: the pending queue of a partition that is mapped next. -/
def nextPending? (s : State) (part : Nat) : Option Queue :=
  let qs := (partQueues s part).filter (fun q => q.pending && !q.mapped)
  qs.find? (fun q => qs.all (mapsBefore s part q))

/-- R387: a queue takes a slot; it resumes at its saved read count. -/
def mapQueue (qid : Nat) (s : State) : State :=
  modQueue qid (fun q => { q with mapped := true, pending := false, mapTick := s.tick, idleTick := s.tick,
                                  looking := true, lookTick := s.tick }) s

/-- R378, R387: a queue loses its slot: the slot state is saved in the control block, the read count is published, and
it is pending again if packets are written. -/
def unmapQueue (q : Queue) (s : State) : State :=
  let more := hasWritten s q || q.packets.any (fun p => !p.started)
  let t := publishRd q (firmwareWrite q.ctx (q.qcb + 32) Writer.none (fitTo 0 32 (Config.slotState q.rd)) s)
  modQueue q.qid (fun x => { x with mapped := false, looking := false, pending := more, kickTick := s.tick }) t

/-- R387: whether a mapped queue has been idle for 65536 ticks. -/
def queueIdle (s : State) (q : Queue) : Bool :=
  q.mapped && decide (q.idleTick + 65536 ≤ s.tick) && q.packets.all (fun p => !p.started) && !hasWritten s q

/-- R387: the queue that makes room for a candidate of rule 1: the most recently mapped one, with no started packet,
of an owner that holds more than its entitlement. -/
def overQueue? (s : State) (part : Nat) : Option Queue :=
  let qs := (partQueues s part).filter (fun q => q.mapped &&
    decide (entitlement s part (queueOwner s q) < slotsHeld s part (queueOwner s q)))
  let last := qs.filter (fun q => qs.all (fun x => !(queueOwner s x == queueOwner s q) || decide (x.mapTick ≤ q.mapTick)))
  last.find? (fun q => q.packets.all (fun p => !p.started))

/-- R387: the free slots of a partition filled, one queue after another. -/
def fillSlots (part : Nat) : Nat → State → State
  | 0, s => s
  | n + 1, s =>
    match nextPending? s part with
    | none => s
    | some q =>
      if ((partQueues s part).filter (fun x => x.mapped)).length < slotQuotaOf s part then
        fillSlots part n (mapQueue q.qid s)
      else if underEntitled s part q then
        match overQueue? s part with
        | some x => fillSlots part n (mapQueue q.qid (unmapQueue x s))
        | none => s
      else s

/-- SLOT_MAPPING_PASS (R387): H2 unmaps idle queues and fills the free slots of every partition. -/
def execSlotMappingPass (s : State) : Out :=
  let t := (s.front.queues.filter (queueIdle s)).foldl (fun u q => unmapQueue q u) s
  .next ((List.range 16).foldl (fun u p => fillSlots p 256 u) t)

/-- R388: queues without a slot whose held WAIT can be read now are pending again. -/
def wakeHolds (s : State) : State :=
  (s.front.queues.filter (fun q => !q.mapped && !q.pending &&
      ((heldPacket? q 3).map (wordsReadable s q)).getD false)).foldl
    (fun t q => modQueue q.qid (fun x => { x with pending := true, kickTick := s.tick }) t) s

/-- WAIT_PAGE_HOLD_EXPIRY (R388): a WAIT whose page is not resident loses its slot after 25000 ticks. -/
def execWaitPageHoldExpiry (qid : Nat) (s : State) : Out :=
  match (queueOf? s qid).bind (fun q => (heldPacket? q 3).map (fun p => (q, p))) with
  | none => .next s
  | some (q, p) =>
    if !q.mapped ∨ s.tick < p.hold.getD 0 + 25000 then .next s
    else if wordsReadable s q p then .next (watchWords q p s)
    else
      let t := unmapQueue q s
      .next (modQueue qid (fun x => { x with pending := false }) t)

/-! Gang launches (R389). -/

/-- GANG_PACKET (R389): a gang launch begins by reserving. -/
def execGangPacket (qid : Nat) (s : State) : Out :=
  startType (fun t => t == 2) qid (fun q p t =>
    let u := fresh t
    let ms := (memberList (p.bytes.drop 128) (p.field 16 2)).map (fun m => (⟨m.1, m.2.1, false, none⟩ : GangMember))
    let ps := captureParams q (launchOf ((p.bytes.drop 64).take 64))
    let g : Gang := { uid := u.1, coord := t.pkg, num := u.1, packet := p.bytes.take 64, params := ps, ctx := q.ctx, qid := qid, index := p.index, image := (p.bytes.drop 64).take 64,
                      members := ms, limit := p.field 20 4, lead := p.field 32 4, begun := t.tick, retryAt := 0,
                      startAt := 0, st := .reserving, viaduct := none }
    { u.2 with front := { u.2.front with gangs := u.2.front.gangs ++ [g] } }) s

/-- R389: the spans of member i of a gang of M members. -/
def memberSpans (l : Launch) (i m : Nat) : Nat × Nat := (i * l.spanCount / m, (i + 1) * l.spanCount / m)

/-- R389: this package reserves its part of a gang, of the partition that the list names, which must be the context's: its
checks pass and, for a cooperative part, it fits as a whole; its groups do not run yet. The code image of the part is that
of this moment: R63 speaks of the start of a LAUNCH only (log entry 106). -/
def reservePart (g : Gang) (i : Nat) (s : State) : Option State :=
  match ctxOf? s g.ctx, g.members[i]? with
  | some c, some m =>
    let l := launchOf g.image
    let r := memberSpans l i g.members.length
    if c.part ≠ m.part ∨ !placeable s c l (r.2 - r.1) then none
    else
      let u := fresh s
      let v := newViaduct u.1 g.params c l r.1 r.2 0 (some g.uid) 0 .waiting u.2
      let t := { u.2 with viaducts := u.2.viaducts ++ [v] }
      let t := modGang g.uid (fun x => { x with viaduct := some v.uid }) t
      if l.coop then tryCoop v t else some t
  | _, _ => none

/-- R389: a member has reserved. -/
def markReserved (gang i : Nat) (s : State) : State :=
  modGang gang (fun g => { g with members := g.members.zipIdx.map (fun m =>
    if m.2 = i then { m.1 with reserved := true } else m.1) }) s

/-- R389: a member has refused; the round will be rolled back and repeated 65536 ticks later. -/
def refuseGang (gang : Nat) (s : State) : State :=
  modGang gang (fun g => { g with st := .waitRetry, retryAt := s.tick + 65536 }) s

/-- GANG_RESERVE (R389): a member reserves its part or refuses: this package by its own checks, another as it
answers. -/
def execGangReserve (gang member : Nat) (ok : Bool) (s : State) : Out :=
  match gangOf? s gang with
  | none => .next s
  | some g =>
    match g.members[member]? with
    | none => .next s
    | some m =>
      if g.st ≠ .reserving ∨ m.reserved then .next s
      else if m.pkg = s.pkg then
        match reservePart g member s with
        | some t => .next (markReserved gang member t)
        | none => .next (refuseGang gang s)
      else if ok then .next (markReserved gang member s) else .next (refuseGang gang s)

/-- R389, R390: the journal entry of a part of a gang. -/
def partEntry (g : Gang) (c : Context) (tick : Nat) : JEntry :=
  { seq := 0, hash := packetHash g.packet, tag := fld g.packet 4 4, accept := tick, done := 0, index := g.index,
    queue := 0xFFFF, owner := c.owner, part := c.part, type := 2, status := 255, ctx := c.num, detail := 0, func := c.func }

/-- R389: whether a gang launch may commit here: every member has reserved, or the coordinating package has sent its
commit; and the journal has room for this package's part (R391). -/
def mayCommit (s : State) (g : Gang) : Bool :=
  g.st == .reserving && (if g.coord = s.pkg then g.members.all (fun m => m.reserved) else g.startAt != 0) &&
    !(g.viaduct.isSome && journalFull s)

/-- GANG_COMMIT (R389): the start tick is fixed and this package journals its part. -/
def execGangCommit (gang : Nat) (s : State) : Out :=
  match gangOf? s gang with
  | none => .next s
  | some g =>
    if !mayCommit s g then .next s
    else
      let transit := Config.gangTransit (g.members.map (fun m => m.pkg))
      let start := if g.coord = s.pkg then max (s.tick + g.lead) (s.tick + 2 * transit) else g.startAt
      let t := modGang gang (fun x => { x with st := .committed, startAt := start }) s
      match g.viaduct, ctxOf? s g.ctx with
      | some v, some c =>
        .next (journalAppend (partEntry g c s.tick) (modViaduct v (fun x => { x with journal := s.front.jseq }) t))
      | _, _ => .next t

/-- R389: the reservation of this package's part of a gang is freed. -/
def freePart (g : Gang) (s : State) : State :=
  let mine (n : Nat) : Bool := g.viaduct == some n
  refreshCtx g.ctx { s with
    viaducts := s.viaducts.filter (fun v => !mine v.uid), spans := s.spans.filter (fun x => !mine x.viaduct),
    groups := s.groups.filter (fun x => !mine x.viaduct) }

/-- GANG_ROLLBACK (R389): the members free their reservations. -/
def execGangRollback (gang : Nat) (s : State) : Out :=
  match gangOf? s gang with
  | none => .next s
  | some g =>
    if g.st ≠ .waitRetry then .next s
    else
      .next (modGang gang (fun x =>
        { x with viaduct := none, members := x.members.map (fun m => { m with reserved := false }) }) (freePart g s))

/-- GANG_RETRY (R389): the reservation round is repeated, or the GANG completes with gang-rollback past its limit. -/
def execGangRetry (gang : Nat) (s : State) : Out :=
  match gangOf? s gang with
  | none => .next s
  | some g =>
    if g.st ≠ .waitRetry ∨ g.viaduct.isSome ∨ g.members.any (fun m => m.reserved) then .next s
    else if g.begun + g.limit ≤ s.tick then
      match (queueOf? s g.qid).bind (fun q => q.packets.find? (fun p => p.index == g.index)) with
      | some p => .next (completePacket p.journal 6 0 (modGang gang (fun x => { x with st := .done }) s))
      | none => .next (modGang gang (fun x => { x with st := .done }) s)
    else if g.retryAt ≤ s.tick then .next (modGang gang (fun x => { x with st := .reserving }) s)
    else .next s

/-- GANG_START (R389): at the start tick every group of the part becomes ready. -/
def execGangStart (gang : Nat) (s : State) : Out :=
  match gangOf? s gang with
  | none => .next s
  | some g =>
    if g.st ≠ .committed ∨ s.tick < g.startAt then .next s
    else
      let t := modGang gang (fun x => { x with st := .started }) s
      match g.viaduct with
      | none => .next t
      | some v =>
        let u := modViaduct v (fun x => { x with st := .started, startTick := s.tick, readyTick := g.startAt }) t
        let w := { u with groups := u.groups.map (fun x => if x.viaduct = v then { x with stamp := coreClk s x.die x.core } else x) }
        .next (settleViaduct v w)

/-! What other packages do to a gang launch (R389, R409). -/

/-- The gang launch that a package coordinates under a number. -/
def foreignGang? (s : State) (coord num : Nat) : Option Gang :=
  s.front.gangs.find? (fun g => g.coord == coord && g.num == num)

/-- R389: this package's part of a gang that another package coordinates is reserved, or the request is refused. -/
def takeReserve (dom : Nat) (g : Gang) (s : State) : State :=
  match ctxOfDomain? s dom, g.members.zipIdx.find? (fun m => m.1.pkg == s.pkg) with
  | some c, some m =>
    if g.coord = s.pkg ∨ (foreignGang? s g.coord g.num).isSome then s
    else
      let u := fresh s
      let h : Gang := { g with uid := u.1, ctx := c, st := .reserving, viaduct := none, startAt := 0 }
      let t := { u.2 with front := { u.2.front with gangs := u.2.front.gangs ++ [h] } }
      match reservePart h m.2 t with
      | some w => markReserved u.1 m.2 w
      | none => s
  | _, _ => s

/-- R389: the commit of another package's gang launch, which GANG_COMMIT carries out here. -/
def takeCommit (coord num start : Nat) (s : State) : State :=
  match foreignGang? s coord num with
  | none => s
  | some g => if g.coord = s.pkg then s else modGang g.uid (fun x => { x with startAt := start }) s

/-- R389: the rollback of another package's gang launch. -/
def takeRollback (coord num : Nat) (s : State) : State :=
  match foreignGang? s coord num with
  | none => s
  | some g =>
    if g.coord = s.pkg ∨ g.st ≠ .reserving then s
    else
      let t := freePart g s
      { t with front := { t.front with gangs := t.front.gangs.filter (fun x => x.uid != g.uid) } }

/-- R240, R389: a trap of a part in another package stops this package's part. -/
def takeGangTrap (coord num : Nat) (r : TrapRec) (s : State) : State :=
  match (foreignGang? s coord num).bind (fun g => g.viaduct) with
  | none => s
  | some v => stopViaduct v r s

/-- R409: this package's part of a gang is cancelled. -/
def takeGangCancel (coord num : Nat) (s : State) : State :=
  match foreignGang? s coord num with
  | none => s
  | some g =>
    match g.viaduct.bind (viaductOf? s) with
    | none => s
    | some v => if g.coord = s.pkg ∨ v.st = .complete then s else endGang v 7 0 (freePart g s)

/-! Registration, restart and acknowledgement (R375, R379, R383, R391). -/

/-- Whether a function may act on a context. -/
def mayActOn (s : State) (func ctx : Nat) : Bool := func == 0 || ((ctxOf? s ctx).map (fun c => c.func == func)).getD false

/-- R375: whether the QCB's fields are in range and its ring is mapped read-write. -/
def qcbGood (s : State) (ctx : Nat) (bs : List Byte) : Bool :=
  let base := fld bs 0 8
  let n := fld bs 24 1
  base % 64 == 0 && bitsOf base 63 56 == 0 && decide (4 ≤ n ∧ n ≤ 16) && decide (fld bs 25 1 < n) &&
    fld bs 26 1 / 4 == 0 && fld bs 27 1 == 0 &&
    (List.range (64 * 2 ^ n / 65536 + 2)).all (fun i =>
      let a := min (pageOf base + 65536 * i) (base + 64 * 2 ^ n - 1)
      match accessIn s ctx needRdW a with
      | .ok _ => true
      | .error _ => false)

/-- QUEUE_REGISTER (R375). -/
def execQueueRegister (func seq ctx qid qcb : Nat) (s : State) : Out :=
  request func (ruleCode 375) seq false (fun t =>
    match readVa t ctx needRdW qcb 64, ctxOf? t ctx with
    | .ok bs, some c =>
      if !mayActOn t func ctx ∨ (queueOf? t qid).isSome ∨ 65535 < qid ∨ !qcbGood t ctx bs then refuse t
      else
        let q : Queue :=
          { qid := qid, ctx := ctx, func := c.func, qcb := qcb, base := fld bs 0 8, size := fld bs 24 1,
            pub := fld bs 25 1, halt := bitOf (fld bs 26 1) 0, stopped := false, rd := 0, mapped := false,
            mapTick := 0, idleTick := t.tick, pending := false, kickTick := 0, looking := false, lookTick := 0,
            packets := [], params := [] }
        let head := natToBytes 1 (fld bs 26 1 % 2) ++ natToBytes 1 0 ++ natToBytes 2 ctx ++ natToBytes 2 qid
        let u := firmwareWrite ctx (qcb + 26) Writer.none (head ++ natToBytes 32 0)
          (firmwareWrite ctx (qcb + 16) Writer.none (natToBytes 8 0) t)
        done [] { u with front := { u.front with queues := u.front.queues ++ [q] } }
    | _, _ => refuse t) s

/-- R383: the packets of a queue that goes are cancelled, but for launches that have started. -/
def cancelPending (q : Queue) (s : State) : State :=
  (q.packets.filter (fun p => !(p.started && memNat (p.field 1 1) [1, 2]))).foldl
    (fun t p => completePacket p.journal 7 0 t) s

/-- QUEUE_UNREGISTER (R383, R387). -/
def execQueueUnregister (func seq qid : Nat) (s : State) : Out :=
  request func (ruleCode 383) seq false (fun t =>
    match queueOf? t qid with
    | none => refuse t
    | some q =>
      if !mayActOn t func q.ctx then refuse t
      else
        let u := publishRd q (cancelPending q t)
        let keep (c : Context) : Context :=
          { c with pendingLoops := c.pendingLoops.filter (fun l => !q.packets.any (fun p => p.journal == l.1)) }
        done [] (modCtx q.ctx keep
          { u with front := { u.front with queues := u.front.queues.filter (fun x => x.qid != qid) } })) s

/-- QUEUE_RESTART (R379): a stopped queue goes on at an index, its held packets started or cancelled. -/
def execQueueRestart (func seq qid index : Nat) (cancel : Bool) (s : State) : Out :=
  request func (ruleCode 379) seq false (fun t =>
    match queueOf? t qid with
    | none => refuse t
    | some q =>
      if !mayActOn t func q.ctx ∨ !q.stopped then refuse t
      else
        let u := if cancel then
            (q.packets.filter (fun p => !p.started)).foldl (fun w p => completePacket p.journal 7 0 w) t else t
        let v := modQueue qid (fun x => { x with stopped := false, rd := index, looking := true, lookTick := t.tick }) u
        match queueOf? v qid with
        | some x => done [] (publishRd x v)
        | none => done [] v) s

/-- JOURNAL_ACKNOWLEDGE (R391): entries below a sequence number may be overwritten. -/
def execJournalAcknowledge (func seq upTo : Nat) (s : State) : Out :=
  request func (ruleCode 391) seq false (fun t =>
    if t.front.jseq < upTo then refuse t
    else done [] { t with front := { t.front with acked := max t.front.acked upTo } }) s

/-! Reading the journal (R390, R485). -/

/-- R390: the 64 bytes of a journal entry. -/
def JEntry.bytes (e : JEntry) : List Byte :=
  natToBytes 8 e.seq ++ fitTo 0 12 e.hash ++ natToBytes 4 e.tag ++ natToBytes 8 e.accept ++ natToBytes 8 e.done ++
    natToBytes 8 e.index ++ natToBytes 2 e.queue ++ natToBytes 1 e.owner ++ natToBytes 1 e.part ++ natToBytes 1 e.type ++
    natToBytes 1 e.status ++ natToBytes 2 e.ctx ++ natToBytes 8 e.detail

/-- R390, R485: where a copy, 0 or 1, of a journal entry stands (log entry 103). -/
def entryAt (s : State) (e : JEntry) (copy : Nat) : Nat := nthD 0 s.dev.journalAt copy + 64 * (e.seq % 2 ^ 20)

/-- R485: whether a copy of a journal entry is uncorrectable: the line where it stands is poisoned. -/
def copyLost (s : State) (e : JEntry) (copy : Nat) : Bool :=
  decide (copy < s.dev.journalAt.length) && isPoisoned s (entryAt s e copy)

/-- R485: a journal entry as it reads: with status 0xFE and its other fields zero where both copies are uncorrectable. -/
def readEntry (s : State) (e : JEntry) : JEntry :=
  if copyLost s e 0 && copyLost s e 1 then ⟨0, [], 0, 0, 0, 0, 0, 0, 0, 0, 0xFE, 0, 0, e.func⟩ else e

/-- R390, R485: what the readout pages of a function give: the entries of its own contexts. -/
def journalPages (s : State) (func : Nat) : List Byte :=
  (s.front.journal.filter (fun e => e.func == func)).flatMap (fun e => (readEntry s e).bytes)

/-- R385: firmware refuses a binding packet that has not started for a limit of its resources. -/
def refuseBinding (qid index : Nat) (s : State) : State :=
  modPacket qid index (fun p =>
    if !p.started && p.failed == none && memNat (p.field 1 1) [6, 7, 8] then { p with failed := some (10, 0) } else p) s

end Sys2Proof.Machine
end

