-- ==== Sys2Proof/Machine/Coherence.lean ====
section
/-! DEFINITION. Requests of remote data caches, invalidations, walks, memory-manager requests, migration, and what the
host link and the L2 masks do (R280, R403 to R410, R413 to R438). -/

namespace Sys2Proof.Machine

open Sys2Proof

/-! Requests between remote data caches and homes (R430 to R432). -/

/-- GETS (R430): the home resolves a read of an agent, unless the line is mid-transition. -/
def execGets (agent dom line : Nat) (s : State) : Out :=
  match leafOfDom s dom line with
  | none => .next s
  | some (ctx, l) =>
    if line % 128 ≠ 0 ∨ 4096 ≤ agent ∨ agent = homeAgent l ∨ ¬ l.pte.c ∨ granuleMoving s dom line ∨
        midTransition s dom line ∨ invalPending s dom line ∨ actingHome s l = some agent then .next s
    else .next (grantGets agent ctx line l s)

/-- R430: the home makes an agent the owner of a line; a poisoned line is granted to nobody (R434). -/
def grantGetx (agent ctx line : Nat) (l : Leaf) (s : State) : State :=
  let t := homeTouch ctx l line { s with ms := { s.ms with getxs := s.ms.getxs.filter (fun x => x != (agent, l.dom, line)) } }
  if sideSt (sideBits s l.phys) = 7 then t else rdcFill agent line .m l (setSide l.phys (mkSide 4 agent 0 false) t)

/-- GETX (R430, R432): the home makes an agent the owner of a line once every other holder has acknowledged its
invalidation; until then the line is mid-transition, and other requests of it wait. A GetX of a line with W = 1 is a
WrH: nothing is granted. -/
def execGetx (agent dom line : Nat) (s : State) : Out :=
  match leafOfDom s dom line with
  | none => .next s
  | some (ctx, l) =>
    if s.ms.getxs.any (fun x => x == (agent, dom, line)) then
      .next (if invalPending s dom line then s else grantGetx agent ctx line l s)
    else if line % 128 ≠ 0 ∨ 4096 ≤ agent ∨ agent = homeAgent l ∨ ¬ l.pte.c ∨ l.pte.wp ∨
        bitOf (sideBits s l.phys) 0 ∨ lineWaits s l line then .next s
    else
      let t := requestCount agent ctx line l s
      if heldElsewhere s dom line agent || invalPending s dom line then
        let u := invalidateRemote dom line (homeAgent l) agent (partTag s ctx) Writer.none t
        .next { u with ms := { u.ms with getxs := u.ms.getxs ++ [(agent, dom, line)] } }
      else .next (grantGetx agent ctx line l t)

/-- R430: the committed entry of a die for a line that can be applied now. -/
def drainable? (s : State) (die dom line : Nat) (l : Leaf) : Option SbEntry :=
  s.ms.entries.find? (fun e => e.die == die && e.dom == dom && e.line == line && canDrain s e l)

/-- WRH (R430): a write-through. A die of this package sends its committed entry; what another package's agent sends
is applied at the home. -/
def execWrh (agent dom addr : Nat) (data : List Byte) (s : State) : Out :=
  match leafOfDom s dom (lineOf addr) with
  | none => .next s
  | some (ctx, l) =>
    if agent = homeAgent l ∨ 4096 ≤ agent then .next s
    else if localAgent s agent then
      match drainable? s (agent % 4) dom (lineOf addr) l with
      | some e => execHomeWriteApply e.uid s
      | none => .next s
    else if data = [] ∨ 128 < addr % 128 + data.length ∨ ¬ l.pte.w ∨ lineWaits s l (lineOf addr) then .next s
    else
      .next (homeWrite ctx addr (homeAgent l % 4) Writer.none l (lineBytes addr data)
        (recallHome (lineOf addr) l (requestCount agent ctx (lineOf addr) l s)))

/-- PUTM (R430). -/
def execPutm (agent dom line : Nat) (s : State) : Out :=
  match heldAs s agent dom line with
  | some .m => .next (takeBack agent dom line s)
  | some .o => .next (takeBack agent dom line s)
  | some .e => .next s
  | some .s => .next s
  | none => .next s

/-- PUTE (R430). -/
def execPute (agent dom line : Nat) (s : State) : Out :=
  match heldAs s agent dom line with
  | some .e => .next (takeBack agent dom line s)
  | some .m => .next s
  | some .o => .next s
  | some .s => .next s
  | none => .next s

/-- INVALIDATION (R432): the slice drops the line, if it still holds it, and acknowledges. -/
def execInvalidation (inv : Nat) (s : State) : Out :=
  match s.ms.invals.find? (fun v => v.uid == inv && !v.acked) with
  | none => .next s
  | some v =>
    .next { s with ms := { s.ms with
      rdc := s.ms.rdc.filter (fun r => !(r.die == v.agent && r.dom == v.dom && r.line == v.line)),
      invals := updateFirst (fun x => x.uid == inv) (fun x => { x with acked := true }) s.ms.invals } }

/-- INVALIDATION_ACK (R432): the acknowledgement reaches the home. -/
def execInvalidationAck (inv : Nat) (s : State) : Out :=
  if s.ms.invals.any (fun v => v.uid == inv && v.acked) then
    .next { s with ms := { s.ms with invals := s.ms.invals.filter (fun v => v.uid != inv) } }
  else .next s

/-! Walks (R423, R427). -/

/-- PAGE_ATTRIBUTE_WALK (R423): a walk that finds a leaf fills the core's lookaside; one that ends in a fault caches
nothing, and the access that missed reports it. -/
def execPageAttributeWalk (die core ctx va : Nat) (s : State) : Out :=
  match accessIn s ctx ⟨false, false, false⟩ va with
  | .ok l => if die < 4 ∧ core < 1024 then .next (attrFill die core va l s) else .next s
  | .error _ => .next s

/-- HOME_TRANSLATION_WALK (R427). -/
def execHomeTranslationWalk (ctx va : Nat) (s : State) : Out :=
  match accessIn s ctx ⟨false, false, false⟩ va with
  | .ok l => .next (htbFill ctx va l s)
  | .error _ => .next s

/-! The mapped pages of a context (R416, R417). -/

/-- The indexes of the entries of a table of n entries at a physical address that memory lists. -/
def listedEntries (s : State) (tab n : Nat) : List Nat :=
  (((s.mem ++ s.wq).filter (fun c => decide (tab ≤ c.1 ∧ c.1 < tab + 8 * n))).map (fun c => (c.1 - tab) / 8)).eraseDups

/-- The physical address of a stage-1 table of a context. -/
def tablePhys (s : State) (c : Context) (a : Nat) : Option Nat := (tableAt s c a).toOption

/-- R420: the address and level of the stage-2 entry that ends the walk of a guest-physical address. -/
def stage2Entry (s : State) (gpa : Nat) : Nat → Nat → Nat × Nat
  | 0, tab => (tab, 3)
  | left + 1, tab =>
    let ea := pkgBase s.pkg + tab + 8 * pteIndex (3 - left) gpa
    let p := pteOf (rdNat s ea 8)
    if p.v && p.isPointer && left != 0 then stage2Entry s gpa left (p.frame * 65536) else (ea, 3 - left)

/-- R420: the addresses of the pages as which the leaf of a level is mapped: of the smaller of both stages' sizes. -/
def leafPieces (s : State) (c : Context) (level va : Nat) (p : Pte) : List Nat :=
  if level = 2 ∧ c.stage2 ≠ 0 ∧ (stage2Entry s (p.frame * 65536) 3 c.stage2).2 = 3 then
    (List.range 8192).map (fun k => va + 65536 * k)
  else [va]

/-- The virtual addresses of the pages of the valid leaves below a stage-1 table; left levels are left. -/
def leavesBelow (s : State) (c : Context) : Nat → Nat → Nat → List Nat
  | 0, _, _ => []
  | left + 1, tab, va =>
    match tablePhys s c tab with
    | none => []
    | some base =>
      let level := 3 - left
      let span := if level = 1 then 2 ^ 42 else levelBytes level
      (listedEntries s base (if level = 1 then 16384 else 8192)).flatMap (fun i =>
        let p := pteOf (rdNat s (base + 8 * i) 8)
        if !p.v then []
        else if p.isPointer then leavesBelow s c left (p.frame * 65536) (va + i * span)
        else if level == 1 || p.badLeaf level then []
        else leafPieces s c level (va + i * span) p)

/-- The physical addresses of the stage-1 tables of a context below one; left levels are left. -/
def tablesBelow (s : State) (c : Context) : Nat → Nat → List Nat
  | 0, _ => []
  | left + 1, tab =>
    match tablePhys s c tab with
    | none => []
    | some base =>
      base :: (listedEntries s base (if left = 2 then 16384 else 8192)).flatMap (fun i =>
        let p := pteOf (rdNat s (base + 8 * i) 8)
        if p.v && p.isPointer then tablesBelow s c left (p.frame * 65536) else [])

/-- The virtual addresses of the pages that a context maps. -/
def pagesOf (s : State) (c : Context) : List Nat := leavesBelow s c 3 c.root1 0

/-- R280, R425: the cacheable mappings outside shared segments that cover bytes of a physical range, as tag domain and
address. -/
def cacheableAt (s : State) (lo n : Nat) : List (Nat × Nat) :=
  (s.ten.ctxs.flatMap (fun c => (pagesOf s c).filterMap (fun va =>
    match walkVa s c va with
    | .ok l => if l.pte.c && !l.pte.seg && meets l.phys (sizeBytes (l.size / 2 * 2)) lo n then some (l.dom, va) else none
    | .error _ => none))).eraseDups

/-- R280, R425: whether the pages of a context from an address on would be mapped cacheable twice. -/
def aliased (s : State) (c : Context) (vas : List Nat) : Bool :=
  vas.any (fun va =>
    match walkVa s c va with
    | .ok l =>
      l.pte.c && !l.pte.seg && decide (2 ≤ (cacheableAt s l.phys (sizeBytes (l.size / 2 * 2))).length)
    | .error _ => false)

/-! The shootdown of a page (R426). -/

/-- Whether a page of a domain from an address on holds an address. -/
def inPage (dom va n d a : Nat) : Bool := d == dom && decide (va ≤ a ∧ a < va + n)

/-- R426: whether a commit under a transaction lock, or a committed store that has not been applied, still touches a page. -/
def pageBusy (s : State) (dom va n : Nat) : Bool :=
  s.ms.entries.any (fun e => e.st == .committed && inPage dom va n e.dom e.line) ||
    (allGroups s).any (fun g =>
      match g.tx with
      | some t =>
        t.phase == .locking && (t.writes.any (fun w => inPage dom va n (domainOf s g.ctx w.2.1) w.2.1) ||
          t.log.any (fun w => inPage dom va n (domainOf s g.ctx w.2.1) w.2.1))
      | none => false)

/-- R426: the coherence bits of the lines of a physical range return to I; W and poison stay. -/
def recallRange (phys n : Nat) (s : State) : State :=
  let f (p : Nat × Nat) : Nat × Nat :=
    if phys ≤ p.1 ∧ p.1 < phys + n ∧ sideSt p.2 ≠ 7 then (p.1, mkSide 0 0 0 (bitOf p.2 0)) else p
  { s with side := (s.side.map f).filter (fun p => p.2 != 0) }

/-- R426, steps 2 to 4: every cached copy of a page and of its translation is gone. -/
def dropPage (dom va phys n : Nat) (s : State) : State :=
  let here (d a : Nat) : Bool := inPage dom va n d a
  let t := dropL2 (fun x => here x.dom x.line) (recallRange phys n s)
  { t with ms := { t.ms with
      attrs := t.ms.attrs.filter (fun e => !(e.dom == dom && meets (e.page / sizeBytes e.size * sizeBytes e.size) (sizeBytes e.size) va n)),
      l1 := t.ms.l1.filter (fun x => !here x.dom x.line),
      rdc := t.ms.rdc.filter (fun x => !here x.dom x.line),
      invals := t.ms.invals.filter (fun x => !here x.dom x.line),
      getxs := t.ms.getxs.filter (fun x => !here x.2.1 x.2.2),
      htbs := t.ms.htbs.filter (fun x => !here x.dom x.page) } }

/-- R426, step 5: the granted claims of open entries on a page are answered anew. -/
def reclaimPage (dom va n : Nat) (c : Claim) (s : State) : State :=
  let hit (e : SbEntry) : Bool := e.st == .opened && e.claim == .granted && inPage dom va n e.dom e.line
  { s with ms := { s.ms with entries := updateAll hit (fun e => { e with claim := c }) s.ms.entries } }

/-- What a memory-manager request does to a page that a context maps: t is the state with the new entries. -/
inductive PageChange
  | same
  | wider
  | reduced
  | removed
  deriving DecidableEq, Repr

/-- R426: how a page that a context mapped in s stands in t. -/
def pageChange (s t : State) (c : Context) (va : Nat) : PageChange :=
  match walkVa s c va with
  | .error _ => .same
  | .ok l =>
    match walkVa t c va with
    | .error _ => .removed
    | .ok m =>
      if m = l then .same
      else if (l.pte.rd && !m.pte.rd) || (l.pte.w && !m.pte.w) || (l.pte.x && !m.pte.x) then .reduced
      else if m.phys = l.phys ∧ { m.pte with rd := l.pte.rd, w := l.pte.w, x := l.pte.x } = l.pte ∧ m.size = l.size then .wider
      else .removed

/-- R426: the pages of a context that a request changes, with their leaves before. -/
def changedPages (s t : State) (c : Context) : List (Nat × Leaf × PageChange) :=
  (pagesOf s c).filterMap (fun va =>
    match walkVa s c va, pageChange s t c va with
    | .ok l, .same => let _ := l; none
    | .ok l, k => some (va, l, k)
    | .error _, _ => none)

/-- R426: the shootdown of one page. -/
def shootPage (p : Nat × Leaf × PageChange) (s : State) : State :=
  let va := p.1
  let l := p.2.1
  let n := sizeBytes (l.size / 2 * 2)
  match p.2.2 with
  | .same => s
  | .wider =>
    { s with ms := { s.ms with attrs := s.ms.attrs.filter (fun e =>
        !(e.dom == l.dom && meets (e.page / sizeBytes e.size * sizeBytes e.size) (sizeBytes e.size) va n)) } }
  | .reduced => reclaimPage l.dom va n (.revoked 2) (dropPage l.dom va l.phys n s)
  | .removed => reclaimPage l.dom va n (.revoked 1) (dropPage l.dom va l.phys n s)

/-- R310: the faults of a context that its mappings now permit are open no longer. -/
def closeFaults (ctx : Nat) (s : State) : State :=
  let fixed (f : OpenFault) : Bool := f.ctx == ctx && f.cause != 3 &&
    match accessIn s ctx (kindNeed f.kind) f.page with
    | .ok _ => true
    | .error _ => false
  { s with ms := { s.ms with openFaults := s.ms.openFaults.filter (fun f => !fixed f) } }

/-! Memory-manager requests (R425, R426). -/

/-- R425: the statuses of memory-manager requests. -/
def mmDone : Nat := 0
/-- R425. -/
def mmAlias : Nat := 1
/-- R425. -/
def mmBadRange : Nat := 2
/-- R425. -/
def mmNoMemory : Nat := 3
/-- R425. -/
def mmNotPermitted : Nat := 4
/-- R425. -/
def mmBusy : Nat := 5

/-- R425, R426: the end of a request that has written entries: t is the state with them, and every context whose pages
they change is reached. It is refused where it would alias a page, or where a page of it is migrating; it waits while a
page it changes is busy. -/
def mmFinish (ctx : Nat) (vas : List Nat) (s t : State) : Option (Nat × State) :=
  match ctxOf? s ctx with
  | none => some (mmNotPermitted, s)
  | some c =>
    let ps := s.ten.ctxs.flatMap (changedPages s t)
    if aliased t c vas then some (mmAlias, s)
    else if ps.any (fun p => granuleMoving s p.2.1.dom p.1) then some (mmBusy, s)
    else if ps.any (fun p => p.2.2 != .wider && pageBusy s p.2.1.dom p.1 (sizeBytes (p.2.1.size / 2 * 2))) then none
    else
      let u := ps.foldl (fun u p => shootPage p u) t
      some (mmDone, wakeHolds ((s.ten.ctxs.map (fun x => x.num)).foldl (fun v n => closeFaults n v) u))

/-- R425: whether a context belongs to a function. -/
def ownsCtx (s : State) (func ctx : Nat) : Bool := ((ctxOf? s ctx).map (fun c => c.func == func)).getD false

/-- R417: the frames of a page of a level. -/
def levelFrames (level : Nat) : Nat := if level = 2 then 8192 else 1

/-- R416, R417, R418: whether a leaf can be written for pages of a level from an address on. -/
def leafGood (c : Context) (level va count : Nat) (p : Pte) : Bool :=
  (level == 2 || level == 3) && p.v && !p.isPointer && !p.badLeaf level && va % levelBytes level == 0 && count != 0 &&
    decide (va + count * levelBytes level ≤ 2 ^ 56 ∧ p.frame + count * levelFrames level ≤ 2 ^ 23) &&
    (List.range count).all (fun i => !p.seg || (segmentOf c (va + i * levelBytes level)).isSome)

/-! Frames (R323, R390, R395, R414, R425, R428). -/

/-- R323, R390, R395, R414: the physical ranges, by base and size, that firmware keeps and no context can map: the copies
of the journal, the watch lists, and the save areas and segment tables that contexts have (log entry 103). -/
def ownRanges (s : State) : List (Nat × Nat) :=
  s.dev.journalAt.map (fun a => (a, 2 ^ 26)) ++ s.dev.listAt.map (fun a => (a, 2 ^ 25)) ++
    s.ten.ctxs.flatMap (fun c =>
      (if c.save = 0 then [] else [(pkgBase s.pkg + c.save, spanRecordAt c c.sslots - c.save)]) ++
        (if c.segtab = 0 then [] else [(pkgBase s.pkg + c.segtab, 1024)]))

/-- Whether a physical range meets what firmware keeps. -/
def firmwareOwns (s : State) (lo n : Nat) : Bool := (ownRanges s).any (fun r => meets r.1 r.2 lo n)

/-- Whether a context maps a byte of a physical range. -/
def rangeMapped (s : State) (lo n : Nat) : Bool :=
  s.ten.ctxs.any (fun c => (pagesOf s c).any (fun va =>
    match walkVa s c va with
    | .ok l => meets l.phys (sizeBytes (l.size / 2 * 2)) lo n
    | .error _ => false))

/-- Whether a frame of a package is free: no page of a context maps it, no table lies in it, firmware does not keep it,
and it is not on the repair list. -/
def frameFree (s : State) (hpkg frame : Nat) : Bool :=
  let lo := hpkg * 2 ^ 39 + frame * 65536
  decide (frame < 2 ^ 23) && !s.dev.repairs.any (fun r => r.frame == frame) && !firmwareOwns s lo 65536 &&
    !rangeMapped s lo 65536 &&
    s.ten.ctxs.all (fun c => !meets (pkgBase s.pkg + c.root1) 131072 lo 65536 &&
      (tablesBelow s c 3 c.root1).all (fun b => !meets b 65536 lo 65536))

/-- R428: frames that H3 gives out start with every coherence bit 0. -/
def freshRange (lo n : Nat) (s : State) : State :=
  { s with side := s.side.filter (fun p => !(decide (lo ≤ p.1 ∧ p.1 < lo + n))) }

/-- The bytes of a range that memory lists become zero. -/
def zeroRange (lo n : Nat) (s : State) : State :=
  ((s.mem ++ s.wq).filter (fun c => decide (lo ≤ c.1 ∧ c.1 < lo + n))).foldl (fun t c => wrByte c.1 0 t) s

/-- R416: a walk to the entry of an address at a level, missing tables taken from the frames H3 allots. The answer
is the entry's physical address and the frames left, or a status. -/
def makePath (c : Context) (level va : Nat) : Nat → Nat → List Nat → State → Except Nat (Nat × List Nat × State)
  | 0, _, _, _ => .error mmBadRange
  | left + 1, tab, fs, s =>
    match tablePhys s c (tab + 8 * pteIndex (3 - left) va) with
    | none => .error mmBadRange
    | some ea =>
      let p := pteOf (rdNat s ea 8)
      if 3 - left = level then (if p.v && p.isPointer then .error mmBadRange else .ok (ea, fs, s))
      else if p.v then (if p.isPointer then makePath c level va left (p.frame * 65536) fs s else .error mmBadRange)
      else
        match fs with
        | [] => .error mmNoMemory
        | f :: rest =>
          match tablePhys s c (f * 65536) with
          | none => .error mmBadRange
          | some base =>
            let t := freshRange base 65536 (zeroRange base 65536 s)
            makePath c level va left (f * 65536) rest (wrNat ea 8 (f * 2 ^ 41 + 1) t)

/-- R416, R417, R425: leaves written for consecutive pages, the frames ascending. -/
def writeLeaves (c : Context) (level : Nat) (p : Pte) : Nat → Nat → List Nat → State → Except Nat State
  | 0, _, _, s => .ok s
  | n + 1, va, fs, s =>
    match makePath c level va 3 c.root1 fs s with
    | .error e => .error e
    | .ok r =>
      writeLeaves c level { p with frame := p.frame + levelFrames level } n (va + levelBytes level) r.2.1
        (wrNat r.1 8 p.toNat r.2.2)

/-- The virtual addresses of consecutive pages of a level. -/
def pageRange (level va count : Nat) : List Nat := (List.range count).map (fun i => va + i * levelBytes level)

/-- R425: a mapping written into a context's stage-1 tables. -/
def mapPages (r : MapReq) (s : State) : Option (Nat × State) :=
  match ctxOf? s r.ctx with
  | none => some (mmNotPermitted, s)
  | some c =>
    let p := pteOf r.leaf.toNat
    let lo := p.hpkg * 2 ^ 39 + p.frame * 65536
    let n := r.count * levelFrames r.level * 65536
    if !leafGood c r.level r.va r.count p then some (mmBadRange, s)
    else if c.stage2 = 0 ∧ firmwareOwns s lo n then some (mmNotPermitted, s)
    else
      let tables := if c.stage2 = 0 then r.tables.filter (frameFree s s.pkg) else r.tables
      let t := if c.stage2 ≠ 0 ∨ rangeMapped s lo n then s else freshRange lo n s
      match writeLeaves c r.level p r.count r.va tables t with
      | .error e => some (e, s)
      | .ok t => mmFinish r.ctx (pageRange r.level r.va r.count) s t

/-- R425: the leaf entry of a page that a context maps, at the page's address: its physical address and level. -/
def leafEntry? (s : State) (c : Context) (va : Nat) : Option (Pte × Nat × Nat) :=
  let at_ (a : Nat) : Except WalkFault Nat :=
    match tablePhys s c a with
    | some x => .ok x
    | none => .error ⟨4, true, a⟩
  match walkLevels s at_ va 3 c.root1 with
  | .ok r => if va % levelBytes r.2.1 = 0 ∧ va < 2 ^ 56 then some r else none
  | .error _ => none

/-- R425, R426: what a request of the owning function that changes the leaf entries of a page answers. -/
def mmChange (func ctx va : Nat) (f : Pte × Nat × Nat → State → Option State) (s : State) : Option (Nat × State) :=
  if !ownsCtx s func ctx then some (mmNotPermitted, s)
  else
    match ctxOf? s ctx with
    | none => some (mmNotPermitted, s)
    | some c =>
      match leafEntry? s c va with
      | none => some (mmBadRange, s)
      | some r =>
        match f r s with
        | none => some (mmBadRange, s)
        | some u => mmFinish ctx [va] s u

/-- R418, R426: the leaf entry of a page with other permissions: read, write and execute in bits 0 to 2. -/
def setPerm (perm : Nat) (r : Pte × Nat × Nat) (s : State) : Option State :=
  let p : Pte := { r.1 with rd := bitOf perm 0, w := bitOf perm 1, x := bitOf perm 2 }
  if p.isPointer || p.badLeaf r.2.1 || decide (8 ≤ perm) then none else some (wrNat r.2.2 8 p.toNat s)

/-- R417, R426: the entries of the aligned set of a leaf with their run bit changed; a set that would be no run is
refused. -/
def setRun (run : Bool) (r : Pte × Nat × Nat) (s : State) : Option State :=
  let n := (runShape r.2.1).1
  let base := runBase r.2.1 r.2.2
  let t := (List.range n).foldl (fun u i =>
    let p := pteOf (rdNat u (base + 8 * i) 8)
    if p.v && !p.isPointer then wrNat (base + 8 * i) 8 { p with run := run }.toNat u else u) s
  if run && !isRun t r.2.1 r.2.2 then none else some t

/-- R416, R418: whether a stage-2 entry is legal at a level: absent, a leaf, or a table pointer. -/
def stage2Legal (level gpa : Nat) (p : Pte) : Bool :=
  !p.v || (if p.isPointer then level != 3 && !p.badPointer
    else level != 1 && !p.badLeaf level && gpa % levelBytes level == 0)

/-- R425, R426: the physical function changes the entry of a guest-physical address. -/
def stage2Change (func ctx gpa : Nat) (entry : W64) (s : State) : Option (Nat × State) :=
  match ctxOf? s ctx with
  | none => some (mmNotPermitted, s)
  | some c =>
    if func ≠ 0 then some (mmNotPermitted, s)
    else if c.stage2 = 0 ∨ 2 ^ 56 ≤ gpa then some (mmBadRange, s)
    else
      let e := stage2Entry s gpa 3 c.stage2
      let p := pteOf entry.toNat
      let lo := p.hpkg * 2 ^ 39 + p.frame * 65536
      let n := levelFrames e.2 * 65536
      let leaf := p.v && !p.isPointer
      if !stage2Legal e.2 gpa p then some (mmBadRange, s)
      else if leaf && firmwareOwns s lo n then some (mmNotPermitted, s)
      else
        let u := wrNat e.1 8 entry.toNat (if leaf && !rangeMapped s lo n then freshRange lo n s else s)
        mmFinish ctx (pagesOf u c) s u

/-- R413: whether a pod-wide id is one that no live context or segment uses and no cache, lookaside or buffer holds. -/
def domainUnused (s : State) (id : Nat) : Bool :=
  s.ten.ctxs.all (fun c => c.tagdom != id) && s.ten.segments.all (fun g => g.id != id) &&
    s.ms.rdc.all (fun r => r.dom != id) && s.ms.l1.all (fun x => x.dom != id) && s.ms.l2.all (fun x => x.dom != id) &&
    s.ms.attrs.all (fun x => x.dom != id) && s.ms.htbs.all (fun x => x.dom != id)

/-- R413, R415: a segment is created. -/
def segmentCreate (func base size id : Nat) (s : State) : Option (Nat × State) :=
  if base % 65536 ≠ 0 ∨ size % 65536 ≠ 0 ∨ size = 0 ∨ 2 ^ 56 < base + size ∨ id < 4096 ∨ 65536 ≤ id ∨ !domainUnused s id ∨
      s.ten.segments.any (fun g => meets g.base g.size base size) then some (mmBadRange, s)
  else some (mmDone, { s with ten := { s.ten with segments := s.ten.segments ++ [⟨base, size, id, func⟩] } })

/-- R414: the 16 bytes of a segment-table entry. -/
def Segment.bytes (g : Segment) : List Byte := natToBytes 8 g.base ++ natToBytes 6 g.size ++ natToBytes 2 g.id

/-- R414, R415: the segment enters the context's segment table, which firmware keeps at segtab. -/
def segmentAttach (func ctx id : Nat) (s : State) : Option (Nat × State) :=
  match s.ten.segments.find? (fun g => g.id == id), ctxOf? s ctx with
  | some g, some c =>
    if g.func ≠ func ∨ c.func ≠ func then some (mmNotPermitted, s)
    else if c.segs.any (fun x => meets x.base x.size g.base g.size) then some (mmBadRange, s)
    else if 64 ≤ c.segs.length then some (mmNoMemory, s)
    else
      let t := if c.segtab = 0 then s else wrBytes (pkgBase s.pkg + c.segtab + 16 * c.segs.length) g.bytes s
      some (mmDone, modCtx ctx (fun x => { x with segs := x.segs ++ [g] }) t)
  | none, _ => some (mmBadRange, s)
  | some _, none => some (mmNotPermitted, s)

/-! Requests in order (R425, R463). -/

/-- R425: the function that sent a request. -/
def MmReq.func : MmReq → Nat
  | .map r => r.func
  | .unmap f _ _ _ => f
  | .protect f _ _ _ _ => f
  | .run f _ _ _ _ => f
  | .stage2 f _ _ _ _ => f
  | .create f _ _ _ _ => f
  | .attach f _ _ _ => f

/-- R425: the sequence number of a request. -/
def MmReq.seq : MmReq → Nat
  | .map r => r.seq
  | .unmap _ n _ _ => n
  | .protect _ n _ _ _ => n
  | .run _ n _ _ _ => n
  | .stage2 _ n _ _ _ => n
  | .create _ n _ _ _ => n
  | .attach _ n _ _ => n

/-- The code of a request, by the number under which log entry 8 names it. -/
def MmReq.code : MmReq → Nat
  | .map _ => ruleCode 4250
  | .unmap _ _ _ _ => ruleCode 4261
  | .protect _ _ _ _ _ => ruleCode 4262
  | .run _ _ _ _ _ => ruleCode 4263
  | .stage2 _ _ _ _ _ => ruleCode 4264
  | .create _ _ _ _ _ => ruleCode 4151
  | .attach _ _ _ _ => ruleCode 4152

/-- R425: what a request answers now; no answer is a request that waits. -/
def MmReq.answer (q : MmReq) (s : State) : Option (Nat × State) :=
  match q with
  | .map r => if !ownsCtx s r.func r.ctx then some (mmNotPermitted, s) else mapPages r s
  | .unmap f _ ctx va => mmChange f ctx va (fun r t => some (wrNat r.2.2 8 0 t)) s
  | .protect f _ ctx va perm => mmChange f ctx va (setPerm perm) s
  | .run f _ ctx va on => mmChange f ctx va (setRun on) s
  | .stage2 f _ ctx gpa e => stage2Change f ctx gpa e s
  | .create f _ base size id => segmentCreate f base size id s
  | .attach f _ ctx id => segmentAttach f ctx id s

/-- R425: a request joins those that wait. -/
def mmQueue (q : MmReq) (s : State) : State := { s with front := { s.front with mmWaits := s.front.mmWaits ++ [q] } }

/-- R425, R463: a memory-manager request of a function: it is answered, or waits behind those posted before it. -/
def mmRequest (q : MmReq) (s : State) : Out :=
  if s.dev.stage = 0 then .next s
  else if s.dev.stage ≠ 4 then .next (reply q.func q.code q.seq stNotReady [] s)
  else if s.front.mmWaits.any (fun x => x.func == q.func) then .next (mmQueue q s)
  else
    match q.answer s with
    | none => .next (mmQueue q s)
    | some r => .next (reply q.func q.code q.seq r.1 [] r.2)

/-- R425: the oldest waiting request of a function is tried again. -/
def mmRetry (func : Nat) (s : State) : State :=
  match s.front.mmWaits.find? (fun x => x.func == func) with
  | none => s
  | some q =>
    match q.answer s with
    | none => s
    | some r =>
      let t := reply q.func q.code q.seq r.1 [] r.2
      { t with front := { t.front with mmWaits := t.front.mmWaits.erase q } }

/-- MM_MAP (R425). -/
def execMmMap (r : MapReq) (s : State) : Out := mmRequest (.map r) s

/-- MM_UNMAP (R426). -/
def execMmUnmap (func seq ctx va : Nat) (s : State) : Out := mmRequest (.unmap func seq ctx va) s

/-- MM_PROTECT (R418, R426): perm gives read, write and execute in bits 0 to 2. -/
def execMmProtect (func seq ctx va perm : Nat) (s : State) : Out := mmRequest (.protect func seq ctx va perm) s

/-- MM_RUN_CHANGE (R417, R426). -/
def execMmRunChange (func seq ctx va : Nat) (run : Bool) (s : State) : Out := mmRequest (.run func seq ctx va run) s

/-- MM_STAGE2_CHANGE (R425, R426). -/
def execMmStage2Change (func seq ctx gpa : Nat) (entry : W64) (s : State) : Out :=
  mmRequest (.stage2 func seq ctx gpa entry) s

/-- SEGMENT_CREATE (R413, R415). -/
def execSegmentCreate (func seq base size id : Nat) (s : State) : Out := mmRequest (.create func seq base size id) s

/-- SEGMENT_ATTACH (R414, R415). -/
def execSegmentAttach (func seq ctx id : Nat) (s : State) : Out := mmRequest (.attach func seq ctx id) s

/-- PAGE_RESOLVE (R310): firmware makes a page of an open fault resident or permitted, zeroed if it is new. -/
def execPageResolve (r : MapReq) (zero : Bool) (s : State) : Out :=
  if s.ms.openFaults.any (fun f => f.ctx == r.ctx && f.page == pageOf r.va && f.cause != 3) then
    match mapPages r s with
    | some (st, t) =>
      if st ≠ mmDone then .next s
      else if zero then
        match accessIn t r.ctx ⟨false, false, false⟩ r.va with
        | .ok l => .next (zeroRange l.phys (r.count * levelBytes r.level) t)
        | .error _ => .next t
      else .next t
    | none => .next s
  else .next s

/-! Migration (R435 to R438). -/

/-- MIGRATION_COUNT_CLEAR (R435, R438): at multiples of 2^20 ticks the counts clear and a new window begins. -/
def execMigrationCountClear (s : State) : Out :=
  if s.tick % 2 ^ 20 = 0 then
    .next { s with ms := { s.ms with htbs := s.ms.htbs.map (fun e => { e with counts := [], sent := false }), moved := [] } }
  else .next s

/-- R436: the lines of a 64 KiB frame. -/
def frameLines (phys : Nat) : List Nat := (List.range 512).map (fun i => phys + 128 * i)

/-- R436, steps 2, 3 and 5: the bytes and the coherence bits of a 64 KiB frame move, every line in I but the poisoned
ones; keepW keeps the bits W. Copies and translations of the page are gone. -/
def moveFrame (dom va old new : Nat) (keepW : Bool) (s : State) : State :=
  let t := dropPage dom va old 65536 s
  let t := zeroRange new 65536 t
  let t := (s.mem.filter (fun c => decide (old ≤ c.1 ∧ c.1 < old + 65536))).foldl
    (fun u c => wrByte (new + (c.1 - old)) c.2 u) t
  (frameLines 0).foldl (fun u i =>
    let n := sideBits u (old + i)
    let v := if sideSt n = 7 then 7 * 2 ^ 29 else mkSide 0 0 0 (keepW && bitOf n 0)
    setSide (new + i) v (setSide (old + i) 0 u)) t

/-- R436, step 4: the leaf of a page with a new frame and home: the stage-2 leaf where the context has one. -/
def rewriteLeaf (c : Context) (va hpkg frame : Nat) (s : State) : Option State :=
  match leafEntry? s c va with
  | none => none
  | some r =>
    if c.stage2 = 0 then
      (if r.2.1 = 3 then some (wrNat r.2.2 8 { r.1 with hpkg := hpkg, frame := frame }.toNat s) else none)
    else
      let e := stage2Entry s (r.1.frame * 65536) 3 c.stage2
      let p := pteOf (rdNat s e.1 8)
      if r.2.1 = 3 ∧ e.2 = 3 ∧ p.v then some (wrNat e.1 8 { p with hpkg := hpkg, frame := frame }.toNat s) else none

/-- R436: whether only one context maps the frame of a page. -/
def soleMapping (s : State) (ctx va phys : Nat) : Bool :=
  s.ten.ctxs.all (fun c => (pagesOf s c).all (fun a =>
    (c.num == ctx && a == va) ||
      match walkVa s c a with
      | .ok l => !meets l.phys (sizeBytes (l.size / 2 * 2)) phys 65536
      | .error _ => true))

/-- R309, R436: whether a fault record for a granule is outstanding. -/
def faultOutstanding (s : State) (ctx page : Nat) : Bool :=
  s.ms.openFaults.any (fun f => f.ctx == ctx && f.page == page)

/-- R436, R438: whether H3 migrates the granule of a record. -/
def mayMigrate (s : State) (m : MigRec) (c : Context) (l : Leaf) (hpkg frame : Nat) : Bool :=
  m.src == homeAgent l && l.size == 0 && !l.pte.run && !l.pte.pin && !l.pte.seg &&
    (frameLines (pageOf l.phys)).all (fun a => !sideWatched s a) && !faultOutstanding s c.num m.vaddr &&
    hpkg * 4 + bitsOf frame 22 21 == m.dst && frameFree s hpkg frame && soleMapping s c.num m.vaddr (pageOf l.phys) &&
    !s.ms.moved.any (fun x => x.1 == l.dom && x.2.1 == m.vaddr && x.2.2 == m.dst)

/-- A migration record leaves the ring. -/
def dropRecord (m : MigRec) (s : State) : State := { s with ms := { s.ms with migs := s.ms.migs.filter (fun x => x != m) } }

/-- R436, step 1: the granule of a page is marked migrating in its home's buffer. -/
def markMoving (dom va : Nat) (s : State) : State :=
  { s with ms := { s.ms with htbs := updateAll (fun e => e.dom == dom && e.page == va) (fun e => { e with migrating := true }) s.ms.htbs } }

/-- MIGRATION (R436, R437): H3 takes the record of a granule: it drops the record, waits with the granule marked while
a transaction lock holds a line of it, or moves the granule. -/
def execMigration (ctx va hpkg frame : Nat) (s : State) : Out :=
  match ctxOf? s ctx with
  | none => .next s
  | some c =>
    match walkVa s c va with
    | .error _ => .next s
    | .ok l =>
      match s.ms.migs.find? (fun m => m.vaddr == va && m.dom == l.dom) with
      | none => .next s
      | some m =>
        if !mayMigrate s m c l hpkg frame then .next (dropRecord m s)
        else if pageBusy s l.dom va 65536 then .next (markMoving l.dom va (htbFill ctx va l s))
        else
          match rewriteLeaf c va hpkg frame (moveFrame l.dom va l.phys (hpkg * 2 ^ 39 + frame * 65536) false s) with
          | none => .next (dropRecord m s)
          | some t =>
            let u := reclaimPage l.dom va 65536 .waiting (dropRecord m t)
            .next { u with ms := { u.ms with moved := u.ms.moved ++ [(l.dom, va, m.src)] } }

/-! The host link (R405). -/

/-- R405: a host write of one line, applied at its home; the L2 fills nothing. -/
def hostLine (ctx va : Nat) (bs : List Byte) (s : State) : State :=
  match accessIn s ctx ⟨false, false, false⟩ va with
  | .error _ => s
  | .ok l =>
    let t := homeWrite ctx va (homeAgent l % 4) Writer.none l (lineBytes va bs) (recallHome (lineOf va) l s)
    markDirty l.dom (lineOf va) { t with ms := { t.ms with l2 := s.ms.l2 }, ten := { t.ten with owners := s.ten.owners } }

/-- R405: whether a host access to a line can be served now. -/
def hostReady (s : State) (ctx va : Nat) : Bool :=
  match accessIn s ctx ⟨false, false, false⟩ va with
  | .error _ => false
  | .ok l => !lineWaits s l (lineOf va)

/-- HOST_MEMORY_WRITE (R405). -/
def execHostMemoryWrite (func ctx va : Nat) (data : List Byte) (s : State) : Out :=
  let ls := cutLines (data.length / 128 + 2) va data
  if mayActOn s func ctx && ls.all (fun p => hostReady s ctx p.1) then
    .next (ls.foldl (fun t p => hostLine ctx p.1 p.2 t) s)
  else .next s

/-- HOST_MEMORY_READ (R405, R434): the bytes go to the host; a poisoned line answers none. -/
def execHostMemoryRead (func ctx va len : Nat) (s : State) : Out :=
  if mayActOn s func ctx then
    match readVa s ctx ⟨false, false, false⟩ va len with
    | .error _ => .next s
    | .ok bs =>
      let data := if rangePoisoned s ctx va len then [] else bs
      .next { s with front := { s.front with hostReads := s.front.hostReads ++ [(func, data)] } }
  else .next s

/-! L2 ways (R405, R407). -/

/-- R405: a way mask set for a filler code on a slice, kept as its difference from 0xFFFF. -/
def setMask (die slice code mask : Nat) (s : State) : State :=
  let key := die * 256 + slice
  if code = 256 then { s with ten := { s.ten with sysMask := mapSet 0 s.ten.sysMask key (65535 - mask) } }
  else modOwner code (fun o => { o with masks := mapSet 0 o.masks key (65535 - mask) }) s

/-- WAY_MASK_SET (R405): a mask of 0 is refused. -/
def execWayMaskSet (func seq die : Nat) (slices : List Nat) (code mask : Nat) (s : State) : Out :=
  request func (ruleCode 405) seq false (fun t =>
    if mask = 0 ∨ 65535 < mask ∨ 256 < code ∨ 4 ≤ die ∨ slices.any (fun x => decide (256 ≤ x)) then refuse t
    else done [] (slices.foldl (fun u x => setMask die x code mask u) t)) s

/-- R407: the occupancy counter of an owner code in a slice. -/
def occupancy (s : State) (die slice code : Nat) : Nat :=
  (s.ms.l2.filter (fun t => t.die == die && t.slice == slice && t.filler == code)).length

/-- OCCUPANCY_READ (R407): the 257 counters of a slice, two bytes each. -/
def execOccupancyRead (func seq die slice : Nat) (s : State) : Out :=
  request func (ruleCode 407) seq false (fun t =>
    done ((List.range 257).flatMap (fun c => natToBytes 2 (occupancy t die slice c))) t) s

/-! The meshes and moved context parts. -/

/-- NOC_DRAIN (R366): a drain moves packets between routers and loses and duplicates none; with no packet in flight
between the steps of the model nothing else changes. -/
def execNocDrain (_die : Nat) (s : State) : Out := .next s

/-- CONTEXT_PART_MOVE (R456): a context's part leaves for another package with its whole loop record, once nothing of
it is placed, saved or outstanding here. -/
def execContextPartMove (ctx toPkg : Nat) (s : State) : Out :=
  if toPkg = s.pkg ∨ 1024 ≤ toPkg ∨ (ctxOf? s ctx).isNone ∨ s.spans.any (fun x => x.ctx == ctx) ∨
      s.viaducts.any (fun v => v.ctx == ctx && v.st != .complete) ∨ s.front.queues.any (fun q => q.ctx == ctx) then .next s
  else .next { s with ten := { s.ten with ctxs := s.ten.ctxs.filter (fun c => c.num != ctx) } }

end Sys2Proof.Machine
end

