-- ==== Sys2Proof/Machine/Loops.lean ====
section
/-! DEFINITION. Sample periods, progress loops, the allocator, clocks, pool words and the creation of contexts (R345,
R346, R393, R394, R411 to R414, R445 to R457). -/

namespace Sys2Proof.Machine

open Sys2Proof

/-! The end of a sample period (R385, R411, R445, R446). -/

/-- R393, R449: the quads of the package within a context's reach. -/
def reachCount (s : State) (c : Context) : Nat :=
  ((List.range 4).map (fun d => ((List.range 256).filter (fun q => inReach s c.owner c.part d q)).length)).sum

/-- R405, R449: the smallest number of ways in an owner's masks. -/
def leastWays (s : State) (owner : Nat) : Nat :=
  (ownerRec s owner).masks.foldl (fun m p => min m (popCount 16 (65535 - p.2))) 16

/-- R385, R445: the fields of a LOOP-SET packet written into a loop record. -/
def LoopRec.set (bs : List Byte) (r : LoopRec) : LoopRec :=
  { r with r := fld bs 8 3, kp := fld bs 12 2, ki := fld bs 14 2, cls := bitsOf (fld bs 16 1) 1 0, weight := fld bs 17 1,
           order := bitsOf (fld bs 18 2) 14 0, bgroup := fld bs 20 4,
           integ := if bitOf (fld bs 24 1) 0 then 0 else r.integ }

/-- R445: whether a LOOP-SET was accepted before a tick. -/
def acceptedBefore (s : State) (t : Nat) (p : Nat × List Byte) : Bool :=
  s.front.journal.any (fun e => e.seq == p.1 && decide (e.accept < t))

/-- R445, R446, R449, R452: a context's count and resident ticks latched, with Q and M as they stand. -/
def LoopRec.latch (ceilings : Nat × Nat) (r : LoopRec) : LoopRec :=
  { r with ylatch := r.ycur, ycur := r.ynext, ynext := 0, rlatch := r.rtick, rtick := r.rnext, rnext := 0,
           merged := none, partialMerge := false, ceilings := some ceilings }

/-- R385, R445, R457: the LOOP-SET packets of a context that take effect at the end of a period, in queue order, and
the latch. -/
def latchContext (t : Nat) (ceilings : Nat × Nat) (c : Context) (s : State) : State :=
  let now := c.pendingLoops.filter (acceptedBefore s t)
  let rest := c.pendingLoops.filter (fun p => !acceptedBefore s t p)
  let loop := (now.foldl (fun r p => r.set p.2) c.loop).latch ceilings
  now.foldl (fun u p => completePacket p.1 0 0 u) (modCtx c.num (fun x => { x with loop := loop, pendingLoops := rest }) s)

/-- R411: an owner's counters at the end of a period. How many flits its fabric traffic has taken and the energy are free
values (log entry 8). -/
def closeUsage (o : Owner) (s : State) : State :=
  let d := draw s
  let more (i : Nat) : Nat :=
    if i = 3 then 64 * Config.periodUse o.num 3 d.1 else if i = 4 then Config.periodUse o.num 4 d.1 else 0
  let now := (List.range 5).map (fun i => min (2 ^ 64 - 1) (nthD 0 o.usage i + more i))
  modOwner o.num (fun x => { x with usage := now, usageEnd := now }) d.2

/-- SAMPLE_LATCH (R385, R411, R445): the period that ends at T_k. -/
def execSampleLatch (s : State) : Out :=
  let t := nextSample s
  if s.tick < t then .next s
  else
    let u := s.ten.ctxs.foldl (fun v c => latchContext t (reachCount s c, leastWays s c.owner) c v) s
    let u := u.ten.owners.foldl (fun v o => closeUsage o v) u
    .next { u with ten := { u.ten with periodTick := t, periods := u.ten.periods + 1, phase := 1 } }

/-- R452: whether the latched period of a context is skipped. -/
def LoopRec.skipped (r : LoopRec) : Bool := decide (r.rlatch < 32768)

/-- BEAT_GROUP_MERGE (R455): a member's beats reach the others; a late member is left out. -/
def execBeatGroupMerge (bgroup y : Nat) (late : Bool) (s : State) : Out :=
  if s.ten.phase ≠ 1 ∨ bgroup = 0 ∨ 2 ^ 24 ≤ y ∨ s.ten.periodTick + 8192 < s.tick then .next s
  else
    let upd (c : Context) : Context :=
      if c.loop.bgroup ≠ bgroup ∨ c.loop.skipped then c
      else if late then { c with loop := { c.loop with partialMerge := true } }
      else { c with loop := { c.loop with merged := some (min y (c.loop.merged.getD c.loop.ylatch)) } }
    .next { s with ten := { s.ten with ctxs := s.ten.ctxs.map upd } }

/-! The controller (R448, R449). -/

/-- An integer held between two bounds. -/
def clampInt (lo hi x : Int) : Int := max lo (min hi x)

/-- R449: the floor, the ceiling and the unit of each actuator, where the quads have the ceiling Q and the ways M. -/
def actuatorsOf (q m : Nat) : List (Nat × Nat × Nat) := [(4, 32, 4), (1, q, 1), (1, m, 1), (1, 64, 1), (0, 7, 1)]

/-- R449, R457: the actuators of a context with the ceilings of now. -/
def actuators (s : State) (c : Context) : List (Nat × Nat × Nat) := actuatorsOf (reachCount s c) (leastWays s c.owner)

/-- R449: the actuators of a context with Q and M as they stood at T_k; those of now where it has come since. -/
def latchedActuators (s : State) (c : Context) : List (Nat × Nat × Nat) :=
  (c.loop.ceilings.map (fun k => actuatorsOf k.1 k.2)).getD (actuators s c)

/-- R449: the steps of an actuator. -/
def stepsOf (a : Nat × Nat × Nat) : Nat := (a.2.1 - a.1) / a.2.2

/-- R449: the demand: steps fill the actuators in the order's positions. -/
def fillDemand (acts : List (Nat × Nat × Nat)) (order : Nat) : List Nat → Nat → List Nat → List Nat
  | [], _, d => d
  | p :: ps, left, d =>
    let a := bitsOf order (3 * p + 2) (3 * p)
    let k := nthD (0, 0, 1) acts a
    let n := min left (stepsOf k)
    fillDemand acts order ps (left - n) (d.set a (k.1 + n * k.2.2))

/-- R449: the levels of a demand u. -/
def demandOf (acts : List (Nat × Nat × Nat)) (order u : Nat) : Nat × Nat × List Nat :=
  let sigma := (acts.map stepsOf).sum
  let d := (u * sigma + 32767) / 65535
  (sigma, d, fillDemand acts order [0, 1, 2, 3, 4] d (acts.map (fun a => a.1)))

/-- R448: e, I and u of an update with y beats. -/
def controller (r : LoopRec) (y : Nat) : Int × Nat × Nat :=
  let e := clampInt (-32768) 32767 ((((r.r : Int) - y) * 32768).tdiv r.r)
  let dI := ((r.ki : Int) * e) / 4096
  let hold := (r.u == 65535 && decide (0 < dI)) || (r.u == 0 && decide (dI < 0)) || (bitOf r.flags 2 && decide (0 < dI))
  let i := clampInt 0 65535 ((r.integ : Int) + (if hold then 0 else dI))
  let u := clampInt 0 65535 (((r.kp : Int) * e) / 4096 + i)
  (e, i.toNat, u.toNat)

/-- R447: the flags of a loop record: saturated high and low, grant-limited, skipped, partial merge. -/
def loopFlags (u : Nat) (limited skip part : Bool) : Nat :=
  bit01 (u == 65535) + 2 * bit01 (u == 0) + 4 * bit01 limited + 8 * bit01 skip + 16 * bit01 part

/-- R455: the y of a loop: the smallest of its beat group, as far as it has arrived; the members of this package are
merged among themselves as well. -/
def groupY (s : State) (r : LoopRec) : Nat :=
  let own := r.merged.getD r.ylatch
  if r.bgroup = 0 then own
  else ((s.ten.ctxs.filter (fun c => c.loop.bgroup == r.bgroup && !c.loop.skipped)).map (fun c => c.loop.ylatch)).foldl min own

/-- R448 to R450, R452: the update of a context's record before the allocator. k is the period's number. -/
def updateLoop (s : State) (k : Nat) (c : Context) : LoopRec :=
  let r := c.loop
  let acts := latchedActuators s c
  let limited := bitOf r.flags 2
  if r.r = 0 then
    { r with u := 65535, demand := acts.map (fun a => a.2.1), period := k % 2 ^ 32,
             flags := loopFlags 65535 limited r.skipped r.partialMerge }
  else if r.skipped then { r with flags := setBits r.flags 3 3 1 }
  else
    let y := groupY s r
    let v := controller r y
    let d := demandOf acts r.order v.2.2
    { r with ylast := y, err := v.1, integ := v.2.1, u := v.2.2, sigma := d.1, steps := d.2.1, demand := d.2.2,
             period := k % 2 ^ 32, flags := loopFlags v.2.2 limited false r.partialMerge }

/-! The allocator (R451, R453). -/

/-- R453: what a context asks of a pool: its number, class and weight, its floor and its demand. -/
structure Asker where
  ctx : Nat
  cls : Nat
  weight : Nat
  floor : Nat
  demand : Nat
  deriving DecidableEq, Repr

/-- R453: the need of an asker above its floor. -/
def Asker.need (a : Asker) : Nat := a.demand - a.floor

/-- R453: the last of what is left of a class given out by context number. -/
def giveRest : List (Asker × Nat) → Nat → List (Asker × Nat)
  | [], _ => []
  | p :: ps, r =>
    let x := min r (p.1.need - p.2)
    (p.1, p.2 + x) :: giveRest ps (r - x)

/-- R453: the shares of one class of what is left: each asker's share and the rest. -/
def shareClass (as : List Asker) (r : Nat) : List (Asker × Nat) × Nat :=
  let needs := (as.map Asker.need).sum
  if needs ≤ r then (as.map (fun a => (a, a.need)), r - needs)
  else
    let w := (as.map (fun a => a.weight)).sum
    let shares := as.map (fun a => (a, min a.need (r * a.weight / w)))
    (giveRest shares (r - (shares.map (fun p => p.2)).sum), 0)

/-- R453: the classes in order. -/
def shareClasses (as : List Asker) : List Nat → Nat → List (Asker × Nat)
  | [], _ => []
  | c :: cs, r =>
    let p := shareClass (as.filter (fun a => a.cls == c)) r
    p.1 ++ shareClasses as cs p.2

/-- R453: the grants of a pool of capacity c; the askers stand in ascending context number. -/
def allocate (c : Nat) (as : List Asker) : List (Nat × Nat) :=
  if (as.map (fun a => a.demand)).sum ≤ c then as.map (fun a => (a.ctx, a.demand))
  else
    let r := c - (as.map (fun a => a.floor)).sum
    (shareClasses as [0, 1, 2, 3] r).map (fun p => (p.1.ctx, p.1.floor + p.2))

/-- R453: the grant of a context of a pool. -/
def grantIn (gs : List (Nat × Nat)) (ctx d : Nat) : Nat := ((gs.find? (fun g => g.1 == ctx)).map (fun g => g.2)).getD d

/-- A context put among others in the order of their numbers. -/
def insertCtx (c : Context) : List Context → List Context
  | [] => [c]
  | x :: xs => if x.num < c.num then x :: insertCtx c xs else c :: x :: xs

/-- The contexts in ascending number. -/
def ctxsByNum (s : State) : List Context := s.ten.ctxs.foldl (fun acc c => insertCtx c acc) []

/-- R453: a context is resident in the package. -/
def isResident (s : State) (n : Nat) : Bool := s.spans.any (fun x => x.ctx == n && x.residence != .saved)

/-- R449, R457: the demand of a context for an actuator, between its floor and the ceiling of now. -/
def levelOf (s : State) (c : Context) (a : Nat) : Nat :=
  let k := nthD (0, 0, 1) (actuators s c) a
  max k.1 (min k.2.1 (nthD 0 c.loop.demand a))

/-- R453: the asker of a context for an actuator, in its units. -/
def askerOf (s : State) (a : Nat) (c : Context) : Asker :=
  let k := nthD (0, 0, 1) (actuators s c) a
  ⟨c.num, c.loop.cls, c.loop.weight, k.1 / k.2.2, levelOf s c a / k.2.2⟩

/-- R453: the partitions in use: those that hold a quad. -/
def partsInUse (s : State) : List Nat := (List.range 16).filter (fun p => partDies s p != [])

/-- R453: the channel quota of a partition. -/
def chanQuotaOf (s : State) (p : Nat) : Nat := mapGet (64 / max 1 (partsInUse s).length) s.ten.chanQuota p

/-- R453: the enabled quads of a partition. -/
def partQuads (s : State) (p : Nat) : Nat :=
  ((List.range 4).map (fun d => ((List.range 256).filter (fun q =>
    quadEnabled s d q && bitsOf (mapGet 0 s.ten.partMap (quadKey d q)) 3 0 == p)).length)).sum

/-- R453: the capacity of the pool of an actuator in a partition. -/
def poolCap (s : State) (p a : Nat) : Nat :=
  match a with
  | 1 => partQuads s p
  | 2 => mapGet 16 s.ten.wayBudget p
  | _ => chanQuotaOf s p

/-- R453: the grants of quads, ways or channel share in the partition of a context. -/
def partGrant (s : State) (cs : List Context) (c : Context) (a : Nat) : Nat :=
  grantIn (allocate (poolCap s c.part a) ((cs.filter (fun x => x.part == c.part)).map (askerOf s a))) c.num (levelOf s c a)

/-- R453: the cores on which a context has a resident group, as die * 1024 + core. -/
def coresOf (s : State) (n : Nat) : List Nat :=
  (((allGroups s).filter (fun g => g.ctx == n && !g.released && g.residence == .resident)).map
    (fun g => g.die * 1024 + g.core)).eraseDups

/-- R453: the grant of group slots of a context on a core. -/
def coreGrant (s : State) (cs : List Context) (c : Context) (core : Nat) : Nat :=
  4 * grantIn (allocate 8 ((cs.filter (fun x => memNat core (coresOf s x.num))).map (askerOf s 0))) c.num (levelOf s c 0 / 4)

/-- R451, R453: the grants of a resident context from the pools of the resident contexts cs. -/
def allocateFor (s : State) (cs : List Context) (c : Context) : Context :=
  let byCore := (coresOf s c.num).map (fun k => (k, coreGrant s cs c k))
  let slots := (byCore.map (fun p => p.2)).foldl min (levelOf s c 0)
  let grants := [slots, partGrant s cs c 1, partGrant s cs c 2, partGrant s cs c 3, levelOf s c 4]
  let limited := (List.range 4).any (fun a => decide (nthD 0 grants a < levelOf s c a))
  { c with newCoreGrants := byCore.foldl (fun m p => mapSet 0 m p.1 p.2) [],
           loop := { c.loop with newGrant := grants, flags := setBits c.loop.flags 2 2 (bit01 limited) } }

/-- LOOP_UPDATE (R445, R448 to R453): at T_k + 8192 H5 runs every loop and then the allocator. A saved context's record
does not change. -/
def execLoopUpdate (s : State) : Out :=
  if s.ten.phase ≠ 1 ∨ s.tick < s.ten.periodTick + 8192 then .next s
  else
    let k := s.ten.periodTick / 65536
    let run (c : Context) : Context := if contextState s c.num = 3 then c else { c with loop := updateLoop s k c }
    let t := { s with ten := { s.ten with ctxs := s.ten.ctxs.map run, phase := 2 } }
    let cs := (ctxsByNum t).filter (fun c => isResident t c.num)
    let give (c : Context) : Context := if isResident t c.num then allocateFor t cs c else c
    .next { t with ten := { t.ten with ctxs := t.ten.ctxs.map give } }

/-! Grants and clocks (R454). -/

/-- R454: the ceiling step of a die from a draw, at most its cap. -/
def setCeiling (s : State) (die : Nat) : State :=
  let d := draw s
  let c := min (nthD 7 s.dev.clockCap die) (min 7 (Config.ceilingStep die d.1))
  { d.2 with dev := { d.2.dev with clockCeil := d.2.dev.clockCeil.set die c } }

/-- GRANT_APPLY (R454): at T_k + 12288 grants and ceiling steps take effect. -/
def execGrantApply (s : State) : Out :=
  if s.ten.phase ≠ 2 ∨ s.tick < s.ten.periodTick + 12288 then .next s
  else
    let give (c : Context) : Context :=
      { c with coreGrants := c.newCoreGrants, loop := { c.loop with grant := c.loop.newGrant } }
    let t := { s with ten := { s.ten with ctxs := s.ten.ctxs.map give, phase := 3 } }
    .next ((List.range 4).foldl setCeiling t)

/-- R454: the clock vote of a context: step 7 until its first grants are in force. -/
def clockVote (c : Context) : Nat := if nthD 0 c.loop.grant 0 = 0 then 7 else nthD 0 c.loop.grant 4

/-- R454, R463: the step at which a die is to run. -/
def dieStep (s : State) (die : Nat) : Nat :=
  let votes := (s.ten.ctxs.filter (fun c =>
    s.spans.any (fun x => x.ctx == c.num && x.die == die && x.residence != .saved))).map clockVote
  if s.dev.stage ≠ 4 ∨ votes = [] then 0 else min (nthD 7 s.dev.clockCeil die) (votes.foldl max 0)

/-- CLOCK_STEP_CHANGE (R454). -/
def execClockStepChange (die : Nat) (s : State) : Out :=
  .next { s with dev := { s.dev with clockStep := s.dev.clockStep.set die (dieStep s die) } }

/-- WAY_BUDGET_SET (R453). -/
def execWayBudgetSet (func seq part n : Nat) (s : State) : Out :=
  request func (ruleCode 4531) seq true (fun t =>
    if 16 ≤ part ∨ n = 0 ∨ 16 < n then refuse t
    else done [] { t with ten := { t.ten with wayBudget := mapSet 16 t.ten.wayBudget part n } }) s

/-- CHANNEL_QUOTA_SET (R453): refused if the quotas of all partitions would sum to more than 64. -/
def execChannelQuotaSet (func seq part n : Nat) (s : State) : Out :=
  request func (ruleCode 4532) seq true (fun t =>
    let others := ((List.range 16).filter (fun p =>
      p != part && (memNat p (partsInUse t) || t.ten.chanQuota.any (fun q => q.1 == p)))).map (chanQuotaOf t)
    if 16 ≤ part ∨ n = 0 ∨ 64 < n ∨ 64 < others.sum + n then refuse t
    else done [] { t with ten := { t.ten with chanQuota := mapSet 0 t.ten.chanQuota part n } }) s

/-- CLOCK_CAP_SET (R454): the ceiling never exceeds the cap. -/
def execClockCapSet (func seq die step : Nat) (s : State) : Out :=
  request func (ruleCode 454) seq true (fun t =>
    if 4 ≤ die ∨ 7 < step then refuse t
    else done [] { t with dev := { t.dev with clockCap := t.dev.clockCap.set die step,
                                              clockCeil := t.dev.clockCeil.set die (min step (nthD 7 t.dev.clockCeil die)) } }) s

/-- R447: the 64 bytes of a loop record. -/
def LoopRec.bytes (r : LoopRec) : List Byte :=
  natToBytes 3 r.r ++ natToBytes 1 r.flags ++ natToBytes 2 r.kp ++ natToBytes 2 r.ki ++ natToBytes 2 r.integ ++
    natToBytes 2 r.u ++ natToBytes 2 r.order ++ natToBytes 1 r.cls ++ natToBytes 1 r.weight ++ natToBytes 4 r.bgroup ++
    natToBytes 3 r.ycur ++ natToBytes 1 0 ++ natToBytes 3 r.ylast ++ natToBytes 1 0 ++
    natToBytes 2 (wrapInt 16 r.err) ++ natToBytes 2 r.steps ++ r.demand.flatMap (natToBytes 2) ++
    r.grant.flatMap (natToBytes 2) ++ natToBytes 2 r.sigma ++ natToBytes 2 0 ++ natToBytes 4 r.rtick ++ natToBytes 4 r.period

/-- LOOP_RECORD_READ (R447). -/
def execLoopRecordRead (func seq ctx : Nat) (s : State) : Out :=
  request func (ruleCode 447) seq false (fun t =>
    match ctxOf? t ctx with
    | some c => if mayActOn t func ctx then done c.loop.bytes t else refuse t
    | none => refuse t) s

/-! Pool words (R345, R346). -/

/-- R345: whether a pool word keeps to the limits of its fields. -/
def poolGood (w : Nat) : Bool :=
  let e := bitsOf w 14 0
  bitsOf w 63 48 == 0 ||
    (decide (bitsOf w 63 48 ≤ 32768) && e != 0 && decide (e ≤ 16384) && decide (4 * e ≤ 1024 * (bitsOf w 35 30 + 1)))

/-- R346: the KiB that a pool word takes. -/
def poolKib (w : Nat) : Nat := if bitsOf w 63 48 = 0 then 0 else (bitsOf w 63 48 + bitsOf w 47 36) * (bitsOf w 35 30 + 1)

/-- POOL_WORD_SET (R345, R346, R368): H5 applies a change while the pool holds no slot, and the slots of the new pool have
generation 0; a word that breaks a limit changes nothing. Reserved bits read as zero. -/
def execPoolWordSet (ctx die : Nat) (word : W64) (s : State) : Out :=
  let w := setBits word.toNat 27 15 0
  let others := (s.fab.pools.filter (fun p => p.die == die && p.ctx != ctx)).map (fun p => p.word.toNat)
  if 4 ≤ die ∨ (ctxOf? s ctx).isNone ∨ s.fab.slots.any (fun m => m.die == die && m.ctx == ctx && m.st != .free) ∨
      ¬ poolGood w ∨ 32768 < (others.map (fun x => bitsOf x 63 48)).sum + bitsOf w 63 48 ∨
      32768 < (others.map poolKib).sum + poolKib w then .next s
  else
    let t := modCtx ctx (fun c => { c with pools := c.pools.set die (BitVec.ofNat 64 w) }) s
    let here (p : Pool) : Bool := p.die == die && p.ctx == ctx
    let ps :=
      if t.fab.pools.any here then updateFirst here (fun p => { p with word := BitVec.ofNat 64 w }) t.fab.pools
      else t.fab.pools ++ [⟨die, ctx, BitVec.ofNat 64 w, 0, 0, 0, 0⟩]
    let slots := t.fab.slots.filter (fun m => !(m.die == die && m.ctx == ctx))
    .next { t with fab := { t.fab with pools := ps, slots := slots } }

/-! Contexts (R359, R392 to R394, R413, R414). -/

/-- R447, R456: the loop record that 64 bytes hold: that of a context part that has come from another package. -/
def LoopRec.ofBytes (bs : List Byte) : LoopRec :=
  { LoopRec.initial with
    r := fld bs 0 3, flags := fld bs 3 1, kp := fld bs 4 2, ki := fld bs 6 2, integ := fld bs 8 2, u := fld bs 10 2,
    order := fld bs 12 2, cls := fld bs 14 1, weight := fld bs 15 1, bgroup := fld bs 16 4, ycur := fld bs 20 3,
    ylast := fld bs 24 3, err := (BitVec.ofNat 16 (fld bs 28 2)).toInt, steps := fld bs 30 2,
    demand := (List.range 5).map (fun i => fld bs (32 + 2 * i) 2), grant := (List.range 5).map (fun i => fld bs (42 + 2 * i) 2),
    sigma := fld bs 52 2, rtick := fld bs 56 4, period := fld bs 60 4 }

/-- R394, R414, R456: the record of a new context, with the loop record of a part that has moved here; a migration
threshold that firmware does not write has its reset value. -/
def newContext (r : CtxReq) : Context :=
  { num := r.ctx, asid := r.asid, owner := r.owner, part := r.part, save := r.save, lslots := r.lslots, sslots := r.sslots,
    lbase := r.lbase, fqbase := r.fqbase, fqlen := r.fqlen, fqwr := 0, fqrd := 0, seed := r.seed,
    quiesceRight := bitOf r.flags 0, debugger := bitOf r.flags 1, runnable := false, state := 0, colls := r.colls,
    flush := r.flush, pools := [0, 0, 0, 0], loop := (r.loop.map LoopRec.ofBytes).getD LoopRec.initial, pendingLoops := [], func := r.func, root1 := r.root1,
    stage2 := r.stage2, tagdom := r.tagdom, mthresh := r.mthresh.getD 4096, segs := [], segtab := 0,
    fwstate := List.replicate 8 0, coreGrants := [], newCoreGrants := [] }

/-- R413: whether no other context, dying context or segment uses a tag domain. -/
def domainFree (s : State) (ctx dom : Nat) : Bool :=
  s.ten.ctxs.all (fun c => c.num == ctx || c.tagdom != dom) && s.ten.dying.all (fun d => d.1.tagdom != dom) &&
    s.ten.segments.all (fun g => g.id != dom)

/-- R392 to R394, R413, R414: whether firmware can create a context. -/
def ctxReqGood (s : State) (r : CtxReq) : Bool :=
  decide (r.ctx < 4096) && (ctxOf? s r.ctx).isNone && !s.ten.dying.any (fun d => d.1.num == r.ctx || d.1.asid == r.asid) &&
    decide (r.asid < 4096) && !s.ten.ctxs.any (fun c => c.asid == r.asid) && decide (r.owner < 256) && decide (r.part < 16) &&
    bitOf (ownerRec s r.owner).parts r.part && (ownerRec s r.owner).weight != 0 && r.save % 65536 == 0 &&
    decide (1 ≤ r.lslots ∧ r.lslots ≤ 131072) && decide (1 ≤ r.sslots ∧ r.sslots ≤ 65535) && r.lbase % 65536 == 0 &&
    decide (64 ≤ r.fqlen ∧ r.fqlen ≤ 65536) && decide (r.flags < 4) && decide (r.func ≤ 64) && r.root1 % 131072 == 0 &&
    r.stage2 % 131072 == 0 && (r.func == 0) == (r.stage2 == 0) && (r.tagdom == r.asid || decide (4096 ≤ r.tagdom)) &&
    decide (r.tagdom < 65536 ∧ r.mthresh.getD 4096 < 65536) && domainFree s r.ctx r.tagdom &&
    r.tags.all (fun t => decide (t.1 < 65536 ∧ 2 ≤ t.2 ∧ t.2 ≤ 4096))

/-- R413: the lines and entries of a domain that is used again are gone from every cache, lookaside and home translation
buffer. -/
def forgetDomain (dom : Nat) (s : State) : State :=
  let t := dropL2 (fun x => x.dom == dom) s
  { t with ms := { t.ms with
      l1 := s.ms.l1.filter (fun x => x.dom != dom), rdc := s.ms.rdc.filter (fun x => x.dom != dom),
      invals := s.ms.invals.filter (fun x => x.dom != dom), getxs := s.ms.getxs.filter (fun x => x.2.1 != dom),
      attrs := s.ms.attrs.filter (fun x => x.dom != dom), htbs := s.ms.htbs.filter (fun x => x.dom != dom) } }

/-- CONTEXT_CREATE (R394, R456): firmware creates a context, or the part of one that comes from another package, with its
record, its domain record and its collective table. -/
def execContextCreate (c : CtxReq) (s : State) : Out :=
  if s.dev.stage ≠ 4 ∨ ¬ ctxReqGood s c then .next s
  else
    let t := forgetDomain c.tagdom s
    let tags := c.tags.map (fun p => (⟨c.ctx, p.1, p.2, List.replicate 16 0, 0, 0, 0, 0⟩ : CollTag))
    .next { t with ten := { t.ten with ctxs := t.ten.ctxs ++ [newContext c] }, fab := { t.fab with tags := t.fab.tags ++ tags } }

end Sys2Proof.Machine
end

