-- ==== Sys2Proof/Machine/Device.lean ====
section
/-! DEFINITION. Start, identity, updates, errors, repair, links, resets, lifetime records and register writes (R5, R391,
R411, R412, R463 to R488). -/

namespace Sys2Proof.Machine

open Sys2Proof

/-! The boot status and the start (R463 to R465). -/

/-- R464: the boot status word. -/
def bootWord (s : State) : Nat := s.dev.bootError % 256 * 2 ^ 16 + s.dev.bootSlot % 4 * 2 ^ 8 + s.dev.stage % 16

/-- A slot of the flash. -/
def flashSlot (s : State) (n : Nat) : FlashSlot := nthD ⟨[], false⟩ s.dev.flash n

/-- R465: whether an image passes: its signature, its version against the floor, and its length. -/
def imageGood (s : State) (image : List Byte) : Bool :=
  let svn := (Config.imageSvn image).toNat
  Config.imageSigned image && (decide (s.dev.floor ≤ svn) || decide (63 ≤ svn)) && Config.imageFits image

/-- R465, R471: whether ROM accepts the image of a slot. -/
def slotGood (s : State) (n : Nat) : Bool := (flashSlot s n).valid && imageGood s (flashSlot s n).image

/-- RESET_RELEASE (R463 to R465): ROM starts; then it tries the preferred slot, then the other one, and stays halted
safe where it rejects both. -/
def execResetRelease (s : State) : Out :=
  let first := s.dev.preferred % 2
  if s.dev.stage = 0 then .next { s with dev := { s.dev with stage := 1, udsLocked := true } }
  else if s.dev.stage ≠ 1 then .next s
  else if s.dev.bootError = 0 then
    if slotGood s first then .next { s with dev := { s.dev with stage := 2, bootSlot := first } }
    else .next { s with dev := { s.dev with bootError := first + 1 } }
  else if slotGood s (1 - first) then .next { s with dev := { s.dev with stage := 2, bootSlot := 1 - first } }
  else .next { s with dev := { s.dev with stage := 15, bootError := 3 } }

/-! Errors (R473 to R478). -/

/-- R476: the place of a counter of a bank: kind 0 corrected soft, 1 corrected persistent, 2 uncorrectable. -/
def eccKey (stack bank kind : Nat) : Nat := (stack * 1536 + bank) * 3 + kind

/-- R473 to R476, R478: an ECC event of a kind at a line: the bank's counter, the hour's, and the record. -/
def eccEvent (addr kind : Nat) (s : State) : State :=
  let h := Config.hbmPlace addr
  let stack := h.1 % 8
  let bank := h.2.1 % 1536
  let k := eccKey stack bank kind
  let i := stack * 3 + kind
  appendError ⟨addr, 0, 0x8000, kind + 1, stack, bank, h.2.2, 1, s.tick⟩
    { s with dev := { s.dev with ecc := mapSet 0 s.dev.ecc k (min 65535 (mapGet 0 s.dev.ecc k + 1)),
                                 hourEcc := s.dev.hourEcc.set i (nthD 0 s.dev.hourEcc i + 1) } }

/-- R433: the remote copies of the line at a physical address are recalled. -/
def recallPhys (phys : Nat) (s : State) : State :=
  let here (r : RdcLine) : Bool := ((leafOfDom s r.dom r.line).map (fun l => lineOf l.2.phys == phys)).getD false
  { s with ms := { s.ms with rdc := s.ms.rdc.filter (fun r => !here r) } }

/-- The number of a physical address's 64 KiB frame in its package (R416). -/
def frameNumber (phys : Nat) : Nat := phys % 2 ^ 39 / 65536

/-- R479: H4 asks for a frame to be retired. -/
def askRetire (phys : Nat) (s : State) : State :=
  if memNat (frameNumber phys) s.dev.retireAsks then s
  else { s with dev := { s.dev with retireAsks := s.dev.retireAsks ++ [frameNumber phys] } }

/-- PATROL_SCRUB (R473 to R476): what the scrubber's reads of a line find. symbol is the one corrected. -/
def execPatrolScrub (addr _symbol : Nat) (result : EccResult) (s : State) : Out :=
  let line := lineOf addr
  if addr / 2 ^ 39 ≠ s.pkg then .next s
  else
    match result with
    | .clean => .next s
    | .soft => .next (eccEvent line 0 s)
    | .persistent => .next (askRetire line (eccEvent line 1 s))
    | .uncorrectable => .next (poisonLine line (recallPhys line (eccEvent line 2 s)))

/-- R483, R484: a core is retired: its quad takes no further span, and the spans there are pre-empted. A core of a quad
that has been mapped to a spare since can be retired again. -/
def retireCore (die core : Nat) (s : State) : State :=
  if s.dev.retiredCores.any (fun c => c.1 == die && c.2 == core) && s.dev.disabledQuads.any (fun q => q.1 == die && q.2 == core / 4) then s
  else
    let u := fresh s
    let p : Preempt := { uid := u.1, die := die, core := core / 4 * 4, isQuad := true, beneficiary := none,
                         isRecall := false, start := s.tick, deadline := 12500, evicted := false, only := none }
    let quads := s.dev.disabledQuads.filter (fun q => !(q.1 == die && q.2 == core / 4)) ++ [(die, core / 4)]
    appendError ⟨0, 0, 0x8000, 11, die, core, 0, 1, s.tick⟩
      { u.2 with ten := { u.2.ten with preempts := u.2.ten.preempts ++ [p] },
                 dev := { u.2.dev with retiredCores := u.2.dev.retiredCores ++ [(die, core)], disabledQuads := quads } }

/-- R483: an uncorrectable register-file or store error of a core; the third within 2^30 ticks retires it. -/
def coreError (die core : Nat) (s : State) : State :=
  let recent := s.dev.coreErrors.filter (fun e => decide (s.tick < e.2.2 + 2 ^ 30)) ++ [(die, core, s.tick)]
  let t := { s with dev := { s.dev with coreErrors := recent } }
  if 3 ≤ (recent.filter (fun e => e.1 == die && e.2.1 == core)).length then retireCore die core t else t

/-- R484: at a reset, each disabled quad is mapped to a spare physical quad of its die, while there is one. -/
def remapQuads (s : State) : State :=
  s.dev.disabledQuads.foldl (fun t q =>
    let n := nthD 0 t.dev.spares q.1
    if n = 0 then t
    else
      { t with dev := { t.dev with spares := t.dev.spares.set q.1 (n - 1), remaps := t.dev.remaps + 1,
                                   disabledQuads := t.dev.disabledQuads.filter (fun x => x != q) } }) s

/-- R391, R411, R463, R476, R480, R484, R486, R488: what a reset keeps of the device. -/
def keptDevice (s : State) : Device :=
  { State.reset.dev with
    flash := s.dev.flash, preferred := s.dev.preferred, floor := s.dev.floor, errRing := s.dev.errRing,
    errLost := s.dev.errLost, ecc := s.dev.ecc, repairs := s.dev.repairs, retireAsks := s.dev.retireAsks,
    usedSpares := s.dev.usedSpares, retiredCores := s.dev.retiredCores, spares := s.dev.spares,
    disabledQuads := s.dev.disabledQuads, remaps := s.dev.remaps, rowsRepaired := s.dev.rowsRepaired,
    hourEcc := s.dev.hourEcc, lifeRing := s.dev.lifeRing, lifeTotal := s.dev.lifeTotal, aborts := s.dev.aborts,
    satTicks := s.dev.satTicks, journalAt := s.dev.journalAt, links := s.dev.links.map (fun l => { Link.initial l.port with retrains := l.retrains }) }

/-- R433, R486: poison survives in memory; the other coherence bits start again. -/
def poisonOnly (m : SMap Nat) : SMap Nat := m.filter (fun p => sideSt p.2 == 7)

/-- R391, R411, R486: the state after a device reset: memory, the journal, the usage counters and the long-term records
stay. -/
def resetDevice (s : State) : State :=
  let owners := s.ten.owners.map (fun o => { Owner.initial o.num with usage := o.usage, usageEnd := o.usageEnd })
  remapQuads
    { State.reset with
      mem := s.mem, wq := s.wq, side := poisonOnly s.side,
      front := { State.reset.front with journal := s.front.journal, jseq := s.front.jseq, acked := s.front.acked },
      ten := { State.reset.ten with owners := owners, epoch := s.ten.epoch, periods := s.ten.periods,
                                    periodTick := s.ten.periodTick },
      dev := keptDevice s, pkg := s.pkg, tick := s.tick, uid := s.uid, free := s.free, turn := s.turn, agenda := s.agenda }

/-- R467: a firmware hart is restarted from its image, and the restart is reported. -/
def restartHart (hart : Nat) (s : State) : State :=
  reply 0 (ruleCode 467) 0 stDone (natToBytes 1 hart)
    { s with dev := { s.dev with hartRestarts := s.dev.hartRestarts.set hart (nthD 0 s.dev.hartRestarts hart + 1) } }

/-- R467: a hart that is lost is restarted; the loss of H0 resets the device. -/
def hartLost (hart : Nat) (s : State) : State := if hart = 0 then resetDevice s else restartHart hart s

/-- R477: an uncorrectable word of an open entry aborts the region that wrote it, and the entry is discarded; of a later
one its line becomes poisoned at home. -/
def entryError (e : SbEntry) (s : State) : State :=
  match e.st with
  | .opened =>
    onSplit e.gid e.split (fun t => abortRegion [faultOf t 1 e.lanes e.lowVa e.dom ⟨3, false, 0⟩] t)
      { s with ms := { s.ms with entries := s.ms.entries.filter (fun x => x.uid != e.uid) } }
  | .committed =>
    { s with ms := { s.ms with entries := updateFirst (fun x => x.uid == e.uid) (fun x => { x with poison := true }) s.ms.entries } }
  | .draining =>
    match accessIn s e.ctx ⟨false, false, false⟩ e.line with
    | .ok l => poisonLine l.phys s
    | .error _ => s

/-- R324, R384, R477: an entry is removed and its slot fires by force; a packet's condition, which never does, is
looked at and watched again. -/
def forceEntry (e : WatchEntry) (s : State) : State :=
  let t := dropEntries (fun f => f.uid == e.uid) s
  match e.packet with
  | some p => recheckPacket p.1 p.2 t
  | none => sendFire e.ctx e.lslot e.slot e.gen true t

/-- R477: an uncorrectable word of an L2 line: a clean copy is dropped, a dirty one leaves the line poisoned. -/
def l2Error (die slice line : Nat) (s : State) : State :=
  match s.ms.l2.find? (fun t => t.die == die && t.slice == slice && t.line == line) with
  | none => s
  | some x =>
    let t := { s with ms := { s.ms with l2 := s.ms.l2.filter (fun t => t != x) } }
    match leafOfDom t x.dom line with
    | some l => if x.dirty then poisonLine l.2.phys t else t
    | none => t

/-- R477: an uncorrectable word of a line of a remote data cache: a clean copy is dropped, a dirty one leaves the line
poisoned. -/
def rdcError (agent dom line : Nat) (s : State) : State :=
  let poisoned (t : State) : State :=
    match leafOfDom t dom line with
    | some l => poisonLine l.2.phys t
    | none => t
  match heldAs s agent dom line with
  | some .m => poisoned (giveUpLine agent dom line s)
  | some .o => poisoned (giveUpLine agent dom line s)
  | some .e => takeBack agent dom line s
  | some .s => giveUpLine agent dom line s
  | none => s

/-- R351, R477: an open slot of the mordant buffer with an uncorrectable word completes as FAIL. -/
def mordantError (die slot : Nat) (s : State) : State :=
  match s.fab.slots.find? (fun m => m.die == die && m.num == slot && m.st == .opened) with
  | none => s
  | some m =>
    modPool die m.ctx (fun p => { p with fails := satUp p.fails })
      (modSlot die m.ctx slot (fun x => { x with st := .releasing, fail := true, parked := [] }) s)

/-- The die and the core that a site's error is reported for (R478). -/
def SramSite.place (s : State) : SramSite → Nat × Nat
  | .l2 die _ _ => (die, 0)
  | .rdc die _ _ => (die, 0)
  | .storeEntry e => ((entryOf? s e).map (fun x => (x.die, x.core))).getD (0, 0)
  | .watchEntry e => (((s.wat.entries.find? (fun x => x.uid == e)).map (fun x => x.home % 4)).getD 0, 0)
  | .mordantSlot die _ => (die, 0)
  | .registerFile gid _ _ => ((groupOf? s gid).map (fun g => (g.die, g.core))).getD (0, 0)
  | .coreStore u _ => ((spanOf? s u).map (fun x => (x.die, x.core0))).getD (0, 0)
  | .quadStore u w => ((spanOf? s u).map (fun x => (x.die, quadCore x (8 * w)))).getD (0, 0)
  | .planeBlock u core _ _ => (((spanOf? s u).map (fun x => x.die)).getD 0, core)
  | .tileWord u core _ _ => (((spanOf? s u).map (fun x => x.die)).getD 0, core)
  | .firmware _ => (0, 0)

/-- R477: what an uncorrectable word does, by what it holds. -/
def sramLoss (site : SramSite) (s : State) : State :=
  let p := SramSite.place s site
  match site with
  | .l2 die slice line => l2Error die slice line s
  | .rdc die dom line => rdcError (agentOf s die) dom line s
  | .storeEntry n =>
    match entryOf? s n with
    | some e => entryError e s
    | none => s
  | .watchEntry n =>
    match s.wat.entries.find? (fun x => x.uid == n) with
    | some e => forceEntry e s
    | none => s
  | .mordantSlot die slot => mordantError die slot s
  | .registerFile gid reg lane =>
    coreError p.1 p.2 (modGroup gid (fun g => { g with regPoison := regKey reg lane :: g.regPoison }) s)
  | .coreStore u w => coreError p.1 p.2 (modSpanCore u p.2 (fun c => { c with storePoison := w :: c.storePoison }) s)
  | .quadStore u w => coreError p.1 p.2 (modSpanCore u p.2 (fun c => { c with quadPoison := w :: c.quadPoison }) s)
  | .planeBlock u core handle idx =>
    let mark (b : Block) : Block := { b with poison := true }
    let upd (r : Reservation) : Reservation :=
      { r with blocks := mapSet Block.zero r.blocks idx (mark (mapGet Block.zero r.blocks idx)) }
    coreError p.1 p.2 (modSpanCore u core (fun c => { c with resv := updateFirst (fun r => r.handle == handle) upd c.resv }) s)
  | .tileWord u core tile word =>
    let upd (x : Tile) : Tile := { x with poison := x.poison ++ [word] }
    modSpanCore u core (fun c => { c with tiles := c.tiles.set tile (upd (nthD Tile.zero c.tiles tile)) }) s
  | .firmware hart => hartLost hart s

/-- SRAM_ERROR (R477, R478). -/
def execSramError (site : SramSite) (uncorrectable : Bool) (s : State) : Out :=
  let p := SramSite.place s site
  let t := appendError ⟨0, 0, 0x8000, if uncorrectable then 5 else 4, p.1, p.2, 0, 1, s.tick⟩ s
  .next (if uncorrectable then sramLoss site t else t)

/-! Retiring frames (R479, R480). -/

/-- R479: whether a frame is to be retired: H4 has asked for it, or two of its lines are poisoned. -/
def mustRetire (s : State) (old : Nat) : Bool :=
  memNat (frameNumber old) s.dev.retireAsks || decide (2 ≤ ((frameLines old).filter (isPoisoned s)).length)

/-- R479: before a page changes its home, its watch entries fire by force and clear W, and the registrations of packets
move to the new home. -/
def moveWatches (dom va home : Nat) (s : State) : State :=
  let here (e : WatchEntry) : Bool := e.dom == dom && pageOf e.addr == va
  let t := (s.wat.entries.filter (fun e => here e && e.packet == none)).foldl (fun u e => forceEntry e u) s
  { t with wat := { t.wat with entries := updateAll here (fun e => { e with home := home }) t.wat.entries } }

/-- R384, R479: the packets whose conditions a new home holds are evaluated at once. -/
def recheckMoved (dom va : Nat) (s : State) : State :=
  (s.wat.entries.filter (fun e => e.dom == dom && pageOf e.addr == va)).foldl (fun u e =>
    match e.packet with
    | some p => recheckPacket p.1 p.2 u
    | none => u) s

/-- R479: every entry of the run that holds a page loses run = 1. -/
def clearRun (c : Context) (va : Nat) (s : State) : State :=
  match leafEntry? s c va with
  | none => s
  | some r =>
    if c.stage2 = 0 then (setRun false r s).getD s
    else
      let e := stage2Entry s (r.1.frame * 65536) 3 c.stage2
      (setRun false (pteOf (rdNat s e.1 8), e.2, e.1) s).getD s

/-- R478 to R480: the frame enters the repair list with its row, and the record says so. -/
def listFrame (old : Nat) (s : State) : State :=
  let h := Config.hbmPlace old
  let r : Repair := { frame := frameNumber old, stack := h.1 % 8, bank := h.2.1 % 1536, row := h.2.2 }
  appendError ⟨old, 0, 0x8000, 10, r.stack, 0, 0, 1, s.tick⟩
    { s with dev := { s.dev with repairs := s.dev.repairs ++ [r],
                                 retireAsks := s.dev.retireAsks.filter (fun f => f != frameNumber old) } }

/-- R480: whether the repair list of a frame's stack is full. -/
def repairFull (s : State) (old : Nat) : Bool :=
  decide (4096 ≤ (s.dev.repairs.filter (fun r => r.stack == (Config.hbmPlace old).1 % 8)).length)

/-- R479: the page moves to a frame, its home unchanged on the same die. -/
def retirePage (c : Context) (va : Nat) (l : Leaf) (frame : Nat) (s : State) : Option State :=
  let same := bitsOf frame 22 21 == homeAgent l % 4
  let home := homeAgent l / 4 * 4 + bitsOf frame 22 21
  let new := l.pte.hpkg * 2 ^ 39 + frame * 65536
  let t := if same then s else moveWatches l.dom va home s
  let t := moveFrame l.dom va l.phys new true (if l.size % 2 = 1 ∨ l.pte.run then clearRun c va t else t)
  (rewriteLeaf c va l.pte.hpkg frame t).map (fun u =>
    let v := reclaimPage l.dom va 65536 .waiting (listFrame l.phys u)
    if same then v else recheckMoved l.dom va v)

/-- R479: whether no frame of a die is free. -/
def dieFull (s : State) (hpkg die : Nat) : Bool :=
  (List.range (2 ^ 21)).all (fun i => !frameFree s hpkg (die * 2 ^ 21 + i))

/-- R479: whether H3 takes a frame for the contents of a page: one of the same die, or, where none is free there, one of
another die of the partition. -/
def retireTo (s : State) (c : Context) (l : Leaf) (frame : Nat) : Bool :=
  let die := homeAgent l % 4
  frameFree s l.pte.hpkg frame && (bitsOf frame 22 21 == die ||
    (memNat (bitsOf frame 22 21) (partDies s c.part) && dieFull s l.pte.hpkg die))

/-- FRAME_RETIRE (R479, R480): H3 moves a failing frame's contents to a free frame. -/
def execFrameRetire (ctx va frame : Nat) (s : State) : Out :=
  match ctxOf? s ctx with
  | none => .next s
  | some c =>
    match walkVa s c va with
    | .error _ => .next s
    | .ok l =>
      if va % 65536 ≠ 0 ∨ 2 ≤ l.size ∨ ¬ mustRetire s l.phys ∨ ¬ retireTo s c l frame ∨
          ¬ soleMapping s ctx va l.phys then .next s
      else if repairFull s l.phys then
        .next (appendError ⟨l.phys, 0, 0x8000, 10, (Config.hbmPlace l.phys).1 % 8, 0, 0, 0, s.tick⟩ s)
      else if pageBusy s l.dom va 65536 then .next (markMoving l.dom va (htbFill ctx va l s))
      else
        match retirePage c va l frame s with
        | some t => .next t
        | none => .next s

/-! Links (R464, R481, R482). -/

/-- A link changed. -/
def modLink (port : Nat) (f : Link → Link) (s : State) : State :=
  { s with dev := { s.dev with links := updateFirst (fun l => l.port == port) f s.dev.links } }

/-- The link of a port. -/
def linkOf? (s : State) (port : Nat) : Option Link := s.dev.links.find? (fun l => l.port == port)

/-- R2: the die of a Causeway port, 6 to a die; the lower die of a die-to-die link. -/
def portDie (port : Nat) : Nat := if port < 24 then port / 6 else nthD 0 [0, 0, 0, 1, 1, 2] (port - 24)

/-- R478: the record of an event of a link. -/
def linkError (port kind : Nat) (s : State) : State :=
  appendError ⟨0, 0, 0x8000, kind, portDie port, if port < 24 then port else 0, 0, 1, s.tick⟩ s

/-- FLIT_RECEIVE (R481): the next flit in order with a good CRC is accepted; any other is dropped. -/
def execFlitReceive (port seq : Nat) (crcOk : Bool) (s : State) : Out :=
  match linkOf? s port with
  | none => .next s
  | some l =>
    if l.up && !l.training && crcOk && seq == l.nextRecv then
      .next (modLink port (fun x => { x with nextRecv := x.nextRecv + 1 }) s)
    else .next s

/-- R481: the flits up to a number have been sent: those not sent before join the resend buffer. -/
def Link.sentTo (seq : Nat) (l : Link) : Link :=
  { l with unacked := l.unacked ++ (List.range (seq + 1 - l.nextSend)).map (fun i => l.nextSend + i),
           nextSend := max l.nextSend (seq + 1) }

/-- R481: whether an answer can be about a flit: it is in the resend buffer of 256 flits, or was sent just now. -/
def Link.mayAnswer (seq : Nat) (l : Link) : Bool :=
  l.up && !l.training && (memNat seq l.unacked || decide (l.nextSend ≤ seq ∧ seq < l.unacked.headD l.nextSend + 256))

/-- FLIT_ACK (R481): the acknowledged flits leave the resend buffer. -/
def execFlitAck (port seq : Nat) (s : State) : Out :=
  match linkOf? s port with
  | none => .next s
  | some l =>
    if l.mayAnswer seq then
      .next (modLink port (fun x =>
        let y := x.sentTo seq
        { y with unacked := y.unacked.filter (fun n => decide (seq < n)), sameRefusals := 0 }) s)
    else .next s

/-- FLIT_NACK (R478, R481, R482): the sender resends from the refused flit, and the refusal is counted. -/
def execFlitNack (port seq : Nat) (s : State) : Out :=
  match linkOf? s port with
  | none => .next s
  | some l =>
    if l.mayAnswer seq then
      let again := l.unacked.head? == some seq && l.sameRefusals != 0
      .next (linkError port 6 (modLink port (fun x =>
        let y := x.sentTo seq
        { y with unacked := y.unacked.filter (fun n => decide (seq ≤ n)),
                 sameRefusals := if again then x.sameRefusals + 1 else 1,
                 refusals := y.refusals.filter (fun t => decide (s.tick < t + 2 ^ 20)) ++ [s.tick] }) s))
    else .next s

/-- LINK_RETRAIN (R482): after 16 refusals of one flit in a row, or 64 within 2^20 ticks. -/
def execLinkRetrain (port : Nat) (s : State) : Out :=
  match linkOf? s port with
  | none => .next s
  | some l =>
    if l.up && !l.training && (decide (16 ≤ l.sameRefusals) ||
        decide (64 ≤ (l.refusals.filter (fun t => decide (s.tick < t + 2 ^ 20))).length)) then
      .next (linkError port 7 (modLink port (fun x =>
        { x with training := true, retrains := x.retrains + 1, sameRefusals := 0, refusals := [] }) s))
    else .next s

/-- RETRAIN_COMPLETE (R358, R482): a link that fails three retrains in a row is taken down, and the window lanes that a
Causeway port has not had acknowledged are sent again. -/
def execRetrainComplete (port : Nat) (ok : Bool) (s : State) : Out :=
  match linkOf? s port with
  | none => .next s
  | some l =>
    if ¬ l.training then .next s
    else if ok then .next (modLink port (fun x => { x with training := false, failedTrains := 0 }) s)
    else if l.failedTrains < 2 then .next (modLink port (fun x => { x with failedTrains := x.failedTrains + 1 }) s)
    else
      let t := modLink port (fun x => { x with up := false, training := false, failedTrains := 0, unacked := [] }) s
      .next (linkError port 8 (if port < 24 then resendLanes t else t))

/-- CAUSEWAY_PORT_RETRY (R464): H6 retries the training of a Causeway port that is down. -/
def execCausewayPortRetry (port : Nat) (ok : Bool) (s : State) : Out :=
  match linkOf? s port with
  | none => .next s
  | some l =>
    if l.up ∨ 24 ≤ port ∨ s.dev.stage ≠ 4 ∨ ¬ ok then .next s
    else .next (modLink port (fun x => { Link.initial port with up := true, retrains := x.retrains }) s)

/-! Training and full function (R463, R469, R480, R483, R484, R486). -/

/-- R480: post-package repair of a listed row: one spare row for each bank; the frames of a repaired row leave the
list. -/
def repairRow (r : Repair) (s : State) : State :=
  let d := draw s
  if s.dev.usedSpares.any (fun b => b.1 == r.stack && b.2 == r.bank) ∨
      ¬ s.dev.repairs.any (fun x => x.stack == r.stack && x.bank == r.bank && x.row == r.row) then s
  else if Config.rowRepairs r.stack r.bank r.row d.1 then
    { d.2 with dev := { d.2.dev with
        usedSpares := d.2.dev.usedSpares ++ [(r.stack, r.bank)], rowsRepaired := d.2.dev.rowsRepaired + 1,
        repairs := d.2.dev.repairs.filter (fun x => !(x.stack == r.stack && x.bank == r.bank && x.row == r.row)) } }
  else d.2

/-- R483: the self-test of every core at stage 3. -/
def selfTests (s : State) : State :=
  let d := draw s
  (List.range 4096).foldl (fun t i =>
    if Config.coreFails (i / 1024) (i % 1024) d.1 then retireCore (i / 1024) (i % 1024) t else t) d.2

/-- R463, R482: the links after training: 24 Causeway ports and the six die-to-die links. Where training is incomplete,
which of them trained is a free value. -/
def trainLinks (ok : Bool) (s : State) : State :=
  let d := draw s
  let mk (p : Nat) : Link :=
    { Link.initial p with up := ok || Config.linkTrains p d.1,
                          retrains := ((linkOf? s p).map (fun l => l.retrains)).getD 0 }
  { d.2 with dev := { d.2.dev with links := (List.range 30).map mk } }

/-- HBM_TRAINING_COMPLETE (R463, R464, R480, R483). -/
def execHbmTrainingComplete (hbmOk linksOk : Bool) (s : State) : Out :=
  if s.dev.stage ≠ 2 then .next s
  else if ¬ hbmOk then .next { s with dev := { s.dev with stage := 15, bootSlot := 3, bootError := 4 } }
  else
    let t := { s with dev := { s.dev with stage := 3, bootError := if linksOk then s.dev.bootError else 5 } }
    .next (selfTests (t.dev.repairs.foldl (fun u r => repairRow r u) (trainLinks linksOk t)))

/-- The version of the running image (R465). -/
def runningSvn (s : State) : Nat := (Config.imageSvn (flashSlot s s.dev.bootSlot).image).toNat

/-- R469: M1, the measurement of stage 1. -/
def measure1 (s : State) : List Byte :=
  sha256 (Config.imageStage1 (flashSlot s s.dev.bootSlot).image ++ natToBytes 4 (runningSvn s))

/-- R469: M2, the measurement of the runtime firmware. -/
def measure2 (s : State) : List Byte :=
  sha256 (Config.imageRuntime (flashSlot s s.dev.bootSlot).image ++ natToBytes 4 (runningSvn s))

/-- R469: CDI1, that ROM derives from the device secret. -/
def cdi1 (s : State) : List Byte := hmac (Config.deviceSecret s.pkg) (measure1 s)

/-- R469: the label of both Alias keys. -/
def aliasLabel : List Byte := [0x41, 0x6C, 0x69, 0x61, 0x73]

/-- R469: Alias1, the key of the stage-1 layer. -/
def alias1Key (s : State) : Nat := identityKey (cdi1 s) aliasLabel

/-- R469: Alias2, the firmware-layer identity key: from the device secret through CDI1 and CDI2. -/
def alias2Key (s : State) : Nat := identityKey (hmac (cdi1 s) (measure2 s)) aliasLabel

/-- R469: DeviceID, the key of the device secret. -/
def deviceIdKey (s : State) : Nat :=
  identityKey (Config.deviceSecret s.pkg) [0x44, 0x65, 0x76, 0x69, 0x63, 0x65, 0x49, 0x44]

/-- R469: the certificate chain: that of DeviceID, ROM's of Alias1 and stage 1's of Alias2. -/
def certificateChain (s : State) : List Byte :=
  Config.deviceCertificate ++ Config.certificate (deviceIdKey s) (alias1Key s) (measure1 s) (runningSvn s) ++
    Config.certificate (alias1Key s) (alias2Key s) (measure2 s) (runningSvn s)

/-- R486: every journal entry that is still pending takes the final status 0x07. -/
def closeJournal (s : State) : State :=
  let j := updateAll (fun e => e.status == 255) (fun e => { e with status := 7, done := s.tick }) s.front.journal
  { s with front := { s.front with journal := j } }

/-- FULL_FUNCTION_START (R323, R390, R463, R469, R485, R486): the start places the watch lists, and the two copies of the
journal where none has been kept (log entry 103). -/
def execFullFunctionStart (s : State) : Out :=
  if s.dev.stage ≠ 3 then .next s
  else
    let journal := if s.dev.journalAt = [] then [Config.journalBase 0, Config.journalBase 1] else s.dev.journalAt
    .next (closeJournal { s with dev := { s.dev with
      stage := 4, alias2 := alias2Key s, chain := certificateChain s, harts := List.replicate 8 true, journalAt := journal,
      listAt := [0, 1, 2, 3].map Config.listBase } })

/-- DEVICE_RESET (R463, R484, R486). -/
def execDeviceReset (s : State) : Out := .next (resetDevice s)

/-- POWER_LOSS (R411, R476, R486, R488): memory, the journal and its counter, the usage counters and the ECC counters
are gone, and the usage epoch changes; flash and fuses stay. -/
def execPowerLoss (s : State) : Out :=
  let d := draw s
  let t := resetDevice d.2
  .next { t with
    mem := [], wq := [], side := [],
    front := State.reset.front,
    ten := { t.ten with owners := [], epoch := Config.epoch d.1, periods := 0 },
    dev := { t.dev with ecc := [], errRing := [], errLost := 0, hourEcc := List.replicate 24 0, aborts := [0, 0, 0, 0],
                        satTicks := 0, retireAsks := [], journalAt := [] } }

/-- WATCHDOG_EXPIRY (R467): H4 restarts a hart; the expiry of H0 resets the device. -/
def execWatchdogExpiry (hart : Nat) (s : State) : Out :=
  if nthD false s.dev.harts hart then .next (hartLost hart s) else .next s

/-- FUNCTION_LEVEL_RESET (R391): what the function has not read of its replies, reads and kick errors is gone; the
journal and its sequence counter stay. -/
def execFunctionLevelReset (func : Nat) (s : State) : Out :=
  .next { s with front := { s.front with
    replies := s.front.replies.filter (fun r => r.func != func),
    hostReads := s.front.hostReads.filter (fun r => r.1 != func),
    kickErrors := mapSet 0 s.front.kickErrors func 0 } }

/-! Mailbox requests of every stage (R463, R468, R471, R472). -/

/-- MB_BOOT_STATUS (R464, R468): served from stage 1 on. -/
def execMbBootStatus (func seq : Nat) (s : State) : Out :=
  if s.dev.stage = 0 then .next s else .next (reply func 0x0001 seq stDone (natToBytes 4 (bootWord s)) s)

/-- R470: bytes 0 to 191 of the attestation report. -/
def reportBody (s : State) (nonce : List Byte) : List Byte :=
  let staged :=
    match s.dev.staged with
    | some n => 1 + 2 * (n % 2)
    | none => 0
  natToBytes 2 1 ++ natToBytes 2 0 ++ natToBytes 4 (runningSvn s) ++ natToBytes 4 s.dev.floor ++ natToBytes 4 (bootWord s) ++
    fitTo 0 32 nonce ++ measure1 s ++ measure2 s ++ natToBytes 8 staged ++ natToBytes 8 s.tick ++ natToBytes 64 0

/-- R412, R470: a signature as bytes: r then s. -/
def signed (s : State) (msg : List Byte) : List Byte :=
  msg ++ (natToBytes 64 (Config.sign s.dev.alias2 (sha256 msg)).toNat).reverse

/-- MB_ATTESTATION_REPORT (R468, R470): the report stands in the function's readout pages, and the reply names its
address. -/
def execMbAttestationReport (func seq : Nat) (nonce : List Byte) (s : State) : Out :=
  request func 0x0010 seq false (fun t =>
    if nonce.length ≠ 32 then refuse t
    else
      let rs := t.dev.reports.filter (fun r => r.1 != func) ++ [(func, signed t (reportBody t nonce))]
      done (natToBytes 8 (Config.reportAddress func).toNat) { t with dev := { t.dev with reports := rs } }) s

/-- MB_CERTIFICATE_CHAIN (R468, R469): the chain's address and length. -/
def execMbCertificateChain (func seq : Nat) (s : State) : Out :=
  request func 0x0011 seq false (fun t =>
    done (natToBytes 8 Config.chainAddress.toNat ++ natToBytes 4 t.dev.chain.length) t) s

/-- R463, R468, R471: an update request: refused of any function but the physical one, busy below stage 4. -/
def updateRequest (func code seq : Nat) (f : State → (Nat × List Byte) × State) (s : State) : Out :=
  if s.dev.stage = 0 then .next s
  else if func ≠ 0 then .next (reply func code seq stRefused [] s)
  else if s.dev.stage ≠ 4 then .next (reply func code seq stBusy [] s)
  else
    let r := f s
    .next (reply func code seq r.1.1 r.1.2 r.2)

/-- A flash slot changed. -/
def modSlotImage (n : Nat) (f : FlashSlot → FlashSlot) (s : State) : State :=
  { s with dev := { s.dev with flash := s.dev.flash.set n (f (flashSlot s n)) } }

/-- MB_UPDATE_BEGIN (R471): the slot that is not running becomes invalid and is open for writing. -/
def execMbUpdateBegin (func seq slot : Nat) (s : State) : Out :=
  updateRequest func 0x0020 seq (fun t =>
    if t.dev.update.isSome then ((stBusy, []), t)
    else if 2 ≤ slot ∨ slot = t.dev.bootSlot then refuse t
    else
      let u := modSlotImage slot (fun x => { x with valid := false }) t
      done [] { u with dev := { u.dev with update := some slot, staged := if u.dev.staged = some slot then none else u.dev.staged } }) s

/-- R471: bytes written into an image from an offset on; flash in between reads as erased. -/
def writeImageBytes (off : Nat) (bs image : List Byte) : List Byte :=
  fitTo 0xFF off image ++ bs ++ image.drop (off + bs.length)

/-- MB_UPDATE_DATA (R468, R471): up to 48 bytes of the open slot. -/
def execMbUpdateData (func seq off : Nat) (data : List Byte) (s : State) : Out :=
  updateRequest func 0x0021 seq (fun t =>
    match t.dev.update with
    | none => refuse t
    | some n =>
      if 48 < data.length then refuse t
      else done [] (modSlotImage n (fun x => { x with image := writeImageBytes off data x.image }) t)) s

/-- MB_UPDATE_FINISH (R465, R471). -/
def execMbUpdateFinish (func seq : Nat) (s : State) : Out :=
  updateRequest func 0x0022 seq (fun t =>
    match t.dev.update with
    | none => refuse t
    | some n =>
      let u := { t with dev := { t.dev with update := none } }
      if imageGood u (flashSlot u n).image then
        let v := modSlotImage n (fun x => { x with valid := true }) u
        done [] { v with dev := { v.dev with preferred := n, staged := some n } }
      else ((stBadImage, []), u)) s

/-- MB_UPDATE_COMMIT (R472). -/
def execMbUpdateCommit (func seq : Nat) (s : State) : Out :=
  updateRequest func 0x0023 seq (fun t =>
    if t.dev.bootSlot ≠ t.dev.preferred ∨ t.dev.bootError ≠ 0 then refuse t
    else done [] { t with dev := { t.dev with floor := max t.dev.floor (min (runningSvn t) 63) } }) s

/-! Records read through the mailbox (R412, R478, R488). -/

/-- R478: the 32 bytes of an error record. -/
def ErrRec.bytes (r : ErrRec) : List Byte :=
  natToBytes 8 r.paddr ++ natToBytes 2 r.domain ++ natToBytes 2 r.owner ++ natToBytes 1 r.kind ++ natToBytes 1 r.source ++
    natToBytes 2 r.unit ++ natToBytes 4 r.row ++ natToBytes 4 r.count ++ natToBytes 8 r.tick

/-- MB_ERROR_RING_READ (R478): the lost count and the records; a virtual function receives those of its owners. -/
def execMbErrorRingRead (func seq : Nat) (s : State) : Out :=
  request func 0x0030 seq false (fun t =>
    let mine (r : ErrRec) : Bool := func == 0 || t.ten.ctxs.any (fun c => c.func == func && c.owner == r.owner)
    done (natToBytes 4 t.dev.errLost ++ (t.dev.errRing.filter mine).flatMap ErrRec.bytes) t) s

/-- R488: the 4096 bytes of a lifetime record. -/
def LifeRec.bytes (r : LifeRec) : List Byte :=
  let bins (i n : Nat) : List Byte := (fitTo 0 n (r.sensors.drop i)).flatMap (natToBytes 4)
  natToBytes 8 r.tick ++ natToBytes 8 r.epoch.toNat ++ bins 0 128 ++ bins 128 128 ++ (fitTo 0 24 r.ecc).flatMap (natToBytes 4) ++
    (fitTo 0 24 r.links).flatMap (natToBytes 4) ++ (fitTo 0 4 r.aborts).flatMap (natToBytes 8) ++ natToBytes 8 r.sat ++
    (fitTo 0 4 r.repair).flatMap (natToBytes 2) ++ bins 256 16 ++ bins 272 16 ++ List.replicate 2688 0

/-- MB_LIFETIME_READ (R488): the records and the totals, for the physical function's driver. -/
def execMbLifetimeRead (func seq : Nat) (s : State) : Out :=
  request func 0x0031 seq true (fun t => done (t.dev.lifeRing.flatMap LifeRec.bytes ++ t.dev.lifeTotal.bytes) t) s

/-- USAGE_SNAPSHOT (R412). -/
def execUsageSnapshot (func seq owner : Nat) (nonce : List Byte) (s : State) : Out :=
  request func (ruleCode 412) seq false (fun t =>
    if nonce.length ≠ 32 ∨ 256 ≤ owner then refuse t
    else
      let body := natToBytes 2 1 ++ natToBytes 1 owner ++ natToBytes 1 0 ++ natToBytes 4 t.ten.periods ++
        natToBytes 8 t.ten.epoch.toNat ++ natToBytes 8 t.ten.periodTick ++
        (fitTo 0 5 (ownerRec t owner).usageEnd).flatMap (natToBytes 8) ++ nonce
      done (signed t body) t) s

/-- R488: the sums of two lists of counts. -/
def addCounts (n : Nat) (xs ys : List Nat) : List Nat := (List.range n).map (fun i => nthD 0 xs i + nthD 0 ys i)

/-- LIFETIME_RECORD (R488): at every hour of the tick count. -/
def execLifetimeRecord (s : State) : Out :=
  if s.tick = 0 ∨ s.tick % 900000000000 ≠ 0 ∨ s.dev.lifeRing.any (fun r => r.tick == s.tick) then .next s
  else
    let d := draw s
    let t := d.2
    let r : LifeRec :=
      { tick := t.tick, epoch := t.ten.epoch, ecc := t.dev.hourEcc,
        links := (List.range 24).map (fun p => ((linkOf? t p).map (fun l => l.retrains)).getD 0),
        aborts := t.dev.aborts, sat := t.dev.satTicks,
        repair := [t.dev.repairs.length, t.dev.rowsRepaired, t.dev.retiredCores.length, t.dev.spares.sum],
        sensors := (List.range 288).map (fun i => Config.sensorBins i d.1) }
    let o := t.dev.lifeTotal
    let total : LifeRec :=
      { r with ecc := addCounts 24 o.ecc r.ecc, links := addCounts 24 o.links r.links, aborts := addCounts 4 o.aborts r.aborts,
               sat := o.sat + r.sat, sensors := addCounts 288 o.sensors r.sensors }
    let ring := t.dev.lifeRing ++ [r]
    .next { t with dev := { t.dev with
      lifeRing := ring.drop (ring.length - 4096), lifeTotal := total, hourEcc := List.replicate 24 0, aborts := [0, 0, 0, 0],
      satTicks := 0, links := t.dev.links.map (fun l => { l with retrains := 0 }) } }

/-! Plain register writes (R5). -/

/-- R17: a barrier register from its 64 bits. -/
def Barrier.write (v : Nat) (b : Barrier) : Barrier :=
  { b with pending := bitsOf v 63 40, phase := bitOf v 31, closed := bitOf v 30, arrived := bitsOf v 15 8,
           expected := bitsOf v 7 0 }

/-- R5, R394, R447: a firmware write of an 8-byte word of a context record; read-only and reserved fields stay. -/
def writeCtxWord (ctx off v : Nat) (s : State) : State :=
  let put (f : Context → Context) : State := modCtx ctx f s
  let loop (f : LoopRec → LoopRec) : State := put (fun c => { c with loop := f c.loop })
  match off with
  | 0 => if v % 65536 = 0 then put (fun c => { c with save := v }) else s
  | 8 =>
    if bitsOf v 17 0 = 0 ∨ 131072 < bitsOf v 17 0 ∨ bitsOf v 47 32 = 0 ∨
        s.ten.ctxs.any (fun c => c.num != ctx && c.asid == bitsOf v 59 48) then s
    else put (fun c => { c with lslots := bitsOf v 17 0, sslots := bitsOf v 47 32, asid := bitsOf v 59 48 })
  | 16 => if v % 65536 = 0 then put (fun c => { c with lbase := v }) else s
  | 24 => put (fun c => { c with fqbase := v })
  | 32 =>
    if bitsOf v 31 0 < 64 ∨ 65536 < bitsOf v 31 0 then s
    else put (fun c => { c with fqlen := bitsOf v 31 0, seed := BitVec.ofNat 32 (bitsOf v 63 32) })
  | 40 =>
    if bitOf (ownerRec s (bitsOf v 7 0)).parts (bitsOf v 11 8) then
      put (fun c => { c with owner := bitsOf v 7 0, part := bitsOf v 11 8, quiesceRight := bitOf v 16, debugger := bitOf v 17 })
    else s
  | 48 => put (fun c => { c with colls := v })
  | 56 => sendWaitingAll ctx (put (fun c => { c with fqrd := bitsOf v 63 32 }))
  | 128 => loop (fun r => { r with r := bitsOf v 23 0, kp := bitsOf v 47 32, ki := bitsOf v 63 48 })
  | 136 => loop (fun r => { r with order := bitsOf v 46 32, cls := bitsOf v 49 48, weight := bitsOf v 63 56 })
  | 144 => loop (fun r => { r with bgroup := bitsOf v 31 0 })
  | n =>
    if 192 ≤ n ∧ n % 8 = 0 then put (fun c => { c with fwstate := c.fwstate.set ((n - 192) / 8) (BitVec.ofNat 64 v) }) else s

/-- R414: the segment table of n entries that stands at a base; the entries of now where none is kept in memory. -/
def readSegs (s : State) (segtab n : Nat) (now : List Segment) : List Segment :=
  if segtab = 0 then now.take n
  else
    (List.range n).map (fun i =>
      let a := pkgBase s.pkg + segtab + 16 * i
      let id := rdNat s (a + 14) 2
      ⟨rdNat s a 8, rdNat s (a + 8) 6, id, ((s.ten.segments.find? (fun g => g.id == id)).map (fun g => g.func)).getD 0⟩)

/-- R5, R414: a firmware write of an 8-byte word of a translation domain record. -/
def writeDomWord (ctx off v : Nat) (s : State) : State :=
  let put (f : Context → Context) : State := modCtx ctx f s
  match off with
  | 0 => if v % 131072 = 0 then put (fun c => { c with root1 := v }) else s
  | 8 => if v % 131072 = 0 then put (fun c => { c with stage2 := v }) else s
  | 16 =>
    if bitsOf v 22 16 ≤ 64 ∧ bitsOf v 63 48 ≤ 64 ∧ domainFree s ctx (bitsOf v 15 0) then
      put (fun c => { c with tagdom := bitsOf v 15 0, func := bitsOf v 22 16, mthresh := bitsOf v 47 32,
                             segs := readSegs s c.segtab (bitsOf v 63 48) c.segs })
    else s
  | 24 => put (fun c => { c with segtab := v, segs := readSegs s v c.segs.length c.segs })
  | _ => s

/-- REGISTER_WRITE (R5): a write under the access code of the register or field; of what firmware keeps beside them, a
partition's slot quota (R387), the keys that H0 loads (R424), and where contexts can map the doorbell pages (R374). -/
def execRegisterWrite (fw : Bool) (reg : RegSel) (value : Nat) (s : State) : Out :=
  match reg with
  | .bootStatus => .next s
  | .live _ => .next s
  | .fmode gid =>
    if 6 ≤ value % 8 then .next s
    else .next (modGroup gid (fun g => { g with fmode := BitVec.ofNat 32 (value % 32) }) s)
  | .flags gid => .next (modGroup gid (fun g => { g with flags := g.flags &&& ~~~ (BitVec.ofNat 16 (value % 2048)) }) s)
  | .rng gid lane =>
    if lane < 32 then
      let w : W := if value % 2 ^ 32 = 0 then 1 else BitVec.ofNat 32 value
      .next (modGroup gid (fun g => { g with rng := mapSet 0 g.rng lane w }) s)
    else .next s
  | .barrier span idx =>
    if fw then
      .next (modSpan span (fun x =>
        if idx < x.bars.length then { x with bars := x.bars.set idx ((nthD Barrier.zero x.bars idx).write value) } else x) s)
    else .next s
  | .partitionEntry die quad =>
    if fw && decide (die < 4 ∧ quad < 256) &&
        !s.spans.any (fun x => x.residence != .saved && x.die == die && x.core0 / 4 == quad) then
      .next { s with ten := { s.ten with partMap := mapSet 0 s.ten.partMap (quadKey die quad) (value % 2 ^ 13) } }
    else .next s
  | .contextWord ctx off =>
    if ¬ fw ∨ 256 ≤ off then .next s
    else if 64 ≤ off ∧ off < 96 ∧ off % 8 = 0 then execPoolWordSet ctx ((off - 64) / 8) (BitVec.ofNat 64 value) s
    else .next (writeCtxWord ctx off (value % 2 ^ 64) s)
  | .domainWord ctx off => if fw then .next (writeDomWord ctx off (value % 2 ^ 64) s) else .next s
  | .slotQuota part =>
    let others := (((List.range 16).filter (fun p => p != part)).map (slotQuotaOf s)).sum
    if fw && decide (part < 16 ∧ others + value ≤ 128) then
      .next { s with ten := { s.ten with slotQuota := mapSet 8 s.ten.slotQuota part value } }
    else .next s
  | .keyId key =>
    if fw && decide (1 ≤ key ∧ key ≤ 8191) then
      let others := s.ms.keys.filter (fun k => k != key)
      .next { s with ms := { s.ms with keys := if value % 2 = 1 then others ++ [key] else others } }
    else .next s
  | .doorbellBase =>
    if fw && value % 4096 == 0 then
      .next { s with front := { s.front with doorbells := if value = 0 then none else some value } }
    else .next s

end Sys2Proof.Machine
end

