-- ==== Sys2Proof/Machine/Schedule.lean ====
section
/-! DEFINITION. What happens next: the passing of ticks, the schedule that the machine follows where its agenda is
empty, and the end of a step (R6, R265, R266, R274, R452; log entry 2). -/

namespace Sys2Proof.Machine

open Sys2Proof

/-! Time (R6, R411, R445, R452, R488). -/

/-- R445, R452: the resident ticks of a loop record when n ticks pass: those from the end of its period on count for
the next one. -/
def LoopRec.resident (s : State) (n : Nat) (r : LoopRec) : LoopRec :=
  let now := min n (nextSample s - s.tick)
  { r with rtick := r.rtick + now, rnext := r.rnext + (n - now) }

/-- R452: the resident ticks of every context that has a span placed here. -/
def passResident (n : Nat) (s : State) : State :=
  { s with ten := { s.ten with ctxs := s.ten.ctxs.map (fun c =>
      if isResident s c.num then { c with loop := c.loop.resident s n } else c) } }

/-- R6: the count of a die's clk, in fifths, after n ticks more: a clk of step k is 5 of the 22 + 2k parts of a tick. -/
def partsAfter (s : State) (n die : Nat) : Nat := nthD 0 s.dev.clkParts die + n * (22 + 2 * nthD 0 s.dev.clockStep die)

/-- R6, R411: the group-slot clk that a group's owner uses in n ticks: the clk of its die that begin in them. -/
def passUsage (n : Nat) (g : Group) (s : State) : State :=
  if g.residence = .resident ∧ g.released = false then
    match ctxOf? s g.ctx with
    | some c => addUse c.owner 0 (partsAfter s n g.die / 5 - clkOf s g.die) s
    | none => s
  else s

/-- R488: the loops that are on and stand at a bound of u. -/
def saturatedLoops (s : State) : Nat :=
  (s.ten.ctxs.filter (fun c => c.loop.r != 0 && (c.loop.u == 0 || c.loop.u == 65535))).length

/-- R6: n ticks pass. -/
def passTicks (n : Nat) (s : State) : State :=
  let t := (allGroups s).foldl (fun u g => passUsage n g u) (passResident n s)
  { t with tick := t.tick + n, dev := { t.dev with satTicks := t.dev.satTicks + n * saturatedLoops s,
                                                   clkParts := [0, 1, 2, 3].map (partsAfter s n) } }

/-! The events that can happen by themselves. -/

/-- The events of the device, of its periods and of its dies. -/
def deviceEvents (s : State) : List (State → Out) :=
  [execResetRelease, execHbmTrainingComplete true true, execFullFunctionStart, execSampleLatch, execLoopUpdate,
    execGrantApply, execLifetimeRecord, execMigrationCountClear, execSlotMappingPass] ++
  [0, 1, 2, 3].map execClockStepChange ++ [0, 1, 2, 3].map execSpanPlace ++
  (activeOwners s).flatMap (fun o => [0, 1, 2, 3].map (fun d => execOwnerAgeing d o)) ++
  s.ten.preempts.map (fun p => execForcedEviction p.uid) ++
  s.ten.ctxs.map (fun c => execWakeMessage c.num) ++
  s.ten.dying.flatMap (fun d => (List.range 1024).map (fun k => execWatchPurge d.1.num (k / 256) (k % 256)) ++
    (s.wat.entries.filter (fun e => e.ctx == d.1.num && !localAgent s e.home)).map (fun e =>
      execWatchPurge d.1.num (4 + e.home) e.slice)) ++
  s.front.mmWaits.map (fun q t => Host.Outcome.next (mmRetry q.func t))

/-- The events of a queue. -/
def queueEvents (q : Queue) : List (State → Out) :=
  [execRingLook q.qid, execPacketAccept q.qid, execNopPacket q.qid, execLaunchPacket q.qid, execGangPacket q.qid,
    execWaitPacket q.qid, execSignalPacket q.qid, execFencePacket q.qid, execLoopSet q.qid, execWindowBind q.qid,
    execParamBind q.qid, execBarrierAnd q.qid, execWaitPacketTimeout q.qid, execPacketWatchPoll q.qid,
    execWaitPageHoldExpiry q.qid] ++ [0, 1, 2, 3].map (execWindowBindApply q.qid)

/-- The events of a gang launch; the answers of other packages come from the agenda. -/
def gangEvents (s : State) (g : Gang) : List (State → Out) :=
  (g.members.zipIdx.filter (fun m => m.1.pkg == s.pkg)).map (fun m => execGangReserve g.uid m.2 true) ++
    [execGangCommit g.uid, execGangRollback g.uid, execGangRetry g.uid, execGangStart g.uid]

/-- The events of a viaduct. -/
def viaductEvents (v : Viaduct) : List (State → Out) :=
  v.bars.map (fun b => execHwBarrierComplete v.uid b.level b.die) ++
    [0, 1, 2, 3].flatMap (fun t => execStealAnswer t v.uid :: [0, 1, 2, 3].map (fun a => execStealRequest t a v.uid))

/-- The events of a span. -/
def spanEvents (x : Span) : List (State → Out) :=
  [execStartGateOpen x.uid, execSpanEvictionSave x.uid, execSpanRetire x.uid, execSpanRestore x.uid]

/-- The events of a group and of its splits. -/
def groupEvents (s : State) (g : Group) : List (State → Out) :=
  [execDeferredTrapRaise g.gid, execTxSliceReceive g.gid, execTxSliceLock g.gid, execTxValidationResult g.gid,
    execXshfExchange g.gid, execXshfTimeout g.gid, execGroupResourceRelease g.gid,
    fun t => Host.Outcome.next (arriveNow g.gid t), execIssueSetRotate g.die g.core g.ctx] ++
  [0, 1, 2, 3].map (execWatchWithdraw g.gid) ++
  (splitsOf s g).flatMap (fun p =>
    [execRegionAbort g.gid p.num, execWaitvDeadline g.gid p.num, execQuiesceIdleComplete g.gid p.num,
      execQuiesceTimeout g.gid p.num, execSplitRestart g.gid p.num])

/-- The events of the caches, the homes and the watch tables. -/
def memoryEvents (s : State) : List (State → Out) :=
  s.ms.loads.map (fun d => execLoadDataReturn d.uid) ++
  s.ms.entries.flatMap (fun e => [execStoreClaimAnswer e.uid, execHomeWriteApply e.uid, execActingHomeForward e.uid,
    execEntryDrainAck e.uid]) ++
  s.ms.atoms.flatMap (fun a => a.lanes.map (fun l => execAtomicLanePerform a.uid l.1)) ++
  s.ms.invals.flatMap (fun v => [execInvalidation v.uid, execInvalidationAck v.uid]) ++
  s.ms.getxs.map (fun x => execGetx x.1 x.2.1 x.2.2) ++ s.ms.tokenWaits.map (fun t => execSerialTokenGrant t.1) ++
  s.wat.regs.map (fun r => execWatchRegistration r.uid) ++ s.wat.fires.map (fun f => execWatchFireDelivery f.uid) ++
  s.wat.scans.map (fun c => execWatchListScanEnd (c.home % 4) c.slice)

/-- The events of the engines, of the mordant buffers and of the collectives. -/
def engineEvents (s : State) : List (State → Out) :=
  s.eng.copies.flatMap (fun c => c.lanes.map (fun l => execCopyTransferWrite c.uid l.lane)) ++
  s.eng.tiles.map (fun c => execTileOpComplete c.die c.core) ++
  s.eng.fns.flatMap (fun c => [execFunctionResultPlace c.die c.quad, execSelectResultPlace c.die c.quad]) ++
  (allGroups s).map (fun g => execKeystoneRequest g.die (g.core / 4)) ++
  s.eng.fabs.flatMap (fun c => [execPutApply c.uid, execPutAck c.uid, execCollCombine c.uid, execGetWinRead c.uid,
    execMordantAllocApply c.uid, execMordantSendArrival c.uid, execMordantFreeArrival c.uid]) ++
  s.fab.resent.map (fun r => execPutApply r.cmd) ++
  s.fab.partials.map (fun p => execCollFlush p.uid) ++
  (List.range s.fab.slots.length).flatMap (fun i => [execMordantDeadline i, execMordantRelease i])

/-- Every event that could happen by itself in a state. -/
def events (s : State) : List (State → Out) :=
  deviceEvents s ++ s.front.queues.flatMap queueEvents ++ s.front.gangs.flatMap (gangEvents s) ++
    s.viaducts.flatMap viaductEvents ++ s.spans.flatMap spanEvents ++ (allGroups s).flatMap (groupEvents s) ++
    memoryEvents s ++ engineEvents s

/-- The first event of a list that changes the state. -/
def firstEvent (s : State) : List (State → Out) → Option State
  | [] => none
  | e :: es =>
    match e s with
    | .next t => if t = s then firstEvent s es else some t
    | .fault _ => firstEvent s es
    | .refused _ => firstEvent s es

/-- The event that happens, the tick choosing where the search begins. -/
def eventNow (s : State) : Option State :=
  let es := events s
  let k := s.tick % max 1 es.length
  firstEvent s (es.drop k ++ es.take k)

/-! Issue selection (R265, R266). -/

/-- A core as die * 1024 + core. -/
def coreKey (g : Group) : Nat := g.die * 1024 + g.core

/-- R265: the record of a core. -/
def coreRec? (s : State) (key : Nat) : Option CoreRec := s.cores.find? (fun c => c.key == key)

/-- R265: whether a split is ready to go on. -/
def splitGoesOn (s : State) (p : Nat × Nat) : Bool :=
  match groupOf? s p.1 with
  | some g => g.deferred == [] && ((splitsOf s g).find? (fun x => x.num == p.2)).any (splitReady s g)
  | none => false

/-- R266: the cores with a ready group, in ascending order. -/
def readyCores (s : State) : List Nat :=
  ((allGroups s).filter (groupReady s)).foldl (fun acc g => insertNat (coreKey g) acc) []

/-- R66, R266: whether one group goes before another of its core: by ready stamp, yield mark and slot. -/
def Group.before (a b : Group) : Bool :=
  decide (a.stamp < b.stamp) || (a.stamp == b.stamp &&
    ((!a.yieldMark && b.yieldMark) || (a.yieldMark == b.yieldMark && decide (a.gslot < b.gslot))))

/-- R266: the group that a core takes. -/
def chooseGroup (s : State) (core : Nat) : Option Group :=
  ((allGroups s).filter (fun g => coreKey g == core && groupReady s g)).foldl
    (fun best g =>
      match best with
      | none => some g
      | some b => if g.before b then some g else some b) none

/-- R243, R266: the split that a group issues: the first ready one after its last issuing split; where a deferred trap is
to be raised, any. -/
def chooseSplit (s : State) (g : Group) : Option Split :=
  let ps := (splitsOf s g).filter (splitReady s g)
  ((ps.find? (fun p => decide (g.lastSplit < p.num))).or ps.head?).or
    (if g.deferred = [] then none else (splitsOf s g).head?)

/-- R265, R266: the group and split whose word a core issues: those of the clause that it is in the middle of, or its
choice. -/
def chosenOn (s : State) (core : Nat) : Option (Nat × Nat) :=
  (((coreRec? s core).bind (fun c => c.cur)).filter (splitGoesOn s)).or
    ((chooseGroup s core).bind (fun g => (chooseSplit s g).map (fun p => (g.gid, p.num))))

/-- R265: the group and split whose word is issued, the cores taking turns. -/
def chosen? (s : State) : Option (Nat × Nat) :=
  let cs := readyCores s
  (cs[s.turn % max 1 cs.length]?).bind (chosenOn s)

/-- R205, R265, R266: whether a split can be taken up: it has a blocked word to go on with, it is to park for a debugger,
or it is the choice of its core. -/
def mayTakeUp (s : State) (gid num : Nat) : Bool :=
  match groupOf? s gid with
  | none => false
  | some g =>
    ((splitsOf s g).find? (fun p => p.num == num)).any (fun p => p.pend != [] || p.state == .breaking) ||
      chosenOn s (coreKey g) == some (gid, num)

/-- R265: after a word of a split, its core stays with its clause until that has issued, blocks or stalls; the first word
of a clause, and a word that stalls, take the core's opportunity of a clk. -/
def recordIssue (gid num : Nat) (old s : State) : State :=
  let key := coreKey old.g
  let clk := coreClk old old.g.die old.g.core
  let mid := s.g.gid == gid && s.sp.num == num && s.sp.widx != 0 && s.sp.pend == [] && s.sp.state == .running &&
    !s.iss.stalled
  let next := if old.iss.word = 1 ∨ s.iss.stalled then clk + 1 else clk
  let r : CoreRec := ⟨key, next, if mid then some (gid, num) else none⟩
  { s with cores := s.cores.filter (fun c => c.key != key) ++ [r],
           g := if s.g.gid = gid ∧ s.iss.stalled then { s.g with stamp := clk + 1, lastSplit := num } else s.g }

/-- R265: what a word of a split has led to, with its issue recorded in its core. -/
def recordOut (gid num : Nat) (old : State) (o : Out) : Out :=
  match o with
  | .next t => .next (recordIssue gid num old t)
  | .fault f => .fault f
  | .refused r => .refused r

/-! What other packages do (R218, R231 to R237, R347 to R365, R389). -/

/-- What another package does to this one; a context of the domain is found by its tag domain (R413). -/
def takeRemote (r : Remote) (s : State) : State :=
  match r with
  | .podArrive v p => podArrive v p s
  | .idle p high => podSignal p high s
  | .command dom c =>
    match ctxOfDomain? s dom with
    | some x => takeCommand x c s
    | none => s
  | .part dom late p =>
    match ctxOfDomain? s dom with
    | some x => takePart x late p s
    | none => s
  | .answer c l refused data => answerLane c l refused data s
  | .refuse gid t => deferFab gid t s
  | .send dom h e xs =>
    match ctxOfDomain? s dom with
    | some x => takeSend x h e xs s
    | none => s
  | .free dom h =>
    match ctxOfDomain? s dom with
    | some x => abandon x h s
    | none => s
  | .release m => remoteArriveOrHold m s
  | .gangReserve dom g => takeReserve dom g s
  | .gangCommit c n start => takeCommit c n start s
  | .gangRollback c n => takeRollback c n s
  | .gangEnded n p st d => partEnded n p st d s
  | .gangTrap c n t => takeGangTrap c n t s
  | .gangCancel c n => takeGangCancel c n s

/-! Steps. -/

/-- The end of a step: no group is in focus, the writes of the step are in memory, and the ready stamps, the starts of
owners' waits and those of the idle trees are kept. Only a loss of power changes mem itself, and leaves none of it. -/
def settle (old s : State) : State :=
  let t := unfocus s
  let m := if t.mem = [] then [] else old.mem
  keepIdle (keepWaits (restamp old { t with mem := memApply m t.wq, wq := [] }))

/-- An outcome with its next state settled. -/
def settleOut (old : State) (o : Out) : Out :=
  match o with
  | .next t => .next (settle old t)
  | .fault f => .fault f
  | .refused r => .refused r

end Sys2Proof.Machine
end

