-- ==== Sys2Proof/Machine/Program.lean ====
section
/-! DEFINITION. A program placed from outside: the pages, the viaduct, the span and the group that a launch of one
clause leaves behind (R63, R64, R252, R416; log entry 6). -/

namespace Sys2Proof.Machine

open Sys2Proof

/-- R67: the class of a clause whose first word has a major. -/
def classOf (major : Nat) : Nat :=
  match major with
  | 4 => 1
  | 6 => 2
  | 7 => 3
  | 8 => 4
  | 9 => 5
  | 10 => 6
  | 12 => 7
  | 13 => 8
  | _ => 0

/-- R64, R65: the header of a clause of n words that waits for nothing. -/
def headerWord (cls n : Nat) : W := BitVec.ofNat 32 (14 * 2 ^ 28 + cls * 2 ^ 24 + n * 2 ^ 20 + 0xFFFF * 2 ^ 4)

/-- R62, R68: the words of the instruction whose bits are w: its first word, and its literal if it calls for one. -/
def tableWords (nbits w : Nat) : List W :=
  let v := w % 2 ^ nbits
  let first := BitVec.ofNat 32 v
  if wordCallsLiteral first then [first, BitVec.ofNat 32 (v / 2 ^ 32)] else [first]

/-- R64: a clause of some words, with its header. -/
def clauseOf (ws : List W) : List W :=
  headerWord (classOf (((ws.headD 0).toNat) / 2 ^ 28)) ws.length :: ws

/-- R416: where a placed program's three tables and its page of code stand in the package. -/
def placedRoot : Nat := 0x20000
/-- R416: the level-2 table of a placed program. -/
def placedL2 : Nat := 0x40000
/-- R416: the level-3 table of a placed program. -/
def placedL3 : Nat := 0x50000
/-- R416: the frame of a placed program's code. -/
def placedFrame : Nat := 6
/-- The context number of a placed program, which no context of the spec has. -/
def placedCtx : Nat := 65535

/-- R5: words stored at a physical address. -/
def storeWords (a : Nat) (ws : List W) (m : List Host.Cell) : List Host.Cell :=
  (ws.flatMap (fun w => natToBytes 4 w.toNat)).zipIdx.foldl (fun k p => memSet k (a + p.2) p.1) m

/-- R416: an entry stored at a physical address. -/
def storePte (a : Nat) (p : Pte) (m : List Host.Cell) : List Host.Cell :=
  (natToBytes 8 p.toNat).zipIdx.foldl (fun k b => memSet k (a + b.2) b.1) m

/-- R416: a pointer to the table at a frame. -/
def pointerTo (frame : Nat) : Pte := { pteOf 1 with frame := frame }

/-- R416: a leaf of a package that gives reads, writes and fetches. -/
def openLeaf (pkg frame : Nat) : Pte :=
  { pteOf 1 with frame := frame, hpkg := pkg, rd := true, w := true, x := true }

/-- R416: a memory with the tables of a placed program and its clause at virtual address 0. -/
def placedMem (pkg : Nat) (ws : List W) (m : List Host.Cell) : List Host.Cell :=
  let b := pkgBase pkg
  storeWords (b + placedFrame * 65536) ws
    (storePte (b + placedL3) (openLeaf pkg placedFrame)
      (storePte (b + placedL2) (pointerTo (placedL3 / 65536)) (storePte (b + placedRoot) (pointerTo (placedL2 / 65536)) m)))

/-- R394, R414: the context of a placed program. -/
def placedContext : Context :=
  { num := placedCtx, asid := 0, owner := 0, part := 0, save := 0, lslots := 1, sslots := 1, lbase := 0,
    fqbase := 0, fqlen := 64, fqwr := 0, fqrd := 0, seed := 0, quiesceRight := false, debugger := false,
    runnable := false, state := 0, colls := 0, flush := 0, pools := [0, 0, 0, 0], loop := LoopRec.initial,
    pendingLoops := [], func := 0, root1 := placedRoot, stage2 := 0, tagdom := 0, mthresh := 0, segs := [], segtab := 0,
    fwstate := List.replicate 8 0, coreGrants := [], newCoreGrants := [] }

/-- R381: the launch of a placed program: one span of one group, with every barrier register and tile. -/
def placedLaunch : Launch :=
  { entry := 0, vdx := 1, vdy := 1, vdz := 1, sx := 32, sy := 1, sz := 1, vregs := 127, quadSpan := false, coop := false,
    acc := 4, bars := 16, store := 1, qstore := 0, plane := 1, comm := 0, fmode := 0, vid := 0, w0base := 0, w0size := 0 }

/-- R252: the viaduct of a placed program. -/
def placedViaduct (uid : Nat) (image : List Host.Cell) : Viaduct :=
  { uid := uid, ctx := placedCtx, owner := 0, launch := placedLaunch, image := image, params := [], journal := 0,
    gang := none, firstSpan := 0, lastSpan := 1, startTick := 0, readyTick := 0, chunks := [], placed := [0], retired := 0,
    bars := [], trap := none, st := .started, asked := [], firmware := false }

/-- The core of die 0 on which a program is placed: the one after the last that has a group. -/
def placedCore (s : State) : Nat := s.groups.foldl (fun m g => if g.die = 0 then max m (g.core + 1) else m) 0

/-- R253: the span of a placed program. -/
def placedSpan (uid viaduct core : Nat) : Span :=
  { uid := uid, viaduct := viaduct, ctx := placedCtx, lin := 0, die := 0, core0 := core, isQuad := false, groups := 1,
    bars := List.replicate 16 Barrier.zero,
    cores := [⟨core, [], [], [], [], List.replicate 4 Tile.zero, []⟩],
    gateOpen := true, residence := .resident, evicting := false, restored := false, evictOrder := 0, slot := none, savedTraps := [] }

/-- R9, R268: the group of a placed program, with every strand and one split at virtual address 0. -/
def placedGroup (gid span viaduct core : Nat) : Group :=
  { Group.idle with
    gid := gid, span := span, viaduct := viaduct, ctx := placedCtx, core := core, nregs := 127, exist := BitVec.allOnes 32,
    splits := [Split.initial (BitVec.allOnes 32) 0 0 []], released := false, exited := false, stopped := false }

/-- A state with a program of one clause placed, whose first word is the next to be issued. -/
def placeProgram (ws : List W) (s : State) : State :=
  let u := unfocus s
  let m := placedMem u.pkg (clauseOf ws) u.mem
  let core := placedCore u
  { u with
    mem := m, uid := u.uid + 3,
    groups := insertGroup (placedGroup (u.uid + 2) (u.uid + 1) u.uid core) u.groups,
    spans := placedSpan (u.uid + 1) u.uid core :: u.spans,
    viaducts := placedViaduct u.uid m :: u.viaducts,
    ten := { u.ten with ctxs := placedContext :: u.ten.ctxs },
    cores := u.cores.filter (fun c => c.key != core), agenda := .issue (u.uid + 2) 0 :: u.agenda }

end Sys2Proof.Machine
end

