-- ==== Sys2Proof/Machine/Dispatch.lean ====
section
/-! DEFINITION. One arm for each constructor of Instr: the meaning of the instruction or event. -/

namespace Sys2Proof.Machine

/-- The meaning of every instruction and event. -/
def exec (i : Instr) (s : State) : Host.Outcome State Fault Refusal :=
  match i with
  | .addI32 o => Sys2Proof.Machine.execAddI32 o s
  | .subI32 o => Sys2Proof.Machine.execSubI32 o s
  | .addSatI32 o => Sys2Proof.Machine.execAddSatI32 o s
  | .subSatI32 o => Sys2Proof.Machine.execSubSatI32 o s
  | .addSatN32 o => Sys2Proof.Machine.execAddSatN32 o s
  | .subSatN32 o => Sys2Proof.Machine.execSubSatN32 o s
  | .addI64 o => Sys2Proof.Machine.execAddI64 o s
  | .subI64 o => Sys2Proof.Machine.execSubI64 o s
  | .mulLoI32 o => Sys2Proof.Machine.execMulLoI32 o s
  | .mulHiI32 o => Sys2Proof.Machine.execMulHiI32 o s
  | .mulHiN32 o => Sys2Proof.Machine.execMulHiN32 o s
  | .mulWideI32 o => Sys2Proof.Machine.execMulWideI32 o s
  | .mulWideN32 o => Sys2Proof.Machine.execMulWideN32 o s
  | .minI32 o => Sys2Proof.Machine.execMinI32 o s
  | .maxI32 o => Sys2Proof.Machine.execMaxI32 o s
  | .minN32 o => Sys2Proof.Machine.execMinN32 o s
  | .maxN32 o => Sys2Proof.Machine.execMaxN32 o s
  | .absdiffN32 o => Sys2Proof.Machine.execAbsdiffN32 o s
  | .avgN32 o => Sys2Proof.Machine.execAvgN32 o s
  | .andB32 o => Sys2Proof.Machine.execAndB32 o s
  | .orB32 o => Sys2Proof.Machine.execOrB32 o s
  | .xorB32 o => Sys2Proof.Machine.execXorB32 o s
  | .andnB32 o => Sys2Proof.Machine.execAndnB32 o s
  | .shlB32 o => Sys2Proof.Machine.execShlB32 o s
  | .shrB32 o => Sys2Proof.Machine.execShrB32 o s
  | .sraI32 o => Sys2Proof.Machine.execSraI32 o s
  | .rotlB32 o => Sys2Proof.Machine.execRotlB32 o s
  | .shlB64 o => Sys2Proof.Machine.execShlB64 o s
  | .shrB64 o => Sys2Proof.Machine.execShrB64 o s
  | .popcB32 o => Sys2Proof.Machine.execPopcB32 o s
  | .clzB32 o => Sys2Proof.Machine.execClzB32 o s
  | .ctzB32 o => Sys2Proof.Machine.execCtzB32 o s
  | .brevB32 o => Sys2Proof.Machine.execBrevB32 o s
  | .bfeN32 o => Sys2Proof.Machine.execBfeN32 o s
  | .bfeI32 o => Sys2Proof.Machine.execBfeI32 o s
  | .cmpEqI32 o => Sys2Proof.Machine.execCmpEqI32 o s
  | .cmpNeI32 o => Sys2Proof.Machine.execCmpNeI32 o s
  | .cmpLtI32 o => Sys2Proof.Machine.execCmpLtI32 o s
  | .cmpLeI32 o => Sys2Proof.Machine.execCmpLeI32 o s
  | .cmpLtN32 o => Sys2Proof.Machine.execCmpLtN32 o s
  | .cmpLeN32 o => Sys2Proof.Machine.execCmpLeN32 o s
  | .cmpEqI64 o => Sys2Proof.Machine.execCmpEqI64 o s
  | .cmpLtI64 o => Sys2Proof.Machine.execCmpLtI64 o s
  | .cmpLtN64 o => Sys2Proof.Machine.execCmpLtN64 o s
  | .faddF32 o => Sys2Proof.Machine.execFaddF32 o s
  | .fsubF32 o => Sys2Proof.Machine.execFsubF32 o s
  | .fmulF32 o => Sys2Proof.Machine.execFmulF32 o s
  | .fminF32 o => Sys2Proof.Machine.execFminF32 o s
  | .fmaxF32 o => Sys2Proof.Machine.execFmaxF32 o s
  | .fminnF32 o => Sys2Proof.Machine.execFminnF32 o s
  | .fmaxnF32 o => Sys2Proof.Machine.execFmaxnF32 o s
  | .fabsF32 o => Sys2Proof.Machine.execFabsF32 o s
  | .fnegF32 o => Sys2Proof.Machine.execFnegF32 o s
  | .fclassF32 o => Sys2Proof.Machine.execFclassF32 o s
  | .fscaleF32 o => Sys2Proof.Machine.execFscaleF32 o s
  | .fcmpEqF32 o => Sys2Proof.Machine.execFcmpEqF32 o s
  | .fcmpLtF32 o => Sys2Proof.Machine.execFcmpLtF32 o s
  | .fcmpLeF32 o => Sys2Proof.Machine.execFcmpLeF32 o s
  | .fcmpUnF32 o => Sys2Proof.Machine.execFcmpUnF32 o s
  | .faddF16x2 o => Sys2Proof.Machine.execFaddF16x2 o s
  | .fsubF16x2 o => Sys2Proof.Machine.execFsubF16x2 o s
  | .fmulF16x2 o => Sys2Proof.Machine.execFmulF16x2 o s
  | .faddBf16x2 o => Sys2Proof.Machine.execFaddBf16x2 o s
  | .fsubBf16x2 o => Sys2Proof.Machine.execFsubBf16x2 o s
  | .fmulBf16x2 o => Sys2Proof.Machine.execFmulBf16x2 o s
  | .fmaxBf16x2 o => Sys2Proof.Machine.execFmaxBf16x2 o s
  | .fminBf16x2 o => Sys2Proof.Machine.execFminBf16x2 o s
  | .faddF64 o => Sys2Proof.Machine.execFaddF64 o s
  | .fsubF64 o => Sys2Proof.Machine.execFsubF64 o s
  | .fmulF64 o => Sys2Proof.Machine.execFmulF64 o s
  | .fminF64 o => Sys2Proof.Machine.execFminF64 o s
  | .fmaxF64 o => Sys2Proof.Machine.execFmaxF64 o s
  | .fcmpLtF64 o => Sys2Proof.Machine.execFcmpLtF64 o s
  | .fcmpEqF64 o => Sys2Proof.Machine.execFcmpEqF64 o s
  | .fmaF32 o => Sys2Proof.Machine.execFmaF32 o s
  | .fnmaF32 o => Sys2Proof.Machine.execFnmaF32 o s
  | .fmaF16x2 o => Sys2Proof.Machine.execFmaF16x2 o s
  | .fmaBf16x2 o => Sys2Proof.Machine.execFmaBf16x2 o s
  | .fmaF64 o => Sys2Proof.Machine.execFmaF64 o s
  | .fdot2F32Bf16 o => Sys2Proof.Machine.execFdot2F32Bf16 o s
  | .fdot2F32F16 o => Sys2Proof.Machine.execFdot2F32F16 o s
  | .madLoI32 o => Sys2Proof.Machine.execMadLoI32 o s
  | .madHiN32 o => Sys2Proof.Machine.execMadHiN32 o s
  | .madWideN32 o => Sys2Proof.Machine.execMadWideN32 o s
  | .bfiB32 o => Sys2Proof.Machine.execBfiB32 o s
  | .bdot4I32I8 o => Sys2Proof.Machine.execBdot4I32I8 o s
  | .bdot4I32N8 o => Sys2Proof.Machine.execBdot4I32N8 o s
  | .movB32 o => Sys2Proof.Machine.execMovB32 o s
  | .movB64 o => Sys2Proof.Machine.execMovB64 o s
  | .cvtF32I32 o => Sys2Proof.Machine.execCvtF32I32 o s
  | .cvtF32N32 o => Sys2Proof.Machine.execCvtF32N32 o s
  | .cvtI32F32 o => Sys2Proof.Machine.execCvtI32F32 o s
  | .cvtN32F32 o => Sys2Proof.Machine.execCvtN32F32 o s
  | .froundF32 o => Sys2Proof.Machine.execFroundF32 o s
  | .cvtF16x2F32 o => Sys2Proof.Machine.execCvtF16x2F32 o s
  | .cvtBf16x2F32 o => Sys2Proof.Machine.execCvtBf16x2F32 o s
  | .cvtF32F16 o => Sys2Proof.Machine.execCvtF32F16 o s
  | .cvtF32Bf16 o => Sys2Proof.Machine.execCvtF32Bf16 o s
  | .cvtE4m3x4F32 o => Sys2Proof.Machine.execCvtE4m3x4F32 o s
  | .cvtE5m2x4F32 o => Sys2Proof.Machine.execCvtE5m2x4F32 o s
  | .cvtF32E4m3 o => Sys2Proof.Machine.execCvtF32E4m3 o s
  | .cvtF32E5m2 o => Sys2Proof.Machine.execCvtF32E5m2 o s
  | .cvtF64F32 o => Sys2Proof.Machine.execCvtF64F32 o s
  | .cvtF32F64 o => Sys2Proof.Machine.execCvtF32F64 o s
  | .cvtI8x4I32 o => Sys2Proof.Machine.execCvtI8x4I32 o s
  | .cvtI32I8 o => Sys2Proof.Machine.execCvtI32I8 o s
  | .lpick o => Sys2Proof.Machine.execLpick o s
  | .bflyB32 o => Sys2Proof.Machine.execBflyB32 o s
  | .bflyB64 o => Sys2Proof.Machine.execBflyB64 o s
  | .rotLane o => Sys2Proof.Machine.execRotLane o s
  | .bcast o => Sys2Proof.Machine.execBcast o s
  | .redAddI32 o => Sys2Proof.Machine.execRedAddI32 o s
  | .redAddF32 o => Sys2Proof.Machine.execRedAddF32 o s
  | .redMinI32 o => Sys2Proof.Machine.execRedMinI32 o s
  | .redMaxI32 o => Sys2Proof.Machine.execRedMaxI32 o s
  | .redMinF32 o => Sys2Proof.Machine.execRedMinF32 o s
  | .redMaxF32 o => Sys2Proof.Machine.execRedMaxF32 o s
  | .redxMaxF32 o => Sys2Proof.Machine.execRedxMaxF32 o s
  | .redxMinF32 o => Sys2Proof.Machine.execRedxMinF32 o s
  | .scanAddI32 o => Sys2Proof.Machine.execScanAddI32 o s
  | .scanAddF32 o => Sys2Proof.Machine.execScanAddF32 o s
  | .mnz o => Sys2Proof.Machine.execMnz o s
  | .mand o => Sys2Proof.Machine.execMand o s
  | .mor o => Sys2Proof.Machine.execMor o s
  | .mxor o => Sys2Proof.Machine.execMxor o s
  | .mandn o => Sys2Proof.Machine.execMandn o s
  | .mnot o => Sys2Proof.Machine.execMnot o s
  | .mmov o => Sys2Proof.Machine.execMmov o s
  | .mcount o => Sys2Proof.Machine.execMcount o s
  | .mfirst o => Sys2Proof.Machine.execMfirst o s
  | .mfrom o => Sys2Proof.Machine.execMfrom o s
  | .sadd o => Sys2Proof.Machine.execSadd o s
  | .ssub o => Sys2Proof.Machine.execSsub o s
  | .smul o => Sys2Proof.Machine.execSmul o s
  | .smulhiN64 o => Sys2Proof.Machine.execSmulhiN64 o s
  | .sand o => Sys2Proof.Machine.execSand o s
  | .sor o => Sys2Proof.Machine.execSor o s
  | .sxor o => Sys2Proof.Machine.execSxor o s
  | .sshl o => Sys2Proof.Machine.execSshl o s
  | .sshr o => Sys2Proof.Machine.execSshr o s
  | .ssra o => Sys2Proof.Machine.execSsra o s
  | .sminI64 o => Sys2Proof.Machine.execSminI64 o s
  | .smaxI64 o => Sys2Proof.Machine.execSmaxI64 o s
  | .sminN64 o => Sys2Proof.Machine.execSminN64 o s
  | .smaxN64 o => Sys2Proof.Machine.execSmaxN64 o s
  | .smov o => Sys2Proof.Machine.execSmov o s
  | .ssetEq o => Sys2Proof.Machine.execSsetEq o s
  | .ssetLtI64 o => Sys2Proof.Machine.execSsetLtI64 o s
  | .ssetLtN64 o => Sys2Proof.Machine.execSsetLtN64 o s
  | .sfromLane o => Sys2Proof.Machine.execSfromLane o s
  | .shi o => Sys2Proof.Machine.execShi o s
  | .ldB8N o => Sys2Proof.Machine.execLdB8N o s
  | .ldB8I o => Sys2Proof.Machine.execLdB8I o s
  | .ldB16N o => Sys2Proof.Machine.execLdB16N o s
  | .ldB16I o => Sys2Proof.Machine.execLdB16I o s
  | .ldB32 o => Sys2Proof.Machine.execLdB32 o s
  | .ldB64 o => Sys2Proof.Machine.execLdB64 o s
  | .ldB128 o => Sys2Proof.Machine.execLdB128 o s
  | .stB8 o => Sys2Proof.Machine.execStB8 o s
  | .stB16 o => Sys2Proof.Machine.execStB16 o s
  | .stB32 o => Sys2Proof.Machine.execStB32 o s
  | .stB64 o => Sys2Proof.Machine.execStB64 o s
  | .stB128 o => Sys2Proof.Machine.execStB128 o s
  | .ldParamB32 o => Sys2Proof.Machine.execLdParamB32 o s
  | .ldParamB64 o => Sys2Proof.Machine.execLdParamB64 o s
  | .sldB64 o => Sys2Proof.Machine.execSldB64 o s
  | .sstB64 o => Sys2Proof.Machine.execSstB64 o s
  | .prefetch o => Sys2Proof.Machine.execPrefetch o s
  | .acvtGenLocal o => Sys2Proof.Machine.execAcvtGenLocal o s
  | .acvtGenStore o => Sys2Proof.Machine.execAcvtGenStore o s
  | .acvtGenQuad o => Sys2Proof.Machine.execAcvtGenQuad o s
  | .acvtLocal o => Sys2Proof.Machine.execAcvtLocal o s
  | .acvtStore o => Sys2Proof.Machine.execAcvtStore o s
  | .acvtQuad o => Sys2Proof.Machine.execAcvtQuad o s
  | .atestLocal o => Sys2Proof.Machine.execAtestLocal o s
  | .atestStore o => Sys2Proof.Machine.execAtestStore o s
  | .atestQuad o => Sys2Proof.Machine.execAtestQuad o s
  | .atomAddI32 o => Sys2Proof.Machine.execAtomAddI32 o s
  | .atomAddI64 o => Sys2Proof.Machine.execAtomAddI64 o s
  | .atomFaddF32 o => Sys2Proof.Machine.execAtomFaddF32 o s
  | .atomFaddBf16x2 o => Sys2Proof.Machine.execAtomFaddBf16x2 o s
  | .atomMinI32 o => Sys2Proof.Machine.execAtomMinI32 o s
  | .atomMaxI32 o => Sys2Proof.Machine.execAtomMaxI32 o s
  | .atomMinN32 o => Sys2Proof.Machine.execAtomMinN32 o s
  | .atomMaxN32 o => Sys2Proof.Machine.execAtomMaxN32 o s
  | .atomAndB32 o => Sys2Proof.Machine.execAtomAndB32 o s
  | .atomOrB32 o => Sys2Proof.Machine.execAtomOrB32 o s
  | .atomXorB32 o => Sys2Proof.Machine.execAtomXorB32 o s
  | .atomXchgB32 o => Sys2Proof.Machine.execAtomXchgB32 o s
  | .atomXchgB64 o => Sys2Proof.Machine.execAtomXchgB64 o s
  | .atomCasB32 o => Sys2Proof.Machine.execAtomCasB32 o s
  | .atomCasB64 o => Sys2Proof.Machine.execAtomCasB64 o s
  | .cpG2s o => Sys2Proof.Machine.execCpG2s o s
  | .cpS2g o => Sys2Proof.Machine.execCpS2g o s
  | .cpS2s o => Sys2Proof.Machine.execCpS2s o s
  | .cpG2p o => Sys2Proof.Machine.execCpG2p o s
  | .cpS2p o => Sys2Proof.Machine.execCpS2p o s
  | .cpMcast o => Sys2Proof.Machine.execCpMcast o s
  | .cpPut o => Sys2Proof.Machine.execCpPut o s
  | .cpFill o => Sys2Proof.Machine.execCpFill o s
  | .cpClose bar => Sys2Proof.Machine.execCpClose bar s
  | .pres n e => Sys2Proof.Machine.execPres n e s
  | .pset n sel e => Sys2Proof.Machine.execPset n sel e s
  | .prel n => Sys2Proof.Machine.execPrel n s
  | .mzero t => Sys2Proof.Machine.execMzero t s
  | .mmk t ha hb n => Sys2Proof.Machine.execMmk t ha hb n s
  | .mtab hb n => Sys2Proof.Machine.execMtab hb n s
  | .mlut t ha hb n => Sys2Proof.Machine.execMlut t ha hb n s
  | .mdrain t d g => Sys2Proof.Machine.execMdrain t d g s
  | .mdrainMx t int fmt d m => Sys2Proof.Machine.execMdrainMx t int fmt d m s
  | .msave t e => Sys2Proof.Machine.execMsave t e s
  | .mload t e => Sys2Proof.Machine.execMload t e s
  | .mstatBlock hi n k d => Sys2Proof.Machine.execMstatBlock hi n k d s
  | .mstatTile t d => Sys2Proof.Machine.execMstatTile t d s
  | .msuggest t thr d => Sys2Proof.Machine.execMsuggest t thr d s
  | .mscaleImm t mode off => Sys2Proof.Machine.execMscaleImm t mode off s
  | .mscaleReg t mode e => Sys2Proof.Machine.execMscaleReg t mode e s
  | .qbind q dir k fn => Sys2Proof.Machine.execQbind q dir k fn s
  | .qpush a q => Sys2Proof.Machine.execQpush a q s
  | .qpop d q => Sys2Proof.Machine.execQpop d q s
  | .qtry d q m => Sys2Proof.Machine.execQtry d q m s
  | .qlevel d q => Sys2Proof.Machine.execQlevel d q s
  | .qunbind q => Sys2Proof.Machine.execQunbind q s
  | .barCore n => Sys2Proof.Machine.execBarCore n s
  | .barQuad n => Sys2Proof.Machine.execBarQuad n s
  | .barDie => Sys2Proof.Machine.execBarDie s
  | .barPkg => Sys2Proof.Machine.execBarPkg s
  | .barPod => Sys2Proof.Machine.execBarPod s
  | .bexp n c => Sys2Proof.Machine.execBexp n c s
  | .arrive n d => Sys2Proof.Machine.execArrive n d s
  | .arriveRemote n a => Sys2Proof.Machine.execArriveRemote n a s
  | .bwait n a => Sys2Proof.Machine.execBwait n a s
  | .wait l st c t => Sys2Proof.Machine.execWait l st c t s
  | .watch n a b cmp w64 => Sys2Proof.Machine.execWatch n a b cmp w64 s
  | .cond n kind idx b => Sys2Proof.Machine.execCond n kind idx b s
  | .waitv mask all t => Sys2Proof.Machine.execWaitv mask all t s
  | .waitu n a b cmp w64 => Sys2Proof.Machine.execWaitu n a b cmp w64 s
  | .fence p q scope => Sys2Proof.Machine.execFence p q scope s
  | .commit n => Sys2Proof.Machine.execCommit n s
  | .txBegin => Sys2Proof.Machine.execTxBegin s
  | .txEnd => Sys2Proof.Machine.execTxEnd s
  | .txAbort c => Sys2Proof.Machine.execTxAbort c s
  | .beat => Sys2Proof.Machine.execBeat s
  | .beatReg a => Sys2Proof.Machine.execBeatReg a s
  | .quiescePkg t d => Sys2Proof.Machine.execQuiescePkg t d s
  | .quiescePod t d => Sys2Proof.Machine.execQuiescePod t d s
  | .br off => Sys2Proof.Machine.execBr off s
  | .brz c off => Sys2Proof.Machine.execBrz c off s
  | .brnz c off => Sys2Proof.Machine.execBrnz c off s
  | .bra k off => Sys2Proof.Machine.execBra k off s
  | .brn k off => Sys2Proof.Machine.execBrn k off s
  | .brv k off => Sys2Proof.Machine.execBrv k off s
  | .call l off => Sys2Proof.Machine.execCall l off s
  | .callr l t => Sys2Proof.Machine.execCallr l t s
  | .ret t => Sys2Proof.Machine.execRet t s
  | .join => Sys2Proof.Machine.execJoin s
  | .exit => Sys2Proof.Machine.execExit s
  | .yield => Sys2Proof.Machine.execYield s
  | .collRed d a b => Sys2Proof.Machine.execCollRed d a b s
  | .collBcast d a b => Sys2Proof.Machine.execCollBcast d a b s
  | .putWin d a b => Sys2Proof.Machine.execPutWin d a b s
  | .getWin d a => Sys2Proof.Machine.execGetWin d a s
  | .winAdd a b => Sys2Proof.Machine.execWinAdd a b s
  | .winRead d b => Sys2Proof.Machine.execWinRead d b s
  | .xshf d a b => Sys2Proof.Machine.execXshf d a b s
  | .mordAlloc d a => Sys2Proof.Machine.execMordAlloc d a s
  | .mordSend d a b => Sys2Proof.Machine.execMordSend d a b s
  | .mordStat d => Sys2Proof.Machine.execMordStat d s
  | .mordFree a => Sys2Proof.Machine.execMordFree a s
  | .histRead d b => Sys2Proof.Machine.execHistRead d b s
  | .trap code => Sys2Proof.Machine.execTrap code s
  | .sreg idx r => Sys2Proof.Machine.execSreg idx r s
  | .swreg idx r => Sys2Proof.Machine.execSwreg idx r s
  | .brk code => Sys2Proof.Machine.execBrk code s
  | .halt => Sys2Proof.Machine.execHalt s
  | .eret => Sys2Proof.Machine.execEret s
  | .doorbellKick func page value => Sys2Proof.Machine.execDoorbellKick func page value s
  | .ringLook qid => Sys2Proof.Machine.execRingLook qid s
  | .packetAccept qid => Sys2Proof.Machine.execPacketAccept qid s
  | .nopPacket qid => Sys2Proof.Machine.execNopPacket qid s
  | .launchPacket qid => Sys2Proof.Machine.execLaunchPacket qid s
  | .gangPacket qid => Sys2Proof.Machine.execGangPacket qid s
  | .waitPacket qid => Sys2Proof.Machine.execWaitPacket qid s
  | .signalPacket qid => Sys2Proof.Machine.execSignalPacket qid s
  | .fencePacket qid => Sys2Proof.Machine.execFencePacket qid s
  | .loopSet qid => Sys2Proof.Machine.execLoopSet qid s
  | .windowBind qid => Sys2Proof.Machine.execWindowBind qid s
  | .windowBindApply qid die => Sys2Proof.Machine.execWindowBindApply qid die s
  | .paramBind qid => Sys2Proof.Machine.execParamBind qid s
  | .barrierAnd qid => Sys2Proof.Machine.execBarrierAnd qid s
  | .waitPacketTimeout qid => Sys2Proof.Machine.execWaitPacketTimeout qid s
  | .packetWatchPoll qid => Sys2Proof.Machine.execPacketWatchPoll qid s
  | .slotMappingPass => Sys2Proof.Machine.execSlotMappingPass s
  | .waitPageHoldExpiry qid => Sys2Proof.Machine.execWaitPageHoldExpiry qid s
  | .gangReserve gang member ok => Sys2Proof.Machine.execGangReserve gang member ok s
  | .gangCommit gang => Sys2Proof.Machine.execGangCommit gang s
  | .gangRollback gang => Sys2Proof.Machine.execGangRollback gang s
  | .gangRetry gang => Sys2Proof.Machine.execGangRetry gang s
  | .gangStart gang => Sys2Proof.Machine.execGangStart gang s
  | .mbBootStatus func seq => Sys2Proof.Machine.execMbBootStatus func seq s
  | .mbAttestationReport func seq nonce => Sys2Proof.Machine.execMbAttestationReport func seq nonce s
  | .mbCertificateChain func seq => Sys2Proof.Machine.execMbCertificateChain func seq s
  | .mbUpdateBegin func seq slot => Sys2Proof.Machine.execMbUpdateBegin func seq slot s
  | .mbUpdateData func seq off data => Sys2Proof.Machine.execMbUpdateData func seq off data s
  | .mbUpdateFinish func seq => Sys2Proof.Machine.execMbUpdateFinish func seq s
  | .mbUpdateCommit func seq => Sys2Proof.Machine.execMbUpdateCommit func seq s
  | .mbErrorRingRead func seq => Sys2Proof.Machine.execMbErrorRingRead func seq s
  | .mbLifetimeRead func seq => Sys2Proof.Machine.execMbLifetimeRead func seq s
  | .queueRegister func seq ctx qid qcb => Sys2Proof.Machine.execQueueRegister func seq ctx qid qcb s
  | .queueUnregister func seq qid => Sys2Proof.Machine.execQueueUnregister func seq qid s
  | .queueRestart func seq qid index cancel => Sys2Proof.Machine.execQueueRestart func seq qid index cancel s
  | .journalAcknowledge func seq upTo => Sys2Proof.Machine.execJournalAcknowledge func seq upTo s
  | .ownerRecordWrite func seq owner word => Sys2Proof.Machine.execOwnerRecordWrite func seq owner word s
  | .lendEntryWrite func seq owner word => Sys2Proof.Machine.execLendEntryWrite func seq owner word s
  | .recallRequest func seq owner die quad => Sys2Proof.Machine.execRecallRequest func seq owner die quad s
  | .wayMaskSet func seq die slices code mask => Sys2Proof.Machine.execWayMaskSet func seq die slices code mask s
  | .occupancyRead func seq die slice => Sys2Proof.Machine.execOccupancyRead func seq die slice s
  | .partitionReset func seq part => Sys2Proof.Machine.execPartitionReset func seq part s
  | .usageSnapshot func seq owner nonce => Sys2Proof.Machine.execUsageSnapshot func seq owner nonce s
  | .mmMap r => Sys2Proof.Machine.execMmMap r s
  | .mmUnmap func seq ctx va => Sys2Proof.Machine.execMmUnmap func seq ctx va s
  | .mmProtect func seq ctx va perm => Sys2Proof.Machine.execMmProtect func seq ctx va perm s
  | .mmRunChange func seq ctx va run => Sys2Proof.Machine.execMmRunChange func seq ctx va run s
  | .mmStage2Change func seq ctx gpa entry => Sys2Proof.Machine.execMmStage2Change func seq ctx gpa entry s
  | .segmentCreate func seq base size id => Sys2Proof.Machine.execSegmentCreate func seq base size id s
  | .segmentAttach func seq ctx id => Sys2Proof.Machine.execSegmentAttach func seq ctx id s
  | .faultDeclareUnresolvable ctx va => Sys2Proof.Machine.execFaultDeclareUnresolvable ctx va s
  | .pageResolve r zero => Sys2Proof.Machine.execPageResolve r zero s
  | .poolWordSet ctx die word => Sys2Proof.Machine.execPoolWordSet ctx die word s
  | .wayBudgetSet func seq part n => Sys2Proof.Machine.execWayBudgetSet func seq part n s
  | .channelQuotaSet func seq part n => Sys2Proof.Machine.execChannelQuotaSet func seq part n s
  | .clockCapSet func seq die step => Sys2Proof.Machine.execClockCapSet func seq die step s
  | .loopRecordRead func seq ctx => Sys2Proof.Machine.execLoopRecordRead func seq ctx s
  | .registerWrite fw reg value => Sys2Proof.Machine.execRegisterWrite fw reg value s
  | .hostMemoryWrite func ctx va data => Sys2Proof.Machine.execHostMemoryWrite func ctx va data s
  | .hostMemoryRead func ctx va len => Sys2Proof.Machine.execHostMemoryRead func ctx va len s
  | .spanPlace die => Sys2Proof.Machine.execSpanPlace die s
  | .startGateOpen span => Sys2Proof.Machine.execStartGateOpen span s
  | .issueSetRotate die core ctx => Sys2Proof.Machine.execIssueSetRotate die core ctx s
  | .stealRequest thief asked viaduct => Sys2Proof.Machine.execStealRequest thief asked viaduct s
  | .stealAnswer thief viaduct => Sys2Proof.Machine.execStealAnswer thief viaduct s
  | .groupResourceRelease gid => Sys2Proof.Machine.execGroupResourceRelease gid s
  | .spanRetire span => Sys2Proof.Machine.execSpanRetire span s
  | .ownerAgeing die owner => Sys2Proof.Machine.execOwnerAgeing die owner s
  | .forcedEviction pre => Sys2Proof.Machine.execForcedEviction pre s
  | .spanEvictionSave span => Sys2Proof.Machine.execSpanEvictionSave span s
  | .spanRestore span => Sys2Proof.Machine.execSpanRestore span s
  | .contextSwapOut ctx => Sys2Proof.Machine.execContextSwapOut ctx s
  | .contextDestroy ctx => Sys2Proof.Machine.execContextDestroy ctx s
  | .watchPurge ctx die slice => Sys2Proof.Machine.execWatchPurge ctx die slice s
  | .nocDrain die => Sys2Proof.Machine.execNocDrain die s
  | .wakeMessage ctx => Sys2Proof.Machine.execWakeMessage ctx s
  | .storeClaimAnswer entry => Sys2Proof.Machine.execStoreClaimAnswer entry s
  | .regionAbort gid split => Sys2Proof.Machine.execRegionAbort gid split s
  | .faultQueueReadAdvance ctx n => Sys2Proof.Machine.execFaultQueueReadAdvance ctx n s
  | .splitRestart gid split => Sys2Proof.Machine.execSplitRestart gid split s
  | .entryDrainAck entry => Sys2Proof.Machine.execEntryDrainAck entry s
  | .loadDataReturn load => Sys2Proof.Machine.execLoadDataReturn load s
  | .atomicLanePerform req lane => Sys2Proof.Machine.execAtomicLanePerform req lane s
  | .keystoneRequest die quad => Sys2Proof.Machine.execKeystoneRequest die quad s
  | .homeWriteApply entry => Sys2Proof.Machine.execHomeWriteApply entry s
  | .watchListScanEnd die slice => Sys2Proof.Machine.execWatchListScanEnd die slice s
  | .watchRegistration reg => Sys2Proof.Machine.execWatchRegistration reg s
  | .watchWithdraw gid slot => Sys2Proof.Machine.execWatchWithdraw gid slot s
  | .watchFireDelivery fire => Sys2Proof.Machine.execWatchFireDelivery fire s
  | .waitvDeadline gid split => Sys2Proof.Machine.execWaitvDeadline gid split s
  | .deferredTrapRaise gid => Sys2Proof.Machine.execDeferredTrapRaise gid s
  | .hwBarrierComplete viaduct level die => Sys2Proof.Machine.execHwBarrierComplete viaduct level die s
  | .quiesceIdleComplete gid split => Sys2Proof.Machine.execQuiesceIdleComplete gid split s
  | .quiesceTimeout gid split => Sys2Proof.Machine.execQuiesceTimeout gid split s
  | .gets agent dom line => Sys2Proof.Machine.execGets agent dom line s
  | .getx agent dom line => Sys2Proof.Machine.execGetx agent dom line s
  | .wrh agent dom addr data => Sys2Proof.Machine.execWrh agent dom addr data s
  | .putm agent dom line => Sys2Proof.Machine.execPutm agent dom line s
  | .pute agent dom line => Sys2Proof.Machine.execPute agent dom line s
  | .invalidation inv => Sys2Proof.Machine.execInvalidation inv s
  | .invalidationAck inv => Sys2Proof.Machine.execInvalidationAck inv s
  | .actingHomeForward entry => Sys2Proof.Machine.execActingHomeForward entry s
  | .pageAttributeWalk die core ctx va => Sys2Proof.Machine.execPageAttributeWalk die core ctx va s
  | .homeTranslationWalk ctx va => Sys2Proof.Machine.execHomeTranslationWalk ctx va s
  | .migrationCountClear => Sys2Proof.Machine.execMigrationCountClear s
  | .migration ctx va hpkg frame => Sys2Proof.Machine.execMigration ctx va hpkg frame s
  | .txSliceReceive gid => Sys2Proof.Machine.execTxSliceReceive gid s
  | .txSliceLock gid => Sys2Proof.Machine.execTxSliceLock gid s
  | .txValidationResult gid => Sys2Proof.Machine.execTxValidationResult gid s
  | .serialTokenGrant dom => Sys2Proof.Machine.execSerialTokenGrant dom s
  | .copyTransferWrite copy lane => Sys2Proof.Machine.execCopyTransferWrite copy lane s
  | .tileOpComplete die core => Sys2Proof.Machine.execTileOpComplete die core s
  | .functionResultPlace die quad => Sys2Proof.Machine.execFunctionResultPlace die quad s
  | .selectResultPlace die quad => Sys2Proof.Machine.execSelectResultPlace die quad s
  | .xshfExchange gid => Sys2Proof.Machine.execXshfExchange gid s
  | .xshfTimeout gid => Sys2Proof.Machine.execXshfTimeout gid s
  | .putApply put => Sys2Proof.Machine.execPutApply put s
  | .putAck put => Sys2Proof.Machine.execPutAck put s
  | .collCombine contrib => Sys2Proof.Machine.execCollCombine contrib s
  | .collFlush partial_ => Sys2Proof.Machine.execCollFlush partial_ s
  | .userRoutineLoad slot code => Sys2Proof.Machine.execUserRoutineLoad slot code s
  | .mordantAllocApply req => Sys2Proof.Machine.execMordantAllocApply req s
  | .mordantSendArrival req => Sys2Proof.Machine.execMordantSendArrival req s
  | .mordantFreeArrival req => Sys2Proof.Machine.execMordantFreeArrival req s
  | .mordantDeadline slot => Sys2Proof.Machine.execMordantDeadline slot s
  | .mordantRelease slot => Sys2Proof.Machine.execMordantRelease slot s
  | .sampleLatch => Sys2Proof.Machine.execSampleLatch s
  | .beatGroupMerge bgroup y late => Sys2Proof.Machine.execBeatGroupMerge bgroup y late s
  | .loopUpdate => Sys2Proof.Machine.execLoopUpdate s
  | .grantApply => Sys2Proof.Machine.execGrantApply s
  | .clockStepChange die => Sys2Proof.Machine.execClockStepChange die s
  | .patrolScrub addr symbol result => Sys2Proof.Machine.execPatrolScrub addr symbol result s
  | .sramError site uncorrectable => Sys2Proof.Machine.execSramError site uncorrectable s
  | .frameRetire ctx va frame => Sys2Proof.Machine.execFrameRetire ctx va frame s
  | .flitReceive port seq crcOk => Sys2Proof.Machine.execFlitReceive port seq crcOk s
  | .flitNack port seq => Sys2Proof.Machine.execFlitNack port seq s
  | .linkRetrain port => Sys2Proof.Machine.execLinkRetrain port s
  | .retrainComplete port ok => Sys2Proof.Machine.execRetrainComplete port ok s
  | .watchdogExpiry hart => Sys2Proof.Machine.execWatchdogExpiry hart s
  | .resetRelease => Sys2Proof.Machine.execResetRelease s
  | .hbmTrainingComplete hbmOk linksOk => Sys2Proof.Machine.execHbmTrainingComplete hbmOk linksOk s
  | .fullFunctionStart => Sys2Proof.Machine.execFullFunctionStart s
  | .deviceReset => Sys2Proof.Machine.execDeviceReset s
  | .powerLoss => Sys2Proof.Machine.execPowerLoss s
  | .lifetimeRecord => Sys2Proof.Machine.execLifetimeRecord s
  | .contextCreate c => Sys2Proof.Machine.execContextCreate c s
  | .contextPartMove ctx toPkg => Sys2Proof.Machine.execContextPartMove ctx toPkg s
  | .debuggerResume viaduct => Sys2Proof.Machine.execDebuggerResume viaduct s
  | .mailboxDoorbell die quad => Sys2Proof.Machine.execMailboxDoorbell die quad s
  | .functionLevelReset func => Sys2Proof.Machine.execFunctionLevelReset func s
  | .causewayPortRetry port ok => Sys2Proof.Machine.execCausewayPortRetry port ok s
  | .flitAck port seq => Sys2Proof.Machine.execFlitAck port seq s
  | .getWinRead get => Sys2Proof.Machine.execGetWinRead get s

end Sys2Proof.Machine
end

