-- ==== Sys2Proof/Machine/Step.lean ====
section
/-! DEFINITION. One step of the machine, and the placing of an instruction where the next step fetches it. -/

namespace Sys2Proof.Machine

open Sys2Proof

/-- R265: the word of a split is issued: it is taken up, and its next word executed. -/
noncomputable def issueStep (gid num : Nat) (s : State) : Out :=
  if mayTakeUp s gid num then
    match takeUp gid num s with
    | .other t => .next t
    | .run i t => recordOut gid num t (exec i t)
  else .next s

/-- The schedule of a machine whose agenda is empty (log entry 2): a tick passes; at even ticks an event comes
before an issue, at odd ticks after; where neither can happen, only the tick passes. -/
noncomputable def freeStep (s : State) : Out :=
  let t := passTicks 1 s
  let issue : Option Out := (chosen? t).map (fun p => issueStep p.1 p.2 { t with turn := t.turn + 1 })
  let event : Option Out := (eventNow t).map Host.Outcome.next
  ((if t.tick % 2 = 0 then event.or issue else issue.or event)).getD (.next t)

/-- What the agenda's next entry does; an instruction that has an encoding is executed only by issuing it. -/
noncomputable def stimStep (a : Stim) (s : State) : Out :=
  match a with
  | .op i => if encode i = [] then exec i s else .next s
  | .issue gid split => issueStep gid split s
  | .arrive gid => .next (arriveNow gid s)
  | .part load part => .next (serveLoadPart load part s)
  | .remote r => .next (takeRemote r s)
  | .refuseBind qid index => .next (refuseBinding qid index s)
  | .retry func => .next (mmRetry func s)
  | .elapse n => .next (passTicks n s)

/-- One step: the agenda's next entry, or what the schedule chooses. -/
noncomputable def step (s : State) : Host.Outcome State Fault Refusal :=
  match s.agenda with
  | [] => settleOut s (freeStep s)
  | a :: rest => settleOut s (stimStep a { s with agenda := rest })

/-- The state with an instruction of the opcode table placed as the next that step fetches (log entry 6). -/
def State.withFetchWord (s : State) (nbits w : Nat) : State := placeProgram (tableWords nbits w) s

end Sys2Proof.Machine
end

