-- ==== Sys2Proof/Safety.lean ====
section
/-! DEFINITION. What counts as a safe run, in the terms the statements use: the state between two steps is settled
and its memory has its canonical form, and every step answers a next state. -/

namespace Sys2Proof.Machine

/-- The state between two steps: no word is being executed, and no write is left over from the step before. -/
def State.Settled (s : State) : Prop := s.g = Group.idle ∧ s.sp = Split.idle ∧ s.iss = Issue.idle ∧ s.wq = []

/-- What every step keeps: the canonical form of memory (log entry 1), in a settled state. -/
def State.Inv (s : State) : Prop := Memory.wf s.mem = true ∧ s.Settled

/-- The machine goes on from a state for a number of steps: no fault, no refusal. -/
def State.Runs : Nat → State → Prop
  | 0, _ => True
  | n + 1, s => ∃ t, step s = .next t ∧ t.Runs n

end Sys2Proof.Machine
end

