-- ==== Sys2Proof/Certificates/Slice0/Obligations.lean ====
section
/-! DEFINITION. The statements for the provers, and the words they are written in. A word `exec (c o) s` is stated on
states in which the group and the split of the word are in focus, as `issueStep` leaves them. -/

namespace Sys2Proof.Claims

open Sys2Proof Sys2Proof.Machine

/-! Words that write vector registers (R97 to R102). -/

/-- R11, R21, R73, R477: a word of destination d (n registers) and these vector and scalar sources is executed: its
ranges fit the group's registers, d is no live-in, nothing is on its way to what it names, nothing it reads is marked. -/
def Clear (s : State) (d n : Nat) (srcs : List (Nat × Nat)) (scas : List Nat) : Prop :=
  (∀ p ∈ (d, n) :: srcs, p.1 + p.2 ≤ s.g.nregs) ∧ s.g.live ≤ d ∧
    hazard s (regsOf ((d, n) :: srcs)) scas = false ∧ poisonedLane s (regsOf srcs) = none

/-- R13, R26, R101: t is s after the active lanes have written what f gives to the n registers from d, with their
flags and random states; nothing else has changed. -/
def LaneWrites (s t : State) (d n : Nat) (f : Nat → LaneOut) : Prop :=
  (∀ r l, l < 32 → vGet t r l =
    if inMask s.sp.em l then
      (if r = d then lowWord (f l).val else if n = 2 ∧ r = d + 1 then highWord (f l).val else vGet s r l)
    else vGet s r l) ∧
  t.g.flags = s.g.flags ||| flAll ((lanesOf s.sp.em).map (fun l => (f l).flags)) ∧
  (∀ l, l < 32 → rngGet t l = if inMask s.sp.em l then ((f l).rng).getD (rngGet s l) else rngGet s l) ∧
  (∀ k ∈ t.g.regPoison, k ∈ s.g.regPoison) ∧
  { t with g := { t.g with regs := s.g.regs, regPoison := s.g.regPoison, flags := s.g.flags, rng := s.g.rng } } = s

/-- R101, R26: t is s after mask register k has received the bits that f gives for the active lanes, with their flags. -/
def MaskWrites (s t : State) (k : Nat) (f : Nat → Bool × Flags) : Prop :=
  (∀ l, l < 32 → inMask (kGet t k) l = (inMask s.sp.em l && (f l).1)) ∧
  (∀ j, j ≠ k → kGet t j = kGet s j) ∧
  t.g.flags = s.g.flags ||| flAll ((lanesOf s.sp.em).map (fun l => (f l).2)) ∧
  { t with g := { t.g with kregs := s.g.kregs, flags := s.g.flags } } = s

/-- A lane's result of integer arithmetic: a value and its flags. -/
def plain (p : W × Flags) : LaneOut := ⟨zext64 p.1, p.2, none⟩

/-- R104: an integer brought into a range, with saturate where it was outside. -/
def saturated (lo hi x : Int) : W × Flags := (BitVec.ofInt 32 (max lo (min hi x)), flIf (x < lo || hi < x) flSaturate)

/-- R104 to R109: the 32-bit integer words of two operands, with what a lane receives. -/
def integerRows : List ((V3 → Instr) × (W → W → W × Flags)) :=
  [(.addI32, fun a b => (BitVec.ofInt 32 (a.toInt + b.toInt), 0)),
   (.subI32, fun a b => (BitVec.ofInt 32 (a.toInt - b.toInt), 0)),
   (.addSatI32, fun a b => saturated (-2 ^ 31) (2 ^ 31 - 1) (a.toInt + b.toInt)),
   (.subSatI32, fun a b => saturated (-2 ^ 31) (2 ^ 31 - 1) (a.toInt - b.toInt)),
   (.addSatN32, fun a b => saturated 0 (2 ^ 32 - 1) (a.toNat + b.toNat)),
   (.subSatN32, fun a b => saturated 0 (2 ^ 32 - 1) (a.toNat - b.toNat)),
   (.mulLoI32, fun a b => (BitVec.ofInt 32 (a.toInt * b.toInt), 0)),
   (.mulHiI32, fun a b => (BitVec.ofInt 32 (a.toInt * b.toInt / 2 ^ 32), 0)),
   (.mulHiN32, fun a b => (BitVec.ofNat 32 (a.toNat * b.toNat / 2 ^ 32), 0)),
   (.minI32, fun a b => (BitVec.ofInt 32 (min a.toInt b.toInt), 0)),
   (.maxI32, fun a b => (BitVec.ofInt 32 (max a.toInt b.toInt), 0)),
   (.minN32, fun a b => (BitVec.ofNat 32 (min a.toNat b.toNat), 0)),
   (.maxN32, fun a b => (BitVec.ofNat 32 (max a.toNat b.toNat), 0)),
   (.absdiffN32, fun a b => (BitVec.ofNat 32 (max a.toNat b.toNat - min a.toNat b.toNat), 0)),
   (.avgN32, fun a b => (BitVec.ofNat 32 ((a.toNat + b.toNat + 1) / 2), 0)),
   (.andB32, fun a b => (a &&& b, 0)), (.orB32, fun a b => (a ||| b, 0)),
   (.xorB32, fun a b => (a ^^^ b, 0)), (.andnB32, fun a b => (a &&& ~~~ b, 0)),
   (.shlB32, fun a b => (BitVec.ofNat 32 (a.toNat * 2 ^ min b.toNat 32), 0)),
   (.shrB32, fun a b => (BitVec.ofNat 32 (a.toNat / 2 ^ min b.toNat 32), 0)),
   (.sraI32, fun a b => (BitVec.ofInt 32 (a.toInt / 2 ^ min b.toNat 32), 0)),
   (.rotlB32, fun a b => (BitVec.ofNat 32 (a.toNat * 2 ^ (b.toNat % 32) + a.toNat / 2 ^ (32 - b.toNat % 32)), 0)),
   (.bfeN32, fun a b =>
     (BitVec.ofNat 32 (a.toNat / 2 ^ bitsOf b.toNat 7 0 % 2 ^ min (bitsOf b.toNat 15 8) 32), 0)),
   (.bfeI32, fun a b =>
     let w := min (bitsOf b.toNat 15 8) 32
     (BitVec.ofInt 32 (if w = 0 then 0 else Int.bmod (a.toInt / 2 ^ bitsOf b.toNat 7 0) (2 ^ w)), 0))]

/-- R108, R124: the integer words of one operand, with what a lane receives. -/
def countRows : List ((V2 → Instr) × (W → W)) :=
  [(.popcB32, fun a => BitVec.ofNat 32 ((List.range 32).countP (fun i => a.getLsbD i))),
   (.clzB32, fun a => BitVec.ofNat 32 (((List.range 32).find? (fun i => a.getLsbD (31 - i))).getD 32)),
   (.ctzB32, fun a => BitVec.ofNat 32 (((List.range 32).find? (fun i => a.getLsbD i)).getD 32)),
   (.brevB32, fun a => a.reverse), (.movB32, fun a => a)]

/-- R104: the 64-bit integer words of two 64-bit operands. -/
def integer64Rows : List ((V3 → Instr) × (W64 → W64 → W64)) :=
  [(.addI64, fun a b => BitVec.ofInt 64 (a.toInt + b.toInt)), (.subI64, fun a b => BitVec.ofInt 64 (a.toInt - b.toInt))]

/-- R105: the words with a 64-bit product of 32-bit operands. -/
def wideRows : List ((V3 → Instr) × (W → W → W64)) :=
  [(.mulWideI32, fun a b => BitVec.ofInt 64 (a.toInt * b.toInt)), (.mulWideN32, fun a b => BitVec.ofNat 64 (a.toNat * b.toNat))]

/-- R107: the shifts of a 64-bit operand by a 32-bit count. -/
def shift64Rows : List ((V3 → Instr) × (W64 → W → W64)) :=
  [(.shlB64, fun a b => BitVec.ofNat 64 (a.toNat * 2 ^ min b.toNat 64)),
   (.shrB64, fun a b => BitVec.ofNat 64 (a.toNat / 2 ^ min b.toNat 64))]

/-- R110: the compares of 32-bit integers. -/
def compareRows : List ((K3 → Instr) × (W → W → Bool)) :=
  [(.cmpEqI32, fun a b => a == b), (.cmpNeI32, fun a b => a != b), (.cmpLtI32, fun a b => a.toInt < b.toInt),
   (.cmpLeI32, fun a b => a.toInt ≤ b.toInt), (.cmpLtN32, fun a b => a.toNat < b.toNat),
   (.cmpLeN32, fun a b => a.toNat ≤ b.toNat)]

/-- R110, R87: the compares of 64-bit integers, with how a literal operand is widened. -/
def compare64Rows : List ((K3 → Instr) × Ext × (W64 → W64 → Bool)) :=
  [(.cmpEqI64, .signed, fun a b => a == b), (.cmpLtI64, .signed, fun a b => a.toInt < b.toInt),
   (.cmpLtN64, .zero, fun a b => a.toNat < b.toNat)]

/-- R111 to R117: the floating-point words of 32-bit shapes, with what a lane receives from %fmode, its random state, A
and B. -/
def floatRows : List ((V3 → Instr) × (W → W → W → W → LaneOut)) :=
  let f32 (op : RMode → FVal → FVal → FVal × Flags) (fm rng a b : W) : LaneOut :=
    let r := elem2 fmtF32 op fm a.toNat b.toNat rng
    outRng r.1 r.2.1 rng r.2.2
  let x2 (f : Fmt) (op : RMode → FVal → FVal → FVal × Flags) (fm rng a b : W) : LaneOut :=
    packed2 (fun i r => elem2 f op fm (elemAt 16 i a) (elemAt 16 i b) r) rng
  let mm (f : Fmt) (isMax number : Bool) (fm _rng a b : W) : LaneOut :=
    let r := minMaxElem f isMax number fm a.toNat b.toNat
    ⟨BitVec.ofNat 64 r.1, r.2, none⟩
  let mm2 (isMax : Bool) (fm _rng a b : W) : LaneOut :=
    let e (i : Nat) := minMaxElem fmtBf16 isMax false fm (elemAt 16 i a) (elemAt 16 i b)
    ⟨BitVec.ofNat 64 ((e 0).1 + (e 1).1 * 2 ^ 16), (e 0).2 ||| (e 1).2, none⟩
  [(.faddF32, f32 addExact), (.fsubF32, f32 subExact), (.fmulF32, f32 (fun _ => mulExact)),
   (.fminF32, mm fmtF32 false false), (.fmaxF32, mm fmtF32 true false),
   (.fminnF32, mm fmtF32 false true), (.fmaxnF32, mm fmtF32 true true),
   (.faddF16x2, x2 fmtF16 addExact), (.fsubF16x2, x2 fmtF16 subExact), (.fmulF16x2, x2 fmtF16 (fun _ => mulExact)),
   (.faddBf16x2, x2 fmtBf16 addExact), (.fsubBf16x2, x2 fmtBf16 subExact), (.fmulBf16x2, x2 fmtBf16 (fun _ => mulExact)),
   (.fmaxBf16x2, mm2 true), (.fminBf16x2, mm2 false)]

/-- R119: the fused words of 32-bit shapes, with what a lane receives from %fmode, its random state, A, B and the old D. -/
def fusedRows : List ((V3 → Instr) × (W → W → W → W → W → LaneOut)) :=
  let fu (op : RMode → FVal → FVal → FVal → FVal × Flags) (fm rng a b d : W) : LaneOut :=
    let r := elem3 fmtF32 op fm a.toNat b.toNat d.toNat rng
    outRng r.1 r.2.1 rng r.2.2
  let fu2 (f : Fmt) (fm rng a b d : W) : LaneOut :=
    packed2 (fun i r => elem3 f fmaExact fm (elemAt 16 i a) (elemAt 16 i b) (elemAt 16 i d) r) rng
  [(.fmaF32, fu fmaExact), (.fnmaF32, fu fnmaExact), (.fmaF16x2, fu2 fmtF16), (.fmaBf16x2, fu2 fmtBf16)]

/-- A word of three operands of these shapes, with what a lane receives; an accumulating word reads its old destination
as well. -/
structure Row3 where
  op : V3 → Instr
  acc : Bool
  sd : Nat
  sa : Nat
  sb : Nat
  out : V3 → State → Nat → LaneOut

/-- R115, R118 to R123, R136: the other words of three vector operands: scaling, f64, dot products, multiply-add, field
insertion, and the lane pick. -/
def mixedRows : List Row3 :=
  let f64 (op : RMode → FVal → FVal → FVal × Flags) (o : V3) (s : State) (l : Nat) : LaneOut :=
    let r := elem2 fmtF64 op s.g.fmode (o.a.val64 .float s l).toNat (o.b.val64 .float s l).toNat (rngGet s l)
    outRng r.1 r.2.1 (rngGet s l) r.2.2
  let mm64 (isMax : Bool) (o : V3) (s : State) (l : Nat) : LaneOut :=
    let r := minMaxElem fmtF64 isMax false s.g.fmode (o.a.val64 .float s l).toNat (o.b.val64 .float s l).toNat
    ⟨BitVec.ofNat 64 r.1, r.2, none⟩
  let dot (f : Fmt) (o : V3) (s : State) (l : Nat) : LaneOut :=
    let rd (x : W) (i : Nat) := readFloat f (ftzOf s.g.fmode) (elemAt 16 i x)
    let m := roundMode 6 s.g.fmode (rngGet s l)
    let d := readFloat fmtF32 (ftzOf s.g.fmode) (vGet s o.d l).toNat
    let p0 := mulExact (rd (o.a.val s l) 0).1 (rd (o.b.val s l) 0).1
    let p1 := mulExact (rd (o.a.val s l) 1).1 (rd (o.b.val s l) 1).1
    let q := addExact m p0.1 p1.1
    let x := addExact m q.1 d.1
    let r := rndTo fmtF32 6 false s.g.fmode (x.1, p0.2 ||| p1.2 ||| q.2 ||| x.2) (rngGet s l)
    outRng r.1 ((rd (o.a.val s l) 0).2 ||| (rd (o.a.val s l) 1).2 ||| (rd (o.b.val s l) 0).2 |||
      (rd (o.b.val s l) 1).2 ||| d.2 ||| r.2.1) (rngGet s l) r.2.2
  let word (w : W) : LaneOut := plain (w, 0)
  let pair (w : W64) : LaneOut := ⟨w, 0, none⟩
  let bytes (ext : W → Nat → Int) (o : V3) (s : State) (l : Nat) : LaneOut :=
    let a := o.a.val s l
    let b := o.b.val s l
    word (BitVec.ofInt 32 ((vGet s o.d l).toInt + (ext a 0 * ext b 0 + ext a 1 * ext b 1 + ext a 2 * ext b 2 + ext a 3 * ext b 3)))
  [⟨.fscaleF32, false, 1, 1, 1, fun o s l =>
     let x := readFloat fmtF32 (ftzOf s.g.fmode) (o.a.val s l).toNat
     let r := rndTo fmtF32 6 false s.g.fmode (scaleExact (o.b.val s l).toInt x.1, 0) (rngGet s l)
     outRng r.1 (x.2 ||| r.2.1) (rngGet s l) r.2.2⟩,
   ⟨.faddF64, false, 2, 2, 2, f64 addExact⟩, ⟨.fsubF64, false, 2, 2, 2, f64 subExact⟩, ⟨.fmulF64, false, 2, 2, 2, f64 (fun _ => mulExact)⟩,
   ⟨.fminF64, false, 2, 2, 2, mm64 false⟩, ⟨.fmaxF64, false, 2, 2, 2, mm64 true⟩,
   ⟨.fmaF64, true, 2, 2, 2, fun o s l =>
     let r := elem3 fmtF64 fmaExact s.g.fmode (o.a.val64 .float s l).toNat (o.b.val64 .float s l).toNat
       (vGet64 s o.d l).toNat (rngGet s l)
     outRng r.1 r.2.1 (rngGet s l) r.2.2⟩,
   ⟨.fdot2F32Bf16, true, 1, 1, 1, dot fmtBf16⟩, ⟨.fdot2F32F16, true, 1, 1, 1, dot fmtF16⟩,
   ⟨.madLoI32, true, 1, 1, 1, fun o s l => word (o.a.val s l * o.b.val s l + vGet s o.d l)⟩,
   ⟨.madHiN32, true, 1, 1, 1, fun o s l =>
     word (BitVec.ofNat 32 ((o.a.val s l).toNat * (o.b.val s l).toNat / 2 ^ 32 + (vGet s o.d l).toNat))⟩,
   ⟨.madWideN32, true, 2, 1, 1, fun o s l =>
     pair (BitVec.ofNat 64 ((o.a.val s l).toNat * (o.b.val s l).toNat + (vGet64 s o.d l).toNat))⟩,
   ⟨.bfiB32, true, 1, 1, 1, fun o s l =>
     let w := min (bitsOf (o.b.val s l).toNat 15 8) 32
     let p := bitsOf (o.b.val s l).toNat 7 0
     word (BitVec.ofFnLE (n := 32) (fun i =>
       if p ≤ i.val ∧ i.val < p + w then (o.a.val s l).getLsbD (i.val - p) else (vGet s o.d l).getLsbD i.val))⟩,
   ⟨.bdot4I32I8, true, 1, 1, 1, bytes (fun a i => (a.extractLsb' (8 * i) 8).toInt)⟩,
   ⟨.bdot4I32N8, true, 1, 1, 1, bytes (fun a i => ((a.extractLsb' (8 * i) 8).toNat : Int))⟩,
   ⟨.lpick, false, 1, 1, 1, fun o s l => word (o.a.val s ((o.b.val s l).toNat % 32))⟩]

/-- R113, R114, R124, R129: the words of one operand that are no counts, with their shapes and what a lane receives. -/
def unaryRows : List ((V2 → Instr) × Nat × Nat × (V2 → State → Nat → LaneOut)) :=
  let sign (f : Bool → Bool) (o : V2) (s : State) (l : Nat) : LaneOut :=
    let x := readFloat fmtF32 (ftzOf s.g.fmode) (o.a.val s l).toNat
    match x.1 with
    | .nan sig => ⟨BitVec.ofNat 64 fmtF32.canonNan, x.2 ||| flIf sig flInvalid, none⟩
    | .inf neg => ⟨BitVec.ofNat 64 (exactBits fmtF32 (.inf (f neg))), x.2, none⟩
    | .fin neg m e => ⟨BitVec.ofNat 64 (exactBits fmtF32 (.fin (f neg) m e)), x.2, none⟩
  [(.fabsF32, 1, 1, sign (fun _ => false)), (.fnegF32, 1, 1, sign (fun n => !n)),
   (.fclassF32, 1, 1, fun o s l => plain (BitVec.ofNat 32 (2 ^ classBit (o.a.val s l)), 0)),
   (.movB64, 2, 2, fun o s l => ⟨o.a.val64 .zero s l, 0, none⟩),
   (.cvtF64F32, 2, 1, fun o s l =>
     let x := readFloat fmtF32 (ftzOf s.g.fmode) (o.a.val s l).toNat
     ⟨BitVec.ofNat 64 (exactBits fmtF64 x.1), x.2 ||| flIf x.1.isSig flInvalid, none⟩)]

/-- R116: the floating-point compares: the size of their operands, and what a lane's bit is. -/
def floatCompareRows : List ((K3 → Instr) × Nat × (W → W64 → W64 → Bool × Flags)) :=
  let c32 (ordered : Bool) (rel : Option Ordering → Bool) (fm : W) (a b : W64) : Bool × Flags :=
    compareElem fmtF32 ordered rel fm (lowWord a).toNat (lowWord b).toNat
  let c64 (ordered : Bool) (rel : Option Ordering → Bool) (fm : W) (a b : W64) : Bool × Flags :=
    compareElem fmtF64 ordered rel fm a.toNat b.toNat
  [(.fcmpEqF32, 1, c32 false (fun r => r == some .eq)), (.fcmpLtF32, 1, c32 true (fun r => r == some .lt)),
   (.fcmpLeF32, 1, c32 true (fun r => r == some .lt || r == some .eq)), (.fcmpUnF32, 1, c32 false (fun r => r == none)),
   (.fcmpLtF64, 2, c64 true (fun r => r == some .lt)), (.fcmpEqF64, 2, c64 false (fun r => r == some .eq))]

/-- R125, R126, R129: the conversions with a rounding code: the registers of A, and what a lane receives. -/
def convertRows : List ((C2 → Instr) × Nat × (C2 → W → W → W64 → LaneOut)) :=
  [(.cvtF32I32, 1, fun o fm rng a => intToF32 o.rnd o.sat fm rng (lowWord a).toInt),
   (.cvtF32N32, 1, fun o fm rng a => intToF32 o.rnd o.sat fm rng (lowWord a).toNat),
   (.cvtI32F32, 1, fun o fm rng a => f32ToInt true o.rnd o.sat fm rng (lowWord a)),
   (.cvtN32F32, 1, fun o fm rng a => f32ToInt false o.rnd o.sat fm rng (lowWord a)),
   (.froundF32, 1, fun o fm rng a => roundF32 o.rnd fm rng (lowWord a)),
   (.cvtF32F64, 2, fun o fm rng a =>
     let x := readFloat fmtF64 (ftzOf fm) a.toNat
     let r := rndTo fmtF32 o.rnd o.sat fm (x.1, 0) rng
     outRng r.1 (x.2 ||| r.2.1) rng r.2.2)]

/-- R127: the packing conversions: the bits of an element, how many there are, and one element's conversion. -/
def packRows : List ((P2 → Instr) × Nat × Nat × (P2 → W → W → W → Nat × Flags × W)) :=
  [(.cvtF16x2F32, 16, 2, fun o => narrowElem fmtF16 o.rnd o.sat), (.cvtBf16x2F32, 16, 2, fun o => narrowElem fmtBf16 o.rnd o.sat),
   (.cvtE4m3x4F32, 8, 4, fun o => narrowElem fmtE4M3 o.rnd o.sat), (.cvtE5m2x4F32, 8, 4, fun o => narrowElem fmtE5M2 o.rnd o.sat),
   (.cvtI8x4I32, 8, 4, fun o _ => clampByte o.sat)]

/-- R128: the unpacking conversions, with what a lane receives of %fmode and the element's bits. -/
def unpackRows : List ((U2 → Instr) × Nat × (W → Nat → LaneOut)) :=
  [(.cvtF32F16, 16, widenElem fmtF16), (.cvtF32Bf16, 16, widenElem fmtBf16), (.cvtF32E4m3, 8, widenElem fmtE4M3),
   (.cvtF32E5m2, 8, widenElem fmtE5M2), (.cvtI32I8, 8, fun _ x => plain (BitVec.ofInt 32 (BitVec.ofNat 8 x).toInt, 0))]

/-- R136: the exchanges of 32 bits, with the lane that a lane reads. -/
def exchangeRows : List ((X3 → Instr) × (Nat → Nat → Nat)) :=
  [(.bflyB32, fun b l => l ^^^ (b % 32)), (.rotLane, fun b l => (l + 32 - b % 32) % 32), (.bcast, fun b _ => b % 32)]

/-- R137, R139: the integer reductions and the prefix sum, as what lane l receives of the active lanes' values in order;
a reduction does not depend on the lane. -/
def gatherRows : List ((V2 → Instr) × (Nat → List (Nat × W) → W)) :=
  let red (op : Int → Int → Int) (xs : List (Nat × W)) : W :=
    match xs.map (fun x => x.2.toInt) with
    | [] => 0
    | y :: ys => BitVec.ofInt 32 (ys.foldl op y)
  [(.redAddI32, fun _ => red (fun x y => x + y)), (.redMinI32, fun _ => red min), (.redMaxI32, fun _ => red max),
   (.scanAddI32, fun l xs => red (fun x y => x + y) (xs.filter (fun x => x.1 ≤ l)))]

/-- The values that the active lanes hold of a source, with their lanes, in ascending order. -/
def activeValues (s : State) (a : VSrc) : List (Nat × W) := (lanesOf s.sp.em).map (fun l => (l, a.val s l))

/-- R137 to R139: the floating-point reductions and the prefix sum: the registers written, and for each of them what a lane
receives, with the flags. -/
def treeRows : List ((V2 → Instr) × Nat × (W → W → (Nat → W) → (Nat → Nat → W) × Flags)) :=
  let leaves (fm em : W) (x : Nat → W) : Flags := flAll ((lanesOf em).map (fun l => (floatLeaf fm (x l)).2))
  let red (comb : W → W → W → W × Flags) (fm em : W) (x : Nat → W) : (Nat → Nat → W) × Flags :=
    let r := reduceLanes (comb fm) em (fun l => (floatLeaf fm (x l)).1)
    (fun _ _ => canonF32 (r.1.getD 0), r.2 ||| leaves fm em x)
  let idx (isMax : Bool) (fm em : W) (x : Nat → W) : (Nat → Nat → W) × Flags :=
    let r := (reduceLanes (indexStep isMax) em (fun l => ((floatLeaf fm (x l)).1, l))).1.getD (0, 0)
    (fun j _ => if j = 0 then canonF32 r.1 else BitVec.ofNat 32 r.2,
      flAll ((lanesOf em).map (fun l => (floatLeaf fm (x l)).2 |||
        flIf (decodeFloat fmtF32 (floatLeaf fm (x l)).1.toNat).isSig flInvalid)))
  let scan (comb : W → W → W → W × Flags) (fm em : W) (x : Nat → W) : (Nat → Nat → W) × Flags :=
    let r := scanLanes (comb fm) em (fun l => (floatLeaf fm (x l)).1)
    (fun _ l => canonF32 ((nthD none r.1 l).getD 0), r.2 ||| leaves fm em x)
  [(.redAddF32, 1, red sumStep), (.redMinF32, 1, red (fun _ => minMaxStep false)), (.redMaxF32, 1, red (fun _ => minMaxStep true)),
   (.redxMaxF32, 2, idx true), (.redxMinF32, 2, idx false), (.scanAddF32, 1, scan sumStep)]

/-! Words on masks and scalars (R130 to R132, R140, R141). -/

/-- R15, R226: t is s after a mask operand has received x: k0 to k7 as it is, em only in the group's existing strands, the
split's membership and the tx mask. -/
def MaskOperandWrites (s t : State) (k : Nat) (x : W) : Prop :=
  (k < 8 → kGet t k = x ∧ (∀ j, j ≠ k → kGet t j = kGet s j) ∧ { t with g := { t.g with kregs := s.g.kregs } } = s) ∧
  (k = 8 → t.sp.em = x &&& s.g.exist &&& s.sp.member &&& txLimit s ∧ { t with sp := { t.sp with em := s.sp.em } } = s)

/-- R140: the mask words of two sources. -/
def mask2Rows : List ((M3 → Instr) × (Bool → Bool → Bool)) :=
  [(.mand, fun a b => a && b), (.mor, fun a b => a || b), (.mxor, fun a b => a != b), (.mandn, fun a b => a && !b)]

/-- R14: t is s after scalar register d has received x. -/
def ScalarWrites (s t : State) (d : Nat) (x : W64) : Prop :=
  sGet t d = x ∧ (∀ r, r ≠ d → sGet t r = sGet s r) ∧ { t with g := { t.g with sregs := s.g.sregs } } = s

/-- R131: the scalar words of two operands. -/
def scalarRows : List ((S3 → Instr) × (W64 → W64 → W64)) :=
  let set (b : Bool) : W64 := BitVec.ofNat 64 b.toNat
  [(.sadd, fun a b => BitVec.ofInt 64 (a.toInt + b.toInt)), (.ssub, fun a b => BitVec.ofInt 64 (a.toInt - b.toInt)),
   (.smul, fun a b => BitVec.ofInt 64 (a.toInt * b.toInt)), (.smulhiN64, fun a b => BitVec.ofNat 64 (a.toNat * b.toNat / 2 ^ 64)),
   (.sand, fun a b => a &&& b), (.sor, fun a b => a ||| b), (.sxor, fun a b => a ^^^ b),
   (.sshl, fun a b => BitVec.ofNat 64 (a.toNat * 2 ^ min b.toNat 64)), (.sshr, fun a b => BitVec.ofNat 64 (a.toNat / 2 ^ min b.toNat 64)),
   (.ssra, fun a b => BitVec.ofInt 64 (a.toInt / 2 ^ min b.toNat 64)),
   (.sminI64, fun a b => BitVec.ofInt 64 (min a.toInt b.toInt)), (.smaxI64, fun a b => BitVec.ofInt 64 (max a.toInt b.toInt)),
   (.sminN64, fun a b => BitVec.ofNat 64 (min a.toNat b.toNat)), (.smaxN64, fun a b => BitVec.ofNat 64 (max a.toNat b.toNat)),
   (.ssetEq, fun a b => set (a == b)), (.ssetLtI64, fun a b => set (a.toInt < b.toInt)), (.ssetLtN64, fun a b => set (a.toNat < b.toNat)),
   (.shi, fun a b => BitVec.ofNat 64 (b.toNat % 2 ^ 32 * 2 ^ 32 + a.toNat % 2 ^ 32))]

end Sys2Proof.Claims

open Sys2Proof Sys2Proof.Machine Sys2Proof.Claims

/-- R104 to R107, R109: the 32-bit integer words of two operands complete in every state that lets them issue: every active
lane receives the result, saturate is raised where a value was clamped, and nothing else changes. -/
def Obligations.IntegerResults : Prop :=
  ∀ row ∈ integerRows, ∀ (o : V3) (s : State), Clear s o.d 1 (o.a.range 1 ++ o.b.range 1) o.b.scalars →
    ∃ t, exec (row.1 o) s = .next t ∧ LaneWrites s t o.d 1 (fun l => plain (row.2 (o.a.val s l) (o.b.val s l)))

/-- R104, R105, R107, R108, R124: the counts, the bit reversal and the 32-bit move, and the 64-bit words: sums, full products and shifts of
pairs, likewise. -/
def Obligations.CountAndPairResults : Prop :=
  (∀ row ∈ countRows, ∀ (o : V2) (s : State), Clear s o.d 1 (o.a.range 1) [] →
    ∃ t, exec (row.1 o) s = .next t ∧ LaneWrites s t o.d 1 (fun l => plain (row.2 (o.a.val s l), 0))) ∧
  (∀ row ∈ integer64Rows, ∀ (o : V3) (s : State), Clear s o.d 2 (o.a.range 2 ++ o.b.range 2) o.b.scalars →
    ∃ t, exec (row.1 o) s = .next t ∧
      LaneWrites s t o.d 2 (fun l => ⟨row.2 (o.a.val64 .signed s l) (o.b.val64 .signed s l), 0, none⟩)) ∧
  (∀ row ∈ wideRows, ∀ (o : V3) (s : State), Clear s o.d 2 (o.a.range 1 ++ o.b.range 1) o.b.scalars →
    ∃ t, exec (row.1 o) s = .next t ∧ LaneWrites s t o.d 2 (fun l => ⟨row.2 (o.a.val s l) (o.b.val s l), 0, none⟩)) ∧
  (∀ row ∈ shift64Rows, ∀ (o : V3) (s : State), Clear s o.d 2 (o.a.range 2 ++ o.b.range 1) o.b.scalars →
    ∃ t, exec (row.1 o) s = .next t ∧
      LaneWrites s t o.d 2 (fun l => ⟨row.2 (o.a.val64 .zero s l) (o.b.val s l), 0, none⟩))

/-- R101, R110, R116: a compare writes, for each active lane, whether the relation holds, and 0 for the others. -/
def Obligations.CompareResults : Prop :=
  let reads (s : State) (o : K3) (n : Nat) : Prop :=
    (∀ p ∈ o.a.range n ++ o.b.range n, p.1 + p.2 ≤ s.g.nregs) ∧
      hazard s (regsOf (o.a.range n ++ o.b.range n)) o.b.scalars = false ∧
      poisonedLane s (regsOf (o.a.range n ++ o.b.range n)) = none
  (∀ row ∈ compareRows, ∀ (o : K3) (s : State), reads s o 1 →
    ∃ t, exec (row.1 o) s = .next t ∧ MaskWrites s t o.k (fun l => (row.2 (o.a.val s l) (o.b.val s l), 0))) ∧
  (∀ row ∈ compare64Rows, ∀ (o : K3) (s : State), reads s o 2 →
    ∃ t, exec (row.1 o) s = .next t ∧
      MaskWrites s t o.k (fun l => (row.2.2 (o.a.val64 row.2.1 s l) (o.b.val64 row.2.1 s l), 0))) ∧
  (∀ row ∈ floatCompareRows, ∀ (o : K3) (s : State), reads s o row.2.1 →
    ∃ t, exec (row.1 o) s = .next t ∧ MaskWrites s t o.k (fun l =>
      if row.2.1 = 1 then row.2.2 s.g.fmode (zext64 (o.a.val s l)) (zext64 (o.b.val s l))
      else row.2.2 s.g.fmode (o.a.val64 .float s l) (o.b.val64 .float s l)))

/-- R111 to R113, R117, R119: the floating-point and fused words of 32-bit shapes: every active lane receives the exact result
rounded once, with its flags. -/
def Obligations.FloatResults : Prop :=
  (∀ row ∈ floatRows, ∀ (o : V3) (s : State), Clear s o.d 1 (o.a.range 1 ++ o.b.range 1) o.b.scalars →
    ∃ t, exec (row.1 o) s = .next t ∧
      LaneWrites s t o.d 1 (fun l => row.2 s.g.fmode (rngGet s l) (o.a.val s l) (o.b.val s l))) ∧
  (∀ row ∈ fusedRows, ∀ (o : V3) (s : State), Clear s o.d 1 ((o.d, 1) :: (o.a.range 1 ++ o.b.range 1)) o.b.scalars →
    ∃ t, exec (row.1 o) s = .next t ∧
      LaneWrites s t o.d 1 (fun l => row.2 s.g.fmode (rngGet s l) (o.a.val s l) (o.b.val s l) (vGet s o.d l)))

/-- R115, R118 to R123, R136: scaling, f64, dot products, multiply-add, field insertion and the lane pick. -/
def Obligations.MixedShapeResults : Prop :=
  ∀ row ∈ mixedRows, ∀ (o : V3) (s : State),
    Clear s o.d row.sd ((if row.acc then [(o.d, row.sd)] else []) ++ o.a.range row.sa ++ o.b.range row.sb) o.b.scalars →
    ∃ t, exec (row.op o) s = .next t ∧ LaneWrites s t o.d row.sd (row.out o s)

/-- R113, R114, R124 to R129: signs, class, moves of pairs and conversions. -/
def Obligations.ConversionResults : Prop :=
  (∀ row ∈ unaryRows, ∀ (o : V2) (s : State), Clear s o.d row.2.1 (o.a.range row.2.2.1) [] →
    ∃ t, exec (row.1 o) s = .next t ∧ LaneWrites s t o.d row.2.1 (row.2.2.2 o s)) ∧
  (∀ row ∈ convertRows, ∀ (o : C2) (s : State), Clear s o.d 1 (o.a.range row.2.1) [] →
    ∃ t, exec (row.1 o) s = .next t ∧ LaneWrites s t o.d 1 (fun l => row.2.2 o s.g.fmode (rngGet s l)
      (if row.2.1 = 1 then zext64 (o.a.val s l) else o.a.val64 .float s l))) ∧
  (∀ row ∈ packRows, ∀ (o : P2) (s : State), Clear s o.d 1 [(o.a, row.2.2.1)] [] →
    ∃ t, exec (row.1 o) s = .next t ∧ LaneWrites s t o.d 1 (fun l =>
      let r := packElems row.2.1 (fun e rng => row.2.2.2 o s.g.fmode (vGet s (o.a + e) l) rng) row.2.2.1 (rngGet s l)
      outRng r.1 r.2.1 (rngGet s l) r.2.2)) ∧
  (∀ row ∈ unpackRows, ∀ (o : U2) (s : State), Clear s o.d 1 (o.a.range 1) [] →
    ∃ t, exec (row.1 o) s = .next t ∧
      LaneWrites s t o.d 1 (fun l => row.2.2 s.g.fmode (elemAt row.2.1 o.elem (o.a.val s l))))

/-- R48 to R51, R136 to R139: an exchange reads every lane before any lane is written; an integer reduction gives every active lane the
combination of all active lanes, the prefix sum that of the active lanes up to it; the floating-point reductions, indexed extremes and
prefix sum run over their fixed trees. -/
def Obligations.LaneExchangeResults : Prop :=
  (∀ row ∈ exchangeRows, ∀ (o : X3) (s : State), Clear s o.d 1 (o.a.range 1) o.b.scalars →
    ∃ t, exec (row.1 o) s = .next t ∧
      LaneWrites s t o.d 1 (fun l => plain (o.a.val s (row.2 (o.b.val s).toNat l), 0))) ∧
  (∀ (o : X3) (s : State), Clear s o.d 2 (o.a.range 2) o.b.scalars →
    ∃ t, exec (.bflyB64 o) s = .next t ∧
      LaneWrites s t o.d 2 (fun l => ⟨o.a.val64 .zero s (l ^^^ ((o.b.val s).toNat % 32)), 0, none⟩)) ∧
  (∀ row ∈ gatherRows, ∀ (o : V2) (s : State), Clear s o.d 1 (o.a.range 1) [] →
    ∃ t, exec (row.1 o) s = .next t ∧ LaneWrites s t o.d 1 (fun l => plain (row.2 l (activeValues s o.a), 0))) ∧
  (∀ row ∈ treeRows, ∀ (o : V2) (s : State), Clear s o.d row.2.1 (o.a.range 1) [] →
    ∃ t, exec (row.1 o) s = .next t ∧
      let r := row.2.2 s.g.fmode s.sp.em (fun l => o.a.val s l)
      (∀ q l, l < 32 → vGet t q l =
        if inMask s.sp.em l ∧ o.d ≤ q ∧ q < o.d + row.2.1 then r.1 (q - o.d) l else vGet s q l) ∧
      t.g.flags = s.g.flags ||| r.2 ∧ (∀ k ∈ t.g.regPoison, k ∈ s.g.regPoison) ∧
      { t with g := { t.g with regs := s.g.regs, regPoison := s.g.regPoison, flags := s.g.flags } } = s)

/-- R15, R130 to R132, R140, R141: the mask words and the scalar words. -/
def Obligations.MaskAndScalarResults : Prop :=
  (∀ row ∈ mask2Rows, ∀ (o : M3) (s : State), ∃ t, exec (row.1 o) s = .next t ∧ ∃ x : W,
    (∀ l, l < 32 → inMask x l = row.2 (inMask (maskGet s o.a) l) (inMask (maskGet s o.b) l)) ∧ MaskOperandWrites s t o.k x) ∧
  (∀ (o : M2) (s : State), ∃ t, exec (.mnot o) s = .next t ∧ MaskOperandWrites s t o.k (~~~ maskGet s o.a)) ∧
  (∀ (o : M2) (s : State), ∃ t, exec (.mmov o) s = .next t ∧ MaskOperandWrites s t o.k (maskGet s o.a)) ∧
  (∀ (o : MaskFrom) (s : State), hazard s [] o.a.scalars = false →
    ∃ t, exec (.mfrom o) s = .next t ∧ MaskOperandWrites s t o.k (lowWord (o.a.val s))) ∧
  (∀ (o : MnzOp) (s : State), (∀ p ∈ o.a.range 1, p.1 + p.2 ≤ s.g.nregs) → hazard s (regsOf (o.a.range 1)) [] = false →
    poisonedLane s (regsOf (o.a.range 1)) = none → ∃ t, exec (.mnz o) s = .next t ∧ ∃ x : W,
      (∀ l, l < 32 → inMask x l = (inMask s.sp.em l && o.a.val s l != 0)) ∧ MaskOperandWrites s t o.k x) ∧
  (∀ row ∈ scalarRows, ∀ (o : S3) (s : State), hazard s [] (o.d :: (o.a.scalars ++ o.b.scalars)) = false →
    ∃ t, exec (row.1 o) s = .next t ∧ ScalarWrites s t o.d (row.2 (o.a.val s) (o.b.val s))) ∧
  (∀ (o : S2) (s : State), hazard s [] (o.d :: o.a.scalars) = false →
    ∃ t, exec (.smov o) s = .next t ∧ ScalarWrites s t o.d (o.a.val s)) ∧
  (∀ (o : S3) (s : State), (o.a.val s).toNat < s.g.nregs → (o.a.val s).toNat ≤ 126 →
    hazard s [(o.a.val s).toNat] (o.d :: (o.a.scalars ++ o.b.scalars)) = false → s.g.regPoison = [] →
    ∃ t, exec (.sfromLane o) s = .next t ∧
      ScalarWrites s t o.d (zext64 (vGet s (o.a.val s).toNat ((o.b.val s).toNat % 32)))) ∧
  (∀ (o : MaskToScalar) (s : State), hazard s [] [o.d] = false →
    (∃ t, exec (.mcount o) s = .next t ∧
      ScalarWrites s t o.d (BitVec.ofNat 64 ((List.range 32).countP (fun i => inMask (maskGet s o.a) i)))) ∧
    ∃ t, exec (.mfirst o) s = .next t ∧
      ScalarWrites s t o.d (BitVec.ofNat 64 (((List.range 32).find? (fun i => inMask (maskGet s o.a) i)).getD 32)))

namespace Sys2Proof.Claims

open Sys2Proof Sys2Proof.Machine

/-! Loads, stores, apertures and atomics (R142 to R154). -/

/-- R145: the vector loads, with their bytes and whether they are sign-extended. -/
def loadRows : List ((LdOp → Instr) × Nat × Bool) :=
  [(.ldB8N, 1, false), (.ldB8I, 1, true), (.ldB16N, 2, false), (.ldB16I, 2, true), (.ldB32, 4, false), (.ldB64, 8, false),
   (.ldB128, 16, false)]

/-- R147: the parameter loads, with their bytes. -/
def paramRows : List ((LpOp → Instr) × Nat) := [(.ldParamB32, 4), (.ldParamB64, 8)]

/-- R146: the vector stores, with their bytes. -/
def storeRows : List ((StOp → Instr) × Nat) := [(.stB8, 1), (.stB16, 2), (.stB32, 4), (.stB64, 8), (.stB128, 16)]

/-- R145, R147: what a lane of a load has taken when the load is out: bytes of core and quad store, zeros past a parameter
window's bound, and outside a transaction the bytes that the store buffer holds; the other bytes are still to come. -/
def TakenLane (s : State) (n : Nat) (x : LoadLane) (p : Nat × Nat × Place) : Prop :=
  x.lane = p.1 ∧ x.fwd.length = n ∧
    match p.2.2 with
    | .mem va => x.addr = va ∧
        (inTx s = false → ∀ i, i < n → x.fwd[i]? = some (forwardByte s (domainOf s s.g.ctx va) (va + i)))
    | .store off => ∀ i, i < n → x.fwd[i]? = some (some (storeByte s s.g.span s.g.core (off + i)))
    | .quad off => ∀ i, i < n → x.fwd[i]? = some (some (quadByte s s.g.span (off + i)))
    | .param va => x.addr = va ∧ ∀ i, i < n → x.fwd[i]? = some none
    | .past => ∀ i, i < n → x.fwd[i]? = some (some 0)

/-- R144, R145: t is s with one load more outstanding, of this kind, for these places; L has risen by one. -/
def LoadSent (s t : State) (k : LoadKind) (n : Nat) (ps : List (Nat × Nat × Place)) : Prop :=
  ∃ d : Load, t = { s with ms := { s.ms with loads := s.ms.loads ++ [d] }, g := { s.g with cntL := s.g.cntL + 1 }, uid := s.uid + 1 } ∧
    d.uid = s.uid ∧ d.gid = s.g.gid ∧ d.split = s.sp.num ∧ d.clause = s.iss.clause ∧ d.word = s.iss.word ∧ d.kind = k ∧
    d.param = ps.any (fun p => p.2.2 == .past) ∧ List.Forall₂ (TakenLane s n) d.lanes ps

/-- R143, R159, R477: the places pass: no copy of the split holds their bytes, and none is poisoned. -/
def Free (s : State) (n : Nat) (ps : List (Nat × Nat × Place)) : Prop :=
  ∀ p ∈ ps, copyHeld s p.2.2 n = false ∧ p.2.2.poisoned s n = false

/-- R146: writes as (first address or offset, bytes), in lane order: the byte at an address after them, if any wrote it. -/
def lastByte (ws : List (Nat × List Byte)) (a : Nat) : Option Byte :=
  (ws.filterMap (fun w => if w.1 ≤ a ∧ a < w.1 + w.2.length then w.2[a - w.1]? else none)).getLast?

/-- R303: no two open entries of the region of the split in focus are of one line of a domain. -/
def RegionLines (s : State) : Prop :=
  (s.ms.entries.filter (ofRegion s)).Pairwise (fun e f => ¬(e.dom = f.dom ∧ e.line = f.line ∧ e.tx = f.tx))

/-- R146: the stores of a word to core store, to quad store and to global memory of a domain. -/
def storeWrites (ps : List (Nat × Nat × Place)) (data : Nat → List Byte) : List (Nat × List Byte) :=
  ps.filterMap (fun p => match p.2.2 with | .store off => some (off, data p.1) | _ => none)
/-- R146: likewise to quad store. -/
def quadWrites (ps : List (Nat × Nat × Place)) (data : Nat → List Byte) : List (Nat × List Byte) :=
  ps.filterMap (fun p => match p.2.2 with | .quad off => some (off, data p.1) | _ => none)
/-- R146: likewise to global memory of a tag domain. -/
def globalWrites (s : State) (dom : Nat) (ps : List (Nat × Nat × Place)) (data : Nat → List Byte) : List (Nat × List Byte) :=
  ps.filterMap (fun p => match p.2.2 with
    | .mem va => if domainOf s s.g.ctx va = dom then some (va, data p.1) else none
    | _ => none)

/-- R146, R303: t is s after a store of n bytes outside a transaction: the on-chip bytes are written at once; the global bytes
are in the store buffer, where a later load of the split finds them; memory and every register are unchanged, and the core's
lookaside keeps the pages. -/
def Stored (s t : State) (ps : List (Nat × Nat × Place)) (data : Nat → List Byte) : Prop :=
  (∀ a, storeByte t s.g.span s.g.core a = (lastByte (storeWrites ps data) a).getD (storeByte s s.g.span s.g.core a)) ∧
  (∀ a, quadByte t s.g.span a = (lastByte (quadWrites ps data) a).getD (quadByte s s.g.span a)) ∧
  (∀ dom a, forwardByte t dom a = (lastByte (globalWrites s dom ps data) a).or (forwardByte s dom a)) ∧
  { t with spans := s.spans, ms := { t.ms with entries := s.ms.entries, attrs := s.ms.attrs }, uid := s.uid } = s

/-- R303: the lines (domain, address) of global places for which the region of the split in focus has no open entry yet. -/
def newLines (s : State) (ps : List (Nat × Nat × Place)) : List (Nat × Nat) :=
  ((ps.filterMap (fun p => match p.2.2 with | .mem va => some (domainOf s s.g.ctx va, lineOf va) | _ => none)).eraseDups).filter
    (fun k => !s.ms.entries.any (fun e => ofRegion s e && e.dom == k.1 && e.line == k.2 && !e.tx))

/-- R304: the entries of 32 that the other resident groups of the core in focus have not opened. -/
def unusedGuarantees (s : State) : Nat :=
  ((s.groups.filter (fun g => g.die == s.g.die && g.core == s.g.core && g.gid != s.g.gid && g.residence == .resident &&
    !g.released)).map (fun g => 32 - openCount s g.gid)).sum

/-- R304: the store buffer takes n entries more of the group in focus: they are guaranteed, or the SRAM has entries left over
after every other group's unused guarantee, and the group holds no more than 128. -/
def RoomFor (s : State) (n : Nat) : Prop :=
  openCount s s.g.gid + n ≤ 32 ∨
    (openCount s s.g.gid + n ≤ 128 ∧ unusedGuarantees s + n + sramUsed s s.g.die s.g.core ≤ 512)

/-- R143, R146, R254, R304: a store of n bytes is executed: its places pass and lie in lines (the local base is a multiple of
128), the stores they name exist, and the store buffer has room for the lines that the region has no entry for. -/
def StoreReady (s : State) (n : Nat) (lanes : List (Nat × W64)) (ps : List (Nat × Nat × Place)) : Prop :=
  s.g.cntS < 63 ∧ inTx s = false ∧ placesOf s storeSpaces n lanes = .ok ps ∧ (∀ p ∈ ps, copyHeld s p.2.2 n = false) ∧
    RegionLines s ∧
    (∀ p ∈ ps, match p.2.2 with
      | .store _ => (spanCoreOf? s s.g.span s.g.core).isSome
      | .quad off => ∃ x, spanOf? s s.g.span = some x ∧ (spanCoreOf? s s.g.span (quadCore x off)).isSome
      | .mem va => va % 128 + n ≤ 128
      | _ => True) ∧
    RoomFor s (newLines s ps).length

/-- R411: of the owners, nothing but their usage has changed. -/
def SameOwners (s t : State) : Prop :=
  t.ten.owners.map (fun o => { o with usage := [] }) = s.ten.owners.map (fun o => { o with usage := [] })

/-- R150: acvt.gen rows: the aperture whose offset is answered. -/
def apertureRows : List ((LdOp → Instr) × (LdOp → Instr) × (AtestOp → Instr) × Space × Nat) :=
  [(.acvtGenLocal, .acvtLocal, .atestLocal, .loc, 0xFF00), (.acvtGenStore, .acvtStore, .atestStore, .store, 0xFF01),
   (.acvtGenQuad, .acvtQuad, .atestQuad, .quad, 0xFF02)]

/-- R150: whether an address lies in the aperture of a number and an extent. -/
def within (top ext : Nat) (a : W64) : Bool := decide (top * 2 ^ 48 ≤ a.toNat ∧ a.toNat < top * 2 ^ 48 + ext)

/-- R151, R152: the atomics with a register or the literal of the discard form, by op. -/
def atomRows : List ((AtomOp → Instr) × Nat) :=
  [(.atomAddI32, 26), (.atomAddI64, 27), (.atomFaddF32, 28), (.atomFaddBf16x2, 29), (.atomMinI32, 30), (.atomMaxI32, 31),
   (.atomMinN32, 32), (.atomMaxN32, 33), (.atomAndB32, 34), (.atomOrB32, 35), (.atomXorB32, 36), (.atomXchgB32, 37),
   (.atomXchgB64, 38)]

/-- R152: the operation of an atomic of op number 26 to 40 on the word m in memory, x the operand, y the new value of a
compare-and-swap. -/
def atomRule : List (Nat × (Nat → W64 → W64 → Nat)) :=
  let s32 (n : Nat) : Int := (BitVec.ofNat 32 n).toInt
  let low (x : W64) : Nat := x.toNat % 2 ^ 32
  [(26, fun m x _ => (m + low x) % 2 ^ 32), (27, fun m x _ => (m + x.toNat) % 2 ^ 64),
   (30, fun m x _ => if s32 m ≤ s32 (low x) then m else low x), (31, fun m x _ => if s32 m ≤ s32 (low x) then low x else m),
   (32, fun m x _ => min m (low x)), (33, fun m x _ => max m (low x)), (34, fun m x _ => m &&& low x),
   (35, fun m x _ => m ||| low x), (36, fun m x _ => m ^^^ low x), (37, fun _ x _ => low x), (38, fun _ x _ => x.toNat),
   (39, fun m x y => if m = low x then low y else m), (40, fun m x y => if m = x.toNat then y.toNat else m)]

/-- R151, R153: the atomic of the split in focus is out: one request for the homes and one for the keystone, with a lane for
each active lane and its operands; L has risen by one, and the split waits for them. -/
def AtomSent (s t : State) (op : Nat) (d : Option Nat) (ps : List (Nat × Nat × Place)) (arg : Nat → W64 × W64) : Prop :=
  let home := ps.filterMap (fun p => match p.2.2 with | .mem va => some (p.1, va, (arg p.1).1, (arg p.1).2) | _ => none)
  let chip := ps.filterMap (fun p => if p.2.2.onChip then some (p.1, p.2.1, (arg p.1).1, (arg p.1).2) else none)
  ∃ a b : Atom, t.ms.atoms = s.ms.atoms ++ [a, b] ∧ t.g.cntL = s.g.cntL + 1 ∧ a.lanes = home ∧ b.lanes = chip ∧
    (∀ x ∈ [a, b], x.gid = s.g.gid ∧ x.split = s.sp.num ∧ x.op = op ∧ x.d = d ∧ x.faults = []) ∧
    a.keystone = false ∧ b.keystone = true ∧ a.uid ≠ b.uid ∧ t.sp.pend = [.atomWait, .boundary] ∧ t.mem = s.mem ∧ t.wq = s.wq ∧
    t.g.regs = s.g.regs ∧ t.g.sregs = s.g.sregs ∧ t.g.kregs = s.g.kregs ∧ t.g.flags = s.g.flags

/-- R300: the region of the split in focus can end: its claims have been answered, and nothing of it has faulted. -/
def CanEnd (s : State) : Prop := claimsAnswered s = true ∧ regionFaults s = []

/-- R151, R153: an atomic of a split whose region can end, and which resumes no atomic, is executed. -/
def AtomReady (s : State) (op : Nat) (m : MAddr) (regs : List (Nat × Nat)) (ps : List (Nat × Nat × Place)) : Prop :=
  inTx s = false ∧ s.g.cntL < 63 ∧ (∀ p ∈ regs ++ m.off.range 1, p.1 + p.2 ≤ s.g.nregs) ∧ (∀ p ∈ regs, s.g.live ≤ p.1) ∧
    hazard s (regsOf (regs ++ m.off.range 1)) [m.base] = false ∧ poisonedLane s (regsOf (regs ++ m.off.range 1)) = none ∧
    s.sp.bndPending = true ∧ s.sp.done = 0 ∧ s.sp.em ≠ 0 ∧
    placesOf s storeSpaces (atomSize op) (laneAddrs m s) = .ok ps ∧ (∀ p ∈ ps, copyHeld s p.2.2 (atomSize op) = false) ∧
    ((∃ p ∈ ps, p.2.2.onChip = true) → keystoneFull s s.g = false) ∧ CanEnd s

end Sys2Proof.Claims

open Sys2Proof Sys2Proof.Machine Sys2Proof.Claims

/-- R142 to R145, R147, R148: a load whose addresses pass goes out, for the active lanes or once for the scalar form: it names
what it has taken and what is to come, L rises by one, and nothing else changes; with no active lane a load does nothing. -/
def Obligations.LoadsGoOut : Prop :=
  (∀ row ∈ loadRows, ∀ (o : LdOp) (s : State) (ps : List (Nat × Nat × Place)),
    Clear s o.d (max 1 (row.2.1 / 4)) (o.mem.off.range 1) [o.mem.base] → s.sp.em ≠ 0 → s.g.cntL < 63 →
    placesOf s loadSpaces row.2.1 (laneAddrs o.mem s) = .ok ps → Free s row.2.1 ps →
    ∃ t, exec (row.1 o) s = .next t ∧ LoadSent s t (.vec o.d row.2.1 row.2.2) row.2.1 ps) ∧
  (∀ row ∈ paramRows, ∀ (o : LpOp) (s : State) (p : Place), Clear s o.d (row.2 / 4) [] [] → s.sp.em ≠ 0 → s.g.cntL < 63 →
    paramPlace s o.win (o.off.toNat * 2 ^ o.scale) row.2 = .ok p →
    ∃ t, exec (row.1 o) s = .next t ∧ LoadSent s t (.vec o.d row.2 false) row.2 ((lanesOf s.sp.em).map (fun l => (l, 0, p)))) ∧
  (∀ (o : SlOp) (s : State) (ps : List (Nat × Nat × Place)), hazard s [] [o.d, o.base] = false → s.g.cntL < 63 →
    placesOf s loadSpaces 8 [(0, scalarAddr o s)] = .ok ps → Free s 8 ps →
    ∃ t, exec (.sldB64 o) s = .next t ∧ LoadSent s t (.scalar o.d) 8 ps) ∧
  (∀ row ∈ loadRows, ∀ (o : LdOp) (s : State), Clear s o.d (max 1 (row.2.1 / 4)) (o.mem.off.range 1) [o.mem.base] → s.sp.em = 0 →
    exec (row.1 o) s = .next s)

/-- R146, R148, R303, R304: a store whose addresses pass and for whose lines the store buffer has room leaves its bytes in core
store, in quad store or in the store buffer, a higher lane over a lower one; memory and every register stay as they were. With no
active lane it does nothing. -/
def Obligations.StoresWrite : Prop :=
  (∀ row ∈ storeRows, ∀ (o : StOp) (s : State) (ps : List (Nat × Nat × Place)),
    (∀ p ∈ storeRange o row.2, p.1 + p.2 ≤ s.g.nregs) → hazard s (regsOf (storeRange o row.2)) [o.mem.base] = false →
    poisonedLane s (regsOf (storeRange o row.2)) = none → s.sp.em ≠ 0 →
    StoreReady s row.2 (laneAddrs o.mem s) ps →
    ∃ t, exec (row.1 o) s = .next t ∧ Stored s t ps (fun l => storeBytes o.data row.2 l s)) ∧
  (∀ (o : SlOp) (s : State) (ps : List (Nat × Nat × Place)), hazard s [] [o.d, o.base] = false →
    StoreReady s 8 [(0, scalarAddr o s)] ps →
    ∃ t, exec (.sstB64 o) s = .next t ∧ Stored s t ps (fun _ => natToBytes 8 (sGet s o.d).toNat)) ∧
  (∀ row ∈ storeRows, ∀ (o : StOp) (s : State), (∀ p ∈ storeRange o row.2, p.1 + p.2 ≤ s.g.nregs) →
    hazard s (regsOf (storeRange o row.2)) [o.mem.base] = false → s.sp.em = 0 → exec (row.1 o) s = .next s)

/-- R149, R150: the aperture words: a generic address is told apart, turned into an offset or built, and a prefetch changes
nothing but caches, whatever its addresses are. -/
def Obligations.ApertureResults : Prop :=
  ∀ row ∈ apertureRows,
    (∀ (o : LdOp) (s : State), Clear s o.d 1 (o.mem.off.range 1) [o.mem.base] →
      ∃ t, exec (row.1 o) s = .next t ∧ LaneWrites s t o.d 1 (fun l =>
        let a := o.mem.addr s l
        plain (if within row.2.2.2.2 (extentOf s row.2.2.2.1) a then lowWord a else 0xFFFFFFFF, 0))) ∧
    (∀ (o : LdOp) (s : State), Clear s o.d 2 (o.mem.off.range 1) [o.mem.base] →
      ∃ t, exec (row.2.1 o) s = .next t ∧ LaneWrites s t o.d 2 (fun l =>
        ⟨BitVec.ofNat 64 (row.2.2.2.2 * 2 ^ 48 + (lowWord (o.mem.addr s l)).toNat), 0, none⟩)) ∧
    (∀ (o : AtestOp) (s : State), (∀ p ∈ o.mem.off.range 1, p.1 + p.2 ≤ s.g.nregs) →
      hazard s (regsOf (o.mem.off.range 1)) [o.mem.base] = false → poisonedLane s (regsOf (o.mem.off.range 1)) = none →
      ∃ t, exec (row.2.2.1 o) s = .next t ∧
        MaskWrites s t o.k (fun l => (within row.2.2.2.2 (extentOf s row.2.2.2.1) (o.mem.addr s l), 0))) ∧
    ∀ (o : PfOp) (s : State), (∀ p ∈ o.mem.off.range 1, p.1 + p.2 ≤ s.g.nregs) →
      hazard s (regsOf (o.mem.off.range 1)) [o.mem.base] = false → poisonedLane s (regsOf (o.mem.off.range 1)) = none →
      ∃ t, exec (.prefetch o) s = .next t ∧
        { t with ms := { t.ms with l2 := s.ms.l2, attrs := s.ms.attrs }, ten := { t.ten with owners := s.ten.owners },
                 uid := s.uid } = s ∧ SameOwners s t

/-- R151, R153, R313: an atomic ends its region and sends its active lanes, to homes or to the keystone. -/
def Obligations.AtomicsGoOut : Prop :=
  (∀ row ∈ atomRows, ∀ (o : AtomOp) (d : Nat) (s : State) (ps : List (Nat × Nat × Place)), o.d = .reg d →
    AtomReady s row.2 o.mem [(d, atomRegs row.2)] ps →
    ∃ t, exec (row.1 o) s = .next t ∧ AtomSent s t row.2 (some d) ps (fun l =>
      (if atomSize row.2 = 8 then vGet64 s d l else zext64 (vGet s d l), 0))) ∧
  (∀ row ∈ atomRows, ∀ (o : AtomOp) (w : W) (s : State) (ps : List (Nat × Nat × Place)), o.d = .lit w →
    AtomReady s row.2 o.mem [] ps →
    ∃ t, exec (row.1 o) s = .next t ∧ AtomSent s t row.2 none ps (fun _ => (if row.2 = 27 then sext64 w else zext64 w, 0))) ∧
  (∀ (o : CasOp) (s : State) (ps : List (Nat × Nat × Place)), AtomReady s 39 o.mem [(o.d, 2)] ps →
    ∃ t, exec (.atomCasB32 o) s = .next t ∧
      AtomSent s t 39 (some o.d) ps (fun l => (zext64 (vGet s o.d l), zext64 (vGet s (o.d + 1) l)))) ∧
  (∀ (o : CasOp) (s : State) (ps : List (Nat × Nat × Place)), AtomReady s 40 o.mem [(o.d, 4)] ps →
    ∃ t, exec (.atomCasB64 o) s = .next t ∧ AtomSent s t 40 (some o.d) ps (fun l => (vGet64 s o.d l, vGet64 s (o.d + 2) l)))

namespace Sys2Proof.Claims

open Sys2Proof Sys2Proof.Machine

/-! Events that act on a split. -/

/-- u is the settled state s with split num of group gid in focus. -/
def At (s : State) (gid num : Nat) (u : State) : Prop :=
  s.Settled ∧ (∀ g ∈ s.groups, g.gid ≠ 0) ∧ focus? gid num s = some u

/-- The registers of the group in focus, memory and the trap records are as they were. -/
def Kept (s t : State) : Prop :=
  t.g.regs = s.g.regs ∧ t.g.sregs = s.g.sregs ∧ t.g.kregs = s.g.kregs ∧ t.g.rng = s.g.rng ∧ t.g.flags = s.g.flags ∧
    t.g.fmode = s.g.fmode ∧ t.mem = s.mem ∧ t.wq = s.wq ∧ t.traps = s.traps

/-- R145: the number that word j of a load of size bytes leaves in its register. -/
def loadValue (size : Nat) (signed : Bool) (bs : List Byte) (j : Nat) : W :=
  if signed ∧ size < 4 then BitVec.ofInt 32 (toSigned (8 * size) (bytesToNat bs))
  else BitVec.ofNat 32 (bytesToNat bs / 2 ^ (32 * j))

/-- R145, R282, R283: the bytes a lane of a load receives: those it has taken, else those of the line as the core sees it: its
L1 copy, a remote data cache's copy that its die may use, or memory at the home. -/
def laneBytes (u : State) (x : LoadLane) : List Byte :=
  let line : List Byte :=
    match accessIn u u.g.ctx needRd x.addr with
    | .error _ => []
    | .ok l =>
      match l1Find u u.g.die u.g.core l.dom (lineOf x.addr), rdcHit u u.g.die l x.addr with
      | some c, _ => c.bytes
      | none, some r => r.bytes
      | none, none => rdBytes u (lineOf l.phys) 128
  x.fwd.zipIdx.map (fun p => p.1.getD (nthD 0 ((line.drop (x.addr % 128)).take x.fwd.length) p.2))

/-- R303, R322, R419: the answer to an entry's claim: the page must be mapped and writable, and the line that a transaction
writes not poisoned. -/
def pageAnswer (s : State) (e : SbEntry) : Claim :=
  match accessIn s e.ctx needW e.lowVa with
  | .ok l => if e.tx && isPoisoned s l.phys then .faulted 3 false 0 else .granted
  | .error f => .faulted f.cause f.stage2 f.gpa

/-- R305, R430: a committed entry can be applied: it is the oldest of its split, nothing earlier reads its line, its line does
not wait, and the page is mapped at l. -/
def Drains (s : State) (e : SbEntry) (l : Leaf) : Prop :=
  s.ms.entries.find? (fun x => x.uid == e.uid) = some e ∧ canDrain s e l = true ∧ e.poison = false ∧
    accessIn s e.ctx ⟨false, false, false⟩ e.line = .ok l

/-- R283, R305: t is s after the bytes of an entry were applied at the physical line of l: the entry is draining, and every
other byte, group and span is as it was. -/
def Applied (s t : State) (e : SbEntry) (l : Leaf) : Prop :=
  (∀ a, rdByte t a = ((e.bytes.reverse.find? (fun b => lineOf l.phys + b.1 == a)).map (fun b => b.2)).getD (rdByte s a)) ∧
  t.ms.entries = updateFirst (fun x => x.uid == e.uid) (fun x => { x with st := .draining }) s.ms.entries ∧
  t.groups = s.groups ∧ t.g = s.g ∧ t.sp = s.sp ∧ t.spans = s.spans ∧ t.mem = s.mem ∧ t.traps = s.traps

/-- A group changed, of a state with no group in focus. -/
def withGroup (gid : Nat) (f : Machine.Group → Machine.Group) (s : State) : State :=
  { s with groups := s.groups.map (fun g => if g.gid = gid then f g else g) }

/-- A transaction changed likewise. -/
def withTx (gid : Nat) (f : Tx → Tx) (s : State) : State := withGroup gid (fun g => { g with tx := g.tx.map f }) s

/-- R153, R311: lane entry x of atomic a of group g can be performed at leaf l. -/
def LaneReady (s : State) (g : Machine.Group) (a : Atom) (x : Nat × Nat × W64 × W64) (l : Leaf) : Prop :=
  s.Settled ∧ (∀ h ∈ s.groups, h.gid ≠ 0) ∧ groupOf? s a.gid = some g ∧ x.1 < 32 ∧
    s.ms.atoms.find? (fun b => b.uid == a.uid && !b.keystone) = some a ∧ s.ms.atoms.find? (fun b => b.uid == a.uid) = some a ∧
    a.lanes.find? (fun y => y.1 == x.1) = some x ∧ atomReady s g a x.1 x.2.1 = true ∧
    accessIn s g.ctx needRdW x.2.1 = .ok l ∧ isPoisoned s l.phys = false ∧ actingHome s l = none ∧
    x.2.1 % 128 + atomSize a.op ≤ 128 ∧ l.phys % 128 = x.2.1 % 128 ∧
    ∃ p, g.splits.find? (fun q => q.num == a.split) = some p ∧ p.member ≠ 0 ∧ p.pend = [.atomWait, .boundary] ∧
      ∃ b ∈ s.ms.atoms, b.gid = a.gid ∧ b.split = a.split ∧
        (if b.uid = a.uid then ∃ y ∈ b.lanes, y.1 ≠ x.1 else b.lanes ≠ [])

/-- R227, R319: the lanes that win a commit: not failed before, and every word they read still has the value they read. -/
def wins (s : State) (ctx : Nat) (t : Tx) (l : Nat) : Bool :=
  inMask t.mask l && !t.failed.any (fun f => f.1 == l) &&
    t.log.all (fun e => e.1 != l || match accessIn s ctx ⟨false, false, false⟩ e.2.1 with
      | .ok p => !isPoisoned s p.phys && BitVec.ofNat 64 (rdNat s p.phys 8) == e.2.2
      | .error _ => false)

end Sys2Proof.Claims

open Sys2Proof Sys2Proof.Machine Sys2Proof.Claims

/-- R144, R145, R148, R306: a load that nothing holds back returns: its lanes' registers receive the bytes, widened as its kind
says, L falls by one, and window-fault is raised for a parameter past its bound; of a load that still needs memory in several
lanes only the completion is stated. -/
def Obligations.LoadReturns : Prop :=
  ∀ (s u : State) (d : Load), At s d.gid d.split u → s.ms.loads.find? (fun x => x.uid == d.uid) = some d →
    loadWaits u d = false → d.tx = false → loadRecs u d = [] → (d.lanes.map LoadLane.lane).Nodup → (∀ x ∈ d.lanes, x.lane < 32) →
    ∃ v, exec (.loadDataReturn d.uid) s = .next (unfocus v) ∧ v.ms.loads = s.ms.loads.filter (fun x => x.uid != d.uid) ∧
      v.g.cntL = u.g.cntL - 1 ∧ v.g.flags = (if d.param then u.g.flags ||| flWindow else u.g.flags) ∧
      v.g.kregs = u.g.kregs ∧ v.sp = u.sp ∧ v.mem = s.mem ∧ v.wq = s.wq ∧ v.ms.entries = s.ms.entries ∧ v.spans = s.spans ∧
      (∀ dd size signed, d.kind = .vec dd size signed →
        v.g.sregs = u.g.sregs ∧
        (∀ r l, l < 32 → (∀ x ∈ d.lanes, x.lane ≠ l) ∨ r < dd ∨ dd + max 1 (size / 4) ≤ r → gReg v.g r l = gReg u.g r l) ∧
        ∀ x ∈ d.lanes, x.taken ∨ d.lanes = [x] →
          ∀ j, j < max 1 (size / 4) → gReg v.g (dd + j) x.lane = loadValue size signed (laneBytes u x) j) ∧
      (∀ dd, d.kind = .scalar dd → v.g.regs = u.g.regs ∧ (∀ r, r ≠ dd → sGet v r = sGet u r) ∧
        ∀ x, d.lanes = [x] → sGet v dd = BitVec.ofNat 64 (bytesToNat (laneBytes u x)))

/-- R283, R303, R305, R431: what becomes of a store: its claim is answered from the page, its bytes are applied at the home or at
the acting home, and it leaves the buffer once no invalidation is left. -/
def Obligations.StoresDrain : Prop :=
  (∀ (s : State) (e : SbEntry), s.ms.entries.find? (fun x => x.uid == e.uid) = some e → e.claim = .waiting →
    ∃ t, exec (.storeClaimAnswer e.uid) s = .next t ∧
      t.ms.entries = updateFirst (fun x => x.uid == e.uid) (fun x => { x with claim := pageAnswer s e }) s.ms.entries ∧
      { t with ms := { t.ms with entries := s.ms.entries, htbs := s.ms.htbs, attrs := s.ms.attrs }, uid := s.uid } = s) ∧
  (∀ (s : State) (e : SbEntry) (l : Leaf), Drains s e l → writesThrough s e.die l = true → actingHome s l = none →
    isPoisoned s l.phys = false → doorbellPlace? s l.phys = none →
    ∃ t, exec (.homeWriteApply e.uid) s = .next t ∧ Applied s t e l) ∧
  (∀ (s : State) (e : SbEntry) (l : Leaf) (holder : Nat), Drains s e l → actingHome s l = some holder →
    heldElsewhere s l.dom e.line holder = false → invalPending s l.dom e.line = false →
    ∃ t, exec (.actingHomeForward e.uid) s = .next t ∧ Applied s t e l) ∧
  (∀ (s : State) (e : SbEntry), s.ms.entries.find? (fun x => x.uid == e.uid) = some e → e.st = .draining →
    (∀ v ∈ s.ms.invals, v.writer.cls ≠ .store e.uid) →
    exec (.entryDrainAck e.uid) s = .next { s with ms := { s.ms with entries := s.ms.entries.filter (fun x => x.uid != e.uid) } })

/-- R151 to R153, R311: one lane of an atomic at its home, while other lanes are left: the word takes the operation's result, the
lane's register its old value, and the lane is done. Its value for the two floating-point sums is that of R152 through the
model's own addition, and is not stated here. -/
def Obligations.AtomicLanesPerform : Prop :=
  ∀ (s : State) (g : Machine.Group) (a : Atom) (x : Nat × Nat × W64 × W64) (l : Leaf), LaneReady s g a x l →
    ∃ t h, exec (.atomicLanePerform a.uid x.1) s = .next t ∧ groupOf? t a.gid = some h ∧
      (∀ f, (a.op, f) ∈ atomRule →
        rdNat t l.phys (atomSize a.op) = f (rdNat s l.phys (atomSize a.op)) x.2.2.1 x.2.2.2 % 2 ^ (8 * atomSize a.op)) ∧
      (∀ b, b < l.phys ∨ l.phys + atomSize a.op ≤ b → rdByte t b = rdByte s b) ∧
      (∀ r m, m < 32 → gReg h r m =
        if m = x.1 ∧ a.d = some r then BitVec.ofNat 32 (rdNat s l.phys (atomSize a.op))
        else if m = x.1 ∧ atomSize a.op = 8 ∧ (a.d.map (fun d => d + 1)) = some r then
          BitVec.ofNat 32 (rdNat s l.phys (atomSize a.op) / 2 ^ 32)
        else gReg g r m) ∧
      h.sregs = g.sregs ∧ h.kregs = g.kregs ∧ h.cntL = g.cntL ∧ h.flags = g.flags ∧
      (∀ p ∈ h.splits, p.num = a.split → inMask p.done x.1 = true) ∧
      t.ms.atoms = updateFirst (fun b => b.uid == a.uid) (fun b => { b with lanes := b.lanes.filter (fun y => y.1 != x.1) }) s.ms.atoms

/-- R313, R314: a quad's keystone applies the request at the head of its queue to core store; the request's lanes are done. Stated
for a request of one lane, while its split has a lane left at a home. -/
def Obligations.KeystonePerforms : Prop :=
  ∀ (s : State) (g : Machine.Group) (a : Atom) (x : Nat × Nat × W64 × W64) (die quad off : Nat),
    s.Settled → (∀ h ∈ s.groups, h.gid ≠ 0) → (keystoneQueue s die quad).head? = some a → groupOf? s a.gid = some g →
    s.ms.atoms.find? (fun b => b.uid == a.uid) = some a → a.lanes = [x] → x.1 < 32 → x.2.1 = 0xFF01 * 2 ^ 48 + off →
    off < 2 ^ 48 → (spanCoreOf? s g.span g.core).isSome → storePoisoned s g.span g.core off (atomSize a.op) = false →
    (∃ p, g.splits.find? (fun q => q.num == a.split) = some p ∧ p.member ≠ 0 ∧ p.pend = [.atomWait, .boundary]) →
    (∃ b ∈ s.ms.atoms, b.gid = a.gid ∧ b.split = a.split ∧ b.uid ≠ a.uid ∧ b.lanes ≠ []) →
    let word (t : State) : Nat := bytesToNat ((List.range (atomSize a.op)).map (fun i => storeByte t g.span g.core (off + i)))
    ∃ t h, exec (.keystoneRequest die quad) s = .next t ∧ groupOf? t a.gid = some h ∧
      (∀ f, (a.op, f) ∈ atomRule → word t = f (word s) x.2.2.1 x.2.2.2 % 2 ^ (8 * atomSize a.op)) ∧
      (∀ b, b < off ∨ off + atomSize a.op ≤ b → storeByte t g.span g.core b = storeByte s g.span g.core b) ∧
      (∀ d, a.d = some d → gReg h d x.1 = BitVec.ofNat 32 (word s)) ∧ h.cntL = g.cntL ∧ t.mem = s.mem ∧ t.wq = s.wq ∧
      t.ms.atoms = updateFirst (fun b => b.uid == a.uid) (fun b => { b with lanes := [] }) s.ms.atoms

/-- R319, R321: the commit of a transaction is received by its slices, takes their locks in ascending order, and takes the
domain's token in order of arrival. -/
def Obligations.CommitsAdvance : Prop :=
  (∀ (s u : State) (g : Machine.Group) (t : Tx), groupOf? s g.gid = some g → g.tx = some t → At s g.gid t.split u → t.phase = .sent →
    t.serial = 0 → txPoison u t = [] →
    exec (.txSliceReceive g.gid) s = .next (unfocus { u with g := { u.g with tx := some { t with phase := .received } } })) ∧
  (∀ (s : State) (g : Machine.Group) (t : Tx) (n : Nat), s.g.gid = 0 → g.gid ≠ 0 → groupOf? s g.gid = some g → g.tx = some t →
    (t.phase = .received ∨ t.phase = .locking) → (txSlices s g t).find? (fun k => !memNat k t.locked) = some n →
    heldByOther s g.gid n = false → sliceLocked s (n / 256) (n % 256) g.gid = false →
    exec (.txSliceLock g.gid) s = .next (withTx g.gid (fun x => { x with phase := .locking, locked := x.locked ++ [n] }) s)) ∧
  (∀ (s : State) (dom gid : Nat), s.g.gid = 0 → gid ≠ 0 → (∀ k ∈ s.ms.tokens, k.1 ≠ dom) →
    s.ms.tokenWaits.find? (fun k => k.1 == dom) = some (dom, gid) →
    exec (.serialTokenGrant dom) s = .next (withTx gid (fun x => { x with token := true })
      { s with ms := { s.ms with tokens := s.ms.tokens ++ [(dom, gid)], tokenWaits := s.ms.tokenWaits.filter (fun k => k.2 != gid) } }))

/-- R227, R228, R319: with every slice locked, the commit is decided at once: a lane succeeds if every word it read still has the
value it read; k7 and %txstat name the lanes that did, the transaction is over, and tx.end goes on. A transaction that wrote
nothing leaves memory as it was; the byte that a transaction wrote is written if its lane succeeds, and no other. Stated for a
split with no load outstanding and no other store in its region. -/
def Obligations.TransactionsEnd : Prop :=
  ∀ (s u : State) (g : Machine.Group) (t : Tx), groupOf? s g.gid = some g → g.tx = some t → At s g.gid t.split u → t.phase = .locking →
    (∀ n ∈ txSlices s g t, n ∈ t.locked) → u.sp.pend = [.txWait, .boundary] → (∀ d ∈ s.ms.loads, d.gid ≠ g.gid) →
    (∀ e ∈ s.ms.entries, e.gid = g.gid → e.tx = true) →
    ∃ v, exec (.txValidationResult g.gid) s = .next (unfocus v) ∧ v.g.tx = none ∧ v.sp.pend = [] ∧
      (∀ l, l < 32 → inMask (kGet v 7) l = wins s g.ctx t l) ∧ (∀ k, k ≠ 7 → kGet v k = kGet u k) ∧
      lowWord v.g.txstat = kGet v 7 ∧ v.g.regs = u.g.regs ∧ v.g.sregs = u.g.sregs ∧
      (t.writes = [] → v.mem = s.mem ∧ v.wq = s.wq) ∧
      (∀ l va b p, t.writes = [(l, va, b)] → accessIn s g.ctx ⟨false, false, false⟩ (lineOf va) = .ok p → isPoisoned s p.phys = false →
        actingHome s p = none → ∀ a, rdByte v a = if wins s g.ctx t l ∧ l < 32 ∧ a = lineOf p.phys + va % 128 then b else rdByte s a)

/-- R306 to R310: faults. A load that met a fault discards its region; a parked split goes on at its region PC once every page of
its records permits the access; H3's reading makes room; a page declared unresolvable traps the split that waits for it, and is no longer open; a
group's deferred trap is raised. -/
def Obligations.FaultsResolve : Prop :=
  (∀ (s u : State) (gid num : Nat), At s gid num u → loadFaults u ≠ [] → u.sp.pend = [] → u.sp.state = .running → ownAtoms u = [] →
    ∃ v, exec (.regionAbort gid num) s = .next (unfocus v) ∧ v.sp.state = .parked ∧ v.sp.pc = u.sp.regionPc ∧
      v.sp.widx = u.sp.regionWord ∧ v.sp.em = u.sp.ckpt.em ∧ v.sp.stack = u.sp.ckpt.stack ∧ v.sp.pend = [] ∧ v.g.regs = u.g.regs ∧
      v.g.sregs = u.sp.ckpt.sregs ∧ v.g.kregs = u.sp.ckpt.kregs ∧ v.g.fmode = u.sp.ckpt.fmode ∧ v.g.flags = u.g.flags ∧
      v.ms.loads = s.ms.loads.filter (fun d => !(d.gid == u.g.gid && d.split == u.sp.num)) ∧ v.sp.faults ≠ [] ∧
      (∀ r ∈ v.sp.faults, ∃ q ∈ loadFaults u, pageOf q.2.vaddr = pageOf r.vaddr)) ∧
  (∀ (s u : State) (gid num : Nat), At s gid num u → u.sp.state = .parked → u.sp.unsent = [] →
    (∀ r ∈ u.sp.faults, ∃ l, accessIn u r.ctx (if r.cause = 1 then ⟨false, false, false⟩ else kindNeed r.kind) r.vaddr = .ok l ∧
      (r.cause = 3 → isPoisoned u l.phys = false)) →
    exec (.splitRestart gid num) s = .next (unfocus { u with sp := { u.sp with state := .running, faults := [] } })) ∧
  (∀ (s : State) (ctx n : Nat) (c : Context), s.Settled → (∀ g ∈ s.groups, g.ctx ≠ ctx) → ctxOf? s ctx = some c → s.ms.unsent = [] →
    n ≤ (c.fqwr + 2 ^ 32 - c.fqrd) % 2 ^ 32 →
    ∃ rs : List Reply, exec (.faultQueueReadAdvance ctx n) s = .next { s with
        front := { s.front with replies := s.front.replies ++ rs },
        ten := { s.ten with
          ctxs := updateFirst (fun x => x.num == ctx) (fun x => { x with fqrd := (x.fqrd + n) % 2 ^ 32 }) s.ten.ctxs } } ∧
      rs.length ≤ n ∧ (∀ r ∈ rs, r.func = c.func ∧ r.code = 0) ∧ ((∀ f ∈ s.ms.openFaults, f.ctx ≠ ctx) → rs = [])) ∧
  (∀ (s : State) (ctx va : Nat), s.Settled → s.groups = [] → s.front.queues = [] → s.eng = ⟨[], [], [], []⟩ → s.fab.slots = [] →
    s.fab.partials = [] → (∃ f ∈ s.ms.openFaults, f.ctx = ctx ∧ f.page = pageOf va) →
    exec (.faultDeclareUnresolvable ctx va) s = .next { s with ms := { s.ms with
      openFaults := s.ms.openFaults.filter (fun f => !(f.ctx == ctx && f.page == pageOf va)) } }) ∧
  (∀ (s : State) (g : Machine.Group) (p : Split) (r : FaultRec) (ctx va : Nat), s.Settled → s.groups = [g] → g.gid ≠ 0 → g.splits = [p] →
    s.front.queues = [] → (∃ f ∈ s.ms.openFaults, f.ctx = ctx ∧ f.page = pageOf va) → p.state = .parked →
    p.faults.find? (fun x => x.ctx == ctx && pageOf x.vaddr == pageOf va) = some r →
    ∃ t x, exec (.faultDeclareUnresolvable ctx va) s = .next t ∧ t.traps = s.traps ++ [x] ∧ x.kind = .translationAbort ∧
      x.clause = p.regionPc ∧ x.word = p.regionWord ∧ x.detail = some (BitVec.ofNat 64 r.vaddr) ∧ x.group = g.index) ∧
  (∀ (s : State) (g : Machine.Group) (r : TrapRec) (rest : List TrapRec), s.g.gid = 0 → g.gid ≠ 0 → groupOf? s g.gid = some g →
    g.deferred = r :: rest → g.residence = .resident →
    (∃ v, viaductOf? s g.viaduct = some v ∧ v.st = .started ∧ v.readyTick ≤ s.tick) →
    ∃ t x, exec (.deferredTrapRaise g.gid) s = .next t ∧ t.traps = s.traps ++ [x] ∧ x.kind = r.kind ∧ x.clause = r.clause ∧
      x.word = r.word ∧ x.detail = r.detail ∧ x.tick = s.tick ∧ x.viaduct = r.viaduct)

namespace Sys2Proof.Claims

open Sys2Proof Sys2Proof.Machine

/-! Copies, plane store, matrix words and queues (R155 to R203). -/

/-- R157: the copies but put, with their op. -/
def copyRows : List ((CpOp → Instr) × CopyOp) :=
  [(.cpG2s, .g2s), (.cpS2g, .s2g), (.cpS2s, .s2s), (.cpG2p, .g2p), (.cpS2p, .s2p), (.cpMcast, .mcast), (.cpFill, .fill)]

/-- R157: the bytes that the lanes of a copy of z bytes account: a multicast counts each receiver. -/
def copyBytes (op : CopyOp) (z : Nat) (ls : List CopyLane) : Nat :=
  (ls.map (fun l => if op = .mcast then z * ((List.range 4).countP (fun i => bitOf l.mask i)) else z)).sum

/-- R142, R155 to R158: a copy is executed: it is outside a transaction, its registers exist, its lanes pass their checks, and
the engine and the barrier register have room. -/
def CopyReady (s : State) (op : CopyOp) (o : CpOp) (ls : List CopyLane) : Prop :=
  inTx s = false ∧ (∀ p ∈ [(o.src, 2), (o.dst, 2)], p.1 + p.2 ≤ s.g.nregs) ∧ (o.acc = true → o.bar < barCount s) ∧
    hazard s (regsOf [(o.src, 2), (o.dst, 2)]) [] = false ∧ poisonedLane s (regsOf [(o.src, 2), (o.dst, 2)]) = none ∧
    s.sp.em ≠ 0 ∧ s.g.cntC < 63 ∧ copyLanes s op o (4 * 2 ^ o.size) (lanesOf s.sp.em) = .ok ls ∧
    (o.acc = true → (barGet s o.bar).pending + copyBytes op (4 * 2 ^ o.size) ls ≤ 16777215) ∧ copyQueueFull s s.g = false

/-- R155, R158, R213: t is s with one copy more in the engine's queue and C risen by one; an accounting copy's barrier register has
its bytes pending. -/
def CopySent (s t : State) (op : CopyOp) (o : CpOp) (ls : List CopyLane) : Prop :=
  (∃ c : Copy, t.eng = { s.eng with copies := s.eng.copies ++ [c] } ∧ c.gid = s.g.gid ∧ c.span = s.g.span ∧ c.split = s.sp.num ∧
    c.clause = s.iss.clause ∧ c.word = s.iss.word ∧ c.op = op ∧ c.z = 4 * 2 ^ o.size ∧ c.bar = (if o.acc then some o.bar else none) ∧
    c.lanes.map (fun l => (l.lane, l.src, l.dst, l.mask)) = ls.map (fun l => (l.lane, l.src, l.dst, l.mask)) ∧
    (∀ l ∈ c.lanes, l.held = false ∧ l.skip = false ∧ l.done = false)) ∧
  t.g.cntC = s.g.cntC + 1 ∧
  (o.acc = true → barGet t o.bar =
    { barGet s o.bar with pending := (barGet s o.bar).pending + copyBytes op (4 * 2 ^ o.size) ls }) ∧
  (∀ b, o.acc = false ∨ b ≠ o.bar → barGet t b = barGet s b)

/-- R163: t is s with a tile operation in the core's queue and T risen by one; a counted word is counted (R166). -/
def TileSent (s t : State) (op : TileOp) (count : Bool) : Prop :=
  t = { s with
    eng := { s.eng with tiles := s.eng.tiles ++
      [⟨s.uid, s.g.gid, s.g.span, s.sp.num, s.g.die, s.g.core, s.iss.clause, s.iss.word, s.sp.em, op, false, false, [], false⟩] },
    g := { s.g with cntT := s.g.cntT + 1 }, uid := s.uid + 1,
    sp := if count then { s.sp with replay := s.sp.replay + 1 } else s.sp }

/-- R163, R165: a word of major 8 may enter the queue: outside a transaction, with room, not replayed. -/
def TileRoom (s : State) : Prop :=
  inTx s = false ∧ s.g.cntT < 63 ∧ tileQueueFull s s.g = false ∧ s.sp.kept ≤ s.sp.replay ∧ s.iss.stalled = false

/-- R169 to R172: a record can be held beside others in an allotment of units: its reserved fields are zero, its format, role,
table area and extents are ones that R172 admits, its range is in the allotment, long enough, and free of the others', and its
scales lie behind the elements where its format has them apart. -/
def RecordFits (units : Nat) (others : List ResRec) (r : ResRec) : Prop :=
  r.clean = true ∧ r.fmt ≤ 16 ∧ (r.roleB = false → r.tl = false ∧ r.mext ≤ 32) ∧ (r.roleB = true → r.fmt ≠ 1 ∧ r.mext ≤ 64) ∧
    (r.tl = true → r.fmt ∈ [2, 4, 5, 6, 7]) ∧ 1 ≤ r.mext ∧ 1 ≤ r.kext ∧ r.kext ≤ 1024 ∧ 1 ≤ r.size ∧ r.size ≤ 512 ∧
    r.base + r.size ≤ units ∧ (∀ o ∈ others, r.base + r.size ≤ o.base ∨ o.base + o.size ≤ r.base) ∧
    r.mext * ((r.kext + 31) / 32) * (4 * planeWidth r.fmt + (if r.fmt = 1 then 48 else 16) + (if r.tl then 256 else 0)) ≤ r.size * 256 ∧
    (if r.fmt ∈ [3, 6, 7, 8, 9, 10] then
      r.mext * ((r.kext + 31) / 32) * (4 * planeBits r.fmt) ≤ r.soff ∧ r.soff + r.mext * ((r.kext + 31) / 32) ≤ 2 ^ 18
    else r.soff = 0)

/-- R172: the record in s(E), s(E+1) can be held under handle n of the span and core in focus. -/
def PairFits (s : State) (n e : Nat) : Prop := RecordFits (planeUnits s) (otherRecords s n) (resRec (sGet s e) (sGet s (e + 1)))

/-- R173: two records differ in korg at most. -/
def KorgOnly (v0 v1 w0 w1 : W64) : Prop := (∀ i, i < 24 ∨ 30 ≤ i → v0.getLsbD i = w0.getLsbD i) ∧ v1 = w1

/-- R168: only the reservation of a handle of the span and core in focus differs, and it is r. -/
def OnlyRes (s t : State) (n : Nat) (r : Option Reservation) : Prop :=
  heldRes? t n = r ∧ (∀ h, h ≠ n → heldRes? t h = heldRes? s h) ∧ { t with spans := s.spans } = s

/-- R170, R176: element k of row or column m of a reservation, as its converted integer. -/
def planeInt (r : Reservation) (m k : Nat) : Int := mapGet 0 (r.block m (k / 32)).ints (k % 32)

/-- R58, R178: the sum of products of n steps of 16 positions from the records' k origins, padding left out. -/
def stepSum (ra rb : ResRec) (a b : Reservation) (n row col : Nat) : Int :=
  ((List.range (16 * n)).map (fun i =>
    if 16 * ra.korg + i < ra.kext ∧ 16 * rb.korg + i < rb.kext then
      planeInt a row (16 * ra.korg + i) * planeInt b col (16 * rb.korg + i) else 0)).sum

/-- A tile operation at the head of a core's queue, of a group with its span's part on the core, in a state with no group in
focus. -/
def TileHead (s : State) (g : Machine.Group) (c : TileCmd) (tile : Nat) : Prop :=
  s.g.gid = 0 ∧ c.gid ≠ 0 ∧ groupOf? s c.gid = some g ∧
    s.eng.tiles.find? (fun x => x.die == c.die && x.core == c.core && !x.suspended) = some c ∧
    ∃ p, spanCoreOf? s c.span c.core = some p ∧ tile < p.tiles.length

/-- R163: after it, T has fallen by one and the operation has left the queue; memory is as it was. -/
def TileDone (s t : State) (g h : Machine.Group) (c : TileCmd) : Prop :=
  groupOf? t c.gid = some h ∧ h.cntT = g.cntT - 1 ∧ t.eng.tiles = s.eng.tiles.filter (fun k => k.uid != c.uid) ∧
    t.mem = s.mem ∧ t.wq = s.wq ∧ h.kregs = g.kregs

/-- R193, R198: the queue register q of the group in focus gives its oldest held entry to the split. -/
def TakesEntry (s t : State) (q d : Nat) (e : QEntry) (kregs : SMap W) : Prop :=
  (∀ r l, l < 32 → vGet t r l = if r = d ∧ inMask s.sp.em l then mapGet 0 e.data l else vGet s r l) ∧
  t.g.queues = s.g.queues.set q { s.g.queue q with
    entries := (s.g.queue q).entries.map (fun x => if x.seq = e.seq then { x with taken := some s.sp.num } else x) } ∧
  { t with g := { t.g with regs := s.g.regs, regPoison := s.g.regPoison, queues := s.g.queues, kregs := s.g.kregs } } = s ∧
  t.g.kregs = kregs

end Sys2Proof.Claims

open Sys2Proof Sys2Proof.Machine Sys2Proof.Claims

/-- R155 to R158, R161, R162: a copy whose lanes pass goes to the engine; a put also takes a number of its stream for each lane; a
close shuts its barrier register, and arrives at once where no bytes are pending. -/
def Obligations.CopiesGoOut : Prop :=
  (∀ row ∈ copyRows, ∀ (o : CpOp) (s : State) (ls : List CopyLane), CopyReady s row.2 o ls →
    ∃ t, exec (row.1 o) s = .next t ∧ CopySent s t row.2 o ls ∧
      { t with spans := s.spans, eng := s.eng, uid := s.uid, g := { t.g with cntC := s.g.cntC } } = s) ∧
  (∀ (o : CpOp) (s : State) (ls : List CopyLane), CopyReady s .put o ls →
    streamFull s s.g.ctx (agentOf s s.g.die) (ls.map (fun l => (agentOf s s.g.die, l.mask))) = false →
    ∃ t, exec (.cpPut o) s = .next t ∧ CopySent s t .put o ls ∧ Kept s t ∧
      ∀ w, (streamOf t s.g.ctx (agentOf s s.g.die) (agentOf s s.g.die) w).next % 2 ^ 32 =
        ((streamOf s s.g.ctx (agentOf s s.g.die) (agentOf s s.g.die) w).next + ls.countP (fun l => l.mask == w)) % 2 ^ 32) ∧
  (∀ (b : Nat) (s : State), inTx s = false → b < barCount s → (barGet s b).closed = false → s.g.cntC < 63 →
    copyQueueFull s s.g = false →
    ((barGet s b).pending ≠ 0 → ∃ t, exec (.cpClose b) s = .next t ∧ t.g.cntC = s.g.cntC + 1 ∧ (barGet t b).closed = true ∧
      (barGet t b).pending = (barGet s b).pending ∧ (barGet t b).arrived = (barGet s b).arrived ∧ Kept s t) ∧
    ((barGet s b).pending = 0 → (barGet s b).arrived + 1 < (barGet s b).expected →
      ∃ t, exec (.cpClose b) s = .next t ∧ t.g.cntC = s.g.cntC ∧ (barGet t b).closed = false ∧
        (barGet t b).arrived = (barGet s b).arrived + 1 ∧ Kept s t))

/-- R159, R277, R333, R334: a transfer moves its bytes, its barrier register's pending bytes and C fall, and the copy ends with its
last lane. Stated for copies of one lane between memory and core store, whose lines are ready and not poisoned. -/
def Obligations.CopiesTransfer : Prop :=
  ∀ (s : State) (g : Machine.Group) (c : Copy) (l : CopyLane) (f : Leaf) (off : Nat), s.g.gid = 0 → c.gid ≠ 0 →
    s.eng.copies.find? (fun x => x.uid == c.uid) = some c → groupOf? s c.gid = some g → c.suspended = false → c.lanes = [l] →
    l.done = false → l.skip = false → mayStart s g c = true → laneReady s g c l = true → (spanCoreOf? s c.span g.core).isSome → off < 2 ^ 48 →
    (∀ b, c.bar = some b → ∃ x, spanOf? s c.span = some x ∧ b < x.bars.length ∧ (nthD Barrier.zero x.bars b).closed = false) →
    (c.op = .g2s → l.dst = 0xFF01 * 2 ^ 48 + off → accessIn s g.ctx needRd l.src = .ok f → isPoisoned s f.phys = false →
      ∃ t h, exec (.copyTransferWrite c.uid l.lane) s = .next t ∧ groupOf? t c.gid = some h ∧ h.cntC = g.cntC - 1 ∧
        (∀ a, storeByte t c.span g.core a =
          if off ≤ a ∧ a < off + c.z then rdByte s (f.phys + (a - off)) else storeByte s c.span g.core a) ∧
        t.eng.copies = s.eng.copies.filter (fun x => x.uid != c.uid) ∧ t.mem = s.mem ∧ t.wq = s.wq ∧ h.regs = g.regs ∧
        ∀ b x, c.bar = some b → spanOf? t c.span = some x →
          ∀ y, spanOf? s c.span = some y → (nthD Barrier.zero x.bars b).pending = (nthD Barrier.zero y.bars b).pending - c.z) ∧
    (c.op = .s2g → l.src = 0xFF01 * 2 ^ 48 + off → accessIn s g.ctx needW l.dst = .ok f → isPoisoned s f.phys = false →
      storePoisoned s c.span g.core off c.z = false → actingHome s f = none → l.dst % 128 + c.z ≤ 128 → f.phys % 128 = l.dst % 128 →
      l.dst < 2 ^ 56 →
      ∃ t h, exec (.copyTransferWrite c.uid l.lane) s = .next t ∧ groupOf? t c.gid = some h ∧ h.cntC = g.cntC - 1 ∧
        (∀ a, rdByte t a = if f.phys ≤ a ∧ a < f.phys + c.z then storeByte s c.span g.core (off + (a - f.phys)) else rdByte s a) ∧
        t.eng.copies = s.eng.copies.filter (fun x => x.uid != c.uid) ∧ h.regs = g.regs)

/-- R168 to R174: reservations are made, changed, read and released; no other reservation changes. An identical pres and a prel of
a free handle do nothing; a pset whole that changes only korg waits for nothing and clears nothing, and any other clears the
elements, keeping the counts where the format stays. -/
def Obligations.ReservationsChange : Prop :=
  ∀ (n e : Nat) (s : State), inTx s = false → (spanCoreOf? s s.g.span s.g.core).isSome →
    (hazard s [] [e, e + 1] = false → heldRes? s n = none → PairFits s n e →
      ∃ t, exec (.pres n e) s = .next t ∧ OnlyRes s t n (some ⟨n, sGet s e, sGet s (e + 1), [], []⟩)) ∧
    (∀ r, hazard s [] [e, e + 1] = false → heldRes? s n = some r → r.word0 = sGet s e → r.word1 = sGet s (e + 1) →
      exec (.pres n e) s = .next s) ∧
    (∀ r, hazard s [] [e, e + 1] = false → heldRes? s n = some r → PairFits s n e →
      KorgOnly (sGet s e) (sGet s (e + 1)) r.word0 r.word1 →
      ∃ t, exec (.pset n 0 e) s = .next t ∧ OnlyRes s t n (some { r with word0 := sGet s e })) ∧
    (∀ r, hazard s [] [e, e + 1] = false → heldRes? s n = some r → resBusy s n = false → PairFits s n e →
      ¬ KorgOnly (sGet s e) (sGet s (e + 1)) r.word0 r.word1 → (r.blocks.map Prod.fst).Nodup →
      ∃ t r', exec (.pset n 0 e) s = .next t ∧ OnlyRes s t n (some r') ∧ r'.word0 = sGet s e ∧ r'.word1 = sGet s (e + 1) ∧
        r'.image = [] ∧ ∀ m b, r'.block m b =
          if (resRec (sGet s e) (sGet s (e + 1))).fmt = r.record.fmt then
            { Block.zero with under := (r.block m b).under, align := (r.block m b).align }
          else Block.zero) ∧
    (∀ r, hazard s [] [e] = false → heldRes? s n = some r →
      ∃ t r', exec (.pset n 1 e) s = .next t ∧ OnlyRes s t n (some r') ∧ r'.record.korg = (sGet s e).toNat % 64 ∧
        r'.word1 = r.word1 ∧ r'.image = r.image ∧ r'.blocks = r.blocks) ∧
    (∀ r, hazard s [] [e, e + 1] = false → heldRes? s n = some r →
      exec (.pset n 2 e) s = .next (sSet (e + 1) r.word1 (sSet e r.word0 s))) ∧
    ((heldRes? s n).isSome → resBusy s n = false →
      ∃ t, exec (.prel n) s = .next t ∧ OnlyRes s t n none) ∧
    (heldRes? s n = none → exec (.prel n) s = .next s)

/-- R163, R166, R178 to R190: every matrix word that has room enters its core's queue with what it captures at issue. -/
def Obligations.MatrixWordsGoOut : Prop :=
  (∀ (t : Nat) (s : State), TileRoom s → t < tileCount s → ∃ u, exec (.mzero t) s = .next u ∧ TileSent s u (.mzero t) true) ∧
  (∀ (t ha hb n : Nat) (s : State) (a b : Reservation), TileRoom s → t < tileCount s → heldRes? s ha = some a → heldRes? s hb = some b →
    pairBad a.record b.record n = false →
    (a.record.fmt ≤ 12 → b.record.fmt ≤ 12 → b.record.fmt ≠ 1 →
      ∃ u, exec (.mmk t ha hb n) s = .next u ∧ TileSent s u (.mmk t ha hb a.word0 a.word1 b.word0 b.word1 n) true) ∧
    (13 ≤ a.record.fmt → a.record.fmt ≤ 16 → b.record.fmt ∈ [2, 4, 5, 6, 7] → b.record.tl = true →
      ∃ u, exec (.mlut t ha hb n) s = .next u ∧ TileSent s u (.mlut t ha hb a.word0 a.word1 b.word0 b.word1 n) true)) ∧
  (∀ (hb n : Nat) (s : State) (b : Reservation), TileRoom s → heldRes? s hb = some b → b.record.roleB = true → b.record.tl = true →
    16 * (b.record.korg + n) ≤ 1024 → ∃ u, exec (.mtab hb n) s = .next u ∧ TileSent s u (.mtab hb b.word0 b.word1 n) false) ∧
  (∀ (t d g : Nat) (s : State), TileRoom s → t < tileCount s → d + 8 ≤ s.g.nregs → s.g.live ≤ d → hazard s (regSpan d 8) [] = false →
    ∃ u, exec (.mdrain t d g) s = .next u ∧ TileSent s u (.mdrain t d g) false) ∧
  (∀ (t int fmt d m : Nat) (s : State) (as : List (Nat × Nat × Nat)), TileRoom s → t < tileCount s → d + 4 ≤ s.g.nregs →
    hazard s (regSpan d 4) [] = false → poisonedLane s (regSpan d 4) = none → drainAddrs s d fmt m (lanesOf s.sp.em) = .ok as →
    ∃ u ea sa, exec (.mdrainMx t int fmt d m) s = .next u ∧
      TileSent s u (.mdrainMx t d fmt m (int == 1) (tileOf s s.g.span s.g.core t).mode (tileOf s s.g.span s.g.core t).off ea sa) true ∧
      (∀ p ∈ as, mapGet 0 ea p.1 = vGet64 s d p.1 ∧ mapGet 0 sa p.1 = vGet64 s (d + 2) p.1)) ∧
  (∀ (t e a : Nat) (s : State), TileRoom s → t < tileCount s → hazard s [] [e] = false → tileAddr s e = .ok a →
    (∃ u, exec (.msave t e) s = .next u ∧ TileSent s u (.msave t a) false) ∧
    ∃ u, exec (.mload t e) s = .next u ∧ TileSent s u (.mload t a) true) ∧
  (∀ (hi n k d : Nat) (s : State) (r : Reservation), TileRoom s → d + 1 ≤ s.g.nregs → s.g.live ≤ d → hazard s [d] [] = false →
    heldRes? s n = some r → (hi = 1 → r.record.roleB = true) →
    ∃ u, exec (.mstatBlock hi n k d) s = .next u ∧ TileSent s u (.mstatBlock n k (hi == 1) d) false) ∧
  (∀ (t d : Nat) (s : State), TileRoom s → t < tileCount s → d + 1 ≤ s.g.nregs → s.g.live ≤ d → hazard s [d] [] = false →
    ∃ u, exec (.mstatTile t d) s = .next u ∧ TileSent s u (.mstatTile t d) false) ∧
  (∀ (t thr d : Nat) (s : State), TileRoom s → t < tileCount s → hazard s [] [d] = false →
    ∃ u, exec (.msuggest t thr d) s = .next u ∧ TileSent s u (.msuggest t thr d) false) ∧
  (∀ (t mode off : Nat) (s : State), inTx s = false → t < tileCount s →
    ∃ u, exec (.mscaleImm t mode off) s = .next u ∧ { u with spans := s.spans } = s ∧
      tileOf u s.g.span s.g.core t = { tileOf s s.g.span s.g.core t with mode := (mode == 1), off := toSigned 4 off }) ∧
  (∀ (t mode e : Nat) (s : State), inTx s = false → t < tileCount s → hazard s [] [e] = false → s.sp.kept ≤ s.sp.replay →
    s.iss.stalled = false →
    ∃ u, exec (.mscaleReg t mode e) s = .next u ∧ { u with spans := s.spans, sp := s.sp } = s ∧ u.sp.replay = s.sp.replay + 1 ∧
      let x := tileOf s s.g.span s.g.core t
      tileOf u s.g.span s.g.core t = { x with mode := (mode == 1), off := max (-8) (min 7 (x.off + (sGet s e).toInt)) })

/-- R58, R59, R163, R178, R179, R182, R188, R189: the head of a core's queue is carried out: a product of integer formats is added
to every element of the tile's active rows, rows are zeroed, rows and counts are read into registers. -/
def Obligations.TileOperationsComplete : Prop :=
  ∀ (s : State) (g : Machine.Group) (c : TileCmd),
    (∀ t ha hb a0 a1 b0 b1 n a b, c.op = .mmk t ha hb a0 a1 b0 b1 n → TileHead s g c t → resOf? s c.span c.core ha = some a →
      resOf? s c.span c.core hb = some b → (resRec a0 a1).fmt ∈ [0, 2] → (resRec b0 b1).fmt ∈ [0, 2] →
      ((resRec a0 a1).korg + (resRec b0 b1).korg) % 2 = 0 → (resRec b0 b1).mext ≤ 64 →
      (tileOf s c.span c.core t).poison = [] → (∀ p ∈ a.blocks ++ b.blocks, p.2.poison = false ∧ ∀ k ∈ p.2.classes, k.2 = .zero) →
      ∃ u h, exec (.tileOpComplete c.die c.core) s = .next u ∧ TileDone s u g h c ∧ h.regs = g.regs ∧
        ∀ row col, col < 64 → mapGet 0 (tileOf u c.span c.core t).elems (row * 64 + col) =
          let old := mapGet 0 (tileOf s c.span c.core t).elems (row * 64 + col)
          if row < 32 ∧ inMask c.em row ∧ row < (resRec a0 a1).mext ∧ col < (resRec b0 b1).mext then
            BitVec.ofInt 32 (old.toInt + stepSum (resRec a0 a1) (resRec b0 b1) a b n row col)
          else old) ∧
    (∀ t, c.op = .mzero t → TileHead s g c t →
      ∃ u h, exec (.tileOpComplete c.die c.core) s = .next u ∧ TileDone s u g h c ∧ h.regs = g.regs ∧ h.flags = g.flags ∧
        ∀ row col, col < 64 → mapGet 0 (tileOf u c.span c.core t).elems (row * 64 + col) =
          if row < 32 ∧ inMask c.em row then 0 else mapGet 0 (tileOf s c.span c.core t).elems (row * 64 + col)) ∧
    (∀ t d gi, c.op = .mdrain t d gi → TileHead s g c t → (tileOf s c.span c.core t).poison = [] →
      ∃ u h, exec (.tileOpComplete c.die c.core) s = .next u ∧ TileDone s u g h c ∧ u.spans = s.spans ∧ h.flags = g.flags ∧
        ∀ r l, l < 32 → gReg h r l = if d ≤ r ∧ r < d + 8 ∧ inMask c.em l then
          mapGet 0 (tileOf s c.span c.core t).elems (l * 64 + 8 * gi + (r - d)) else gReg g r l) ∧
    (∀ t d, c.op = .mstatTile t d → TileHead s g c t →
      ∃ u h, exec (.tileOpComplete c.die c.core) s = .next u ∧ TileDone s u g h c ∧ u.spans = s.spans ∧
        ∀ r l, l < 32 → gReg h r l = if r = d ∧ inMask c.em l then
          BitVec.ofNat 32 (mapGet 0 (tileOf s c.span c.core t).dunder l + mapGet 0 (tileOf s c.span c.core t).dsat l * 2 ^ 8)
          else gReg g r l) ∧
    (∀ t thr d, c.op = .msuggest t thr d → TileHead s g c t →
      let sum (m : SMap Nat) : Nat := ((List.range 32).map (fun r => mapGet 0 m r)).sum
      ∃ u h, exec (.tileOpComplete c.die c.core) s = .next u ∧ TileDone s u g h c ∧ h.regs = g.regs ∧
        ∀ r, mapGet 0 h.sregs r = if r = d then
          (if 0 < sum (tileOf s c.span c.core t).dsat then 1
           else if 2 ^ thr ≤ sum (tileOf s c.span c.core t).dunder then BitVec.allOnes 64 else 0) else mapGet 0 g.sregs r)

/-- R192 to R203: a queue register is bound and unbound; a pushed word is sent to its engine; the oldest entry is taken by a pop or a try,
which answers 0 where there is none; the level word tells what a register holds; and an engine places a command's results and flags. -/
def Obligations.QueuesServeFunctions : Prop :=
  (∀ (q dir k fn : Nat) (s : State), s.sp.kept ≤ s.sp.replay → s.iss.stalled = false → (∀ c ∈ s.eng.fns, c.gid ≠ s.g.gid ∨ c.q ≠ q) →
    exec (.qbind q dir k fn) s = .next { s with
      g := { s.g with queues := s.g.queues.set q ⟨some (fn, k, dir == 1), []⟩ }, sp := { s.sp with replay := s.sp.replay + 1 } } ∧
    exec (.qunbind q) s = .next { s with
      g := { s.g with queues := s.g.queues.set q ⟨none, []⟩ }, sp := { s.sp with replay := s.sp.replay + 1 } }) ∧
  (∀ (a q : Nat) (s : State) (fn k : Nat) (min : Bool), inTx s = false → a + 1 ≤ s.g.nregs → hazard s [a] [] = false →
    poisonedLane s [a] = none → s.sp.kept ≤ s.sp.replay → s.iss.stalled = false → (s.g.queue q).bind = some (fn, k, min) →
    (s.g.queue q).entries.length + placesInFlight s s.g.gid q + (if fn = 7 then 2 else 1) ≤ 8 → fnQueueFull s s.g (fn == 7) = false →
    ∃ t c, exec (.qpush a q) s = .next t ∧
      t = { s with eng := { s.eng with fns := s.eng.fns ++ [c] }, uid := s.uid + 1, sp := { s.sp with replay := s.sp.replay + 1 } } ∧
      c.gid = s.g.gid ∧ c.die = s.g.die ∧ c.quad = s.g.core / 4 ∧ c.q = q ∧ c.fn = fn ∧ c.k = k ∧ c.min = min ∧ c.em = s.sp.em ∧
      ∀ l, l < 32 → mapGet 0 c.vals l = vGet s a l) ∧
  (∀ (d q m : Nat) (s : State) (e : QEntry), d + 1 ≤ s.g.nregs → s.g.live ≤ d → hazard s [d] [] = false → (s.g.queue q).bind.isSome →
    (s.g.queue q).oldest = some e → (s.g.queue q).entries.Pairwise (fun x y => x.seq ≠ y.seq) →
    (inTx s = false → ∃ t, exec (.qpop d q) s = .next t ∧ TakesEntry s t q d e s.g.kregs) ∧
    ∃ t, exec (.qtry d q m) s = .next t ∧ TakesEntry s t q d e (mapSet 0 s.g.kregs m s.sp.em)) ∧
  (∀ (d q m : Nat) (s : State), d + 1 ≤ s.g.nregs → s.g.live ≤ d → hazard s [d] [] = false → (s.g.queue q).bind.isSome →
    (s.g.queue q).oldest = none → exec (.qtry d q m) s = .next (kSet m 0 s)) ∧
  (∀ (d q fn k : Nat) (min : Bool) (s : State), hazard s [] [d] = false → (s.g.queue q).bind = some (fn, k, min) →
    ∃ t, exec (.qlevel d q) s = .next t ∧ ScalarWrites s t d (BitVec.ofNat 64
      ((s.g.queue q).entries.countP (fun e => e.taken.isNone) + placesInFlight s s.g.gid q * 2 ^ 4 +
        (s.g.queue q).entries.countP (fun e => e.taken.isSome) * 2 ^ 8 + fn * 2 ^ 12 + k * 2 ^ 16 + (if min then 2 ^ 22 else 0)))) ∧
  (∀ (s : State) (g : Machine.Group) (c : FnCmd) (select : Bool), s.g.gid = 0 → c.gid ≠ 0 → groupOf? s c.gid = some g → g.stopped = false →
    g.residence = .resident → c.q < g.queues.length →
    s.eng.fns.find? (fun x => x.die == c.die && x.quad == c.quad && ((x.fn == 7) == select)) = some c →
    ∃ t h, exec (if select then .selectResultPlace c.die c.quad else .functionResultPlace c.die c.quad) s = .next t ∧
      groupOf? t c.gid = some h ∧ h.flags = g.flags ||| (fnResults c).2 ∧ h.regs = g.regs ∧ h.sregs = g.sregs ∧ h.kregs = g.kregs ∧
      (∃ es, (h.queue c.q).entries = (g.queue c.q).entries ++ es ∧ es.map (fun e => e.data) = (fnResults c).1 ∧
        (∀ e ∈ es, e.taken = none ∧ ∀ o ∈ (g.queue c.q).entries, o.seq < e.seq) ∧ es.Pairwise (fun x y => x.seq < y.seq)) ∧
      (∀ q, q ≠ c.q → h.queue q = g.queue q) ∧ t.eng.fns = s.eng.fns.filter (fun x => x.uid != c.uid) ∧ t.mem = s.mem ∧ t.wq = s.wq)

namespace Sys2Proof.Claims

open Sys2Proof Sys2Proof.Machine

/-! Barriers, waits, fences, transactions, branches and system words (R207 to R230, R238 to R243). -/

/-- The group in focus has nothing outstanding to memory: no load, no atomic, no store, and no copy that a write of it invalidates. -/
def Quiet (s : State) : Prop :=
  (∀ d ∈ s.ms.loads, d.gid ≠ s.g.gid) ∧ (∀ e ∈ s.ms.entries, e.gid ≠ s.g.gid) ∧ (∀ a ∈ s.ms.atoms, a.gid ≠ s.g.gid) ∧
    ∀ v ∈ s.ms.invals, v.writer.gid ≠ s.g.gid

/-- R212 to R215: a barrier word of the group in focus may be executed. -/
def BarReady (s : State) (n : Nat) : Prop :=
  n < barCount s ∧ splitCount s ≤ 1 ∧ (barGet s n).expected ≠ 0

/-- R282: the core of the group in focus holds no line in its L1. -/
def NoL1 (s t : State) : Prop := ∀ x ∈ t.ms.l1, ¬(x.die = s.g.die ∧ x.core = s.g.core)

/-- R215: the barrier words at core and quad scope. -/
def barRows : List ((Nat → Instr) × Scope) := [(.barCore, .core), (.barQuad, .quad)]

/-- R218: the hardware barriers. -/
def hwBarRows : List (Instr × Nat × Scope) := [(.barDie, 3, .die), (.barPkg, 4, .pkg), (.barPod, 5, .pod)]

/-- R84, R207: the address a branch with a word offset goes to. -/
def target (s : State) (off : Nat) : Nat := ((s.iss.clause : Int) + 4 * toSigned 16 off).toNat

/-- R207: the split in focus goes on at a clause. -/
def jumped (s : State) (a : Nat) : State := { s with sp := { s.sp with pc := a, widx := 0 } }

/-- R220: slot n of the group in focus is armed with a condition under its next generation. -/
def Armed (s t : State) (n : Nat) (c : Cond) : Prop :=
  ∃ x, t.g.slots[n]? = some x ∧ x.st = .armed ∧ x.cond = c ∧ x.forced = false ∧ x.gen = ((s.g.slot n).gen + 1) % 256 ∧ x.answered = false

/-- R220, R326: its registration is on its way to its home. -/
def Registers (s t : State) (n : Nat) (addr cmp : Nat) (x : W64) (w64 isWaitu region : Bool) : Prop :=
  ∃ r ∈ t.wat.regs, r.gid = s.g.gid ∧ r.split = s.sp.num ∧ r.slot = n ∧ r.gen = ((s.g.slot n).gen + 1) % 256 ∧ r.addr = addr ∧
    r.cmp = cmp ∧ r.x = x ∧ r.w64 = w64 ∧ r.isWaitu = isWaitu ∧ r.region = region

/-- R30: the special registers that are read into a scalar, by number, with their values. -/
def specialRows : List (Nat × (State → Nat)) :=
  let dim (f : Launch → Nat) (s : State) : Nat := ((launchOf? s).map f).getD 1
  let lin (s : State) : Nat := ((spanOf? s s.g.span).map (fun x => x.lin)).getD 0
  [(1, fun s => s.g.index), (2, fun s => lin s % dim Launch.vdx s), (3, fun s => lin s / dim Launch.vdx s % dim Launch.vdy s),
   (4, fun s => lin s / (dim Launch.vdx s * dim Launch.vdy s)), (5, dim Launch.vdx), (6, dim Launch.vdy), (7, dim Launch.vdz),
   (8, fun s => s.g.core), (9, fun s => s.g.core / 4), (10, fun s => s.g.die), (11, fun s => s.pkg), (12, fun s => s.tick),
   (13, fun s => s.g.ctx), (14, fun s => ((ctxOf? s s.g.ctx).map (fun c => c.owner)).getD 0), (15, fun s => s.g.txstat.toNat),
   (16, fun s => s.g.wstat.toNat), (18, fun s => s.g.trapinfo.toNat), (19, fun s => s.g.fmode.toNat), (20, fun s => s.g.flags.toNat),
   (22, fun s => s.g.cntT * 2 ^ 24 + s.g.cntC * 2 ^ 16 + s.g.cntS * 2 ^ 8 + s.g.cntL), (23, fun s => s.g.live)]

end Sys2Proof.Claims

open Sys2Proof Sys2Proof.Machine Sys2Proof.Claims

/-- R213 to R218, R262, R282: a barrier word of a group with nothing outstanding arrives: it waits for the phase, or as the last
arrival flips it and goes on, past an acquire; a hardware barrier counts the group and completes when all its members have
arrived (the release of the waiters is stated for a viaduct of one group). -/
def Obligations.BarriersArrive : Prop :=
  (∀ row ∈ barRows, ∀ (n : Nat) (s : State), BarReady s n → inTx s = false → Quiet s →
    ((barGet s n).arrived + 1 ≠ (barGet s n).expected → ∃ t, exec (row.1 n) s = .next t ∧ Kept s t ∧
      barGet t n = { barGet s n with arrived := (barGet s n).arrived + 1 } ∧
      t.sp.pend = [.barWait n (barGet s n).phase, .acquire row.2]) ∧
    ((barGet s n).arrived + 1 = (barGet s n).expected → ∃ t, exec (row.1 n) s = .next t ∧ Kept s t ∧
      barGet t n = { barGet s n with arrived := 0, phase := !(barGet s n).phase } ∧ t.sp.pend = [] ∧ (row.2 = .quad → NoL1 s t))) ∧
  (∀ row ∈ hwBarRows, ∀ (s : State) (v : Viaduct), viaductOf? s s.g.viaduct = some v → v.launch.coop = true → inTx s = false →
    splitCount s ≤ 1 → Quiet s → ∃ t w, exec row.1 s = .next t ∧ Kept s t ∧ viaductOf? t s.g.viaduct = some w ∧
      (hwBarOf w row.2.1 s.g.die).arrived = (hwBarOf v row.2.1 s.g.die).arrived ++ [s.g.gid] ∧
      t.sp.pend = [.hwWait row.2.1 (hwBarOf v row.2.1 s.g.die).phases, .acquire row.2.2]) ∧
  (∀ (s : State) (v : Viaduct) (g : Machine.Group) (p : Split) (level die : Nat) (sc : Scope), s.Settled →
    viaductOf? s v.uid = some v → s.groups = [g] → g.gid ≠ 0 → g.viaduct = v.uid → g.die = die → g.exited = false →
    g.residence = .resident → g.splits = [p] →
    p.member ≠ 0 → g.gid ∈ (hwBarOf v level die).arrived →
    p.pend = [.hwWait level (hwBarOf v level die).phases, .acquire sc] →
    (level = 5 → ∀ o ∈ otherPackages s v, o ∈ (hwBarOf v level die).away) →
    ∃ t w h q, exec (.hwBarrierComplete v.uid level die) s = .next t ∧ viaductOf? t v.uid = some w ∧
      (hwBarOf w level die).arrived = [] ∧ (hwBarOf w level die).away = [] ∧ (hwBarOf w level die).phases = (hwBarOf v level die).phases + 1 ∧
      t.groups = [h] ∧ h.splits = [q] ∧ q.pend = [] ∧ h.regs = g.regs ∧ h.sregs = g.sregs)

/-- R213, R216, R217: the other barrier words: an expected count is set; an arrival whose release is over answers the phase it saw, and
the last one flips it; one whose split has an earlier load outstanding waits while the split goes on; a remote arrival reaches a span
of the quad; and a wait goes on once the phase differs from its operand. -/
def Obligations.BarrierWords : Prop :=
  (∀ (n c : Nat) (s : State), n < barCount s → (barGet s n).arrived = 0 →
    ∃ t, exec (.bexp n c) s = .next t ∧ barGet t n = { barGet s n with expected := c } ∧ (∀ m, m ≠ n → barGet t m = barGet s m) ∧
      { t with spans := s.spans } = s) ∧
  (∀ (n d : Nat) (s : State), BarReady s n → hazard s [] [d] = false → Quiet s → s.g.arrivals = [] →
    ((barGet s n).arrived + 1 ≠ (barGet s n).expected →
      ∃ t, exec (.arrive n d) s = .next t ∧ sGet t d = (if (barGet s n).phase then 1 else 0) ∧ (∀ r, r ≠ d → sGet t r = sGet s r) ∧
        barGet t n = { barGet s n with arrived := (barGet s n).arrived + 1 } ∧
        { t with spans := s.spans, g := { t.g with sregs := s.g.sregs } } = s) ∧
    ((barGet s n).arrived + 1 = (barGet s n).expected →
      ∃ t, exec (.arrive n d) s = .next t ∧ sGet t d = (if (barGet s n).phase then 1 else 0) ∧ (∀ r, r ≠ d → sGet t r = sGet s r) ∧
        barGet t n = { barGet s n with arrived := 0, phase := !(barGet s n).phase } ∧ t.mem = s.mem ∧ t.wq = s.wq)) ∧
  (∀ (n d : Nat) (s : State), BarReady s n → hazard s [] [d] = false →
    (s.g.arrivals ≠ [] ∨ ∃ x ∈ s.ms.loads, x.gid = s.g.gid ∧ x.split = s.sp.num ∧ x.uid < s.sp.bndUid) →
    exec (.arrive n d) s = .next { s with g := { s.g with
      arrivals := s.g.arrivals ++ [⟨s.sp.num, s.iss.clause, s.iss.word, s.g.span, n, some d, s.sp.bndUid⟩] } }) ∧
  (∀ (n a : Nat) (s : State) (x : Span) (b : Barrier), splitCount s ≤ 1 → hazard s [] [a] = false → Quiet s → s.g.arrivals = [] →
    remoteSpan? s ((sGet s a).toNat % 2 ^ 32) = some x → spanOf? s x.uid = some x → x.bars[n]? = some b → b.expected ≠ 0 →
    b.arrived + 1 ≠ b.expected →
    ∃ t y, exec (.arriveRemote n a) s = .next t ∧ spanOf? t x.uid = some y ∧ y.bars = x.bars.set n { b with arrived := b.arrived + 1 } ∧
      { t with spans := s.spans } = s) ∧
  (∀ (n a : Nat) (s : State), n < barCount s → inTx s = false → hazard s [] [a] = false → CanEnd s →
    let waits := (barGet s n).phase == bitOf (sGet s a).toNat 0
    ∃ t, exec (.bwait n a) s = .next t ∧ Kept s t ∧ barGet t n = barGet s n ∧
      t.sp.pend = (if waits then [.barWait n (barGet s n).phase, .acquire .quad] else []) ∧ (waits = false → NoL1 s t))

/-- R219 to R222, R326, R332: a slot is armed with a condition; one that the condition monitor evaluates fires at once where it
holds. -/
def Obligations.SlotsArm : Prop :=
  (∀ (n a b cmp w64 : Nat) (s : State), n < s.g.slots.length → w64 ≤ 1 → hazard s [] [a, b] = false → bitsOf (sGet s a).toNat 63 56 = 0 →
    (sGet s a).toNat % (4 * (w64 + 1)) = 0 → (∃ l, accessIn s s.g.ctx needRd (sGet s a).toNat = .ok l) →
    let c : Cond := .word (sGet s a).toNat cmp (sGet s b) (w64 == 1)
    (∃ t, exec (.watch n a b cmp w64) s = .next t ∧ Kept s t ∧ Armed s t n c ∧
      Registers s t n (sGet s a).toNat cmp (sGet s b) (w64 == 1) false true) ∧
    (inTx s = false → CanEnd s → hazard s [] [a, b, b + 1] = false → n < 4 →
      ∃ t d, exec (.waitu n a b cmp w64) s = .next t ∧ Kept s t ∧ Armed s t n c ∧
        Registers s t n (sGet s a).toNat cmp (sGet s b) (w64 == 1) true false ∧
        d = (if sGet s (b + 1) = BitVec.allOnes 64 then none else some (s.tick + (sGet s (b + 1)).toNat)) ∧
        t.sp.pend = [.slotWait (2 ^ n) false d, .acquire .pod])) ∧
  (∀ (n kind idx b : Nat) (s : State), n < 4 → s.g.slots.length = 4 → kind ≤ 3 → hazard s [] [b] = false → s.g.gid ≠ 0 →
    s.g.residence = .resident → (kind = 0 → idx < barCount s) → (kind = 1 → windowBound s idx = true) →
    (kind = 2 → (s.g.queue idx).bind.isSome) →
    let holds : Bool :=
      match kind with
      | 0 => (barGet s idx).phase != bitOf (sGet s b).toNat 0
      | 1 => ((s.fab.windows.find? (fun w => w.die == s.g.die && w.ctx == s.g.ctx && w.idx == idx)).map
          (fun w => decide ((w.target + 2 ^ 32 - (lowWord (sGet s b)).toNat) % 2 ^ 32 < 2 ^ 31))).getD false
      | 2 => (s.g.queue idx).entries.any (fun e => e.taken.isNone)
      | _ => decide ((lowWord (sGet s b)).toNat ≤ poolFree s s.g.die s.g.ctx)
    ∃ t x, exec (.cond n kind idx b) s = .next t ∧ Kept s t ∧ t.g.slots[n]? = some x ∧ x.st = (if holds then .fired else .armed) ∧
      x.gen = ((s.g.slot n).gen + 1) % 256 ∧ x.forced = false)

/-- R20, R221 to R225: waits and fences. A wait whose condition holds goes on, and one whose condition does not holds the split. -/
def Obligations.WaitsHold : Prop :=
  (∀ (mask all t : Nat) (s : State), mask ≠ 0 → inTx s = false → hazard s [] [t] = false → CanEnd s →
    (∃ i ∈ namedSlots mask, (s.g.slot i).st ≠ .empty) →
    let named := (namedSlots mask).filter (fun i => (s.g.slot i).st != .empty)
    let fired : Nat → Bool := fun i => (s.g.slot i).st == .fired
    (((all = 1 ∧ ∀ i ∈ named, fired i) ∨ (all ≠ 1 ∧ ∃ i ∈ named, fired i)) →
      ∃ u, exec (.waitv mask all t) s = .next u ∧ u.sp.pend = [] ∧ NoL1 s u ∧ u.mem = s.mem ∧ u.wq = s.wq ∧ u.g.regs = s.g.regs ∧
        u.g.sregs = s.g.sregs ∧ (∀ i, i < 4 → bitOf u.g.wstat.toNat i = (named.any (fun k => k == i) && fired i)) ∧
        (∀ i, i < 4 → i < s.g.slots.length → (u.g.slot i).st = if i ∈ named ∧ fired i then .empty else (s.g.slot i).st) ∧
        bitOf u.g.wstat.toNat 8 = false) ∧
    (¬((all = 1 ∧ ∀ i ∈ named, fired i) ∨ (all ≠ 1 ∧ ∃ i ∈ named, fired i)) → sGet s t = BitVec.allOnes 64 →
      ∃ u, exec (.waitv mask all t) s = .next u ∧ Kept s u ∧ u.sp.pend = [.slotWait mask (all == 1) none, .acquire .pod])) ∧
  (∀ (l st c t : Nat) (s : State),
    let met := (l = 15 ∨ s.g.cntL ≤ l) ∧ (st = 15 ∨ s.g.cntS ≤ st) ∧ (c = 15 ∨ s.g.cntC ≤ c) ∧ (t = 15 ∨ s.g.cntT ≤ t)
    (met → ∃ u, exec (.wait l st c t) s = .next u ∧ Kept s u ∧ u.sp.pend = []) ∧
    (¬met → ∃ u, exec (.wait l st c t) s = .next u ∧ Kept s u ∧ u.sp.pend = [.counters l st c t])) ∧
  (∀ (p q scope : Nat) (s : State), (bitOf p 1 = true → inTx s = false) → Quiet s → s.g.cntL = 0 → s.g.cntC = 0 → s.g.cntT = 0 →
    ∃ u, exec (.fence p q scope) s = .next u ∧ Kept s u ∧ u.sp.pend = [] ∧ (bitOf p 0 = true → 2 ≤ scope → NoL1 s u)) ∧
  (∀ (n : Nat) (s : State), inTx s = false → n ≤ s.g.nregs → (n = s.g.live ∨ splitCount s ≤ 1) → CanEnd s →
    (∀ r ∈ pendingV s none, n ≤ r) →
    ∃ u, exec (.commit n) s = .next u ∧ Kept s u ∧ u.sp.pend = [] ∧ u.g.live = n ∧
      ∀ e ∈ u.ms.entries, ¬(e.gid = s.g.gid ∧ e.split = s.sp.num ∧ e.st = .opened)) ∧
  (∀ (s : State), exec .beat s = .next { s with sp := { s.sp with beats := s.sp.beats + 1 } }) ∧
  (∀ (a : Nat) (s : State), hazard s [] [a] = false →
    exec (.beatReg a) s = .next { s with sp := { s.sp with beats := s.sp.beats + min (sGet s a).toNat (2 ^ 24 - 1) } })

/-- R226 to R228: a transaction begins with the active lanes, sends its log and writes at its end, and is given up by an abort with
its code. -/
def Obligations.TransactionWords : Prop :=
  (∀ (s : State), inTx s = false → s.g.tx = none → Quiet s →
    ∃ u t, exec .txBegin s = .next u ∧ Kept s u ∧ u.sp.pend = [] ∧ u.g.tx = some t ∧ t.split = s.sp.num ∧ t.mask = s.sp.em ∧ t.log = [] ∧
      t.writes = [] ∧ t.failed = [] ∧ t.phase = .running) ∧
  (∀ (s : State) (t : Tx), s.g.tx = some t → t.split = s.sp.num → t.phase = .running → CanEnd s → t.serial = 0 →
    (∀ d ∈ s.ms.loads, d.gid ≠ s.g.gid) → (∀ a ∈ t.log.map (fun e => e.2.1) ++ t.writes.map (fun w => w.2.1 / 8 * 8), ∀ f,
      accessIn s s.g.ctx ⟨false, false, false⟩ a = .ok f → isPoisoned s f.phys = false) →
    ∃ u x, exec .txEnd s = .next u ∧ Kept s u ∧ u.sp.pend = [.txWait, .boundary] ∧ u.g.tx = some x ∧ x.phase = .sent ∧ x.mask = t.mask ∧
      x.log = t.log ∧ x.writes = t.writes) ∧
  (∀ (c : Nat) (s : State) (t : Tx), s.g.tx = some t → t.split = s.sp.num → t.phase ≠ .ended → t.mask ≠ 0 →
    ∃ u, exec (.txAbort c) s = .next u ∧ inTx u = false ∧ kGet u 7 = 0 ∧ (∀ k, k ≠ 7 → kGet u k = kGet s k) ∧
      bitsOf u.g.txstat.toNat 31 0 = 0 ∧ bitsOf u.g.txstat.toNat 35 32 = 5 ∧ bitsOf u.g.txstat.toNat 47 40 = c % 256 ∧
      (∀ e ∈ u.ms.entries, ¬(e.gid = s.g.gid ∧ e.tx = true)) ∧ u.g.regs = s.g.regs ∧ u.g.sregs = s.g.sregs ∧ u.sp = s.sp ∧
      u.mem = s.mem ∧ u.wq = s.wq)

/-- R229, R230, R365: a wait for quiescence holds its split, and ends with 0 when the idle tree of the package has stayed high
for 2048 clk, or that of the pod for its worst-case transit, and with 1 at its deadline. -/
def Obligations.QuiescenceEnds : Prop :=
  (∀ (t d : Nat) (s : State), mayQuiesce s = true → hazard s [] [t, d] = false →
    (exec (.quiescePkg t d) s = .next { s with sp := { s.sp with
      pend := [.quiesce false d (s.tick + (sGet s t).toNat)], pendAt := (s.iss.clause, s.iss.word) } }) ∧
    exec (.quiescePod t d) s = .next { s with sp := { s.sp with
      pend := [.quiesce true d (s.tick + (sGet s t).toNat)], pendAt := (s.iss.clause, s.iss.word) } }) ∧
  (∀ (s u : State) (gid num d dl : Nat) (pod : Bool), At s gid num u → u.sp.pend = [.quiesce pod d dl] →
    (packageIdle u = true → (pod = false → highFor u u.dev.idleFrom 2048 = true) →
      (pod = true → u.dev.podBusy = [] ∧ highFor u u.dev.podFrom (2 * Config.podTransit + 2048) = true) → ∃ v, exec (.quiesceIdleComplete gid num) s = .next (unfocus v) ∧ sGet v d = 0 ∧ v.sp.pend = [] ∧
      (∀ r, r ≠ d → sGet v r = sGet u r) ∧ v.g.regs = u.g.regs ∧ v.mem = s.mem ∧ v.wq = s.wq) ∧
    (dl ≤ s.tick → ∃ v, exec (.quiesceTimeout gid num) s = .next (unfocus v) ∧ sGet v d = 1 ∧ v.sp.pend = [] ∧
      (∀ r, r ≠ d → sGet v r = sGet u r) ∧ v.g.regs = u.g.regs ∧ v.mem = s.mem ∧ v.wq = s.wq))

/-- R66, R72, R84, R207: branches, calls and returns to a clause change the PC, and a call its link register, and nothing else. -/
def Obligations.BranchesJump : Prop :=
  (∀ (off : Nat) (s : State), s.iss.clause < 2 ^ 56 → 0 ≤ (s.iss.clause : Int) + 4 * toSigned 16 off → badTarget s (target s off) = false →
    exec (.br off) s = .next (jumped s (target s off)) ∧
    (∀ c, hazard s [] [c] = false →
      exec (.brz c off) s = .next (if sGet s c = 0 then jumped s (target s off) else s) ∧
      exec (.brnz c off) s = .next (if sGet s c = 0 then s else jumped s (target s off))) ∧
    (∀ k, exec (.bra k off) s = .next
        (if (List.range 32).all (fun l => !inMask s.sp.em l || inMask (maskGet s k) l) then jumped s (target s off) else s) ∧
      exec (.brn k off) s = .next
        (if (List.range 32).all (fun l => !inMask s.sp.em l || !inMask (maskGet s k) l) then jumped s (target s off) else s)) ∧
    (∀ l, hazard s [] [l] = false → badTarget (sSet l (BitVec.ofNat 64 s.sp.pc) s) (target s off) = false →
      exec (.call l off) s = .next (jumped (sSet l (BitVec.ofNat 64 s.sp.pc) s) (target s off)))) ∧
  (∀ (l t : Nat) (s : State), hazard s [] [l, t] = false → badTarget (sSet l (BitVec.ofNat 64 s.sp.pc) s) (sGet s t).toNat = false →
    exec (.callr l t) s = .next (jumped (sSet l (BitVec.ofNat 64 s.sp.pc) s) (sGet s t).toNat)) ∧
  (∀ (t : Nat) (s : State), hazard s [] [t] = false → badTarget s (sGet s t).toNat = false →
    exec (.ret t) s = .next (jumped s (sGet s t).toNat)) ∧
  (∀ (s : State), exec .yield s = .next { s with g := { s.g with yieldMark := true } })

/-- R208 to R211: a split divides where its lanes disagree, an open path is popped or the splits wait at a join, and strands end at
exit. -/
def Obligations.SplitsDivide : Prop :=
  (∀ (k off : Nat) (s : State), inTx s = false → CanEnd s → badTarget s (branchTarget s off) = false → splitCount s < 4 → s.sp.member ≠ 0 →
    s.sp.em &&& maskGet s k ≠ 0 → s.sp.em &&& ~~~ maskGet s k ≠ 0 →
    ∃ t c, exec (.brv k off) s = .next t ∧ Kept s t ∧ t.sp.em = s.sp.em &&& ~~~ maskGet s k ∧ t.sp.member = t.sp.em ∧
      t.sp.pc = s.sp.pc ∧ t.sp.num = s.sp.num ∧ c ∈ t.g.splits ∧ c.em = s.sp.em &&& maskGet s k ∧ c.member = c.em ∧
      c.pc = branchTarget s off ∧ c.num ≠ s.sp.num ∧ (∀ p ∈ s.g.splits, p ∈ t.g.splits ∧ p.num ≠ c.num)) ∧
  (∀ (k off : Nat) (s : State), s.sp.em &&& maskGet s k = 0 → s.sp.em ≠ 0 → exec (.brv k off) s = .next s) ∧
  (∀ (k off : Nat) (s : State), s.sp.em &&& ~~~ maskGet s k = 0 → badTarget s (branchTarget s off) = false →
    exec (.brv k off) s = .next (jumped s (branchTarget s off))) ∧
  (∀ (s : State) (e : PathEntry) (rest : List PathEntry), inTx s = false → CanEnd s → s.sp.stack = e :: rest →
    ∃ t, exec .join s = .next t ∧ Kept s t ∧ t.sp.stack = rest ∧ t.sp.em = e.mask ∧ t.sp.pend = [] ∧
      t.sp.pc = (match e.kind with | .path => e.target | .merge => s.sp.pc)) ∧
  (∀ (s : State), inTx s = false → s.sp.stack = [] → splitCount s ≤ 1 → exec .join s = .next s) ∧
  (∀ (s : State), inTx s = false → CanEnd s → s.sp.stack = [] → 1 < splitCount s → s.g.splits.any (fun p => !p.joining) = true →
    ∃ t, exec .join s = .next t ∧ Kept s t ∧ t.sp.pend = [.joinWait] ∧ t.sp.em = s.sp.em) ∧
  (∀ (s : State), inTx s = false → CanEnd s →
    (s.sp.member &&& ~~~ s.sp.em ≠ 0 → ∃ t, exec .exit s = .next t ∧ Kept s t ∧ t.sp.member = s.sp.member &&& ~~~ s.sp.em ∧
      t.sp.em = t.sp.member ∧ t.g.exited = s.g.exited) ∧
    (s.sp.member &&& ~~~ s.sp.em = 0 → s.g.splits = [] → ∃ t, exec .exit s = .next t ∧ t.sp.member = 0 ∧ t.g.exited = true ∧
      t.g.regs = s.g.regs ∧ t.mem = s.mem ∧ t.wq = s.wq ∧ t.traps = s.traps))

/-- R26 to R31, R85, R203, R238, R239: special registers are read and written, and firmware groups halt and resume. -/
def Obligations.SystemWords : Prop :=
  (∀ row ∈ specialRows, ∀ (r : Nat) (s : State), hazard s [] [r] = false →
    ∃ t, exec (.sreg row.1 r) s = .next t ∧ ScalarWrites s t r (BitVec.ofNat 64 (row.2 s))) ∧
  (∀ (idx r : Nat) (s : State), idx = 0 ∨ idx = 21 → r + 1 ≤ s.g.nregs → s.g.live ≤ r → hazard s [r] [] = false →
    ∃ t, exec (.sreg idx r) s = .next t ∧
      LaneWrites s t r 1 (fun l => plain (if idx = 0 then BitVec.ofNat 32 l else rngGet s l, 0))) ∧
  (∀ (r : Nat) (s : State), hazard s [] [r] = false → (sGet s r).toNat % 8 < 6 →
    exec (.swreg 19 r) s = .next { s with g := { s.g with fmode := BitVec.ofNat 32 ((sGet s r).toNat % 32) } }) ∧
  (∀ (r : Nat) (s : State), hazard s [] [r] = false →
    ∃ t, exec (.swreg 20 r) s = .next t ∧ { t with g := { t.g with flags := s.g.flags } } = s ∧
      ∀ i, i < 16 → t.g.flags.getLsbD i = (s.g.flags.getLsbD i && !(decide (i < 11) && (sGet s r).getLsbD i))) ∧
  (∀ (r : Nat) (s : State), r + 1 ≤ s.g.nregs → hazard s [r] [] = false → poisonedLane s [r] = none →
    ∃ t, exec (.swreg 21 r) s = .next t ∧ { t with g := { t.g with rng := s.g.rng } } = s ∧
      ∀ l, l < 32 → rngGet t l = if inMask s.sp.em l then (if vGet s r l = 0 then 1 else vGet s r l) else rngGet s l) ∧
  (∀ (s : State), isFirmware s = true → s.sp.state = .running → (∀ p ∈ s.g.splits, p.state = .running) →
    let g := { s.g with splits := s.g.splits.map (fun p => { p with state := .halted }) }
    exec .halt s = .next { s with sp := { s.sp with state := .halted }, g := g }) ∧
  (∀ (s : State) (g : Machine.Group) (gid num : Nat), isFirmware s = true → heldSplit s = some (gid, num) → gid ≠ s.g.gid →
    groupOf? s gid = some g →
    let runs (p : Split) : Split := if p.num = num then { p with state := .running, faults := [] } else p
    let gs := s.groups.map (fun g => if g.gid = gid then { g with splits := g.splits.map runs } else g)
    let unpark (v : Viaduct) : Viaduct := if v.st = .debugParked then { v with st := .started, trap := none } else v
    exec .eret s = .next { s with groups := gs, viaducts := updateFirst (fun v => v.uid == g.viaduct) unpark s.viaducts }) ∧
  (∀ (code : Nat) (s : State), debuggerOn s = true → s.sp.state = .running → s.g.splits = [] →
    exec (.brk code) s = .next { s with sp := { s.sp with state := .breaking } }) ∧
  (∀ (s : State) (g : Machine.Group), s.g.gid = 0 → s.groups = [g] → g.gid ≠ 0 →
    let runs (p : Split) : Split := if p.state = .halted then { p with state := .running } else p
    let h : Machine.Group := { g with splits := g.splits.map runs }
    exec (.mailboxDoorbell g.die (g.core / 4)) s = .next { s with groups := [h] }) ∧
  (∀ (s : State) (g : Machine.Group) (v : Viaduct), s.g.gid = 0 → s.groups = [g] → g.gid ≠ 0 → g.viaduct = v.uid → s.viaducts = [v] →
    v.st = .debugParked →
    let runs (p : Split) : Split := if p.state = .debug ∨ p.state = .breaking then { p with state := .running } else p
    let h : Machine.Group := { g with splits := g.splits.map runs }
    let w : Viaduct := { v with st := .started, trap := none }
    exec (.debuggerResume v.uid) s = .next { s with viaducts := [w], groups := [h] })

/-- R239 to R241: a word that traps writes one trap record, with its place, kind, lane, split, group, code, address and tick, and
%trapinfo; without a debugger its viaduct is trapped or already complete, no group of it goes on, and nothing more of it is placed. -/
def Obligations.TrapsStopTheViaduct : Prop :=
  (∀ (code : Nat) (s : State), exec (.trap code) s = .next (takeTrap ⟨.user, none, none, code, none⟩ s)) ∧
  (∀ (code : Nat) (s : State), debuggerOn s = false → exec (.brk code) s = .next (takeTrap ⟨.breakpoint, none, none, code, none⟩ s)) ∧
  (∀ (k : Trap) (s : State), ∃ r, (takeTrap k s).traps = s.traps ++ [r] ∧ r.viaduct = s.g.viaduct ∧
    (r.clause, r.word) = k.place.getD (s.iss.clause, s.iss.word) ∧ r.kind = k.kind ∧ r.lane = k.lane ∧ r.split = some s.sp.num ∧
    r.group = s.g.index ∧ r.code = k.code ∧ r.detail = k.detail ∧ r.tick = s.tick) ∧
  (∀ (k : Trap) (s : State) (v : Viaduct), s.g.gid ≠ 0 → viaductOf? s s.g.viaduct = some v → v.st = .started → debuggerOn s = false →
    v.ctx = s.g.ctx → (∀ g ∈ s.groups, g.gid ≠ s.g.gid) → ∀ g ∈ allGroups (takeTrap k s), g.viaduct = v.uid → g.stopped = true ∧ g.splits = []) ∧
  (∀ (k : Trap) (s : State) (v w : Viaduct), viaductOf? s s.g.viaduct = some v → v.st = .started → debuggerOn s = false → v.ctx = s.g.ctx →
    viaductOf? (takeTrap k s) v.uid = some w → (w.st = .trapped ∨ w.st = .complete) ∧ w.chunks = [] ∧ w.trap.isSome)

namespace Sys2Proof.Claims

open Sys2Proof Sys2Proof.Machine

/-! The fabric and the mordant buffer (R231 to R237, R345 to R363). -/

/-- R232: a lane's target pair passes: an agent of the domain, a window bound in the context, an offset of whole words. -/
def PairOk (s : State) (a l : Nat) (offset : Bool) : Prop :=
  let x := (vGet s a l).toNat
  (bitsOf x 11 0 / 4 = s.pkg ∨ Config.inDomain (bitsOf x 11 0 / 4) = true) ∧
    (windowOf? s s.g.die s.g.ctx (bitsOf x 19 16)).isSome ∧ bitsOf x 15 12 = 0 ∧ bitsOf x 31 20 = 0 ∧
    (offset = true → (vGet s (a + 1) l).toNat % 4 = 0)

/-- R231: a lane's agent, window, offset, data and key, with the target pair in v(a). -/
def pairLane (s : State) (a : Nat) (offset : Bool) (data : Nat → W64) (l : Nat) : Nat × Nat × Nat × W64 × Nat :=
  let x := (vGet s a l).toNat
  (bitsOf x 11 0, bitsOf x 19 16, if offset then (vGet s (a + 1) l).toNat else 0, data l, windowKey s (bitsOf x 19 16))

/-- R234, R237: a lane of a word that reads a record and names no target. -/
def recordLane (_ : Nat) : Nat × Nat × Nat × W64 × Nat := (0, 0, 0, 0, 0)

/-- R356: the agents and windows that the active lanes name with the target pair in v(a). -/
def pairStreams (s : State) (a : Nat) : List (Nat × Nat) :=
  (lanesOf s.sp.em).map (fun l => (bitsOf (vGet s a l).toNat 11 0, bitsOf (vGet s a l).toNat 19 16))

/-- R356: none of the streams that the active lanes name would pass 64 unacknowledged lanes. -/
def StreamsOpen (s : State) (a : Nat) : Prop :=
  ∀ p ∈ pairStreams s a, unacked s s.g.ctx (agentOf s s.g.die) p.1 p.2 + (pairStreams s a).count p ≤ 64

/-- R226, R231: a word of major C may be executed: outside a transaction, its registers exist, nothing is on its way to them, nothing it
reads is marked, and its counter and its queue have room. -/
def FabReady (s : State) (kind : FabKind) (ranges : List (Nat × Nat)) (srcs scas : List Nat) : Prop :=
  inTx s = false ∧ (∀ p ∈ ranges, p.1 + p.2 ≤ s.g.nregs) ∧ hazard s (regsOf ranges) scas = false ∧ poisonedLane s srcs = none ∧
    s.iss.stalled = false ∧ s.sp.em ≠ 0 ∧ (if kind.countsL then s.g.cntL else s.g.cntC) < 63 ∧ fabQueueFull s s.g = false

/-- R231: t is s with one command more in the fabric queue, with a lane for each active lane; L or C has risen by one. -/
def FabSent (s t : State) (kind : FabKind) (d : Nat) (desc : W64) (lane : Nat → Nat × Nat × Nat × W64 × Nat) : Prop :=
  (∃ c : FabCmd, t.eng = { s.eng with fabs := s.eng.fabs ++ [c] } ∧ c.gid = s.g.gid ∧ c.ctx = s.g.ctx ∧ c.src = agentOf s s.g.die ∧
    c.taken = false ∧ c.cancelled = false ∧ c.span = s.g.span ∧ c.split = s.sp.num ∧
    c.die = s.g.die ∧ c.clause = s.iss.clause ∧ c.word = s.iss.word ∧ c.kind = kind ∧ c.d = d ∧ c.desc = desc ∧
    c.pos = s.sp.replay + 1 ∧
    c.lanes.map (fun l => (l.lane, l.agent, l.win, l.off, l.data, l.aux)) = (lanesOf s.sp.em).map (fun l => (l, lane l)) ∧
    ∀ l ∈ c.lanes, l.applied = false ∧ l.acked = false ∧ l.held = false ∧ l.skip = false) ∧
  t.g.cntL = s.g.cntL + (if kind.countsL then 1 else 0) ∧ t.g.cntC = s.g.cntC + (if kind.countsL then 0 else 1) ∧ Kept s t ∧ t.ms = s.ms

/-- The window record of a context on a die, bound or not. -/
def windowRec (s : State) (die ctx win : Nat) : Option Window :=
  s.fab.windows.find? (fun w => w.die == die && w.ctx == ctx && w.idx == win)

/-- R231, R234, R355, R356: a word that sends v(d) to target pairs goes out: its lanes are issued at their windows and take the next
numbers of their streams. -/
def Sends (s : State) (i : Instr) (kind : FabKind) (d a b : Nat) : Prop :=
  FabReady s kind [(d, 1), (a, 2)] [d, a, a + 1] [b] → s.sp.kept ≤ s.sp.replay → (∀ l ∈ lanesOf s.sp.em, PairOk s a l true) →
  StreamsOpen s a →
  let lane := pairLane s a true (fun l => zext64 (vGet s d l))
  ∃ t, exec i s = .next t ∧ FabSent s t kind d (sGet s b) lane ∧ t.sp.replay = s.sp.replay + 1 ∧
    (∀ w x n, windowRec s s.g.die s.g.ctx w = some x → (lanesOf s.sp.em).countP (fun l => (lane l).2.1 == w) = n + 1 →
      windowRec t s.g.die s.g.ctx w = some { x with issued := (x.issued + (n + 1)) % 2 ^ 32 }) ∧
    ∀ agent w n, (pairStreams s a).count (agent, w) = n + 1 →
      let src := agentOf s s.g.die
      (streamOf t s.g.ctx src agent w).next = ((streamOf s s.g.ctx src agent w).next + (n + 1)) % 2 ^ 32

/-- R296: the fork edge of command c is over: its split has no earlier load outstanding and no earlier committed store to apply. -/
def ForkOver (s : State) (c : FabCmd) : Prop :=
  (∀ d ∈ s.ms.loads, ¬(d.gid = c.gid ∧ d.split = c.split ∧ d.uid < c.uid)) ∧
    ∀ e ∈ s.ms.entries, ¬(e.gid = c.gid ∧ e.split = c.split ∧ e.uid < c.uid ∧ e.st = .committed)

/-- Command c of group g is in the engine and may leave its queue, no group is in focus, and l is the lane that its event acts on. -/
def LaneOf (s : State) (g : Machine.Group) (c : FabCmd) (l : FabLane) (kind : FabKind) : Prop :=
  s.g.gid = 0 ∧ c.gid ≠ 0 ∧ c.kind = kind ∧ s.eng.fabs.find? (fun x => x.uid == c.uid) = some c ∧ groupOf? s c.gid = some g ∧
    c.ctx = g.ctx ∧ c.cancelled = false ∧ localAgent s c.src = true ∧ mayTake s c = true ∧ c.next? = some l ∧ l.skip = false

/-- The lane l of command c is applied at its target, and waits for its acknowledgement. -/
def LaneApplied (s t : State) (c : FabCmd) (l : FabLane) : Prop :=
  let lane (y : FabLane) : FabLane := { y with applied := true, acked := false, held := false }
  t.eng.fabs = updateFirst (fun x => x.uid == c.uid)
    (fun x => { x with taken := true, lanes := updateFirst (fun y => y.lane == l.lane) lane x.lanes }) s.eng.fabs

/-- R231: command c is over: it is gone and its counter has fallen by one. -/
def LaneEnded (s t : State) (g h : Machine.Group) (c : FabCmd) : Prop :=
  t.eng.fabs = s.eng.fabs.filter (fun x => x.uid != c.uid) ∧ groupOf? t c.gid = some h ∧
    h.cntL = g.cntL - (if c.kind.countsL then 1 else 0) ∧ h.cntC = g.cntC - (if c.kind.countsL then 0 else 1) ∧ h.sregs = g.sregs ∧
    h.kregs = g.kregs ∧ t.mem = s.mem

/-- R234, R237: a record that command c reads reaches its lanes, and the command is over. -/
def RecordGiven (s t : State) (g h : Machine.Group) (c : FabCmd) (f : Nat → Nat) : Prop :=
  LaneEnded s t g h c ∧ t.wq = s.wq ∧ ∀ r m, m < 32 →
    gReg h r m = if r = c.d ∧ m ∈ c.lanes.map (fun l => l.lane) then BitVec.ofNat 32 (f m) else gReg g r m

/-- R232, R296, R327: the 4 bytes at an address of a context may be written at f now: the page admits it, the line is whole, not
poisoned, held by no other agent, and nothing waits at its home. -/
def WordReady (s : State) (ctx va : Nat) (f : Leaf) : Prop :=
  accessIn s ctx needW va = .ok f ∧ lineWaits s f va = false ∧ actingHome s f = none ∧ isPoisoned s f.phys = false ∧
    va % 128 + 4 ≤ 128 ∧ f.phys % 128 = va % 128

/-- The 4 bytes at a physical address have been written, and no others. -/
def WordWritten (s t : State) (phys : Nat) (x : W64) : Prop :=
  ∀ b, rdByte t b = if phys ≤ b ∧ b < phys + 4 then BitVec.ofNat 8 (x.toNat / 2 ^ (8 * (b - phys))) else rdByte s b

/-- R359: the switch's record of the result that contribution n of a member to a destination word belongs to. -/
def switchHolds (c : FabCmd) (l : FabLane) (n : Nat) (q : Partial) : Bool :=
  !q.forwarded && q.ctx == c.ctx && q.tag == bitsOf c.desc.toNat 31 16 && q.agent == l.agent && q.win == l.win && q.off == l.off &&
    (if q.gone then q.round == n else q.round % 256 == n % 256)

/-- R359: how many contributions the member that c comes from has made to the word that l names. -/
def contributions (s : State) (c : FabCmd) (l : FabLane) : Nat :=
  ((s.fab.rounds.find? (fun r => r.ctx == c.ctx && r.tag == bitsOf c.desc.toNat 31 16 && r.member == c.src && r.agent == l.agent &&
    r.win == l.win && r.off == l.off)).map (fun r => r.count)).getD 0

/-- R348: slot m of a pool, the only record of its number, stands at place n of the buffer. -/
def SlotAt (s : State) (n : Nat) (m : MordSlot) : Prop :=
  s.fab.slots[n]? = some m ∧
    s.fab.slots.find? (fun x => x.die == m.die && x.ctx == m.ctx && x.num == m.num) = some m

/-- The slots after slot m has changed to m'. -/
def slotsWith (s : State) (m m' : MordSlot) : List MordSlot :=
  updateFirst (fun x => x.die == m.die && x.ctx == m.ctx && x.num == m.num) (fun _ => m') s.fab.slots

end Sys2Proof.Claims

open Sys2Proof Sys2Proof.Machine Sys2Proof.Claims

/-- R231 to R237, R355, R356, R362: a word of major C whose lanes pass goes to the fabric queue with what it captures; a put, a win.add
or a collective also takes the next numbers of its streams, and its window counts the lanes as issued; a word that reads a window or a
record is queued as well. An exchange holds its split until its peer comes. -/
def Obligations.FabricWordsGoOut : Prop :=
  (∀ (d a b : Nat) (s : State), (sGet s b).toNat < 2 ^ 48 → bitsOf (sGet s b).toNat 15 12 = 0 → bitsOf (sGet s b).toNat 11 8 < 5 →
    (bitsOf (sGet s b).toNat 7 0 < 3 ∨ 128 ≤ bitsOf (sGet s b).toNat 7 0) →
    Sends s (.collRed d a b) .collRed d a b ∧ Sends s (.collBcast d a b) .collBcast d a b) ∧
  (∀ (d a b : Nat) (s : State), bitsOf (sGet s b).toNat 31 1 = 0 → Sends s (.putWin d a b) .putWin d a b) ∧
  (∀ (d a : Nat) (s : State), FabReady s .getWin [(d, 1), (a, 2)] [a, a + 1] [] → s.g.live ≤ d →
    (∀ l ∈ lanesOf s.sp.em, PairOk s a l true) →
    ∃ t, exec (.getWin d a) s = .next t ∧ FabSent s t .getWin d 0 (pairLane s a true (fun _ => 0)) ∧ t.sp = s.sp) ∧
  (∀ (a b : Nat) (s : State), FabReady s .winAdd [(a, 2)] [a, a + 1] [b] → s.sp.kept ≤ s.sp.replay →
    (∀ l ∈ lanesOf s.sp.em, PairOk s a l false) → StreamsOpen s a →
    ∃ t, exec (.winAdd a b) s = .next t ∧ FabSent s t .winAdd 0 (sGet s b) (pairLane s a false (fun _ => sGet s b)) ∧
      t.sp.replay = s.sp.replay + 1) ∧
  (∀ (d a : Nat) (off : Nat → Nat) (s : State), FabReady s .mordAlloc [(d, 2), (a, 2)] [a, a + 1] [] → s.sp.kept ≤ s.sp.replay →
    s.g.live ≤ d → (∀ l ∈ lanesOf s.sp.em, mordPlace s 64 l (vGet64 s a l) = .ok (off l)) →
    ∃ t, exec (.mordAlloc d a) s = .next t ∧ FabSent s t .mordAlloc d 0 (fun l => (0, 0, off l, 0, 0)) ∧ t.sp.replay = s.sp.replay + 1) ∧
  (∀ (d a b : Nat) (off : Nat → Nat) (s : State), FabReady s .mordSend [(d, 1), (a, 4), (b, 1)] [a, a + 1, a + 2, a + 3, b] [] →
    s.sp.kept ≤ s.sp.replay → s.g.live ≤ d → (∀ l ∈ lanesOf s.sp.em, mordPlace s 1 l (vGet64 s (a + 2) l) = .ok (off l)) →
    ∃ t, exec (.mordSend d a b) s = .next t ∧
      FabSent s t .mordSend d 0 (fun l => (0, 0, off l, vGet64 s a l, (vGet s b l).toNat % 65536)) ∧ t.sp.replay = s.sp.replay + 1) ∧
  (∀ (a : Nat) (s : State), FabReady s .mordFree [(a, 2)] [a, a + 1] [] → s.sp.kept ≤ s.sp.replay →
    ∃ t, exec (.mordFree a) s = .next t ∧ FabSent s t .mordFree 0 0 (fun l => (0, 0, 0, vGet64 s a l, 0)) ∧
      t.sp.replay = s.sp.replay + 1) ∧
  (∀ (d b : Nat) (s : State), FabReady s .winRead [(d, 1)] [] [b] → s.g.live ≤ d →
    ((windowOf? s s.g.die s.g.ctx ((sGet s b).toNat % 16)).isSome →
      ∃ t, exec (.winRead d b) s = .next t ∧ FabSent s t .winRead d (sGet s b) recordLane ∧ t.sp = s.sp) ∧
    ∃ t, exec (.histRead d b) s = .next t ∧ FabSent s t .histRead d (sGet s b) recordLane ∧ t.sp = s.sp) ∧
  (∀ (d : Nat) (s : State), FabReady s .mordStat [(d, 1)] [] [] → s.g.live ≤ d →
    ∃ t, exec (.mordStat d) s = .next t ∧ FabSent s t .mordStat d 0 recordLane ∧ t.sp = s.sp) ∧
  (∀ (d a b : Nat) (s : State), inTx s = false → d + 1 ≤ s.g.nregs → a + 1 ≤ s.g.nregs → s.g.live ≤ d → hazard s [d, a] [b] = false →
    poisonedLane s [a] = none → s.sp.kept ≤ s.sp.replay → bitsOf (sGet s b).toNat 63 39 = 0 →
    peerExists s (bitsOf (sGet s b).toNat 31 0) (bitsOf (sGet s b).toNat 38 32) = true → s.g.cntL < 63 →
    ∃ t, exec (.xshf d a b) s = .next t ∧ Kept s t ∧ t.g.cntL = s.g.cntL + 1 ∧
      t.sp.pend = [.xshf d a (bitsOf (sGet s b).toNat 31 0) (bitsOf (sGet s b).toNat 38 32) s.tick])

/-- R232, R234, R237, R355 to R357, R362: a put writes its word at its target and raises the target counter, a broadcast writes it at the
windows of the members, a win.add raises the counter by its amount, a get brings the word, a record that is read reaches the lanes, and
an acknowledgement ends the command. Stated for the lanes that their target admits; a lane that it refuses writes nothing, and defers a
window-access trap. -/
def Obligations.WindowsServe : Prop :=
  (∀ (s : State) (g : Machine.Group) (c : FabCmd) (l : FabLane) (w : Window) (f : Leaf), LaneOf s g c l .putWin →
    targetWindow s c.ctx l.agent l.win = some w → (streamOf s c.ctx c.src l.agent l.win).has l.seq = false → s.fab.resent = [] →
    (w.admits l.aux l.off = false → g.released = false → ∃ t h, exec (.putApply c.uid) s = .next t ∧ t.mem = s.mem ∧ t.wq = s.wq ∧
      t.side = s.side ∧ LaneApplied s t c l ∧ t.fab.windows = s.fab.windows ∧ groupOf? t c.gid = some h ∧ h.regs = g.regs ∧
      ∃ r, h.deferred = g.deferred ++ [r] ∧ r.kind = .windowAccess ∧ r.lane = some l.lane) ∧
    (w.admits l.aux l.off = true → c.waitsFor ≤ (streamOf s c.ctx c.src l.agent l.win).puts → WordReady s c.ctx (w.base + l.off) f →
      ForkOver s c →
      ∃ t, exec (.putApply c.uid) s = .next t ∧ LaneApplied s t c l ∧ t.mem = s.mem ∧ WordWritten s t f.phys l.data ∧
        ∀ x, windowRec s (l.agent % 4) c.ctx l.win = some x →
          windowRec t (l.agent % 4) c.ctx l.win = some { x with target := (x.target + 1) % 2 ^ 32 })) ∧
  (∀ (s : State) (g : Machine.Group) (c : FabCmd) (l : FabLane) (w : Window) (f : Leaf), LaneOf s g c l .collBcast → s.fab.resent = [] →
    (tagOf? s c.ctx (bitsOf c.desc.toNat 31 16)).isSome → bcastWindows s c.ctx l.win = [w] → w.admits l.aux l.off = true →
    WordReady s c.ctx (w.base + l.off) f → ForkOver s c →
    ∃ t, exec (.putApply c.uid) s = .next t ∧ LaneApplied s t c l ∧ t.mem = s.mem ∧ WordWritten s t f.phys l.data ∧
      ∀ x, windowRec s w.die c.ctx l.win = some x →
        windowRec t w.die c.ctx l.win = some { x with target := (x.target + 1) % 2 ^ 32 }) ∧
  (∀ (s : State) (g : Machine.Group) (c : FabCmd) (l : FabLane) (w : Window), LaneOf s g c l .winAdd → s.fab.resent = [] →
    targetWindow s c.ctx l.agent l.win = some w → (streamOf s c.ctx c.src l.agent l.win).has l.seq = false → w.key = l.aux →
    ∃ t, exec (.putApply c.uid) s = .next t ∧ LaneApplied s t c l ∧ t.mem = s.mem ∧ t.wq = s.wq ∧
      ∀ x, windowRec s (l.agent % 4) c.ctx l.win = some x →
        windowRec t (l.agent % 4) c.ctx l.win = some { x with target := (x.target + l.data.toNat % 2 ^ 32) % 2 ^ 32 }) ∧
  (∀ (s : State) (g : Machine.Group) (c : FabCmd) (l : FabLane), s.g.gid = 0 → c.gid ≠ 0 → c.kind.streams = true →
    s.eng.fabs.find? (fun x => x.uid == c.uid) = some c → groupOf? s c.gid = some g → c.lanes = [l] → l.applied = true →
    l.acked = false → localAgent s c.src = true → localAgent s l.agent = true →
    ∃ t h, exec (.putAck c.uid) s = .next t ∧ LaneEnded s t g h c ∧ h.regs = g.regs ∧ t.wq = s.wq ∧
      ∀ x, windowRec s (c.src % 4) c.ctx l.win = some x →
        windowRec t (c.src % 4) c.ctx l.win = some { x with acked := (x.acked + 1) % 2 ^ 32 }) ∧
  (∀ (s : State) (g : Machine.Group) (c : FabCmd) (l : FabLane) (w : Window) (f : Leaf), LaneOf s g c l .getWin → c.lanes = [l] →
    targetWindow s c.ctx l.agent l.win = some w → w.admits l.aux l.off = true → accessIn s c.ctx needRd (w.base + l.off) = .ok f →
    isPoisoned s f.phys = false → ForkOver s c → l.lane < 32 →
    ∃ t h, exec (.getWinRead c.uid) s = .next t ∧ RecordGiven s t g h c (fun _ => rdNat s f.phys 4)) ∧
  (∀ (s : State) (g : Machine.Group) (c : FabCmd) (l : FabLane) (w : Window), LaneOf s g c l .winRead →
    (c.lanes.map (fun k => k.lane)).Nodup → windowOf? s (c.src % 4) c.ctx (bitsOf c.desc.toNat 3 0) = some w →
    ∃ t h, exec (.getWinRead c.uid) s = .next t ∧ RecordGiven s t g h c (fun m => nthD 0 [w.target, w.issued, w.acked] m)) ∧
  (∀ (s : State) (g : Machine.Group) (c : FabCmd) (l : FabLane) (p : Pool), LaneOf s g c l .mordStat →
    (c.lanes.map (fun k => k.lane)).Nodup → poolOf? s (c.src % 4) c.ctx = some p →
    let held := s.fab.slots.filter (fun m => m.die == c.src % 4 && m.ctx == c.ctx && m.st != .free)
    let parked := (held.map (fun m => m.parked.length)).sum
    ∃ t h, exec (.getWinRead c.uid) s = .next t ∧ RecordGiven s t g h c (fun m => nthD 0
      [bitsOf p.word.toNat 63 48 - held.length, held.length, parked, bitsOf p.word.toNat 47 36 - parked, p.late, p.timeouts, p.retries,
        p.fails] m)) ∧
  (∀ (s : State) (g : Machine.Group) (c : FabCmd) (l : FabLane) (tag : CollTag), LaneOf s g c l .histRead →
    (c.lanes.map (fun k => k.lane)).Nodup → tagOf? s c.ctx (bitsOf c.desc.toNat 15 0) = some tag →
    ∃ t h, exec (.getWinRead c.uid) s = .next t ∧ RecordGiven s t g h c (fun m => if m < 16 then nthD 0 tag.bins m else 0) ∧
      ∃ read, h.pendings = g.pendings ++ [(c.split, .histogram (bitsOf c.desc.toNat 15 0) read)] ∧
        ∀ i, i < 16 → nthD 0 read i = if i ∈ c.lanes.map (fun k => k.lane) then nthD 0 tag.bins i else 0)

/-- R359 to R361, R363: a contribution starts a partial result in the switch or joins the one of its destination word and round (stated
for the 32-bit integer sum), the switch forwards it past its flush time, and a user routine is loaded into its slot. -/
def Obligations.CollectivesCombine : Prop :=
  (∀ (s : State) (g : Machine.Group) (c : FabCmd) (l : FabLane) (w : Window) (tag : CollTag), LaneOf s g c l .collRed → c.lanes = [l] →
    tagOf? s c.ctx (bitsOf c.desc.toNat 31 16) = some tag → targetWindow s c.ctx l.agent l.win = some w → w.admits l.aux l.off = true →
    ForkOver s c →
    let n := contributions s c l + 1
    (s.fab.partials.find? (switchHolds c l n) = none → 2 ≤ tag.members → (∀ p ∈ s.fab.partials, p.uid < s.uid) →
      ∃ t h p, exec (.collCombine c.uid) s = .next t ∧ LaneEnded s t g h c ∧ h.regs = g.regs ∧ t.wq = s.wq ∧
        t.fab.partials.getLast? = some p ∧ (∀ q ∈ s.fab.partials, q.gone = false → q ∈ t.fab.partials) ∧ switchHolds c l n p = true ∧
        contributions t c l = n ∧ p.round = n ∧ p.value = lowWord l.data ∧ p.count = 1 ∧ p.first = s.tick ∧
        p.typ = bitsOf c.desc.toNat 11 8 ∧ p.routine = bitsOf c.desc.toNat 7 0 ∧ p.flush = bitsOf c.desc.toNat 47 32 ∧
        p.gone = false ∧ p.written = false) ∧
    (∀ p, s.fab.partials.find? (switchHolds c l n) = some p → s.fab.partials.find? (fun x => x.uid == p.uid) = some p → p.gone = false →
      p.count + 1 < tag.members → p.routine = 0 → p.typ = 3 →
      ∃ t h, exec (.collCombine c.uid) s = .next t ∧ LaneEnded s t g h c ∧ h.regs = g.regs ∧ t.wq = s.wq ∧ contributions t c l = n ∧
        t.fab.partials = updateFirst (fun x => x.uid == p.uid)
          (fun x => { x with value := p.value + lowWord l.data, count := p.count + 1 }) s.fab.partials)) ∧
  (∀ (s : State) (p : Partial), s.fab.partials.find? (fun x => x.uid == p.uid) = some p → p.forwarded = false → p.gone = false →
    p.count < memberCount s p.ctx p.tag → p.first + flushTicks s p < s.tick →
    let rest := updateFirst (fun x => x.uid == p.uid) (fun x => { x with gone := true }) s.fab.partials
    (localAgent s p.agent = false → ∃ t, exec (.collFlush p.uid) s = .next t ∧ t.fab.partials = rest ∧
      { t with fab := { t.fab with partials := s.fab.partials, tags := s.fab.tags } } = s) ∧
    (localAgent s p.agent = true → (∀ q ∈ s.fab.partials, q.forwarded = false) →
      ∃ t q, exec (.collFlush p.uid) s = .next t ∧ t.fab.partials = rest ++ [q] ∧ q.forwarded = true ∧ q.gone = false ∧
        q.arrived = s.tick ∧ q.value = p.value ∧ q.count = p.count ∧ q.round = p.round ∧ q.same p = true ∧ q.written = false ∧
        { t with fab := { t.fab with partials := s.fab.partials, tags := s.fab.tags }, uid := s.uid } = s)) ∧
  (∀ (slot : Nat) (code : List W) (s : State), 128 ≤ slot → slot ≤ 255 →
    ∃ t, exec (.userRoutineLoad slot code) s = .next t ∧ mapGet [] t.fab.routines slot = code ∧
      (∀ k, k ≠ slot → mapGet [] t.fab.routines k = mapGet [] s.fab.routines k) ∧
      { t with fab := { t.fab with routines := s.fab.routines } } = s)

/-- R235: two groups that wait for each other exchange their registers, in the lanes active on both sides, in one step; a group
that has waited for 2^24 ticks takes the peer trap, its word no longer counted on L. Stated for groups of one split on one die. -/
def Obligations.ExchangesComplete : Prop :=
  (∀ (s : State) (g h : Machine.Group) (p q : Split) (d a d' a' st st' : Nat), s.Settled → (∀ x ∈ s.groups, x.gid ≠ 0) → g.gid ≠ h.gid →
    groupOf? s g.gid = some g → groupOf? s h.gid = some h → g.splits = [p] → h.splits = [q] → p.member ≠ 0 → q.member ≠ 0 →
    p.pend = [.xshf d a (linOf s h) h.index st] → q.pend = [.xshf d' a' (linOf s g) g.index st'] →
    peerOf? s g (linOf s h) h.index = some h → peerOf? s h (linOf s g) g.index = some g → jilted s g = false → jilted s h = false →
    g.residence = .resident → h.residence = .resident → g.stopped = false →
    h.stopped = false → g.die = h.die →
    ∃ t g' h', exec (.xshfExchange g.gid) s = .next t ∧ groupOf? t g.gid = some g' ∧ groupOf? t h.gid = some h' ∧
      (∀ r l, l < 32 → gReg g' r l = if r = d ∧ inMask p.em l ∧ inMask q.em l then gReg h a' l else gReg g r l) ∧
      (∀ r l, l < 32 → gReg h' r l = if r = d' ∧ inMask p.em l ∧ inMask q.em l then gReg g a l else gReg h r l) ∧
      g'.cntL = g.cntL - 1 ∧ h'.cntL = h.cntL - 1 ∧ (∀ x ∈ g'.splits ++ h'.splits, x.pend = []) ∧ g'.sregs = g.sregs ∧
      h'.sregs = h.sregs ∧ t.mem = s.mem ∧ t.wq = s.wq ∧ t.traps = s.traps) ∧
  (∀ (s u : State) (g : Machine.Group) (p : Split) (d a lin grp st : Nat), At s g.gid p.num u → groupOf? s g.gid = some g → g.splits = [p] →
    p.pend = [.xshf d a lin grp st] → st + 2 ^ 24 ≤ s.tick →
    ∃ t r, exec (.xshfTimeout g.gid) s = .next t ∧ t.traps = s.traps ++ [r] ∧ r.kind = .peer ∧ r.viaduct = g.viaduct ∧
      r.split = some p.num ∧ r.group = g.index ∧ ((∀ x ∈ s.ms.loads, x.gid ≠ g.gid) → ∀ h, groupOf? t g.gid = some h → h.cntL = g.cntL - 1))

/-- R236, R237, R347 to R353: a token is allocated with the lowest free slot and its handle, takes a contribution in order or parks
one that is early, is freed, times out by its policy, and once its write is performed counts at its window and frees its slot.
Descriptors and contributions are named by the bytes that the engine reads. -/
def Obligations.MordantTokensLive : Prop :=
  (∀ (s : State) (g : Machine.Group) (c : FabCmd) (l : FabLane) (p : Pool) (f : Leaf) (num gen : Nat), LaneOf s g c l .mordAlloc →
    c.lanes = [l] → l.lane < 32 → poolOf? s (c.src % 4) c.ctx = some p → inMemory l.off = true → l.off % 64 = 0 →
    accessIn s c.ctx needRd l.off = .ok f → rangePoisoned s c.ctx l.off 64 = false → ForkOver s c →
    let bs := rdBytes s f.phys 64
    (mordDesc bs).relKind ≠ 2 → badMordDesc bs (((viaductOf? s g.viaduct).map (fun v => v.launch.spanCount)).getD 0) = false →
    freeSlot s (c.src % 4) c.ctx p.slots = some (num, gen) →
    ∃ t h m, exec (.mordantAllocApply c.uid) s = .next t ∧ LaneEnded s t g h c ∧ t.wq = s.wq ∧ m ∈ t.fab.slots ∧ m.die = c.src % 4 ∧
      m.ctx = c.ctx ∧ m.num = num ∧ m.gen = gen ∧ m.st = .opened ∧ m.desc = mordDesc bs ∧ m.acc = List.replicate p.elems 0 ∧ m.n = 0 ∧
      m.received = [] ∧ m.parked = [] ∧ m.deadline = s.tick + (mordDesc bs).timeout ∧
      ∀ r k, k < 32 → gReg h r k =
        if k = l.lane ∧ r = c.d then BitVec.ofNat 32 (mordHandle s.pkg (c.src % 4) num gen).toNat
        else if k = l.lane ∧ r = c.d + 1 then BitVec.ofNat 32 ((mordHandle s.pkg (c.src % 4) num gen).toNat / 2 ^ 32)
        else gReg g r k) ∧
  (∀ (s : State) (g : Machine.Group) (c : FabCmd) (l : FabLane) (p : Pool) (m : MordSlot) (n num gen pos : Nat) (bs : List Byte),
    LaneOf s g c l .mordSend → c.lanes = [l] → l.lane < 32 → handlePool? s c.ctx l.data = some (p, num, gen) →
    l.off % mordBytes p.cfmt = 0 → mordRead s c l.off (mordBytes p.cfmt * p.elems) = .bytes bs → SlotAt s n m →
    liveSlot? s p num gen = some m → m.st = .opened → s.tick < m.deadline → m.desc.experts.findIdx? (fun e => e == l.aux) = some pos →
    memNat pos m.received = false →
    let xs := contribution p.cfmt p.elems bs
    let status (t : State) (h : Machine.Group) : Prop := LaneEnded s t g h c ∧ t.wq = s.wq ∧
      ∀ r k, k < 32 → gReg h r k = if k = l.lane ∧ r = c.d then 0 else gReg g r k
    (pos = m.n → m.parked = [] → m.n + 1 < m.desc.k → ∃ t h, exec (.mordantSendArrival c.uid) s = .next t ∧ status t h ∧
      t.fab.slots = slotsWith s m { m.apply pos xs with n := m.n + 1, received := pos :: m.received }) ∧
    (pos ≠ m.n → parkedCount s m.die m.ctx < p.park → ∃ t h, exec (.mordantSendArrival c.uid) s = .next t ∧ status t h ∧
      t.fab.slots = slotsWith s m { m with received := pos :: m.received, parked := m.parked ++ [(pos, xs)] })) ∧
  (∀ (s : State) (g : Machine.Group) (c : FabCmd) (l : FabLane) (p : Pool) (m : MordSlot) (n num gen : Nat), LaneOf s g c l .mordFree →
    c.lanes = [l] → handlePool? s c.ctx l.data = some (p, num, gen) → SlotAt s n m → liveSlot? s p num gen = some m → m.st = .opened →
    s.tick < m.deadline →
    ∃ t h, exec (.mordantFreeArrival c.uid) s = .next t ∧ LaneEnded s t g h c ∧ h.regs = g.regs ∧ t.wq = s.wq ∧
      t.fab.slots = slotsWith s m { m with
        st := .free, gen := (m.gen + 1) % 2 ^ 31, acc := [], received := [], parked := [], write := 0 }) ∧
  (∀ (s : State) (m : MordSlot) (n : Nat), SlotAt s n m → m.st = .opened → m.deadline ≤ s.tick →
    ∃ t m', exec (.mordantDeadline n) s = .next t ∧ t.fab.slots = slotsWith s m m' ∧ m'.st = .releasing ∧ m'.parked = m.parked ∧
      m'.fail = (m.desc.policy == 2) ∧ (m.parked = [] → m.desc.policy ≠ 1 → m'.acc = m.acc) ∧
      { t with fab := { t.fab with slots := s.fab.slots, pools := s.fab.pools } } = s) ∧
  (∀ (s : State) (m : MordSlot) (n : Nat), SlotAt s n m → m.st = .releasing → m.held = false →
    (m.write = 0 → m.fail = true → ∃ t, exec (.mordantRelease n) s = .next t ∧ t.uid = s.uid + 1 ∧
      t.fab.slots = slotsWith s m { m with write := s.uid } ∧
      { t with fab := { t.fab with slots := s.fab.slots }, uid := s.uid } = s) ∧
    (∀ f, m.write = 0 → m.fail = false → accessIn s m.ctx needW m.desc.dest = .ok f → m.bytes ≠ [] → lineWaits s f m.desc.dest = false →
      m.desc.dest % 128 + m.bytes.length ≤ 128 → f.phys % 128 = m.desc.dest % 128 → actingHome s f = none → isPoisoned s f.phys = false →
      ∃ t, exec (.mordantRelease n) s = .next t ∧ t.mem = s.mem ∧ t.fab.slots = slotsWith s m { m with write := s.uid } ∧
        ∀ a, rdByte t a = if f.phys ≤ a ∧ a < f.phys + m.bytes.length then nthD 0 m.bytes (a - f.phys) else rdByte s a) ∧
    (∀ w, m.write ≠ 0 → (∀ v ∈ s.ms.invals, v.writer.cls ≠ .store m.write) → m.desc.relKind = 1 → windowOf? s m.die m.ctx m.desc.relIdx = some w →
      windowRec s m.die m.ctx m.desc.relIdx = some w →
      ∃ t, exec (.mordantRelease n) s = .next t ∧ t.mem = s.mem ∧ t.wq = s.wq ∧
        windowRec t m.die m.ctx m.desc.relIdx = some { w with target := (w.target + 1) % 2 ^ 32 } ∧
        t.fab.slots = slotsWith s m { m with
          st := .free, gen := (m.gen + 1) % 2 ^ 31, acc := [], received := [], parked := [], write := 0 }))

namespace Sys2Proof.Claims

open Sys2Proof Sys2Proof.Machine

/-! The agents that act without an instruction word: watches, caches, pages, spans, queues, firmware and the device. -/

/-- A write of these bytes at a line's home, at a physical address: the bytes are written, and no other. -/
def Wrote (s t : State) (phys : Nat) (bs : List Byte) : Prop :=
  t.mem = s.mem ∧ ∀ a, rdByte t a = if phys ≤ a ∧ a < phys + bs.length then nthD 0 bs (a - phys) else rdByte s a

/-- R283, R299, R431, R434: bytes from va on, in one line mapped at l, can be written at its home now. -/
def HomeReady (s : State) (l : Leaf) (va n : Nat) : Prop :=
  0 < n ∧ va % 128 + n ≤ 128 ∧ lineWaits s l (lineOf va) = false ∧ actingHome s l = none ∧ isPoisoned s l.phys = false

/-- R220, R326: registration r of group g, at its home slice: its page is mapped at l, and nothing holds the line. -/
def RegistrationAt (s : State) (r : WatchReg) (g : Machine.Group) (l : Leaf) : Prop :=
  s.g.gid = 0 ∧ r.gid ≠ 0 ∧ s.wat.regs.find? (fun x => x.uid == r.uid) = some r ∧ groupOf? s r.gid = some g ∧
    accessIn s g.ctx needRd r.addr = .ok l ∧ lineWaits s l r.addr = false ∧ actingHome s l = none

/-- R281: the slice of an agent's remote data cache that a line mapped at l goes to has room in every set: nothing is evicted. -/
def SliceRoom (s : State) (agent line : Nat) (l : Leaf) : Prop :=
  (s.ms.rdc.filter (fun r => r.die == agent && r.slice == sliceOf l line)).length < 8

/-- R430: the remote data cache of an agent receives a line in a state, and the home's bits become n (stated where nothing is evicted,
as an eviction gives another line back to its home). -/
def Filled (s t : State) (agent dom line : Nat) (l : Leaf) (st : RdcSt) (n : Nat) : Prop :=
  (∃ r ∈ t.ms.rdc, r.die = agent ∧ r.dom = dom ∧ r.line = line ∧ r.st = st ∧ r.bytes = rdBytes s (lineOf l.phys) 128) ∧
    (SliceRoom s agent line l → sideBits t l.phys = n) ∧ t.mem = s.mem ∧ t.wq = s.wq ∧ t.groups = s.groups

/-- R425, R468: t is u with a reply of the management mailbox. -/
def Replied (u t : State) (func code seq status : Nat) (body : List Byte) : Prop :=
  t = { u with front := { u.front with replies := u.front.replies ++ [⟨func, code, seq % 65536, status, body⟩] } }

/-- R425: a request of the management mailbox is answered done. -/
def Done (s t : State) (func code seq : Nat) : Prop := t.front.replies = s.front.replies ++ [⟨func, code, seq % 65536, 0, []⟩]

/-- R425, R426, R436: the memory manager is not held up: the device is running, no request of the function waits, no granule is
migrating, no committed store waits to be applied, and no transaction is open. -/
def MapsFree (s : State) (func : Nat) : Prop :=
  s.dev.stage = 4 ∧ (∀ q ∈ s.front.mmWaits, q.func ≠ func) ∧ (∀ e ∈ s.ms.htbs, e.migrating = false) ∧
    (∀ e ∈ s.ms.entries, e.st ≠ .committed) ∧ ∀ g ∈ allGroups s, g.tx = none

/-- R428: the state in which H3 has given out n bytes of frames from a physical address on, unless a context maps them already. -/
def givenOut (s : State) (phys n : Nat) : State := if rangeMapped s phys n then s else freshRange phys n s

/-- R425, R426: t follows s, once 8 bytes of a table entry were written at these addresses, as a memory-manager request. -/
def EntriesWritten (s t : State) (ws : List (Nat × Nat)) : Prop :=
  (∀ w ∈ ws, rdNat t w.1 8 = w.2) ∧ ∀ a, (∀ w ∈ ws, a < w.1 ∨ w.1 + 8 ≤ a) → rdByte t a = rdByte s a

end Sys2Proof.Claims

open Sys2Proof Sys2Proof.Machine Sys2Proof.Claims

/-- R220, R221, R323 to R331: a registration fires at once where its condition holds, is kept where there is room, and fires by
force where there is none; entries are withdrawn, fire after a scan, and are purged; a fire reaches its slot only under its
generation; a wait of a resident group ends at its deadline, one of a saved group stays as it is; and a woken saved group makes
its context runnable. -/
def Obligations.WatchesFire : Prop :=
  (∀ (s : State) (r : WatchReg) (g : Machine.Group) (l : Leaf), RegistrationAt s r g l →
    let holds := !isPoisoned s l.phys && cmpHolds r.cmp r.w64 (wordAt s l.phys r.w64) r.x
    (holds = true → ∃ t f, exec (.watchRegistration r.uid) s = .next t ∧ t.wat.fires = s.wat.fires ++ [f] ∧ f.ctx = g.ctx ∧
      f.lslot = g.lslot ∧ f.slot = r.slot ∧ f.gen = r.gen ∧ f.forced = false ∧
      t.wat.regs = s.wat.regs.filter (fun x => x.uid != r.uid) ∧ t.wat.entries = s.wat.entries ∧ t.groups = s.groups ∧ t.mem = s.mem) ∧
    (holds = false → ∀ inList, placeEntry? s (homeAgent l) (sliceOf l r.addr) g.ctx false = some inList →
      ∃ t e, exec (.watchRegistration r.uid) s = .next t ∧ t.wat.entries = s.wat.entries ++ [e] ∧ e.home = homeAgent l ∧
        e.slice = sliceOf l r.addr ∧ e.inList = inList ∧ e.addr = r.addr ∧ e.operand = r.x ∧ e.ctx = g.ctx ∧ e.lslot = g.lslot ∧
        e.slot = r.slot ∧ e.w64 = r.w64 ∧ e.cmp = r.cmp ∧ e.gen = r.gen ∧ e.pkg = s.pkg ∧ e.tick = s.tick % 2 ^ 32 ∧ e.packet = none ∧
        t.wat.fires = s.wat.fires ∧ (inList = true → bitOf (mapGet 0 t.wat.filters (homeAgent l * 256 + sliceOf l r.addr))
          (bitsOf r.addr 16 7 ^^^ bitsOf r.addr 26 17) = true) ∧
        sideWatched t l.phys = true ∧ t.mem = s.mem) ∧
    (holds = false → placeEntry? s (homeAgent l) (sliceOf l r.addr) g.ctx false = none →
      ∃ t f, exec (.watchRegistration r.uid) s = .next t ∧ t.wat.fires = s.wat.fires ++ [f] ∧ f.ctx = g.ctx ∧ f.lslot = g.lslot ∧
        f.slot = r.slot ∧ f.gen = r.gen ∧ f.forced = true ∧ t.wat.entries = s.wat.entries)) ∧
  (∀ (s : State) (g : Machine.Group) (n : Nat), groupOf? s g.gid = some g →
    let x := g.slot n
    ∃ t, exec (.watchWithdraw g.gid n) s = .next t ∧ { t with wat := s.wat, side := s.side } = s ∧
      t.wat.entries = s.wat.entries.filter (fun e => !(e.packet == none && e.ctx == g.ctx && e.lslot == g.lslot && e.slot == n &&
        !(x.st == .armed && x.gen == e.gen)))) ∧
  (∀ (s : State) (f : Fire) (g : Machine.Group) (x : Slot), s.g.gid = 0 → g.gid ≠ 0 →
    s.wat.fires.find? (fun y => y.uid == f.uid) = some f → groupOf? s g.gid = some g →
    (allGroups s).find? (fun h => h.ctx == f.ctx && h.lslot == f.lslot && !h.released) = some g → g.residence = .resident →
    g.slots[f.slot]? = some x →
    ∃ t h, exec (.watchFireDelivery f.uid) s = .next t ∧ groupOf? t g.gid = some h ∧ h.regs = g.regs ∧ t.mem = s.mem ∧
      t.wat.fires = s.wat.fires.filter (fun y => y.uid != f.uid) ∧
      h.slots[f.slot]? = some (if x.st = .armed ∧ x.gen = f.gen then { x with st := .fired, forced := f.forced, answered := true } else x)) ∧
  (∀ (s : State) (c : Scan) (die slice : Nat),
    s.wat.scans.find? (fun c => c.home == agentOf s die && c.slice == slice) = some c → (s.wat.entries.map WatchEntry.uid).Nodup →
    (∀ e ∈ s.wat.entries, e.packet = none) →
    let fires (e : WatchEntry) : Bool := e.inList && e.dom == c.dom && lineOf e.addr == c.line &&
      c.written.any (fun b => decide (e.addr % 128 ≤ b.1 ∧ b.1 < e.addr % 128 + wordBytes e.w64)) &&
      cmpHolds e.cmp e.w64 (wordAt s (c.phys + e.addr % 128) e.w64) e.operand
    ∃ t, exec (.watchListScanEnd die slice) s = .next t ∧ t.wat.scans = s.wat.scans.erase c ∧
      t.wat.entries = s.wat.entries.filter (fun e => !fires e) ∧ t.mem = s.mem ∧ t.wq = s.wq ∧
      (∀ e ∈ s.wat.entries, fires e = true →
        ∃ f ∈ t.wat.fires, f.ctx = e.ctx ∧ f.lslot = e.lslot ∧ f.slot = e.slot ∧ f.gen = e.gen ∧ f.forced = false) ∧
      ∀ i, i < 1024 → bitOf (mapGet 0 t.wat.filters (c.home * 256 + c.slice)) i = t.wat.entries.any (fun e =>
        e.home == c.home && e.slice == c.slice && e.inList && (bitsOf e.addr 16 7 ^^^ bitsOf e.addr 26 17) == i)) ∧
  (∀ (s u : State) (gid num mask d : Nat) (all : Bool), At s gid num u → u.sp.pend = [.slotWait mask all (some d), .acquire .pod] →
    u.g.residence = .resident →
    d ≤ s.tick → namedSlots mask ≠ [] → (∀ i ∈ namedSlots mask, (u.g.slot i).st = .armed ∧ (u.g.slot i).answered = true) →
    ∃ v, exec (.waitvDeadline gid num) s = .next (unfocus v) ∧ v.sp.pend = [] ∧ v.g.slots = u.g.slots ∧
      bitOf v.g.wstat.toNat 8 = true ∧ bitsOf v.g.wstat.toNat 3 0 = 0 ∧ NoL1 u v ∧ v.g.regs = u.g.regs ∧ v.g.sregs = u.g.sregs ∧
      v.mem = s.mem ∧ v.wq = s.wq) ∧
  (∀ (s u : State) (gid num : Nat), At s gid num u → u.g.residence ≠ .resident →
    exec (.waitvDeadline gid num) s = .next (unfocus u)) ∧
  (∀ (s : State) (c : Context) (acks : List Nat) (die slice : Nat), s.ten.dying.find? (fun d => d.1.num == c.num) = some (c, acks) →
    die < 4 → slice < 256 → die * 256 + slice ∉ acks → acks.length + 1 ≠ 1024 → (s.wat.entries.map WatchEntry.uid).Nodup →
    ∃ t, exec (.watchPurge c.num die slice) s = .next t ∧
      t.wat.entries = s.wat.entries.filter (fun e => !(e.ctx == c.num && e.pkg == s.pkg && e.home == agentOf s die && e.slice == slice)) ∧
      t.ten.dying = updateFirst (fun x => x.1.num == c.num) (fun x => (x.1, acks ++ [die * 256 + slice])) s.ten.dying ∧
      t.mem = s.mem ∧ t.wq = s.wq) ∧
  (∀ (s : State) (g : Machine.Group), g ∈ s.groups → s.g.gid = 0 → g.residence = .saved → g.wakePending ≠ [] →
    exec (.wakeMessage g.ctx) s = .next { s with ten := { s.ten with
      ctxs := updateFirst (fun c => c.num == g.ctx) (fun c => { c with runnable := true }) s.ten.ctxs } })

/-- R366, R423, R427, R430 to R432: the requests between remote data caches and homes. A read is answered with the line and makes
its agent the sole holder or a sharer, a request to own sends invalidations, waits for their
acknowledgements, and then makes the agent the owner, a write-through is
applied at the home, a line given up is gone, an invalidation drops its line and is acknowledged, walks fill their buffers, and a
drain of the mesh changes nothing. -/
def Obligations.CoherenceActs : Prop :=
  (∀ (s : State) (agent dom line ctx : Nat) (l : Leaf), leafOfDom s dom line = some (ctx, l) → line % 128 = 0 → agent < 4096 →
    agent ≠ homeAgent l → l.pte.c = true → granuleMoving s dom line = false → invalPending s dom line = false →
    (∀ x ∈ s.ms.getxs, x.2 ≠ (dom, line)) →
    let n := sideBits s l.phys
    let w := bitOf n 0
    (sideSt n = 0 → ∃ t, exec (.gets agent dom line) s = .next t ∧
      if w = true ∨ l.pte.wp = true then Filled s t agent dom line l .s (mkSide 1 0 agent w)
      else Filled s t agent dom line l .e (mkSide 3 agent 0 false)) ∧
    (sideSt n = 4 → sideOwner n ≠ agent → ∃ t, exec (.gets agent dom line) s = .next t ∧
      Filled s t agent dom line l .s (mkSide 5 (sideOwner n) agent w) ∧ (SliceRoom s agent line l →
      ∀ r ∈ s.ms.rdc, r.dom = dom → r.line = line → r.die ≠ agent → r.st = .m → { r with st := .o } ∈ t.ms.rdc))) ∧
  (∀ (s : State) (agent dom line ctx : Nat) (l : Leaf), leafOfDom s dom line = some (ctx, l) → line % 128 = 0 → agent < 4096 →
    agent ≠ homeAgent l → l.pte.c = true → l.pte.wp = false → bitOf (sideBits s l.phys) 0 = false → lineWaits s l line = false →
    invalPending s dom line = false →
    (heldElsewhere s dom line agent = true → ∃ t, exec (.getx agent dom line) s = .next t ∧ t.ms.rdc = s.ms.rdc ∧ t.side = s.side ∧
      t.ms.getxs = s.ms.getxs ++ [(agent, dom, line)] ∧
      ∀ r ∈ s.ms.rdc, r.dom = dom → r.line = line → r.die ≠ agent →
        ∃ v ∈ t.ms.invals, v.agent = r.die ∧ v.dom = dom ∧ v.line = line ∧ v.acked = false) ∧
    (heldElsewhere s dom line agent = false → sideSt (sideBits s l.phys) ≠ 7 → ∃ t, exec (.getx agent dom line) s = .next t ∧
      Filled s t agent dom line l .m (mkSide 4 agent 0 false))) ∧
  (∀ (s : State) (agent dom line ctx : Nat) (l : Leaf), leafOfDom s dom line = some (ctx, l) → (agent, dom, line) ∈ s.ms.getxs →
    (invalPending s dom line = true → exec (.getx agent dom line) s = .next s) ∧
    (invalPending s dom line = false → sideSt (sideBits s l.phys) ≠ 7 → ∃ t, exec (.getx agent dom line) s = .next t ∧
      Filled s t agent dom line l .m (mkSide 4 agent 0 false) ∧ (agent, dom, line) ∉ t.ms.getxs)) ∧
  (∀ (s : State) (agent dom addr ctx : Nat) (l : Leaf) (data : List Byte), leafOfDom s dom (lineOf addr) = some (ctx, l) →
    agent ≠ homeAgent l → agent < 4096 → localAgent s agent = false → l.pte.w = true →
    HomeReady s l addr data.length → ∃ t, exec (.wrh agent dom addr data) s = .next t ∧ Wrote s t (lineOf l.phys + addr % 128) data) ∧
  (∀ (s : State) (agent dom line ctx : Nat) (l : Leaf), leafOfDom s dom line = some (ctx, l) → sideOwner (sideBits s l.phys) = agent →
    (heldAs s agent dom line = some .m → sideSt (sideBits s l.phys) = 4 → ∃ t, exec (.putm agent dom line) s = .next t ∧
      heldAs t agent dom line = none ∧ sideBits t l.phys = mkSide 0 0 0 (bitOf (sideBits s l.phys) 0) ∧ t.mem = s.mem ∧ t.wq = s.wq) ∧
    (heldAs s agent dom line = some .e → sideSt (sideBits s l.phys) = 3 → ∃ t, exec (.pute agent dom line) s = .next t ∧
      heldAs t agent dom line = none ∧ sideBits t l.phys = mkSide 0 0 0 (bitOf (sideBits s l.phys) 0) ∧ t.mem = s.mem ∧ t.wq = s.wq)) ∧
  (∀ (s : State) (v : Inval), s.ms.invals.find? (fun x => x.uid == v.uid && !x.acked) = some v →
    exec (.invalidation v.uid) s = .next { s with ms := { s.ms with
      rdc := s.ms.rdc.filter (fun r => !(r.die == v.agent && r.dom == v.dom && r.line == v.line)),
      invals := updateFirst (fun x => x.uid == v.uid) (fun x => { x with acked := true }) s.ms.invals } }) ∧
  (∀ (s : State) (v : Inval), v ∈ s.ms.invals → v.acked = true →
    exec (.invalidationAck v.uid) s = .next { s with ms := { s.ms with invals := s.ms.invals.filter (fun x => x.uid != v.uid) } }) ∧
  (∀ (s : State) (die core ctx va : Nat) (l : Leaf), accessIn s ctx ⟨false, false, false⟩ va = .ok l → die < 4 → core < 1024 →
    ∃ t e, exec (.pageAttributeWalk die core ctx va) s = .next t ∧ e ∈ t.ms.attrs ∧ e.die = die ∧ e.core = core ∧ e.dom = l.dom ∧
      e.page = pageOf va ∧ e.size = l.size ∧ e.home = homeAgent l ∧ { t with ms := { t.ms with attrs := s.ms.attrs }, uid := s.uid } = s) ∧
  (∀ (s : State) (ctx va : Nat) (l : Leaf), accessIn s ctx ⟨false, false, false⟩ va = .ok l →
    ∃ t e, exec (.homeTranslationWalk ctx va) s = .next t ∧ e ∈ t.ms.htbs ∧ e.home = homeAgent l ∧ e.dom = l.dom ∧ e.page = pageOf va ∧
      e.frame = l.phys / 65536 ∧ e.key = l.pte.key ∧ { t with ms := { t.ms with htbs := s.ms.htbs }, uid := s.uid } = s) ∧
  (∀ (s : State) (die : Nat), exec (.nocDrain die) s = .next s)

/-- R280, R310, R405, R415 to R418, R425, R426, R435, R436: the memory manager's requests write the entries they name and answer done,
where nothing refuses or delays them; a context of another function is not permitted. A granule moves with its bytes, and the host
reads and writes memory at its home. -/
def Obligations.PagesManaged : Prop :=
  (∀ (s : State) (r : MapReq) (c : Context) (ea : Nat) (fs : List Nat), MapsFree s r.func → ctxOf? s r.ctx = some c → r.count = 1 →
    let p := pteOf r.leaf.toNat
    let lo := p.hpkg * 2 ^ 39 + p.frame * 65536
    let n := (if r.level = 2 then 8192 else 1) * 65536
    let v := if c.stage2 = 0 then givenOut s lo n else s
    leafGood c r.level r.va 1 p = true → (c.stage2 = 0 → firmwareOwns s lo n = false) →
    makePath c r.level r.va 3 c.root1 (if c.stage2 = 0 then r.tables.filter (frameFree s s.pkg) else r.tables) v = .ok (ea, fs, v) →
    aliased (wrNat ea 8 p.toNat v) c [r.va] = false →
    (c.func = r.func → ∃ t, exec (.mmMap r) s = .next t ∧ Done s t r.func (ruleCode 4250) r.seq ∧ EntriesWritten s t [(ea, p.toNat)]) ∧
    (∀ f ∈ s.ms.openFaults, f.ctx = r.ctx → f.page = pageOf r.va → f.cause ≠ 3 →
      ∃ t, exec (.pageResolve r false) s = .next t ∧ EntriesWritten s t [(ea, p.toNat)])) ∧
  (∀ (s : State) (r : MapReq), s.dev.stage = 4 → (∀ q ∈ s.front.mmWaits, q.func ≠ r.func) → ownsCtx s r.func r.ctx = false →
    ∃ t, exec (.mmMap r) s = .next t ∧ Replied s t r.func (ruleCode 4250) r.seq 4 []) ∧
  (∀ (s : State) (r : MapReq), s.dev.stage = 4 → (∃ q ∈ s.front.mmWaits, q.func = r.func) →
    exec (.mmMap r) s = .next { s with front := { s.front with mmWaits := s.front.mmWaits ++ [.map r] } }) ∧
  (∀ (s : State) (func seq ctx va : Nat) (c : Context) (r : Pte × Nat × Nat), MapsFree s func → ctxOf? s ctx = some c → c.func = func →
    leafEntry? s c va = some r →
    (aliased (wrNat r.2.2 8 0 s) c [va] = false → ∃ t, exec (.mmUnmap func seq ctx va) s = .next t ∧
      Done s t func (ruleCode 4261) seq ∧ EntriesWritten s t [(r.2.2, 0)]) ∧
    (∀ perm, perm < 8 → let p : Pte := { r.1 with rd := bitOf perm 0, w := bitOf perm 1, x := bitOf perm 2 }
      p.isPointer = false → p.badLeaf r.2.1 = false → aliased (wrNat r.2.2 8 p.toNat s) c [va] = false →
      ∃ t, exec (.mmProtect func seq ctx va perm) s = .next t ∧ Done s t func (ruleCode 4262) seq ∧
        EntriesWritten s t [(r.2.2, p.toNat)]) ∧
    (∀ run : Bool,
      let entry (v : State) (i : Nat) : Pte := pteOf (rdNat v (runBase r.2.1 r.2.2 + 8 * i) 8)
      let u := (List.range (runShape r.2.1).1).foldl (fun v i =>
        if (entry v i).v && !(entry v i).isPointer then wrNat (runBase r.2.1 r.2.2 + 8 * i) 8 { entry v i with run := run }.toNat v else v) s
      (run = true → isRun u r.2.1 r.2.2 = true) → aliased u c [va] = false →
      ∃ t, exec (.mmRunChange func seq ctx va run) s = .next t ∧ Done s t func (ruleCode 4263) seq ∧
        EntriesWritten s t ((List.range (runShape r.2.1).1).map (fun i =>
          let a := runBase r.2.1 r.2.2 + 8 * i
          let p := pteOf (rdNat s a 8)
          (a, if p.v && !p.isPointer then { p with run := run }.toNat else rdNat s a 8))))) ∧
  (∀ (s : State) (seq ctx gpa : Nat) (entry : W64) (c : Context), MapsFree s 0 → ctxOf? s ctx = some c → c.stage2 ≠ 0 → gpa < 2 ^ 56 →
    let e := stage2Entry s gpa 3 c.stage2
    let p := pteOf entry.toNat
    let lo := p.hpkg * 2 ^ 39 + p.frame * 65536
    let n := (if e.2 = 2 then 8192 else 1) * 65536
    let leaf := p.v && !p.isPointer
    let u := wrNat e.1 8 entry.toNat (if leaf then givenOut s lo n else s)
    stage2Legal e.2 gpa p = true → (leaf = true → firmwareOwns s lo n = false) → aliased u c (pagesOf u c) = false →
    ∃ t, exec (.mmStage2Change 0 seq ctx gpa entry) s = .next t ∧ Done s t 0 (ruleCode 4264) seq ∧
      EntriesWritten s t [(e.1, entry.toNat)]) ∧
  (∀ (s : State) (func seq base size id : Nat), MapsFree s func → base % 65536 = 0 → size % 65536 = 0 → 0 < size → base + size ≤ 2 ^ 56 →
    4096 ≤ id → id < 65536 → domainUnused s id = true → (∀ g ∈ s.ten.segments, meets g.base g.size base size = false) →
    ∃ t, exec (.segmentCreate func seq base size id) s = .next t ∧
      Replied { s with ten := { s.ten with segments := s.ten.segments ++ [⟨base, size, id, func⟩] } } t func (ruleCode 4151) seq 0 []) ∧
  (∀ (s : State) (seq ctx : Nat) (g : Segment) (c : Context), MapsFree s g.func → s.ten.segments.find? (fun x => x.id == g.id) = some g →
    ctxOf? s ctx = some c → c.func = g.func → (∀ x ∈ c.segs, meets x.base x.size g.base g.size = false) → c.segs.length < 64 →
    ∃ t, exec (.segmentAttach g.func seq ctx g.id) s = .next t ∧ Done s t g.func (ruleCode 4152) seq ∧
      t.ten.ctxs = updateFirst (fun x => x.num == ctx) (fun x => { x with segs := x.segs ++ [g] }) s.ten.ctxs ∧
      let place := pkgBase s.pkg + c.segtab + 16 * c.segs.length
      ∀ a, rdByte t a = if c.segtab ≠ 0 ∧ place ≤ a ∧ a < place + 16 then nthD 0 g.bytes (a - place) else rdByte s a) ∧
  (∀ (s : State), s.tick % 2 ^ 20 = 0 → exec .migrationCountClear s = .next { s with ms := { s.ms with
    htbs := s.ms.htbs.map (fun e => { e with counts := [], sent := false }), moved := [] } }) ∧
  (∀ (s : State) (c : Context) (va hpkg frame : Nat) (l : Leaf) (m : MigRec) (r : Pte × Nat × Nat), ctxOf? s c.num = some c →
    hpkg < 1024 → Memory.wf s.mem = true → s.wq = [] → c.stage2 = 0 → walkVa s c va = .ok l →
    s.ms.migs.find? (fun m => m.vaddr == va && m.dom == l.dom) = some m → mayMigrate s m c l hpkg frame = true →
    pageBusy s l.dom va 65536 = false →
    let new := hpkg * 2 ^ 39 + frame * 65536
    new + 65536 ≤ l.phys ∨ l.phys + 65536 ≤ new →
    leafEntry? (moveFrame l.dom va l.phys new false s) c va = some r → r.2.1 = 3 → r.2.2 + 8 ≤ new ∨ new + 65536 ≤ r.2.2 →
    ∃ t, exec (.migration c.num va hpkg frame) s = .next t ∧ rdNat t r.2.2 8 = { r.1 with hpkg := hpkg, frame := frame }.toNat ∧
      (∀ i, i < 65536 → rdByte t (new + i) = rdByte s (l.phys + i)) ∧ m ∉ t.ms.migs ∧ (l.dom, va, m.src) ∈ t.ms.moved) ∧
  (∀ (s : State) (func ctx va : Nat) (l : Leaf) (data : List Byte), mayActOn s func ctx = true →
    accessIn s ctx ⟨false, false, false⟩ va = .ok l → HomeReady s l va data.length →
    ∃ t, exec (.hostMemoryWrite func ctx va data) s = .next t ∧ Wrote s t (lineOf l.phys + va % 128) data ∧
      t.ms.l2.map (fun x => { x with dirty := false }) = s.ms.l2.map (fun x => { x with dirty := false })) ∧
  (∀ (s : State) (func ctx va len : Nat) (bs : List Byte), mayActOn s func ctx = true →
    readVa s ctx ⟨false, false, false⟩ va len = .ok bs → rangePoisoned s ctx va len = false →
    exec (.hostMemoryRead func ctx va len) s = .next { s with front := { s.front with hostReads := s.front.hostReads ++ [(func, bs)] } })

namespace Sys2Proof.Claims

open Sys2Proof Sys2Proof.Machine

/-- R9, R29, R256: group g is group k of the span x of a viaduct, at its start values. -/
def FreshGroup (v : Viaduct) (c : Context) (x : Span) (k : Nat) (g : Machine.Group) : Prop :=
  let l := v.launch
  g.span = x.uid ∧ g.viaduct = v.uid ∧ g.ctx = c.num ∧ g.index = k ∧ g.die = x.die ∧
    g.core = x.core0 + (if l.quadSpan then k % 4 else 0) ∧ g.nregs = min 127 (8 * ((l.vregs + 7) / 8)) ∧
    (∀ i, i < 32 → inMask g.exist i = decide (32 * k + i < l.sx * l.sy * l.sz)) ∧ g.regs = [] ∧ g.sregs = [] ∧ g.kregs = [] ∧
    g.flags = 0 ∧ g.fmode = l.fmode &&& 31 ∧ g.live = 0 ∧ (g.cntL, g.cntS, g.cntC, g.cntT) = (0, 0, 0, 0) ∧ g.tx = none ∧
    (∀ i, i < 32 → mapGet 0 g.rng i =
      let z := c.seed ^^^ (l.vid * 0x9E3779B9) ^^^ (BitVec.ofNat 32 (x.lin * l.groupCount * 32 + k * 32 + i) * 0x85EBCA6B)
      if z = 0 then 1 else z) ∧
    ∃ p, g.splits = [p] ∧ p.num = 0 ∧ p.member = g.exist ∧ p.em = g.exist ∧ p.pc = l.entry ∧ p.widx = 0 ∧ p.stack = [] ∧
      p.state = .running ∧ p.pend = []

/-- R330, R396: span n is being evicted: its groups are being saved. -/
def Evicting (t : State) (n : Nat) : Prop :=
  ∃ y, spanOf? t n = some y ∧ y.evicting = true ∧ ∀ g ∈ t.groups, g.span = n → g.residence = .saving

/-- R390, R391: the journal after the pending entry of a sequence number has taken a status. -/
def journalWith (s : State) (seq status detail : Nat) : List JEntry :=
  updateFirst (fun e => e.seq == seq && e.status == 255) (fun e => { e with status := status, done := s.tick, detail := detail })
    s.front.journal

end Sys2Proof.Claims

open Sys2Proof Sys2Proof.Machine Sys2Proof.Claims

/-- R9, R29, R256 to R260, R264, R267, R398: the distributor places the next span of an owner whose turn it is, at its start values;
a start gate opens, an issue set moves on by its grant, a thief asks for a chunk and receives it or a refusal, and waiting raises
an owner's level. -/
def Obligations.SpansPlaced : Prop :=
  (∀ (s u : State) (die owner n lin place cost : Nat) (v : Viaduct) (c : Context), s.dev.stage = 4 → s.fab.arrives = [] →
    coopPlacement? s = none → nextWork die (dropPreempts s) = (some (owner, .place n lin place cost), u) → viaductOf? s n = some v →
    ctxOf? s v.ctx = some c →
    ∃ t x w, exec (.spanPlace die) s = .next t ∧ x ∈ t.spans ∧ x.viaduct = v.uid ∧ x.ctx = c.num ∧ x.lin = lin ∧ x.die = die ∧
      x.core0 = place ∧ x.bars = List.replicate v.launch.bars ⟨0, false, false, 0, 0, none⟩ ∧ x.residence = .resident ∧
      x.gateOpen = false ∧
      (∀ y ∈ x.cores, y.store = [] ∧ y.quad = [] ∧ y.resv = [] ∧ y.tiles = List.replicate v.launch.acc ⟨[], false, 0, [], [], []⟩) ∧
      (∀ k, k < v.launch.groupCount → ∃ g ∈ t.groups, FreshGroup v c x k g) ∧ (∀ g ∈ s.groups, g ∈ t.groups) ∧
      viaductOf? t n = some w ∧ w.placed = v.placed ++ [lin] ∧ t.mem = s.mem ∧ t.wq = s.wq) ∧
  (∀ (s : State) (die owner n lin place cost : Nat), s.dev.stage = 4 → s.fab.arrives = [] → coopPlacement? s = none →
    s.ten.preempts = [] → ownerWork? s die owner = some (.place n lin place cost) →
    (turnOwners s die).find? (fun p => p.1 == owner) = some (owner, .place n lin place cost) →
    nthD 0 s.ten.pointers die = 2 * owner + 1 → (cost : Int) ≤ nthD 0 (ownerRec s owner).deficits die →
    ∃ t x, exec (.spanPlace die) s = .next t ∧ t.spans.getLast? = some x ∧ x.viaduct = n ∧ x.lin = lin ∧ x.die = die ∧ x.core0 = place ∧
      x.residence = .resident) ∧
  (∀ (s : State) (n : Nat), (∀ g ∈ allGroups s, g.span = n → g.issuedFirst = true ∨ g.exited = true) →
    exec (.startGateOpen n) s = .next { s with spans := updateFirst (fun x => x.uid == n) (fun x => { x with gateOpen := true }) s.spans }) ∧
  (∀ (s : State) (die core ctx : Nat), let n := slotGrant s ctx die core
    let r := (residentOn s ctx die core).length
    let key := rotationKey ctx die core
    let periods := clkOf s die / 2048
    (periods ≤ mapGet 0 s.ten.rotated key → exec (.issueSetRotate die core ctx) s = .next s) ∧
    (n < r → mapGet 0 s.ten.rotated key < periods → ∃ t, exec (.issueSetRotate die core ctx) s = .next t ∧
      { t with ten := { t.ten with rotation := s.ten.rotation, rotated := s.ten.rotated } } = s ∧
      mapGet 0 t.ten.rotated key = periods ∧ (∀ k, k ≠ key → mapGet 0 t.ten.rotated k = mapGet 0 s.ten.rotated k) ∧
      ∀ k, mapGet 0 t.ten.rotation k = if k = key then
          (mapGet 0 s.ten.rotation k + n * (periods - mapGet 0 s.ten.rotated key)) % r
        else mapGet 0 s.ten.rotation k)) ∧
  (∀ (s : State) (v : Viaduct) (c : Context) (thief asked : Nat), viaductOf? s v.uid = some v → ctxOf? s v.ctx = some c → v.st = .started →
    v.launch.coop = false → nextLin? v thief = none → askedCount v thief < 8 → (∀ k ∈ v.chunks, k.die ≠ 4 + thief) →
    (askOrder s c.part thief)[askedCount v thief]? = some asked → (fitPlace? s c v.launch thief).isSome →
    (∀ k, yieldedChunk? v asked = some k → exec (.stealRequest thief asked v.uid) s = .next { s with
      viaducts := updateFirst (fun x => x.uid == v.uid) (fun x => { x with
        chunks := updateFirst (fun j => j.idx == k.idx) (fun j => { j with die := 4 + thief }) x.chunks }) s.viaducts }) ∧
    (yieldedChunk? v asked = none → ∃ t w, exec (.stealRequest thief asked v.uid) s = .next t ∧ viaductOf? t v.uid = some w ∧
      w.chunks = v.chunks ∧ askedCount w thief = askedCount v thief + 8 ∧ { t with viaducts := s.viaducts } = s)) ∧
  (∀ (s : State) (v : Viaduct) (thief : Nat), viaductOf? s v.uid = some v →
    ((∃ k ∈ v.chunks, k.die = 4 + thief) → ∃ t w, exec (.stealAnswer thief v.uid) s = .next t ∧ viaductOf? t v.uid = some w ∧
      w.chunks = v.chunks.map (fun k => if k.die = 4 + thief then { k with die := thief } else k) ∧ askedCount w thief = 0 ∧
      { t with viaducts := s.viaducts } = s) ∧
    ((∀ k ∈ v.chunks, k.die ≠ 4 + thief) → 8 ≤ askedCount v thief → ∃ t w, exec (.stealAnswer thief v.uid) s = .next t ∧
      viaductOf? t v.uid = some w ∧ w.chunks = v.chunks ∧ askedCount w thief = askedCount v thief - 8 + 1 ∧
      { t with viaducts := s.viaducts } = s)) ∧
  (∀ (s : State) (die owner : Nat), let o := ownerRec s owner
    die < 4 → die < o.levels.length → nthD 0 o.waits die ≠ 0 → ownerWaits s die owner = true → nthD 0 o.levels die < 7 →
    nthD 0 o.waits die + 65536 ≤ clkOf s die + 1 →
    ∃ t, exec (.ownerAgeing die owner) s = .next t ∧ nthD 0 (ownerRec t owner).levels die = nthD 0 o.levels die + 1 ∧
      { t with ten := { t.ten with owners := s.ten.owners } } = s)

/-- R23, R211, R270, R271, R328, R330, R393, R394, R396, R400 to R402, R456: groups that have exited release what they hold and their span
retires; a span is evicted, saved and restored; and contexts are created, destroyed and moved away. -/
def Obligations.SpansLeave : Prop :=
  (∀ (s : State) (g : Machine.Group), s.g.gid = 0 → groupOf? s g.gid = some g → g.exited = true → g.released = false →
    groupWork s g = false → g.deferred = [] → g.gid ≠ 0 →
    exec (.groupResourceRelease g.gid) s = .next { s with
      groups := s.groups.map (fun x => if x.gid = g.gid then { x with released := true } else x) }) ∧
  (∀ (s : State) (x : Span) (v : Viaduct), s.Settled → spanOf? s x.uid = some x → spanBusy s x.uid = false → x.savedTraps = [] →
    (∀ g ∈ s.groups, g.gid ≠ 0 ∧ (g.span = x.uid → g.exited = true ∧ g.deferred = [])) → viaductOf? s x.viaduct = some v →
    ∃ t w, exec (.spanRetire x.uid) s = .next t ∧ t.spans = s.spans.filter (fun y => y.uid != x.uid) ∧
      t.groups = s.groups.filter (fun g => g.span != x.uid) ∧ viaductOf? t x.viaduct = some w ∧ w.retired = v.retired + 1 ∧ t.mem = s.mem ∧
      ((∀ y ∈ s.spans, y.viaduct = x.viaduct → y.uid = x.uid) → v.st = .started → v.gang = none →
        v.retired + 1 = v.lastSpan - v.firstSpan → w.st = .complete ∧ t.front.journal = journalWith s v.journal 0 0)) ∧
  (∀ (s : State) (x : Span) (ctx : Nat), s.Settled → spanOf? s x.uid = some x → coopViaduct s x.viaduct = false → x.evicting = false →
    (s.spans.filter (fun y => y.ctx == ctx && y.residence == .resident)) = [x] → (∀ g ∈ s.groups, g.gid ≠ 0) →
    ∃ t, exec (.contextSwapOut ctx) s = .next t ∧ Evicting t x.uid ∧ t.mem = s.mem) ∧
  (∀ (s : State) (x : Span) (p : Preempt), s.Settled → spanOf? s x.uid = some x → coopViaduct s x.viaduct = false → x.evicting = false →
    x.residence = .resident → (∀ g ∈ s.groups, g.gid ≠ 0) → s.ten.preempts.find? (fun q => q.uid == p.uid) = some p → p.evicted = false →
    p.start + p.deadline - 12500 ≤ s.tick → s.spans.filter (p.victim s) = [x] →
    ∃ t q, exec (.forcedEviction p.uid) s = .next t ∧ Evicting t x.uid ∧ t.ten.preempts.find? (fun r => r.uid == p.uid) = some q ∧
      q.evicted = true ∧ t.mem = s.mem) ∧
  (∀ (s : State) (x : Span) (v : Viaduct), s.Settled → spanOf? s x.uid = some x → x.evicting = true → x.residence = .resident →
    viaductOf? s x.viaduct = some v → v.st ≠ .trapped → evictionReady s x.uid = true →
    (∀ g ∈ s.groups, g.span = x.uid → ∀ a ∈ s.ms.atoms, a.gid ≠ g.gid) → (s.groups.map Machine.Group.gid).Nodup →
    (∀ g ∈ s.groups, g.gid ≠ 0) →
    ∃ t y, exec (.spanEvictionSave x.uid) s = .next t ∧ spanOf? t x.uid = some y ∧ y.residence = .saved ∧ y.evicting = false ∧
      y.evictOrder = s.ten.evictSeq ∧ t.ten.evictSeq = s.ten.evictSeq + 1 ∧ t.mem = s.mem ∧ t.wq = s.wq ∧
      (∀ g ∈ s.groups, g.span = x.uid → ∃ h ∈ t.groups, h.gid = g.gid ∧ h.residence = .saved ∧ h.regs = g.regs ∧ h.live = g.live) ∧
      ∀ g ∈ s.groups, g.span ≠ x.uid → g ∈ t.groups) ∧
  (∀ (s u : State) (x : Span) (owner place cost : Nat), s.Settled → spanOf? s x.uid = some x → x.residence = .saved →
    coopViaduct s x.viaduct = false → x.savedTraps = [] → (s.groups.map Machine.Group.gid).Nodup → (∀ g ∈ s.groups, g.gid ≠ 0) →
    nextWork x.die (dropPreempts s) = (some (owner, .restore x.uid place cost), u) →
    ∃ t y, exec (.spanRestore x.uid) s = .next t ∧ spanOf? t x.uid = some y ∧ y.residence = .resident ∧ y.core0 = place ∧
      y.restored = true ∧ t.mem = s.mem ∧ t.wq = s.wq ∧
      (∀ g ∈ s.groups, g.span = x.uid → ∃ h ∈ t.groups, h.gid = g.gid ∧ h.residence = .resident ∧ h.sregs = g.sregs ∧ h.kregs = g.kregs ∧
        ∀ r l, l < 32 → gReg h r l = if r < g.live then gReg g r l else 0)) ∧
  (∀ (s : State) (x : Span) (owner place cost : Nat), s.Settled → spanOf? s x.uid = some x → x.residence = .saved →
    coopViaduct s x.viaduct = false → x.savedTraps = [] → s.ten.preempts = [] →
    ownerWork? s x.die owner = some (.restore x.uid place cost) →
    (turnOwners s x.die).find? (fun p => p.1 == owner) = some (owner, .restore x.uid place cost) →
    nthD 0 s.ten.pointers x.die = 2 * owner + 1 → (cost : Int) ≤ nthD 0 (ownerRec s owner).deficits x.die →
    ∃ t y, exec (.spanRestore x.uid) s = .next t ∧ spanOf? t x.uid = some y ∧ y.residence = .resident ∧ y.core0 = place ∧
      y.restored = true) ∧
  (∀ (s : State) (r : CtxReq), s.dev.stage = 4 → ctxReqGood s r = true →
    ∃ t c, exec (.contextCreate r) s = .next t ∧ t.ten.ctxs = s.ten.ctxs ++ [c] ∧ c.num = r.ctx ∧ c.asid = r.asid ∧ c.owner = r.owner ∧
      c.part = r.part ∧ c.save = r.save ∧ c.lslots = r.lslots ∧ c.sslots = r.sslots ∧ c.fqbase = r.fqbase ∧ c.fqlen = r.fqlen ∧
      c.seed = r.seed ∧ c.func = r.func ∧ c.root1 = r.root1 ∧ c.stage2 = r.stage2 ∧ c.tagdom = r.tagdom ∧ (c.fqwr, c.fqrd) = (0, 0) ∧
      (r.loop = none → c.loop = LoopRec.initial) ∧ (r.mthresh = none → c.mthresh = 4096) ∧ c.segs = [] ∧ t.mem = s.mem ∧ t.groups = s.groups ∧
      ∀ p ∈ r.tags, ∃ x ∈ t.fab.tags, x.ctx = r.ctx ∧ x.tag = p.1 ∧ x.members = p.2 ∧ x.results = 0) ∧
  (∀ (s : State) (c : Context), ctxOf? s c.num = some c →
    ∃ t, exec (.contextDestroy c.num) s = .next t ∧ ctxOf? t c.num = none ∧ (c, []) ∈ t.ten.dying ∧ (∀ g ∈ allGroups t, g.ctx ≠ c.num) ∧
      (∀ x ∈ t.spans, x.ctx ≠ c.num) ∧ (∀ e ∈ t.ms.entries, e.ctx ≠ c.num) ∧ (∀ q ∈ t.front.queues, q.ctx ≠ c.num) ∧
      (∀ w ∈ t.fab.windows, w.ctx ≠ c.num) ∧ ∀ p ∈ t.fab.pools, p.ctx ≠ c.num) ∧
  (∀ (s : State) (c : Context) (pkg : Nat), ctxOf? s c.num = some c → pkg ≠ s.pkg → pkg < 1024 → (∀ x ∈ s.spans, x.ctx ≠ c.num) →
    (∀ v ∈ s.viaducts, v.ctx = c.num → v.st = .complete) → (∀ q ∈ s.front.queues, q.ctx ≠ c.num) →
    exec (.contextPartMove c.num pkg) s = .next { s with ten := { s.ten with ctxs := s.ten.ctxs.filter (fun x => x.num != c.num) } })

namespace Sys2Proof.Claims

open Sys2Proof Sys2Proof.Machine

/-- R380, R387: packet p of queue q may start now, and passed its checks; it is the only one of its index and of its journal entry. -/
def PacketReady (s : State) (q : Queue) (p : Packet) (type : Nat) : Prop :=
  queueOf? s q.qid = some q ∧ startable? s q = some p ∧ p.failed = none ∧ p.done = false ∧ p.field 1 1 = type ∧ heldPacket? q type = none ∧
    q.packets.find? (fun x => x.index == p.index) = some p ∧
    s.front.queues.find? (fun x => x.packets.any (fun y => y.journal == p.journal)) = some q

/-- R391: packet p of queue q has completed with a status: its journal entry has it, and the queue no longer holds the packet. -/
def Completed (s t : State) (q : Queue) (p : Packet) (status : Nat) : Prop :=
  t.front.journal = journalWith s p.journal status 0 ∧ ∃ x, queueOf? t q.qid = some x ∧ ∀ y ∈ x.packets, y.journal ≠ p.journal

/-- R380: packet p of queue q has started and is not complete. -/
def Started (s t : State) (q : Queue) (p : Packet) : Prop :=
  t.front.journal = s.front.journal ∧ ∃ x y, queueOf? t q.qid = some x ∧ x.packets.find? (fun z => z.index == p.index) = some y ∧
    y.started = true ∧ y.bytes = p.bytes ∧ y.startTick = s.tick

/-- R384: no packet watches a word, so that a write to memory completes none. -/
def NoPacketWatch (s : State) : Prop := ∀ e ∈ s.wat.entries, e.packet = none

/-- R380: the operations that start packets, with their types. -/
noncomputable def packetRows : List ((Nat → Instr) × Nat) :=
  [(.nopPacket, 0), (.launchPacket, 1), (.gangPacket, 2), (.waitPacket, 3), (.signalPacket, 4), (.fencePacket, 5), (.loopSet, 6),
   (.windowBind, 7), (.paramBind, 8), (.barrierAnd, 9)]

/-- R384: the operations of the packets that wait on words. -/
noncomputable def waitRows : List ((Nat → Instr) × Nat) := [(.waitPacket, 3), (.barrierAnd, 9)]

end Sys2Proof.Claims

open Sys2Proof Sys2Proof.Machine Sys2Proof.Claims

/-- R374 to R379, R384, R387, R388, R390: a kick makes the front end look at a mapped queue and leaves another pending, a wrong one is
counted; a written packet is accepted with its journal entry; an overrun stops its queue; slots are filled and given up. -/
def Obligations.QueuesAccept : Prop :=
  (∀ (s : State) (c : Context) (q : Queue), s.dev.stage = 4 → ctxOf? s q.ctx = some c → queueOf? s q.qid = some q → q.qid < 65536 →
    exec (.doorbellKick c.func q.ctx q.qid) s = .next { s with front := { s.front with
      queues := updateFirst (fun x => x.qid == q.qid) (fun x =>
        if x.mapped then { x with looking := true, lookTick := s.tick }
        else if x.pending then x else { x with pending := true, kickTick := s.tick }) s.front.queues } }) ∧
  (∀ (s : State) (c : Context) (value : Nat), s.dev.stage = 4 → ctxOf? s c.num = some c → queueOf? s value = none →
    ∃ t, exec (.doorbellKick c.func c.num value) s = .next t ∧ { t with front := { t.front with kickErrors := s.front.kickErrors } } = s ∧
      mapGet 0 t.front.kickErrors c.func = mapGet 0 s.front.kickErrors c.func + 1) ∧
  (∀ (s : State) (q : Queue) (bs : List Byte), queueOf? s q.qid = some q → readVa s q.ctx needRd (q.qcb + 8) 8 = .ok bs → q.mapped = true →
    q.lookTick + 1024 ≤ s.tick → q.rd < bytesToNat bs →
    exec (.ringLook q.qid) s = .next { s with front := { s.front with
      queues := updateFirst (fun x => x.qid == q.qid) (fun x => { x with looking := true, lookTick := s.tick }) s.front.queues } }) ∧
  (∀ (s : State) (q : Queue) (c : Context) (bs : List Byte), s.dev.stage = 4 → queueOf? s q.qid = some q → ctxOf? s q.ctx = some c →
    q.mapped = true → q.stopped = false → q.looking = true → q.packets.length < 16 → s.front.jseq < s.front.acked + 2 ^ 20 →
    NoPacketWatch s →
    readVa s q.ctx needRd (q.base + 64 * (q.rd % 2 ^ q.size)) 64 = .ok bs →
    let head := fld bs 0 1
    (head = 1 + 2 * (q.rd / 2 ^ q.size % 128) → fld bs 1 1 ≠ 2 → ∃ t x p e, exec (.packetAccept q.qid) s = .next t ∧
      queueOf? t q.qid = some x ∧ x.rd = q.rd + 1 ∧ x.packets = q.packets ++ [p] ∧ p.index = q.rd ∧ p.bytes = bs ∧
      p.journal = s.front.jseq ∧ p.failed = packetStatus s c bs (some []) ∧ p.started = false ∧ p.done = false ∧
      t.front.jseq = s.front.jseq + 1 ∧ e ∈ t.front.journal ∧ e.seq = s.front.jseq ∧ e.status = 255 ∧ e.queue = q.qid ∧ e.index = q.rd ∧
      e.type = fld bs 1 1 ∧ e.tag = fld bs 4 4 ∧ e.accept = s.tick ∧ e.owner = c.owner ∧ e.part = c.part ∧ e.ctx = c.num ∧
      e.hash = (sha256 ((0 : Byte) :: (bs.take 64).drop 1)).take 12 ∧ t.mem = s.mem) ∧
    (head % 2 = 1 → head ≠ 1 + 2 * (q.rd / 2 ^ q.size % 128) → head / 2 ≠ (q.rd / 2 ^ q.size + 127) % 128 →
      ∃ t x e, exec (.packetAccept q.qid) s = .next t ∧ queueOf? t q.qid = some x ∧ x.stopped = true ∧ x.rd = q.rd ∧
        x.packets = q.packets ∧ e ∈ t.front.journal ∧ e.seq = s.front.jseq ∧ e.status = 9 ∧ e.queue = q.qid ∧ e.index = q.rd) ∧
    (head % 2 = 0 → exec (.packetAccept q.qid) s = .next { s with front := { s.front with
      queues := updateFirst (fun x => x.qid == q.qid) (fun x => { x with looking := false }) s.front.queues } })) ∧
  (∀ (s : State) (q : Queue) (c : Context), s.front.queues = [q] → q.pending = true → q.mapped = false → ctxOf? s q.ctx = some c → c.part < 16 →
    0 < slotQuotaOf s c.part →
    ∃ t x, exec .slotMappingPass s = .next t ∧ t.front.queues = [x] ∧ x.mapped = true ∧ x.pending = false ∧ x.looking = true ∧ x.rd = q.rd ∧
      { t with front := { t.front with queues := s.front.queues } } = s) ∧
  (∀ (s : State) (q : Queue) (p : Packet) (h : Nat), queueOf? s q.qid = some q → heldPacket? q 3 = some p → p.hold = some h →
    q.mapped = true → h + 25000 ≤ s.tick → wordsReadable s q p = false → NoPacketWatch s →
    ∃ t x, exec (.waitPageHoldExpiry q.qid) s = .next t ∧ queueOf? t q.qid = some x ∧ x.mapped = false ∧ x.pending = false ∧
      x.packets = q.packets ∧ t.front.journal = s.front.journal ∧ t.mem = s.mem) ∧
  (∀ (s : State) (q : Queue) (p : Packet) (w : StoreWatch), queueOf? s q.qid = some q →
    s.front.storeWatches.find? (fun x => x.qid == q.qid && decide (x.lastPoll + 1024 ≤ s.tick)) = some w →
    q.packets.find? (fun x => x.index == w.index && x.started && !x.done) = some p →
    s.front.queues.find? (fun x => x.packets.any (fun y => y.journal == p.journal)) = some q →
    (∀ x ∈ p.waits, packetWordHolds s q.ctx x = true) →
    ∃ t, exec (.packetWatchPoll q.qid) s = .next t ∧ Completed s t q p 0 ∧ t.mem = s.mem ∧ t.wq = s.wq)

/-- R252, R259, R355, R380 to R386, R445: a packet that failed its checks completes with its status; a NOP completes, a launch starts its
viaduct, waits complete when their words hold and watch them otherwise, a signal writes its word and completes once
no copy of its line is left, a fence waits for the records, and
bindings take effect. -/
def Obligations.PacketsTakeEffect : Prop :=
  (∀ row ∈ packetRows, ∀ (s : State) (q : Queue) (p : Packet) (f : Nat × Nat), queueOf? s q.qid = some q → startable? s q = some p →
    p.failed = some f → p.field 1 1 = row.2 → heldPacket? q row.2 = none → NoPacketWatch s →
    ∃ t, exec (row.1 q.qid) s = .next t ∧ t.front.journal = journalWith s p.journal f.1 (if f.1 = 1 ∨ f.1 = 4 then f.2 else 0) ∧
      t.viaducts = s.viaducts ∧ t.mem = s.mem) ∧
  (∀ (s : State) (q : Queue) (p : Packet), PacketReady s q p 0 →
    ∃ t, exec (.nopPacket q.qid) s = .next t ∧ Completed s t q p 0 ∧ t.mem = s.mem ∧ t.wq = s.wq) ∧
  (∀ (s : State) (q : Queue) (p : Packet) (c : Context), PacketReady s q p 1 → ctxOf? s q.ctx = some c →
    placeable s c (launchOf p.bytes) (launchOf p.bytes).spanCount = true →
    ∃ t v, exec (.launchPacket q.qid) s = .next t ∧ Started s t q p ∧ t.viaducts = s.viaducts ++ [v] ∧ v.ctx = c.num ∧ v.owner = c.owner ∧
      v.launch = launchOf p.bytes ∧ v.image = memApply s.mem s.wq ∧ v.journal = p.journal ∧ v.st = .started ∧ v.firstSpan = 0 ∧
      v.lastSpan = (launchOf p.bytes).spanCount ∧ v.placed = [] ∧ v.retired = 0 ∧ v.startTick = s.tick ∧ t.mem = s.mem ∧ t.wq = s.wq) ∧
  (∀ row ∈ waitRows, ∀ (s : State) (q : Queue) (p : Packet), PacketReady s q p row.2 → q.mapped = true →
    (∀ w ∈ p.waits, (packetWord s q.ctx w.2.1).isSome) →
    ((∀ w ∈ p.waits, packetWordHolds s q.ctx w = true) → ∃ t, exec (row.1 q.qid) s = .next t ∧ Completed s t q p 0 ∧ t.mem = s.mem ∧
      t.wq = s.wq) ∧
    (∀ w ∈ p.waits, packetWordHolds s q.ctx w = false → s.wat.entries = [] → ∃ t, exec (row.1 q.qid) s = .next t ∧ Started s t q p ∧
      (∃ e ∈ t.wat.entries, e.packet = some (q.qid, p.index) ∧ e.addr = w.2.1) ∧ t.mem = s.mem ∧ t.wq = s.wq)) ∧
  (∀ (s : State) (q : Queue) (p : Packet) (l : Leaf), PacketReady s q p 4 → p.conds = [] → s.wat.entries = [] → p.field 16 8 % 8 = 0 →
    accessIn s q.ctx (if p.field 8 1 % 4 = 1 then needRdW else needW) (p.field 16 8) = .ok l → lineWaits s l (p.field 16 8) = false →
    actingHome s l = none → isPoisoned s l.phys = false → l.phys % 128 = p.field 16 8 % 128 →
    (∀ v ∈ s.ms.invals, v.writer.cls ≠ .packet p.journal) →
    let old := s.ms.rdc.filter (fun r => r.dom == l.dom && r.line == lineOf (p.field 16 8))
    ∃ t, exec (.signalPacket q.qid) s = .next t ∧ t.mem = s.mem ∧
      rdNat t l.phys 8 = (if p.field 8 1 % 4 = 1 then rdNat s l.phys 8 + p.field 24 8 else p.field 24 8) % 2 ^ 64 ∧
      (∀ a, a < l.phys ∨ l.phys + 8 ≤ a → rdByte t a = rdByte s a) ∧
      (old = [] → Completed s t q p 0 ∧
        t.front.msix = s.front.msix ++ (if bitOf (p.field 8 1) 7 then [(q.func, p.field 10 2)] else [])) ∧
      ((∃ r ∈ old, r.die < 4096 ∧ r.die ≠ agentOf s (homeAgent l % 4)) → Started s t q p ∧ t.front.msix = s.front.msix)) ∧
  (∀ (s : State) (q : Queue) (p : Packet), PacketReady s q p 5 → recordsWait s q.ctx (p.hold.getD s.tick) = false →
    ∃ t, exec (.fencePacket q.qid) s = .next t ∧ Completed s t q p 0 ∧ t.mem = s.mem ∧ t.wq = s.wq) ∧
  (∀ (s : State) (q : Queue) (p : Packet) (c : Context), PacketReady s q p 6 → ctxOf? s q.ctx = some c →
    ∃ t d, exec (.loopSet q.qid) s = .next t ∧ Started s t q p ∧ ctxOf? t q.ctx = some d ∧
      d.pendingLoops = c.pendingLoops ++ [(p.journal, p.bytes)] ∧ d.loop = c.loop ∧ t.mem = s.mem ∧ t.wq = s.wq) ∧
  (∀ (s : State) (q : Queue) (p : Packet), PacketReady s q p 7 →
    ∃ t x y, exec (.windowBind q.qid) s = .next t ∧ Started s t q p ∧ queueOf? t q.qid = some x ∧
      x.packets.find? (fun z => z.index == p.index) = some y ∧ y.conds = (List.range 4).filter (fun d => bitOf (p.field 9 1) d) ∧
      t.fab = s.fab ∧ t.mem = s.mem) ∧
  (∀ (s : State) (q : Queue) (p : Packet) (die : Nat), queueOf? s q.qid = some q →
    q.packets.find? (fun p => p.started && memNat die p.conds) = some p → p.conds = [die] →
    s.front.queues.find? (fun x => x.packets.any (fun y => y.journal == p.journal)) = some q →
    (∀ w, windowRec s die q.ctx (p.field 8 1) = some w → w.acked = w.issued) →
    ∃ t, exec (.windowBindApply q.qid die) s = .next t ∧ Completed s t q p 0 ∧ t.mem = s.mem ∧ t.wq = s.wq ∧
      windowRec t die q.ctx (p.field 8 1) =
        some ⟨die, q.ctx, p.field 8 1, p.field 16 8, p.field 12 2, !bitOf (p.field 10 1) 0, p.field 24 8, 0, 0, 0⟩ ∧
      ∀ d c w, (d, c, w) ≠ (die, q.ctx, p.field 8 1) → windowRec t d c w = windowRec s d c w) ∧
  (∀ (s : State) (q : Queue) (p : Packet), PacketReady s q p 8 →
    ∃ t x, exec (.paramBind q.qid) s = .next t ∧ Completed s t q p 0 ∧ queueOf? t q.qid = some x ∧
      x.params = q.params.filter (fun b => b.win != p.field 8 1) ++
        (if bitOf (p.field 9 1) 0 then [] else [⟨p.field 8 1, p.field 16 8, p.field 24 8⟩]) ∧ t.mem = s.mem ∧ t.wq = s.wq) ∧
  (∀ (s : State) (q : Queue) (p : Packet), queueOf? s q.qid = some q → q.packets.find? (fun p => p.started && p.field 1 1 == 3) = some p →
    s.front.queues.find? (fun x => x.packets.any (fun y => y.journal == p.journal)) = some q → p.field 32 8 ≠ 2 ^ 64 - 1 →
    p.startTick + p.field 32 8 ≤ s.tick → NoPacketWatch s →
    ∃ t x, exec (.waitPacketTimeout q.qid) s = .next t ∧ Completed s t q p 8 ∧ queueOf? t q.qid = some x ∧
      x.stopped = (q.stopped || !bitOf (p.field 9 1) 0) ∧ t.mem = s.mem)

/-- R389: a gang launch reserves its members' parts, here by this package's own checks, rolls back after a refusal and tries again 65536
ticks later or gives up past its limit, commits with a start tick and a journal entry once all have reserved, and starts then. -/
def Obligations.GangsStart : Prop :=
  (∀ (s : State) (q : Queue) (p : Packet), PacketReady s q p 2 →
    ∃ t g, exec (.gangPacket q.qid) s = .next t ∧ Started s t q p ∧ t.front.gangs = s.front.gangs ++ [g] ∧ g.ctx = q.ctx ∧ g.qid = q.qid ∧
      g.index = p.index ∧ g.image = (p.bytes.drop 64).take 64 ∧ g.limit = p.field 20 4 ∧ g.lead = p.field 32 4 ∧ g.begun = s.tick ∧
      g.st = .reserving ∧ g.viaduct = none ∧
      g.members = (memberList (p.bytes.drop 128) (p.field 16 2)).map (fun m => ⟨m.1, m.2.1, false, none⟩) ∧ g.coord = s.pkg ∧
      g.packet = p.bytes.take 64 ∧ g.params = captureParams q (launchOf g.image) ∧ t.mem = s.mem) ∧
  (∀ (s : State) (g : Gang) (m : GangMember) (i : Nat) (ok : Bool), gangOf? s g.uid = some g → g.members[i]? = some m → g.st = .reserving →
    m.reserved = false →
    (m.pkg ≠ s.pkg → ∃ t h, exec (.gangReserve g.uid i ok) s = .next t ∧ gangOf? t g.uid = some h ∧
      { t with front := { t.front with gangs := s.front.gangs } } = s ∧
      (if ok then h.st = .reserving ∧ h.members = g.members.set i { m with reserved := true }
       else h.st = .waitRetry ∧ h.retryAt = s.tick + 65536 ∧ h.members = g.members)) ∧
    (∀ c, m.pkg = s.pkg → ctxOf? s g.ctx = some c →
      let l := launchOf g.image
      let lo := i * l.spanCount / g.members.length
      let hi := (i + 1) * l.spanCount / g.members.length
      (c.part = m.part → placeable s c l (hi - lo) = true → l.coop = false → ∃ t h v, exec (.gangReserve g.uid i ok) s = .next t ∧
        gangOf? t g.uid = some h ∧ h.members = g.members.set i { m with reserved := true } ∧ h.viaduct = some v.uid ∧
        t.viaducts = s.viaducts ++ [v] ∧ v.st = .waiting ∧ v.launch = l ∧ v.firstSpan = lo ∧ v.lastSpan = hi ∧ v.gang = some g.uid ∧
        t.mem = s.mem ∧ t.wq = s.wq) ∧
      (c.part ≠ m.part ∨ placeable s c l (hi - lo) = false → ∃ t h, exec (.gangReserve g.uid i ok) s = .next t ∧ gangOf? t g.uid = some h ∧
        h.st = .waitRetry ∧ h.retryAt = s.tick + 65536 ∧ t.viaducts = s.viaducts))) ∧
  (∀ (s : State) (g : Gang), gangOf? s g.uid = some g → g.st = .reserving →
    (g.viaduct.isSome → s.front.jseq < s.front.acked + 2 ^ 20) →
    (if g.coord = s.pkg then ∀ m ∈ g.members, m.reserved = true else g.startAt ≠ 0) →
    ∃ t h, exec (.gangCommit g.uid) s = .next t ∧ gangOf? t g.uid = some h ∧ h.st = .committed ∧
      h.startAt = (if g.coord = s.pkg then
        max (s.tick + g.lead) (s.tick + 2 * Config.gangTransit (g.members.map (fun m => m.pkg))) else g.startAt) ∧
      (∀ n c, g.viaduct = some n → ctxOf? s g.ctx = some c → t.front.jseq = s.front.jseq + 1 ∧
        (∀ w, viaductOf? t n = some w → w.journal = s.front.jseq) ∧
        ∃ e ∈ t.front.journal, e.seq = s.front.jseq ∧ e.type = 2 ∧ e.status = 255 ∧ e.accept = s.tick ∧ e.index = g.index ∧
          e.queue = 0xFFFF ∧ e.owner = c.owner ∧ e.part = c.part ∧ e.ctx = c.num) ∧
      t.mem = s.mem ∧ t.groups = s.groups) ∧
  (∀ (s : State) (g : Gang), gangOf? s g.uid = some g → g.st = .waitRetry →
    ∃ t h, exec (.gangRollback g.uid) s = .next t ∧ gangOf? t g.uid = some h ∧ h.viaduct = none ∧ (∀ m ∈ h.members, m.reserved = false) ∧
      (∀ v ∈ t.viaducts, g.viaduct ≠ some v.uid) ∧ (∀ x ∈ t.spans, g.viaduct ≠ some x.viaduct) ∧
      (∀ x ∈ t.groups, g.viaduct ≠ some x.viaduct) ∧ t.mem = s.mem) ∧
  (∀ (s : State) (g : Gang), gangOf? s g.uid = some g → g.st = .waitRetry → g.viaduct = none → (∀ m ∈ g.members, m.reserved = false) →
    (s.tick < g.begun + g.limit → g.retryAt ≤ s.tick → ∃ t h, exec (.gangRetry g.uid) s = .next t ∧ gangOf? t g.uid = some h ∧
      h.st = .reserving ∧ { t with front := { t.front with gangs := s.front.gangs } } = s) ∧
    (∀ q p, NoPacketWatch s → g.begun + g.limit ≤ s.tick → queueOf? s g.qid = some q → q.packets.find? (fun p => p.index == g.index) = some p →
      s.front.queues.find? (fun x => x.packets.any (fun y => y.journal == p.journal)) = some q →
      ∃ t h, exec (.gangRetry g.uid) s = .next t ∧ gangOf? t g.uid = some h ∧ h.st = .done ∧ Completed s t q p 6)) ∧
  (∀ (s : State) (g : Gang) (v : Viaduct), gangOf? s g.uid = some g → g.st = .committed → g.startAt ≤ s.tick → g.viaduct = some v.uid →
    viaductOf? s v.uid = some v → v.retired < v.lastSpan - v.firstSpan →
    ∃ t h w, exec (.gangStart g.uid) s = .next t ∧ gangOf? t g.uid = some h ∧ h.st = .started ∧ viaductOf? t v.uid = some w ∧
      w.st = .started ∧ w.readyTick = g.startAt ∧ w.startTick = s.tick ∧ t.mem = s.mem ∧ t.wq = s.wq ∧
      t.groups = s.groups.map (fun x => if x.viaduct = v.uid then { x with stamp := coreClk s x.die x.core } else x))

namespace Sys2Proof.Claims

open Sys2Proof Sys2Proof.Machine

/-- R463, R468: t follows s by one more reply of the management mailbox, whatever else a request does. -/
def Answered (s t : State) (func code seq status : Nat) (body : List Byte) : Prop :=
  t.front.replies = s.front.replies ++ [⟨func, code, seq % 65536, status, body⟩]

/-- R463, R468: requests that only full function serves, with their codes. -/
noncomputable def laterRequests (func seq : Nat) : List (Instr × Nat) :=
  [(.mbCertificateChain func seq, 0x11), (.mbErrorRingRead func seq, 0x30), (.mbLifetimeRead func seq, 0x31),
   (.queueUnregister func seq 0, ruleCode 383), (.journalAcknowledge func seq 0, ruleCode 391), (.partitionReset func seq 0, ruleCode 409)]

/-- R463: requests that only the driver of the physical function may send, with their codes. -/
noncomputable def physicalRequests (func seq a b : Nat) (w : W64) : List (Instr × Nat) :=
  [(.mbLifetimeRead func seq, 0x31), (.ownerRecordWrite func seq a w, ruleCode 392), (.partitionReset func seq a, ruleCode 409),
   (.wayBudgetSet func seq a b, ruleCode 4531), (.channelQuotaSet func seq a b, ruleCode 4532), (.clockCapSet func seq a b, ruleCode 454)]

/-- R471: update requests, with their codes. -/
noncomputable def updateRequests (func seq a : Nat) (bs : List Byte) : List (Instr × Nat) :=
  [(.mbUpdateBegin func seq a, 0x20), (.mbUpdateData func seq a bs, 0x21), (.mbUpdateFinish func seq, 0x22), (.mbUpdateCommit func seq, 0x23)]

/-- R391: the pending entry of a sequence number has taken the status cancelled. -/
def Cancelled (s t : State) (seq : Nat) : Prop :=
  ∀ e ∈ s.front.journal, e.seq = seq → e.status = 255 → ∃ f ∈ t.front.journal, f.seq = seq ∧ f.status = 7 ∧ f.done = s.tick

/-- R445: the LOOP-SET packets of a context that are accepted before the end of the period. -/
def dueLoops (s : State) (c : Context) : List (List Byte) :=
  (c.pendingLoops.filter (fun p => s.front.journal.any (fun e => e.seq == p.1 && decide (e.accept < s.ten.periodTick + 65536)))).map
    (fun p => p.2)

/-- R385: the number that the last of some packets gives at an offset. -/
def lastField (ps : List (List Byte)) (lo n old : Nat) : Nat := ((ps.getLast?).map (fun b => bytesToNat ((b.drop lo).take n))).getD old

/-- R478: t follows s by one more error, counted by itself or into a record of the last second. -/
def ErrorNoted (s t : State) (kind : Nat) : Prop :=
  ∃ r ∈ t.dev.errRing, r.kind = kind ∧ s.tick < r.tick + 250000000 ∧ 0 < r.count

end Sys2Proof.Claims

open Sys2Proof Sys2Proof.Machine Sys2Proof.Claims

/-- R375, R379, R383, R391, R392, R403 to R412, R447, R453, R454, R463 to R472, R478, R488: the management mailbox answers every request
with its status: not-ready or busy below stage 4, refused where a virtual function may not ask, and done with the request's effect. -/
def Obligations.MailboxServes : Prop :=
  (∀ (s : State) (func seq : Nat), s.dev.stage ≠ 0 →
    exec (.mbBootStatus func seq) s = .next { s with front := { s.front with replies := s.front.replies ++ [⟨func, 1, seq % 65536, 0,
      natToBytes 4 (s.dev.bootError % 256 * 2 ^ 16 + s.dev.bootSlot % 4 * 2 ^ 8 + s.dev.stage % 16)⟩] } }) ∧
  (∀ (s : State) (func seq : Nat), s.dev.stage ≠ 0 → s.dev.stage ≠ 4 → ∀ r ∈ laterRequests func seq,
    ∃ t, exec r.1 s = .next t ∧ Replied s t func r.2 seq 1 []) ∧
  (∀ (s : State) (func seq a b : Nat) (w : W64), s.dev.stage = 4 → func ≠ 0 → ∀ r ∈ physicalRequests func seq a b w,
    ∃ t, exec r.1 s = .next t ∧ Replied s t func r.2 seq 3 []) ∧
  (∀ (s : State) (func seq a : Nat) (bs : List Byte), s.dev.stage ≠ 0 → ∀ r ∈ updateRequests func seq a bs,
    (func ≠ 0 → ∃ t, exec r.1 s = .next t ∧ Replied s t func r.2 seq 3 []) ∧
    (func = 0 → s.dev.stage ≠ 4 → ∃ t, exec r.1 s = .next t ∧ Replied s t func r.2 seq 2 [])) ∧
  (∀ (s : State) (func seq : Nat) (nonce : List Byte), s.dev.stage = 4 → nonce.length = 32 →
    let rs := s.dev.reports.filter (fun r => r.1 != func) ++ [(func, signed s (reportBody s nonce))]
    ∃ t, exec (.mbAttestationReport func seq nonce) s = .next t ∧
      Replied { s with dev := { s.dev with reports := rs } } t func 0x10 seq 0 (natToBytes 8 (Config.reportAddress func).toNat)) ∧
  (∀ (s : State) (func seq : Nat), s.dev.stage = 4 → ∃ t, exec (.mbCertificateChain func seq) s = .next t ∧
    Replied s t func 0x11 seq 0 (natToBytes 8 Config.chainAddress.toNat ++ natToBytes 4 s.dev.chain.length)) ∧
  (∀ (s : State) (seq slot : Nat), s.dev.stage = 4 → s.dev.update = none → slot < 2 → slot ≠ s.dev.bootSlot →
    let fl := s.dev.flash.set slot { flashSlot s slot with valid := false }
    ∃ t, exec (.mbUpdateBegin 0 seq slot) s = .next t ∧
      Replied { s with dev := { s.dev with flash := fl, update := some slot, staged := if s.dev.staged = some slot then none else s.dev.staged } }
        t 0 0x20 seq 0 []) ∧
  (∀ (s : State) (seq off n : Nat) (data : List Byte), s.dev.stage = 4 → s.dev.update = some n → data.length ≤ 48 →
    let image := (flashSlot s n).image
    let new := fitTo 0xFF off image ++ data ++ image.drop (off + data.length)
    let fl := s.dev.flash.set n { flashSlot s n with image := new }
    ∃ t, exec (.mbUpdateData 0 seq off data) s = .next t ∧ Replied { s with dev := { s.dev with flash := fl } } t 0 0x21 seq 0 []) ∧
  (∀ (s : State) (seq n : Nat), s.dev.stage = 4 → s.dev.update = some n →
    let fl := s.dev.flash.set n { flashSlot s n with valid := true }
    ∃ t, exec (.mbUpdateFinish 0 seq) s = .next t ∧
      (if imageGood s (flashSlot s n).image then
        Replied { s with dev := { s.dev with update := none, flash := fl, preferred := n, staged := some n } } t 0 0x22 seq 0 []
       else Replied { s with dev := { s.dev with update := none } } t 0 0x22 seq 4 [])) ∧
  (∀ (s : State) (seq : Nat), s.dev.stage = 4 → s.dev.bootSlot = s.dev.preferred → s.dev.bootError = 0 →
    ∃ t, exec (.mbUpdateCommit 0 seq) s = .next t ∧
      Replied { s with dev := { s.dev with floor := max s.dev.floor (min (runningSvn s) 63) } } t 0 0x23 seq 0 []) ∧
  (∀ (s : State) (func seq : Nat), s.dev.stage = 4 → ∃ t, exec (.mbErrorRingRead func seq) s = .next t ∧
    Replied s t func 0x30 seq 0 (natToBytes 4 s.dev.errLost ++ (s.dev.errRing.filter (fun r =>
      func == 0 || s.ten.ctxs.any (fun c => c.func == func && c.owner == r.owner))).flatMap ErrRec.bytes)) ∧
  (∀ (s : State) (seq : Nat), s.dev.stage = 4 → ∃ t, exec (.mbLifetimeRead 0 seq) s = .next t ∧
    Replied s t 0 0x31 seq 0 (s.dev.lifeRing.flatMap LifeRec.bytes ++ s.dev.lifeTotal.bytes)) ∧
  (∀ (s : State) (func seq qid qcb : Nat) (c : Context) (bs : List Byte), s.dev.stage = 4 → ctxOf? s c.num = some c → mayActOn s func c.num = true →
    queueOf? s qid = none → qid < 65536 → readVa s c.num needRdW qcb 64 = .ok bs → qcbGood s c.num bs = true →
    ∃ t x, exec (.queueRegister func seq c.num qid qcb) s = .next t ∧ Answered s t func (ruleCode 375) seq 0 [] ∧ queueOf? t qid = some x ∧
      x.ctx = c.num ∧ x.func = c.func ∧ x.qcb = qcb ∧ x.base = fld bs 0 8 ∧ x.rd = 0 ∧ x.size = fld bs 24 1 ∧ x.pub = fld bs 25 1 ∧
      x.halt = bitOf (fld bs 26 1) 0 ∧ x.stopped = false ∧ x.mapped = false ∧ x.packets = [] ∧ t.mem = s.mem) ∧
  (∀ (s : State) (func seq : Nat) (q : Queue), s.dev.stage = 4 → queueOf? s q.qid = some q → mayActOn s func q.ctx = true →
    NoPacketWatch s → ∃ t, exec (.queueUnregister func seq q.qid) s = .next t ∧ Answered s t func (ruleCode 383) seq 0 [] ∧ (∀ x ∈ t.front.queues, x.qid ≠ q.qid) ∧
      (∀ p ∈ q.packets, (p.started && (p.field 1 1 == 1 || p.field 1 1 == 2)) = false → Cancelled s t p.journal) ∧ t.mem = s.mem) ∧
  (∀ (s : State) (func seq index : Nat) (cancel : Bool) (q : Queue), s.dev.stage = 4 → queueOf? s q.qid = some q →
    mayActOn s func q.ctx = true → q.stopped = true → NoPacketWatch s →
    ∃ t x, exec (.queueRestart func seq q.qid index cancel) s = .next t ∧ Answered s t func (ruleCode 379) seq 0 [] ∧
      queueOf? t q.qid = some x ∧ x.stopped = false ∧ x.rd = index ∧ x.looking = true ∧ t.mem = s.mem ∧
      (if cancel then ∀ p ∈ q.packets, p.started = false → Cancelled s t p.journal
       else x.packets = q.packets ∧ t.front.journal = s.front.journal)) ∧
  (∀ (s : State) (func seq upTo : Nat), s.dev.stage = 4 → upTo ≤ s.front.jseq → ∃ t, exec (.journalAcknowledge func seq upTo) s = .next t ∧
    Replied { s with front := { s.front with acked := max s.front.acked upTo } } t func (ruleCode 391) seq 0 []) ∧
  (∀ (s : State) (seq owner : Nat) (w : W64), s.dev.stage = 4 → owner < 256 → 25000 ≤ bitsOf w.toNat 53 32 → bitsOf w.toNat 53 32 ≤ 2500000 →
    bitsOf w.toNat 23 16 ≠ 0 → ∃ t, exec (.ownerRecordWrite 0 seq owner w) s = .next t ∧ Answered s t 0 (ruleCode 392) seq 0 [] ∧
      ownerRec t owner = { ownerRec s owner with recallTicks := bitsOf w.toNat 53 32, weight := bitsOf w.toNat 23 16, parts := bitsOf w.toNat 15 0 } ∧
      (∀ n, n ≠ owner → ownerRec t n = ownerRec s n) ∧ t.ten.ctxs = s.ten.ctxs) ∧
  (∀ (s : State) (func seq owner : Nat) (w : W),
    let n := w.toNat
    let e := mapGet 0 s.ten.partMap (bitsOf n 9 8 * 256 + bitsOf n 7 0)
    s.dev.stage = 4 → bitOf e 12 = true → bitsOf e 11 4 = owner →
    let ls := s.ten.lends.filter (fun m => !(m.die == bitsOf n 9 8 && m.quad == bitsOf n 7 0)) ++
      [⟨owner, bitOf n 25, bitOf n 24, bitsOf n 23 16, bitsOf n 9 8, bitsOf n 7 0⟩]
    ∃ t, exec (.lendEntryWrite func seq owner w) s = .next t ∧
      Replied { s with ten := { s.ten with lends := ls } } t func (ruleCode 403) seq 0 []) ∧
  (∀ (s : State) (func seq : Nat) (l : Lend), s.dev.stage = 4 →
    s.ten.lends.find? (fun x => x.owner == l.owner && x.die == l.die && x.quad == l.quad) = some l →
    ∃ t p, exec (.recallRequest func seq l.owner l.die l.quad) s = .next t ∧ Answered s t func (ruleCode 404) seq 0 [] ∧
      t.ten.lends = s.ten.lends.filter (fun m => !(m.die == l.die && m.quad == l.quad)) ∧ t.ten.preempts = s.ten.preempts ++ [p] ∧
      p.die = l.die ∧ p.core = 4 * l.quad ∧ p.isQuad = true ∧ p.beneficiary = some l.owner ∧ p.isRecall = true ∧ p.start = s.tick ∧
      p.deadline = (ownerRec s l.owner).recallTicks) ∧
  (∀ (s : State) (func seq die code mask : Nat) (slices : List Nat), s.dev.stage = 4 → mask ≠ 0 → mask < 65536 → code ≤ 256 → die < 4 →
    (∀ x ∈ slices, x < 256) →
    ∃ t, exec (.wayMaskSet func seq die slices code mask) s = .next t ∧ Answered s t func (ruleCode 405) seq 0 [] ∧
      let m (u : State) (k : Nat) : Nat := 65535 - mapGet 0 (if code = 256 then u.ten.sysMask else (ownerRec u code).masks) k
      (∀ x ∈ slices, m t (die * 256 + x) = mask) ∧ ∀ k, (∀ x ∈ slices, k ≠ die * 256 + x) → m t k = m s k) ∧
  (∀ (s : State) (func seq die slice : Nat), s.dev.stage = 4 → ∃ t, exec (.occupancyRead func seq die slice) s = .next t ∧
    Replied s t func (ruleCode 407) seq 0 ((List.range 257).flatMap (fun c =>
      natToBytes 2 (s.ms.l2.filter (fun x => x.die == die && x.slice == slice && x.filler == c)).length))) ∧
  (∀ (s : State) (seq part : Nat), s.dev.stage = 4 → part < 16 → ∃ t, exec (.partitionReset 0 seq part) s = .next t ∧
    Answered s t 0 (ruleCode 409) seq 0 [] ∧ (∀ c ∈ t.ten.ctxs, c.part ≠ part) ∧
    ∀ c ∈ s.ten.ctxs, c.part = part → (∀ g ∈ t.groups, g.ctx ≠ c.num) ∧ (∀ x ∈ t.spans, x.ctx ≠ c.num) ∧
      (∀ q ∈ t.front.queues, q.ctx ≠ c.num) ∧ ∃ d ∈ t.ten.dying, d.1.num = c.num) ∧
  (∀ (s : State) (func seq owner : Nat) (nonce : List Byte), s.dev.stage = 4 → nonce.length = 32 → owner < 256 →
    ∃ t, exec (.usageSnapshot func seq owner nonce) s = .next t ∧
      Replied s t func (ruleCode 412) seq 0 (signed s (natToBytes 2 1 ++ natToBytes 1 owner ++ natToBytes 1 0 ++ natToBytes 4 s.ten.periods ++
        natToBytes 8 s.ten.epoch.toNat ++ natToBytes 8 s.ten.periodTick ++
        (fitTo 0 5 (ownerRec s owner).usageEnd).flatMap (natToBytes 8) ++ nonce))) ∧
  (∀ (s : State) (seq part n : Nat), s.dev.stage = 4 → part < 16 → 0 < n → n ≤ 16 → ∃ t, exec (.wayBudgetSet 0 seq part n) s = .next t ∧
    Replied { s with ten := { s.ten with wayBudget := mapSet 16 s.ten.wayBudget part n } } t 0 (ruleCode 4531) seq 0 []) ∧
  (∀ (s : State) (seq part n : Nat), s.dev.stage = 4 → part < 16 → 0 < n → n ≤ 64 →
    let others := (List.range 16).filter (fun p => p != part && (memNat p (partsInUse s) || s.ten.chanQuota.any (fun q => q.1 == p)))
    ((others.map (chanQuotaOf s)).sum + n ≤ 64 → ∃ t, exec (.channelQuotaSet 0 seq part n) s = .next t ∧
      Replied { s with ten := { s.ten with chanQuota := mapSet 0 s.ten.chanQuota part n } } t 0 (ruleCode 4532) seq 0 []) ∧
    (64 < (others.map (chanQuotaOf s)).sum + n → ∃ t, exec (.channelQuotaSet 0 seq part n) s = .next t ∧
      Replied s t 0 (ruleCode 4532) seq 3 [])) ∧
  (∀ (s : State) (seq die step : Nat), s.dev.stage = 4 → die < 4 → step ≤ 7 → s.dev.clockCap.length = 4 → s.dev.clockCeil.length = 4 →
    ∃ t, exec (.clockCapSet 0 seq die step) s = .next t ∧ Answered s t 0 (ruleCode 454) seq 0 [] ∧ nthD 7 t.dev.clockCap die = step ∧
      nthD 7 t.dev.clockCeil die = min step (nthD 7 s.dev.clockCeil die) ∧ t.dev.clockStep = s.dev.clockStep) ∧
  (∀ (s : State) (func seq : Nat) (c : Context), s.dev.stage = 4 → ctxOf? s c.num = some c → mayActOn s func c.num = true →
    ∃ t, exec (.loopRecordRead func seq c.num) s = .next t ∧ Replied s t func (ruleCode 447) seq 0 c.loop.bytes)

/-- R345, R346, R411, R445 to R456: a sample period ends with its counts latched and its LOOP-SET packets in effect; the beats of a group
are merged; every loop that ran is updated by its controller; grants come into force; a die's clock follows the votes; and a pool word
changes while its pool holds no slot. -/
def Obligations.LoopsRun : Prop :=
  (∀ (s : State), s.ten.periodTick + 65536 ≤ s.tick → (s.ten.ctxs.map Context.num).Nodup →
    ∃ t, exec .sampleLatch s = .next t ∧ t.ten.periodTick = s.ten.periodTick + 65536 ∧ t.ten.periods = s.ten.periods + 1 ∧ t.ten.phase = 1 ∧
      t.mem = s.mem ∧ ∀ c ∈ s.ten.ctxs, ∃ d, ctxOf? t c.num = some d ∧
        d.loop.ylatch = c.loop.ycur ∧ d.loop.ycur = c.loop.ynext ∧ d.loop.ynext = 0 ∧ d.loop.rlatch = c.loop.rtick ∧
        d.loop.rtick = c.loop.rnext ∧ d.loop.rnext = 0 ∧ d.loop.u = c.loop.u ∧
        d.loop.ceilings = some (reachCount s c, leastWays s c.owner) ∧
        d.loop.r = lastField (dueLoops s c) 8 3 c.loop.r ∧ d.loop.kp = lastField (dueLoops s c) 12 2 c.loop.kp ∧
        d.loop.ki = lastField (dueLoops s c) 14 2 c.loop.ki ∧ d.loop.weight = lastField (dueLoops s c) 17 1 c.loop.weight ∧
        d.loop.bgroup = lastField (dueLoops s c) 20 4 c.loop.bgroup) ∧
  (∀ (s : State) (bgroup y : Nat) (late : Bool), s.ten.phase = 1 → bgroup ≠ 0 → y < 2 ^ 24 → s.tick ≤ s.ten.periodTick + 8192 →
    let upd (c : Context) : Context :=
      if c.loop.bgroup ≠ bgroup ∨ c.loop.rlatch < 32768 then c
      else { c with loop := if late then { c.loop with partialMerge := true }
                            else { c.loop with merged := some (min y (c.loop.merged.getD c.loop.ylatch)) } }
    exec (.beatGroupMerge bgroup y late) s = .next { s with ten := { s.ten with ctxs := s.ten.ctxs.map upd } }) ∧
  (∀ (s : State), s.ten.phase = 1 → s.ten.periodTick + 8192 ≤ s.tick → (s.ten.ctxs.map Context.num).Nodup →
    ∃ t, exec .loopUpdate s = .next t ∧ t.ten.phase = 2 ∧ t.mem = s.mem ∧ ∀ c ∈ s.ten.ctxs, ∃ d, ctxOf? t c.num = some d ∧
      let k := s.ten.periodTick / 65536 % 2 ^ 32
      let acts := (c.loop.ceilings.map (fun p => actuatorsOf p.1 p.2)).getD (actuators s c)
      d.loop.r = c.loop.r ∧ d.loop.grant = c.loop.grant ∧ d.coreGrants = c.coreGrants ∧
      ((∃ x ∈ s.spans, x.ctx = c.num) → (∀ x ∈ s.spans, x.ctx = c.num → x.residence = .saved ∧ x.evicting = false) → d = c) ∧
      ((∀ x ∈ s.spans, x.ctx ≠ c.num) → c.loop.r = 0 →
        d.loop.u = 65535 ∧ d.loop.demand = acts.map (fun a => a.2.1) ∧ d.loop.period = k ∧ d.loop.integ = c.loop.integ) ∧
      ((∃ x ∈ s.spans, x.ctx = c.num ∧ x.residence = .resident) → c.loop.r = 0 →
        d.loop.u = 65535 ∧ d.loop.demand = acts.map (fun a => a.2.1) ∧ d.loop.period = k ∧ d.loop.integ = c.loop.integ) ∧
      ((∃ x ∈ s.spans, x.ctx = c.num ∧ x.residence = .resident) → c.loop.r ≠ 0 → c.loop.rlatch < 32768 →
        bitOf d.loop.flags 3 = true ∧ d.loop.u = c.loop.u ∧ d.loop.integ = c.loop.integ ∧ d.loop.demand = c.loop.demand ∧
        d.loop.period = c.loop.period) ∧
      ((∃ x ∈ s.spans, x.ctx = c.num ∧ x.residence = .resident) → c.loop.r ≠ 0 → 32768 ≤ c.loop.rlatch → c.loop.bgroup = 0 →
        let y := c.loop.merged.getD c.loop.ylatch
        let e := max (-32768) (min 32767 ((((c.loop.r : Int) - y) * 32768).tdiv c.loop.r))
        let dI := (c.loop.ki : Int) * e / 4096
        let hold := (c.loop.u = 65535 ∧ 0 < dI) ∨ (c.loop.u = 0 ∧ dI < 0) ∨ (bitOf c.loop.flags 2 = true ∧ 0 < dI)
        let i := max 0 (min 65535 ((c.loop.integ : Int) + (if hold then 0 else dI)))
        let v := max 0 (min 65535 ((c.loop.kp : Int) * e / 4096 + i))
        let sigma := (acts.map (fun a => (a.2.1 - a.1) / a.2.2)).sum
        d.loop.ylast = y ∧ d.loop.err = e ∧ (d.loop.integ : Int) = i ∧ (d.loop.u : Int) = v ∧ d.loop.sigma = sigma ∧
          (d.loop.steps : Int) = (v * sigma + 32767) / 65535 ∧ d.loop.period = k ∧ bitOf d.loop.flags 3 = false ∧
          (bitOf d.loop.flags 0 = true ↔ v = 65535) ∧ (bitOf d.loop.flags 1 = true ↔ v = 0))) ∧
  (∀ (s : State), s.ten.phase = 2 → s.ten.periodTick + 12288 ≤ s.tick → s.dev.clockCeil.length = 4 →
    ∃ t, exec .grantApply s = .next t ∧ t.ten.phase = 3 ∧ t.ten.ctxs = s.ten.ctxs.map (fun c =>
        { c with coreGrants := c.newCoreGrants, loop := { c.loop with grant := c.loop.newGrant } }) ∧
      (∀ d, d < 4 → nthD 7 t.dev.clockCeil d ≤ min 7 (nthD 7 s.dev.clockCap d)) ∧ t.dev.clockStep = s.dev.clockStep ∧ t.mem = s.mem) ∧
  (∀ (s : State) (die : Nat),
    let votes := (s.ten.ctxs.filter (fun c => s.spans.any (fun x => x.ctx == c.num && x.die == die && x.residence != .saved))).map
      (fun c => if nthD 0 c.loop.grant 0 = 0 then 7 else nthD 0 c.loop.grant 4)
    let step := if s.dev.stage ≠ 4 ∨ votes = [] then 0 else min (nthD 7 s.dev.clockCeil die) (votes.foldl max 0)
    exec (.clockStepChange die) s = .next { s with dev := { s.dev with clockStep := s.dev.clockStep.set die step } }) ∧
  (∀ (s : State) (c : Context) (die : Nat) (word : W64), die < 4 → ctxOf? s c.num = some c →
    let slots := bitsOf word.toNat 63 48
    let entry := bitsOf word.toNat 14 0
    ((∃ m ∈ s.fab.slots, m.die = die ∧ m.ctx = c.num ∧ m.st ≠ .free) → exec (.poolWordSet c.num die word) s = .next s) ∧
    ((∀ m ∈ s.fab.slots, m.die = die → m.ctx = c.num → m.st = .free) → (∀ p ∈ s.fab.pools, p.die = die → p.ctx = c.num) →
      bitsOf word.toNat 27 15 = 0 → 0 < slots → slots ≤ 32768 → 0 < entry → entry ≤ 16384 → 4 * entry ≤ 1024 * (bitsOf word.toNat 35 30 + 1) →
      (slots + bitsOf word.toNat 47 36) * (bitsOf word.toNat 35 30 + 1) ≤ 32768 →
      ∃ t p d, exec (.poolWordSet c.num die word) s = .next t ∧ p ∈ t.fab.pools ∧ p.die = die ∧ p.ctx = c.num ∧ p.word = word ∧
        ctxOf? t c.num = some d ∧ d.pools = c.pools.set die word ∧ t.fab.slots = s.fab.slots.filter (fun m => !(m.die == die && m.ctx == c.num)) ∧
        t.mem = s.mem ∧ t.wq = s.wq))

/-- R453: what the allocator gives of a pool never exceeds its capacity where the floors fit, and every context of a class gets at least
its floor and at most its demand. -/
def Obligations.GrantsFit : Prop :=
  ∀ (cap : Nat) (as : List Asker), (∀ a ∈ as, a.floor ≤ a.demand ∧ a.cls < 4) → (as.map (fun a => a.floor)).sum ≤ cap →
    ((allocate cap as).map (fun g => g.2)).sum ≤ cap ∧
    (∀ a ∈ as, ∃ g ∈ allocate cap as, g.1 = a.ctx ∧ a.floor ≤ g.2 ∧ g.2 ≤ a.demand) ∧
    ((as.map (fun a => a.demand)).sum ≤ cap → allocate cap as = as.map (fun a => (a.ctx, a.demand)))

/-- R464, R473 to R483: a link takes the next good flit and drops any other; an acknowledgement empties the resend buffer, a refusal is
counted, retraining begins at the limits and takes a link down after three failures,
whose unanswered window lanes are sent again; a corrected or uncorrectable error is recorded, and
a lost line is poisoned; a failing frame is moved. -/
def Obligations.LinksAndErrors : Prop :=
  (∀ (s : State) (l : Link) (seq : Nat) (ok : Bool), linkOf? s l.port = some l →
    (l.up = true → l.training = false → ok = true → seq = l.nextRecv →
      exec (.flitReceive l.port seq ok) s = .next { s with dev := { s.dev with
        links := updateFirst (fun x => x.port == l.port) (fun x => { x with nextRecv := x.nextRecv + 1 }) s.dev.links } }) ∧
    (ok = false ∨ seq ≠ l.nextRecv → exec (.flitReceive l.port seq ok) s = .next s)) ∧
  (∀ (s : State) (l : Link) (seq : Nat), linkOf? s l.port = some l → l.up = true → l.training = false → seq ∈ l.unacked → seq < l.nextSend →
    (∃ t m, exec (.flitAck l.port seq) s = .next t ∧ linkOf? t l.port = some m ∧ m.unacked = l.unacked.filter (fun n => decide (seq < n)) ∧
      m.sameRefusals = 0 ∧ m.nextSend = l.nextSend ∧ m.nextRecv = l.nextRecv) ∧
    (∃ t m, exec (.flitNack l.port seq) s = .next t ∧ linkOf? t l.port = some m ∧ m.unacked = l.unacked.filter (fun n => decide (seq ≤ n)) ∧
      m.sameRefusals = (if l.unacked.head? = some seq ∧ l.sameRefusals ≠ 0 then l.sameRefusals + 1 else 1) ∧
      m.refusals = l.refusals.filter (fun n => decide (s.tick < n + 2 ^ 20)) ++ [s.tick] ∧ m.nextSend = l.nextSend ∧ ErrorNoted s t 6)) ∧
  (∀ (s : State) (l : Link) (seq : Nat), linkOf? s l.port = some l → l.up = true → l.training = false → l.nextSend ≤ seq →
    seq < l.unacked.headD l.nextSend + 256 → (∀ n ∈ l.unacked, n < l.nextSend) →
    (∃ t m, exec (.flitAck l.port seq) s = .next t ∧ linkOf? t l.port = some m ∧ m.unacked = [] ∧ m.sameRefusals = 0 ∧ m.nextSend = seq + 1) ∧
    (∃ t m, exec (.flitNack l.port seq) s = .next t ∧ linkOf? t l.port = some m ∧ m.unacked = [seq] ∧ m.nextSend = seq + 1 ∧
      m.refusals = l.refusals.filter (fun n => decide (s.tick < n + 2 ^ 20)) ++ [s.tick] ∧ ErrorNoted s t 6)) ∧
  (∀ (s : State) (l : Link), linkOf? s l.port = some l → l.up = true → l.training = false →
    (16 ≤ l.sameRefusals ∨ 64 ≤ (l.refusals.filter (fun n => decide (s.tick < n + 2 ^ 20))).length →
      ∃ t m, exec (.linkRetrain l.port) s = .next t ∧ linkOf? t l.port = some m ∧ m.training = true ∧ m.retrains = l.retrains + 1 ∧
        m.sameRefusals = 0 ∧ m.refusals = [] ∧ m.unacked = l.unacked ∧ ErrorNoted s t 7) ∧
    (l.sameRefusals < 16 → (l.refusals.filter (fun n => decide (s.tick < n + 2 ^ 20))).length < 64 →
      exec (.linkRetrain l.port) s = .next s)) ∧
  (∀ (s : State) (l : Link), linkOf? s l.port = some l → l.training = true →
    (∃ t m, exec (.retrainComplete l.port true) s = .next t ∧ linkOf? t l.port = some m ∧ m.training = false ∧ m.failedTrains = 0 ∧
      m.up = l.up ∧ m.unacked = l.unacked) ∧
    (∃ t m, exec (.retrainComplete l.port false) s = .next t ∧ linkOf? t l.port = some m ∧
      (if l.failedTrains < 2 then m.failedTrains = l.failedTrains + 1 ∧ m.up = l.up ∧ m.training = true
       else m.up = false ∧ m.training = false ∧ m.unacked = [] ∧ ErrorNoted s t 8 ∧
        (l.port < 24 → ∀ c ∈ s.eng.fabs, c.kind.streams = true → localAgent s c.src = true → ∀ x ∈ c.lanes, x.applied = true →
          x.acked = false → localAgent s x.agent = false →
          (⟨c.uid, x.lane, c.ctx, c.src, x.agent, x.win, x.seq⟩ : Resent) ∈ t.fab.resent)))) ∧
  (∀ (s : State) (l : Link), linkOf? s l.port = some l → l.up = false → l.port < 24 → s.dev.stage = 4 →
    ∃ t m, exec (.causewayPortRetry l.port true) s = .next t ∧ linkOf? t l.port = some m ∧ m.up = true ∧ m.retrains = l.retrains ∧
      m.nextSend = 0 ∧ m.nextRecv = 0 ∧ m.unacked = []) ∧
  (∀ (s : State) (addr symbol : Nat), addr / 2 ^ 39 = s.pkg →
    let h := Config.hbmPlace (addr / 128 * 128)
    let key (kind : Nat) : Nat := (h.1 % 8 * 1536 + h.2.1 % 1536) * 3 + kind
    exec (.patrolScrub addr symbol .clean) s = .next s ∧
    (∀ r ∈ [(EccResult.soft, 0), (.persistent, 1), (.uncorrectable, 2)], ∃ t, exec (.patrolScrub addr symbol r.1) s = .next t ∧
      ErrorNoted s t (r.2 + 1) ∧ mapGet 0 t.dev.ecc (key r.2) = min 65535 (mapGet 0 s.dev.ecc (key r.2) + 1) ∧
      (∀ k, k ≠ key r.2 → mapGet 0 t.dev.ecc k = mapGet 0 s.dev.ecc k) ∧ t.mem = s.mem ∧ t.wq = s.wq ∧
      (r.1 = .uncorrectable → isPoisoned t (addr / 128 * 128) = true) ∧ (r.1 ≠ .uncorrectable → t.side = s.side) ∧
      (r.1 = .persistent → addr % 2 ^ 39 / 65536 ∈ t.dev.retireAsks))) ∧
  (∀ (s : State) (site : SramSite), ∃ t, exec (.sramError site false) s = .next t ∧ ErrorNoted s t 4 ∧ t.groups = s.groups ∧ t.spans = s.spans ∧
    t.side = s.side ∧ t.ms = s.ms ∧ t.mem = s.mem ∧ t.wq = s.wq) ∧
  (∀ (s : State) (g : Machine.Group) (reg lane : Nat), s.g.gid = 0 → g.gid ≠ 0 → groupOf? s g.gid = some g →
    ∃ t h, exec (.sramError (.registerFile g.gid reg lane) true) s = .next t ∧ groupOf? t g.gid = some h ∧ reg * 32 + lane ∈ h.regPoison ∧
      h.regs = g.regs ∧ t.mem = s.mem) ∧
  (∀ (s : State) (e : SbEntry) (l : Leaf), entryOf? s e.uid = some e → e.st = .draining → accessIn s e.ctx ⟨false, false, false⟩ e.line = .ok l →
    ∃ t, exec (.sramError (.storeEntry e.uid) true) s = .next t ∧ isPoisoned t l.phys = true ∧ ErrorNoted s t 5 ∧ t.mem = s.mem) ∧
  (∀ (s : State) (hart : Nat), hart < s.dev.hartRestarts.length → ∃ t, exec (.sramError (.firmware hart) true) s = .next t ∧
    ErrorNoted s t 5 ∧ (hart = 0 → t.dev.stage = 0 ∧ t.mem = s.mem) ∧
    (hart ≠ 0 → nthD 0 t.dev.hartRestarts hart = nthD 0 s.dev.hartRestarts hart + 1)) ∧
  (∀ (s : State) (c : Context) (va frame : Nat) (l : Leaf), ctxOf? s c.num = some c → walkVa s c va = .ok l → va % 65536 = 0 → l.size < 2 →
    mustRetire s l.phys = true → retireTo s c l frame = true → soleMapping s c.num va l.phys = true →
    (repairFull s l.phys = true → ∃ t, exec (.frameRetire c.num va frame) s = .next t ∧ (∃ r ∈ t.dev.errRing, r.kind = 10 ∧ r.paddr = l.phys) ∧ t.mem = s.mem ∧ t.wq = s.wq ∧
      t.dev.repairs = s.dev.repairs) ∧
    (∀ r : Pte × Nat × Nat, repairFull s l.phys = false → pageBusy s l.dom va 65536 = false → bitsOf frame 22 21 = homeAgent l % 4 →
      Memory.wf s.mem = true → s.wq = [] → c.stage2 = 0 →
      let new := l.pte.hpkg * 2 ^ 39 + frame * 65536
      let b := if l.size % 2 = 1 ∨ l.pte.run then clearRun c va s else s
      new + 65536 ≤ l.phys ∨ l.phys + 65536 ≤ new → leafEntry? (moveFrame l.dom va l.phys new true b) c va = some r → r.2.1 = 3 →
      r.2.2 + 8 ≤ new ∨ new + 65536 ≤ r.2.2 →
      ∃ t x, exec (.frameRetire c.num va frame) s = .next t ∧ rdNat t r.2.2 8 = { r.1 with hpkg := l.pte.hpkg, frame := frame }.toNat ∧
        x ∈ t.dev.repairs ∧ x.frame = l.phys % 2 ^ 39 / 65536 ∧ (∃ y ∈ t.dev.errRing, y.kind = 10 ∧ y.paddr = l.phys) ∧
        (∀ n ∈ t.dev.retireAsks, n ≠ x.frame) ∧
        (l.size = 0 → l.pte.run = false → ∀ i, i < 65536 → rdByte t (new + i) = rdByte s (l.phys + i))))

/-- R5, R391, R411, R463 to R467, R480 to R488: the start goes from reset through ROM, training and full function, or halts safe; a watchdog
restarts a hart or resets the device; a device reset keeps memory, poison, the journal and the long-term records, a loss of power does not
keep memory; an hour ends with a lifetime record; and plain writes obey the access codes. -/
def Obligations.DeviceStarts : Prop :=
  (∀ (s : State), s.dev.stage = 0 → exec .resetRelease s = .next { s with dev := { s.dev with stage := 1, udsLocked := true } }) ∧
  (∀ (s : State), s.dev.stage = 1 →
    let first := s.dev.preferred % 2
    let d : Device :=
      if s.dev.bootError = 0 then
        (if slotGood s first then { s.dev with stage := 2, bootSlot := first } else { s.dev with bootError := first + 1 })
      else if slotGood s (1 - first) then { s.dev with stage := 2, bootSlot := 1 - first }
      else { s.dev with stage := 15, bootError := 3 }
    exec .resetRelease s = .next { s with dev := d }) ∧
  (∀ (s : State) (ok : Bool), s.dev.stage = 2 →
    exec (.hbmTrainingComplete false ok) s = .next { s with dev := { s.dev with stage := 15, bootSlot := 3, bootError := 4 } } ∧
    ∃ t, exec (.hbmTrainingComplete true ok) s = .next t ∧ t.dev.stage = 3 ∧ t.dev.bootError = (if ok then s.dev.bootError else 5) ∧
      (∀ p, p < 30 → ∃ l, linkOf? t p = some l ∧ (ok = true → l.up = true) ∧ l.training = false ∧ l.nextSend = 0 ∧ l.nextRecv = 0 ∧
        l.unacked = []) ∧ t.mem = s.mem) ∧
  (∀ (s : State), s.dev.stage = 3 → ∃ t, exec .fullFunctionStart s = .next t ∧ t.dev.stage = 4 ∧ t.dev.alias2 = alias2Key s ∧ t.dev.chain = certificateChain s ∧
    t.dev.harts = List.replicate 8 true ∧ t.front.journal = s.front.journal.map (fun e =>
      if e.status = 255 then { e with status := 7, done := s.tick } else e) ∧
    (s.dev.journalAt ≠ [] → t.dev.journalAt = s.dev.journalAt) ∧ t.mem = s.mem) ∧
  (∀ (s : State) (hart : Nat), nthD false s.dev.harts hart = true → hart < s.dev.hartRestarts.length →
    (hart = 0 → exec (.watchdogExpiry hart) s = exec .deviceReset s) ∧
    (hart ≠ 0 → ∃ t, exec (.watchdogExpiry hart) s = .next t ∧ Answered s t 0 (ruleCode 467) 0 0 (natToBytes 1 hart) ∧
      nthD 0 t.dev.hartRestarts hart = nthD 0 s.dev.hartRestarts hart + 1 ∧ t.groups = s.groups ∧ t.mem = s.mem)) ∧
  (∀ (s : State), s.side.Pairwise (fun p q => p.1 < q.1) → ∃ t, exec .deviceReset s = .next t ∧ t.dev.stage = 0 ∧ t.mem = s.mem ∧ t.wq = s.wq ∧
    (∀ a, isPoisoned t a = isPoisoned s a) ∧ t.front.journal = s.front.journal ∧ t.front.jseq = s.front.jseq ∧ t.front.acked = s.front.acked ∧
    t.dev.flash = s.dev.flash ∧ t.dev.preferred = s.dev.preferred ∧ t.dev.floor = s.dev.floor ∧ t.dev.ecc = s.dev.ecc ∧
    t.dev.repairs = s.dev.repairs ∧ t.dev.retireAsks = s.dev.retireAsks ∧ t.dev.journalAt = s.dev.journalAt ∧
    t.dev.lifeRing = s.dev.lifeRing ∧ t.groups = [] ∧ t.spans = [] ∧ t.viaducts = [] ∧ t.front.queues = [] ∧
    t.ms.entries = [] ∧ t.tick = s.tick ∧ t.pkg = s.pkg) ∧
  (∀ (s : State), ∃ t, exec .powerLoss s = .next t ∧ t.dev.stage = 0 ∧ t.mem = [] ∧ t.wq = [] ∧ t.side = [] ∧ t.front.journal = [] ∧
    t.front.jseq = 0 ∧ t.ten.owners = [] ∧ t.dev.ecc = [] ∧ t.dev.flash = s.dev.flash ∧ t.dev.preferred = s.dev.preferred ∧
    t.dev.floor = s.dev.floor ∧ t.groups = [] ∧ t.front.queues = []) ∧
  (∀ (s : State), s.tick ≠ 0 → s.tick % 900000000000 = 0 → (∀ r ∈ s.dev.lifeRing, r.tick ≠ s.tick) →
    ∃ t r, exec .lifetimeRecord s = .next t ∧ t.dev.lifeRing.getLast? = some r ∧ t.dev.lifeRing.length ≤ 4096 ∧ r.tick = s.tick ∧
      r.epoch = s.ten.epoch ∧ r.ecc = s.dev.hourEcc ∧ r.aborts = s.dev.aborts ∧ r.sat = s.dev.satTicks ∧
      t.dev.lifeTotal.sat = s.dev.lifeTotal.sat + s.dev.satTicks ∧ t.dev.hourEcc = List.replicate 24 0 ∧ t.dev.aborts = [0, 0, 0, 0] ∧
      t.dev.satTicks = 0 ∧ t.mem = s.mem) ∧
  (∀ (s : State) (func : Nat), ∃ t, exec (.functionLevelReset func) s = .next t ∧ t.front.journal = s.front.journal ∧ t.front.jseq = s.front.jseq ∧
    t.front.replies = s.front.replies.filter (fun r => r.func != func) ∧
    (∀ f, mapGet 0 t.front.kickErrors f = if f = func then 0 else mapGet 0 s.front.kickErrors f) ∧ t.front.queues = s.front.queues) ∧
  (∀ (s : State) (fw : Bool) (gid value : Nat), exec (.registerWrite fw .bootStatus value) s = .next s ∧
    exec (.registerWrite fw (.live gid) value) s = .next s) ∧
  (∀ (s : State) (g : Machine.Group) (fw : Bool) (lane value : Nat), s.g.gid = 0 → g.gid ≠ 0 → groupOf? s g.gid = some g → lane < 32 →
    (value % 8 < 6 → ∃ t h, exec (.registerWrite fw (.fmode g.gid) value) s = .next t ∧ groupOf? t g.gid = some h ∧
      h = { g with fmode := BitVec.ofNat 32 (value % 32) }) ∧
    (6 ≤ value % 8 → exec (.registerWrite fw (.fmode g.gid) value) s = .next s) ∧
    (∃ t h, exec (.registerWrite fw (.flags g.gid) value) s = .next t ∧ groupOf? t g.gid = some h ∧
      h = { g with flags := g.flags &&& ~~~ (BitVec.ofNat 16 (value % 2048)) }) ∧
    (∃ t h, exec (.registerWrite fw (.rng g.gid lane) value) s = .next t ∧ groupOf? t g.gid = some h ∧
      mapGet 0 h.rng lane = (if value % 2 ^ 32 = 0 then 1 else BitVec.ofNat 32 value) ∧
      (∀ k, k ≠ lane → mapGet 0 h.rng k = mapGet 0 g.rng k) ∧ h.regs = g.regs)) ∧
  (∀ (s : State) (a b value : Nat), exec (.registerWrite false (.barrier a b) value) s = .next s ∧
    exec (.registerWrite false (.partitionEntry a b) value) s = .next s ∧ exec (.registerWrite false (.contextWord a b) value) s = .next s ∧
    exec (.registerWrite false (.domainWord a b) value) s = .next s ∧ exec (.registerWrite false (.slotQuota a) value) s = .next s ∧
    exec (.registerWrite false (.keyId a) value) s = .next s ∧ exec (.registerWrite false .doorbellBase value) s = .next s) ∧
  (∀ (s : State) (part value : Nat), part < 16 →
    let others := (((List.range 16).filter (fun p => p != part)).map (slotQuotaOf s)).sum
    exec (.registerWrite true (.slotQuota part) value) s = .next (if 128 < others + value then s
      else { s with ten := { s.ten with slotQuota := mapSet 8 s.ten.slotQuota part value } })) ∧
  (∀ (s : State) (key value : Nat), 1 ≤ key → key ≤ 8191 → ∃ t, exec (.registerWrite true (.keyId key) value) s = .next t ∧
    (key ∈ t.ms.keys ↔ value % 2 = 1) ∧ ∀ k, k ≠ key → (k ∈ t.ms.keys ↔ k ∈ s.ms.keys)) ∧
  (∀ (s : State) (value : Nat), value % 4096 = 0 → exec (.registerWrite true .doorbellBase value) s =
    .next { s with front := { s.front with doorbells := if value = 0 then none else some value } }) ∧
  (∀ (s : State) (ctx die : Nat) (word : W64), die < 4 →
    exec (.registerWrite true (.contextWord ctx (64 + 8 * die)) word.toNat) s = exec (.poolWordSet ctx die word) s) ∧
  (∀ (s : State) (x : Span) (idx value : Nat) (b : Barrier), spanOf? s x.uid = some x → x.bars[idx]? = some b →
    ∃ t y, exec (.registerWrite true (.barrier x.uid idx) value) s = .next t ∧ spanOf? t x.uid = some y ∧
      y.bars = x.bars.set idx { b with pending := bitsOf value 63 40, phase := bitOf value 31, closed := bitOf value 30,
                                       arrived := bitsOf value 15 8, expected := bitsOf value 7 0 }) ∧
  (∀ (s : State) (die quad value : Nat), die < 4 → quad < 256 →
    (∀ x ∈ s.spans, x.residence ≠ .saved → x.die = die → x.core0 / 4 ≠ quad) →
    exec (.registerWrite true (.partitionEntry die quad) value) s = .next { s with ten := { s.ten with
      partMap := mapSet 0 s.ten.partMap (die * 256 + quad) (value % 2 ^ 13) } }) ∧
  (∀ (s : State) (c : Context) (value : Nat), ctxOf? s c.num = some c → value % 65536 = 0 → value < 2 ^ 64 →
    (∃ t d, exec (.registerWrite true (.contextWord c.num 0) value) s = .next t ∧ ctxOf? t c.num = some d ∧ d = { c with save := value }) ∧
    (value % 131072 = 0 → ∃ t d, exec (.registerWrite true (.domainWord c.num 0) value) s = .next t ∧ ctxOf? t c.num = some d ∧
      d = { c with root1 := value }))

namespace Sys2Proof.Claims

open Sys2Proof Sys2Proof.Machine

/-- R62, R75 to R88: words written out from the field tables of the spec, a literal after them where one is called for, with the
instruction that they stand for. -/
noncomputable def spelledWords : List (List W × Instr) :=
  [([0b00000000000000011000010000001010#32], .addI32 ⟨3, .reg 4, .reg 5⟩),
   ([0b00000000000000011000010000001011#32], .addI32 ⟨3, .reg 4, .sca 5⟩),
   ([0b00010000000000011000010011111110#32, 0x3F800000#32], .faddF32 ⟨3, .reg 4, .lit 0x3F800000#32⟩),
   ([0b00100000000000011000010000001010#32], .fmaF32 ⟨3, .reg 4, .reg 5⟩),
   ([0b00110000100000011000010000110000#32], .cvtF32I32 ⟨3, .reg 4, 1, true⟩),
   ([0b00001001010000010000010000001010#32], .cmpLtI32 ⟨2, .reg 4, .reg 5⟩),
   ([0b01000100000000011000100000000010#32], .mand ⟨3, 8, 1⟩),
   ([0b01010000000000011000010011111110#32, 7#32], .sadd ⟨3, .reg 4, .lit 7#32⟩),
   ([0b01100001000000011000101000010010#32], .ldB32 ⟨3, ⟨5, .reg 4, 2⟩⟩),
   ([0b01100010010000011000101111111100#32, 16#32], .stB32 ⟨.reg 3, ⟨5, .lit 16#32, 0⟩⟩),
   ([0b10000000110100000000000000000000#32], .mzero 1),
   ([0b10010000010000011010000000000000#32], .qpush 3 4),
   ([0b10100000000010000000000000000000#32], .barCore 2),
   ([0b10110000000000001111111111111110#32], .br 0xFFFE),
   ([0b10110000010001010000000000000011#32], .brz 5 3),
   ([0b10110010100000000000000000000000#32], .exit),
   ([0b11000000100000011000010000001011#32], .putWin 3 4 5),
   ([0b11010000000000000000000000000111#32], .trap 7)]

/-- R88: words of which no instruction is made: an op or a major that is reserved, a field that must be zero, an odd register of a pair. -/
def refusedWords : List (W × DecodeError) :=
  [(0b00001111110000000000000000000000#32, .reservedOp), (0b11110000000000000000000000000000#32, .reservedOp),
   (0b10110010100000000000000000000001#32, .illegalField), (0b00000001100000001000000000000000#32, .illegalField)]

/-- R68, R265: split num of group gid is its core's choice, is in focus in t and goes on: nothing of its group is deferred, and it is
blocked in no word. -/
def Goes (s t : State) (gid num : Nat) : Prop :=
  mayTakeUp s gid num = true ∧ focus? gid num s = some t ∧ groupRuns t t.g = true ∧ t.g.deferred = [] ∧ t.sp.state = .running ∧ t.sp.pend = [] ∧ inIssueSet t t.g = true

end Sys2Proof.Claims

open Sys2Proof Sys2Proof.Machine Sys2Proof.Claims

/-- R62, R68, R75 to R88: the encoder and the decoder agree both ways: every well-formed instruction word decodes to itself, every operand
kept, and what the decoder accepts is well-formed and is exactly what the encoder writes, so no word has two readings. -/
def Obligations.EncodingAgrees : Prop :=
  (∀ (i : Instr) (ws : List W), i.wf = true → encode i ≠ [] → decodeWords (encode i ++ ws) = .ok (i, ws)) ∧
  (∀ (ws rest : List W) (i : Instr), decodeWords ws = .ok (i, rest) → i.wf = true ∧ encode i ≠ [] ∧ ws = encode i ++ rest)

/-- R75 to R88: the words of some instructions, written out from the spec's field tables, decode to them, and some reserved ones are
refused. -/
def Obligations.SpelledWordsDecode : Prop :=
  (∀ p ∈ spelledWords, decodeWords p.1 = .ok (p.2, [])) ∧ (∀ p ∈ refusedWords, decodeWords [p.1] = .error p.2)

/-- R62 to R65, R68, R265: where the bytes at a split's place in its clause decode to an instruction, a step that takes the split up is that
instruction's meaning, the PC past its words and, after the last word of a clause, past the clause; the step then ends with no group in
focus and its writes in memory. -/
def Obligations.StepRunsDecoded : Prop :=
  (∀ (s t : State) (gid num n : Nat) (c : W × List W) (i : Instr) (rest : List W), Goes s t gid num → t.sp.widx = n + 1 →
    fetchClause t t.sp.pc = .ok c → decodeWords (c.2.drop n) = .ok (i, rest) →
    let k := c.2.length
    let sp : Split := if rest = [] then { t.sp with pc := t.sp.pc + 4 * (k + 1), widx := 0 } else { t.sp with widx := k + 1 - rest.length }
    let u : State := { t with iss := ⟨t.sp.pc, n + 1, k + 1 - rest.length, k, false⟩, sp := sp }
    issueStep gid num s = recordOut gid num u (exec i u)) ∧
  (∀ (s t : State) (gid num : Nat) (c : W × List W) (i : Instr) (rest : List W), Goes s t gid num → t.sp.widx = 0 → gateShut t t.g = false →
    t.g.splits.find? (mayMerge t) = none → t.sp.bndPending = false → fetchClause t t.sp.pc = .ok c → clauseCheck c.1 c.2 = none →
    waitsMet t (headerOf c.1) = true → decodeWords c.2 = .ok (i, rest) →
    let k := c.2.length
    let sp : Split := if rest = [] then { t.sp with pc := t.sp.pc + 4 * (k + 1), widx := 0 } else { t.sp with widx := k + 1 - rest.length }
    let clk := coreClk t t.g.die t.g.core
    let g : Machine.Group := { t.g with issuedFirst := true, lastSplit := num, stamp := clk + 1, yieldMark := bitOf c.1.toNat 3 }
    let u : State := { (attrUse t.g.die t.g.core t.g.ctx t.sp.pc t) with g := g, iss := ⟨t.sp.pc, 1, k + 1 - rest.length, k, false⟩, sp := sp }
    issueStep gid num s = recordOut gid num u (exec i u)) ∧
  (∀ (gid num : Nat) (u v : State) (o : Out), (o = .next v → ∃ w, recordOut gid num u o = .next w ∧ w.sp = v.sp ∧ w.iss = v.iss ∧
    { w with cores := v.cores, g := { w.g with stamp := v.g.stamp, lastSplit := v.g.lastSplit } } = v)) ∧
  (∀ (s : State) (v : Viaduct) (l k : Leaf) (va : Nat), viaductOf? s s.g.viaduct = some v → accessIn s s.g.ctx needX va = .ok l →
    accessIn { s with mem := v.image, wq := [] } s.g.ctx ⟨false, false, false⟩ va = .ok k →
    fetchWord s va = .ok (bytesToNat [mapGet unlistedByte v.image k.phys, mapGet unlistedByte v.image (k.phys + 1),
      mapGet unlistedByte v.image (k.phys + 2), mapGet unlistedByte v.image (k.phys + 3)])) ∧
  (∀ (s : State) (gid num : Nat) (rest : List Stim), s.agenda = .issue gid num :: rest →
    step s = settleOut s (issueStep gid num { s with agenda := rest })) ∧
  (∀ (s : State) (p : Nat × Nat), s.agenda = [] → (s.tick + 1) % 2 = 1 → chosen? (passTicks 1 s) = some p →
    step s = settleOut s (issueStep p.1 p.2 { passTicks 1 s with turn := (passTicks 1 s).turn + 1 })) ∧
  (∀ (s : State) (i : Instr) (rest : List Stim), s.agenda = .op i :: rest → encode i = [] →
    step s = settleOut s (exec i { s with agenda := rest })) ∧
  (∀ (s t : State) (o : Out), o = .next t → ∃ u, settleOut s o = .next u ∧ u.Settled ∧ u.tick = t.tick ∧
    { u.dev with idleFrom := t.dev.idleFrom, podFrom := t.dev.podFrom } = t.dev ∧
    (t.mem = s.mem → ∀ a, rdByte u a = rdByte t a))

/-- Every step keeps the canonical form of memory and leaves no word in execution and no write behind (the canonical form is the model's,
log entry 1). -/
def Obligations.StepKeepsInv : Prop := ∀ s t : State, s.Inv → step s = .next t → t.Inv

/-- R18 to R20, R243, R463: no state stops the machine: every step answers a next state, so every instruction of the table does. -/
def Obligations.StepNeverStops : Prop := (∀ s : State, ∃ t, step s = .next t) ∧ ∀ (i : Instr) (s : State), ∃ t, exec i s = .next t

/-- R391, R463, R464: right after reset the device is at stage 0, the secret is not locked, no slot runs, nothing is placed and the
journal counter is 0; the invariant holds. -/
def Obligations.ResetHolds : Prop :=
  State.reset.Inv ∧ State.reset.dev.stage = 0 ∧ State.reset.dev.bootSlot = 3 ∧ State.reset.dev.bootError = 0 ∧
    State.reset.dev.udsLocked = false ∧ State.reset.mem = [] ∧ State.reset.groups = [] ∧ State.reset.spans = [] ∧
    State.reset.viaducts = [] ∧ State.reset.front.queues = [] ∧ State.reset.front.jseq = 0 ∧ State.reset.tick = 0 ∧
    State.reset.dev.harts = List.replicate 8 false

/-- R11, R20, R21, R71, R73, R240: a vector word that names a register the group does not have traps with register-range, one that writes
a live-in register traps with region-contract, and one that names a register on its way is not issued: its split stands at it again. None
of them writes a register. -/
def Obligations.VectorWordsCheckFirst : Prop :=
  ∀ op ∈ (integerRows.map (fun r => r.1)) ++ (floatRows.map (fun r => r.1)), ∀ (o : V3) (s : State),
    let rs := (o.d, 1) :: (o.a.range 1 ++ o.b.range 1)
    ((∃ p ∈ rs, s.g.nregs < p.1 + p.2) → exec (op o) s = .next (takeTrap ⟨.registerRange, none, none, 0, none⟩ s)) ∧
    ((∀ p ∈ rs, p.1 + p.2 ≤ s.g.nregs) → o.d < s.g.live →
      exec (op o) s = .next (takeTrap ⟨.regionContract, none, none, 0, none⟩ s)) ∧
    ((∀ p ∈ rs, p.1 + p.2 ≤ s.g.nregs) → s.g.live ≤ o.d → hazard s (regsOf rs) o.b.scalars = true →
      exec (op o) s = .next { s with sp := { s.sp with pc := s.iss.clause, widx := s.iss.word }, iss := { s.iss with stalled := true } })
end

