-- ==== Sys2Proof/Laws/Maps.lean ====
section
/-! SUPPORT. Sparse maps: reading after writing, and the canonical form that writing keeps. -/

namespace Sys2Proof.Machine

/-- Reading a map whose first pair is p. -/
theorem mapGet_cons {α : Type} (d : α) (p : Nat × α) (m : SMap α) (k : Nat) :
    mapGet d (p :: m) k = if p.1 = k then p.2 else mapGet d m k := by
  by_cases h : p.1 = k <;> simp [mapGet, h]

/-- Reading after a pair was put into a map that did not list its key. -/
theorem mapGet_insert {α : Type} (d v : α) (m : SMap α) (k j : Nat) (h : ∀ p ∈ m, p.1 ≠ k) :
    mapGet d (mapInsert k v m) j = if j = k then v else mapGet d m j := by
  induction m with
  | nil =>
    by_cases hj : j = k
    · simp [mapInsert, mapGet, hj]
    · simp [mapInsert, mapGet, hj, Ne.symm hj]
  | cons p m ih =>
    have hp : p.1 ≠ k := h p (by simp)
    have ih := ih (fun q hq => h q (by simp [hq]))
    unfold mapInsert
    split
    · by_cases hj : j = k
      · simp [mapGet_cons, hj]
      · simp [mapGet_cons, hj, Ne.symm hj]
    · rw [mapGet_cons, ih, mapGet_cons]
      by_cases hj : j = k
      · subst hj; simp [hp]
      · simp [hj]

/-- Reading after a key was taken out. -/
theorem mapGet_filter {α : Type} (d : α) (m : SMap α) (k j : Nat) :
    mapGet d (m.filter (fun p => p.1 != k)) j = if j = k then d else mapGet d m j := by
  induction m with
  | nil => simp [mapGet]
  | cons p m ih =>
    by_cases hp : p.1 = k
    · simp only [List.filter_cons, hp, bne_self_eq_false, Bool.false_eq_true, if_false, ih, mapGet_cons]
      by_cases hj : j = k
      · simp [hj]
      · simp [hj, Ne.symm hj]
    · simp only [List.filter_cons, bne_iff_ne, ne_eq, hp, not_false_eq_true, if_true, mapGet_cons, ih]
      by_cases hj : j = k
      · subst hj; simp [hp]
      · simp [hj]

/-- Reading after writing: the written key reads as written, every other key as before. -/
theorem mapGet_mapSet {α : Type} [DecidableEq α] (d : α) (m : SMap α) (k j : Nat) (v : α) :
    mapGet d (mapSet d m k v) j = if j = k then v else mapGet d m j := by
  unfold mapSet
  split
  · rw [mapGet_filter]; simp_all
  · rw [mapGet_insert, mapGet_filter]
    · by_cases h : j = k <;> simp [h]
    · intro p hp; simpa using (List.mem_filter.mp hp).2

/-- The canonical form of a map: keys strictly rising, no default listed. -/
def Canonical {α : Type} (d : α) (m : SMap α) : Prop := m.Pairwise (fun p q => p.1 < q.1) ∧ ∀ p ∈ m, p.2 ≠ d

/-- The pairs of a map after one was put in. -/
theorem mem_mapInsert {α : Type} (k : Nat) (v : α) (m : SMap α) (p : Nat × α) :
    p ∈ mapInsert k v m ↔ p = (k, v) ∨ p ∈ m := by
  induction m with
  | nil => simp [mapInsert]
  | cons q m ih =>
    unfold mapInsert
    split
    · simp
    · simp only [List.mem_cons, ih]; tauto

/-- Putting in a key that is not listed keeps the keys rising. -/
theorem pairwise_mapInsert {α : Type} (k : Nat) (v : α) (m : SMap α) (h : m.Pairwise (fun p q => p.1 < q.1))
    (hk : ∀ p ∈ m, p.1 ≠ k) : (mapInsert k v m).Pairwise (fun p q => p.1 < q.1) := by
  induction m with
  | nil => simp [mapInsert]
  | cons q m ih =>
    obtain ⟨hq, hm⟩ := List.pairwise_cons.mp h
    have hne : q.1 ≠ k := hk q (by simp)
    unfold mapInsert
    split
    · refine List.pairwise_cons.mpr ⟨fun p hp => ?_, h⟩
      obtain rfl | hp := List.mem_cons.mp hp
      · assumption
      · have := hq p hp; omega
    · refine List.pairwise_cons.mpr ⟨fun p hp => ?_, ih hm (fun p hp => hk p (by simp [hp]))⟩
      obtain rfl | hp := (mem_mapInsert k v m p).mp hp
      · simp only; omega
      · exact hq p hp

/-- Writing keeps the canonical form. -/
theorem Canonical.mapSet {α : Type} [DecidableEq α] {d : α} {m : SMap α} (h : Canonical d m) (k : Nat) (v : α) :
    Canonical d (mapSet d m k v) := by
  have hf : Canonical d (m.filter (fun p => p.1 != k)) :=
    ⟨h.1.filter _, fun p hp => h.2 p (List.mem_filter.mp hp).1⟩
  unfold Machine.mapSet
  split
  · exact hf
  · refine ⟨pairwise_mapInsert k v _ hf.1 (fun p hp => by simpa using (List.mem_filter.mp hp).2), fun p hp => ?_⟩
    obtain rfl | hp := (mem_mapInsert k v _ p).mp hp
    · assumption
    · exact hf.2 p hp

end Sys2Proof.Machine
end

