-- ==== Sys2Proof/Laws/Memory.lean ====
section
/-! SUPPORT. Memory: its canonical form, which every operation keeps, and reading after writing. -/

namespace Sys2Proof.Machine

/-- The canonical form of memory is that of a sparse map whose default is the unlisted byte. -/
theorem memory_wf_iff (m : List Host.Cell) : Memory.wf m = true ↔ Canonical unlistedByte m := by
  induction m with
  | nil => simp [Memory.wf, Canonical]
  | cons c m ih =>
    cases m with
    | nil => simp [Memory.wf, Canonical]
    | cons e m =>
      simp only [Memory.wf, Bool.and_eq_true, decide_eq_true_eq, bne_iff_ne, ne_eq, ih]
      constructor
      · rintro ⟨⟨hlt, hc⟩, hp, hd⟩
        refine ⟨List.pairwise_cons.mpr ⟨fun p hm => ?_, hp⟩, fun p hm => ?_⟩
        · obtain rfl | hm := List.mem_cons.mp hm
          · exact hlt
          · exact Nat.lt_trans hlt ((List.pairwise_cons.mp hp).1 p hm)
        · obtain rfl | hm := List.mem_cons.mp hm
          · exact hc
          · exact hd p hm
      · rintro ⟨hp, hd⟩
        obtain ⟨h1, h2⟩ := List.pairwise_cons.mp hp
        exact ⟨⟨h1 e (by simp), hd c (by simp)⟩, h2, fun p hm => hd p (by simp [List.mem_cons.mp hm])⟩

/-- Writing one byte keeps the canonical form. -/
theorem memSet_wf {m : List Host.Cell} (h : Memory.wf m = true) (a : Nat) (b : Byte) : Memory.wf (memSet m a b) = true :=
  (memory_wf_iff _).mpr (Canonical.mapSet ((memory_wf_iff m).mp h) a b)

/-- Storing the writes of a step keeps the canonical form. -/
theorem memApply_wf {m : List Host.Cell} (h : Memory.wf m = true) (q : List Host.Cell) : Memory.wf (memApply m q) = true := by
  induction q with
  | nil => exact h
  | cons c q ih => exact memSet_wf ih c.1 c.2

/-- Reading a byte after writing one. -/
theorem memGet_memSet (m : List Host.Cell) (a b : Nat) (x : Byte) :
    memGet (memSet m a x) b = if b = a then x else memGet m b := mapGet_mapSet _ _ _ _ _

/-- The reading of a byte within a step is that of memory once the step's writes are stored. -/
theorem rdByte_eq_memGet (s : State) (a : Nat) : rdByte s a = memGet (memApply s.mem s.wq) a := by
  unfold rdByte
  induction s.wq with
  | nil => simp [memApply]
  | cons c q ih =>
    simp only [memApply, memGet_memSet, List.find?_cons]
    by_cases h : c.1 = a
    · simp [h]
    · have hb : (c.1 == a) = false := by simpa using h
      simpa [Ne.symm h, hb] using ih

/-- Reading a byte after writing one, within a step. -/
theorem rdByte_wrByte (s : State) (a b : Nat) (x : Byte) : rdByte (wrByte a x s) b = if b = a then x else rdByte s b := by
  by_cases h : b = a
  · simp [rdByte, wrByte, h]
  · simp [rdByte, wrByte, h, Ne.symm h]

/-- Writing a byte changes only what is written. -/
theorem wrByte_mem (a : Nat) (x : Byte) (s : State) : (wrByte a x s).mem = s.mem := rfl

end Sys2Proof.Machine
end

