-- ==== Sys2Proof/Laws/PerInstr.lean ====
section
/-! SUPPORT. One statement for every instruction: an instruction is no word (an event), one word, or one word and one literal
(R62, R68, R88). -/

namespace Sys2Proof.Laws

open Sys2Proof

/-- R62, R68: the words of a well-formed instruction are at most one body word and one literal. -/
def EncodeFits.Statement (i : Instr) : Prop := i.wf = true → (encode i).length ≤ 2

theorem lits_putV3 {o : V3} {sd : Nat} {sa : Nat} {sb : Nat} (h : o.wf sd sa sb = true) : (putV3 o).2.length ≤ 1 := by
  obtain ⟨d, a, b⟩ := o
  cases a <;> cases b <;> simp_all [V3.wf, putV3, VSrc.isLit, VSrc.lits, BSrc.isLit, BSrc.lits]

theorem lits_putK3 {o : K3} {sa : Nat} {sb : Nat} (h : o.wf sa sb = true) : (putK3 o).2.length ≤ 1 := by
  obtain ⟨k, a, b⟩ := o
  cases a <;> cases b <;> simp_all [K3.wf, putK3, VSrc.isLit, VSrc.lits, BSrc.isLit, BSrc.lits]

theorem lits_putX3 {o : X3} {sh : Nat} (h : o.wf sh = true) : (putX3 o).2.length ≤ 1 := by
  obtain ⟨d, a, b⟩ := o
  cases a <;> cases b <;> simp_all [X3.wf, putX3, VSrc.isLit, VSrc.lits, USrc.isLit, USrc.lits]

theorem lits_putS3 {o : S3} (h : o.wf = true) : (putS3 o).2.length ≤ 1 := by
  obtain ⟨d, a, b⟩ := o
  cases a <;> cases b <;> simp_all [S3.wf, putS3, SSrc.isLit, SSrc.lits]

theorem lits_le_one (a : VSrc) : a.lits.length ≤ 1 := by cases a <;> simp [VSrc.lits]

theorem lits_putV2 (o : V2) : (putV2 o).2.length ≤ 1 := lits_le_one o.a

theorem lits_putC2 (o : C2) : (putC2 o).2.length ≤ 1 := lits_le_one o.a

theorem lits_putU2 (o : U2) : (putU2 o).2.length ≤ 1 := lits_le_one o.a

theorem lits_putMnz (o : MnzOp) : (putMnz o).2.length ≤ 1 := lits_le_one o.a

theorem lits_putLd (o : LdOp) : (putLd o).2.length ≤ 1 := lits_le_one o.mem.off

theorem lits_putPf (o : PfOp) : (putPf o).2.length ≤ 1 := lits_le_one o.mem.off

theorem lits_putAtest (o : AtestOp) : (putAtest o).2.length ≤ 1 := lits_le_one o.mem.off

theorem lits_putCas (o : CasOp) : (putCas o).2.length ≤ 1 := lits_le_one o.mem.off

theorem lits_putS2 (o : S2) : (putS2 o).2.length ≤ 1 := by
  cases o with | mk d a => cases a <;> simp [putS2, SSrc.lits]

theorem lits_putMF (o : MaskFrom) : (putMF o).2.length ≤ 1 := by
  cases o with | mk d a => cases a <;> simp [putMF, SSrc.lits]

theorem lits_putP2 (o : P2) : (putP2 o).2.length ≤ 1 := by simp [putP2]

theorem lits_putM3 (o : M3) : (putM3 o).2.length ≤ 1 := by simp [putM3]

theorem lits_putM2 (o : M2) : (putM2 o).2.length ≤ 1 := by simp [putM2]

theorem lits_putMS (o : MaskToScalar) : (putMS o).2.length ≤ 1 := by simp [putMS]

theorem lits_putLp (o : LpOp) : (putLp o).2.length ≤ 1 := by simp [putLp]

theorem lits_putSl (o : SlOp) : (putSl o).2.length ≤ 1 := by simp [putSl]

theorem lits_putCp (o : CpOp) : (putCp o).2.length ≤ 1 := by simp [putCp]

theorem lits_putSt {o : StOp} {sh : Nat} (h : o.wf sh = true) : (putSt o).2.length ≤ 1 := by
  obtain ⟨a, ⟨b, off, sc⟩⟩ := o
  cases a <;> cases off <;> simp_all [StOp.wf, putSt, VSrc.isLit, VSrc.lits]

theorem lits_putAtom {o : AtomOp} {sh : Nat} (h : o.wf sh = true) : (putAtom o).2.length ≤ 1 := by
  obtain ⟨a, ⟨b, off, sc⟩⟩ := o
  cases a <;> cases off <;> simp_all [AtomOp.wf, putAtom, VSrc.isLit, VSrc.lits]

theorem EncodeFits.addI32 (o : V3) : EncodeFits.Statement (.addI32 o) :=
  fun h => Nat.succ_le_succ (lits_putV3 h)
theorem EncodeFits.subI32 (o : V3) : EncodeFits.Statement (.subI32 o) :=
  fun h => Nat.succ_le_succ (lits_putV3 h)
theorem EncodeFits.addSatI32 (o : V3) : EncodeFits.Statement (.addSatI32 o) :=
  fun h => Nat.succ_le_succ (lits_putV3 h)
theorem EncodeFits.subSatI32 (o : V3) : EncodeFits.Statement (.subSatI32 o) :=
  fun h => Nat.succ_le_succ (lits_putV3 h)
theorem EncodeFits.addSatN32 (o : V3) : EncodeFits.Statement (.addSatN32 o) :=
  fun h => Nat.succ_le_succ (lits_putV3 h)
theorem EncodeFits.subSatN32 (o : V3) : EncodeFits.Statement (.subSatN32 o) :=
  fun h => Nat.succ_le_succ (lits_putV3 h)
theorem EncodeFits.addI64 (o : V3) : EncodeFits.Statement (.addI64 o) :=
  fun h => Nat.succ_le_succ (lits_putV3 h)
theorem EncodeFits.subI64 (o : V3) : EncodeFits.Statement (.subI64 o) :=
  fun h => Nat.succ_le_succ (lits_putV3 h)
theorem EncodeFits.mulLoI32 (o : V3) : EncodeFits.Statement (.mulLoI32 o) :=
  fun h => Nat.succ_le_succ (lits_putV3 h)
theorem EncodeFits.mulHiI32 (o : V3) : EncodeFits.Statement (.mulHiI32 o) :=
  fun h => Nat.succ_le_succ (lits_putV3 h)
theorem EncodeFits.mulHiN32 (o : V3) : EncodeFits.Statement (.mulHiN32 o) :=
  fun h => Nat.succ_le_succ (lits_putV3 h)
theorem EncodeFits.mulWideI32 (o : V3) : EncodeFits.Statement (.mulWideI32 o) :=
  fun h => Nat.succ_le_succ (lits_putV3 h)
theorem EncodeFits.mulWideN32 (o : V3) : EncodeFits.Statement (.mulWideN32 o) :=
  fun h => Nat.succ_le_succ (lits_putV3 h)
theorem EncodeFits.minI32 (o : V3) : EncodeFits.Statement (.minI32 o) :=
  fun h => Nat.succ_le_succ (lits_putV3 h)
theorem EncodeFits.maxI32 (o : V3) : EncodeFits.Statement (.maxI32 o) :=
  fun h => Nat.succ_le_succ (lits_putV3 h)
theorem EncodeFits.minN32 (o : V3) : EncodeFits.Statement (.minN32 o) :=
  fun h => Nat.succ_le_succ (lits_putV3 h)
theorem EncodeFits.maxN32 (o : V3) : EncodeFits.Statement (.maxN32 o) :=
  fun h => Nat.succ_le_succ (lits_putV3 h)
theorem EncodeFits.absdiffN32 (o : V3) : EncodeFits.Statement (.absdiffN32 o) :=
  fun h => Nat.succ_le_succ (lits_putV3 h)
theorem EncodeFits.avgN32 (o : V3) : EncodeFits.Statement (.avgN32 o) :=
  fun h => Nat.succ_le_succ (lits_putV3 h)
theorem EncodeFits.andB32 (o : V3) : EncodeFits.Statement (.andB32 o) :=
  fun h => Nat.succ_le_succ (lits_putV3 h)
theorem EncodeFits.orB32 (o : V3) : EncodeFits.Statement (.orB32 o) :=
  fun h => Nat.succ_le_succ (lits_putV3 h)
theorem EncodeFits.xorB32 (o : V3) : EncodeFits.Statement (.xorB32 o) :=
  fun h => Nat.succ_le_succ (lits_putV3 h)
theorem EncodeFits.andnB32 (o : V3) : EncodeFits.Statement (.andnB32 o) :=
  fun h => Nat.succ_le_succ (lits_putV3 h)
theorem EncodeFits.shlB32 (o : V3) : EncodeFits.Statement (.shlB32 o) :=
  fun h => Nat.succ_le_succ (lits_putV3 h)
theorem EncodeFits.shrB32 (o : V3) : EncodeFits.Statement (.shrB32 o) :=
  fun h => Nat.succ_le_succ (lits_putV3 h)
theorem EncodeFits.sraI32 (o : V3) : EncodeFits.Statement (.sraI32 o) :=
  fun h => Nat.succ_le_succ (lits_putV3 h)
theorem EncodeFits.rotlB32 (o : V3) : EncodeFits.Statement (.rotlB32 o) :=
  fun h => Nat.succ_le_succ (lits_putV3 h)
theorem EncodeFits.shlB64 (o : V3) : EncodeFits.Statement (.shlB64 o) :=
  fun h => Nat.succ_le_succ (lits_putV3 h)
theorem EncodeFits.shrB64 (o : V3) : EncodeFits.Statement (.shrB64 o) :=
  fun h => Nat.succ_le_succ (lits_putV3 h)
theorem EncodeFits.popcB32 (o : V2) : EncodeFits.Statement (.popcB32 o) :=
  fun _ => Nat.succ_le_succ (lits_putV2 o)
theorem EncodeFits.clzB32 (o : V2) : EncodeFits.Statement (.clzB32 o) :=
  fun _ => Nat.succ_le_succ (lits_putV2 o)
theorem EncodeFits.ctzB32 (o : V2) : EncodeFits.Statement (.ctzB32 o) :=
  fun _ => Nat.succ_le_succ (lits_putV2 o)
theorem EncodeFits.brevB32 (o : V2) : EncodeFits.Statement (.brevB32 o) :=
  fun _ => Nat.succ_le_succ (lits_putV2 o)
theorem EncodeFits.bfeN32 (o : V3) : EncodeFits.Statement (.bfeN32 o) :=
  fun h => Nat.succ_le_succ (lits_putV3 h)
theorem EncodeFits.bfeI32 (o : V3) : EncodeFits.Statement (.bfeI32 o) :=
  fun h => Nat.succ_le_succ (lits_putV3 h)
theorem EncodeFits.cmpEqI32 (o : K3) : EncodeFits.Statement (.cmpEqI32 o) :=
  fun h => Nat.succ_le_succ (lits_putK3 h)
theorem EncodeFits.cmpNeI32 (o : K3) : EncodeFits.Statement (.cmpNeI32 o) :=
  fun h => Nat.succ_le_succ (lits_putK3 h)
theorem EncodeFits.cmpLtI32 (o : K3) : EncodeFits.Statement (.cmpLtI32 o) :=
  fun h => Nat.succ_le_succ (lits_putK3 h)
theorem EncodeFits.cmpLeI32 (o : K3) : EncodeFits.Statement (.cmpLeI32 o) :=
  fun h => Nat.succ_le_succ (lits_putK3 h)
theorem EncodeFits.cmpLtN32 (o : K3) : EncodeFits.Statement (.cmpLtN32 o) :=
  fun h => Nat.succ_le_succ (lits_putK3 h)
theorem EncodeFits.cmpLeN32 (o : K3) : EncodeFits.Statement (.cmpLeN32 o) :=
  fun h => Nat.succ_le_succ (lits_putK3 h)
theorem EncodeFits.cmpEqI64 (o : K3) : EncodeFits.Statement (.cmpEqI64 o) :=
  fun h => Nat.succ_le_succ (lits_putK3 h)
theorem EncodeFits.cmpLtI64 (o : K3) : EncodeFits.Statement (.cmpLtI64 o) :=
  fun h => Nat.succ_le_succ (lits_putK3 h)
theorem EncodeFits.cmpLtN64 (o : K3) : EncodeFits.Statement (.cmpLtN64 o) :=
  fun h => Nat.succ_le_succ (lits_putK3 h)
theorem EncodeFits.faddF32 (o : V3) : EncodeFits.Statement (.faddF32 o) :=
  fun h => Nat.succ_le_succ (lits_putV3 h)
theorem EncodeFits.fsubF32 (o : V3) : EncodeFits.Statement (.fsubF32 o) :=
  fun h => Nat.succ_le_succ (lits_putV3 h)
theorem EncodeFits.fmulF32 (o : V3) : EncodeFits.Statement (.fmulF32 o) :=
  fun h => Nat.succ_le_succ (lits_putV3 h)
theorem EncodeFits.fminF32 (o : V3) : EncodeFits.Statement (.fminF32 o) :=
  fun h => Nat.succ_le_succ (lits_putV3 h)
theorem EncodeFits.fmaxF32 (o : V3) : EncodeFits.Statement (.fmaxF32 o) :=
  fun h => Nat.succ_le_succ (lits_putV3 h)
theorem EncodeFits.fminnF32 (o : V3) : EncodeFits.Statement (.fminnF32 o) :=
  fun h => Nat.succ_le_succ (lits_putV3 h)
theorem EncodeFits.fmaxnF32 (o : V3) : EncodeFits.Statement (.fmaxnF32 o) :=
  fun h => Nat.succ_le_succ (lits_putV3 h)
theorem EncodeFits.fabsF32 (o : V2) : EncodeFits.Statement (.fabsF32 o) :=
  fun _ => Nat.succ_le_succ (lits_putV2 o)
theorem EncodeFits.fnegF32 (o : V2) : EncodeFits.Statement (.fnegF32 o) :=
  fun _ => Nat.succ_le_succ (lits_putV2 o)
theorem EncodeFits.fclassF32 (o : V2) : EncodeFits.Statement (.fclassF32 o) :=
  fun _ => Nat.succ_le_succ (lits_putV2 o)
theorem EncodeFits.fscaleF32 (o : V3) : EncodeFits.Statement (.fscaleF32 o) :=
  fun h => Nat.succ_le_succ (lits_putV3 h)
theorem EncodeFits.fcmpEqF32 (o : K3) : EncodeFits.Statement (.fcmpEqF32 o) :=
  fun h => Nat.succ_le_succ (lits_putK3 h)
theorem EncodeFits.fcmpLtF32 (o : K3) : EncodeFits.Statement (.fcmpLtF32 o) :=
  fun h => Nat.succ_le_succ (lits_putK3 h)
theorem EncodeFits.fcmpLeF32 (o : K3) : EncodeFits.Statement (.fcmpLeF32 o) :=
  fun h => Nat.succ_le_succ (lits_putK3 h)
theorem EncodeFits.fcmpUnF32 (o : K3) : EncodeFits.Statement (.fcmpUnF32 o) :=
  fun h => Nat.succ_le_succ (lits_putK3 h)
theorem EncodeFits.faddF16x2 (o : V3) : EncodeFits.Statement (.faddF16x2 o) :=
  fun h => Nat.succ_le_succ (lits_putV3 h)
theorem EncodeFits.fsubF16x2 (o : V3) : EncodeFits.Statement (.fsubF16x2 o) :=
  fun h => Nat.succ_le_succ (lits_putV3 h)
theorem EncodeFits.fmulF16x2 (o : V3) : EncodeFits.Statement (.fmulF16x2 o) :=
  fun h => Nat.succ_le_succ (lits_putV3 h)
theorem EncodeFits.faddBf16x2 (o : V3) : EncodeFits.Statement (.faddBf16x2 o) :=
  fun h => Nat.succ_le_succ (lits_putV3 h)
theorem EncodeFits.fsubBf16x2 (o : V3) : EncodeFits.Statement (.fsubBf16x2 o) :=
  fun h => Nat.succ_le_succ (lits_putV3 h)
theorem EncodeFits.fmulBf16x2 (o : V3) : EncodeFits.Statement (.fmulBf16x2 o) :=
  fun h => Nat.succ_le_succ (lits_putV3 h)
theorem EncodeFits.fmaxBf16x2 (o : V3) : EncodeFits.Statement (.fmaxBf16x2 o) :=
  fun h => Nat.succ_le_succ (lits_putV3 h)
theorem EncodeFits.fminBf16x2 (o : V3) : EncodeFits.Statement (.fminBf16x2 o) :=
  fun h => Nat.succ_le_succ (lits_putV3 h)
theorem EncodeFits.faddF64 (o : V3) : EncodeFits.Statement (.faddF64 o) :=
  fun h => Nat.succ_le_succ (lits_putV3 h)
theorem EncodeFits.fsubF64 (o : V3) : EncodeFits.Statement (.fsubF64 o) :=
  fun h => Nat.succ_le_succ (lits_putV3 h)
theorem EncodeFits.fmulF64 (o : V3) : EncodeFits.Statement (.fmulF64 o) :=
  fun h => Nat.succ_le_succ (lits_putV3 h)
theorem EncodeFits.fminF64 (o : V3) : EncodeFits.Statement (.fminF64 o) :=
  fun h => Nat.succ_le_succ (lits_putV3 h)
theorem EncodeFits.fmaxF64 (o : V3) : EncodeFits.Statement (.fmaxF64 o) :=
  fun h => Nat.succ_le_succ (lits_putV3 h)
theorem EncodeFits.fcmpLtF64 (o : K3) : EncodeFits.Statement (.fcmpLtF64 o) :=
  fun h => Nat.succ_le_succ (lits_putK3 h)
theorem EncodeFits.fcmpEqF64 (o : K3) : EncodeFits.Statement (.fcmpEqF64 o) :=
  fun h => Nat.succ_le_succ (lits_putK3 h)
theorem EncodeFits.fmaF32 (o : V3) : EncodeFits.Statement (.fmaF32 o) :=
  fun h => Nat.succ_le_succ (lits_putV3 h)
theorem EncodeFits.fnmaF32 (o : V3) : EncodeFits.Statement (.fnmaF32 o) :=
  fun h => Nat.succ_le_succ (lits_putV3 h)
theorem EncodeFits.fmaF16x2 (o : V3) : EncodeFits.Statement (.fmaF16x2 o) :=
  fun h => Nat.succ_le_succ (lits_putV3 h)
theorem EncodeFits.fmaBf16x2 (o : V3) : EncodeFits.Statement (.fmaBf16x2 o) :=
  fun h => Nat.succ_le_succ (lits_putV3 h)
theorem EncodeFits.fmaF64 (o : V3) : EncodeFits.Statement (.fmaF64 o) :=
  fun h => Nat.succ_le_succ (lits_putV3 h)
theorem EncodeFits.fdot2F32Bf16 (o : V3) : EncodeFits.Statement (.fdot2F32Bf16 o) :=
  fun h => Nat.succ_le_succ (lits_putV3 h)
theorem EncodeFits.fdot2F32F16 (o : V3) : EncodeFits.Statement (.fdot2F32F16 o) :=
  fun h => Nat.succ_le_succ (lits_putV3 h)
theorem EncodeFits.madLoI32 (o : V3) : EncodeFits.Statement (.madLoI32 o) :=
  fun h => Nat.succ_le_succ (lits_putV3 h)
theorem EncodeFits.madHiN32 (o : V3) : EncodeFits.Statement (.madHiN32 o) :=
  fun h => Nat.succ_le_succ (lits_putV3 h)
theorem EncodeFits.madWideN32 (o : V3) : EncodeFits.Statement (.madWideN32 o) :=
  fun h => Nat.succ_le_succ (lits_putV3 h)
theorem EncodeFits.bfiB32 (o : V3) : EncodeFits.Statement (.bfiB32 o) :=
  fun h => Nat.succ_le_succ (lits_putV3 h)
theorem EncodeFits.bdot4I32I8 (o : V3) : EncodeFits.Statement (.bdot4I32I8 o) :=
  fun h => Nat.succ_le_succ (lits_putV3 h)
theorem EncodeFits.bdot4I32N8 (o : V3) : EncodeFits.Statement (.bdot4I32N8 o) :=
  fun h => Nat.succ_le_succ (lits_putV3 h)
theorem EncodeFits.movB32 (o : V2) : EncodeFits.Statement (.movB32 o) :=
  fun _ => Nat.succ_le_succ (lits_putV2 o)
theorem EncodeFits.movB64 (o : V2) : EncodeFits.Statement (.movB64 o) :=
  fun _ => Nat.succ_le_succ (lits_putV2 o)
theorem EncodeFits.cvtF32I32 (o : C2) : EncodeFits.Statement (.cvtF32I32 o) :=
  fun _ => Nat.succ_le_succ (lits_putC2 o)
theorem EncodeFits.cvtF32N32 (o : C2) : EncodeFits.Statement (.cvtF32N32 o) :=
  fun _ => Nat.succ_le_succ (lits_putC2 o)
theorem EncodeFits.cvtI32F32 (o : C2) : EncodeFits.Statement (.cvtI32F32 o) :=
  fun _ => Nat.succ_le_succ (lits_putC2 o)
theorem EncodeFits.cvtN32F32 (o : C2) : EncodeFits.Statement (.cvtN32F32 o) :=
  fun _ => Nat.succ_le_succ (lits_putC2 o)
theorem EncodeFits.froundF32 (o : C2) : EncodeFits.Statement (.froundF32 o) :=
  fun _ => Nat.succ_le_succ (lits_putC2 o)
theorem EncodeFits.cvtF16x2F32 (o : P2) : EncodeFits.Statement (.cvtF16x2F32 o) :=
  fun _ => Nat.succ_le_succ (lits_putP2 o)
theorem EncodeFits.cvtBf16x2F32 (o : P2) : EncodeFits.Statement (.cvtBf16x2F32 o) :=
  fun _ => Nat.succ_le_succ (lits_putP2 o)
theorem EncodeFits.cvtF32F16 (o : U2) : EncodeFits.Statement (.cvtF32F16 o) :=
  fun _ => Nat.succ_le_succ (lits_putU2 o)
theorem EncodeFits.cvtF32Bf16 (o : U2) : EncodeFits.Statement (.cvtF32Bf16 o) :=
  fun _ => Nat.succ_le_succ (lits_putU2 o)
theorem EncodeFits.cvtE4m3x4F32 (o : P2) : EncodeFits.Statement (.cvtE4m3x4F32 o) :=
  fun _ => Nat.succ_le_succ (lits_putP2 o)
theorem EncodeFits.cvtE5m2x4F32 (o : P2) : EncodeFits.Statement (.cvtE5m2x4F32 o) :=
  fun _ => Nat.succ_le_succ (lits_putP2 o)
theorem EncodeFits.cvtF32E4m3 (o : U2) : EncodeFits.Statement (.cvtF32E4m3 o) :=
  fun _ => Nat.succ_le_succ (lits_putU2 o)
theorem EncodeFits.cvtF32E5m2 (o : U2) : EncodeFits.Statement (.cvtF32E5m2 o) :=
  fun _ => Nat.succ_le_succ (lits_putU2 o)
theorem EncodeFits.cvtF64F32 (o : V2) : EncodeFits.Statement (.cvtF64F32 o) :=
  fun _ => Nat.succ_le_succ (lits_putV2 o)
theorem EncodeFits.cvtF32F64 (o : C2) : EncodeFits.Statement (.cvtF32F64 o) :=
  fun _ => Nat.succ_le_succ (lits_putC2 o)
theorem EncodeFits.cvtI8x4I32 (o : P2) : EncodeFits.Statement (.cvtI8x4I32 o) :=
  fun _ => Nat.succ_le_succ (lits_putP2 o)
theorem EncodeFits.cvtI32I8 (o : U2) : EncodeFits.Statement (.cvtI32I8 o) :=
  fun _ => Nat.succ_le_succ (lits_putU2 o)
theorem EncodeFits.lpick (o : V3) : EncodeFits.Statement (.lpick o) :=
  fun h => Nat.succ_le_succ (lits_putV3 h)
theorem EncodeFits.bflyB32 (o : X3) : EncodeFits.Statement (.bflyB32 o) :=
  fun h => Nat.succ_le_succ (lits_putX3 h)
theorem EncodeFits.bflyB64 (o : X3) : EncodeFits.Statement (.bflyB64 o) :=
  fun h => Nat.succ_le_succ (lits_putX3 h)
theorem EncodeFits.rotLane (o : X3) : EncodeFits.Statement (.rotLane o) :=
  fun h => Nat.succ_le_succ (lits_putX3 h)
theorem EncodeFits.bcast (o : X3) : EncodeFits.Statement (.bcast o) :=
  fun h => Nat.succ_le_succ (lits_putX3 h)
theorem EncodeFits.redAddI32 (o : V2) : EncodeFits.Statement (.redAddI32 o) :=
  fun _ => Nat.succ_le_succ (lits_putV2 o)
theorem EncodeFits.redAddF32 (o : V2) : EncodeFits.Statement (.redAddF32 o) :=
  fun _ => Nat.succ_le_succ (lits_putV2 o)
theorem EncodeFits.redMinI32 (o : V2) : EncodeFits.Statement (.redMinI32 o) :=
  fun _ => Nat.succ_le_succ (lits_putV2 o)
theorem EncodeFits.redMaxI32 (o : V2) : EncodeFits.Statement (.redMaxI32 o) :=
  fun _ => Nat.succ_le_succ (lits_putV2 o)
theorem EncodeFits.redMinF32 (o : V2) : EncodeFits.Statement (.redMinF32 o) :=
  fun _ => Nat.succ_le_succ (lits_putV2 o)
theorem EncodeFits.redMaxF32 (o : V2) : EncodeFits.Statement (.redMaxF32 o) :=
  fun _ => Nat.succ_le_succ (lits_putV2 o)
theorem EncodeFits.redxMaxF32 (o : V2) : EncodeFits.Statement (.redxMaxF32 o) :=
  fun _ => Nat.succ_le_succ (lits_putV2 o)
theorem EncodeFits.redxMinF32 (o : V2) : EncodeFits.Statement (.redxMinF32 o) :=
  fun _ => Nat.succ_le_succ (lits_putV2 o)
theorem EncodeFits.scanAddI32 (o : V2) : EncodeFits.Statement (.scanAddI32 o) :=
  fun _ => Nat.succ_le_succ (lits_putV2 o)
theorem EncodeFits.scanAddF32 (o : V2) : EncodeFits.Statement (.scanAddF32 o) :=
  fun _ => Nat.succ_le_succ (lits_putV2 o)
theorem EncodeFits.mnz (o : MnzOp) : EncodeFits.Statement (.mnz o) :=
  fun _ => Nat.succ_le_succ (lits_putMnz o)
theorem EncodeFits.mand (o : M3) : EncodeFits.Statement (.mand o) :=
  fun _ => Nat.succ_le_succ (lits_putM3 o)
theorem EncodeFits.mor (o : M3) : EncodeFits.Statement (.mor o) :=
  fun _ => Nat.succ_le_succ (lits_putM3 o)
theorem EncodeFits.mxor (o : M3) : EncodeFits.Statement (.mxor o) :=
  fun _ => Nat.succ_le_succ (lits_putM3 o)
theorem EncodeFits.mandn (o : M3) : EncodeFits.Statement (.mandn o) :=
  fun _ => Nat.succ_le_succ (lits_putM3 o)
theorem EncodeFits.mnot (o : M2) : EncodeFits.Statement (.mnot o) :=
  fun _ => Nat.succ_le_succ (lits_putM2 o)
theorem EncodeFits.mmov (o : M2) : EncodeFits.Statement (.mmov o) :=
  fun _ => Nat.succ_le_succ (lits_putM2 o)
theorem EncodeFits.mcount (o : MaskToScalar) : EncodeFits.Statement (.mcount o) :=
  fun _ => Nat.succ_le_succ (lits_putMS o)
theorem EncodeFits.mfirst (o : MaskToScalar) : EncodeFits.Statement (.mfirst o) :=
  fun _ => Nat.succ_le_succ (lits_putMS o)
theorem EncodeFits.mfrom (o : MaskFrom) : EncodeFits.Statement (.mfrom o) :=
  fun _ => Nat.succ_le_succ (lits_putMF o)
theorem EncodeFits.sadd (o : S3) : EncodeFits.Statement (.sadd o) :=
  fun h => Nat.succ_le_succ (lits_putS3 h)
theorem EncodeFits.ssub (o : S3) : EncodeFits.Statement (.ssub o) :=
  fun h => Nat.succ_le_succ (lits_putS3 h)
theorem EncodeFits.smul (o : S3) : EncodeFits.Statement (.smul o) :=
  fun h => Nat.succ_le_succ (lits_putS3 h)
theorem EncodeFits.smulhiN64 (o : S3) : EncodeFits.Statement (.smulhiN64 o) :=
  fun h => Nat.succ_le_succ (lits_putS3 h)
theorem EncodeFits.sand (o : S3) : EncodeFits.Statement (.sand o) :=
  fun h => Nat.succ_le_succ (lits_putS3 h)
theorem EncodeFits.sor (o : S3) : EncodeFits.Statement (.sor o) :=
  fun h => Nat.succ_le_succ (lits_putS3 h)
theorem EncodeFits.sxor (o : S3) : EncodeFits.Statement (.sxor o) :=
  fun h => Nat.succ_le_succ (lits_putS3 h)
theorem EncodeFits.sshl (o : S3) : EncodeFits.Statement (.sshl o) :=
  fun h => Nat.succ_le_succ (lits_putS3 h)
theorem EncodeFits.sshr (o : S3) : EncodeFits.Statement (.sshr o) :=
  fun h => Nat.succ_le_succ (lits_putS3 h)
theorem EncodeFits.ssra (o : S3) : EncodeFits.Statement (.ssra o) :=
  fun h => Nat.succ_le_succ (lits_putS3 h)
theorem EncodeFits.sminI64 (o : S3) : EncodeFits.Statement (.sminI64 o) :=
  fun h => Nat.succ_le_succ (lits_putS3 h)
theorem EncodeFits.smaxI64 (o : S3) : EncodeFits.Statement (.smaxI64 o) :=
  fun h => Nat.succ_le_succ (lits_putS3 h)
theorem EncodeFits.sminN64 (o : S3) : EncodeFits.Statement (.sminN64 o) :=
  fun h => Nat.succ_le_succ (lits_putS3 h)
theorem EncodeFits.smaxN64 (o : S3) : EncodeFits.Statement (.smaxN64 o) :=
  fun h => Nat.succ_le_succ (lits_putS3 h)
theorem EncodeFits.smov (o : S2) : EncodeFits.Statement (.smov o) :=
  fun _ => Nat.succ_le_succ (lits_putS2 o)
theorem EncodeFits.ssetEq (o : S3) : EncodeFits.Statement (.ssetEq o) :=
  fun h => Nat.succ_le_succ (lits_putS3 h)
theorem EncodeFits.ssetLtI64 (o : S3) : EncodeFits.Statement (.ssetLtI64 o) :=
  fun h => Nat.succ_le_succ (lits_putS3 h)
theorem EncodeFits.ssetLtN64 (o : S3) : EncodeFits.Statement (.ssetLtN64 o) :=
  fun h => Nat.succ_le_succ (lits_putS3 h)
theorem EncodeFits.sfromLane (o : S3) : EncodeFits.Statement (.sfromLane o) :=
  fun h => Nat.succ_le_succ (lits_putS3 h)
theorem EncodeFits.shi (o : S3) : EncodeFits.Statement (.shi o) :=
  fun h => Nat.succ_le_succ (lits_putS3 h)
theorem EncodeFits.ldB8N (o : LdOp) : EncodeFits.Statement (.ldB8N o) :=
  fun _ => Nat.succ_le_succ (lits_putLd o)
theorem EncodeFits.ldB8I (o : LdOp) : EncodeFits.Statement (.ldB8I o) :=
  fun _ => Nat.succ_le_succ (lits_putLd o)
theorem EncodeFits.ldB16N (o : LdOp) : EncodeFits.Statement (.ldB16N o) :=
  fun _ => Nat.succ_le_succ (lits_putLd o)
theorem EncodeFits.ldB16I (o : LdOp) : EncodeFits.Statement (.ldB16I o) :=
  fun _ => Nat.succ_le_succ (lits_putLd o)
theorem EncodeFits.ldB32 (o : LdOp) : EncodeFits.Statement (.ldB32 o) :=
  fun _ => Nat.succ_le_succ (lits_putLd o)
theorem EncodeFits.ldB64 (o : LdOp) : EncodeFits.Statement (.ldB64 o) :=
  fun _ => Nat.succ_le_succ (lits_putLd o)
theorem EncodeFits.ldB128 (o : LdOp) : EncodeFits.Statement (.ldB128 o) :=
  fun _ => Nat.succ_le_succ (lits_putLd o)
theorem EncodeFits.stB8 (o : StOp) : EncodeFits.Statement (.stB8 o) :=
  fun h => Nat.succ_le_succ (lits_putSt h)
theorem EncodeFits.stB16 (o : StOp) : EncodeFits.Statement (.stB16 o) :=
  fun h => Nat.succ_le_succ (lits_putSt h)
theorem EncodeFits.stB32 (o : StOp) : EncodeFits.Statement (.stB32 o) :=
  fun h => Nat.succ_le_succ (lits_putSt h)
theorem EncodeFits.stB64 (o : StOp) : EncodeFits.Statement (.stB64 o) :=
  fun h => Nat.succ_le_succ (lits_putSt h)
theorem EncodeFits.stB128 (o : StOp) : EncodeFits.Statement (.stB128 o) :=
  fun h => Nat.succ_le_succ (lits_putSt h)
theorem EncodeFits.ldParamB32 (o : LpOp) : EncodeFits.Statement (.ldParamB32 o) :=
  fun _ => Nat.succ_le_succ (lits_putLp o)
theorem EncodeFits.ldParamB64 (o : LpOp) : EncodeFits.Statement (.ldParamB64 o) :=
  fun _ => Nat.succ_le_succ (lits_putLp o)
theorem EncodeFits.sldB64 (o : SlOp) : EncodeFits.Statement (.sldB64 o) :=
  fun _ => Nat.succ_le_succ (lits_putSl o)
theorem EncodeFits.sstB64 (o : SlOp) : EncodeFits.Statement (.sstB64 o) :=
  fun _ => Nat.succ_le_succ (lits_putSl o)
theorem EncodeFits.prefetch (o : PfOp) : EncodeFits.Statement (.prefetch o) :=
  fun _ => Nat.succ_le_succ (lits_putPf o)
theorem EncodeFits.acvtGenLocal (o : LdOp) : EncodeFits.Statement (.acvtGenLocal o) :=
  fun _ => Nat.succ_le_succ (lits_putLd o)
theorem EncodeFits.acvtGenStore (o : LdOp) : EncodeFits.Statement (.acvtGenStore o) :=
  fun _ => Nat.succ_le_succ (lits_putLd o)
theorem EncodeFits.acvtGenQuad (o : LdOp) : EncodeFits.Statement (.acvtGenQuad o) :=
  fun _ => Nat.succ_le_succ (lits_putLd o)
theorem EncodeFits.acvtLocal (o : LdOp) : EncodeFits.Statement (.acvtLocal o) :=
  fun _ => Nat.succ_le_succ (lits_putLd o)
theorem EncodeFits.acvtStore (o : LdOp) : EncodeFits.Statement (.acvtStore o) :=
  fun _ => Nat.succ_le_succ (lits_putLd o)
theorem EncodeFits.acvtQuad (o : LdOp) : EncodeFits.Statement (.acvtQuad o) :=
  fun _ => Nat.succ_le_succ (lits_putLd o)
theorem EncodeFits.atestLocal (o : AtestOp) : EncodeFits.Statement (.atestLocal o) :=
  fun _ => Nat.succ_le_succ (lits_putAtest o)
theorem EncodeFits.atestStore (o : AtestOp) : EncodeFits.Statement (.atestStore o) :=
  fun _ => Nat.succ_le_succ (lits_putAtest o)
theorem EncodeFits.atestQuad (o : AtestOp) : EncodeFits.Statement (.atestQuad o) :=
  fun _ => Nat.succ_le_succ (lits_putAtest o)
theorem EncodeFits.atomAddI32 (o : AtomOp) : EncodeFits.Statement (.atomAddI32 o) :=
  fun h => Nat.succ_le_succ (lits_putAtom h)
theorem EncodeFits.atomAddI64 (o : AtomOp) : EncodeFits.Statement (.atomAddI64 o) :=
  fun h => Nat.succ_le_succ (lits_putAtom h)
theorem EncodeFits.atomFaddF32 (o : AtomOp) : EncodeFits.Statement (.atomFaddF32 o) :=
  fun h => Nat.succ_le_succ (lits_putAtom h)
theorem EncodeFits.atomFaddBf16x2 (o : AtomOp) : EncodeFits.Statement (.atomFaddBf16x2 o) :=
  fun h => Nat.succ_le_succ (lits_putAtom h)
theorem EncodeFits.atomMinI32 (o : AtomOp) : EncodeFits.Statement (.atomMinI32 o) :=
  fun h => Nat.succ_le_succ (lits_putAtom h)
theorem EncodeFits.atomMaxI32 (o : AtomOp) : EncodeFits.Statement (.atomMaxI32 o) :=
  fun h => Nat.succ_le_succ (lits_putAtom h)
theorem EncodeFits.atomMinN32 (o : AtomOp) : EncodeFits.Statement (.atomMinN32 o) :=
  fun h => Nat.succ_le_succ (lits_putAtom h)
theorem EncodeFits.atomMaxN32 (o : AtomOp) : EncodeFits.Statement (.atomMaxN32 o) :=
  fun h => Nat.succ_le_succ (lits_putAtom h)
theorem EncodeFits.atomAndB32 (o : AtomOp) : EncodeFits.Statement (.atomAndB32 o) :=
  fun h => Nat.succ_le_succ (lits_putAtom h)
theorem EncodeFits.atomOrB32 (o : AtomOp) : EncodeFits.Statement (.atomOrB32 o) :=
  fun h => Nat.succ_le_succ (lits_putAtom h)
theorem EncodeFits.atomXorB32 (o : AtomOp) : EncodeFits.Statement (.atomXorB32 o) :=
  fun h => Nat.succ_le_succ (lits_putAtom h)
theorem EncodeFits.atomXchgB32 (o : AtomOp) : EncodeFits.Statement (.atomXchgB32 o) :=
  fun h => Nat.succ_le_succ (lits_putAtom h)
theorem EncodeFits.atomXchgB64 (o : AtomOp) : EncodeFits.Statement (.atomXchgB64 o) :=
  fun h => Nat.succ_le_succ (lits_putAtom h)
theorem EncodeFits.atomCasB32 (o : CasOp) : EncodeFits.Statement (.atomCasB32 o) :=
  fun _ => Nat.succ_le_succ (lits_putCas o)
theorem EncodeFits.atomCasB64 (o : CasOp) : EncodeFits.Statement (.atomCasB64 o) :=
  fun _ => Nat.succ_le_succ (lits_putCas o)
theorem EncodeFits.cpG2s (o : CpOp) : EncodeFits.Statement (.cpG2s o) :=
  fun _ => Nat.succ_le_succ (lits_putCp o)
theorem EncodeFits.cpS2g (o : CpOp) : EncodeFits.Statement (.cpS2g o) :=
  fun _ => Nat.succ_le_succ (lits_putCp o)
theorem EncodeFits.cpS2s (o : CpOp) : EncodeFits.Statement (.cpS2s o) :=
  fun _ => Nat.succ_le_succ (lits_putCp o)
theorem EncodeFits.cpG2p (o : CpOp) : EncodeFits.Statement (.cpG2p o) :=
  fun _ => Nat.succ_le_succ (lits_putCp o)
theorem EncodeFits.cpS2p (o : CpOp) : EncodeFits.Statement (.cpS2p o) :=
  fun _ => Nat.succ_le_succ (lits_putCp o)
theorem EncodeFits.cpMcast (o : CpOp) : EncodeFits.Statement (.cpMcast o) :=
  fun _ => Nat.succ_le_succ (lits_putCp o)
theorem EncodeFits.cpPut (o : CpOp) : EncodeFits.Statement (.cpPut o) :=
  fun _ => Nat.succ_le_succ (lits_putCp o)
theorem EncodeFits.cpFill (o : CpOp) : EncodeFits.Statement (.cpFill o) :=
  fun _ => Nat.succ_le_succ (lits_putCp o)
theorem EncodeFits.cpClose (bar : Nat) : EncodeFits.Statement (.cpClose bar) :=
  fun _ => Nat.le_of_ble_eq_true rfl
theorem EncodeFits.pres (n : Nat) (e : Nat) : EncodeFits.Statement (.pres n e) :=
  fun _ => Nat.le_of_ble_eq_true rfl
theorem EncodeFits.pset (n : Nat) (sel : Nat) (e : Nat) : EncodeFits.Statement (.pset n sel e) :=
  fun _ => Nat.le_of_ble_eq_true rfl
theorem EncodeFits.prel (n : Nat) : EncodeFits.Statement (.prel n) :=
  fun _ => Nat.le_of_ble_eq_true rfl
theorem EncodeFits.mzero (t : Nat) : EncodeFits.Statement (.mzero t) :=
  fun _ => Nat.le_of_ble_eq_true rfl
theorem EncodeFits.mmk (t : Nat) (ha : Nat) (hb : Nat) (n : Nat) : EncodeFits.Statement (.mmk t ha hb n) :=
  fun _ => Nat.le_of_ble_eq_true rfl
theorem EncodeFits.mtab (hb : Nat) (n : Nat) : EncodeFits.Statement (.mtab hb n) :=
  fun _ => Nat.le_of_ble_eq_true rfl
theorem EncodeFits.mlut (t : Nat) (ha : Nat) (hb : Nat) (n : Nat) : EncodeFits.Statement (.mlut t ha hb n) :=
  fun _ => Nat.le_of_ble_eq_true rfl
theorem EncodeFits.mdrain (t : Nat) (d : Nat) (g : Nat) : EncodeFits.Statement (.mdrain t d g) :=
  fun _ => Nat.le_of_ble_eq_true rfl
theorem EncodeFits.mdrainMx (t : Nat) (int : Nat) (fmt : Nat) (d : Nat) (m : Nat) : EncodeFits.Statement (.mdrainMx t int fmt d m) :=
  fun _ => Nat.le_of_ble_eq_true rfl
theorem EncodeFits.msave (t : Nat) (e : Nat) : EncodeFits.Statement (.msave t e) :=
  fun _ => Nat.le_of_ble_eq_true rfl
theorem EncodeFits.mload (t : Nat) (e : Nat) : EncodeFits.Statement (.mload t e) :=
  fun _ => Nat.le_of_ble_eq_true rfl
theorem EncodeFits.mstatBlock (hi : Nat) (n : Nat) (k : Nat) (d : Nat) : EncodeFits.Statement (.mstatBlock hi n k d) :=
  fun _ => Nat.le_of_ble_eq_true rfl
theorem EncodeFits.mstatTile (t : Nat) (d : Nat) : EncodeFits.Statement (.mstatTile t d) :=
  fun _ => Nat.le_of_ble_eq_true rfl
theorem EncodeFits.msuggest (t : Nat) (thr : Nat) (d : Nat) : EncodeFits.Statement (.msuggest t thr d) :=
  fun _ => Nat.le_of_ble_eq_true rfl
theorem EncodeFits.mscaleImm (t : Nat) (mode : Nat) (off : Nat) : EncodeFits.Statement (.mscaleImm t mode off) :=
  fun _ => Nat.le_of_ble_eq_true rfl
theorem EncodeFits.mscaleReg (t : Nat) (mode : Nat) (e : Nat) : EncodeFits.Statement (.mscaleReg t mode e) :=
  fun _ => Nat.le_of_ble_eq_true rfl
theorem EncodeFits.qbind (q : Nat) (dir : Nat) (k : Nat) (fn : Nat) : EncodeFits.Statement (.qbind q dir k fn) :=
  fun _ => Nat.le_of_ble_eq_true rfl
theorem EncodeFits.qpush (a : Nat) (q : Nat) : EncodeFits.Statement (.qpush a q) :=
  fun _ => Nat.le_of_ble_eq_true rfl
theorem EncodeFits.qpop (d : Nat) (q : Nat) : EncodeFits.Statement (.qpop d q) :=
  fun _ => Nat.le_of_ble_eq_true rfl
theorem EncodeFits.qtry (d : Nat) (q : Nat) (m : Nat) : EncodeFits.Statement (.qtry d q m) :=
  fun _ => Nat.le_of_ble_eq_true rfl
theorem EncodeFits.qlevel (d : Nat) (q : Nat) : EncodeFits.Statement (.qlevel d q) :=
  fun _ => Nat.le_of_ble_eq_true rfl
theorem EncodeFits.qunbind (q : Nat) : EncodeFits.Statement (.qunbind q) :=
  fun _ => Nat.le_of_ble_eq_true rfl
theorem EncodeFits.barCore (n : Nat) : EncodeFits.Statement (.barCore n) :=
  fun _ => Nat.le_of_ble_eq_true rfl
theorem EncodeFits.barQuad (n : Nat) : EncodeFits.Statement (.barQuad n) :=
  fun _ => Nat.le_of_ble_eq_true rfl
theorem EncodeFits.barDie : EncodeFits.Statement (.barDie) :=
  fun _ => Nat.le_of_ble_eq_true rfl
theorem EncodeFits.barPkg : EncodeFits.Statement (.barPkg) :=
  fun _ => Nat.le_of_ble_eq_true rfl
theorem EncodeFits.barPod : EncodeFits.Statement (.barPod) :=
  fun _ => Nat.le_of_ble_eq_true rfl
theorem EncodeFits.bexp (n : Nat) (c : Nat) : EncodeFits.Statement (.bexp n c) :=
  fun _ => Nat.le_of_ble_eq_true rfl
theorem EncodeFits.arrive (n : Nat) (d : Nat) : EncodeFits.Statement (.arrive n d) :=
  fun _ => Nat.le_of_ble_eq_true rfl
theorem EncodeFits.arriveRemote (n : Nat) (a : Nat) : EncodeFits.Statement (.arriveRemote n a) :=
  fun _ => Nat.le_of_ble_eq_true rfl
theorem EncodeFits.bwait (n : Nat) (a : Nat) : EncodeFits.Statement (.bwait n a) :=
  fun _ => Nat.le_of_ble_eq_true rfl
theorem EncodeFits.wait (l : Nat) (s : Nat) (c : Nat) (t : Nat) : EncodeFits.Statement (.wait l s c t) :=
  fun _ => Nat.le_of_ble_eq_true rfl
theorem EncodeFits.watch (n : Nat) (a : Nat) (b : Nat) (cmp : Nat) (w64 : Nat) : EncodeFits.Statement (.watch n a b cmp w64) :=
  fun _ => Nat.le_of_ble_eq_true rfl
theorem EncodeFits.cond (n : Nat) (kind : Nat) (idx : Nat) (b : Nat) : EncodeFits.Statement (.cond n kind idx b) :=
  fun _ => Nat.le_of_ble_eq_true rfl
theorem EncodeFits.waitv (mask : Nat) (all : Nat) (t : Nat) : EncodeFits.Statement (.waitv mask all t) :=
  fun _ => Nat.le_of_ble_eq_true rfl
theorem EncodeFits.waitu (n : Nat) (a : Nat) (b : Nat) (cmp : Nat) (w64 : Nat) : EncodeFits.Statement (.waitu n a b cmp w64) :=
  fun _ => Nat.le_of_ble_eq_true rfl
theorem EncodeFits.fence (p : Nat) (q : Nat) (scope : Nat) : EncodeFits.Statement (.fence p q scope) :=
  fun _ => Nat.le_of_ble_eq_true rfl
theorem EncodeFits.commit (n : Nat) : EncodeFits.Statement (.commit n) :=
  fun _ => Nat.le_of_ble_eq_true rfl
theorem EncodeFits.txBegin : EncodeFits.Statement (.txBegin) :=
  fun _ => Nat.le_of_ble_eq_true rfl
theorem EncodeFits.txEnd : EncodeFits.Statement (.txEnd) :=
  fun _ => Nat.le_of_ble_eq_true rfl
theorem EncodeFits.txAbort (c : Nat) : EncodeFits.Statement (.txAbort c) :=
  fun _ => Nat.le_of_ble_eq_true rfl
theorem EncodeFits.beat : EncodeFits.Statement (.beat) :=
  fun _ => Nat.le_of_ble_eq_true rfl
theorem EncodeFits.beatReg (a : Nat) : EncodeFits.Statement (.beatReg a) :=
  fun _ => Nat.le_of_ble_eq_true rfl
theorem EncodeFits.quiescePkg (t : Nat) (d : Nat) : EncodeFits.Statement (.quiescePkg t d) :=
  fun _ => Nat.le_of_ble_eq_true rfl
theorem EncodeFits.quiescePod (t : Nat) (d : Nat) : EncodeFits.Statement (.quiescePod t d) :=
  fun _ => Nat.le_of_ble_eq_true rfl
theorem EncodeFits.br (off : Nat) : EncodeFits.Statement (.br off) :=
  fun _ => Nat.le_of_ble_eq_true rfl
theorem EncodeFits.brz (c : Nat) (off : Nat) : EncodeFits.Statement (.brz c off) :=
  fun _ => Nat.le_of_ble_eq_true rfl
theorem EncodeFits.brnz (c : Nat) (off : Nat) : EncodeFits.Statement (.brnz c off) :=
  fun _ => Nat.le_of_ble_eq_true rfl
theorem EncodeFits.bra (k : Nat) (off : Nat) : EncodeFits.Statement (.bra k off) :=
  fun _ => Nat.le_of_ble_eq_true rfl
theorem EncodeFits.brn (k : Nat) (off : Nat) : EncodeFits.Statement (.brn k off) :=
  fun _ => Nat.le_of_ble_eq_true rfl
theorem EncodeFits.brv (k : Nat) (off : Nat) : EncodeFits.Statement (.brv k off) :=
  fun _ => Nat.le_of_ble_eq_true rfl
theorem EncodeFits.call (l : Nat) (off : Nat) : EncodeFits.Statement (.call l off) :=
  fun _ => Nat.le_of_ble_eq_true rfl
theorem EncodeFits.callr (l : Nat) (t : Nat) : EncodeFits.Statement (.callr l t) :=
  fun _ => Nat.le_of_ble_eq_true rfl
theorem EncodeFits.ret (t : Nat) : EncodeFits.Statement (.ret t) :=
  fun _ => Nat.le_of_ble_eq_true rfl
theorem EncodeFits.join : EncodeFits.Statement (.join) :=
  fun _ => Nat.le_of_ble_eq_true rfl
theorem EncodeFits.exit : EncodeFits.Statement (.exit) :=
  fun _ => Nat.le_of_ble_eq_true rfl
theorem EncodeFits.yield : EncodeFits.Statement (.yield) :=
  fun _ => Nat.le_of_ble_eq_true rfl
theorem EncodeFits.collRed (d : Nat) (a : Nat) (b : Nat) : EncodeFits.Statement (.collRed d a b) :=
  fun _ => Nat.le_of_ble_eq_true rfl
theorem EncodeFits.collBcast (d : Nat) (a : Nat) (b : Nat) : EncodeFits.Statement (.collBcast d a b) :=
  fun _ => Nat.le_of_ble_eq_true rfl
theorem EncodeFits.putWin (d : Nat) (a : Nat) (b : Nat) : EncodeFits.Statement (.putWin d a b) :=
  fun _ => Nat.le_of_ble_eq_true rfl
theorem EncodeFits.getWin (d : Nat) (a : Nat) : EncodeFits.Statement (.getWin d a) :=
  fun _ => Nat.le_of_ble_eq_true rfl
theorem EncodeFits.winAdd (a : Nat) (b : Nat) : EncodeFits.Statement (.winAdd a b) :=
  fun _ => Nat.le_of_ble_eq_true rfl
theorem EncodeFits.winRead (d : Nat) (b : Nat) : EncodeFits.Statement (.winRead d b) :=
  fun _ => Nat.le_of_ble_eq_true rfl
theorem EncodeFits.xshf (d : Nat) (a : Nat) (b : Nat) : EncodeFits.Statement (.xshf d a b) :=
  fun _ => Nat.le_of_ble_eq_true rfl
theorem EncodeFits.mordAlloc (d : Nat) (a : Nat) : EncodeFits.Statement (.mordAlloc d a) :=
  fun _ => Nat.le_of_ble_eq_true rfl
theorem EncodeFits.mordSend (d : Nat) (a : Nat) (b : Nat) : EncodeFits.Statement (.mordSend d a b) :=
  fun _ => Nat.le_of_ble_eq_true rfl
theorem EncodeFits.mordStat (d : Nat) : EncodeFits.Statement (.mordStat d) :=
  fun _ => Nat.le_of_ble_eq_true rfl
theorem EncodeFits.mordFree (a : Nat) : EncodeFits.Statement (.mordFree a) :=
  fun _ => Nat.le_of_ble_eq_true rfl
theorem EncodeFits.histRead (d : Nat) (b : Nat) : EncodeFits.Statement (.histRead d b) :=
  fun _ => Nat.le_of_ble_eq_true rfl
theorem EncodeFits.trap (code : Nat) : EncodeFits.Statement (.trap code) :=
  fun _ => Nat.le_of_ble_eq_true rfl
theorem EncodeFits.sreg (idx : Nat) (r : Nat) : EncodeFits.Statement (.sreg idx r) :=
  fun _ => Nat.le_of_ble_eq_true rfl
theorem EncodeFits.swreg (idx : Nat) (r : Nat) : EncodeFits.Statement (.swreg idx r) :=
  fun _ => Nat.le_of_ble_eq_true rfl
theorem EncodeFits.brk (code : Nat) : EncodeFits.Statement (.brk code) :=
  fun _ => Nat.le_of_ble_eq_true rfl
theorem EncodeFits.halt : EncodeFits.Statement (.halt) :=
  fun _ => Nat.le_of_ble_eq_true rfl
theorem EncodeFits.eret : EncodeFits.Statement (.eret) :=
  fun _ => Nat.le_of_ble_eq_true rfl
theorem EncodeFits.doorbellKick (func page value : Nat) : EncodeFits.Statement (.doorbellKick func page value) :=
  fun _ => Nat.le_of_ble_eq_true rfl
theorem EncodeFits.ringLook (qid : Nat) : EncodeFits.Statement (.ringLook qid) :=
  fun _ => Nat.le_of_ble_eq_true rfl
theorem EncodeFits.packetAccept (qid : Nat) : EncodeFits.Statement (.packetAccept qid) :=
  fun _ => Nat.le_of_ble_eq_true rfl
theorem EncodeFits.nopPacket (qid : Nat) : EncodeFits.Statement (.nopPacket qid) :=
  fun _ => Nat.le_of_ble_eq_true rfl
theorem EncodeFits.launchPacket (qid : Nat) : EncodeFits.Statement (.launchPacket qid) :=
  fun _ => Nat.le_of_ble_eq_true rfl
theorem EncodeFits.gangPacket (qid : Nat) : EncodeFits.Statement (.gangPacket qid) :=
  fun _ => Nat.le_of_ble_eq_true rfl
theorem EncodeFits.waitPacket (qid : Nat) : EncodeFits.Statement (.waitPacket qid) :=
  fun _ => Nat.le_of_ble_eq_true rfl
theorem EncodeFits.signalPacket (qid : Nat) : EncodeFits.Statement (.signalPacket qid) :=
  fun _ => Nat.le_of_ble_eq_true rfl
theorem EncodeFits.fencePacket (qid : Nat) : EncodeFits.Statement (.fencePacket qid) :=
  fun _ => Nat.le_of_ble_eq_true rfl
theorem EncodeFits.loopSet (qid : Nat) : EncodeFits.Statement (.loopSet qid) :=
  fun _ => Nat.le_of_ble_eq_true rfl
theorem EncodeFits.windowBind (qid : Nat) : EncodeFits.Statement (.windowBind qid) :=
  fun _ => Nat.le_of_ble_eq_true rfl
theorem EncodeFits.windowBindApply (qid die : Nat) : EncodeFits.Statement (.windowBindApply qid die) :=
  fun _ => Nat.le_of_ble_eq_true rfl
theorem EncodeFits.paramBind (qid : Nat) : EncodeFits.Statement (.paramBind qid) :=
  fun _ => Nat.le_of_ble_eq_true rfl
theorem EncodeFits.barrierAnd (qid : Nat) : EncodeFits.Statement (.barrierAnd qid) :=
  fun _ => Nat.le_of_ble_eq_true rfl
theorem EncodeFits.waitPacketTimeout (qid : Nat) : EncodeFits.Statement (.waitPacketTimeout qid) :=
  fun _ => Nat.le_of_ble_eq_true rfl
theorem EncodeFits.packetWatchPoll (qid : Nat) : EncodeFits.Statement (.packetWatchPoll qid) :=
  fun _ => Nat.le_of_ble_eq_true rfl
theorem EncodeFits.slotMappingPass : EncodeFits.Statement (.slotMappingPass) :=
  fun _ => Nat.le_of_ble_eq_true rfl
theorem EncodeFits.waitPageHoldExpiry (qid : Nat) : EncodeFits.Statement (.waitPageHoldExpiry qid) :=
  fun _ => Nat.le_of_ble_eq_true rfl
theorem EncodeFits.gangReserve (gang member : Nat) (ok : Bool) : EncodeFits.Statement (.gangReserve gang member ok) :=
  fun _ => Nat.le_of_ble_eq_true rfl
theorem EncodeFits.gangCommit (gang : Nat) : EncodeFits.Statement (.gangCommit gang) :=
  fun _ => Nat.le_of_ble_eq_true rfl
theorem EncodeFits.gangRollback (gang : Nat) : EncodeFits.Statement (.gangRollback gang) :=
  fun _ => Nat.le_of_ble_eq_true rfl
theorem EncodeFits.gangRetry (gang : Nat) : EncodeFits.Statement (.gangRetry gang) :=
  fun _ => Nat.le_of_ble_eq_true rfl
theorem EncodeFits.gangStart (gang : Nat) : EncodeFits.Statement (.gangStart gang) :=
  fun _ => Nat.le_of_ble_eq_true rfl
theorem EncodeFits.mbBootStatus (func seq : Nat) : EncodeFits.Statement (.mbBootStatus func seq) :=
  fun _ => Nat.le_of_ble_eq_true rfl
theorem EncodeFits.mbAttestationReport (func seq : Nat) (nonce : List Byte) : EncodeFits.Statement (.mbAttestationReport func seq nonce) :=
  fun _ => Nat.le_of_ble_eq_true rfl
theorem EncodeFits.mbCertificateChain (func seq : Nat) : EncodeFits.Statement (.mbCertificateChain func seq) :=
  fun _ => Nat.le_of_ble_eq_true rfl
theorem EncodeFits.mbUpdateBegin (func seq slot : Nat) : EncodeFits.Statement (.mbUpdateBegin func seq slot) :=
  fun _ => Nat.le_of_ble_eq_true rfl
theorem EncodeFits.mbUpdateData (func seq off : Nat) (data : List Byte) : EncodeFits.Statement (.mbUpdateData func seq off data) :=
  fun _ => Nat.le_of_ble_eq_true rfl
theorem EncodeFits.mbUpdateFinish (func seq : Nat) : EncodeFits.Statement (.mbUpdateFinish func seq) :=
  fun _ => Nat.le_of_ble_eq_true rfl
theorem EncodeFits.mbUpdateCommit (func seq : Nat) : EncodeFits.Statement (.mbUpdateCommit func seq) :=
  fun _ => Nat.le_of_ble_eq_true rfl
theorem EncodeFits.mbErrorRingRead (func seq : Nat) : EncodeFits.Statement (.mbErrorRingRead func seq) :=
  fun _ => Nat.le_of_ble_eq_true rfl
theorem EncodeFits.mbLifetimeRead (func seq : Nat) : EncodeFits.Statement (.mbLifetimeRead func seq) :=
  fun _ => Nat.le_of_ble_eq_true rfl
theorem EncodeFits.queueRegister (func seq ctx qid qcb : Nat) : EncodeFits.Statement (.queueRegister func seq ctx qid qcb) :=
  fun _ => Nat.le_of_ble_eq_true rfl
theorem EncodeFits.queueUnregister (func seq qid : Nat) : EncodeFits.Statement (.queueUnregister func seq qid) :=
  fun _ => Nat.le_of_ble_eq_true rfl
theorem EncodeFits.queueRestart (func seq qid index : Nat) (cancel : Bool) : EncodeFits.Statement (.queueRestart func seq qid index cancel) :=
  fun _ => Nat.le_of_ble_eq_true rfl
theorem EncodeFits.journalAcknowledge (func seq upTo : Nat) : EncodeFits.Statement (.journalAcknowledge func seq upTo) :=
  fun _ => Nat.le_of_ble_eq_true rfl
theorem EncodeFits.ownerRecordWrite (func seq owner : Nat) (word : W64) : EncodeFits.Statement (.ownerRecordWrite func seq owner word) :=
  fun _ => Nat.le_of_ble_eq_true rfl
theorem EncodeFits.lendEntryWrite (func seq owner : Nat) (word : W) : EncodeFits.Statement (.lendEntryWrite func seq owner word) :=
  fun _ => Nat.le_of_ble_eq_true rfl
theorem EncodeFits.recallRequest (func seq owner die quad : Nat) : EncodeFits.Statement (.recallRequest func seq owner die quad) :=
  fun _ => Nat.le_of_ble_eq_true rfl
theorem EncodeFits.wayMaskSet (func seq die : Nat) (slices : List Nat) (code mask : Nat) : EncodeFits.Statement (.wayMaskSet func seq die slices code mask) :=
  fun _ => Nat.le_of_ble_eq_true rfl
theorem EncodeFits.occupancyRead (func seq die slice : Nat) : EncodeFits.Statement (.occupancyRead func seq die slice) :=
  fun _ => Nat.le_of_ble_eq_true rfl
theorem EncodeFits.partitionReset (func seq part : Nat) : EncodeFits.Statement (.partitionReset func seq part) :=
  fun _ => Nat.le_of_ble_eq_true rfl
theorem EncodeFits.usageSnapshot (func seq owner : Nat) (nonce : List Byte) : EncodeFits.Statement (.usageSnapshot func seq owner nonce) :=
  fun _ => Nat.le_of_ble_eq_true rfl
theorem EncodeFits.mmMap (r : MapReq) : EncodeFits.Statement (.mmMap r) :=
  fun _ => Nat.le_of_ble_eq_true rfl
theorem EncodeFits.mmUnmap (func seq ctx va : Nat) : EncodeFits.Statement (.mmUnmap func seq ctx va) :=
  fun _ => Nat.le_of_ble_eq_true rfl
theorem EncodeFits.mmProtect (func seq ctx va perm : Nat) : EncodeFits.Statement (.mmProtect func seq ctx va perm) :=
  fun _ => Nat.le_of_ble_eq_true rfl
theorem EncodeFits.mmRunChange (func seq ctx va : Nat) (run : Bool) : EncodeFits.Statement (.mmRunChange func seq ctx va run) :=
  fun _ => Nat.le_of_ble_eq_true rfl
theorem EncodeFits.mmStage2Change (func seq ctx gpa : Nat) (entry : W64) : EncodeFits.Statement (.mmStage2Change func seq ctx gpa entry) :=
  fun _ => Nat.le_of_ble_eq_true rfl
theorem EncodeFits.segmentCreate (func seq base size id : Nat) : EncodeFits.Statement (.segmentCreate func seq base size id) :=
  fun _ => Nat.le_of_ble_eq_true rfl
theorem EncodeFits.segmentAttach (func seq ctx id : Nat) : EncodeFits.Statement (.segmentAttach func seq ctx id) :=
  fun _ => Nat.le_of_ble_eq_true rfl
theorem EncodeFits.faultDeclareUnresolvable (ctx va : Nat) : EncodeFits.Statement (.faultDeclareUnresolvable ctx va) :=
  fun _ => Nat.le_of_ble_eq_true rfl
theorem EncodeFits.pageResolve (r : MapReq) (zero : Bool) : EncodeFits.Statement (.pageResolve r zero) :=
  fun _ => Nat.le_of_ble_eq_true rfl
theorem EncodeFits.poolWordSet (ctx die : Nat) (word : W64) : EncodeFits.Statement (.poolWordSet ctx die word) :=
  fun _ => Nat.le_of_ble_eq_true rfl
theorem EncodeFits.wayBudgetSet (func seq part n : Nat) : EncodeFits.Statement (.wayBudgetSet func seq part n) :=
  fun _ => Nat.le_of_ble_eq_true rfl
theorem EncodeFits.channelQuotaSet (func seq part n : Nat) : EncodeFits.Statement (.channelQuotaSet func seq part n) :=
  fun _ => Nat.le_of_ble_eq_true rfl
theorem EncodeFits.clockCapSet (func seq die step : Nat) : EncodeFits.Statement (.clockCapSet func seq die step) :=
  fun _ => Nat.le_of_ble_eq_true rfl
theorem EncodeFits.loopRecordRead (func seq ctx : Nat) : EncodeFits.Statement (.loopRecordRead func seq ctx) :=
  fun _ => Nat.le_of_ble_eq_true rfl
theorem EncodeFits.registerWrite (fw : Bool) (reg : RegSel) (value : Nat) : EncodeFits.Statement (.registerWrite fw reg value) :=
  fun _ => Nat.le_of_ble_eq_true rfl
theorem EncodeFits.hostMemoryWrite (func ctx va : Nat) (data : List Byte) : EncodeFits.Statement (.hostMemoryWrite func ctx va data) :=
  fun _ => Nat.le_of_ble_eq_true rfl
theorem EncodeFits.hostMemoryRead (func ctx va len : Nat) : EncodeFits.Statement (.hostMemoryRead func ctx va len) :=
  fun _ => Nat.le_of_ble_eq_true rfl
theorem EncodeFits.spanPlace (die : Nat) : EncodeFits.Statement (.spanPlace die) :=
  fun _ => Nat.le_of_ble_eq_true rfl
theorem EncodeFits.startGateOpen (span : Nat) : EncodeFits.Statement (.startGateOpen span) :=
  fun _ => Nat.le_of_ble_eq_true rfl
theorem EncodeFits.issueSetRotate (die core ctx : Nat) : EncodeFits.Statement (.issueSetRotate die core ctx) :=
  fun _ => Nat.le_of_ble_eq_true rfl
theorem EncodeFits.stealRequest (thief asked viaduct : Nat) : EncodeFits.Statement (.stealRequest thief asked viaduct) :=
  fun _ => Nat.le_of_ble_eq_true rfl
theorem EncodeFits.stealAnswer (thief viaduct : Nat) : EncodeFits.Statement (.stealAnswer thief viaduct) :=
  fun _ => Nat.le_of_ble_eq_true rfl
theorem EncodeFits.groupResourceRelease (gid : Nat) : EncodeFits.Statement (.groupResourceRelease gid) :=
  fun _ => Nat.le_of_ble_eq_true rfl
theorem EncodeFits.spanRetire (span : Nat) : EncodeFits.Statement (.spanRetire span) :=
  fun _ => Nat.le_of_ble_eq_true rfl
theorem EncodeFits.ownerAgeing (die owner : Nat) : EncodeFits.Statement (.ownerAgeing die owner) :=
  fun _ => Nat.le_of_ble_eq_true rfl
theorem EncodeFits.forcedEviction (pre : Nat) : EncodeFits.Statement (.forcedEviction pre) :=
  fun _ => Nat.le_of_ble_eq_true rfl
theorem EncodeFits.spanEvictionSave (span : Nat) : EncodeFits.Statement (.spanEvictionSave span) :=
  fun _ => Nat.le_of_ble_eq_true rfl
theorem EncodeFits.spanRestore (span : Nat) : EncodeFits.Statement (.spanRestore span) :=
  fun _ => Nat.le_of_ble_eq_true rfl
theorem EncodeFits.contextSwapOut (ctx : Nat) : EncodeFits.Statement (.contextSwapOut ctx) :=
  fun _ => Nat.le_of_ble_eq_true rfl
theorem EncodeFits.contextDestroy (ctx : Nat) : EncodeFits.Statement (.contextDestroy ctx) :=
  fun _ => Nat.le_of_ble_eq_true rfl
theorem EncodeFits.watchPurge (ctx die slice : Nat) : EncodeFits.Statement (.watchPurge ctx die slice) :=
  fun _ => Nat.le_of_ble_eq_true rfl
theorem EncodeFits.nocDrain (die : Nat) : EncodeFits.Statement (.nocDrain die) :=
  fun _ => Nat.le_of_ble_eq_true rfl
theorem EncodeFits.wakeMessage (ctx : Nat) : EncodeFits.Statement (.wakeMessage ctx) :=
  fun _ => Nat.le_of_ble_eq_true rfl
theorem EncodeFits.storeClaimAnswer (entry : Nat) : EncodeFits.Statement (.storeClaimAnswer entry) :=
  fun _ => Nat.le_of_ble_eq_true rfl
theorem EncodeFits.regionAbort (gid split : Nat) : EncodeFits.Statement (.regionAbort gid split) :=
  fun _ => Nat.le_of_ble_eq_true rfl
theorem EncodeFits.faultQueueReadAdvance (ctx n : Nat) : EncodeFits.Statement (.faultQueueReadAdvance ctx n) :=
  fun _ => Nat.le_of_ble_eq_true rfl
theorem EncodeFits.splitRestart (gid split : Nat) : EncodeFits.Statement (.splitRestart gid split) :=
  fun _ => Nat.le_of_ble_eq_true rfl
theorem EncodeFits.entryDrainAck (entry : Nat) : EncodeFits.Statement (.entryDrainAck entry) :=
  fun _ => Nat.le_of_ble_eq_true rfl
theorem EncodeFits.loadDataReturn (load : Nat) : EncodeFits.Statement (.loadDataReturn load) :=
  fun _ => Nat.le_of_ble_eq_true rfl
theorem EncodeFits.atomicLanePerform (req lane : Nat) : EncodeFits.Statement (.atomicLanePerform req lane) :=
  fun _ => Nat.le_of_ble_eq_true rfl
theorem EncodeFits.keystoneRequest (die quad : Nat) : EncodeFits.Statement (.keystoneRequest die quad) :=
  fun _ => Nat.le_of_ble_eq_true rfl
theorem EncodeFits.homeWriteApply (entry : Nat) : EncodeFits.Statement (.homeWriteApply entry) :=
  fun _ => Nat.le_of_ble_eq_true rfl
theorem EncodeFits.watchListScanEnd (die slice : Nat) : EncodeFits.Statement (.watchListScanEnd die slice) :=
  fun _ => Nat.le_of_ble_eq_true rfl
theorem EncodeFits.watchRegistration (reg : Nat) : EncodeFits.Statement (.watchRegistration reg) :=
  fun _ => Nat.le_of_ble_eq_true rfl
theorem EncodeFits.watchWithdraw (gid slot : Nat) : EncodeFits.Statement (.watchWithdraw gid slot) :=
  fun _ => Nat.le_of_ble_eq_true rfl
theorem EncodeFits.watchFireDelivery (fire : Nat) : EncodeFits.Statement (.watchFireDelivery fire) :=
  fun _ => Nat.le_of_ble_eq_true rfl
theorem EncodeFits.waitvDeadline (gid split : Nat) : EncodeFits.Statement (.waitvDeadline gid split) :=
  fun _ => Nat.le_of_ble_eq_true rfl
theorem EncodeFits.deferredTrapRaise (gid : Nat) : EncodeFits.Statement (.deferredTrapRaise gid) :=
  fun _ => Nat.le_of_ble_eq_true rfl
theorem EncodeFits.hwBarrierComplete (viaduct level die : Nat) : EncodeFits.Statement (.hwBarrierComplete viaduct level die) :=
  fun _ => Nat.le_of_ble_eq_true rfl
theorem EncodeFits.quiesceIdleComplete (gid split : Nat) : EncodeFits.Statement (.quiesceIdleComplete gid split) :=
  fun _ => Nat.le_of_ble_eq_true rfl
theorem EncodeFits.quiesceTimeout (gid split : Nat) : EncodeFits.Statement (.quiesceTimeout gid split) :=
  fun _ => Nat.le_of_ble_eq_true rfl
theorem EncodeFits.gets (agent dom line : Nat) : EncodeFits.Statement (.gets agent dom line) :=
  fun _ => Nat.le_of_ble_eq_true rfl
theorem EncodeFits.getx (agent dom line : Nat) : EncodeFits.Statement (.getx agent dom line) :=
  fun _ => Nat.le_of_ble_eq_true rfl
theorem EncodeFits.wrh (agent dom addr : Nat) (data : List Byte) : EncodeFits.Statement (.wrh agent dom addr data) :=
  fun _ => Nat.le_of_ble_eq_true rfl
theorem EncodeFits.putm (agent dom line : Nat) : EncodeFits.Statement (.putm agent dom line) :=
  fun _ => Nat.le_of_ble_eq_true rfl
theorem EncodeFits.pute (agent dom line : Nat) : EncodeFits.Statement (.pute agent dom line) :=
  fun _ => Nat.le_of_ble_eq_true rfl
theorem EncodeFits.invalidation (inv : Nat) : EncodeFits.Statement (.invalidation inv) :=
  fun _ => Nat.le_of_ble_eq_true rfl
theorem EncodeFits.invalidationAck (inv : Nat) : EncodeFits.Statement (.invalidationAck inv) :=
  fun _ => Nat.le_of_ble_eq_true rfl
theorem EncodeFits.actingHomeForward (entry : Nat) : EncodeFits.Statement (.actingHomeForward entry) :=
  fun _ => Nat.le_of_ble_eq_true rfl
theorem EncodeFits.pageAttributeWalk (die core ctx va : Nat) : EncodeFits.Statement (.pageAttributeWalk die core ctx va) :=
  fun _ => Nat.le_of_ble_eq_true rfl
theorem EncodeFits.homeTranslationWalk (ctx va : Nat) : EncodeFits.Statement (.homeTranslationWalk ctx va) :=
  fun _ => Nat.le_of_ble_eq_true rfl
theorem EncodeFits.migrationCountClear : EncodeFits.Statement (.migrationCountClear) :=
  fun _ => Nat.le_of_ble_eq_true rfl
theorem EncodeFits.migration (ctx va hpkg frame : Nat) : EncodeFits.Statement (.migration ctx va hpkg frame) :=
  fun _ => Nat.le_of_ble_eq_true rfl
theorem EncodeFits.txSliceReceive (gid : Nat) : EncodeFits.Statement (.txSliceReceive gid) :=
  fun _ => Nat.le_of_ble_eq_true rfl
theorem EncodeFits.txSliceLock (gid : Nat) : EncodeFits.Statement (.txSliceLock gid) :=
  fun _ => Nat.le_of_ble_eq_true rfl
theorem EncodeFits.txValidationResult (gid : Nat) : EncodeFits.Statement (.txValidationResult gid) :=
  fun _ => Nat.le_of_ble_eq_true rfl
theorem EncodeFits.serialTokenGrant (dom : Nat) : EncodeFits.Statement (.serialTokenGrant dom) :=
  fun _ => Nat.le_of_ble_eq_true rfl
theorem EncodeFits.copyTransferWrite (copy lane : Nat) : EncodeFits.Statement (.copyTransferWrite copy lane) :=
  fun _ => Nat.le_of_ble_eq_true rfl
theorem EncodeFits.tileOpComplete (die core : Nat) : EncodeFits.Statement (.tileOpComplete die core) :=
  fun _ => Nat.le_of_ble_eq_true rfl
theorem EncodeFits.functionResultPlace (die quad : Nat) : EncodeFits.Statement (.functionResultPlace die quad) :=
  fun _ => Nat.le_of_ble_eq_true rfl
theorem EncodeFits.selectResultPlace (die quad : Nat) : EncodeFits.Statement (.selectResultPlace die quad) :=
  fun _ => Nat.le_of_ble_eq_true rfl
theorem EncodeFits.xshfExchange (gid : Nat) : EncodeFits.Statement (.xshfExchange gid) :=
  fun _ => Nat.le_of_ble_eq_true rfl
theorem EncodeFits.xshfTimeout (gid : Nat) : EncodeFits.Statement (.xshfTimeout gid) :=
  fun _ => Nat.le_of_ble_eq_true rfl
theorem EncodeFits.putApply (put : Nat) : EncodeFits.Statement (.putApply put) :=
  fun _ => Nat.le_of_ble_eq_true rfl
theorem EncodeFits.putAck (put : Nat) : EncodeFits.Statement (.putAck put) :=
  fun _ => Nat.le_of_ble_eq_true rfl
theorem EncodeFits.collCombine (contrib : Nat) : EncodeFits.Statement (.collCombine contrib) :=
  fun _ => Nat.le_of_ble_eq_true rfl
theorem EncodeFits.collFlush (partial_ : Nat) : EncodeFits.Statement (.collFlush partial_) :=
  fun _ => Nat.le_of_ble_eq_true rfl
theorem EncodeFits.userRoutineLoad (slot : Nat) (code : List W) : EncodeFits.Statement (.userRoutineLoad slot code) :=
  fun _ => Nat.le_of_ble_eq_true rfl
theorem EncodeFits.mordantAllocApply (req : Nat) : EncodeFits.Statement (.mordantAllocApply req) :=
  fun _ => Nat.le_of_ble_eq_true rfl
theorem EncodeFits.mordantSendArrival (req : Nat) : EncodeFits.Statement (.mordantSendArrival req) :=
  fun _ => Nat.le_of_ble_eq_true rfl
theorem EncodeFits.mordantFreeArrival (req : Nat) : EncodeFits.Statement (.mordantFreeArrival req) :=
  fun _ => Nat.le_of_ble_eq_true rfl
theorem EncodeFits.mordantDeadline (slot : Nat) : EncodeFits.Statement (.mordantDeadline slot) :=
  fun _ => Nat.le_of_ble_eq_true rfl
theorem EncodeFits.mordantRelease (slot : Nat) : EncodeFits.Statement (.mordantRelease slot) :=
  fun _ => Nat.le_of_ble_eq_true rfl
theorem EncodeFits.sampleLatch : EncodeFits.Statement (.sampleLatch) :=
  fun _ => Nat.le_of_ble_eq_true rfl
theorem EncodeFits.beatGroupMerge (bgroup y : Nat) (late : Bool) : EncodeFits.Statement (.beatGroupMerge bgroup y late) :=
  fun _ => Nat.le_of_ble_eq_true rfl
theorem EncodeFits.loopUpdate : EncodeFits.Statement (.loopUpdate) :=
  fun _ => Nat.le_of_ble_eq_true rfl
theorem EncodeFits.grantApply : EncodeFits.Statement (.grantApply) :=
  fun _ => Nat.le_of_ble_eq_true rfl
theorem EncodeFits.clockStepChange (die : Nat) : EncodeFits.Statement (.clockStepChange die) :=
  fun _ => Nat.le_of_ble_eq_true rfl
theorem EncodeFits.patrolScrub (addr symbol : Nat) (result : EccResult) : EncodeFits.Statement (.patrolScrub addr symbol result) :=
  fun _ => Nat.le_of_ble_eq_true rfl
theorem EncodeFits.sramError (site : SramSite) (uncorrectable : Bool) : EncodeFits.Statement (.sramError site uncorrectable) :=
  fun _ => Nat.le_of_ble_eq_true rfl
theorem EncodeFits.frameRetire (ctx va frame : Nat) : EncodeFits.Statement (.frameRetire ctx va frame) :=
  fun _ => Nat.le_of_ble_eq_true rfl
theorem EncodeFits.flitReceive (port seq : Nat) (crcOk : Bool) : EncodeFits.Statement (.flitReceive port seq crcOk) :=
  fun _ => Nat.le_of_ble_eq_true rfl
theorem EncodeFits.flitNack (port seq : Nat) : EncodeFits.Statement (.flitNack port seq) :=
  fun _ => Nat.le_of_ble_eq_true rfl
theorem EncodeFits.linkRetrain (port : Nat) : EncodeFits.Statement (.linkRetrain port) :=
  fun _ => Nat.le_of_ble_eq_true rfl
theorem EncodeFits.retrainComplete (port : Nat) (ok : Bool) : EncodeFits.Statement (.retrainComplete port ok) :=
  fun _ => Nat.le_of_ble_eq_true rfl
theorem EncodeFits.watchdogExpiry (hart : Nat) : EncodeFits.Statement (.watchdogExpiry hart) :=
  fun _ => Nat.le_of_ble_eq_true rfl
theorem EncodeFits.resetRelease : EncodeFits.Statement (.resetRelease) :=
  fun _ => Nat.le_of_ble_eq_true rfl
theorem EncodeFits.hbmTrainingComplete (hbmOk linksOk : Bool) : EncodeFits.Statement (.hbmTrainingComplete hbmOk linksOk) :=
  fun _ => Nat.le_of_ble_eq_true rfl
theorem EncodeFits.fullFunctionStart : EncodeFits.Statement (.fullFunctionStart) :=
  fun _ => Nat.le_of_ble_eq_true rfl
theorem EncodeFits.deviceReset : EncodeFits.Statement (.deviceReset) :=
  fun _ => Nat.le_of_ble_eq_true rfl
theorem EncodeFits.powerLoss : EncodeFits.Statement (.powerLoss) :=
  fun _ => Nat.le_of_ble_eq_true rfl
theorem EncodeFits.lifetimeRecord : EncodeFits.Statement (.lifetimeRecord) :=
  fun _ => Nat.le_of_ble_eq_true rfl
theorem EncodeFits.contextCreate (c : CtxReq) : EncodeFits.Statement (.contextCreate c) :=
  fun _ => Nat.le_of_ble_eq_true rfl
theorem EncodeFits.contextPartMove (ctx toPkg : Nat) : EncodeFits.Statement (.contextPartMove ctx toPkg) :=
  fun _ => Nat.le_of_ble_eq_true rfl
theorem EncodeFits.debuggerResume (viaduct : Nat) : EncodeFits.Statement (.debuggerResume viaduct) :=
  fun _ => Nat.le_of_ble_eq_true rfl
theorem EncodeFits.mailboxDoorbell (die quad : Nat) : EncodeFits.Statement (.mailboxDoorbell die quad) :=
  fun _ => Nat.le_of_ble_eq_true rfl
theorem EncodeFits.functionLevelReset (func : Nat) : EncodeFits.Statement (.functionLevelReset func) :=
  fun _ => Nat.le_of_ble_eq_true rfl
theorem EncodeFits.causewayPortRetry (port : Nat) (ok : Bool) : EncodeFits.Statement (.causewayPortRetry port ok) :=
  fun _ => Nat.le_of_ble_eq_true rfl
theorem EncodeFits.flitAck (port seq : Nat) : EncodeFits.Statement (.flitAck port seq) :=
  fun _ => Nat.le_of_ble_eq_true rfl
theorem EncodeFits.getWinRead (get : Nat) : EncodeFits.Statement (.getWinRead get) :=
  fun _ => Nat.le_of_ble_eq_true rfl

end Sys2Proof.Laws
end

