-- ==== Sys2Proof/Laws/State.lean ====
section
/-! SUPPORT. What each named update of the state changes, field by field, and what it gives back when it is read. -/

namespace Sys2Proof.Machine

open Sys2Proof

/-! sSet -/

@[simp] theorem sSet_sp (r : Nat) (x : W64) (s : State) : (sSet r x s).sp = s.sp := rfl
@[simp] theorem sSet_iss (r : Nat) (x : W64) (s : State) : (sSet r x s).iss = s.iss := rfl
@[simp] theorem sSet_groups (r : Nat) (x : W64) (s : State) : (sSet r x s).groups = s.groups := rfl
@[simp] theorem sSet_spans (r : Nat) (x : W64) (s : State) : (sSet r x s).spans = s.spans := rfl
@[simp] theorem sSet_viaducts (r : Nat) (x : W64) (s : State) : (sSet r x s).viaducts = s.viaducts := rfl
@[simp] theorem sSet_traps (r : Nat) (x : W64) (s : State) : (sSet r x s).traps = s.traps := rfl
@[simp] theorem sSet_mem (r : Nat) (x : W64) (s : State) : (sSet r x s).mem = s.mem := rfl
@[simp] theorem sSet_wq (r : Nat) (x : W64) (s : State) : (sSet r x s).wq = s.wq := rfl
@[simp] theorem sSet_side (r : Nat) (x : W64) (s : State) : (sSet r x s).side = s.side := rfl
@[simp] theorem sSet_ms (r : Nat) (x : W64) (s : State) : (sSet r x s).ms = s.ms := rfl
@[simp] theorem sSet_eng (r : Nat) (x : W64) (s : State) : (sSet r x s).eng = s.eng := rfl
@[simp] theorem sSet_wat (r : Nat) (x : W64) (s : State) : (sSet r x s).wat = s.wat := rfl
@[simp] theorem sSet_fab (r : Nat) (x : W64) (s : State) : (sSet r x s).fab = s.fab := rfl
@[simp] theorem sSet_front (r : Nat) (x : W64) (s : State) : (sSet r x s).front = s.front := rfl
@[simp] theorem sSet_ten (r : Nat) (x : W64) (s : State) : (sSet r x s).ten = s.ten := rfl
@[simp] theorem sSet_dev (r : Nat) (x : W64) (s : State) : (sSet r x s).dev = s.dev := rfl
@[simp] theorem sSet_pkg (r : Nat) (x : W64) (s : State) : (sSet r x s).pkg = s.pkg := rfl
@[simp] theorem sSet_tick (r : Nat) (x : W64) (s : State) : (sSet r x s).tick = s.tick := rfl
@[simp] theorem sSet_uid (r : Nat) (x : W64) (s : State) : (sSet r x s).uid = s.uid := rfl
@[simp] theorem sSet_free (r : Nat) (x : W64) (s : State) : (sSet r x s).free = s.free := rfl
@[simp] theorem sSet_turn (r : Nat) (x : W64) (s : State) : (sSet r x s).turn = s.turn := rfl
@[simp] theorem sSet_cores (r : Nat) (x : W64) (s : State) : (sSet r x s).cores = s.cores := rfl
@[simp] theorem sSet_agenda (r : Nat) (x : W64) (s : State) : (sSet r x s).agenda = s.agenda := rfl

@[simp] theorem sSet_g_gid (r : Nat) (x : W64) (s : State) : (sSet r x s).g.gid = s.g.gid := rfl
@[simp] theorem sSet_g_span (r : Nat) (x : W64) (s : State) : (sSet r x s).g.span = s.g.span := rfl
@[simp] theorem sSet_g_viaduct (r : Nat) (x : W64) (s : State) : (sSet r x s).g.viaduct = s.g.viaduct := rfl
@[simp] theorem sSet_g_ctx (r : Nat) (x : W64) (s : State) : (sSet r x s).g.ctx = s.g.ctx := rfl
@[simp] theorem sSet_g_index (r : Nat) (x : W64) (s : State) : (sSet r x s).g.index = s.g.index := rfl
@[simp] theorem sSet_g_die (r : Nat) (x : W64) (s : State) : (sSet r x s).g.die = s.g.die := rfl
@[simp] theorem sSet_g_core (r : Nat) (x : W64) (s : State) : (sSet r x s).g.core = s.g.core := rfl
@[simp] theorem sSet_g_gslot (r : Nat) (x : W64) (s : State) : (sSet r x s).g.gslot = s.g.gslot := rfl
@[simp] theorem sSet_g_lslot (r : Nat) (x : W64) (s : State) : (sSet r x s).g.lslot = s.g.lslot := rfl
@[simp] theorem sSet_g_nregs (r : Nat) (x : W64) (s : State) : (sSet r x s).g.nregs = s.g.nregs := rfl
@[simp] theorem sSet_g_exist (r : Nat) (x : W64) (s : State) : (sSet r x s).g.exist = s.g.exist := rfl
@[simp] theorem sSet_g_regs (r : Nat) (x : W64) (s : State) : (sSet r x s).g.regs = s.g.regs := rfl
@[simp] theorem sSet_g_regPoison (r : Nat) (x : W64) (s : State) : (sSet r x s).g.regPoison = s.g.regPoison := rfl
@[simp] theorem sSet_g_kregs (r : Nat) (x : W64) (s : State) : (sSet r x s).g.kregs = s.g.kregs := rfl
@[simp] theorem sSet_g_rng (r : Nat) (x : W64) (s : State) : (sSet r x s).g.rng = s.g.rng := rfl
@[simp] theorem sSet_g_flags (r : Nat) (x : W64) (s : State) : (sSet r x s).g.flags = s.g.flags := rfl
@[simp] theorem sSet_g_fmode (r : Nat) (x : W64) (s : State) : (sSet r x s).g.fmode = s.g.fmode := rfl
@[simp] theorem sSet_g_live (r : Nat) (x : W64) (s : State) : (sSet r x s).g.live = s.g.live := rfl
@[simp] theorem sSet_g_cntL (r : Nat) (x : W64) (s : State) : (sSet r x s).g.cntL = s.g.cntL := rfl
@[simp] theorem sSet_g_cntS (r : Nat) (x : W64) (s : State) : (sSet r x s).g.cntS = s.g.cntS := rfl
@[simp] theorem sSet_g_cntC (r : Nat) (x : W64) (s : State) : (sSet r x s).g.cntC = s.g.cntC := rfl
@[simp] theorem sSet_g_cntT (r : Nat) (x : W64) (s : State) : (sSet r x s).g.cntT = s.g.cntT := rfl
@[simp] theorem sSet_g_slots (r : Nat) (x : W64) (s : State) : (sSet r x s).g.slots = s.g.slots := rfl
@[simp] theorem sSet_g_queues (r : Nat) (x : W64) (s : State) : (sSet r x s).g.queues = s.g.queues := rfl
@[simp] theorem sSet_g_txstat (r : Nat) (x : W64) (s : State) : (sSet r x s).g.txstat = s.g.txstat := rfl
@[simp] theorem sSet_g_wstat (r : Nat) (x : W64) (s : State) : (sSet r x s).g.wstat = s.g.wstat := rfl
@[simp] theorem sSet_g_trapinfo (r : Nat) (x : W64) (s : State) : (sSet r x s).g.trapinfo = s.g.trapinfo := rfl
@[simp] theorem sSet_g_splits (r : Nat) (x : W64) (s : State) : (sSet r x s).g.splits = s.g.splits := rfl
@[simp] theorem sSet_g_lastSplit (r : Nat) (x : W64) (s : State) : (sSet r x s).g.lastSplit = s.g.lastSplit := rfl
@[simp] theorem sSet_g_stamp (r : Nat) (x : W64) (s : State) : (sSet r x s).g.stamp = s.g.stamp := rfl
@[simp] theorem sSet_g_yieldMark (r : Nat) (x : W64) (s : State) : (sSet r x s).g.yieldMark = s.g.yieldMark := rfl
@[simp] theorem sSet_g_issuedFirst (r : Nat) (x : W64) (s : State) : (sSet r x s).g.issuedFirst = s.g.issuedFirst := rfl
@[simp] theorem sSet_g_exited (r : Nat) (x : W64) (s : State) : (sSet r x s).g.exited = s.g.exited := rfl
@[simp] theorem sSet_g_released (r : Nat) (x : W64) (s : State) : (sSet r x s).g.released = s.g.released := rfl
@[simp] theorem sSet_g_residence (r : Nat) (x : W64) (s : State) : (sSet r x s).g.residence = s.g.residence := rfl
@[simp] theorem sSet_g_wakePending (r : Nat) (x : W64) (s : State) : (sSet r x s).g.wakePending = s.g.wakePending := rfl
@[simp] theorem sSet_g_tx (r : Nat) (x : W64) (s : State) : (sSet r x s).g.tx = s.g.tx := rfl
@[simp] theorem sSet_g_failCounts (r : Nat) (x : W64) (s : State) : (sSet r x s).g.failCounts = s.g.failCounts := rfl
@[simp] theorem sSet_g_replays (r : Nat) (x : W64) (s : State) : (sSet r x s).g.replays = s.g.replays := rfl
@[simp] theorem sSet_g_pendings (r : Nat) (x : W64) (s : State) : (sSet r x s).g.pendings = s.g.pendings := rfl
@[simp] theorem sSet_g_deferred (r : Nat) (x : W64) (s : State) : (sSet r x s).g.deferred = s.g.deferred := rfl
@[simp] theorem sSet_g_arrivals (r : Nat) (x : W64) (s : State) : (sSet r x s).g.arrivals = s.g.arrivals := rfl
@[simp] theorem sSet_g_stopped (r : Nat) (x : W64) (s : State) : (sSet r x s).g.stopped = s.g.stopped := rfl
@[simp] theorem sSet_g_sregs (r : Nat) (x : W64) (s : State) : (sSet r x s).g.sregs = mapSet 0 s.g.sregs r x := rfl

/-! kSet -/

@[simp] theorem kSet_sp (k : Nat) (x : W) (s : State) : (kSet k x s).sp = s.sp := rfl
@[simp] theorem kSet_iss (k : Nat) (x : W) (s : State) : (kSet k x s).iss = s.iss := rfl
@[simp] theorem kSet_groups (k : Nat) (x : W) (s : State) : (kSet k x s).groups = s.groups := rfl
@[simp] theorem kSet_spans (k : Nat) (x : W) (s : State) : (kSet k x s).spans = s.spans := rfl
@[simp] theorem kSet_viaducts (k : Nat) (x : W) (s : State) : (kSet k x s).viaducts = s.viaducts := rfl
@[simp] theorem kSet_traps (k : Nat) (x : W) (s : State) : (kSet k x s).traps = s.traps := rfl
@[simp] theorem kSet_mem (k : Nat) (x : W) (s : State) : (kSet k x s).mem = s.mem := rfl
@[simp] theorem kSet_wq (k : Nat) (x : W) (s : State) : (kSet k x s).wq = s.wq := rfl
@[simp] theorem kSet_side (k : Nat) (x : W) (s : State) : (kSet k x s).side = s.side := rfl
@[simp] theorem kSet_ms (k : Nat) (x : W) (s : State) : (kSet k x s).ms = s.ms := rfl
@[simp] theorem kSet_eng (k : Nat) (x : W) (s : State) : (kSet k x s).eng = s.eng := rfl
@[simp] theorem kSet_wat (k : Nat) (x : W) (s : State) : (kSet k x s).wat = s.wat := rfl
@[simp] theorem kSet_fab (k : Nat) (x : W) (s : State) : (kSet k x s).fab = s.fab := rfl
@[simp] theorem kSet_front (k : Nat) (x : W) (s : State) : (kSet k x s).front = s.front := rfl
@[simp] theorem kSet_ten (k : Nat) (x : W) (s : State) : (kSet k x s).ten = s.ten := rfl
@[simp] theorem kSet_dev (k : Nat) (x : W) (s : State) : (kSet k x s).dev = s.dev := rfl
@[simp] theorem kSet_pkg (k : Nat) (x : W) (s : State) : (kSet k x s).pkg = s.pkg := rfl
@[simp] theorem kSet_tick (k : Nat) (x : W) (s : State) : (kSet k x s).tick = s.tick := rfl
@[simp] theorem kSet_uid (k : Nat) (x : W) (s : State) : (kSet k x s).uid = s.uid := rfl
@[simp] theorem kSet_free (k : Nat) (x : W) (s : State) : (kSet k x s).free = s.free := rfl
@[simp] theorem kSet_turn (k : Nat) (x : W) (s : State) : (kSet k x s).turn = s.turn := rfl
@[simp] theorem kSet_cores (k : Nat) (x : W) (s : State) : (kSet k x s).cores = s.cores := rfl
@[simp] theorem kSet_agenda (k : Nat) (x : W) (s : State) : (kSet k x s).agenda = s.agenda := rfl

@[simp] theorem kSet_g_gid (k : Nat) (x : W) (s : State) : (kSet k x s).g.gid = s.g.gid := rfl
@[simp] theorem kSet_g_span (k : Nat) (x : W) (s : State) : (kSet k x s).g.span = s.g.span := rfl
@[simp] theorem kSet_g_viaduct (k : Nat) (x : W) (s : State) : (kSet k x s).g.viaduct = s.g.viaduct := rfl
@[simp] theorem kSet_g_ctx (k : Nat) (x : W) (s : State) : (kSet k x s).g.ctx = s.g.ctx := rfl
@[simp] theorem kSet_g_index (k : Nat) (x : W) (s : State) : (kSet k x s).g.index = s.g.index := rfl
@[simp] theorem kSet_g_die (k : Nat) (x : W) (s : State) : (kSet k x s).g.die = s.g.die := rfl
@[simp] theorem kSet_g_core (k : Nat) (x : W) (s : State) : (kSet k x s).g.core = s.g.core := rfl
@[simp] theorem kSet_g_gslot (k : Nat) (x : W) (s : State) : (kSet k x s).g.gslot = s.g.gslot := rfl
@[simp] theorem kSet_g_lslot (k : Nat) (x : W) (s : State) : (kSet k x s).g.lslot = s.g.lslot := rfl
@[simp] theorem kSet_g_nregs (k : Nat) (x : W) (s : State) : (kSet k x s).g.nregs = s.g.nregs := rfl
@[simp] theorem kSet_g_exist (k : Nat) (x : W) (s : State) : (kSet k x s).g.exist = s.g.exist := rfl
@[simp] theorem kSet_g_regs (k : Nat) (x : W) (s : State) : (kSet k x s).g.regs = s.g.regs := rfl
@[simp] theorem kSet_g_regPoison (k : Nat) (x : W) (s : State) : (kSet k x s).g.regPoison = s.g.regPoison := rfl
@[simp] theorem kSet_g_sregs (k : Nat) (x : W) (s : State) : (kSet k x s).g.sregs = s.g.sregs := rfl
@[simp] theorem kSet_g_rng (k : Nat) (x : W) (s : State) : (kSet k x s).g.rng = s.g.rng := rfl
@[simp] theorem kSet_g_flags (k : Nat) (x : W) (s : State) : (kSet k x s).g.flags = s.g.flags := rfl
@[simp] theorem kSet_g_fmode (k : Nat) (x : W) (s : State) : (kSet k x s).g.fmode = s.g.fmode := rfl
@[simp] theorem kSet_g_live (k : Nat) (x : W) (s : State) : (kSet k x s).g.live = s.g.live := rfl
@[simp] theorem kSet_g_cntL (k : Nat) (x : W) (s : State) : (kSet k x s).g.cntL = s.g.cntL := rfl
@[simp] theorem kSet_g_cntS (k : Nat) (x : W) (s : State) : (kSet k x s).g.cntS = s.g.cntS := rfl
@[simp] theorem kSet_g_cntC (k : Nat) (x : W) (s : State) : (kSet k x s).g.cntC = s.g.cntC := rfl
@[simp] theorem kSet_g_cntT (k : Nat) (x : W) (s : State) : (kSet k x s).g.cntT = s.g.cntT := rfl
@[simp] theorem kSet_g_slots (k : Nat) (x : W) (s : State) : (kSet k x s).g.slots = s.g.slots := rfl
@[simp] theorem kSet_g_queues (k : Nat) (x : W) (s : State) : (kSet k x s).g.queues = s.g.queues := rfl
@[simp] theorem kSet_g_txstat (k : Nat) (x : W) (s : State) : (kSet k x s).g.txstat = s.g.txstat := rfl
@[simp] theorem kSet_g_wstat (k : Nat) (x : W) (s : State) : (kSet k x s).g.wstat = s.g.wstat := rfl
@[simp] theorem kSet_g_trapinfo (k : Nat) (x : W) (s : State) : (kSet k x s).g.trapinfo = s.g.trapinfo := rfl
@[simp] theorem kSet_g_splits (k : Nat) (x : W) (s : State) : (kSet k x s).g.splits = s.g.splits := rfl
@[simp] theorem kSet_g_lastSplit (k : Nat) (x : W) (s : State) : (kSet k x s).g.lastSplit = s.g.lastSplit := rfl
@[simp] theorem kSet_g_stamp (k : Nat) (x : W) (s : State) : (kSet k x s).g.stamp = s.g.stamp := rfl
@[simp] theorem kSet_g_yieldMark (k : Nat) (x : W) (s : State) : (kSet k x s).g.yieldMark = s.g.yieldMark := rfl
@[simp] theorem kSet_g_issuedFirst (k : Nat) (x : W) (s : State) : (kSet k x s).g.issuedFirst = s.g.issuedFirst := rfl
@[simp] theorem kSet_g_exited (k : Nat) (x : W) (s : State) : (kSet k x s).g.exited = s.g.exited := rfl
@[simp] theorem kSet_g_released (k : Nat) (x : W) (s : State) : (kSet k x s).g.released = s.g.released := rfl
@[simp] theorem kSet_g_residence (k : Nat) (x : W) (s : State) : (kSet k x s).g.residence = s.g.residence := rfl
@[simp] theorem kSet_g_wakePending (k : Nat) (x : W) (s : State) : (kSet k x s).g.wakePending = s.g.wakePending := rfl
@[simp] theorem kSet_g_tx (k : Nat) (x : W) (s : State) : (kSet k x s).g.tx = s.g.tx := rfl
@[simp] theorem kSet_g_failCounts (k : Nat) (x : W) (s : State) : (kSet k x s).g.failCounts = s.g.failCounts := rfl
@[simp] theorem kSet_g_replays (k : Nat) (x : W) (s : State) : (kSet k x s).g.replays = s.g.replays := rfl
@[simp] theorem kSet_g_pendings (k : Nat) (x : W) (s : State) : (kSet k x s).g.pendings = s.g.pendings := rfl
@[simp] theorem kSet_g_deferred (k : Nat) (x : W) (s : State) : (kSet k x s).g.deferred = s.g.deferred := rfl
@[simp] theorem kSet_g_arrivals (k : Nat) (x : W) (s : State) : (kSet k x s).g.arrivals = s.g.arrivals := rfl
@[simp] theorem kSet_g_stopped (k : Nat) (x : W) (s : State) : (kSet k x s).g.stopped = s.g.stopped := rfl
@[simp] theorem kSet_g_kregs (k : Nat) (x : W) (s : State) : (kSet k x s).g.kregs = mapSet 0 s.g.kregs k x := rfl

/-! raise -/

@[simp] theorem raise_sp (f : Flags) (s : State) : (raise f s).sp = s.sp := rfl
@[simp] theorem raise_iss (f : Flags) (s : State) : (raise f s).iss = s.iss := rfl
@[simp] theorem raise_groups (f : Flags) (s : State) : (raise f s).groups = s.groups := rfl
@[simp] theorem raise_spans (f : Flags) (s : State) : (raise f s).spans = s.spans := rfl
@[simp] theorem raise_viaducts (f : Flags) (s : State) : (raise f s).viaducts = s.viaducts := rfl
@[simp] theorem raise_traps (f : Flags) (s : State) : (raise f s).traps = s.traps := rfl
@[simp] theorem raise_mem (f : Flags) (s : State) : (raise f s).mem = s.mem := rfl
@[simp] theorem raise_wq (f : Flags) (s : State) : (raise f s).wq = s.wq := rfl
@[simp] theorem raise_side (f : Flags) (s : State) : (raise f s).side = s.side := rfl
@[simp] theorem raise_ms (f : Flags) (s : State) : (raise f s).ms = s.ms := rfl
@[simp] theorem raise_eng (f : Flags) (s : State) : (raise f s).eng = s.eng := rfl
@[simp] theorem raise_wat (f : Flags) (s : State) : (raise f s).wat = s.wat := rfl
@[simp] theorem raise_fab (f : Flags) (s : State) : (raise f s).fab = s.fab := rfl
@[simp] theorem raise_front (f : Flags) (s : State) : (raise f s).front = s.front := rfl
@[simp] theorem raise_ten (f : Flags) (s : State) : (raise f s).ten = s.ten := rfl
@[simp] theorem raise_dev (f : Flags) (s : State) : (raise f s).dev = s.dev := rfl
@[simp] theorem raise_pkg (f : Flags) (s : State) : (raise f s).pkg = s.pkg := rfl
@[simp] theorem raise_tick (f : Flags) (s : State) : (raise f s).tick = s.tick := rfl
@[simp] theorem raise_uid (f : Flags) (s : State) : (raise f s).uid = s.uid := rfl
@[simp] theorem raise_free (f : Flags) (s : State) : (raise f s).free = s.free := rfl
@[simp] theorem raise_turn (f : Flags) (s : State) : (raise f s).turn = s.turn := rfl
@[simp] theorem raise_cores (f : Flags) (s : State) : (raise f s).cores = s.cores := rfl
@[simp] theorem raise_agenda (f : Flags) (s : State) : (raise f s).agenda = s.agenda := rfl

@[simp] theorem raise_g_gid (f : Flags) (s : State) : (raise f s).g.gid = s.g.gid := rfl
@[simp] theorem raise_g_span (f : Flags) (s : State) : (raise f s).g.span = s.g.span := rfl
@[simp] theorem raise_g_viaduct (f : Flags) (s : State) : (raise f s).g.viaduct = s.g.viaduct := rfl
@[simp] theorem raise_g_ctx (f : Flags) (s : State) : (raise f s).g.ctx = s.g.ctx := rfl
@[simp] theorem raise_g_index (f : Flags) (s : State) : (raise f s).g.index = s.g.index := rfl
@[simp] theorem raise_g_die (f : Flags) (s : State) : (raise f s).g.die = s.g.die := rfl
@[simp] theorem raise_g_core (f : Flags) (s : State) : (raise f s).g.core = s.g.core := rfl
@[simp] theorem raise_g_gslot (f : Flags) (s : State) : (raise f s).g.gslot = s.g.gslot := rfl
@[simp] theorem raise_g_lslot (f : Flags) (s : State) : (raise f s).g.lslot = s.g.lslot := rfl
@[simp] theorem raise_g_nregs (f : Flags) (s : State) : (raise f s).g.nregs = s.g.nregs := rfl
@[simp] theorem raise_g_exist (f : Flags) (s : State) : (raise f s).g.exist = s.g.exist := rfl
@[simp] theorem raise_g_regs (f : Flags) (s : State) : (raise f s).g.regs = s.g.regs := rfl
@[simp] theorem raise_g_regPoison (f : Flags) (s : State) : (raise f s).g.regPoison = s.g.regPoison := rfl
@[simp] theorem raise_g_sregs (f : Flags) (s : State) : (raise f s).g.sregs = s.g.sregs := rfl
@[simp] theorem raise_g_kregs (f : Flags) (s : State) : (raise f s).g.kregs = s.g.kregs := rfl
@[simp] theorem raise_g_rng (f : Flags) (s : State) : (raise f s).g.rng = s.g.rng := rfl
@[simp] theorem raise_g_fmode (f : Flags) (s : State) : (raise f s).g.fmode = s.g.fmode := rfl
@[simp] theorem raise_g_live (f : Flags) (s : State) : (raise f s).g.live = s.g.live := rfl
@[simp] theorem raise_g_cntL (f : Flags) (s : State) : (raise f s).g.cntL = s.g.cntL := rfl
@[simp] theorem raise_g_cntS (f : Flags) (s : State) : (raise f s).g.cntS = s.g.cntS := rfl
@[simp] theorem raise_g_cntC (f : Flags) (s : State) : (raise f s).g.cntC = s.g.cntC := rfl
@[simp] theorem raise_g_cntT (f : Flags) (s : State) : (raise f s).g.cntT = s.g.cntT := rfl
@[simp] theorem raise_g_slots (f : Flags) (s : State) : (raise f s).g.slots = s.g.slots := rfl
@[simp] theorem raise_g_queues (f : Flags) (s : State) : (raise f s).g.queues = s.g.queues := rfl
@[simp] theorem raise_g_txstat (f : Flags) (s : State) : (raise f s).g.txstat = s.g.txstat := rfl
@[simp] theorem raise_g_wstat (f : Flags) (s : State) : (raise f s).g.wstat = s.g.wstat := rfl
@[simp] theorem raise_g_trapinfo (f : Flags) (s : State) : (raise f s).g.trapinfo = s.g.trapinfo := rfl
@[simp] theorem raise_g_splits (f : Flags) (s : State) : (raise f s).g.splits = s.g.splits := rfl
@[simp] theorem raise_g_lastSplit (f : Flags) (s : State) : (raise f s).g.lastSplit = s.g.lastSplit := rfl
@[simp] theorem raise_g_stamp (f : Flags) (s : State) : (raise f s).g.stamp = s.g.stamp := rfl
@[simp] theorem raise_g_yieldMark (f : Flags) (s : State) : (raise f s).g.yieldMark = s.g.yieldMark := rfl
@[simp] theorem raise_g_issuedFirst (f : Flags) (s : State) : (raise f s).g.issuedFirst = s.g.issuedFirst := rfl
@[simp] theorem raise_g_exited (f : Flags) (s : State) : (raise f s).g.exited = s.g.exited := rfl
@[simp] theorem raise_g_released (f : Flags) (s : State) : (raise f s).g.released = s.g.released := rfl
@[simp] theorem raise_g_residence (f : Flags) (s : State) : (raise f s).g.residence = s.g.residence := rfl
@[simp] theorem raise_g_wakePending (f : Flags) (s : State) : (raise f s).g.wakePending = s.g.wakePending := rfl
@[simp] theorem raise_g_tx (f : Flags) (s : State) : (raise f s).g.tx = s.g.tx := rfl
@[simp] theorem raise_g_failCounts (f : Flags) (s : State) : (raise f s).g.failCounts = s.g.failCounts := rfl
@[simp] theorem raise_g_replays (f : Flags) (s : State) : (raise f s).g.replays = s.g.replays := rfl
@[simp] theorem raise_g_pendings (f : Flags) (s : State) : (raise f s).g.pendings = s.g.pendings := rfl
@[simp] theorem raise_g_deferred (f : Flags) (s : State) : (raise f s).g.deferred = s.g.deferred := rfl
@[simp] theorem raise_g_arrivals (f : Flags) (s : State) : (raise f s).g.arrivals = s.g.arrivals := rfl
@[simp] theorem raise_g_stopped (f : Flags) (s : State) : (raise f s).g.stopped = s.g.stopped := rfl
@[simp] theorem raise_g_flags (f : Flags) (s : State) : (raise f s).g.flags = s.g.flags ||| f := rfl

/-! rngSet -/

@[simp] theorem rngSet_sp (l : Nat) (x : W) (s : State) : (rngSet l x s).sp = s.sp := rfl
@[simp] theorem rngSet_iss (l : Nat) (x : W) (s : State) : (rngSet l x s).iss = s.iss := rfl
@[simp] theorem rngSet_groups (l : Nat) (x : W) (s : State) : (rngSet l x s).groups = s.groups := rfl
@[simp] theorem rngSet_spans (l : Nat) (x : W) (s : State) : (rngSet l x s).spans = s.spans := rfl
@[simp] theorem rngSet_viaducts (l : Nat) (x : W) (s : State) : (rngSet l x s).viaducts = s.viaducts := rfl
@[simp] theorem rngSet_traps (l : Nat) (x : W) (s : State) : (rngSet l x s).traps = s.traps := rfl
@[simp] theorem rngSet_mem (l : Nat) (x : W) (s : State) : (rngSet l x s).mem = s.mem := rfl
@[simp] theorem rngSet_wq (l : Nat) (x : W) (s : State) : (rngSet l x s).wq = s.wq := rfl
@[simp] theorem rngSet_side (l : Nat) (x : W) (s : State) : (rngSet l x s).side = s.side := rfl
@[simp] theorem rngSet_ms (l : Nat) (x : W) (s : State) : (rngSet l x s).ms = s.ms := rfl
@[simp] theorem rngSet_eng (l : Nat) (x : W) (s : State) : (rngSet l x s).eng = s.eng := rfl
@[simp] theorem rngSet_wat (l : Nat) (x : W) (s : State) : (rngSet l x s).wat = s.wat := rfl
@[simp] theorem rngSet_fab (l : Nat) (x : W) (s : State) : (rngSet l x s).fab = s.fab := rfl
@[simp] theorem rngSet_front (l : Nat) (x : W) (s : State) : (rngSet l x s).front = s.front := rfl
@[simp] theorem rngSet_ten (l : Nat) (x : W) (s : State) : (rngSet l x s).ten = s.ten := rfl
@[simp] theorem rngSet_dev (l : Nat) (x : W) (s : State) : (rngSet l x s).dev = s.dev := rfl
@[simp] theorem rngSet_pkg (l : Nat) (x : W) (s : State) : (rngSet l x s).pkg = s.pkg := rfl
@[simp] theorem rngSet_tick (l : Nat) (x : W) (s : State) : (rngSet l x s).tick = s.tick := rfl
@[simp] theorem rngSet_uid (l : Nat) (x : W) (s : State) : (rngSet l x s).uid = s.uid := rfl
@[simp] theorem rngSet_free (l : Nat) (x : W) (s : State) : (rngSet l x s).free = s.free := rfl
@[simp] theorem rngSet_turn (l : Nat) (x : W) (s : State) : (rngSet l x s).turn = s.turn := rfl
@[simp] theorem rngSet_cores (l : Nat) (x : W) (s : State) : (rngSet l x s).cores = s.cores := rfl
@[simp] theorem rngSet_agenda (l : Nat) (x : W) (s : State) : (rngSet l x s).agenda = s.agenda := rfl

@[simp] theorem rngSet_g_gid (l : Nat) (x : W) (s : State) : (rngSet l x s).g.gid = s.g.gid := rfl
@[simp] theorem rngSet_g_span (l : Nat) (x : W) (s : State) : (rngSet l x s).g.span = s.g.span := rfl
@[simp] theorem rngSet_g_viaduct (l : Nat) (x : W) (s : State) : (rngSet l x s).g.viaduct = s.g.viaduct := rfl
@[simp] theorem rngSet_g_ctx (l : Nat) (x : W) (s : State) : (rngSet l x s).g.ctx = s.g.ctx := rfl
@[simp] theorem rngSet_g_index (l : Nat) (x : W) (s : State) : (rngSet l x s).g.index = s.g.index := rfl
@[simp] theorem rngSet_g_die (l : Nat) (x : W) (s : State) : (rngSet l x s).g.die = s.g.die := rfl
@[simp] theorem rngSet_g_core (l : Nat) (x : W) (s : State) : (rngSet l x s).g.core = s.g.core := rfl
@[simp] theorem rngSet_g_gslot (l : Nat) (x : W) (s : State) : (rngSet l x s).g.gslot = s.g.gslot := rfl
@[simp] theorem rngSet_g_lslot (l : Nat) (x : W) (s : State) : (rngSet l x s).g.lslot = s.g.lslot := rfl
@[simp] theorem rngSet_g_nregs (l : Nat) (x : W) (s : State) : (rngSet l x s).g.nregs = s.g.nregs := rfl
@[simp] theorem rngSet_g_exist (l : Nat) (x : W) (s : State) : (rngSet l x s).g.exist = s.g.exist := rfl
@[simp] theorem rngSet_g_regs (l : Nat) (x : W) (s : State) : (rngSet l x s).g.regs = s.g.regs := rfl
@[simp] theorem rngSet_g_regPoison (l : Nat) (x : W) (s : State) : (rngSet l x s).g.regPoison = s.g.regPoison := rfl
@[simp] theorem rngSet_g_sregs (l : Nat) (x : W) (s : State) : (rngSet l x s).g.sregs = s.g.sregs := rfl
@[simp] theorem rngSet_g_kregs (l : Nat) (x : W) (s : State) : (rngSet l x s).g.kregs = s.g.kregs := rfl
@[simp] theorem rngSet_g_flags (l : Nat) (x : W) (s : State) : (rngSet l x s).g.flags = s.g.flags := rfl
@[simp] theorem rngSet_g_fmode (l : Nat) (x : W) (s : State) : (rngSet l x s).g.fmode = s.g.fmode := rfl
@[simp] theorem rngSet_g_live (l : Nat) (x : W) (s : State) : (rngSet l x s).g.live = s.g.live := rfl
@[simp] theorem rngSet_g_cntL (l : Nat) (x : W) (s : State) : (rngSet l x s).g.cntL = s.g.cntL := rfl
@[simp] theorem rngSet_g_cntS (l : Nat) (x : W) (s : State) : (rngSet l x s).g.cntS = s.g.cntS := rfl
@[simp] theorem rngSet_g_cntC (l : Nat) (x : W) (s : State) : (rngSet l x s).g.cntC = s.g.cntC := rfl
@[simp] theorem rngSet_g_cntT (l : Nat) (x : W) (s : State) : (rngSet l x s).g.cntT = s.g.cntT := rfl
@[simp] theorem rngSet_g_slots (l : Nat) (x : W) (s : State) : (rngSet l x s).g.slots = s.g.slots := rfl
@[simp] theorem rngSet_g_queues (l : Nat) (x : W) (s : State) : (rngSet l x s).g.queues = s.g.queues := rfl
@[simp] theorem rngSet_g_txstat (l : Nat) (x : W) (s : State) : (rngSet l x s).g.txstat = s.g.txstat := rfl
@[simp] theorem rngSet_g_wstat (l : Nat) (x : W) (s : State) : (rngSet l x s).g.wstat = s.g.wstat := rfl
@[simp] theorem rngSet_g_trapinfo (l : Nat) (x : W) (s : State) : (rngSet l x s).g.trapinfo = s.g.trapinfo := rfl
@[simp] theorem rngSet_g_splits (l : Nat) (x : W) (s : State) : (rngSet l x s).g.splits = s.g.splits := rfl
@[simp] theorem rngSet_g_lastSplit (l : Nat) (x : W) (s : State) : (rngSet l x s).g.lastSplit = s.g.lastSplit := rfl
@[simp] theorem rngSet_g_stamp (l : Nat) (x : W) (s : State) : (rngSet l x s).g.stamp = s.g.stamp := rfl
@[simp] theorem rngSet_g_yieldMark (l : Nat) (x : W) (s : State) : (rngSet l x s).g.yieldMark = s.g.yieldMark := rfl
@[simp] theorem rngSet_g_issuedFirst (l : Nat) (x : W) (s : State) : (rngSet l x s).g.issuedFirst = s.g.issuedFirst := rfl
@[simp] theorem rngSet_g_exited (l : Nat) (x : W) (s : State) : (rngSet l x s).g.exited = s.g.exited := rfl
@[simp] theorem rngSet_g_released (l : Nat) (x : W) (s : State) : (rngSet l x s).g.released = s.g.released := rfl
@[simp] theorem rngSet_g_residence (l : Nat) (x : W) (s : State) : (rngSet l x s).g.residence = s.g.residence := rfl
@[simp] theorem rngSet_g_wakePending (l : Nat) (x : W) (s : State) : (rngSet l x s).g.wakePending = s.g.wakePending := rfl
@[simp] theorem rngSet_g_tx (l : Nat) (x : W) (s : State) : (rngSet l x s).g.tx = s.g.tx := rfl
@[simp] theorem rngSet_g_failCounts (l : Nat) (x : W) (s : State) : (rngSet l x s).g.failCounts = s.g.failCounts := rfl
@[simp] theorem rngSet_g_replays (l : Nat) (x : W) (s : State) : (rngSet l x s).g.replays = s.g.replays := rfl
@[simp] theorem rngSet_g_pendings (l : Nat) (x : W) (s : State) : (rngSet l x s).g.pendings = s.g.pendings := rfl
@[simp] theorem rngSet_g_deferred (l : Nat) (x : W) (s : State) : (rngSet l x s).g.deferred = s.g.deferred := rfl
@[simp] theorem rngSet_g_arrivals (l : Nat) (x : W) (s : State) : (rngSet l x s).g.arrivals = s.g.arrivals := rfl
@[simp] theorem rngSet_g_stopped (l : Nat) (x : W) (s : State) : (rngSet l x s).g.stopped = s.g.stopped := rfl
@[simp] theorem rngSet_g_rng (l : Nat) (x : W) (s : State) : (rngSet l x s).g.rng = mapSet 0 s.g.rng l x := rfl

/-! vSet -/

@[simp] theorem vSet_sp (r : Nat) (f : Nat → W) (s : State) : (vSet r f s).sp = s.sp := rfl
@[simp] theorem vSet_iss (r : Nat) (f : Nat → W) (s : State) : (vSet r f s).iss = s.iss := rfl
@[simp] theorem vSet_groups (r : Nat) (f : Nat → W) (s : State) : (vSet r f s).groups = s.groups := rfl
@[simp] theorem vSet_spans (r : Nat) (f : Nat → W) (s : State) : (vSet r f s).spans = s.spans := rfl
@[simp] theorem vSet_viaducts (r : Nat) (f : Nat → W) (s : State) : (vSet r f s).viaducts = s.viaducts := rfl
@[simp] theorem vSet_traps (r : Nat) (f : Nat → W) (s : State) : (vSet r f s).traps = s.traps := rfl
@[simp] theorem vSet_mem (r : Nat) (f : Nat → W) (s : State) : (vSet r f s).mem = s.mem := rfl
@[simp] theorem vSet_wq (r : Nat) (f : Nat → W) (s : State) : (vSet r f s).wq = s.wq := rfl
@[simp] theorem vSet_side (r : Nat) (f : Nat → W) (s : State) : (vSet r f s).side = s.side := rfl
@[simp] theorem vSet_ms (r : Nat) (f : Nat → W) (s : State) : (vSet r f s).ms = s.ms := rfl
@[simp] theorem vSet_eng (r : Nat) (f : Nat → W) (s : State) : (vSet r f s).eng = s.eng := rfl
@[simp] theorem vSet_wat (r : Nat) (f : Nat → W) (s : State) : (vSet r f s).wat = s.wat := rfl
@[simp] theorem vSet_fab (r : Nat) (f : Nat → W) (s : State) : (vSet r f s).fab = s.fab := rfl
@[simp] theorem vSet_front (r : Nat) (f : Nat → W) (s : State) : (vSet r f s).front = s.front := rfl
@[simp] theorem vSet_ten (r : Nat) (f : Nat → W) (s : State) : (vSet r f s).ten = s.ten := rfl
@[simp] theorem vSet_dev (r : Nat) (f : Nat → W) (s : State) : (vSet r f s).dev = s.dev := rfl
@[simp] theorem vSet_pkg (r : Nat) (f : Nat → W) (s : State) : (vSet r f s).pkg = s.pkg := rfl
@[simp] theorem vSet_tick (r : Nat) (f : Nat → W) (s : State) : (vSet r f s).tick = s.tick := rfl
@[simp] theorem vSet_uid (r : Nat) (f : Nat → W) (s : State) : (vSet r f s).uid = s.uid := rfl
@[simp] theorem vSet_free (r : Nat) (f : Nat → W) (s : State) : (vSet r f s).free = s.free := rfl
@[simp] theorem vSet_turn (r : Nat) (f : Nat → W) (s : State) : (vSet r f s).turn = s.turn := rfl
@[simp] theorem vSet_cores (r : Nat) (f : Nat → W) (s : State) : (vSet r f s).cores = s.cores := rfl
@[simp] theorem vSet_agenda (r : Nat) (f : Nat → W) (s : State) : (vSet r f s).agenda = s.agenda := rfl

@[simp] theorem vSet_g_gid (r : Nat) (f : Nat → W) (s : State) : (vSet r f s).g.gid = s.g.gid := rfl
@[simp] theorem vSet_g_span (r : Nat) (f : Nat → W) (s : State) : (vSet r f s).g.span = s.g.span := rfl
@[simp] theorem vSet_g_viaduct (r : Nat) (f : Nat → W) (s : State) : (vSet r f s).g.viaduct = s.g.viaduct := rfl
@[simp] theorem vSet_g_ctx (r : Nat) (f : Nat → W) (s : State) : (vSet r f s).g.ctx = s.g.ctx := rfl
@[simp] theorem vSet_g_index (r : Nat) (f : Nat → W) (s : State) : (vSet r f s).g.index = s.g.index := rfl
@[simp] theorem vSet_g_die (r : Nat) (f : Nat → W) (s : State) : (vSet r f s).g.die = s.g.die := rfl
@[simp] theorem vSet_g_core (r : Nat) (f : Nat → W) (s : State) : (vSet r f s).g.core = s.g.core := rfl
@[simp] theorem vSet_g_gslot (r : Nat) (f : Nat → W) (s : State) : (vSet r f s).g.gslot = s.g.gslot := rfl
@[simp] theorem vSet_g_lslot (r : Nat) (f : Nat → W) (s : State) : (vSet r f s).g.lslot = s.g.lslot := rfl
@[simp] theorem vSet_g_nregs (r : Nat) (f : Nat → W) (s : State) : (vSet r f s).g.nregs = s.g.nregs := rfl
@[simp] theorem vSet_g_exist (r : Nat) (f : Nat → W) (s : State) : (vSet r f s).g.exist = s.g.exist := rfl
@[simp] theorem vSet_g_sregs (r : Nat) (f : Nat → W) (s : State) : (vSet r f s).g.sregs = s.g.sregs := rfl
@[simp] theorem vSet_g_kregs (r : Nat) (f : Nat → W) (s : State) : (vSet r f s).g.kregs = s.g.kregs := rfl
@[simp] theorem vSet_g_rng (r : Nat) (f : Nat → W) (s : State) : (vSet r f s).g.rng = s.g.rng := rfl
@[simp] theorem vSet_g_flags (r : Nat) (f : Nat → W) (s : State) : (vSet r f s).g.flags = s.g.flags := rfl
@[simp] theorem vSet_g_fmode (r : Nat) (f : Nat → W) (s : State) : (vSet r f s).g.fmode = s.g.fmode := rfl
@[simp] theorem vSet_g_live (r : Nat) (f : Nat → W) (s : State) : (vSet r f s).g.live = s.g.live := rfl
@[simp] theorem vSet_g_cntL (r : Nat) (f : Nat → W) (s : State) : (vSet r f s).g.cntL = s.g.cntL := rfl
@[simp] theorem vSet_g_cntS (r : Nat) (f : Nat → W) (s : State) : (vSet r f s).g.cntS = s.g.cntS := rfl
@[simp] theorem vSet_g_cntC (r : Nat) (f : Nat → W) (s : State) : (vSet r f s).g.cntC = s.g.cntC := rfl
@[simp] theorem vSet_g_cntT (r : Nat) (f : Nat → W) (s : State) : (vSet r f s).g.cntT = s.g.cntT := rfl
@[simp] theorem vSet_g_slots (r : Nat) (f : Nat → W) (s : State) : (vSet r f s).g.slots = s.g.slots := rfl
@[simp] theorem vSet_g_queues (r : Nat) (f : Nat → W) (s : State) : (vSet r f s).g.queues = s.g.queues := rfl
@[simp] theorem vSet_g_txstat (r : Nat) (f : Nat → W) (s : State) : (vSet r f s).g.txstat = s.g.txstat := rfl
@[simp] theorem vSet_g_wstat (r : Nat) (f : Nat → W) (s : State) : (vSet r f s).g.wstat = s.g.wstat := rfl
@[simp] theorem vSet_g_trapinfo (r : Nat) (f : Nat → W) (s : State) : (vSet r f s).g.trapinfo = s.g.trapinfo := rfl
@[simp] theorem vSet_g_splits (r : Nat) (f : Nat → W) (s : State) : (vSet r f s).g.splits = s.g.splits := rfl
@[simp] theorem vSet_g_lastSplit (r : Nat) (f : Nat → W) (s : State) : (vSet r f s).g.lastSplit = s.g.lastSplit := rfl
@[simp] theorem vSet_g_stamp (r : Nat) (f : Nat → W) (s : State) : (vSet r f s).g.stamp = s.g.stamp := rfl
@[simp] theorem vSet_g_yieldMark (r : Nat) (f : Nat → W) (s : State) : (vSet r f s).g.yieldMark = s.g.yieldMark := rfl
@[simp] theorem vSet_g_issuedFirst (r : Nat) (f : Nat → W) (s : State) : (vSet r f s).g.issuedFirst = s.g.issuedFirst := rfl
@[simp] theorem vSet_g_exited (r : Nat) (f : Nat → W) (s : State) : (vSet r f s).g.exited = s.g.exited := rfl
@[simp] theorem vSet_g_released (r : Nat) (f : Nat → W) (s : State) : (vSet r f s).g.released = s.g.released := rfl
@[simp] theorem vSet_g_residence (r : Nat) (f : Nat → W) (s : State) : (vSet r f s).g.residence = s.g.residence := rfl
@[simp] theorem vSet_g_wakePending (r : Nat) (f : Nat → W) (s : State) : (vSet r f s).g.wakePending = s.g.wakePending := rfl
@[simp] theorem vSet_g_tx (r : Nat) (f : Nat → W) (s : State) : (vSet r f s).g.tx = s.g.tx := rfl
@[simp] theorem vSet_g_failCounts (r : Nat) (f : Nat → W) (s : State) : (vSet r f s).g.failCounts = s.g.failCounts := rfl
@[simp] theorem vSet_g_replays (r : Nat) (f : Nat → W) (s : State) : (vSet r f s).g.replays = s.g.replays := rfl
@[simp] theorem vSet_g_pendings (r : Nat) (f : Nat → W) (s : State) : (vSet r f s).g.pendings = s.g.pendings := rfl
@[simp] theorem vSet_g_deferred (r : Nat) (f : Nat → W) (s : State) : (vSet r f s).g.deferred = s.g.deferred := rfl
@[simp] theorem vSet_g_arrivals (r : Nat) (f : Nat → W) (s : State) : (vSet r f s).g.arrivals = s.g.arrivals := rfl
@[simp] theorem vSet_g_stopped (r : Nat) (f : Nat → W) (s : State) : (vSet r f s).g.stopped = s.g.stopped := rfl
@[simp] theorem vSet_g_regs (r : Nat) (f : Nat → W) (s : State) : (vSet r f s).g.regs = writeLanes r f (lanesOf s.sp.em) s.g.regs := rfl

/-! emSet -/

@[simp] theorem emSet_g (x : W) (s : State) : (emSet x s).g = s.g := rfl
@[simp] theorem emSet_iss (x : W) (s : State) : (emSet x s).iss = s.iss := rfl
@[simp] theorem emSet_groups (x : W) (s : State) : (emSet x s).groups = s.groups := rfl
@[simp] theorem emSet_spans (x : W) (s : State) : (emSet x s).spans = s.spans := rfl
@[simp] theorem emSet_viaducts (x : W) (s : State) : (emSet x s).viaducts = s.viaducts := rfl
@[simp] theorem emSet_traps (x : W) (s : State) : (emSet x s).traps = s.traps := rfl
@[simp] theorem emSet_mem (x : W) (s : State) : (emSet x s).mem = s.mem := rfl
@[simp] theorem emSet_wq (x : W) (s : State) : (emSet x s).wq = s.wq := rfl
@[simp] theorem emSet_side (x : W) (s : State) : (emSet x s).side = s.side := rfl
@[simp] theorem emSet_ms (x : W) (s : State) : (emSet x s).ms = s.ms := rfl
@[simp] theorem emSet_eng (x : W) (s : State) : (emSet x s).eng = s.eng := rfl
@[simp] theorem emSet_wat (x : W) (s : State) : (emSet x s).wat = s.wat := rfl
@[simp] theorem emSet_fab (x : W) (s : State) : (emSet x s).fab = s.fab := rfl
@[simp] theorem emSet_front (x : W) (s : State) : (emSet x s).front = s.front := rfl
@[simp] theorem emSet_ten (x : W) (s : State) : (emSet x s).ten = s.ten := rfl
@[simp] theorem emSet_dev (x : W) (s : State) : (emSet x s).dev = s.dev := rfl
@[simp] theorem emSet_pkg (x : W) (s : State) : (emSet x s).pkg = s.pkg := rfl
@[simp] theorem emSet_tick (x : W) (s : State) : (emSet x s).tick = s.tick := rfl
@[simp] theorem emSet_uid (x : W) (s : State) : (emSet x s).uid = s.uid := rfl
@[simp] theorem emSet_free (x : W) (s : State) : (emSet x s).free = s.free := rfl
@[simp] theorem emSet_turn (x : W) (s : State) : (emSet x s).turn = s.turn := rfl
@[simp] theorem emSet_cores (x : W) (s : State) : (emSet x s).cores = s.cores := rfl
@[simp] theorem emSet_agenda (x : W) (s : State) : (emSet x s).agenda = s.agenda := rfl

/-! modSpan -/

@[simp] theorem modSpan_g (u : Nat) (f : Span → Span) (s : State) : (modSpan u f s).g = s.g := rfl
@[simp] theorem modSpan_sp (u : Nat) (f : Span → Span) (s : State) : (modSpan u f s).sp = s.sp := rfl
@[simp] theorem modSpan_iss (u : Nat) (f : Span → Span) (s : State) : (modSpan u f s).iss = s.iss := rfl
@[simp] theorem modSpan_groups (u : Nat) (f : Span → Span) (s : State) : (modSpan u f s).groups = s.groups := rfl
@[simp] theorem modSpan_viaducts (u : Nat) (f : Span → Span) (s : State) : (modSpan u f s).viaducts = s.viaducts := rfl
@[simp] theorem modSpan_traps (u : Nat) (f : Span → Span) (s : State) : (modSpan u f s).traps = s.traps := rfl
@[simp] theorem modSpan_mem (u : Nat) (f : Span → Span) (s : State) : (modSpan u f s).mem = s.mem := rfl
@[simp] theorem modSpan_wq (u : Nat) (f : Span → Span) (s : State) : (modSpan u f s).wq = s.wq := rfl
@[simp] theorem modSpan_side (u : Nat) (f : Span → Span) (s : State) : (modSpan u f s).side = s.side := rfl
@[simp] theorem modSpan_ms (u : Nat) (f : Span → Span) (s : State) : (modSpan u f s).ms = s.ms := rfl
@[simp] theorem modSpan_eng (u : Nat) (f : Span → Span) (s : State) : (modSpan u f s).eng = s.eng := rfl
@[simp] theorem modSpan_wat (u : Nat) (f : Span → Span) (s : State) : (modSpan u f s).wat = s.wat := rfl
@[simp] theorem modSpan_fab (u : Nat) (f : Span → Span) (s : State) : (modSpan u f s).fab = s.fab := rfl
@[simp] theorem modSpan_front (u : Nat) (f : Span → Span) (s : State) : (modSpan u f s).front = s.front := rfl
@[simp] theorem modSpan_ten (u : Nat) (f : Span → Span) (s : State) : (modSpan u f s).ten = s.ten := rfl
@[simp] theorem modSpan_dev (u : Nat) (f : Span → Span) (s : State) : (modSpan u f s).dev = s.dev := rfl
@[simp] theorem modSpan_pkg (u : Nat) (f : Span → Span) (s : State) : (modSpan u f s).pkg = s.pkg := rfl
@[simp] theorem modSpan_tick (u : Nat) (f : Span → Span) (s : State) : (modSpan u f s).tick = s.tick := rfl
@[simp] theorem modSpan_uid (u : Nat) (f : Span → Span) (s : State) : (modSpan u f s).uid = s.uid := rfl
@[simp] theorem modSpan_free (u : Nat) (f : Span → Span) (s : State) : (modSpan u f s).free = s.free := rfl
@[simp] theorem modSpan_turn (u : Nat) (f : Span → Span) (s : State) : (modSpan u f s).turn = s.turn := rfl
@[simp] theorem modSpan_cores (u : Nat) (f : Span → Span) (s : State) : (modSpan u f s).cores = s.cores := rfl
@[simp] theorem modSpan_agenda (u : Nat) (f : Span → Span) (s : State) : (modSpan u f s).agenda = s.agenda := rfl

/-! modViaduct -/

@[simp] theorem modViaduct_g (u : Nat) (f : Viaduct → Viaduct) (s : State) : (modViaduct u f s).g = s.g := rfl
@[simp] theorem modViaduct_sp (u : Nat) (f : Viaduct → Viaduct) (s : State) : (modViaduct u f s).sp = s.sp := rfl
@[simp] theorem modViaduct_iss (u : Nat) (f : Viaduct → Viaduct) (s : State) : (modViaduct u f s).iss = s.iss := rfl
@[simp] theorem modViaduct_groups (u : Nat) (f : Viaduct → Viaduct) (s : State) : (modViaduct u f s).groups = s.groups := rfl
@[simp] theorem modViaduct_spans (u : Nat) (f : Viaduct → Viaduct) (s : State) : (modViaduct u f s).spans = s.spans := rfl
@[simp] theorem modViaduct_traps (u : Nat) (f : Viaduct → Viaduct) (s : State) : (modViaduct u f s).traps = s.traps := rfl
@[simp] theorem modViaduct_mem (u : Nat) (f : Viaduct → Viaduct) (s : State) : (modViaduct u f s).mem = s.mem := rfl
@[simp] theorem modViaduct_wq (u : Nat) (f : Viaduct → Viaduct) (s : State) : (modViaduct u f s).wq = s.wq := rfl
@[simp] theorem modViaduct_side (u : Nat) (f : Viaduct → Viaduct) (s : State) : (modViaduct u f s).side = s.side := rfl
@[simp] theorem modViaduct_ms (u : Nat) (f : Viaduct → Viaduct) (s : State) : (modViaduct u f s).ms = s.ms := rfl
@[simp] theorem modViaduct_eng (u : Nat) (f : Viaduct → Viaduct) (s : State) : (modViaduct u f s).eng = s.eng := rfl
@[simp] theorem modViaduct_wat (u : Nat) (f : Viaduct → Viaduct) (s : State) : (modViaduct u f s).wat = s.wat := rfl
@[simp] theorem modViaduct_fab (u : Nat) (f : Viaduct → Viaduct) (s : State) : (modViaduct u f s).fab = s.fab := rfl
@[simp] theorem modViaduct_front (u : Nat) (f : Viaduct → Viaduct) (s : State) : (modViaduct u f s).front = s.front := rfl
@[simp] theorem modViaduct_ten (u : Nat) (f : Viaduct → Viaduct) (s : State) : (modViaduct u f s).ten = s.ten := rfl
@[simp] theorem modViaduct_dev (u : Nat) (f : Viaduct → Viaduct) (s : State) : (modViaduct u f s).dev = s.dev := rfl
@[simp] theorem modViaduct_pkg (u : Nat) (f : Viaduct → Viaduct) (s : State) : (modViaduct u f s).pkg = s.pkg := rfl
@[simp] theorem modViaduct_tick (u : Nat) (f : Viaduct → Viaduct) (s : State) : (modViaduct u f s).tick = s.tick := rfl
@[simp] theorem modViaduct_uid (u : Nat) (f : Viaduct → Viaduct) (s : State) : (modViaduct u f s).uid = s.uid := rfl
@[simp] theorem modViaduct_free (u : Nat) (f : Viaduct → Viaduct) (s : State) : (modViaduct u f s).free = s.free := rfl
@[simp] theorem modViaduct_turn (u : Nat) (f : Viaduct → Viaduct) (s : State) : (modViaduct u f s).turn = s.turn := rfl
@[simp] theorem modViaduct_cores (u : Nat) (f : Viaduct → Viaduct) (s : State) : (modViaduct u f s).cores = s.cores := rfl
@[simp] theorem modViaduct_agenda (u : Nat) (f : Viaduct → Viaduct) (s : State) : (modViaduct u f s).agenda = s.agenda := rfl

/-! modCtx -/

@[simp] theorem modCtx_g (n : Nat) (f : Context → Context) (s : State) : (modCtx n f s).g = s.g := rfl
@[simp] theorem modCtx_sp (n : Nat) (f : Context → Context) (s : State) : (modCtx n f s).sp = s.sp := rfl
@[simp] theorem modCtx_iss (n : Nat) (f : Context → Context) (s : State) : (modCtx n f s).iss = s.iss := rfl
@[simp] theorem modCtx_groups (n : Nat) (f : Context → Context) (s : State) : (modCtx n f s).groups = s.groups := rfl
@[simp] theorem modCtx_spans (n : Nat) (f : Context → Context) (s : State) : (modCtx n f s).spans = s.spans := rfl
@[simp] theorem modCtx_viaducts (n : Nat) (f : Context → Context) (s : State) : (modCtx n f s).viaducts = s.viaducts := rfl
@[simp] theorem modCtx_traps (n : Nat) (f : Context → Context) (s : State) : (modCtx n f s).traps = s.traps := rfl
@[simp] theorem modCtx_mem (n : Nat) (f : Context → Context) (s : State) : (modCtx n f s).mem = s.mem := rfl
@[simp] theorem modCtx_wq (n : Nat) (f : Context → Context) (s : State) : (modCtx n f s).wq = s.wq := rfl
@[simp] theorem modCtx_side (n : Nat) (f : Context → Context) (s : State) : (modCtx n f s).side = s.side := rfl
@[simp] theorem modCtx_ms (n : Nat) (f : Context → Context) (s : State) : (modCtx n f s).ms = s.ms := rfl
@[simp] theorem modCtx_eng (n : Nat) (f : Context → Context) (s : State) : (modCtx n f s).eng = s.eng := rfl
@[simp] theorem modCtx_wat (n : Nat) (f : Context → Context) (s : State) : (modCtx n f s).wat = s.wat := rfl
@[simp] theorem modCtx_fab (n : Nat) (f : Context → Context) (s : State) : (modCtx n f s).fab = s.fab := rfl
@[simp] theorem modCtx_front (n : Nat) (f : Context → Context) (s : State) : (modCtx n f s).front = s.front := rfl
@[simp] theorem modCtx_dev (n : Nat) (f : Context → Context) (s : State) : (modCtx n f s).dev = s.dev := rfl
@[simp] theorem modCtx_pkg (n : Nat) (f : Context → Context) (s : State) : (modCtx n f s).pkg = s.pkg := rfl
@[simp] theorem modCtx_tick (n : Nat) (f : Context → Context) (s : State) : (modCtx n f s).tick = s.tick := rfl
@[simp] theorem modCtx_uid (n : Nat) (f : Context → Context) (s : State) : (modCtx n f s).uid = s.uid := rfl
@[simp] theorem modCtx_free (n : Nat) (f : Context → Context) (s : State) : (modCtx n f s).free = s.free := rfl
@[simp] theorem modCtx_turn (n : Nat) (f : Context → Context) (s : State) : (modCtx n f s).turn = s.turn := rfl
@[simp] theorem modCtx_cores (n : Nat) (f : Context → Context) (s : State) : (modCtx n f s).cores = s.cores := rfl
@[simp] theorem modCtx_agenda (n : Nat) (f : Context → Context) (s : State) : (modCtx n f s).agenda = s.agenda := rfl

/-! modQueue -/

@[simp] theorem modQueue_g (n : Nat) (f : Queue → Queue) (s : State) : (modQueue n f s).g = s.g := rfl
@[simp] theorem modQueue_sp (n : Nat) (f : Queue → Queue) (s : State) : (modQueue n f s).sp = s.sp := rfl
@[simp] theorem modQueue_iss (n : Nat) (f : Queue → Queue) (s : State) : (modQueue n f s).iss = s.iss := rfl
@[simp] theorem modQueue_groups (n : Nat) (f : Queue → Queue) (s : State) : (modQueue n f s).groups = s.groups := rfl
@[simp] theorem modQueue_spans (n : Nat) (f : Queue → Queue) (s : State) : (modQueue n f s).spans = s.spans := rfl
@[simp] theorem modQueue_viaducts (n : Nat) (f : Queue → Queue) (s : State) : (modQueue n f s).viaducts = s.viaducts := rfl
@[simp] theorem modQueue_traps (n : Nat) (f : Queue → Queue) (s : State) : (modQueue n f s).traps = s.traps := rfl
@[simp] theorem modQueue_mem (n : Nat) (f : Queue → Queue) (s : State) : (modQueue n f s).mem = s.mem := rfl
@[simp] theorem modQueue_wq (n : Nat) (f : Queue → Queue) (s : State) : (modQueue n f s).wq = s.wq := rfl
@[simp] theorem modQueue_side (n : Nat) (f : Queue → Queue) (s : State) : (modQueue n f s).side = s.side := rfl
@[simp] theorem modQueue_ms (n : Nat) (f : Queue → Queue) (s : State) : (modQueue n f s).ms = s.ms := rfl
@[simp] theorem modQueue_eng (n : Nat) (f : Queue → Queue) (s : State) : (modQueue n f s).eng = s.eng := rfl
@[simp] theorem modQueue_wat (n : Nat) (f : Queue → Queue) (s : State) : (modQueue n f s).wat = s.wat := rfl
@[simp] theorem modQueue_fab (n : Nat) (f : Queue → Queue) (s : State) : (modQueue n f s).fab = s.fab := rfl
@[simp] theorem modQueue_ten (n : Nat) (f : Queue → Queue) (s : State) : (modQueue n f s).ten = s.ten := rfl
@[simp] theorem modQueue_dev (n : Nat) (f : Queue → Queue) (s : State) : (modQueue n f s).dev = s.dev := rfl
@[simp] theorem modQueue_pkg (n : Nat) (f : Queue → Queue) (s : State) : (modQueue n f s).pkg = s.pkg := rfl
@[simp] theorem modQueue_tick (n : Nat) (f : Queue → Queue) (s : State) : (modQueue n f s).tick = s.tick := rfl
@[simp] theorem modQueue_uid (n : Nat) (f : Queue → Queue) (s : State) : (modQueue n f s).uid = s.uid := rfl
@[simp] theorem modQueue_free (n : Nat) (f : Queue → Queue) (s : State) : (modQueue n f s).free = s.free := rfl
@[simp] theorem modQueue_turn (n : Nat) (f : Queue → Queue) (s : State) : (modQueue n f s).turn = s.turn := rfl
@[simp] theorem modQueue_cores (n : Nat) (f : Queue → Queue) (s : State) : (modQueue n f s).cores = s.cores := rfl
@[simp] theorem modQueue_agenda (n : Nat) (f : Queue → Queue) (s : State) : (modQueue n f s).agenda = s.agenda := rfl

/-! fresh -/

@[simp] theorem fresh_g (s : State) : ((fresh s).2).g = s.g := rfl
@[simp] theorem fresh_sp (s : State) : ((fresh s).2).sp = s.sp := rfl
@[simp] theorem fresh_iss (s : State) : ((fresh s).2).iss = s.iss := rfl
@[simp] theorem fresh_groups (s : State) : ((fresh s).2).groups = s.groups := rfl
@[simp] theorem fresh_spans (s : State) : ((fresh s).2).spans = s.spans := rfl
@[simp] theorem fresh_viaducts (s : State) : ((fresh s).2).viaducts = s.viaducts := rfl
@[simp] theorem fresh_traps (s : State) : ((fresh s).2).traps = s.traps := rfl
@[simp] theorem fresh_mem (s : State) : ((fresh s).2).mem = s.mem := rfl
@[simp] theorem fresh_wq (s : State) : ((fresh s).2).wq = s.wq := rfl
@[simp] theorem fresh_side (s : State) : ((fresh s).2).side = s.side := rfl
@[simp] theorem fresh_ms (s : State) : ((fresh s).2).ms = s.ms := rfl
@[simp] theorem fresh_eng (s : State) : ((fresh s).2).eng = s.eng := rfl
@[simp] theorem fresh_wat (s : State) : ((fresh s).2).wat = s.wat := rfl
@[simp] theorem fresh_fab (s : State) : ((fresh s).2).fab = s.fab := rfl
@[simp] theorem fresh_front (s : State) : ((fresh s).2).front = s.front := rfl
@[simp] theorem fresh_ten (s : State) : ((fresh s).2).ten = s.ten := rfl
@[simp] theorem fresh_dev (s : State) : ((fresh s).2).dev = s.dev := rfl
@[simp] theorem fresh_pkg (s : State) : ((fresh s).2).pkg = s.pkg := rfl
@[simp] theorem fresh_tick (s : State) : ((fresh s).2).tick = s.tick := rfl
@[simp] theorem fresh_free (s : State) : ((fresh s).2).free = s.free := rfl
@[simp] theorem fresh_turn (s : State) : ((fresh s).2).turn = s.turn := rfl
@[simp] theorem fresh_cores (s : State) : ((fresh s).2).cores = s.cores := rfl
@[simp] theorem fresh_agenda (s : State) : ((fresh s).2).agenda = s.agenda := rfl
@[simp] theorem fresh_uid (s : State) : ((fresh s).2).uid = s.uid + 1 := rfl

/-! draw -/

@[simp] theorem draw_g (s : State) : ((draw s).2).g = s.g := rfl
@[simp] theorem draw_sp (s : State) : ((draw s).2).sp = s.sp := rfl
@[simp] theorem draw_iss (s : State) : ((draw s).2).iss = s.iss := rfl
@[simp] theorem draw_groups (s : State) : ((draw s).2).groups = s.groups := rfl
@[simp] theorem draw_spans (s : State) : ((draw s).2).spans = s.spans := rfl
@[simp] theorem draw_viaducts (s : State) : ((draw s).2).viaducts = s.viaducts := rfl
@[simp] theorem draw_traps (s : State) : ((draw s).2).traps = s.traps := rfl
@[simp] theorem draw_mem (s : State) : ((draw s).2).mem = s.mem := rfl
@[simp] theorem draw_wq (s : State) : ((draw s).2).wq = s.wq := rfl
@[simp] theorem draw_side (s : State) : ((draw s).2).side = s.side := rfl
@[simp] theorem draw_ms (s : State) : ((draw s).2).ms = s.ms := rfl
@[simp] theorem draw_eng (s : State) : ((draw s).2).eng = s.eng := rfl
@[simp] theorem draw_wat (s : State) : ((draw s).2).wat = s.wat := rfl
@[simp] theorem draw_fab (s : State) : ((draw s).2).fab = s.fab := rfl
@[simp] theorem draw_front (s : State) : ((draw s).2).front = s.front := rfl
@[simp] theorem draw_ten (s : State) : ((draw s).2).ten = s.ten := rfl
@[simp] theorem draw_dev (s : State) : ((draw s).2).dev = s.dev := rfl
@[simp] theorem draw_pkg (s : State) : ((draw s).2).pkg = s.pkg := rfl
@[simp] theorem draw_tick (s : State) : ((draw s).2).tick = s.tick := rfl
@[simp] theorem draw_uid (s : State) : ((draw s).2).uid = s.uid := rfl
@[simp] theorem draw_turn (s : State) : ((draw s).2).turn = s.turn := rfl
@[simp] theorem draw_cores (s : State) : ((draw s).2).cores = s.cores := rfl
@[simp] theorem draw_agenda (s : State) : ((draw s).2).agenda = s.agenda := rfl
@[simp] theorem draw_free (s : State) : ((draw s).2).free = s.free + 1 := rfl

/-! stallWord -/

@[simp] theorem stallWord_g (s : State) : (stallWord s).g = s.g := rfl
@[simp] theorem stallWord_groups (s : State) : (stallWord s).groups = s.groups := rfl
@[simp] theorem stallWord_spans (s : State) : (stallWord s).spans = s.spans := rfl
@[simp] theorem stallWord_viaducts (s : State) : (stallWord s).viaducts = s.viaducts := rfl
@[simp] theorem stallWord_traps (s : State) : (stallWord s).traps = s.traps := rfl
@[simp] theorem stallWord_mem (s : State) : (stallWord s).mem = s.mem := rfl
@[simp] theorem stallWord_wq (s : State) : (stallWord s).wq = s.wq := rfl
@[simp] theorem stallWord_side (s : State) : (stallWord s).side = s.side := rfl
@[simp] theorem stallWord_ms (s : State) : (stallWord s).ms = s.ms := rfl
@[simp] theorem stallWord_eng (s : State) : (stallWord s).eng = s.eng := rfl
@[simp] theorem stallWord_wat (s : State) : (stallWord s).wat = s.wat := rfl
@[simp] theorem stallWord_fab (s : State) : (stallWord s).fab = s.fab := rfl
@[simp] theorem stallWord_front (s : State) : (stallWord s).front = s.front := rfl
@[simp] theorem stallWord_ten (s : State) : (stallWord s).ten = s.ten := rfl
@[simp] theorem stallWord_dev (s : State) : (stallWord s).dev = s.dev := rfl
@[simp] theorem stallWord_pkg (s : State) : (stallWord s).pkg = s.pkg := rfl
@[simp] theorem stallWord_tick (s : State) : (stallWord s).tick = s.tick := rfl
@[simp] theorem stallWord_uid (s : State) : (stallWord s).uid = s.uid := rfl
@[simp] theorem stallWord_free (s : State) : (stallWord s).free = s.free := rfl
@[simp] theorem stallWord_turn (s : State) : (stallWord s).turn = s.turn := rfl
@[simp] theorem stallWord_cores (s : State) : (stallWord s).cores = s.cores := rfl
@[simp] theorem stallWord_agenda (s : State) : (stallWord s).agenda = s.agenda := rfl

/-! takeCheckpoint -/

@[simp] theorem takeCheckpoint_g (pc word : Nat) (s : State) : (takeCheckpoint pc word s).g = s.g := rfl
@[simp] theorem takeCheckpoint_iss (pc word : Nat) (s : State) : (takeCheckpoint pc word s).iss = s.iss := rfl
@[simp] theorem takeCheckpoint_groups (pc word : Nat) (s : State) : (takeCheckpoint pc word s).groups = s.groups := rfl
@[simp] theorem takeCheckpoint_spans (pc word : Nat) (s : State) : (takeCheckpoint pc word s).spans = s.spans := rfl
@[simp] theorem takeCheckpoint_viaducts (pc word : Nat) (s : State) : (takeCheckpoint pc word s).viaducts = s.viaducts := rfl
@[simp] theorem takeCheckpoint_traps (pc word : Nat) (s : State) : (takeCheckpoint pc word s).traps = s.traps := rfl
@[simp] theorem takeCheckpoint_mem (pc word : Nat) (s : State) : (takeCheckpoint pc word s).mem = s.mem := rfl
@[simp] theorem takeCheckpoint_wq (pc word : Nat) (s : State) : (takeCheckpoint pc word s).wq = s.wq := rfl
@[simp] theorem takeCheckpoint_side (pc word : Nat) (s : State) : (takeCheckpoint pc word s).side = s.side := rfl
@[simp] theorem takeCheckpoint_ms (pc word : Nat) (s : State) : (takeCheckpoint pc word s).ms = s.ms := rfl
@[simp] theorem takeCheckpoint_eng (pc word : Nat) (s : State) : (takeCheckpoint pc word s).eng = s.eng := rfl
@[simp] theorem takeCheckpoint_wat (pc word : Nat) (s : State) : (takeCheckpoint pc word s).wat = s.wat := rfl
@[simp] theorem takeCheckpoint_fab (pc word : Nat) (s : State) : (takeCheckpoint pc word s).fab = s.fab := rfl
@[simp] theorem takeCheckpoint_front (pc word : Nat) (s : State) : (takeCheckpoint pc word s).front = s.front := rfl
@[simp] theorem takeCheckpoint_ten (pc word : Nat) (s : State) : (takeCheckpoint pc word s).ten = s.ten := rfl
@[simp] theorem takeCheckpoint_dev (pc word : Nat) (s : State) : (takeCheckpoint pc word s).dev = s.dev := rfl
@[simp] theorem takeCheckpoint_pkg (pc word : Nat) (s : State) : (takeCheckpoint pc word s).pkg = s.pkg := rfl
@[simp] theorem takeCheckpoint_tick (pc word : Nat) (s : State) : (takeCheckpoint pc word s).tick = s.tick := rfl
@[simp] theorem takeCheckpoint_uid (pc word : Nat) (s : State) : (takeCheckpoint pc word s).uid = s.uid := rfl
@[simp] theorem takeCheckpoint_free (pc word : Nat) (s : State) : (takeCheckpoint pc word s).free = s.free := rfl
@[simp] theorem takeCheckpoint_turn (pc word : Nat) (s : State) : (takeCheckpoint pc word s).turn = s.turn := rfl
@[simp] theorem takeCheckpoint_cores (pc word : Nat) (s : State) : (takeCheckpoint pc word s).cores = s.cores := rfl
@[simp] theorem takeCheckpoint_agenda (pc word : Nat) (s : State) : (takeCheckpoint pc word s).agenda = s.agenda := rfl

/-! wrByte -/

@[simp] theorem wrByte_g (a : Nat) (b : Byte) (s : State) : (wrByte a b s).g = s.g := rfl
@[simp] theorem wrByte_sp (a : Nat) (b : Byte) (s : State) : (wrByte a b s).sp = s.sp := rfl
@[simp] theorem wrByte_iss (a : Nat) (b : Byte) (s : State) : (wrByte a b s).iss = s.iss := rfl
@[simp] theorem wrByte_groups (a : Nat) (b : Byte) (s : State) : (wrByte a b s).groups = s.groups := rfl
@[simp] theorem wrByte_spans (a : Nat) (b : Byte) (s : State) : (wrByte a b s).spans = s.spans := rfl
@[simp] theorem wrByte_viaducts (a : Nat) (b : Byte) (s : State) : (wrByte a b s).viaducts = s.viaducts := rfl
@[simp] theorem wrByte_traps (a : Nat) (b : Byte) (s : State) : (wrByte a b s).traps = s.traps := rfl
@[simp] theorem wrByte_side (a : Nat) (b : Byte) (s : State) : (wrByte a b s).side = s.side := rfl
@[simp] theorem wrByte_ms (a : Nat) (b : Byte) (s : State) : (wrByte a b s).ms = s.ms := rfl
@[simp] theorem wrByte_eng (a : Nat) (b : Byte) (s : State) : (wrByte a b s).eng = s.eng := rfl
@[simp] theorem wrByte_wat (a : Nat) (b : Byte) (s : State) : (wrByte a b s).wat = s.wat := rfl
@[simp] theorem wrByte_fab (a : Nat) (b : Byte) (s : State) : (wrByte a b s).fab = s.fab := rfl
@[simp] theorem wrByte_front (a : Nat) (b : Byte) (s : State) : (wrByte a b s).front = s.front := rfl
@[simp] theorem wrByte_ten (a : Nat) (b : Byte) (s : State) : (wrByte a b s).ten = s.ten := rfl
@[simp] theorem wrByte_dev (a : Nat) (b : Byte) (s : State) : (wrByte a b s).dev = s.dev := rfl
@[simp] theorem wrByte_pkg (a : Nat) (b : Byte) (s : State) : (wrByte a b s).pkg = s.pkg := rfl
@[simp] theorem wrByte_tick (a : Nat) (b : Byte) (s : State) : (wrByte a b s).tick = s.tick := rfl
@[simp] theorem wrByte_uid (a : Nat) (b : Byte) (s : State) : (wrByte a b s).uid = s.uid := rfl
@[simp] theorem wrByte_free (a : Nat) (b : Byte) (s : State) : (wrByte a b s).free = s.free := rfl
@[simp] theorem wrByte_turn (a : Nat) (b : Byte) (s : State) : (wrByte a b s).turn = s.turn := rfl
@[simp] theorem wrByte_cores (a : Nat) (b : Byte) (s : State) : (wrByte a b s).cores = s.cores := rfl
@[simp] theorem wrByte_agenda (a : Nat) (b : Byte) (s : State) : (wrByte a b s).agenda = s.agenda := rfl
@[simp] theorem wrByte_wq (a : Nat) (b : Byte) (s : State) : (wrByte a b s).wq = (a, b) :: s.wq := rfl

/-! Reading back. -/

@[simp] theorem sGet_sSet (r q : Nat) (x : W64) (s : State) : sGet (sSet r x s) q = if q = r then x else sGet s q :=
  mapGet_mapSet 0 s.g.sregs r q x

@[simp] theorem kGet_kSet (k j : Nat) (x : W) (s : State) : kGet (kSet k x s) j = if j = k then x else kGet s j :=
  mapGet_mapSet 0 s.g.kregs k j x

@[simp] theorem rngGet_rngSet (l j : Nat) (x : W) (s : State) : rngGet (rngSet l x s) j = if j = l then x else rngGet s j :=
  mapGet_mapSet 0 s.g.rng l j x

@[simp] theorem vGet_sSet (r : Nat) (x : W64) (s : State) (q l : Nat) : vGet (sSet r x s) q l = vGet s q l := rfl
@[simp] theorem vGet_kSet (k : Nat) (x : W) (s : State) (q l : Nat) : vGet (kSet k x s) q l = vGet s q l := rfl
@[simp] theorem vGet_raise (f : Flags) (s : State) (q l : Nat) : vGet (raise f s) q l = vGet s q l := rfl
@[simp] theorem sGet_kSet (k : Nat) (x : W) (s : State) (r : Nat) : sGet (kSet k x s) r = sGet s r := rfl
@[simp] theorem kGet_sSet (r : Nat) (x : W64) (s : State) (k : Nat) : kGet (sSet r x s) k = kGet s k := rfl
@[simp] theorem sGet_raise (f : Flags) (s : State) (r : Nat) : sGet (raise f s) r = sGet s r := rfl
@[simp] theorem kGet_raise (f : Flags) (s : State) (k : Nat) : kGet (raise f s) k = kGet s k := rfl

/-! What the shared operations can do. -/

/-- A stalled word goes back to its place: nothing but the split's place and the mark of the stall changes. -/
theorem stallWord_frame (s : State) : { stallWord s with sp := s.sp, iss := s.iss } = s := rfl

/-- A checkpoint changes the split in focus alone. -/
theorem takeCheckpoint_frame (pc word : Nat) (s : State) : { takeCheckpoint pc word s with sp := s.sp } = s := rfl

/-- A write of a mask operand changes that mask register, or the execution mask. -/
theorem maskSet_cases (k : Nat) (x : W) (s : State) :
    (k = 8 ∧ maskSet k x s = emSet x s) ∨ (k ≠ 8 ∧ maskSet k x s = kSet k x s) := by
  by_cases h : k = 8
  · exact .inl ⟨h, by simp [maskSet, h]⟩
  · exact .inr ⟨h, by simp [maskSet, h]⟩

/-- A guarded read has its effect where no source is poisoned. -/
theorem readGuard_clear {s : State} {srcs : List Nat} (eff : State → State) (h : poisonedLane s srcs = none) :
    readGuard srcs eff s = eff s := by simp [readGuard, h]

/-- The first trap of a list: none exactly if there is none. -/
theorem firstTrap_none (ts : List (Option Trap)) : firstTrap ts = none ↔ ∀ t ∈ ts, t = none := by
  induction ts with
  | nil => simp [firstTrap]
  | cons t ts ih => cases t <;> simp_all [firstTrap]

/-- A conditional trap is none exactly if its condition is false. -/
theorem trapIf_none (c : Bool) (k : TrapKind) : trapIf c k = none ↔ c = false := by cases c <;> simp [trapIf]

/-- No range trap exactly if every range lies in the group's registers. -/
theorem rangeTrap_none (s : State) (rs : List (Nat × Nat)) : rangeTrap s rs = none ↔ ∀ p ∈ rs, p.1 + p.2 ≤ s.g.nregs := by
  simp [rangeTrap, trapIf_none, overRange]

/-- No live-in trap exactly if no destination is a live-in. -/
theorem liveTrap_none (s : State) (ds : List Nat) : liveTrap s ds = none ↔ ∀ d ∈ ds, s.g.live ≤ d := by
  simp [liveTrap, trapIf_none, inLive]

end Sys2Proof.Machine
end

