-- ==== Sys2Proof/Laws/Words.lean ====
section
/-! SUPPORT. The frames of the register words: what a word that issues does, and what it leaves unchanged. -/

namespace Sys2Proof.Machine

open Sys2Proof

/-- Every outcome of a word: its trap, its stall, or its effect. -/
theorem issueWord_eq (trap : Option Trap) (vs ss : List Nat) (eff : State → State) (s : State) :
    issueWord trap vs ss eff s =
      .next (match trap with
        | some t => takeTrap t s
        | none => if hazard s vs ss then stallWord s else eff s) := by
  unfold issueWord
  split <;> [rfl; split <;> rfl]

/-- A word with no trap, no hazard and no marked source has its effect. -/
theorem vecWord_clear {s : State} {d n : Nat} {srcs : List (Nat × Nat)} {scas : List Nat} (f : State → Nat → LaneOut)
    (hr : ∀ p ∈ (d, n) :: srcs, p.1 + p.2 ≤ s.g.nregs) (hl : s.g.live ≤ d)
    (hh : hazard s (regsOf ((d, n) :: srcs)) scas = false) (hp : poisonedLane s (regsOf srcs) = none) :
    vecWord d n srcs scas f s = .next (laneEff d n f s) := by
  have h1 : vecTrap s d n srcs = none := by
    simp only [vecTrap, rangeTrap, liveTrap, trapIf, List.any_cons, List.any_nil, Bool.or_false]
    have a : ((overRange s d n) || srcs.any (fun p => overRange s p.1 p.2)) = false := by
      simp only [overRange, Bool.or_eq_false_iff, List.any_eq_false, decide_eq_true_eq, decide_eq_false_iff_not, not_lt]
      exact ⟨hr (d, n) (by simp), fun p hp => hr p (by simp [hp])⟩
    have b : inLive s d = false := by simp [inLive, hl]
    simp [a, b, firstTrap]
  simp [vecWord, issueWord, h1, hh, readGuard, hp]

/-- A lane is in the list of a mask's lanes exactly if it is in the mask. -/
theorem mem_lanesOf (m : W) (l : Nat) : l ∈ lanesOf m ↔ inMask m l = true := by
  simp only [lanesOf, laneList, List.mem_filter, List.mem_range, inMask, and_iff_right_iff_imp]
  intro h
  by_contra hl
  simp [BitVec.getLsbD_of_ge m l (by omega)] at h

/-- The lanes of a mask are all different. -/
theorem nodup_lanesOf (m : W) : (lanesOf m).Nodup := List.nodup_range.filter _

/-- A lane's result put into a group's registers. -/
theorem putLane_reg (g : Group) (d n l : Nat) (o : LaneOut) (r k : Nat) (hl : l < 32) (hk : k < 32) :
    gReg (g.putLane d n l o) r k =
      if k = l ∧ r = d then lowWord o.val else if k = l ∧ n ≠ 1 ∧ r = d + 1 then highWord o.val else gReg g r k := by
  have e (a : Nat) : (regKey r k = regKey a l) = (k = l ∧ r = a) := by
    apply propext; unfold regKey; omega
  unfold gReg Group.putLane
  by_cases hn : n = 1
  · simp only [hn, if_true, mapGet_mapSet, e, ne_eq, not_true_eq_false, false_and, and_false, if_false]
  · simp only [hn, if_false, mapGet_mapSet, e, ne_eq, not_false_eq_true, true_and]
    by_cases h1 : k = l ∧ r = d
    · have : ¬(k = l ∧ r = d + 1) := by omega
      simp [h1]
    · simp [h1]

/-- What the results of a list of lanes leave in the registers. -/
theorem foldLanes_reg (d n : Nat) (f : Nat → LaneOut) (ls : List Nat) (h : ls.Nodup) (hb : ∀ l ∈ ls, l < 32) (g : Group)
    (r k : Nat) (hk : k < 32) :
    gReg (ls.foldl (fun g l => g.putLane d n l (f l)) g) r k =
      if k ∈ ls then (if r = d then lowWord (f k).val else if n ≠ 1 ∧ r = d + 1 then highWord (f k).val else gReg g r k)
      else gReg g r k := by
  induction ls generalizing g with
  | nil => simp
  | cons x xs ih =>
    obtain ⟨hx, hn⟩ := List.nodup_cons.mp h
    rw [List.foldl_cons, ih hn (fun l hl => hb l (by simp [hl])), putLane_reg g d n x (f x) r k (hb x (by simp)) hk]
    by_cases e : k = x
    · subst e
      simp only [hx, if_false, true_and, List.mem_cons, true_or, if_true]
    · simp [e]

/-- The random states that the results of a list of lanes leave. -/
theorem foldLanes_rng (d n : Nat) (f : Nat → LaneOut) (ls : List Nat) (h : ls.Nodup) (g : Group) (k : Nat) :
    mapGet 0 (ls.foldl (fun g l => g.putLane d n l (f l)) g).rng k =
      if k ∈ ls then ((f k).rng).getD (mapGet 0 g.rng k) else mapGet 0 g.rng k := by
  induction ls generalizing g with
  | nil => simp
  | cons x xs ih =>
    obtain ⟨hx, hn⟩ := List.nodup_cons.mp h
    rw [List.foldl_cons, ih hn]
    have e1 : mapGet 0 (g.putLane d n x (f x)).rng k = if k = x then ((f x).rng).getD (mapGet 0 g.rng k) else mapGet 0 g.rng k := by
      unfold Group.putLane
      cases (f x).rng <;> by_cases e : k = x <;> simp [mapGet_mapSet, e]
    rw [e1]
    by_cases e : k = x
    · subst e; simp [hx]
    · simp [e]

/-- The flags of a list are those before, or-ed with each of them. -/
theorem foldl_or (fs : List Flags) (a : Flags) : fs.foldl (fun x y => x ||| y) a = a ||| flAll fs := by
  unfold flAll
  induction fs generalizing a with
  | nil => simp
  | cons x xs ih => rw [List.foldl_cons, ih, List.foldl_cons, ih (0 ||| x)]; simp [BitVec.or_assoc]

/-- What the results of a list of lanes leave unchanged, and the flags. -/
theorem foldLanes_frame (d n : Nat) (f : Nat → LaneOut) (ls : List Nat) (g : Group) :
    let h := ls.foldl (fun g l => g.putLane d n l (f l)) g
    h.flags = g.flags ||| flAll (ls.map (fun l => (f l).flags)) ∧ (∀ k ∈ h.regPoison, k ∈ g.regPoison) ∧
      { h with regs := g.regs, regPoison := g.regPoison, flags := g.flags, rng := g.rng } = g := by
  induction ls generalizing g with
  | nil => simp [flAll]
  | cons x xs ih =>
    obtain ⟨h1, h2, h3⟩ := ih (g.putLane d n x (f x))
    simp only [List.foldl_cons, List.map_cons]
    refine ⟨?_, fun k hk => ?_, ?_⟩
    · rw [h1]
      show g.flags ||| (f x).flags ||| _ = g.flags ||| List.foldl _ 0 ((f x).flags :: _)
      rw [List.foldl_cons, foldl_or, show (0 : Flags) ||| (f x).flags = (f x).flags from BitVec.zero_or, BitVec.or_assoc]
    · have := h2 k hk
      unfold Group.putLane clearMarks at this
      by_cases hn : n = 1 <;> simp only [hn, if_true, if_false] at this <;> split at this <;>
        simp_all
    · exact congrArg (fun q : Group => { q with regs := g.regs, regPoison := g.regPoison, flags := g.flags, rng := g.rng }) h3

end Sys2Proof.Machine
end

