-- ==== Sys2Proof/Tests/Slice0.lean ====
section
/-! SUPPORT. Small checks: ill-formed terms, words written out from the encoding tables with their instructions, and for each
statement a state and operands that meet its hypotheses. The expected values come from the spec. -/

set_option Elab.async false

namespace Sys2Proof.Tests

open Sys2Proof Sys2Proof.Machine Sys2Proof.Claims

/-! The checks on operands: an ill-formed term for each check, which the check refuses (R12, R75 to R86, R99, R127 to R156). -/

theorem test_wf_vector : ∀ i ∈ ([.addI32 ⟨127, .reg 4, .reg 5⟩, .addI32 ⟨3, .reg 127, .reg 5⟩, .addI32 ⟨3, .reg 4, .reg 127⟩,
    .addI32 ⟨3, .reg 4, .sca 64⟩, .addI32 ⟨3, .lit 1, .lit 2⟩, .addI64 ⟨3, .reg 4, .reg 6⟩, .addI64 ⟨2, .reg 5, .reg 6⟩,
    .addI64 ⟨2, .reg 4, .reg 7⟩, .popcB32 ⟨127, .reg 4⟩, .popcB32 ⟨3, .reg 127⟩, .movB64 ⟨3, .reg 4⟩, .cvtF64F32 ⟨3, .reg 4⟩] : List Instr),
    i.wf = false := by decide

theorem test_wf_compare_convert : ∀ i ∈ ([.cmpEqI32 ⟨8, .reg 4, .reg 5⟩, .cmpEqI32 ⟨1, .reg 127, .reg 5⟩, .cmpEqI32 ⟨1, .reg 4, .reg 127⟩,
    .cmpEqI32 ⟨1, .lit 1, .lit 2⟩, .cmpEqI64 ⟨1, .reg 5, .reg 6⟩, .cvtF32I32 ⟨127, .reg 4, 1, true⟩, .cvtF32I32 ⟨3, .reg 127, 1, true⟩,
    .cvtF32I32 ⟨3, .reg 4, 7, true⟩, .froundF32 ⟨3, .reg 4, 1, true⟩, .cvtF32F64 ⟨3, .reg 5, 1, true⟩, .cvtF16x2F32 ⟨127, 4, 1, true⟩,
    .cvtF16x2F32 ⟨3, 127, 1, true⟩, .cvtF16x2F32 ⟨3, 4, 7, true⟩, .cvtI8x4I32 ⟨3, 4, 1, true⟩, .cvtF32F16 ⟨127, .reg 4, 0⟩,
    .cvtF32F16 ⟨3, .reg 127, 0⟩, .cvtF32F16 ⟨3, .reg 4, 2⟩, .cvtF32E4m3 ⟨3, .reg 4, 4⟩] : List Instr), i.wf = false := by decide

theorem test_wf_lane_scalar : ∀ i ∈ ([.bflyB32 ⟨127, .reg 4, .sca 5⟩, .bflyB32 ⟨3, .reg 127, .sca 5⟩, .bflyB32 ⟨3, .reg 4, .sca 64⟩,
    .bflyB32 ⟨3, .lit 1, .lit 2⟩, .bflyB64 ⟨3, .reg 4, .sca 5⟩, .mnz ⟨9, .reg 4⟩, .mnz ⟨1, .reg 127⟩, .mand ⟨9, 1, 2⟩, .mand ⟨1, 9, 2⟩,
    .mand ⟨1, 2, 9⟩, .mnot ⟨9, 1⟩, .mnot ⟨1, 9⟩, .mcount ⟨64, 1⟩, .mcount ⟨1, 9⟩, .mfrom ⟨9, .reg 1⟩, .mfrom ⟨1, .reg 64⟩,
    .sadd ⟨64, .reg 1, .reg 2⟩, .sadd ⟨1, .reg 64, .reg 2⟩, .sadd ⟨1, .reg 2, .reg 64⟩, .sadd ⟨1, .lit 1, .lit 2⟩, .smov ⟨64, .reg 1⟩,
    .smov ⟨1, .reg 64⟩] : List Instr), i.wf = false := by decide

theorem test_wf_memory : ∀ i ∈ ([.ldB32 ⟨127, ⟨5, .reg 4, 0⟩⟩, .ldB32 ⟨3, ⟨64, .reg 4, 0⟩⟩, .ldB32 ⟨3, ⟨5, .reg 127, 0⟩⟩,
    .ldB32 ⟨3, ⟨5, .reg 4, 4⟩⟩, .ldB64 ⟨3, ⟨5, .reg 4, 0⟩⟩, .ldB128 ⟨6, ⟨5, .reg 4, 0⟩⟩, .stB32 ⟨.reg 127, ⟨5, .reg 4, 0⟩⟩,
    .stB32 ⟨.lit 1, ⟨5, .lit 2, 0⟩⟩, .stB64 ⟨.lit 1, ⟨5, .reg 4, 0⟩⟩, .stB64 ⟨.reg 3, ⟨5, .reg 4, 0⟩⟩, .ldParamB32 ⟨127, 0, 0, 0⟩,
    .ldParamB32 ⟨3, 16, 0, 0⟩, .ldParamB32 ⟨3, 0, 0, 4⟩, .ldParamB64 ⟨3, 0, 0, 0⟩, .sldB64 ⟨64, 0, 0, 0⟩, .sldB64 ⟨1, 64, 0, 0⟩,
    .sldB64 ⟨1, 0, 0, 4⟩, .prefetch ⟨⟨64, .reg 4, 0⟩⟩, .atestLocal ⟨8, ⟨5, .reg 4, 0⟩⟩, .atestLocal ⟨1, ⟨64, .reg 4, 0⟩⟩,
    .atomAddI32 ⟨.reg 127, ⟨5, .reg 4, 0⟩⟩, .atomAddI32 ⟨.lit 1, ⟨5, .lit 2, 0⟩⟩, .atomAddI64 ⟨.reg 3, ⟨5, .reg 4, 0⟩⟩,
    .atomCasB32 ⟨3, ⟨5, .reg 4, 0⟩⟩, .atomCasB64 ⟨6, ⟨5, .reg 4, 0⟩⟩] : List Instr), i.wf = false := by decide

theorem test_wf_copy_matrix : ∀ i ∈ ([.cpG2s ⟨3, 4, 0, 0, false, true⟩, .cpG2s ⟨2, 5, 0, 0, false, true⟩, .cpG2s ⟨2, 4, 16, 0, false, true⟩,
    .cpG2s ⟨2, 4, 0, 3, false, true⟩, .cpG2s ⟨2, 4, 1, 0, false, false⟩, .cpG2p ⟨2, 4, 0, 0, true, true⟩, .cpClose 16, .pres 32 0, .pres 0 1,
    .pset 0 3 0, .pset 0 0 1, .prel 32, .mzero 4, .mmk 4 0 0 1, .mmk 0 32 0 1, .mmk 0 0 32 1, .mmk 0 0 0 0, .mmk 0 0 0 65, .mtab 0 0,
    .mtab 0 65, .mlut 0 0 0 0, .mlut 0 0 0 65] : List Instr), i.wf = false := by decide

theorem test_wf_matrix_queue : ∀ i ∈ ([.mdrain 0 4 0, .mdrain 0 8 8, .mdrainMx 0 0 3 2 1, .mdrainMx 0 0 3 4 0, .mdrainMx 0 0 4 4 1,
    .mdrainMx 0 2 3 4 1, .msave 4 0, .mload 0 64, .mstatBlock 0 0 0 127, .mstatBlock 2 0 0 1, .mstatTile 0 127, .msuggest 0 16 0,
    .mscaleImm 0 0 16, .mscaleReg 0 2 0, .qbind 0 0 0 8, .qbind 0 0 0 7, .qbind 0 0 33 7, .qbind 0 0 1 0, .qbind 0 1 0 0, .qpush 127 0,
    .qpop 127 0, .qtry 127 0 0, .qtry 1 0 8, .qlevel 64 0, .qunbind 16] : List Instr), i.wf = false := by decide

theorem test_wf_sync : ∀ i ∈ ([.barCore 16, .barQuad 16, .bexp 0 130, .arrive 0 64, .arriveRemote 0 64, .bwait 0 64, .wait 16 0 0 0,
    .watch 4 0 0 0 0, .watch 0 0 0 7 0, .watch 0 0 0 6 1, .cond 0 4 0 0, .cond 0 2 0 1, .cond 0 3 1 0, .waitv 0 0 0, .waitv 16 0 0,
    .waitu 0 0 1 0 0, .waitu 0 0 0 7 0, .waitu 0 0 0 6 1, .fence 0 1 0, .fence 1 0 0, .fence 1 1 6, .commit 128, .txAbort 256, .beatReg 64,
    .quiescePkg 64 0, .quiescePod 0 64] : List Instr), i.wf = false := by decide

theorem test_wf_branch_fabric_system : ∀ i ∈ ([.br 65536, .brz 64 0, .brnz 0 65536, .bra 9 0, .brn 9 0, .brv 9 0, .call 64 0, .callr 0 64,
    .ret 64, .collRed 127 2 0, .collRed 1 3 0, .collRed 1 2 64, .collBcast 1 3 0, .putWin 1 3 0, .getWin 1 3, .getWin 127 2, .winAdd 3 0,
    .winAdd 2 64, .winRead 127 0, .xshf 1 127 0, .mordAlloc 1 2, .mordAlloc 2 1, .mordSend 1 2 3, .mordSend 1 4 127, .mordStat 127,
    .mordFree 1, .histRead 127 0, .trap 65536, .sreg 0 127, .sreg 1 64, .swreg 0x15 127, .swreg 19 64, .brk 65536] : List Instr),
    i.wf = false := by decide

theorem test_wf_accepts : ∀ i ∈ ([.addI32 ⟨126, .reg 126, .sca 63⟩, .addI32 ⟨3, .lit 1, .reg 2⟩, .addI64 ⟨124, .reg 126, .lit 2⟩, .cmpEqI32 ⟨7, .reg 4, .reg 5⟩,
    .cvtI8x4I32 ⟨3, 125, 0, true⟩, .cvtF32E4m3 ⟨3, .reg 4, 3⟩, .mand ⟨8, 8, 8⟩, .stB32 ⟨.lit 1, ⟨63, .reg 4, 3⟩⟩, .ldB128 ⟨124, ⟨5, .reg 4, 0⟩⟩,
    .mmk 3 31 31 64, .qbind 15 1 32 7, .bexp 15 129, .waitu 3 63 62 6 0, .brv 8 65535, .swreg 0x15 126] : List Instr), i.wf = true := by decide

/-- R71, R86, R88: reserved op values, a field that must be zero, a pair's odd register and a missing literal are refused by name. -/
theorem test_decode_refuses :
    (decodeWords [0b00001111110000000000000000000000#32]).isOk = false ∧ (decodeWords [0b11100000000000000000000000000000#32]).isOk = false ∧
    decodeWords [0b10110010010000000000000000000001#32] = .error .illegalField ∧
    decodeWords [0b00000001100000011000010000001000#32] = .error .illegalField ∧
    decodeWords [0b00000000000000011000010011111110#32] = .error .missingLiteral ∧ decodeWords [] = .error .noWord := by decide +kernel

/-- R88: words of major 0, written bit by bit from the table of op values and the field tables, with their instructions. -/
noncomputable def words_integer_1 : List (List W × Instr) :=
  [([0b00000000000011000100100000011000#32], .addI32 ⟨24, .reg 72, .reg 12⟩),
   ([0b00000000010011000100100011111110#32, 0x89ABCDEF#32], .subI32 ⟨24, .reg 72, .lit 0x89ABCDEF#32⟩),
   ([0b00000000100011000100100000011001#32], .addSatI32 ⟨24, .reg 72, .sca 12⟩),
   ([0b00000000110011000100100000011000#32], .subSatI32 ⟨24, .reg 72, .reg 12⟩),
   ([0b00000001000011000100100011111110#32, 0x89ABCDEF#32], .addSatN32 ⟨24, .reg 72, .lit 0x89ABCDEF#32⟩),
   ([0b00000001010011000100100000011001#32], .subSatN32 ⟨24, .reg 72, .sca 12⟩),
   ([0b00000001100011000100100000011000#32], .addI64 ⟨24, .reg 72, .reg 12⟩),
   ([0b00000001110011000100100011111110#32, 0x89ABCDEF#32], .subI64 ⟨24, .reg 72, .lit 0x89ABCDEF#32⟩),
   ([0b00000010000011000100100000011001#32], .mulLoI32 ⟨24, .reg 72, .sca 12⟩),
   ([0b00000010010011000100100000011000#32], .mulHiI32 ⟨24, .reg 72, .reg 12⟩),
   ([0b00000010100011000100100011111110#32, 0x89ABCDEF#32], .mulHiN32 ⟨24, .reg 72, .lit 0x89ABCDEF#32⟩),
   ([0b00000010110011000100100000011001#32], .mulWideI32 ⟨24, .reg 72, .sca 12⟩),
   ([0b00000011000011000100100000011000#32], .mulWideN32 ⟨24, .reg 72, .reg 12⟩),
   ([0b00000011010011000100100011111110#32, 0x89ABCDEF#32], .minI32 ⟨24, .reg 72, .lit 0x89ABCDEF#32⟩),
   ([0b00000011100011000100100000011001#32], .maxI32 ⟨24, .reg 72, .sca 12⟩),
   ([0b00000011110011000100100000011000#32], .minN32 ⟨24, .reg 72, .reg 12⟩),
   ([0b00000100000011000100100011111110#32, 0x89ABCDEF#32], .maxN32 ⟨24, .reg 72, .lit 0x89ABCDEF#32⟩),
   ([0b00000100010011000100100000011001#32], .absdiffN32 ⟨24, .reg 72, .sca 12⟩),
   ([0b00000100100011000100100000011000#32], .avgN32 ⟨24, .reg 72, .reg 12⟩),
   ([0b00000100110011000100100011111110#32, 0x89ABCDEF#32], .andB32 ⟨24, .reg 72, .lit 0x89ABCDEF#32⟩),
   ([0b00000101000011000100100000011001#32], .orB32 ⟨24, .reg 72, .sca 12⟩),
   ([0b00000101010011000100100000011000#32], .xorB32 ⟨24, .reg 72, .reg 12⟩)]

theorem test_words_integer_1 : ∀ p ∈ words_integer_1, decodeWords p.1 = .ok (p.2, []) := by decide +kernel

/-- R88: words of major 0, written bit by bit from the table of op values and the field tables, with their instructions. -/
noncomputable def words_integer_2 : List (List W × Instr) :=
  [([0b00000101100011000100100011111110#32, 0x89ABCDEF#32], .andnB32 ⟨24, .reg 72, .lit 0x89ABCDEF#32⟩),
   ([0b00000101110011000100100000011001#32], .shlB32 ⟨24, .reg 72, .sca 12⟩),
   ([0b00000110000011000100100000011000#32], .shrB32 ⟨24, .reg 72, .reg 12⟩),
   ([0b00000110010011000100100011111110#32, 0x89ABCDEF#32], .sraI32 ⟨24, .reg 72, .lit 0x89ABCDEF#32⟩),
   ([0b00000110100011000100100000011001#32], .rotlB32 ⟨24, .reg 72, .sca 12⟩),
   ([0b00000110110011000100100000011000#32], .shlB64 ⟨24, .reg 72, .reg 12⟩),
   ([0b00000111000011000100100011111110#32, 0x89ABCDEF#32], .shrB64 ⟨24, .reg 72, .lit 0x89ABCDEF#32⟩),
   ([0b00000111010011000100100000000000#32], .popcB32 ⟨24, .reg 72⟩),
   ([0b00000111100011000100100000000000#32], .clzB32 ⟨24, .reg 72⟩),
   ([0b00000111110011000100100000000000#32], .ctzB32 ⟨24, .reg 72⟩),
   ([0b00001000000011000100100000000000#32], .brevB32 ⟨24, .reg 72⟩),
   ([0b00001000010011000100100000011000#32], .bfeN32 ⟨24, .reg 72, .reg 12⟩),
   ([0b00001000100011000100100011111110#32, 0x89ABCDEF#32], .bfeI32 ⟨24, .reg 72, .lit 0x89ABCDEF#32⟩),
   ([0b00001000110000101100100000011001#32], .cmpEqI32 ⟨5, .reg 72, .sca 12⟩),
   ([0b00001001000000101100100000011000#32], .cmpNeI32 ⟨5, .reg 72, .reg 12⟩),
   ([0b00001001010000101100100011111110#32, 0x89ABCDEF#32], .cmpLtI32 ⟨5, .reg 72, .lit 0x89ABCDEF#32⟩),
   ([0b00001001100000101100100000011001#32], .cmpLeI32 ⟨5, .reg 72, .sca 12⟩),
   ([0b00001001110000101100100000011000#32], .cmpLtN32 ⟨5, .reg 72, .reg 12⟩),
   ([0b00001010000000101100100011111110#32, 0x89ABCDEF#32], .cmpLeN32 ⟨5, .reg 72, .lit 0x89ABCDEF#32⟩),
   ([0b00001010010000101100100000011001#32], .cmpEqI64 ⟨5, .reg 72, .sca 12⟩),
   ([0b00001010100000101100100000011000#32], .cmpLtI64 ⟨5, .reg 72, .reg 12⟩),
   ([0b00001010110000101100100011111110#32, 0x89ABCDEF#32], .cmpLtN64 ⟨5, .reg 72, .lit 0x89ABCDEF#32⟩)]

theorem test_words_integer_2 : ∀ p ∈ words_integer_2, decodeWords p.1 = .ok (p.2, []) := by decide +kernel

/-- R88: words of major 1, written bit by bit from the table of op values and the field tables, with their instructions. -/
noncomputable def words_floating_1 : List (List W × Instr) :=
  [([0b00010000000011000100100000011001#32], .faddF32 ⟨24, .reg 72, .sca 12⟩),
   ([0b00010000010011000100100000011000#32], .fsubF32 ⟨24, .reg 72, .reg 12⟩),
   ([0b00010000100011000100100011111110#32, 0x89ABCDEF#32], .fmulF32 ⟨24, .reg 72, .lit 0x89ABCDEF#32⟩),
   ([0b00010000110011000100100000011001#32], .fminF32 ⟨24, .reg 72, .sca 12⟩),
   ([0b00010001000011000100100000011000#32], .fmaxF32 ⟨24, .reg 72, .reg 12⟩),
   ([0b00010001010011000100100011111110#32, 0x89ABCDEF#32], .fminnF32 ⟨24, .reg 72, .lit 0x89ABCDEF#32⟩),
   ([0b00010001100011000100100000011001#32], .fmaxnF32 ⟨24, .reg 72, .sca 12⟩),
   ([0b00010001110011000100100000000000#32], .fabsF32 ⟨24, .reg 72⟩),
   ([0b00010010000011000100100000000000#32], .fnegF32 ⟨24, .reg 72⟩),
   ([0b00010010010011000100100000000000#32], .fclassF32 ⟨24, .reg 72⟩),
   ([0b00010010100011000100100000011000#32], .fscaleF32 ⟨24, .reg 72, .reg 12⟩),
   ([0b00010010110000101100100011111110#32, 0x89ABCDEF#32], .fcmpEqF32 ⟨5, .reg 72, .lit 0x89ABCDEF#32⟩),
   ([0b00010011000000101100100000011001#32], .fcmpLtF32 ⟨5, .reg 72, .sca 12⟩),
   ([0b00010011010000101100100000011000#32], .fcmpLeF32 ⟨5, .reg 72, .reg 12⟩),
   ([0b00010011100000101100100011111110#32, 0x89ABCDEF#32], .fcmpUnF32 ⟨5, .reg 72, .lit 0x89ABCDEF#32⟩),
   ([0b00010011110011000100100000011001#32], .faddF16x2 ⟨24, .reg 72, .sca 12⟩),
   ([0b00010100000011000100100000011000#32], .fsubF16x2 ⟨24, .reg 72, .reg 12⟩),
   ([0b00010100010011000100100011111110#32, 0x89ABCDEF#32], .fmulF16x2 ⟨24, .reg 72, .lit 0x89ABCDEF#32⟩),
   ([0b00010100100011000100100000011001#32], .faddBf16x2 ⟨24, .reg 72, .sca 12⟩),
   ([0b00010100110011000100100000011000#32], .fsubBf16x2 ⟨24, .reg 72, .reg 12⟩),
   ([0b00010101000011000100100011111110#32, 0x89ABCDEF#32], .fmulBf16x2 ⟨24, .reg 72, .lit 0x89ABCDEF#32⟩),
   ([0b00010101010011000100100000011001#32], .fmaxBf16x2 ⟨24, .reg 72, .sca 12⟩)]

theorem test_words_floating_1 : ∀ p ∈ words_floating_1, decodeWords p.1 = .ok (p.2, []) := by decide +kernel

/-- R88: words of major 1, written bit by bit from the table of op values and the field tables, with their instructions. -/
noncomputable def words_floating_2 : List (List W × Instr) :=
  [([0b00010101100011000100100000011000#32], .fminBf16x2 ⟨24, .reg 72, .reg 12⟩),
   ([0b00010101110011000100100011111110#32, 0x89ABCDEF#32], .faddF64 ⟨24, .reg 72, .lit 0x89ABCDEF#32⟩),
   ([0b00010110000011000100100000011001#32], .fsubF64 ⟨24, .reg 72, .sca 12⟩),
   ([0b00010110010011000100100000011000#32], .fmulF64 ⟨24, .reg 72, .reg 12⟩),
   ([0b00010110100011000100100011111110#32, 0x89ABCDEF#32], .fminF64 ⟨24, .reg 72, .lit 0x89ABCDEF#32⟩),
   ([0b00010110110011000100100000011001#32], .fmaxF64 ⟨24, .reg 72, .sca 12⟩),
   ([0b00010111000000101100100000011000#32], .fcmpLtF64 ⟨5, .reg 72, .reg 12⟩),
   ([0b00010111010000101100100011111110#32, 0x89ABCDEF#32], .fcmpEqF64 ⟨5, .reg 72, .lit 0x89ABCDEF#32⟩)]

theorem test_words_floating_2 : ∀ p ∈ words_floating_2, decodeWords p.1 = .ok (p.2, []) := by decide +kernel

/-- R88: words of major 2, written bit by bit from the table of op values and the field tables, with their instructions. -/
noncomputable def words_accumulating : List (List W × Instr) :=
  [([0b00100000000011000100100000011001#32], .fmaF32 ⟨24, .reg 72, .sca 12⟩),
   ([0b00100000010011000100100000011000#32], .fnmaF32 ⟨24, .reg 72, .reg 12⟩),
   ([0b00100000100011000100100011111110#32, 0x89ABCDEF#32], .fmaF16x2 ⟨24, .reg 72, .lit 0x89ABCDEF#32⟩),
   ([0b00100000110011000100100000011001#32], .fmaBf16x2 ⟨24, .reg 72, .sca 12⟩),
   ([0b00100001000011000100100000011000#32], .fmaF64 ⟨24, .reg 72, .reg 12⟩),
   ([0b00100001010011000100100011111110#32, 0x89ABCDEF#32], .fdot2F32Bf16 ⟨24, .reg 72, .lit 0x89ABCDEF#32⟩),
   ([0b00100001100011000100100000011001#32], .fdot2F32F16 ⟨24, .reg 72, .sca 12⟩),
   ([0b00100001110011000100100000011000#32], .madLoI32 ⟨24, .reg 72, .reg 12⟩),
   ([0b00100010000011000100100011111110#32, 0x89ABCDEF#32], .madHiN32 ⟨24, .reg 72, .lit 0x89ABCDEF#32⟩),
   ([0b00100010010011000100100000011001#32], .madWideN32 ⟨24, .reg 72, .sca 12⟩),
   ([0b00100010100011000100100000011000#32], .bfiB32 ⟨24, .reg 72, .reg 12⟩),
   ([0b00100010110011000100100011111110#32, 0x89ABCDEF#32], .bdot4I32I8 ⟨24, .reg 72, .lit 0x89ABCDEF#32⟩),
   ([0b00100011000011000100100000011001#32], .bdot4I32N8 ⟨24, .reg 72, .sca 12⟩)]

theorem test_words_accumulating : ∀ p ∈ words_accumulating, decodeWords p.1 = .ok (p.2, []) := by decide +kernel

/-- R88: words of major 3, written bit by bit from the table of op values and the field tables, with their instructions. -/
noncomputable def words_conversion : List (List W × Instr) :=
  [([0b00110000000011000100100000000000#32], .movB32 ⟨24, .reg 72⟩),
   ([0b00110000010011000100100000000000#32], .movB64 ⟨24, .reg 72⟩),
   ([0b00110000100011000100100010110000#32], .cvtF32I32 ⟨24, .reg 72, 5, true⟩),
   ([0b00110000110011000100100010110000#32], .cvtF32N32 ⟨24, .reg 72, 5, true⟩),
   ([0b00110001000011000100100010110000#32], .cvtI32F32 ⟨24, .reg 72, 5, true⟩),
   ([0b00110001010011000100100010110000#32], .cvtN32F32 ⟨24, .reg 72, 5, true⟩),
   ([0b00110001100011000100100010100000#32], .froundF32 ⟨24, .reg 72, 5, false⟩),
   ([0b00110001110011000100100110110000#32], .cvtF16x2F32 ⟨24, 73, 5, true⟩),
   ([0b00110010000011000100100110110000#32], .cvtBf16x2F32 ⟨24, 73, 5, true⟩),
   ([0b00110010010011000100100000000010#32], .cvtF32F16 ⟨24, .reg 72, 1⟩),
   ([0b00110010100011000100100000000010#32], .cvtF32Bf16 ⟨24, .reg 72, 1⟩),
   ([0b00110010110011000100100110110000#32], .cvtE4m3x4F32 ⟨24, 73, 5, true⟩),
   ([0b00110011000011000100100110110000#32], .cvtE5m2x4F32 ⟨24, 73, 5, true⟩),
   ([0b00110011010011000100100000000110#32], .cvtF32E4m3 ⟨24, .reg 72, 3⟩),
   ([0b00110011100011000100100000000110#32], .cvtF32E5m2 ⟨24, .reg 72, 3⟩),
   ([0b00110011110011000100100000000000#32], .cvtF64F32 ⟨24, .reg 72⟩),
   ([0b00110100000011000100100010110000#32], .cvtF32F64 ⟨24, .reg 72, 5, true⟩),
   ([0b00110100010011000100100100010000#32], .cvtI8x4I32 ⟨24, 73, 0, true⟩),
   ([0b00110100100011000100100000000110#32], .cvtI32I8 ⟨24, .reg 72, 3⟩)]

theorem test_words_conversion : ∀ p ∈ words_conversion, decodeWords p.1 = .ok (p.2, []) := by decide +kernel

/-- R88: words of major 4, written bit by bit from the table of op values and the field tables, with their instructions. -/
noncomputable def words_lane_1 : List (List W × Instr) :=
  [([0b01000000000011000100100011111110#32, 0x89ABCDEF#32], .lpick ⟨24, .reg 72, .lit 0x89ABCDEF#32⟩),
   ([0b01000000010011000100100011111110#32, 0x89ABCDEF#32], .bflyB32 ⟨24, .reg 72, .lit 0x89ABCDEF#32⟩),
   ([0b01000000100011000100100000011001#32], .bflyB64 ⟨24, .reg 72, .sca 12⟩),
   ([0b01000000110011000100100000011001#32], .rotLane ⟨24, .reg 72, .sca 12⟩),
   ([0b01000001000011000100100011111110#32, 0x89ABCDEF#32], .bcast ⟨24, .reg 72, .lit 0x89ABCDEF#32⟩),
   ([0b01000001010011000100100000000000#32], .redAddI32 ⟨24, .reg 72⟩),
   ([0b01000001100011000100100000000000#32], .redAddF32 ⟨24, .reg 72⟩),
   ([0b01000001110011000100100000000000#32], .redMinI32 ⟨24, .reg 72⟩),
   ([0b01000010000011000100100000000000#32], .redMaxI32 ⟨24, .reg 72⟩),
   ([0b01000010010011000100100000000000#32], .redMinF32 ⟨24, .reg 72⟩),
   ([0b01000010100011000100100000000000#32], .redMaxF32 ⟨24, .reg 72⟩),
   ([0b01000010110011000100100000000000#32], .redxMaxF32 ⟨24, .reg 72⟩),
   ([0b01000011000011000100100000000000#32], .redxMinF32 ⟨24, .reg 72⟩),
   ([0b01000011010011000100100000000000#32], .scanAddI32 ⟨24, .reg 72⟩),
   ([0b01000011100011000100100000000000#32], .scanAddF32 ⟨24, .reg 72⟩),
   ([0b01000011110001000100100000000000#32], .mnz ⟨8, .reg 72⟩),
   ([0b01000100000000101000100000000110#32], .mand ⟨5, 8, 3⟩),
   ([0b01000100010000101000100000000110#32], .mor ⟨5, 8, 3⟩),
   ([0b01000100100000101000100000000110#32], .mxor ⟨5, 8, 3⟩),
   ([0b01000100110000101000100000000110#32], .mandn ⟨5, 8, 3⟩),
   ([0b01000101000001000000001100000000#32], .mnot ⟨8, 3⟩),
   ([0b01000101010001000000001100000000#32], .mmov ⟨8, 3⟩)]

theorem test_words_lane_1 : ∀ p ∈ words_lane_1, decodeWords p.1 = .ok (p.2, []) := by decide +kernel

/-- R88: words of major 4, written bit by bit from the table of op values and the field tables, with their instructions. -/
noncomputable def words_lane_2 : List (List W × Instr) :=
  [([0b01000101100100001000100000000000#32], .mcount ⟨33, 8⟩),
   ([0b01000101110100001000100000000000#32], .mfirst ⟨33, 8⟩),
   ([0b01000110000000101010000100000000#32], .mfrom ⟨5, .reg 33⟩)]

theorem test_words_lane_2 : ∀ p ∈ words_lane_2, decodeWords p.1 = .ok (p.2, []) := by decide +kernel

/-- R88: words of major 5, written bit by bit from the table of op values and the field tables, with their instructions. -/
noncomputable def words_scalar : List (List W × Instr) :=
  [([0b01010000000100001001011000011000#32], .sadd ⟨33, .reg 22, .reg 12⟩),
   ([0b01010000010100001001011000011000#32], .ssub ⟨33, .reg 22, .reg 12⟩),
   ([0b01010000100100001111111100011000#32, 0x89ABCDEF#32], .smul ⟨33, .lit 0x89ABCDEF#32, .reg 12⟩),
   ([0b01010000110100001001011000011000#32], .smulhiN64 ⟨33, .reg 22, .reg 12⟩),
   ([0b01010001000100001001011000011000#32], .sand ⟨33, .reg 22, .reg 12⟩),
   ([0b01010001010100001111111100011000#32, 0x89ABCDEF#32], .sor ⟨33, .lit 0x89ABCDEF#32, .reg 12⟩),
   ([0b01010001100100001001011000011000#32], .sxor ⟨33, .reg 22, .reg 12⟩),
   ([0b01010001110100001001011000011000#32], .sshl ⟨33, .reg 22, .reg 12⟩),
   ([0b01010010000100001111111100011000#32, 0x89ABCDEF#32], .sshr ⟨33, .lit 0x89ABCDEF#32, .reg 12⟩),
   ([0b01010010010100001001011000011000#32], .ssra ⟨33, .reg 22, .reg 12⟩),
   ([0b01010010100100001001011000011000#32], .sminI64 ⟨33, .reg 22, .reg 12⟩),
   ([0b01010010110100001111111100011000#32, 0x89ABCDEF#32], .smaxI64 ⟨33, .lit 0x89ABCDEF#32, .reg 12⟩),
   ([0b01010011000100001001011000011000#32], .sminN64 ⟨33, .reg 22, .reg 12⟩),
   ([0b01010011010100001001011000011000#32], .smaxN64 ⟨33, .reg 22, .reg 12⟩),
   ([0b01010011100100001001011000000000#32], .smov ⟨33, .reg 22⟩),
   ([0b01010011110100001001011000011000#32], .ssetEq ⟨33, .reg 22, .reg 12⟩),
   ([0b01010100000100001001011000011000#32], .ssetLtI64 ⟨33, .reg 22, .reg 12⟩),
   ([0b01010100010100001111111100011000#32, 0x89ABCDEF#32], .ssetLtN64 ⟨33, .lit 0x89ABCDEF#32, .reg 12⟩),
   ([0b01010100100100001001011000011000#32], .sfromLane ⟨33, .reg 22, .reg 12⟩),
   ([0b01010100110100001001011000011000#32], .shi ⟨33, .reg 22, .reg 12⟩)]

theorem test_words_scalar : ∀ p ∈ words_scalar, decodeWords p.1 = .ok (p.2, []) := by decide +kernel

/-- R88: words of major 6, written bit by bit from the table of op values and the field tables, with their instructions. -/
noncomputable def words_memory_1 : List (List W × Instr) :=
  [([0b01100000000011000100001100100010#32], .ldB8N ⟨24, ⟨33, .reg 72, 2⟩⟩),
   ([0b01100000010011000100001100100010#32], .ldB8I ⟨24, ⟨33, .reg 72, 2⟩⟩),
   ([0b01100000100011000100001100100010#32], .ldB16N ⟨24, ⟨33, .reg 72, 2⟩⟩),
   ([0b01100000110011000100001100100010#32], .ldB16I ⟨24, ⟨33, .reg 72, 2⟩⟩),
   ([0b01100001000011000100001100100010#32], .ldB32 ⟨24, ⟨33, .reg 72, 2⟩⟩),
   ([0b01100001010011000100001100100010#32], .ldB64 ⟨24, ⟨33, .reg 72, 2⟩⟩),
   ([0b01100001100011000100001100100010#32], .ldB128 ⟨24, ⟨33, .reg 72, 2⟩⟩),
   ([0b01100001110011000100001111111111#32, 0x89ABCDEF#32], .stB8 ⟨.reg 24, ⟨33, .lit 0x89ABCDEF#32, 3⟩⟩),
   ([0b01100010000011000100001111111111#32, 0x89ABCDEF#32], .stB16 ⟨.reg 24, ⟨33, .lit 0x89ABCDEF#32, 3⟩⟩),
   ([0b01100010010011000100001111111111#32, 0x89ABCDEF#32], .stB32 ⟨.reg 24, ⟨33, .lit 0x89ABCDEF#32, 3⟩⟩),
   ([0b01100010100011000100001111111111#32, 0x89ABCDEF#32], .stB64 ⟨.reg 24, ⟨33, .lit 0x89ABCDEF#32, 3⟩⟩),
   ([0b01100010110011000100001111111111#32, 0x89ABCDEF#32], .stB128 ⟨.reg 24, ⟨33, .lit 0x89ABCDEF#32, 3⟩⟩),
   ([0b01100011000011000001101111111110#32, 0x89ABCDEF#32], .ldParamB32 ⟨24, 13, 0x89ABCDEF#32, 2⟩),
   ([0b01100011010011000001101111111110#32, 0x89ABCDEF#32], .ldParamB64 ⟨24, 13, 0x89ABCDEF#32, 2⟩),
   ([0b01100011100101100100001111111110#32, 0x89ABCDEF#32], .sldB64 ⟨44, 33, 0x89ABCDEF#32, 2⟩),
   ([0b01100011110101100100001111111110#32, 0x89ABCDEF#32], .sstB64 ⟨44, 33, 0x89ABCDEF#32, 2⟩),
   ([0b01100100000000000100001100100010#32], .prefetch ⟨⟨33, .reg 72, 2⟩⟩),
   ([0b01100100010011000100001100100010#32], .acvtGenLocal ⟨24, ⟨33, .reg 72, 2⟩⟩),
   ([0b01100100100011000100001100100010#32], .acvtGenStore ⟨24, ⟨33, .reg 72, 2⟩⟩),
   ([0b01100100110011000100001100100010#32], .acvtGenQuad ⟨24, ⟨33, .reg 72, 2⟩⟩),
   ([0b01100101000011000100001100100010#32], .acvtLocal ⟨24, ⟨33, .reg 72, 2⟩⟩),
   ([0b01100101010011000100001100100010#32], .acvtStore ⟨24, ⟨33, .reg 72, 2⟩⟩)]

theorem test_words_memory_1 : ∀ p ∈ words_memory_1, decodeWords p.1 = .ok (p.2, []) := by decide +kernel

/-- R88: words of major 6, written bit by bit from the table of op values and the field tables, with their instructions. -/
noncomputable def words_memory_2 : List (List W × Instr) :=
  [([0b01100101100011000100001100100010#32], .acvtQuad ⟨24, ⟨33, .reg 72, 2⟩⟩),
   ([0b01100101110000101100001100100010#32], .atestLocal ⟨5, ⟨33, .reg 72, 2⟩⟩),
   ([0b01100110000000101100001100100010#32], .atestStore ⟨5, ⟨33, .reg 72, 2⟩⟩),
   ([0b01100110010000101100001100100010#32], .atestQuad ⟨5, ⟨33, .reg 72, 2⟩⟩),
   ([0b01100110100011000100001100100010#32], .atomAddI32 ⟨.reg 24, ⟨33, .reg 72, 2⟩⟩),
   ([0b01100110110011000100001100100010#32], .atomAddI64 ⟨.reg 24, ⟨33, .reg 72, 2⟩⟩),
   ([0b01100111001111111100001100100010#32, 0x89ABCDEF#32], .atomFaddF32 ⟨.lit 0x89ABCDEF#32, ⟨33, .reg 72, 2⟩⟩),
   ([0b01100111010011000100001100100010#32], .atomFaddBf16x2 ⟨.reg 24, ⟨33, .reg 72, 2⟩⟩),
   ([0b01100111100011000100001100100010#32], .atomMinI32 ⟨.reg 24, ⟨33, .reg 72, 2⟩⟩),
   ([0b01100111111111111100001100100010#32, 0x89ABCDEF#32], .atomMaxI32 ⟨.lit 0x89ABCDEF#32, ⟨33, .reg 72, 2⟩⟩),
   ([0b01101000000011000100001100100010#32], .atomMinN32 ⟨.reg 24, ⟨33, .reg 72, 2⟩⟩),
   ([0b01101000010011000100001100100010#32], .atomMaxN32 ⟨.reg 24, ⟨33, .reg 72, 2⟩⟩),
   ([0b01101000101111111100001100100010#32, 0x89ABCDEF#32], .atomAndB32 ⟨.lit 0x89ABCDEF#32, ⟨33, .reg 72, 2⟩⟩),
   ([0b01101000110011000100001100100010#32], .atomOrB32 ⟨.reg 24, ⟨33, .reg 72, 2⟩⟩),
   ([0b01101001000011000100001100100010#32], .atomXorB32 ⟨.reg 24, ⟨33, .reg 72, 2⟩⟩),
   ([0b01101001011111111100001100100010#32, 0x89ABCDEF#32], .atomXchgB32 ⟨.lit 0x89ABCDEF#32, ⟨33, .reg 72, 2⟩⟩),
   ([0b01101001100011000100001100100010#32], .atomXchgB64 ⟨.reg 24, ⟨33, .reg 72, 2⟩⟩),
   ([0b01101001110011000100001100100010#32], .atomCasB32 ⟨24, ⟨33, .reg 72, 2⟩⟩),
   ([0b01101010000011000100001100100010#32], .atomCasB64 ⟨24, ⟨33, .reg 72, 2⟩⟩)]

theorem test_words_memory_2 : ∀ p ∈ words_memory_2, decodeWords p.1 = .ok (p.2, []) := by decide +kernel

/-- R88: words of major 7, written bit by bit from the table of op values and the field tables, with their instructions. -/
noncomputable def words_copy : List (List W × Instr) :=
  [([0b01110000000011000100100011011011#32], .cpG2s ⟨24, 72, 13, 2, true, true⟩),
   ([0b01110000010011000100100011011011#32], .cpS2g ⟨24, 72, 13, 2, true, true⟩),
   ([0b01110000100011000100100011011011#32], .cpS2s ⟨24, 72, 13, 2, true, true⟩),
   ([0b01110000110011000100100011011001#32], .cpG2p ⟨24, 72, 13, 2, false, true⟩),
   ([0b01110001000011000100100011011001#32], .cpS2p ⟨24, 72, 13, 2, false, true⟩),
   ([0b01110001010011000100100011011001#32], .cpMcast ⟨24, 72, 13, 2, false, true⟩),
   ([0b01110001100011000100100011011011#32], .cpPut ⟨24, 72, 13, 2, true, true⟩),
   ([0b01110001110011000100100011011011#32], .cpFill ⟨24, 72, 13, 2, true, true⟩),
   ([0b01110010000000000000000011010001#32], .cpClose 13)]

theorem test_words_copy : ∀ p ∈ words_copy, decodeWords p.1 = .ok (p.2, []) := by decide +kernel

/-- R88: words of major 8, written bit by bit from the table of op values and the field tables, with their instructions. -/
noncomputable def words_matrix : List (List W × Instr) :=
  [([0b10000000000010101000000000010110#32], .pres 21 22),
   ([0b10000000010010101000000010010110#32], .pset 21 2 22),
   ([0b10000000100010101000000000000000#32], .prel 21),
   ([0b10000000111000000000000000000000#32], .mzero 2),
   ([0b10000001001010001111100000100001#32], .mmk 2 17 30 33),
   ([0b10000001010000000111100000100001#32], .mtab 30 33),
   ([0b10000001101010001111100000100001#32], .mlut 2 17 30 33),
   ([0b10000001111000000000001001000101#32], .mdrain 2 72 5),
   ([0b10000010001000001010011001100010#32], .mdrainMx 2 1 9 76 2),
   ([0b10000010011000000000000000100001#32], .msave 2 33),
   ([0b10000010101000000000000000100001#32], .mload 2 33),
   ([0b10000010110110101100110100110100#32], .mstatBlock 1 21 19 77),
   ([0b10000010111000000000001100110100#32], .mstatTile 2 77),
   ([0b10000011001000000000001001100001#32], .msuggest 2 9 33),
   ([0b10000011011000000000000100001101#32], .mscaleImm 2 1 13),
   ([0b10000011011000000000001100100001#32], .mscaleReg 2 1 33)]

theorem test_words_matrix : ∀ p ∈ words_matrix, decodeWords p.1 = .ok (p.2, []) := by decide +kernel

/-- R88: words of major 9, written bit by bit from the table of op values and the field tables, with their instructions. -/
noncomputable def words_queue : List (List W × Instr) :=
  [([0b10010000000000000101110101010111#32], .qbind 11 1 21 7),
   ([0b10010000011001101101100000000000#32], .qpush 77 11),
   ([0b10010000101001101101100000000000#32], .qpop 77 11),
   ([0b10010000111001101101100000000101#32], .qtry 77 11 5),
   ([0b10010001000100001101100000000000#32], .qlevel 33 11),
   ([0b10010001010000000101100000000000#32], .qunbind 11)]

theorem test_words_queue : ∀ p ∈ words_queue, decodeWords p.1 = .ok (p.2, []) := by decide +kernel

/-- R88: words of major A, written bit by bit from the table of op values and the field tables, with their instructions. -/
noncomputable def words_sync_1 : List (List W × Instr) :=
  [([0b10100000001001000000000000000000#32], .barCore 9),
   ([0b10100000011001000000000000000000#32], .barQuad 9),
   ([0b10100000100000000000000000000000#32], .barDie),
   ([0b10100000110000000000000000000000#32], .barPkg),
   ([0b10100001000000000000000000000000#32], .barPod),
   ([0b10100001011001100000010000000000#32], .bexp 9 129),
   ([0b10100001101001100001000000000000#32], .arrive 9 33),
   ([0b10100001111001100001000000000000#32], .arriveRemote 9 33),
   ([0b10100010001001100001000000000000#32], .bwait 9 33),
   ([0b10100010011001011011000011000000#32], .wait 9 6 12 3),
   ([0b10100010101010000101011010110000#32], .watch 2 33 22 5 1),
   ([0b10100010111000111011000010000000#32], .cond 2 1 13 33),
   ([0b10100011000110110000100000000000#32], .waitv 6 1 33),
   ([0b10100011011010000101011011000000#32], .waitu 2 33 22 6 0),
   ([0b10100011100000110000101010000000#32], .fence 3 2 5),
   ([0b10100011111001101000000000000000#32], .commit 77),
   ([0b10100100000000000000000000000000#32], .txBegin),
   ([0b10100100010000000000000000000000#32], .txEnd),
   ([0b10100100100000000000000010100110#32], .txAbort 166),
   ([0b10100100110000000000000000000000#32], .beat),
   ([0b10100100111000011000000000000000#32], .beatReg 33),
   ([0b10100101001000010101100000000000#32], .quiescePkg 33 22)]

theorem test_words_sync_1 : ∀ p ∈ words_sync_1, decodeWords p.1 = .ok (p.2, []) := by decide +kernel

/-- R88: words of major A, written bit by bit from the table of op values and the field tables, with their instructions. -/
noncomputable def words_sync_2 : List (List W × Instr) :=
  [([0b10100101011000010101100000000000#32], .quiescePod 33 22)]

theorem test_words_sync_2 : ∀ p ∈ words_sync_2, decodeWords p.1 = .ok (p.2, []) := by decide +kernel

/-- R88: words of major B, written bit by bit from the table of op values and the field tables, with their instructions. -/
noncomputable def words_branch : List (List W × Instr) :=
  [([0b10110000000000001111111111110011#32], .br 0xfff3),
   ([0b10110000011000011111111111110011#32], .brz 33 0xfff3),
   ([0b10110000101000011111111111110011#32], .brnz 33 0xfff3),
   ([0b10110000110010001111111111110011#32], .bra 8 0xfff3),
   ([0b10110001000001011111111111110011#32], .brn 5 0xfff3),
   ([0b10110001010001101111111111110011#32], .brv 6 0xfff3),
   ([0b10110001101000011111111111110011#32], .call 33 0xfff3),
   ([0b10110001111000010000000000010110#32], .callr 33 22),
   ([0b10110010001000010000000000000000#32], .ret 33),
   ([0b10110010010000000000000000000000#32], .join),
   ([0b10110010100000000000000000000000#32], .exit),
   ([0b10110010110000000000000000000000#32], .yield)]

theorem test_words_branch : ∀ p ∈ words_branch, decodeWords p.1 = .ok (p.2, []) := by decide +kernel

/-- R88: words of major C, written bit by bit from the table of op values and the field tables, with their instructions. -/
noncomputable def words_fabric : List (List W × Instr) :=
  [([0b11000000000011000100100001000011#32], .collRed 24 72 33),
   ([0b11000000010011000100100001000011#32], .collBcast 24 72 33),
   ([0b11000000100011000100100001000011#32], .putWin 24 72 33),
   ([0b11000000110011000100100000000000#32], .getWin 24 72),
   ([0b11000001000000000100100001000011#32], .winAdd 72 33),
   ([0b11000001010011000000000001000011#32], .winRead 24 33),
   ([0b11000001100011000100100001000011#32], .xshf 24 72 33),
   ([0b11000001110011000100100000000000#32], .mordAlloc 24 72),
   ([0b11000010000010011100100010011010#32], .mordSend 19 72 77),
   ([0b11000010010011000000000000000000#32], .mordStat 24),
   ([0b11000010100000000100100000000000#32], .mordFree 72),
   ([0b11000010110011000000000001000011#32], .histRead 24 33)]

theorem test_words_fabric : ∀ p ∈ words_fabric, decodeWords p.1 = .ok (p.2, []) := by decide +kernel

/-- R88: words of major D, written bit by bit from the table of op values and the field tables, with their instructions. -/
noncomputable def words_system : List (List W × Instr) :=
  [([0b11010000000000000000101001010101#32], .trap 0xa55),
   ([0b11010000010000010110010000100000#32], .sreg 22 33),
   ([0b11010000100000010011010000100000#32], .swreg 19 33),
   ([0b11010000110000000000101001010101#32], .brk 0xa55),
   ([0b11010001000000000000000000000000#32], .halt),
   ([0b11010001010000000000000000000000#32], .eret)]

theorem test_words_system : ∀ p ∈ words_system, decodeWords p.1 = .ok (p.2, []) := by decide +kernel


/-! States for the witnesses: a placed program whose group 3 (span 2, viaduct 1, context 65535) has all its lanes, page 0 of
global memory with every permission, and nothing outstanding. -/

/-- A settled machine with one group placed. -/
def placed : State :=
  let s := State.reset.withFetchWord 32 0
  { s with agenda := [], ten := { s.ten with epoch := 0 } }

/-- The same with its group and split in focus. -/
def ready : State := (focus? 3 0 placed).getD State.reset

/-- The value of a result, or a default. -/
def okOf {ε α : Type} (d : α) (e : Except ε α) : α :=
  match e with
  | .ok a => a
  | .error _ => d

/-! Words on registers: their hypotheses at the ends of the register ranges. -/

theorem witness_IntegerResults : ∀ o ∈ ([⟨126, .reg 0, .sca 63⟩, ⟨0, .lit 1#32, .reg 126⟩, ⟨5, .reg 5, .lit 7#32⟩] : List V3),
    Clear ready o.d 1 (o.a.range 1 ++ o.b.range 1) o.b.scalars := by unfold Clear; decide +kernel

theorem witness_CountAndPairResults_counts : ∀ o ∈ ([⟨126, .reg 0⟩, ⟨0, .reg 126⟩] : List V2), Clear ready o.d 1 (o.a.range 1) [] := by
  unfold Clear; decide +kernel

theorem witness_CountAndPairResults_pairs : ∀ o ∈ ([⟨124, .reg 0, .sca 63⟩, ⟨0, .lit 1#32, .reg 124⟩] : List V3),
    Clear ready o.d 2 (o.a.range 2 ++ o.b.range 2) o.b.scalars ∧ Clear ready o.d 2 (o.a.range 1 ++ o.b.range 1) o.b.scalars ∧
    Clear ready o.d 2 (o.a.range 2 ++ o.b.range 1) o.b.scalars := by unfold Clear; decide +kernel

theorem witness_CompareResults : ∀ o ∈ ([⟨7, .reg 0, .sca 63⟩, ⟨0, .lit 1#32, .reg 124⟩] : List K3), ∀ n ∈ [1, 2],
    (∀ p ∈ o.a.range n ++ o.b.range n, p.1 + p.2 ≤ ready.g.nregs) ∧
    hazard ready (regsOf (o.a.range n ++ o.b.range n)) o.b.scalars = false ∧
    poisonedLane ready (regsOf (o.a.range n ++ o.b.range n)) = none := by decide +kernel

theorem witness_FloatResults : ∀ o ∈ ([⟨126, .reg 0, .sca 63⟩, ⟨0, .lit 0x3F800000#32, .reg 126⟩] : List V3),
    Clear ready o.d 1 (o.a.range 1 ++ o.b.range 1) o.b.scalars := by unfold Clear; decide +kernel

theorem witness_MixedShapeResults : ∀ row ∈ mixedRows, ∀ o ∈ ([⟨124, .reg 0, .sca 63⟩, ⟨0, .lit 1#32, .reg 124⟩] : List V3),
    Clear ready o.d row.sd (o.a.range row.sa ++ o.b.range row.sb) o.b.scalars := by
  have h : ∀ q ∈ ([(1, 1, 1), (2, 2, 2), (2, 1, 1)] : List (Nat × Nat × Nat)), ∀ o ∈ ([⟨124, .reg 0, .sca 63⟩, ⟨0, .lit 1#32, .reg 124⟩] : List V3),
      Clear ready o.d q.1 (o.a.range q.2.1 ++ o.b.range q.2.2) o.b.scalars := by unfold Clear; decide +kernel
  intro row hr
  have e : (row.sd, row.sa, row.sb) ∈ mixedRows.map (fun r => (r.sd, r.sa, r.sb)) := List.mem_map.mpr ⟨row, hr, rfl⟩
  have f : ∀ q ∈ mixedRows.map (fun r => (r.sd, r.sa, r.sb)), q ∈ ([(1, 1, 1), (2, 2, 2), (2, 1, 1)] : List (Nat × Nat × Nat)) := by decide +kernel
  exact h _ (f _ e)

theorem witness_ConversionResults : (∀ n ∈ [1, 2], ∀ m ∈ [1, 2, 4], Clear ready 124 n [(0, m)] [] ∧ Clear ready 0 n [(122, m)] []) := by
  unfold Clear; decide +kernel

theorem witness_LaneExchangeResults : (∀ o ∈ ([⟨126, .reg 0, .sca 63⟩, ⟨0, .lit 1#32, .sca 0⟩] : List X3), Clear ready o.d 1 (o.a.range 1) o.b.scalars) ∧
    (∀ o ∈ ([⟨124, .reg 0, .sca 63⟩] : List X3), Clear ready o.d 2 (o.a.range 2) o.b.scalars) ∧
    (∀ n ∈ [1, 2], Clear ready 124 n [(126, 1)] []) := by unfold Clear; decide +kernel

theorem witness_MaskAndScalarResults : hazard ready [] (SSrc.scalars (.reg 63)) = false ∧
    ((∀ p ∈ (VSrc.reg 126).range 1, p.1 + p.2 ≤ ready.g.nregs) ∧ hazard ready (regsOf ((VSrc.reg 126).range 1)) [] = false ∧
      poisonedLane ready (regsOf ((VSrc.reg 126).range 1)) = none) ∧
    (∀ o ∈ ([⟨63, .reg 0, .lit 1#32⟩, ⟨0, .reg 63, .reg 62⟩] : List S3), hazard ready [] (o.d :: (o.a.scalars ++ o.b.scalars)) = false) ∧
    (let s := sSet 5 126 ready
     ((SSrc.reg 5).val s).toNat < s.g.nregs ∧ ((SSrc.reg 5).val s).toNat ≤ 126 ∧
       hazard s [((SSrc.reg 5).val s).toNat] [1, 5, 6] = false ∧ s.g.regPoison = []) := by decide +kernel


/-! Loads, stores, apertures and atomics. -/

/-- The places of a word's lanes, or none where one of them traps. -/
def psOf (s : State) (sp : List Space) (n : Nat) (as : List (Nat × W64)) : List (Nat × Nat × Place) := okOf [] (placesOf s sp n as)

/-- The placed group with a parameter window 3 of 64 bytes at 0x200. -/
def withParams : State := modViaduct 1 (fun v => { v with params := [⟨3, 0x200, 64⟩] }) ready

/-- An address in a scalar: the last 16 bytes of the page, and the core store. -/
def addressed : State := sSet 63 0xFFF0 (sSet 6 0xFF01000000000010 ready)

theorem witness_LoadsGoOut : (∀ row ∈ loadRows.map (fun r => r.2.1), ∀ base ∈ [63, 6],
      let o : LdOp := ⟨123, ⟨base, .reg 0, 3⟩⟩
      Clear addressed o.d (max 1 (row / 4)) (o.mem.off.range 1) [base] ∧ addressed.sp.em ≠ 0 ∧ addressed.g.cntL < 63 ∧
        placesOf addressed loadSpaces row (laneAddrs o.mem addressed) = .ok (psOf addressed loadSpaces row (laneAddrs o.mem addressed)) ∧
        Free addressed row (psOf addressed loadSpaces row (laneAddrs o.mem addressed))) := by unfold Clear Free; decide +kernel

theorem witness_LoadsGoOut_param : ∀ n ∈ [4, 8], Clear withParams 124 (n / 4) [] [] ∧ withParams.sp.em ≠ 0 ∧ withParams.g.cntL < 63 ∧
    paramPlace withParams 3 (64 - n) n = .ok (.param (0x200 + 64 - n)) ∧ paramPlace withParams 3 64 n = .ok .past := by
  unfold Clear; decide +kernel

theorem witness_LoadsGoOut_scalar : hazard addressed [] [62, 63] = false ∧ addressed.g.cntL < 63 ∧
    placesOf addressed loadSpaces 8 [(0, scalarAddr ⟨62, 63, 8#32, 0⟩ addressed)] = .ok [(0, 0xFFF8, .mem 0xFFF8)] ∧
    Free addressed 8 [(0, 0xFFF8, .mem 0xFFF8)] := by unfold Free; decide +kernel

theorem witness_LoadsGoOut_empty : (∀ n ∈ [1, 2, 4], Clear (emSet 0 ready) 123 n [(126, 1)] [63]) ∧ (emSet 0 ready).sp.em = 0 := by
  unfold Clear; decide +kernel

theorem witness_StoresWrite : ∀ n ∈ storeRows.map (fun r => r.2), ∀ base ∈ [63, 6],
    let o : StOp := ⟨.reg 123, ⟨base, .reg 0, 3⟩⟩
    let ps := psOf addressed storeSpaces n (laneAddrs o.mem addressed)
    (∀ p ∈ storeRange o n, p.1 + p.2 ≤ addressed.g.nregs) ∧ hazard addressed (regsOf (storeRange o n)) [base] = false ∧
      poisonedLane addressed (regsOf (storeRange o n)) = none ∧ addressed.sp.em ≠ 0 ∧ addressed.g.cntS < 63 ∧ inTx addressed = false ∧
      placesOf addressed storeSpaces n (laneAddrs o.mem addressed) = .ok ps ∧ (∀ p ∈ ps, copyHeld addressed p.2.2 n = false) ∧
      (addressed.ms.entries = []) ∧ (spanCoreOf? addressed addressed.g.span addressed.g.core).isSome ∧
      (∀ p ∈ ps, p.2.2 = .mem 0xFFF0 ∨ p.2.2 = .store 0x10) ∧
      RoomFor addressed (newLines addressed ps).length := by unfold RoomFor; decide +kernel

theorem witness_StoresWrite_empty : ∀ n ∈ storeRows.map (fun r => r.2), let o : StOp := ⟨.reg 123, ⟨63, .reg 126, 3⟩⟩
    (∀ p ∈ storeRange o n, p.1 + p.2 ≤ (emSet 0 ready).g.nregs) ∧ hazard (emSet 0 ready) (regsOf (storeRange o n)) [63] = false ∧
      (emSet 0 ready).sp.em = 0 := by decide +kernel

theorem witness_ApertureResults : ∀ o ∈ ([⟨124, ⟨63, .reg 126, 3⟩⟩, ⟨0, ⟨6, .lit 1#32, 0⟩⟩] : List LdOp),
    Clear addressed o.d 2 (o.mem.off.range 1) [o.mem.base] ∧ Clear addressed o.d 1 (o.mem.off.range 1) [o.mem.base] ∧
    (∀ p ∈ o.mem.off.range 1, p.1 + p.2 ≤ addressed.g.nregs) ∧ hazard addressed (regsOf (o.mem.off.range 1)) [o.mem.base] = false ∧
    poisonedLane addressed (regsOf (o.mem.off.range 1)) = none := by unfold Clear; decide +kernel

theorem witness_AtomicsGoOut : ∀ op ∈ [26, 27, 28, 29, 30, 31, 32, 33, 34, 35, 36, 37, 38], ∀ base ∈ [63, 6],
    let o : MAddr := ⟨base, .reg 0, 3⟩
    AtomReady addressed op o [(124, atomRegs op)] (psOf addressed storeSpaces (atomSize op) (laneAddrs o addressed)) := by
  unfold AtomReady CanEnd; decide +kernel

theorem witness_AtomicsGoOut_literal : ∀ op ∈ [26, 27, 28, 29, 30, 31, 32, 33, 34, 35, 36, 37, 38], ∀ base ∈ [63, 6],
    let o : MAddr := ⟨base, .reg 0, 3⟩
    AtomReady addressed op o [] (psOf addressed storeSpaces (atomSize op) (laneAddrs o addressed)) := by
  unfold AtomReady CanEnd; decide +kernel

theorem witness_AtomicsGoOut_cas : ∀ c ∈ ([(39, 2), (40, 4)] : List (Nat × Nat)), ∀ base ∈ [63, 6],
    let o : MAddr := ⟨base, .reg 0, 3⟩
    AtomReady addressed c.1 o [(120, c.2)] (psOf addressed storeSpaces (atomSize c.1) (laneAddrs o addressed)) := by
  unfold AtomReady CanEnd; decide +kernel


/-! What follows a load, a store, an atomic or a transaction. -/

/-- The next state of a meaning. -/
def nextOf (o : Out) : State :=
  match o with
  | .next t => t
  | .fault _ => State.reset
  | .refused _ => State.reset

/-- A state with a split in focus. -/
def inFocus (gid num : Nat) (s : State) : State := (focus? gid num s).getD State.reset

/-- No load. -/
def noLoad : Load := ⟨0, 0, 0, 0, 0, .scalar 0, [], false, false, 0⟩
/-- No store-buffer entry. -/
def noEntry : SbEntry := ⟨0, 0, 0, 0, 0, 0, 0, 0, [], 0, 0, 0, .opened, .waiting, false, false, false, false⟩
/-- No atomic. -/
def noAtom : Atom := ⟨0, 0, 0, 0, 0, 0, none, false, [], []⟩
/-- No trap record. -/
def noTrap : TrapRec := ⟨0, 0, 0, .misaligned, none, none, 0, 0, none, 0⟩

/-- A settled state with one load: of one lane from memory, of all lanes past a parameter window, or scalar. -/
noncomputable def loading (k : Nat) : State :=
  unfocus (nextOf (match k with
    | 0 => exec (.ldB8I ⟨126, ⟨5, .lit 0x1F#32, 0⟩⟩) (emSet 0x80000000 ready)
    | 1 => exec (.ldParamB64 ⟨124, 3, 64#32, 0⟩) withParams
    | _ => exec (.sldB64 ⟨62, 63, 8#32, 0⟩) addressed))

theorem witness_LoadReturns : ∀ k ∈ [0, 1, 2],
    let s := loading k
    let d := s.ms.loads.headD noLoad
    let u := inFocus d.gid d.split s
    At s d.gid d.split u ∧ s.ms.loads.find? (fun x => x.uid == d.uid) = some d ∧ loadWaits u d = false ∧ d.tx = false ∧ loadRecs u d = [] ∧
      (d.lanes.map LoadLane.lane).Nodup ∧ (∀ x ∈ d.lanes, x.lane < 32) ∧ d.uid = 4 ∧ d.lanes ≠ [] := by
  unfold At State.Settled; decide +kernel

/-- A settled state with a store of four bytes at the end of the page in the buffer: open, or committed. -/
noncomputable def storing (st : EntrySt) : State :=
  let t := unfocus (nextOf (exec (.stB32 ⟨.reg 124, ⟨63, .lit 12#32, 0⟩⟩) (vSet 124 (fun l => BitVec.ofNat 32 (0x04030201 + l)) (emSet 1 addressed))))
  { t with ms := { t.ms with entries := t.ms.entries.map (fun e => { e with st := st }) } }

theorem witness_StoresDrain_claim : let s := storing .opened
    let e := s.ms.entries.headD noEntry
    s.ms.entries.find? (fun x => x.uid == e.uid) = some e ∧ e.claim = .waiting ∧ e.line = 0xFF80 := by decide +kernel

theorem witness_StoresDrain_home : let s := storing .committed
    let e := s.ms.entries.headD noEntry
    let l := (okOf ⟨pteOf 0, 0, 0, 0, 0⟩ (accessIn s e.ctx ⟨false, false, false⟩ e.line))
    Drains s e l ∧ writesThrough s e.die l = true ∧ actingHome s l = none ∧ isPoisoned s l.phys = false ∧ doorbellPlace? s l.phys = none := by
  unfold Drains; decide +kernel

/-- The same, while the line's acting home is agent 5. -/
noncomputable def storingAway : State :=
  setSide ((6 * 65536) + 0xFF80) (mkSide 4 5 0 false) (storing .committed)

theorem witness_StoresDrain_acting : let s := storingAway
    let e := s.ms.entries.headD noEntry
    let l := (okOf ⟨pteOf 0, 0, 0, 0, 0⟩ (accessIn s e.ctx ⟨false, false, false⟩ e.line))
    Drains s e l ∧ actingHome s l = some 5 ∧ heldElsewhere s l.dom e.line 5 = false ∧ invalPending s l.dom e.line = false := by
  unfold Drains; decide +kernel

theorem witness_StoresDrain_ack : let s := storing .draining
    let e := s.ms.entries.headD noEntry
    s.ms.entries.find? (fun x => x.uid == e.uid) = some e ∧ e.st = .draining ∧ (∀ v ∈ s.ms.invals, v.writer.cls ≠ .store e.uid) ∧ e.uid ≠ 0 := by decide +kernel

/-- The placed group with a word of 4 or 8 bytes at the end of the page as the target of an atomic, with one lane more at a
home, or in core store. -/
noncomputable def atomicOut (op : Nat) : State :=
  let s := vSet64 122 (fun l => BitVec.ofNat 64 (7 + l)) (vSet64 120 (fun l => BitVec.ofNat 64 (0xFFFFFFFF00000000 + l)) (emSet 3 addressed))
  let m : MAddr := ⟨63, .lit 0#32, 0⟩
  unfocus (nextOf (if op = 39 then exec (.atomCasB32 ⟨120, m⟩) s else if op = 40 then exec (.atomCasB64 ⟨120, m⟩) s
    else match atomRows.find? (fun r => r.2 == op) with
      | some r => exec (r.1 ⟨.reg 120, m⟩) s
      | none => exec .exit s))

theorem witness_AtomicLanesPerform : ∀ op ∈ [26, 27, 30, 31, 32, 33, 34, 35, 36, 37, 38, 39, 40],
    let s := atomicOut op
    let a := s.ms.atoms.headD noAtom
    let g := (groupOf? s 3).getD Group.idle
    let x := a.lanes.headD (0, 0, 0, 0)
    let l := okOf ⟨pteOf 0, 0, 0, 0, 0⟩ (accessIn s g.ctx needRdW x.2.1)
    s.Settled ∧ (∀ h ∈ s.groups, h.gid ≠ 0) ∧ groupOf? s a.gid = some g ∧ x.1 < 32 ∧ a.op = op ∧
      s.ms.atoms.find? (fun b => b.uid == a.uid && !b.keystone) = some a ∧ s.ms.atoms.find? (fun b => b.uid == a.uid) = some a ∧
      a.lanes.find? (fun y => y.1 == x.1) = some x ∧ atomReady s g a x.1 x.2.1 = true ∧
      accessIn s g.ctx needRdW x.2.1 = .ok l ∧ isPoisoned s l.phys = false ∧ actingHome s l = none ∧
      x.2.1 % 128 + atomSize a.op ≤ 128 ∧ l.phys % 128 = x.2.1 % 128 ∧
      (g.splits.find? (fun q => q.num == a.split)).all (fun p => p.member != 0 && p.pend == [.atomWait, .boundary]) = true ∧
      (g.splits.find? (fun q => q.num == a.split)).isSome ∧ (∃ y ∈ a.lanes, y.1 ≠ x.1) := by unfold State.Settled; decide +kernel

/-- An atomic with one lane in core store and one at a home. -/
noncomputable def keystoneOut (op : Nat) : State :=
  let s := sSet 63 0xFFE0 (vSet64 120 (fun l => BitVec.ofNat 64 (0xFFFFFFFF00000000 + l)) (emSet 3 ready))
  let t := modSpanCore 2 0 (fun c => { c with store := [(0, 255)] }) s
  let home : Atom := ⟨4, 3, 0, 0, 0, op, some 120, false, [(1, 0xFFE0, 1, 0)], []⟩
  let chip : Atom := ⟨5, 3, 0, 0, 0, op, some 120, true, [(0, 0xFF01000000000000, 0xFFFFFFFF, 3)], []⟩
  unfocus { t with ms := { t.ms with atoms := [home, chip] }, uid := 6, sp := { t.sp with pend := [.atomWait, .boundary] },
                   g := { t.g with cntL := 1 } }

theorem witness_KeystonePerforms : ∀ op ∈ [26, 27, 30, 31, 32, 33, 34, 35, 36, 37, 38, 39, 40],
    let s := keystoneOut op
    let a := (s.ms.atoms.drop 1).headD noAtom
    let g := (groupOf? s 3).getD Group.idle
    s.Settled ∧ (∀ h ∈ s.groups, h.gid ≠ 0) ∧ (keystoneQueue s 0 0).head? = some a ∧ groupOf? s a.gid = some g ∧
    s.ms.atoms.find? (fun b => b.uid == a.uid) = some a ∧ a.lanes.length = 1 ∧ (∀ x ∈ a.lanes, x.1 < 32 ∧ x.2.1 = 0xFF01 * 2 ^ 48 + 0) ∧
    (spanCoreOf? s g.span g.core).isSome ∧ storePoisoned s g.span g.core 0 (atomSize a.op) = false ∧
    (g.splits.find? (fun q => q.num == a.split)).any (fun p => p.member != 0 && p.pend == [.atomWait, .boundary]) = true ∧
    (∃ b ∈ s.ms.atoms, b.gid = a.gid ∧ b.split = a.split ∧ b.uid ≠ a.uid ∧ b.lanes ≠ []) := by unfold State.Settled; decide +kernel

/-- The placed group in a transaction that has read one word and written one byte, at a phase. -/
def transacting (phase : TxPhase) (locked : List Nat) : State :=
  let t : Tx := ⟨1, 0, 3, 0, [(0, 0xFFF0, 0)], [(1, 0xFFF8, 9)], [], 0, false, phase, locked⟩
  unfocus { ready with g := { ready.g with tx := some t }, sp := { ready.sp with pend := [.txWait, .boundary] } }

/-- The transaction of the group. -/
def txOf (s : State) : Tx := (((groupOf? s 3).getD Group.idle).tx).getD ⟨0, 0, 0, 0, [], [], [], 0, false, .running, []⟩

theorem witness_CommitsAdvance_receive : let s := transacting .sent []
    let g := (groupOf? s 3).getD Group.idle
    let u := inFocus 3 0 s
    g.gid = 3 ∧ groupOf? s g.gid = some g ∧ g.tx = some (txOf s) ∧ At s g.gid (txOf s).split u ∧ (txOf s).phase = .sent ∧
      (txOf s).serial = 0 ∧ txPoison u (txOf s) = [] := by unfold At State.Settled; decide +kernel

theorem witness_CommitsAdvance_lock : ∀ p ∈ [TxPhase.received, .locking], let s := transacting p []
    let g := (groupOf? s 3).getD Group.idle
    let n := (txSlices s g (txOf s)).headD 0
    s.g.gid = 0 ∧ g.gid = 3 ∧ groupOf? s g.gid = some g ∧ g.tx = some (txOf s) ∧ (txOf s).phase = p ∧
      (txSlices s g (txOf s)).find? (fun k => !memNat k (txOf s).locked) = some n ∧ heldByOther s g.gid n = false ∧
      sliceLocked s (n / 256) (n % 256) g.gid = false := by decide +kernel

/-- The group waits for the token of domain 0. -/
def awaitingToken : State := { transacting .sent [] with ms := { (transacting .sent []).ms with tokenWaits := [(0, 3)] } }

theorem witness_CommitsAdvance_token : awaitingToken.g.gid = 0 ∧ (∀ k ∈ awaitingToken.ms.tokens, k.1 ≠ 0) ∧
    awaitingToken.ms.tokenWaits.find? (fun k => k.1 == 0) = some (0, 3) := by decide +kernel

/-- The commit holds the locks of all its slices. -/
def validating : State :=
  let s := transacting .locking []
  transacting .locking (txSlices s ((groupOf? s 3).getD Group.idle) (txOf s))

theorem witness_TransactionsEnd : let s := validating
    let g := (groupOf? s 3).getD Group.idle
    let u := inFocus 3 0 s
    let p := okOf ⟨pteOf 0, 0, 0, 0, 0⟩ (accessIn s g.ctx ⟨false, false, false⟩ (lineOf 0xFFF8))
    groupOf? s g.gid = some g ∧ g.tx = some (txOf s) ∧ At s g.gid (txOf s).split u ∧ (txOf s).phase = .locking ∧
    (∀ n ∈ txSlices s g (txOf s), n ∈ (txOf s).locked) ∧ u.sp.pend = [.txWait, .boundary] ∧ (∀ d ∈ s.ms.loads, d.gid ≠ g.gid) ∧
    (∀ e ∈ s.ms.entries, e.gid = g.gid → e.tx = true) ∧ (txOf s).writes = [(1, 0xFFF8, 9)] ∧
    accessIn s g.ctx ⟨false, false, false⟩ (lineOf 0xFFF8) = .ok p ∧ isPoisoned s p.phys = false ∧ actingHome s p = none ∧
    wins s g.ctx (txOf s) 1 = true := by unfold At State.Settled; decide +kernel


/-! Faults. -/

/-- A settled state after a load from a page that is not mapped. -/
noncomputable def faulting : State := unfocus (nextOf (exec (.ldB32 ⟨126, ⟨5, .lit 0x10000#32, 0⟩⟩) (emSet 1 ready)))

theorem witness_FaultsResolve_abort : let u := inFocus 3 0 faulting
    At faulting 3 0 u ∧ loadFaults u ≠ [] ∧ u.sp.pend = [] ∧ u.sp.state = .running ∧ ownAtoms u = [] := by unfold At State.Settled; decide +kernel

/-- A fault record of a read of an address, by lane 0 of the placed group. -/
def readFault (va : Nat) : FaultRec := ⟨va, 0, 1, 0, 0, 0, 0, 0, false, true, 0, 0, 0, 65535⟩

/-- A settled state whose split is parked for a page. -/
def parkedAt (va : Nat) : State :=
  unfocus { ready with sp := { ready.sp with state := .parked, faults := [readFault va], regionPc := 0x40, regionWord := 2 },
                       ms := { ready.ms with openFaults := [⟨65535, pageOf va, 0, 0, false, 0⟩] } }

theorem witness_FaultsResolve_restart : let u := inFocus 3 0 (parkedAt 0xFFFF)
    At (parkedAt 0xFFFF) 3 0 u ∧ u.sp.state = .parked ∧ u.sp.unsent = [] ∧ u.sp.faults ≠ [] ∧
    (∀ r ∈ u.sp.faults, (match accessIn u r.ctx (if r.cause = 1 then ⟨false, false, false⟩ else kindNeed r.kind) r.vaddr with
      | .ok l => r.cause != 3 || !isPoisoned u l.phys
      | .error _ => false) = true) := by unfold At State.Settled; decide +kernel

/-- A context with no group, 5 records of whose fault queue are unread. -/
def unread : State := { State.reset with ten := { State.reset.ten with ctxs := [{ placedContext with fqwr := 5 }] } }

theorem witness_FaultsResolve_read : unread.Settled ∧ (∀ g ∈ unread.groups, g.ctx ≠ 65535) ∧
    ctxOf? unread 65535 = some { placedContext with fqwr := 5 } ∧ unread.ms.unsent = [] ∧ 5 ≤ (5 + 2 ^ 32 - 0) % 2 ^ 32 := by
  unfold State.Settled; decide +kernel

/-- An open fault with no group. -/
def openFault : State := { unread with ms := { unread.ms with openFaults := [⟨65535, pageOf 0x20000, 0, 0, false, 0⟩] } }

theorem witness_FaultsResolve_declare : openFault.Settled ∧ openFault.groups = [] ∧ openFault.front.queues = [] ∧
    openFault.eng = ⟨[], [], [], []⟩ ∧ openFault.fab.slots = [] ∧ openFault.fab.partials = [] ∧
    (∃ f ∈ openFault.ms.openFaults, f.ctx = 65535 ∧ f.page = pageOf 0x2FFFF) := by unfold State.Settled; decide +kernel

theorem witness_FaultsResolve_unresolvable : let s := parkedAt 0x20000
    let g := (groupOf? s 3).getD Group.idle
    let p := g.splits.headD Split.idle
    s.Settled ∧ s.groups = [g] ∧ g.gid ≠ 0 ∧ g.splits = [p] ∧ s.front.queues = [] ∧
    (∃ f ∈ s.ms.openFaults, f.ctx = 65535 ∧ f.page = pageOf 0x20004) ∧ p.state = .parked ∧
    p.faults.find? (fun x => x.ctx == 65535 && pageOf x.vaddr == pageOf 0x20004) = some (readFault 0x20000) := by
  unfold State.Settled; decide +kernel

/-- A settled state whose group has two deferred traps. -/
def deferring : State := unfocus { ready with g := { ready.g with deferred := [⟨1, 0x40, 2, .windowAccess, some 3, none, 0, 0, none, 7⟩, noTrap] } }

theorem witness_FaultsResolve_deferred : deferring.g.gid = 0 ∧ ((groupOf? deferring 3).getD Group.idle).gid = 3 ∧
    groupOf? deferring 3 = some ((groupOf? deferring 3).getD Group.idle) ∧
    ((groupOf? deferring 3).getD Group.idle).deferred = [⟨1, 0x40, 2, .windowAccess, some 3, none, 0, 0, none, 7⟩, noTrap] ∧
    ((groupOf? deferring 3).getD Group.idle).residence = .resident ∧
    (viaductOf? deferring ((groupOf? deferring 3).getD Group.idle).viaduct).any (fun v =>
      v.st == .started && decide (v.readyTick ≤ deferring.tick)) = true := by decide +kernel


/-! Copies. -/

/-- The placed group, lanes 0 and 31 active, with a source and a destination address for each copy, a window 5 on the page, a
plane-store reservation, and a barrier register that expects two arrivals. -/
def copying (op : CopyOp) : State :=
  let src : Nat := if op.readsMemory then 0xFF00 else if op = .fill then 0x5A5A5A5A else 0xFF01000000000000
  let dst : Nat :=
    match op with
    | .g2s => 0xFF01000000000020
    | .s2s => 0xFF01000000000020
    | .mcast => 2 ^ 32 + 0x20
    | .g2p => 3 * 2 ^ 32 + 0x20
    | .s2p => 3 * 2 ^ 32 + 0x20
    | .fill => 0xFF01000000000020
    | .s2g => 0xFFE0
    | .put => 0xFFE0
    | .close => 0
  let s := vSet64 124 (fun l => BitVec.ofNat 64 (dst + 16 * (l / 31))) (vSet64 120 (fun l => BitVec.ofNat 64 (src + 16 * (l / 31)))
    (emSet 0x80000001 ready))
  let t := modSpan 2 (fun x => { x with bars := x.bars.set 15 { Barrier.zero with expected := 2 } }) s
  let w0 := BitVec.ofNat 64 (2 * 2 ^ 54 + 4 * 2 ^ 41 + 32 * 2 ^ 30 + 1 * 2 ^ 5)
  let t := modSpanCore 2 0 (fun c => { c with store := [(0, 0x11#8), (3, 0x22#8), (31, 0x33#8)], resv := [⟨3, w0, 0, [], []⟩] }) t
  { t with fab := { t.fab with windows := [⟨0, 65535, 5, 0xFF00, 0, true, 256, 0, 0, 0⟩] } }

/-- The lanes of a copy, or none where one traps. -/
def lanesFor (s : State) (op : CopyOp) (o : CpOp) : List CopyLane := okOf [] (copyLanes s op o (4 * 2 ^ o.size) (lanesOf s.sp.em))

theorem witness_CopiesGoOut : ∀ op ∈ copyRows.map (fun r => r.2), ∀ o ∈ ([⟨120, 124, 15, 2, false, true⟩, ⟨120, 124, 0, 0, false, false⟩] : List CpOp),
    CopyReady (copying op) op o (lanesFor (copying op) op o) ∧ (lanesFor (copying op) op o).length = 2 := by
  unfold CopyReady; decide +kernel

theorem witness_CopiesGoOut_put : let s := copying .put
    let o : CpOp := ⟨120, 124, 15, 2, false, true⟩
    CopyReady s .put o (lanesFor s .put o) ∧ streamFull s s.g.ctx (agentOf s s.g.die) ((lanesFor s .put o).map (fun l => (agentOf s s.g.die, l.mask))) = false ∧
      (lanesFor s .put o).map (fun l => l.mask) = [5, 5] := by unfold CopyReady; decide +kernel

theorem witness_CopiesGoOut_close : let s := copying .close
    let t := modSpan 2 (fun x => { x with bars := x.bars.set 15 { Barrier.zero with expected := 2, pending := 16777215 } }) s
    inTx s = false ∧ 15 < barCount s ∧ (barGet s 15).closed = false ∧ s.g.cntC < 63 ∧ copyQueueFull s s.g = false ∧
    (barGet s 15).pending = 0 ∧ (barGet s 15).arrived + 1 < (barGet s 15).expected ∧
    inTx t = false ∧ 15 < barCount t ∧ (barGet t 15).closed = false ∧ t.g.cntC < 63 ∧ copyQueueFull t t.g = false ∧
    (barGet t 15).pending ≠ 0 := by decide +kernel

/-- A settled state with a copy of one lane on its way. -/
noncomputable def transferring (op : CopyOp) : State :=
  let s := { copying op with sp := { (copying op).sp with em := 1 } }
  let o : CpOp := ⟨120, 124, 15, 2, false, true⟩
  unfocus (nextOf (match op with
    | .g2s => exec (.cpG2s o) s
    | _ => exec (.cpS2g o) s))

/-- No copy. -/
def noCopy : Copy := ⟨0, 0, 0, 0, 0, 0, .close, 0, none, false, [], [], 0, 0, false⟩

theorem witness_CopiesTransfer : ∀ op ∈ [CopyOp.g2s, .s2g],
    let s := transferring op
    let c := s.eng.copies.headD noCopy
    let g := (groupOf? s 3).getD Group.idle
    let l := c.lanes.headD ⟨0, 0, 0, 0, false, false, false, false, 0⟩
    let f := okOf ⟨pteOf 0, 0, 0, 0, 0⟩ (accessIn s g.ctx (if op = .g2s then needRd else needW) (if op = .g2s then l.src else l.dst))
    s.g.gid = 0 ∧ c.gid ≠ 0 ∧ s.eng.copies.find? (fun x => x.uid == c.uid) = some c ∧ groupOf? s c.gid = some g ∧ c.suspended = false ∧
    c.lanes = [l] ∧ l.done = false ∧ l.skip = false ∧ mayStart s g c = true ∧ laneReady s g c l = true ∧ (spanCoreOf? s c.span g.core).isSome ∧ c.bar = some 15 ∧
    (match spanOf? s c.span with | some x => decide (15 < x.bars.length) && !(nthD Barrier.zero x.bars 15).closed | none => false) = true ∧
    c.op = op ∧ accessIn s g.ctx (if op = .g2s then needRd else needW) (if op = .g2s then l.src else l.dst) = .ok f ∧ isPoisoned s f.phys = false ∧
    (if op = .g2s then l.dst = 0xFF01 * 2 ^ 48 + 0x20
     else l.src = 0xFF01 * 2 ^ 48 + 0 ∧ storePoisoned s c.span g.core 0 c.z = false ∧ actingHome s f = none ∧ l.dst % 128 + c.z ≤ 128 ∧
       f.phys % 128 = l.dst % 128 ∧ l.dst < 2 ^ 56) := by decide +kernel


/-! The plane store, matrix words and queue registers. -/

/-- R169: the first word of a reservation record. -/
def recWord (fmt : Nat) (roleB tl : Bool) (mext kext korg base size : Nat) : W64 :=
  BitVec.ofNat 64 (fmt * 2 ^ 54 + (if roleB then 2 ^ 53 else 0) + (if tl then 2 ^ 52 else 0) + mext * 2 ^ 41 + kext * 2 ^ 30 + korg * 2 ^ 24 +
    base * 2 ^ 15 + size * 2 ^ 5)

/-- The placed group with 512 units of plane store, and reservations 0 (A, n8), 31 (B, n8 with tables) and 5 (A, 1-bit codes);
block 0 of rows 0 and 3 of each holds integers. -/
def planar : State :=
  let s := modViaduct 1 (fun v => { v with launch := { v.launch with plane := 512 } }) ready
  let ints (k : Nat) : Block := { Block.zero with ints := [(0, (k : Int)), (1, -3), (31, 100)] }
  modSpanCore 2 0 (fun c => { c with resv := [⟨0, recWord 2 false false 4 32 0 0 2, 0, [], [(0, ints 5), (96, ints 7)]⟩,
    ⟨31, recWord 2 true true 64 32 0 2 100, 0, [], [(0, ints 9), (32 * 63, ints 11)]⟩,
    ⟨5, recWord 13 false false 4 32 0 200 2, 0, [], []⟩] }) s

/-- The same with the words of a further record in s(62) and s(63). -/
def recorded : State := sSet 63 0 (sSet 62 (recWord 2 false false 4 32 0 300 2) planar)

theorem witness_ReservationsChange : let s := recorded
    inTx s = false ∧ (spanCoreOf? s s.g.span s.g.core).isSome ∧ hazard s [] [62, 63] = false ∧
    heldRes? s 30 = none ∧ (heldRes? s 0).isSome ∧ resBusy s 0 = false ∧ hazard s [] [62] = false := by decide +kernel

theorem witness_ReservationsChange_fits : ∀ p ∈ ([(30, recorded), (0, recorded),
    (0, sSet 63 0 (sSet 62 (recWord 2 false false 4 32 63 0 2) planar))] : List (Nat × State)), PairFits p.2 p.1 62 := by
  intro p h
  refine ⟨?_, ?_, ?_, ?_, ?_, ?_, ?_, ?_, ?_, ?_, ?_, ?_, ?_, ?_⟩ <;> (revert p; decide +kernel)

/-- A reservation of the placed group. -/
def resFor (s : State) (n : Nat) : Reservation := (heldRes? s n).getD ⟨0, 0, 0, [], []⟩

theorem witness_ReservationsChange_same : let s := sSet 63 0 (sSet 62 (recWord 2 false false 4 32 0 0 2) planar)
    inTx s = false ∧ hazard s [] [62, 63] = false ∧ heldRes? s 0 = some (resFor s 0) ∧ (resFor s 0).word0 = sGet s 62 ∧
    (resFor s 0).word1 = sGet s 63 := by decide +kernel

theorem witness_ReservationsChange_korg : let s := sSet 63 0 (sSet 62 (recWord 2 false false 4 32 63 0 2) planar)
    inTx s = false ∧ hazard s [] [62, 63] = false ∧ heldRes? s 0 = some (resFor s 0) ∧
    KorgOnly (sGet s 62) (sGet s 63) (resFor s 0).word0 (resFor s 0).word1 := by
  refine ⟨by decide +kernel, by decide +kernel, by decide +kernel, fun i h => ?_, by decide +kernel⟩
  have e : ∀ j, j < 64 → (j < 24 ∨ 30 ≤ j) →
      (recWord 2 false false 4 32 63 0 2).getLsbD j = (recWord 2 false false 4 32 0 0 2).getLsbD j := by decide +kernel
  by_cases hi : i < 64
  · exact e i hi h
  · rw [BitVec.getLsbD_of_ge _ _ (by omega), BitVec.getLsbD_of_ge _ _ (by omega)]

theorem witness_ReservationsChange_other : let s := recorded
    heldRes? s 0 = some (resFor s 0) ∧ ¬ KorgOnly (sGet s 62) (sGet s 63) (resFor s 0).word0 (resFor s 0).word1 ∧
    ((resFor s 0).blocks.map Prod.fst).Nodup := by
  refine ⟨by decide +kernel, fun h => ?_, by decide +kernel⟩
  exact absurd (h.1 17 (Or.inl (by decide))) (by decide +kernel)

theorem witness_MatrixWordsGoOut : let s := planar
    TileRoom s ∧ 3 < tileCount s ∧ heldRes? s 0 = some (resFor s 0) ∧ heldRes? s 31 = some (resFor s 31) ∧ heldRes? s 5 = some (resFor s 5) ∧
    pairBad (resFor s 0).record (resFor s 31).record 64 = false ∧ (resFor s 0).record.fmt ≤ 12 ∧ (resFor s 31).record.fmt ≤ 12 ∧
    (resFor s 31).record.fmt ≠ 1 ∧ pairBad (resFor s 5).record (resFor s 31).record 1 = false ∧ 13 ≤ (resFor s 5).record.fmt ∧
    (resFor s 5).record.fmt ≤ 16 ∧ (resFor s 31).record.fmt ∈ [2, 4, 5, 6, 7] ∧ (resFor s 31).record.tl = true ∧
    (resFor s 31).record.roleB = true ∧ 16 * ((resFor s 31).record.korg + 64) ≤ 1024 := by unfold TileRoom; decide +kernel

theorem witness_MatrixWordsGoOut_registers : let s := sSet 63 0x8000 (vSet64 122 (fun _ => 0x9000) (vSet64 120 (fun l => BitVec.ofNat 64 (0x8000 + 256 * l)) planar))
    TileRoom s ∧ 3 < tileCount s ∧ 119 + 8 ≤ s.g.nregs ∧ s.g.live ≤ 119 ∧ hazard s (regSpan 119 8) [] = false ∧
    120 + 4 ≤ s.g.nregs ∧ hazard s (regSpan 120 4) [] = false ∧ poisonedLane s (regSpan 120 4) = none ∧
    drainAddrs s 120 6 2 (lanesOf s.sp.em) = .ok (okOf [] (drainAddrs s 120 6 2 (lanesOf s.sp.em))) ∧
    hazard s [] [63] = false ∧ tileAddr s 63 = .ok 0x8000 ∧ 126 + 1 ≤ s.g.nregs ∧ hazard s [126] [] = false ∧
    s.sp.kept ≤ s.sp.replay ∧ s.iss.stalled = false ∧ (okOf [] (drainAddrs s 120 6 2 (lanesOf s.sp.em))).length = 32 := by
  unfold TileRoom; decide +kernel

/-- A tile that is not empty, with counts. -/
def spotted : Tile := { Tile.zero with elems := [(0, 4), (63, 5), (3 * 64 + 9, 6)], dunder := [(0, 3)], dsat := [(3, 2)] }

/-- A settled state with one matrix word in the queue of its core, of the rows in em, with a tile that is not empty. -/
noncomputable def tiling (i : Instr) : State :=
  let s := modSpanCore 2 0 (fun c => { c with tiles := c.tiles.set 3 spotted }) (emSet 0x80000009 planar)
  unfocus (nextOf (exec i s))

/-- No tile operation. -/
def noTile : TileCmd := ⟨0, 0, 0, 0, 0, 0, 0, 0, 0, .mzero 0, false, false, [], false⟩

theorem witness_TileOperationsComplete : ∀ i ∈ ([.mmk 3 0 31 2, .mzero 3, .mdrain 3 112 7, .mstatTile 3 126, .msuggest 3 15 63] : List Instr),
    let s := tiling i
    let c := s.eng.tiles.headD noTile
    let g := (groupOf? s 3).getD Group.idle
    s.g.gid = 0 ∧ c.gid ≠ 0 ∧ groupOf? s c.gid = some g ∧
    s.eng.tiles.find? (fun x => x.die == c.die && x.core == c.core && !x.suspended) = some c ∧
    (spanCoreOf? s c.span c.core).any (fun p => decide (3 < p.tiles.length)) = true ∧ (tileOf s c.span c.core 3).poison = [] := by decide +kernel

theorem witness_TileOperationsComplete_product : let s := tiling (.mmk 3 0 31 2)
    let c := s.eng.tiles.headD noTile
    let a := (resOf? s c.span c.core 0).getD ⟨0, 0, 0, [], []⟩
    let b := (resOf? s c.span c.core 31).getD ⟨0, 0, 0, [], []⟩
    c.op = .mmk 3 0 31 a.word0 a.word1 b.word0 b.word1 2 ∧ resOf? s c.span c.core 0 = some a ∧ resOf? s c.span c.core 31 = some b ∧
    a.record.fmt ∈ [0, 2] ∧ b.record.fmt ∈ [0, 2] ∧ (a.record.korg + b.record.korg) % 2 = 0 ∧ b.record.mext ≤ 64 ∧
    (∀ p ∈ a.blocks ++ b.blocks, p.2.poison = false ∧ ∀ k ∈ p.2.classes, k.2 = .zero) := by decide +kernel

/-- The placed group with queue register 15 bound to a function, one entry held and one command in flight. -/
def queued (fn : Nat) : State :=
  let q : QueueReg := ⟨some (fn, if fn = 7 then 4 else 0, false), [⟨1, [(0, 9#32), (31, 8#32)], some 0⟩, ⟨2, [(0, 7#32), (31, 6#32)], none⟩]⟩
  let c : FnCmd := ⟨4, 3, 0, 0, 15, fn, if fn = 7 then 4 else 0, false, false, 0x80000001, [(0, 0x3F800000#32), (31, 0x40000000#32)]⟩
  { ready with g := ready.g.setQueue 15 q, eng := { ready.eng with fns := [c] }, uid := 5 }

theorem witness_QueuesServeFunctions_bind : ready.sp.kept ≤ ready.sp.replay ∧ ready.iss.stalled = false ∧
    (∀ c ∈ ready.eng.fns, c.gid ≠ ready.g.gid ∨ c.q ≠ 15) := by decide +kernel

theorem witness_QueuesServeFunctions_words : ∀ fn ∈ [0, 7], let s := queued fn
    inTx s = false ∧ 126 + 1 ≤ s.g.nregs ∧ hazard s [126] [] = false ∧ poisonedLane s [126] = none ∧ s.sp.kept ≤ s.sp.replay ∧
    s.iss.stalled = false ∧ (s.g.queue 15).bind = some (fn, if fn = 7 then 4 else 0, false) ∧
    (s.g.queue 15).entries.length + placesInFlight s s.g.gid 15 + (if fn = 7 then 2 else 1) ≤ 8 ∧ fnQueueFull s s.g (fn == 7) = false ∧
    s.g.live ≤ 126 ∧ (s.g.queue 15).oldest = some ⟨2, [(0, 7#32), (31, 6#32)], none⟩ ∧
    (s.g.queue 15).entries.Pairwise (fun x y => x.seq ≠ y.seq) ∧ hazard s [] [63] = false := by decide +kernel

theorem witness_QueuesServeFunctions_empty : let s : State := { ready with g := ready.g.setQueue 0 ⟨some (0, 0, false), []⟩ }
    126 + 1 ≤ s.g.nregs ∧ s.g.live ≤ 126 ∧ hazard s [126] [] = false ∧ (s.g.queue 0).bind.isSome ∧ (s.g.queue 0).oldest = none := by decide +kernel

theorem witness_QueuesServeFunctions_result : ∀ fn ∈ [0, 7], let s := unfocus (queued fn)
    let g := (groupOf? s 3).getD Group.idle
    let c := (queued fn).eng.fns.headD ⟨0, 0, 0, 0, 0, 0, 0, false, false, 0, []⟩
    s.g.gid = 0 ∧ c.gid = 3 ∧ groupOf? s c.gid = some g ∧ g.stopped = false ∧ g.residence = .resident ∧ c.q < g.queues.length ∧
    s.eng.fns.find? (fun x => x.die == c.die && x.quad == c.quad && ((x.fn == 7) == (fn == 7))) = some c := by decide +kernel


/-! Barriers, slots, waits and transactions. -/

/-- The placed group with its span's barrier register 15 at an expected and an arrived count. -/
def barred (expected arrived : Nat) (phase : Bool) : State :=
  modSpan 2 (fun x => { x with bars := x.bars.set 15 ⟨0, phase, false, arrived, expected, none⟩ }) ready

theorem witness_BarriersArrive : (∀ p ∈ [true, false], BarReady (barred 129 127 p) 15 ∧ inTx (barred 129 127 p) = false ∧ Quiet (barred 129 127 p) ∧
      (barGet (barred 129 127 p) 15).arrived + 1 ≠ (barGet (barred 129 127 p) 15).expected) ∧
    (∀ p ∈ [true, false], BarReady (barred 129 128 p) 15 ∧ inTx (barred 129 128 p) = false ∧ Quiet (barred 129 128 p) ∧
      (barGet (barred 129 128 p) 15).arrived + 1 = (barGet (barred 129 128 p) 15).expected) := by
  unfold BarReady Quiet; decide +kernel

/-- The placed group in a cooperative viaduct. -/
def together : State := modViaduct 1 (fun v => { v with launch := { v.launch with coop := true } }) ready

theorem witness_BarriersArrive_hw : (viaductOf? together together.g.viaduct).isSome ∧
    (viaductOf? together together.g.viaduct).all (fun v => v.launch.coop) = true ∧ inTx together = false ∧ splitCount together ≤ 1 ∧ Quiet together := by
  unfold Quiet; decide +kernel

/-- A settled state whose one group waits at a hardware barrier. -/
noncomputable def atHwBarrier (i : Instr) : State := unfocus (nextOf (exec i together))

theorem witness_BarriersArrive_complete : ∀ row ∈ hwBarRows, let s := atHwBarrier row.1
    let g := s.groups.headD Group.idle
    let p := g.splits.headD Split.idle
    let v := (viaductOf? s 1).getD (placedViaduct 0 [])
    s.Settled ∧ viaductOf? s v.uid = some v ∧ s.groups = [g] ∧ g.gid ≠ 0 ∧ g.viaduct = v.uid ∧ g.die = 0 ∧ g.exited = false ∧
    g.residence = .resident ∧ g.splits = [p] ∧ p.member ≠ 0 ∧ g.gid ∈ (hwBarOf v row.2.1 0).arrived ∧
    p.pend = [.hwWait row.2.1 (hwBarOf v row.2.1 0).phases, .acquire row.2.2] ∧
    (row.2.1 = 5 → ∀ o ∈ otherPackages s v, o ∈ (hwBarOf v row.2.1 0).away) := by unfold State.Settled; decide +kernel

theorem witness_BarrierWords_expect : 15 < barCount ready ∧ (barGet ready 15).arrived = 0 := by decide +kernel

theorem witness_BarrierWords_arrive : ∀ k ∈ [127, 128], BarReady (barred 129 k true) 15 ∧ hazard (barred 129 k true) [] [63] = false ∧
    Quiet (barred 129 k true) ∧ (barred 129 k true).g.arrivals = [] ∧
    ((barGet (barred 129 k true) 15).arrived + 1 = (barGet (barred 129 k true) 15).expected ↔ k = 128) := by
  unfold BarReady Quiet; decide +kernel

theorem witness_BarrierWords_queued : let s : State := { barred 129 127 true with
      ms := { (barred 129 127 true).ms with loads := [{ noLoad with gid := 3 }] }, sp := { (barred 129 127 true).sp with bndUid := 1 } }
    BarReady s 15 ∧ hazard s [] [63] = false ∧ ∃ x ∈ s.ms.loads, x.gid = s.g.gid ∧ x.split = s.sp.num ∧ x.uid < s.sp.bndUid := by
  unfold BarReady; decide +kernel

theorem witness_BarrierWords_remote : let s := barred 129 127 true
    let x := (spanOf? s 2).getD (placedSpan 0 0 0)
    splitCount s ≤ 1 ∧ hazard s [] [63] = false ∧ Quiet s ∧ s.g.arrivals = [] ∧ remoteSpan? s ((sGet s 63).toNat % 2 ^ 32) = some x ∧ spanOf? s x.uid = some x ∧
    x.bars[15]? = some ⟨0, true, false, 127, 129, none⟩ := by unfold Quiet; decide +kernel

theorem witness_BarrierWords_wait : ∀ p ∈ [true, false], let s := sSet 63 1 (barred 129 127 p)
    15 < barCount s ∧ inTx s = false ∧ hazard s [] [63] = false ∧ CanEnd s := by unfold CanEnd; decide +kernel

theorem witness_SlotsArm : ∀ w64 ∈ [0, 1], let s := sSet 63 0xFFF8 ready
    3 < s.g.slots.length ∧ w64 ≤ 1 ∧ hazard s [] [63, 62] = false ∧ bitsOf (sGet s 63).toNat 63 56 = 0 ∧ (sGet s 63).toNat % (4 * (w64 + 1)) = 0 ∧
    (accessIn s s.g.ctx needRd (sGet s 63).toNat).isOk = true ∧ inTx s = false ∧ CanEnd s ∧ hazard s [] [63, 62, 63] = false := by
  unfold CanEnd; decide +kernel

/-- The placed group with what the conditions of a cond word are about. -/
def conditional : State :=
  let s := { queued 0 with fab := { ready.fab with windows := [⟨0, 65535, 15, 0xFF00, 0, true, 256, 0, 0, 7⟩],
                                                   pools := [⟨0, 65535, 4, 0, 0, 0, 0⟩] } }
  modSpan 2 (fun x => { x with bars := x.bars.set 15 ⟨0, true, false, 0, 2, none⟩ }) s

theorem witness_SlotsArm_cond : ∀ kind ∈ [0, 1, 2, 3], let s := conditional
    s.g.slots.length = 4 ∧ kind ≤ 3 ∧ hazard s [] [63] = false ∧ s.g.gid ≠ 0 ∧ s.g.residence = .resident ∧ 15 < barCount s ∧
    windowBound s 15 = true ∧ (s.g.queue 15).bind.isSome := by decide +kernel

/-- The placed group with slot 0 fired, slot 3 armed and the other slots empty. -/
def slotted : State :=
  { ready with g := (ready.g.setSlot 0 ⟨.fired, .word 0 0 0 false, false, 1, true⟩).setSlot 3 ⟨.armed, .word 0 0 0 false, false, 1, true⟩ }

theorem witness_WaitsHold_slots : let s := sSet 63 (BitVec.allOnes 64) slotted
    inTx s = false ∧ hazard s [] [63] = false ∧ CanEnd s ∧ sGet s 63 = BitVec.allOnes 64 ∧
    (∃ i ∈ namedSlots 15, (s.g.slot i).st ≠ .empty) ∧ (∃ i ∈ namedSlots 8, (s.g.slot i).st ≠ .empty) ∧
    (∃ i ∈ (namedSlots 15).filter (fun i => (s.g.slot i).st != .empty), (s.g.slot i).st = .fired) ∧
    (∀ i ∈ (namedSlots 3).filter (fun i => (s.g.slot i).st != .empty), (s.g.slot i).st = .fired) ∧
    ¬(∀ i ∈ (namedSlots 15).filter (fun i => (s.g.slot i).st != .empty), (s.g.slot i).st = .fired) ∧
    ¬(∃ i ∈ (namedSlots 8).filter (fun i => (s.g.slot i).st != .empty), (s.g.slot i).st = .fired) := by unfold CanEnd; decide +kernel

theorem witness_WaitsHold_counters : ready.g.cntL ≤ 0 ∧ ready.g.cntS ≤ 0 ∧ ready.g.cntC ≤ 0 ∧ ready.g.cntT ≤ 0 := by decide +kernel

theorem witness_WaitsHold_fence : inTx ready = false ∧ Quiet ready ∧ ready.g.cntL = 0 ∧ ready.g.cntC = 0 ∧ ready.g.cntT = 0 := by
  unfold Quiet; decide +kernel

theorem witness_WaitsHold_commit : inTx ready = false ∧ 127 ≤ ready.g.nregs ∧ splitCount ready ≤ 1 ∧ CanEnd ready ∧
    (∀ r ∈ pendingV ready none, 127 ≤ r) := by unfold CanEnd; decide +kernel

theorem witness_WaitsHold_beat : hazard ready [] [63] = false := by decide +kernel

theorem witness_TransactionWords_begin : inTx ready = false ∧ ready.g.tx = none ∧ Quiet ready := by unfold Quiet; decide +kernel

/-- The placed group inside a transaction. -/
def inside : State := { ready with g := { ready.g with tx := some ⟨1, 0, 0xFFFFFFFF, 0, [(0, 0xFFF0, 0)], [(1, 0xFFF8, 9)], [], 0, false, .running, []⟩ } }

theorem witness_TransactionWords_end : inside.g.tx = some ⟨1, 0, 0xFFFFFFFF, 0, [(0, 0xFFF0, 0)], [(1, 0xFFF8, 9)], [], 0, false, .running, []⟩ ∧
    inside.sp.num = 0 ∧ CanEnd inside ∧ (∀ d ∈ inside.ms.loads, d.gid ≠ inside.g.gid) ∧
    (∀ a ∈ [0xFFF0, 0xFFF8], (match accessIn inside inside.g.ctx ⟨false, false, false⟩ a with
      | .ok f => !isPoisoned inside f.phys
      | .error _ => false) = true) := by unfold CanEnd; decide +kernel

/-- The placed group of a context that may wait for quiescence. -/
def quiescing : State := modCtx 65535 (fun c => { c with quiesceRight := true }) (sSet 62 100 ready)

theorem witness_QuiescenceEnds_word : mayQuiesce quiescing = true ∧ hazard quiescing [] [62, 63] = false := by decide +kernel

/-- A settled state whose split waits for quiescence of the package or of the pod, at its deadline, the idle trees having been
high from the start of every die's clk. -/
noncomputable def awaitingIdle (pod : Bool) (clk : Nat) : State :=
  let s := unfocus (nextOf (if pod then exec (.quiescePod 62 63) quiescing else exec (.quiescePkg 62 63) quiescing))
  { s with tick := 100, dev := { s.dev with clkParts := [5 * clk, 5 * clk, 5 * clk, 5 * clk], idleFrom := [0, 0, 0, 0],
                                            podFrom := [0, 0, 0, 0] } }

theorem witness_QuiescenceEnds : ∀ pod ∈ [false, true], let u := inFocus 3 0 (awaitingIdle pod 2048)
    At (awaitingIdle pod 2048) 3 0 u ∧ u.sp.pend = [.quiesce pod 63 100] ∧ packageIdle u = true ∧ u.dev.podBusy = [] ∧
    highFor u u.dev.idleFrom 2048 = true ∧ 100 ≤ (awaitingIdle pod 2048).tick := by unfold At State.Settled; decide +kernel

theorem witness_QuiescenceEnds_pod : let u := inFocus 3 0 (awaitingIdle true (2 * Config.podTransit + 2048))
    highFor u u.dev.podFrom (2 * Config.podTransit + 2048) = true := by
  have h : ∀ n : Nat, let u := inFocus 3 0 (awaitingIdle true n)
      u.dev.podFrom = [0, 0, 0, 0] ∧ u.dev.clkParts = [5 * n, 5 * n, 5 * n, 5 * n] := fun n => ⟨rfl, rfl⟩
  simp [highFor, clkOf, h, List.range, List.range.loop, nthD]

/-! Branches, splits, special registers and traps. -/

theorem witness_BranchesJump : ∀ off ∈ [0, 0x7FFF], ready.iss.clause < 2 ^ 56 ∧ 0 ≤ (ready.iss.clause : Int) + 4 * toSigned 16 off ∧
    badTarget ready (target ready off) = false ∧ hazard ready [] [63] = false ∧
    badTarget (sSet 63 (BitVec.ofNat 64 ready.sp.pc) ready) (target ready off) = false := by decide +kernel

theorem witness_BranchesJump_register : let s := sSet 62 0x10000 ready
    hazard s [] [63, 62] = false ∧ hazard s [] [62] = false ∧ badTarget s (sGet s 62).toNat = false ∧
    badTarget (sSet 63 (BitVec.ofNat 64 s.sp.pc) s) (sGet s 62).toNat = false := by decide +kernel

/-- The placed group at a branch whose lanes disagree: lanes 0 and 31 in k7. -/
def diverging : State := kSet 7 0x80000001 ready

theorem witness_SplitsDivide_branch : inTx diverging = false ∧ CanEnd diverging ∧ badTarget diverging (branchTarget diverging 0) = false ∧
    splitCount diverging < 4 ∧ diverging.sp.member ≠ 0 ∧ diverging.sp.em &&& maskGet diverging 7 ≠ 0 ∧
    diverging.sp.em &&& ~~~ maskGet diverging 7 ≠ 0 ∧ diverging.sp.em &&& maskGet diverging 0 = 0 ∧ diverging.sp.em ≠ 0 ∧
    diverging.sp.em &&& ~~~ maskGet diverging 8 = 0 := by unfold CanEnd; decide +kernel

/-- The placed group with an open path, or after a division. -/
noncomputable def divided : State := nextOf (exec (.brv 7 0) diverging)

theorem witness_SplitsDivide_join : ∀ k ∈ [PathKind.path, .merge], let s := { ready with sp := { ready.sp with stack := [⟨k, 5, 0x40⟩, ⟨.path, 1, 0⟩] } }
    inTx s = false ∧ CanEnd s ∧ s.sp.stack = [⟨k, 5, 0x40⟩, ⟨.path, 1, 0⟩] ∧ inTx ready = false ∧ ready.sp.stack = [] ∧ splitCount ready ≤ 1 := by
  unfold CanEnd; decide +kernel

theorem witness_SplitsDivide_wait : inTx divided = false ∧ CanEnd divided ∧ divided.sp.stack = [] ∧ 1 < splitCount divided ∧
    divided.g.splits.any (fun p => !p.joining) = true := by unfold CanEnd; decide +kernel

theorem witness_SplitsDivide_exit : (emSet 5 ready).sp.member &&& ~~~ (emSet 5 ready).sp.em ≠ 0 ∧ CanEnd (emSet 5 ready) ∧
    ready.sp.member &&& ~~~ ready.sp.em = 0 ∧ ready.g.splits = [] ∧ CanEnd ready ∧ inTx ready = false := by unfold CanEnd; decide +kernel

theorem witness_SystemWords : hazard ready [] [63] = false ∧ 126 + 1 ≤ ready.g.nregs ∧ ready.g.live ≤ 126 ∧ hazard ready [126] [] = false := by
  decide +kernel

theorem witness_SystemWords_rng : poisonedLane ready [126] = none := by decide +kernel

theorem witness_SystemWords_fmode : (sGet (sSet 63 0x5 ready) 63).toNat % 8 < 6 := by decide +kernel

/-- The placed group as firmware. -/
def firmware : State := modViaduct 1 (fun v => { v with firmware := true }) ready

theorem witness_SystemWords_halt : isFirmware firmware = true ∧ firmware.sp.state = .running ∧ (∀ p ∈ firmware.g.splits, p.state = .running) := by
  decide +kernel

/-- A firmware group beside a group that a debugger holds, of viaduct 7. -/
def beside : State :=
  let v := { placedViaduct 7 [] with st := .debugParked }
  let g := { placedGroup 9 8 7 0 with splits := [{ Split.initial 1 0 0 [] with state := .debug }] }
  { firmware with groups := [g], viaducts := firmware.viaducts ++ [v], spans := firmware.spans ++ [placedSpan 8 7 0] }

theorem witness_SystemWords_eret : isFirmware beside = true ∧ heldSplit beside = some (9, 0) ∧ 9 ≠ beside.g.gid ∧
    (groupOf? beside 9).any (fun g => g.viaduct == 7) = true := by decide +kernel

/-- The placed group of a context with a debugger. -/
def debugged : State := modCtx 65535 (fun c => { c with debugger := true }) ready

theorem witness_SystemWords_brk : debuggerOn debugged = true ∧ debugged.sp.state = .running ∧ debugged.g.splits = [] := by decide +kernel

/-- A settled state whose group is halted, or held by a debugger. -/
def heldAt (st : SplitSt) (vst : ViaductSt) : State :=
  unfocus (modViaduct 1 (fun v => { v with st := vst }) { ready with sp := { ready.sp with state := st } })

theorem witness_SystemWords_doorbell : let s := heldAt .halted .started
    s.g.gid = 0 ∧ s.groups = [s.groups.headD Group.idle] ∧ (s.groups.headD Group.idle).gid ≠ 0 := by decide +kernel

theorem witness_SystemWords_resume : let s := heldAt .debug .debugParked
    let g := s.groups.headD Group.idle
    let v := s.viaducts.headD (placedViaduct 0 [])
    s.g.gid = 0 ∧ s.groups = [g] ∧ g.gid ≠ 0 ∧ g.viaduct = v.uid ∧ s.viaducts = [v] ∧ v.st = .debugParked := by decide +kernel

theorem witness_TrapsStopTheViaduct : debuggerOn ready = false ∧ ready.g.gid ≠ 0 ∧
    (viaductOf? ready ready.g.viaduct).any (fun v => v.st == .started && v.ctx == ready.g.ctx) = true ∧ (∀ g ∈ ready.groups, g.gid ≠ ready.g.gid) ∧
    (viaductOf? (takeTrap (plainTrap .user) ready) 1).isSome := by decide +kernel


/-! The fabric: the words of major C, windows, collectives and exchanges. -/

/-- The placed group with window 15 of its context on die 0, under key 5, its target pair in v(120) and a scalar that every word of
major C takes in s(63). -/
def windowed : State :=
  let s := { ready with fab := { ready.fab with windows := [⟨0, 65535, 15, 0xFF00, 5, true, 256, 0xFFFFFFFF, 0, 7⟩] } }
  sSet 63 0x200000001 (vSet 121 (fun l => BitVec.ofNat 32 (4 * l)) (vSet 120 (fun _ => 0xF0000) (emSet 0x80000001 s)))

theorem witness_FabricWordsGoOut : ∀ k ∈ [FabKind.collRed, .collBcast, .putWin], FabReady windowed k [(126, 1), (120, 2)] [126, 120, 121] [63] ∧
    windowed.sp.kept ≤ windowed.sp.replay := by unfold FabReady; decide +kernel

theorem witness_FabricWordsGoOut_pairs : ∀ l ∈ lanesOf windowed.sp.em, PairOk windowed 120 l true := by
  have h : ∀ l ∈ lanesOf windowed.sp.em, bitsOf (vGet windowed 120 l).toNat 11 0 / 4 = windowed.pkg ∧
      (windowOf? windowed windowed.g.die windowed.g.ctx (bitsOf (vGet windowed 120 l).toNat 19 16)).isSome ∧
      bitsOf (vGet windowed 120 l).toNat 15 12 = 0 ∧ bitsOf (vGet windowed 120 l).toNat 31 20 = 0 ∧
      (vGet windowed 121 l).toNat % 4 = 0 := by decide +kernel
  intro l hl
  obtain ⟨a, b, c, d, e⟩ := h l hl
  exact ⟨Or.inl a, b, c, d, fun _ => e⟩

theorem witness_FabricWordsGoOut_streams : StreamsOpen windowed 120 ∧
    (sGet windowed 63).toNat < 2 ^ 48 ∧ bitsOf (sGet windowed 63).toNat 15 12 = 0 ∧ bitsOf (sGet windowed 63).toNat 11 8 < 5 ∧
    bitsOf (sGet windowed 63).toNat 7 0 < 3 ∧ bitsOf (sGet windowed 63).toNat 31 1 = 0 := by unfold StreamsOpen; decide +kernel

theorem witness_FabricWordsGoOut_others : FabReady windowed .getWin [(126, 1), (120, 2)] [120, 121] [] ∧ windowed.g.live ≤ 124 ∧
    FabReady windowed .winAdd [(120, 2)] [120, 121] [63] ∧ FabReady windowed .mordFree [(120, 2)] [120, 121] [] := by
  unfold FabReady; decide +kernel

/-- The placed group with addresses of descriptors in v(116) and v(117), handles in v(112) and v(113), addresses of contributions in
v(114) and v(115), and a pool. -/
def pooled : State :=
  let s := { ready with fab := { ready.fab with pools := [⟨0, 65535, 0x8000FFF000000002, 1, 2, 3, 4⟩] } }
  vSet64 116 (fun l => BitVec.ofNat 64 (0xFFC0 - 64 * l)) (vSet64 114 (fun l => BitVec.ofNat 64 (0xFFFF - l)) (emSet 0x80000001 s))

theorem witness_FabricWordsGoOut_alloc : pooled.sp.kept ≤ pooled.sp.replay ∧ FabReady pooled .mordAlloc [(124, 2), (116, 2)] [116, 117] [] ∧ pooled.g.live ≤ 124 ∧
    (∀ l ∈ lanesOf pooled.sp.em, mordPlace pooled 64 l (vGet64 pooled 116 l) = .ok (0xFFC0 - 64 * l)) := by unfold FabReady; decide +kernel

theorem witness_FabricWordsGoOut_send : pooled.g.live ≤ 126 ∧ FabReady pooled .mordSend [(126, 1), (112, 4), (118, 1)] [112, 113, 114, 115, 118] [] ∧
    (∀ l ∈ lanesOf pooled.sp.em, mordPlace pooled 1 l (vGet64 pooled 114 l) = .ok (0xFFFF - l)) := by unfold FabReady; decide +kernel

theorem witness_FabricWordsGoOut_reads : ∀ k ∈ [FabKind.winRead, .histRead, .mordStat],
    FabReady (sSet 63 15 windowed) k [(126, 1)] [] (if k = .mordStat then [] else [63]) ∧ (sSet 63 15 windowed).g.live ≤ 126 ∧
    (windowOf? (sSet 63 15 windowed) 0 65535 15).isSome ∧ (sSet 63 15 windowed).g.die = 0 ∧ (sSet 63 15 windowed).g.ctx = 65535 ∧
    (sGet (sSet 63 15 windowed) 63).toNat % 16 = 15 := by unfold FabReady; decide +kernel

/-- The placed group of a viaduct of two groups a span, whose peer is group 1. -/
def paired : State :=
  sSet 63 0x100000000 (modViaduct 1 (fun v => { v with launch := { v.launch with sx := 64 } }) ready)

theorem witness_FabricWordsGoOut_xshf : inTx paired = false ∧ 126 + 1 ≤ paired.g.nregs ∧ paired.g.live ≤ 126 ∧ hazard paired [126, 0] [63] = false ∧
    poisonedLane paired [0] = none ∧ paired.sp.kept ≤ paired.sp.replay ∧ bitsOf (sGet paired 63).toNat 63 39 = 0 ∧
    peerExists paired (bitsOf (sGet paired 63).toNat 31 0) (bitsOf (sGet paired 63).toNat 38 32) = true ∧ paired.g.cntL < 63 := by decide +kernel

/-- A command of the fabric with one lane, 31, at window 15 of agent 0. -/
def command (kind : FabKind) (desc : W64) (off : Nat) (data : W64) (aux : Nat) (acked : Bool) : FabCmd :=
  ⟨4, 3, 65535, 0, false, 2, 0, 0, 0x40, 1, kind, 124, desc, 0, false, [⟨31, 0, 15, off, data, aux, 1, acked, false, false, 0, false⟩]⟩

/-- A settled state with that command in the engine, window 15 of 256 bytes under key 5 at the end of the page, and fab as given. -/
def serving (c : FabCmd) (fab : Fabric) : State :=
  { placed with
    fab := { fab with windows := [⟨0, 65535, 15, 0xFF00, 5, true, 256, 1, 0, 0xFFFFFFFF⟩] }
    eng := { placed.eng with fabs := [c] }
    groups := placed.groups.map (fun g => { g with cntL := 1, cntC := 1 })
    uid := 5 }

/-- The group of the command, its one lane, its window and the page of its word. -/
def groupAt (s : State) : Machine.Group := (groupOf? s 3).getD Group.idle
/-- The lane of a command of one lane. -/
def laneAt (c : FabCmd) : FabLane := c.lanes.headD ⟨0, 0, 0, 0, 0, 0, 0, false, false, false, 0, false⟩
/-- The leaf of an address of the placed context. -/
def leafAt (s : State) (n : Need) (va : Nat) : Leaf := okOf ⟨pteOf 0, 0, 0, 0, 0⟩ (accessIn s 65535 n va)

/-- The window record of the witnesses. -/
def windowFifteen : Window := ⟨0, 65535, 15, 0xFF00, 5, true, 256, 1, 0, 0xFFFFFFFF⟩

theorem witness_WindowsServe_lane : ∀ c ∈ [command .putWin 1 252 0x87654321 5 false, command .putWin 1 253 0x87654321 5 false,
      command .winAdd 0 0 0xFFFFFFFF 5 false, command .getWin 0 252 0 5 false],
    let s := serving c placed.fab
    let l := laneAt c
    LaneOf s (groupAt s) c l c.kind ∧ c.lanes = [l] ∧ targetWindow s 65535 l.agent l.win = some windowFifteen ∧
    (groupAt s).released = false ∧ l.lane < 32 ∧ (streamOf s 65535 0 0 15).has l.seq = false ∧ s.fab.resent = [] ∧ ForkOver s c := by
  unfold LaneOf ForkOver; decide +kernel

theorem witness_WindowsServe_put : let c := command .putWin 1 252 0x87654321 5 false
    let s := serving c placed.fab
    windowFifteen.admits 5 252 = true ∧ windowFifteen.admits 5 253 = false ∧ windowFifteen.admits 6 252 = false ∧
    c.waitsFor ≤ (streamOf s 65535 0 0 15).puts ∧ WordReady s 65535 0xFFFC (leafAt s needW 0xFFFC) := by unfold WordReady; decide +kernel

theorem witness_WindowsServe_broadcast : let c := command .collBcast 0xFFFF0000 252 0x87654321 5 false
    let s := serving c { placed.fab with tags := [⟨65535, 65535, 3, List.replicate 16 0, 0, 0, 0, 0⟩] }
    LaneOf s (groupAt s) c (laneAt c) .collBcast ∧ s.fab.resent = [] ∧ (tagOf? s c.ctx (bitsOf c.desc.toNat 31 16)).isSome ∧
    bcastWindows s c.ctx (laneAt c).win = [windowFifteen] ∧ WordReady s 65535 0xFFFC (leafAt s needW 0xFFFC) ∧ ForkOver s c := by
  unfold LaneOf WordReady ForkOver; decide +kernel

theorem witness_WindowsServe_get : let c := command .getWin 0 252 0 5 false
    let s := serving c placed.fab
    accessIn s 65535 needRd 0xFFFC = .ok (leafAt s needRd 0xFFFC) ∧ isPoisoned s (leafAt s needRd 0xFFFC).phys = false := by decide +kernel

theorem witness_WindowsServe_ack : let c := command .putWin 1 252 0x87654321 5 true
    let s := serving c placed.fab
    s.g.gid = 0 ∧ c.gid ≠ 0 ∧ c.kind.streams = true ∧ s.eng.fabs.find? (fun x => x.uid == c.uid) = some c ∧
    groupOf? s c.gid = some (groupAt s) ∧ c.lanes = [laneAt c] ∧ (laneAt c).applied = true ∧ (laneAt c).acked = false ∧
    localAgent s c.src = true ∧ localAgent s (laneAt c).agent = true ∧ (windowRec s 0 65535 15).isSome := by decide +kernel

theorem witness_WindowsServe_records : ∀ k ∈ [FabKind.winRead, .mordStat, .histRead], let c := command k 15 0 0 0 false
    let s := serving c { placed.fab with tags := [⟨65535, 15, 3, [7, 8], 0, 0, 0, 0⟩], pools := [⟨0, 65535, 0x8000FFF000000002, 1, 2, 3, 4⟩] }
    LaneOf s (groupAt s) c (laneAt c) k ∧ (c.lanes.map (fun x => x.lane)).Nodup ∧
    windowOf? s (c.src % 4) c.ctx (bitsOf c.desc.toNat 3 0) = some windowFifteen ∧
    poolOf? s (c.src % 4) c.ctx = some ⟨0, 65535, 0x8000FFF000000002, 1, 2, 3, 4⟩ ∧
    tagOf? s c.ctx (bitsOf c.desc.toNat 15 0) = some ⟨65535, 15, 3, [7, 8], 0, 0, 0, 0⟩ := by unfold LaneOf; decide +kernel

/-- A 32-bit integer sum for tag 65535 at flush time 2: the state has the tag and the partial results given. -/
def summing (ps : List Partial) : State :=
  serving (command .collRed 0x2FFFF0300 252 0xFFFFFFFE 5 false)
    { placed.fab with tags := [⟨65535, 65535, 3, List.replicate 16 0, 0, 0, 0, 0⟩], partials := ps }

/-- A partial result of tag 65535 for a word of an agent. -/
def part (uid count agent : Nat) : Partial :=
  ⟨uid, 65535, 65535, agent, 15, 252, 1, 3, 0, 5, count, 0, 2, false, false, 0, [], false, 3, false, false, noTrap,
    engineRec placed (groupAt placed) 0 31 5 0 ⟨0, false, 0⟩⟩

theorem witness_CollectivesCombine_lane : ∀ s ∈ [summing [], summing [part 1 1 0]],
    let c := s.eng.fabs.headD (command .collRed 0 0 0 0 false)
    LaneOf s (groupAt s) c (laneAt c) .collRed ∧ c.lanes = [laneAt c] ∧ tagOf? s 65535 65535 = some ⟨65535, 65535, 3, List.replicate 16 0, 0, 0, 0, 0⟩ ∧
    bitsOf c.desc.toNat 31 16 = 65535 ∧ targetWindow s 65535 (laneAt c).agent (laneAt c).win = some windowFifteen ∧
    windowFifteen.admits (laneAt c).aux (laneAt c).off = true ∧ ForkOver s c ∧ contributions s c (laneAt c) = 0 ∧ (∀ p ∈ s.fab.partials, p.uid < s.uid) := by
  unfold LaneOf ForkOver; decide +kernel

theorem witness_CollectivesCombine : let c := command .collRed 0x2FFFF0300 252 0xFFFFFFFE 5 false
    (summing []).fab.partials.find? (switchHolds c (laneAt c) 1) = none ∧
    (summing [part 1 1 0]).fab.partials.find? (switchHolds c (laneAt c) 1) = some (part 1 1 0) ∧
    (summing [part 1 1 0]).fab.partials.find? (fun x => x.uid == 1) = some (part 1 1 0) ∧ (part 1 1 0).gone = false ∧
    (part 1 1 0).count + 1 < 3 ∧ (part 1 1 0).routine = 0 ∧ (part 1 1 0).typ = 3 := by decide +kernel

theorem witness_CollectivesCombine_flush : ∀ agent ∈ [0, 4], let s := { summing [part 1 2 agent] with tick := 513 }
    s.fab.partials.find? (fun x => x.uid == 1) = some (part 1 2 agent) ∧ (part 1 2 agent).forwarded = false ∧ (part 1 2 agent).gone = false ∧
    (part 1 2 agent).count < memberCount s 65535 65535 ∧ (part 1 2 agent).first + flushTicks s (part 1 2 agent) < s.tick ∧
    (localAgent s agent = true ↔ agent = 0) ∧ (∀ q ∈ s.fab.partials, q.forwarded = false) := by decide +kernel

/-- A settled state with two groups of one span that wait for each other, in lanes 0 and 31 and lanes 1 and 31. -/
def exchanging : State :=
  let side (gid index d : Nat) (em : W) (grp : Nat) : Machine.Group :=
    { placedGroup gid 2 1 0 with index := index, cntL := 1, splits := [{ Split.initial (BitVec.allOnes 32) 0 0 [] with em := em, pend := [.xshf d 7 0 grp 0] }] }
  { placed with groups := [side 3 0 126 0x80000001 1, side 4 1 0 0x80000002 0], uid := 5 }

/-- A group of a state by its number. -/
def groupNo (n : Nat) (s : State) : Machine.Group := (groupOf? s n).getD Group.idle
/-- The first split of a group. -/
def firstSplit (g : Machine.Group) : Split := g.splits.headD Split.idle

theorem witness_ExchangesComplete : let s := exchanging
    let g := groupNo 3 s
    let h := groupNo 4 s
    s.Settled ∧ (∀ x ∈ s.groups, x.gid ≠ 0) ∧ g.gid = 3 ∧ h.gid = 4 ∧ g.splits = [firstSplit g] ∧ h.splits = [firstSplit h] ∧
    (firstSplit g).member ≠ 0 ∧ (firstSplit h).member ≠ 0 ∧ (firstSplit g).pend = [.xshf 126 7 (linOf s h) h.index 0] ∧
    (firstSplit h).pend = [.xshf 0 7 (linOf s g) g.index 0] ∧ peerOf? s g (linOf s h) h.index = some h ∧ peerOf? s h (linOf s g) g.index = some g ∧
    jilted s g = false ∧ jilted s h = false ∧ g.residence = .resident ∧
    h.residence = .resident ∧ g.stopped = false ∧ h.stopped = false ∧ g.die = h.die := by unfold State.Settled; decide +kernel

theorem witness_ExchangesComplete_timeout : let s := { exchanging with tick := 2 ^ 24 }
    At s 3 0 (inFocus 3 0 s) ∧ (firstSplit (groupNo 3 s)).pend = [.xshf 126 7 0 1 0] ∧ 0 + 2 ^ 24 ≤ s.tick := by
  unfold At State.Settled; decide +kernel

/-- A pool of two f32 elements, or bf16 elements, a token. -/
def poolOf (cfmt : Nat) : Pool := ⟨0, 65535, BitVec.ofNat 64 (0x8000FFF000000002 + cfmt * 2 ^ 28), 0, 0, 0, 0⟩

/-- A descriptor of three experts, whose token of bf16 goes to the last word of the page and counts at window 15. -/
def descriptor : MordDesc := ⟨0xFFFC, 9, 3, 0, 1, 1, 15, [5, 9, 65535], [0x3F800000, 0x40000000, 0x3F000000], 0⟩

/-- Slot 1 of the pool, in its last generation. -/
def token (st : MordSt) (n : Nat) (received : List Nat) : MordSlot :=
  ⟨0, 65535, 1, 0x7FFFFFFF, st, descriptor, [0x3F800000, 0x40400000], n, received, [], 9, 1, 2, 3, false, 0, false, 0, false, noTrap,
    engineRec placed (groupAt placed) 0 31 5 0 ⟨0, false, 0⟩⟩

/-- A settled state with a command, that pool and that slot after slot 0, which is taken. -/
def holding (c : FabCmd) (m : MordSlot) : State :=
  serving c { placed.fab with pools := [poolOf 1], slots := [{ token .opened 0 [] with num := 0 }, m] }

/-- The same with the descriptor in the last 64 bytes of the page. -/
def describing : State :=
  wrBytes 0x6FFC0 (natToBytes 8 0xFFFC ++ natToBytes 4 9 ++ [3, 1, 0x3D, 0, 5, 0, 9, 0, 255, 255] ++ List.replicate 10 0 ++
    natToBytes 4 0x3F800000 ++ natToBytes 4 0x40000000 ++ natToBytes 4 0x3F000000)
    (holding (command .mordAlloc 0 0xFFC0 0 0 false) (token .free 0 []))

theorem witness_MordantTokensLive_alloc : let s := describing
    let c := command .mordAlloc 0 0xFFC0 0 0 false
    LaneOf s (groupAt s) c (laneAt c) .mordAlloc ∧ poolOf? s 0 65535 = some (poolOf 1) ∧ inMemory 0xFFC0 = true ∧ 0xFFC0 % 64 = 0 ∧
    (accessIn s 65535 needRd 0xFFC0).isOk = true ∧ rangePoisoned s 65535 0xFFC0 64 = false ∧ ForkOver s c ∧
    mordDesc (rdBytes s (leafAt s needRd 0xFFC0).phys 64) = descriptor ∧ descriptor.relKind ≠ 2 ∧
    badMordDesc (rdBytes s (leafAt s needRd 0xFFC0).phys 64) (((viaductOf? s 1).map (fun v => v.launch.spanCount)).getD 0) = false ∧
    freeSlot s 0 65535 (poolOf 1).slots = some (1, 0x7FFFFFFF) := by unfold LaneOf ForkOver; decide +kernel

/-- A contribution of expert e to that slot, at the last word of the page. -/
def sending (e n : Nat) (received : List Nat) : State :=
  wrBytes 0x6FFFC [0x00, 0x40, 0x80, 0xBF] (holding (command .mordSend 0 0xFFFC (mordHandle 0 0 1 0x7FFFFFFF) e false) (token .opened n received))

/-- Whether an engine's read gives these bytes. -/
def Machine.Fetched.gives (f : Fetched) (bs : List Byte) : Bool :=
  match f with
  | .bytes xs => xs == bs
  | .fault _ _ => false
  | .unreadable => false
  | .wait => false

theorem witness_MordantTokensLive_send : ∀ x ∈ [(5, 0, ([] : List Nat)), (65535, 0, []), (9, 1, [0])], let s := sending x.1 x.2.1 x.2.2
    let c := s.eng.fabs.headD (command .mordSend 0 0 0 0 false)
    let l := laneAt c
    let m := token .opened x.2.1 x.2.2
    LaneOf s (groupAt s) c l .mordSend ∧ c.lanes = [l] ∧ handlePool? s 65535 l.data = some (poolOf 1, 1, 0x7FFFFFFF) ∧
    l.off % mordBytes (poolOf 1).cfmt = 0 ∧ Machine.Fetched.gives (mordRead s c l.off (mordBytes (poolOf 1).cfmt * (poolOf 1).elems)) [0x00, 0x40, 0x80, 0xBF] = true ∧
    SlotAt s 1 m ∧ liveSlot? s (poolOf 1) 1 0x7FFFFFFF = some m ∧ s.tick < m.deadline ∧
    (m.desc.experts.findIdx? (fun e => e == l.aux)).any (fun pos => !memNat pos m.received) = true := by unfold LaneOf SlotAt; decide +kernel

theorem witness_MordantTokensLive_send_order : descriptor.experts.findIdx? (fun e => e == 5) = some 0 ∧
    descriptor.experts.findIdx? (fun e => e == 65535) = some 2 ∧ descriptor.experts.findIdx? (fun e => e == 9) = some 1 ∧ 1 + 1 < descriptor.k ∧
    parkedCount (sending 65535 0 []) 0 65535 < (poolOf 1).park := by decide +kernel

/-- A settled state that frees that slot. -/
def freeing : State := holding (command .mordFree 0 0 (mordHandle 0 0 1 0x7FFFFFFF) 0 false) (token .opened 1 [0])

theorem witness_MordantTokensLive_free : let s := freeing
    let c := s.eng.fabs.headD (command .mordFree 0 0 0 0 false)
    LaneOf s (groupAt s) c (laneAt c) .mordFree ∧ handlePool? s 65535 (laneAt c).data = some (poolOf 1, 1, 0x7FFFFFFF) ∧
    SlotAt s 1 (token .opened 1 [0]) ∧ liveSlot? s (poolOf 1) 1 0x7FFFFFFF = some (token .opened 1 [0]) := by unfold LaneOf SlotAt; decide +kernel

/-- A settled state with that slot, past its deadline, as given. -/
def expired (m : MordSlot) : State := { holding (command .mordFree 0 0 0 0 true) m with tick := 9 }

theorem witness_MordantTokensLive_deadline : SlotAt (expired (token .opened 1 [0])) 1 (token .opened 1 [0]) ∧ (token .opened 1 [0]).deadline ≤ 9 := by
  unfold SlotAt; decide +kernel

theorem witness_MordantTokensLive_release : ∀ m ∈ [{ token .releasing 3 [0, 1, 2] with fail := true }, token .releasing 3 [0, 1, 2],
      { token .releasing 3 [0, 1, 2] with write := 4 }], let s := expired m
    SlotAt s 1 m ∧ (accessIn s m.ctx needW m.desc.dest).isOk = true ∧ m.bytes ≠ [] ∧ lineWaits s (leafAt s needW m.desc.dest) m.desc.dest = false ∧
    m.desc.dest % 128 + m.bytes.length ≤ 128 ∧ (leafAt s needW m.desc.dest).phys % 128 = m.desc.dest % 128 ∧
    actingHome s (leafAt s needW m.desc.dest) = none ∧ isPoisoned s (leafAt s needW m.desc.dest).phys = false ∧
    m.held = false ∧ (∀ v ∈ s.ms.invals, v.writer.cls ≠ .store m.write) ∧ m.desc.relKind = 1 ∧ windowOf? s 0 65535 15 = windowRec s 0 65535 15 ∧ (windowRec s 0 65535 15).isSome := by
  unfold SlotAt; decide +kernel

/-! Watches, caches and pages. -/

/-- A watch registration of slot 3 for the last doubleword of the page, lower than x. -/
def registration (x : Nat) : WatchReg := ⟨4, 3, 0, 3, 1, 0xFFF8, 4, BitVec.ofNat 64 x, true, false, false⟩

/-- A watch entry in the table or the overflow list of the slice of that word. -/
def entryAt (uid : Nat) (inList : Bool) (addr : Nat) : WatchEntry :=
  ⟨uid, 0, sliceOf (leafAt placed needRd 0xFFF8) 0xFFF8, inList, addr, 8, (leafAt placed needRd 0xFFF8).dom, 65535, 0, 0, 3, true, 4, 1, 0, none⟩

/-- A settled state with the registration on its way and some entries. -/
def registering (x : Nat) (es : List WatchEntry) : State :=
  { placed with wat := { placed.wat with regs := [registration x], entries := es }, uid := 5 }

theorem witness_WatchesFire_registration : ∀ x ∈ [0, 1], let s := registering x []
    RegistrationAt s (registration x) (groupAt s) (leafAt s needRd 0xFFF8) ∧
    (!isPoisoned s (leafAt s needRd 0xFFF8).phys && cmpHolds 4 true (wordAt s (leafAt s needRd 0xFFF8).phys true) (registration x).x) = (x == 1) ∧
    placeEntry? s (homeAgent (leafAt s needRd 0xFFF8)) (sliceOf (leafAt s needRd 0xFFF8) 0xFFF8) 65535 false = some false := by
  unfold RegistrationAt; decide +kernel

/-- The context's quotas of the slice are used up. -/
def crowded : State := registering 0 (List.replicate 64 (entryAt 1 false 0) ++ List.replicate 1024 (entryAt 1 true 0))

theorem witness_WatchesFire_list : let s := registering 0 (List.replicate 64 (entryAt 1 false 0))
    RegistrationAt s (registration 0) (groupAt s) (leafAt s needRd 0xFFF8) ∧
    placeEntry? s (homeAgent (leafAt s needRd 0xFFF8)) (sliceOf (leafAt s needRd 0xFFF8) 0xFFF8) 65535 false = some true := by
  unfold RegistrationAt; decide +kernel

theorem witness_WatchesFire_full : let s := crowded
    RegistrationAt s (registration 0) (groupAt s) (leafAt s needRd 0xFFF8) ∧
    placeEntry? s (homeAgent (leafAt s needRd 0xFFF8)) (sliceOf (leafAt s needRd 0xFFF8) 0xFFF8) 65535 false = none := by
  unfold RegistrationAt; decide +kernel

/-- A settled state whose group has slot 3 armed at a generation, with a fire on its way. -/
def fired (gen : Nat) : State :=
  { placed with groups := placed.groups.map (fun g => g.setSlot 3 ⟨.armed, .word 0xFFF8 4 8 true, false, gen, false⟩)
                wat := { placed.wat with fires := [⟨4, 65535, 0, 3, 255, true⟩], entries := [entryAt 5 false 0xFFF8, { entryAt 6 true 0xFFF8 with slot := 2 }] } }

theorem witness_WatchesFire_delivery : ∀ gen ∈ [255, 0], let s := fired gen
    s.g.gid = 0 ∧ (groupAt s).gid = 3 ∧ s.wat.fires.find? (fun y => y.uid == 4) = some ⟨4, 65535, 0, 3, 255, true⟩ ∧
    groupOf? s (groupAt s).gid = some (groupAt s) ∧ (allGroups s).find? (fun h => h.ctx == 65535 && h.lslot == 0 && !h.released) = some (groupAt s) ∧
    (groupAt s).residence = .resident ∧ (groupAt s).slots[3]? = some ⟨.armed, .word 0xFFF8 4 8 true, false, gen, false⟩ := by decide +kernel

/-- A settled state whose overflow list is being scanned after a write of one byte. -/
def scanning : State :=
  { placed with wat := { placed.wat with
      entries := [entryAt 5 true 0xFFF8, entryAt 6 true 0xFFF0, { entryAt 7 true 0xFFF8 with operand := 0 }, entryAt 8 false 0xFFF8]
      scans := [⟨0, sliceOf (leafAt placed needRd 0xFFF8) 0xFFF8, (leafAt placed needRd 0xFFF8).dom, 0xFF80,
        lineOf (leafAt placed needRd 0xFFF8).phys, [(127, 0)]⟩] } }

theorem witness_WatchesFire_scan : let s := scanning
    let c := s.wat.scans.headD ⟨0, 0, 0, 0, 0, []⟩
    s.wat.scans.find? (fun c => c.home == agentOf s 0 && c.slice == sliceOf (leafAt placed needRd 0xFFF8) 0xFFF8) = some c ∧
    (entryAt 5 true 0xFFF8 ∈ s.wat.entries) ∧
    cmpHolds (entryAt 5 true 0xFFF8).cmp true (wordAt s (c.phys + 0xFFF8 % 128) true) (entryAt 5 true 0xFFF8).operand = true ∧ (s.wat.entries.map WatchEntry.uid).Nodup ∧
    (∀ e ∈ s.wat.entries, e.packet = none) := by decide +kernel

/-- A settled state whose split waits for slot 3 until tick 9. -/
def waitingSlot : State :=
  { unfocus { ready with g := ready.g.setSlot 3 ⟨.armed, .word 0xFFF8 4 8 true, false, 1, true⟩, sp := { ready.sp with pend := [.slotWait 8 false (some 9), .acquire .pod] } } with tick := 9 }

theorem witness_WatchesFire_deadline : let u := inFocus 3 0 waitingSlot
    At waitingSlot 3 0 u ∧ u.sp.pend = [.slotWait 8 false (some 9), .acquire .pod] ∧ u.g.residence = .resident ∧
    9 ≤ waitingSlot.tick ∧ namedSlots 8 ≠ [] ∧
    (∀ i ∈ namedSlots 8, (u.g.slot i).st = .armed ∧ (u.g.slot i).answered = true) := by unfold At State.Settled; decide +kernel

/-- The same, the group saved. -/
def waitingSaved : State := { waitingSlot with groups := waitingSlot.groups.map (fun g => { g with residence := .saved }) }

theorem witness_WatchesFire_saved : let u := inFocus 3 0 waitingSaved
    At waitingSaved 3 0 u ∧ u.g.residence ≠ .resident := by unfold At State.Settled; decide +kernel

/-- R331: the wait of a saved group that has been restored ends with bits 8 and 9 of %wstat. -/
theorem test_restored_wait : (endWait 8 true { ready with sp := { ready.sp with restored := true } }).g.wstat = 0x300 := by
  decide +kernel

/-- A context that is being destroyed, with entries in two slices. -/
def purging : State :=
  { State.reset with ten := { State.reset.ten with dying := [(placedContext, [0])] }
                     wat := { State.reset.wat with entries := [{ entryAt 5 true 0xFFF8 with home := 3, slice := 255 }, { entryAt 6 true 0 with home := 3, slice := 254 }] } }

theorem witness_WatchesFire_purge : purging.ten.dying.find? (fun d => d.1.num == 65535) = some (placedContext, [0]) ∧ 3 * 256 + 255 ∉ [0] ∧
    ([0] : List Nat).length + 1 ≠ 1024 ∧ (purging.wat.entries.map WatchEntry.uid).Nodup := by decide +kernel

/-- A settled state whose group is saved and has been woken. -/
def wokenUp : State := { placed with groups := placed.groups.map (fun g => { g with residence := .saved, wakePending := [3] }) }

theorem witness_WatchesFire_wake : wokenUp.groups = [groupAt wokenUp] ∧ wokenUp.g.gid = 0 ∧ (groupAt wokenUp).residence = .saved ∧
    (groupAt wokenUp).wakePending ≠ [] := by decide +kernel

/-- The settled machine with its page cacheable. -/
def cached : State := { placed with mem := storePte 0x50000 { openLeaf 0 6 with c := true } placed.mem }

/-- The leaf of that page. -/
def lastLine : Leaf := leafAt cached ⟨false, false, false⟩ 0xFF80

/-- A settled state whose last line of the page has these coherence bits and remote holders. -/
def sharing (side : Nat) (holders : List (Nat × RdcSt)) : State :=
  setSide 0x6FF80 side { cached with ms := { cached.ms with
    rdc := holders.map (fun h => ⟨h.1, sliceOf lastLine 0xFF80, lastLine.dom, 0xFF80, h.2, List.replicate 128 0, [0, 0, 0, 0], 0⟩) } }

theorem witness_CoherenceActs_leaf : lastLine.phys = 0x6FF80 ∧ lastLine.pte.c = true ∧ lastLine.pte.wp = false ∧ homeAgent lastLine = 0 ∧
    0xFF80 % 128 = 0 ∧ leafOfDom cached lastLine.dom 0xFF80 = some (65535, lastLine) := by decide +kernel

theorem witness_CoherenceActs_gets : ∀ x ∈ [(mkSide 0 0 0 false, []), (mkSide 0 0 0 true, []), (mkSide 4 5 0 false, [(5, RdcSt.m)])], let s := sharing x.1 x.2
    leafOfDom s lastLine.dom 0xFF80 = some (65535, lastLine) ∧ granuleMoving s lastLine.dom 0xFF80 = false ∧ invalPending s lastLine.dom 0xFF80 = false ∧ s.ms.getxs = [] ∧
    sideBits s lastLine.phys = x.1 ∧ ((sideSt x.1 = 0) ∨ (sideSt x.1 = 4 ∧ sideOwner x.1 ≠ 4095)) := by decide +kernel

theorem witness_CoherenceActs_getx : ∀ x ∈ [(mkSide 0 0 0 false, []), (mkSide 4 5 0 false, [(5, RdcSt.m)])], let s := sharing x.1 x.2
    leafOfDom s lastLine.dom 0xFF80 = some (65535, lastLine) ∧ lineWaits s lastLine 0xFF80 = false ∧ invalPending s lastLine.dom 0xFF80 = false ∧
    bitOf (sideBits s lastLine.phys) 0 = false ∧ heldElsewhere s lastLine.dom 0xFF80 4095 = !x.2.isEmpty ∧ sideSt (sideBits s lastLine.phys) ≠ 7 := by
  decide +kernel

/-- A request to own that line, whose invalidations are on their way or all acknowledged. -/
def owning (pending : Bool) : State :=
  let s := sharing (mkSide 1 0 5 false) []
  { s with ms := { s.ms with getxs := [(4095, lastLine.dom, 0xFF80)]
                             invals := if pending then [⟨4, 5, lastLine.dom, 0xFF80, 0, .none, 16, false⟩] else [] } }

theorem witness_CoherenceActs_getx_waiting : ∀ b : Bool, leafOfDom (owning b) lastLine.dom 0xFF80 = some (65535, lastLine) ∧
    (4095, lastLine.dom, 0xFF80) ∈ (owning b).ms.getxs ∧ invalPending (owning b) lastLine.dom 0xFF80 = b ∧
    sideSt (sideBits (owning b) lastLine.phys) ≠ 7 := by decide +kernel

theorem witness_CoherenceActs_wrh : let s := sharing (mkSide 0 0 0 false) []
    leafOfDom s lastLine.dom (lineOf 0xFFFE) = some (65535, lastLine) ∧ localAgent s 4095 = false ∧ lastLine.pte.w = true ∧
    HomeReady s lastLine 0xFFFE 2 := by unfold HomeReady; decide +kernel

theorem witness_CoherenceActs_put : (∀ x ∈ [(4, RdcSt.m), (3, RdcSt.e)], let s := sharing (mkSide x.1 5 0 true) [(5, x.2)]
    leafOfDom s lastLine.dom 0xFF80 = some (65535, lastLine) ∧ sideOwner (sideBits s lastLine.phys) = 5 ∧ heldAs s 5 lastLine.dom 0xFF80 = some x.2 ∧
    sideSt (sideBits s lastLine.phys) = x.1) := by decide +kernel

/-- An invalidation of that line on its way to agent 5, or on its way back. -/
def invalidating (acked : Bool) : State :=
  { sharing (mkSide 4 5 0 false) [(5, .m)] with ms := { (sharing (mkSide 4 5 0 false) [(5, .m)]).ms with invals := [⟨4, 5, lastLine.dom, 0xFF80, 0, .none, 16, acked⟩] } }

theorem witness_CoherenceActs_inval : (invalidating false).ms.invals.find? (fun x => x.uid == 4 && !x.acked) = some ⟨4, 5, lastLine.dom, 0xFF80, 0, .none, 16, false⟩ ∧
    ⟨4, 5, lastLine.dom, 0xFF80, 0, .none, 16, true⟩ ∈ (invalidating true).ms.invals := by decide +kernel

theorem witness_CoherenceActs_walk : (accessIn placed 65535 ⟨false, false, false⟩ 0xFFFF).isOk = true := by decide +kernel

/-- A machine of full function with the cacheable page and its group placed. -/
def managed : State := { cached with dev := { cached.dev with stage := 4 } }

/-- A mapping of the last page of the table to frame 7, for a function. -/
def mapping (func : Nat) : MapReq :=
  ⟨func, 0xFFFFFF, 65535, 0x1FFF0000, 3, BitVec.ofNat 64 { openLeaf 0 7 with c := true }.toNat, 1, []⟩

/-- The state in which the frame of that mapping is given out. -/
def mapGiven (s : State) : State := givenOut s (7 * 65536) 65536

/-- What makePath answers for it: the entry's address. -/
def entryOf (s : State) : Nat := (okOf (0, [], s) (makePath placedContext 3 0x1FFF0000 3 placedRoot [] (mapGiven s))).1

theorem witness_PagesManaged_map : let s := managed
    let p := pteOf (mapping 0).leaf.toNat
    MapsFree s 0 ∧ ctxOf? s 65535 = some placedContext ∧ placedContext.stage2 = 0 ∧ p.hpkg * 2 ^ 39 + p.frame * 65536 = 7 * 65536 ∧
    leafGood placedContext 3 0x1FFF0000 1 p = true ∧ firmwareOwns s (7 * 65536) 65536 = false ∧
    makePath placedContext 3 0x1FFF0000 3 placedRoot [] (mapGiven s) = .ok (entryOf s, [], mapGiven s) ∧
    aliased (wrNat (entryOf s) 8 p.toNat (mapGiven s)) placedContext [0x1FFF0000] = false ∧
    placedContext.func = 0 := by unfold MapsFree; decide +kernel

theorem witness_PagesManaged_waiting : ownsCtx managed 1 65535 = false ∧ (∀ q ∈ managed.front.mmWaits, q.func ≠ 1) ∧
    ∃ q ∈ ({ managed with front := { managed.front with mmWaits := [.map (mapping 1)] } } : State).front.mmWaits, q.func = 1 := by
  decide +kernel

/-- The same with an open fault of that page. -/
def faulted : State := { managed with ms := { managed.ms with openFaults := [⟨65535, 0x1FFF0000, 0, 0, false, 1⟩] } }

theorem witness_PagesManaged_resolve : let s := faulted
    MapsFree s 0 ∧ (∃ f ∈ s.ms.openFaults, f.ctx = 65535 ∧ f.page = pageOf 0x1FFF0000 ∧ f.cause ≠ 3) ∧
    makePath placedContext 3 0x1FFF0000 3 placedRoot [] (mapGiven s) = .ok (entryOf s, [], mapGiven s) ∧
    aliased (wrNat (entryOf s) 8 (pteOf (mapping 0).leaf.toNat).toNat (mapGiven s)) placedContext [0x1FFF0000] = false := by
  unfold MapsFree; decide +kernel

/-- The leaf entry of the placed page. -/
def leafRec (s : State) : Pte × Nat × Nat := (leafEntry? s placedContext 0).getD (pteOf 0, 0, 0)

theorem witness_PagesManaged_change : let s := managed
    let r := leafRec s
    let p : Pte := { r.1 with rd := true, w := false, x := false }
    MapsFree s 0 ∧ leafEntry? s placedContext 0 = some r ∧ aliased (wrNat r.2.2 8 0 s) placedContext [0] = false ∧
    p.isPointer = false ∧ p.badLeaf r.2.1 = false ∧ aliased (wrNat r.2.2 8 p.toNat s) placedContext [0] = false := by
  unfold MapsFree; decide +kernel

/-- The machine with a run of 32 pages from 0x200000 on, in frames 32 to 63, their run bits set or not. -/
def inRun (run : Bool) : State :=
  let m := (List.range 32).foldl (fun k i => storePte (0x50000 + 8 * (32 + i)) { openLeaf 0 (32 + i) with run := run } k) managed.mem
  { managed with mem := m }

/-- The state after the run bits of those pages take a value. -/
def runSet (s : State) (run : Bool) : State :=
  (List.range 32).foldl (fun v i =>
    let e := pteOf (rdNat v (0x50000 + 8 * (32 + i)) 8)
    if e.v && !e.isPointer then wrNat (0x50000 + 8 * (32 + i)) 8 { e with run := run }.toNat v else v) s

theorem witness_PagesManaged_run : ∀ run : Bool, let s := inRun (!run)
    let r := (leafEntry? s placedContext 0x200000).getD (pteOf 0, 0, 0)
    MapsFree s 0 ∧ leafEntry? s placedContext 0x200000 = some r ∧ r.2.1 = 3 ∧ runBase r.2.1 r.2.2 = 0x50000 + 8 * 32 ∧
    (run = true → isRun (runSet s run) r.2.1 r.2.2 = true) ∧ aliased (runSet s run) placedContext [0x200000] = false := by
  unfold MapsFree; decide +kernel

/-- The machine with a second stage, whose tables stand at 0x70000, in frames 8 and 9, and map the placed ones to themselves. -/
def nested : State :=
  let ptr (f : Nat) : Pte := pointerTo f
  let m := storePte 0x80000 (ptr 9) (storePte 0x70000 (ptr 8) managed.mem)
  let m := [2, 3, 4, 5, 6].foldl (fun k f => storePte (0x90000 + 8 * f) (openLeaf 0 f) k) m
  modCtx 65535 (fun c => { c with stage2 := 0x70000 }) { managed with mem := m }

theorem witness_PagesManaged_stage2 : let s := nested
    let c := (ctxOf? s 65535).getD placedContext
    let e := stage2Entry s 0x1FFF0000 3 c.stage2
    let w := BitVec.ofNat 64 (openLeaf 0 7).toNat
    let u := wrNat e.1 8 w.toNat (givenOut s (7 * 65536) 65536)
    MapsFree s 0 ∧ ctxOf? s 65535 = some c ∧ c.stage2 ≠ 0 ∧ e.2 = 3 ∧ stage2Legal e.2 0x1FFF0000 (pteOf w.toNat) = true ∧
    (pteOf w.toNat).v = true ∧ firmwareOwns s (7 * 65536) 65536 = false ∧
    aliased u c (pagesOf u c) = false ∧ pagesOf u c ≠ [] := by unfold MapsFree; decide +kernel

/-- The machine with a segment. -/
def segmented : State := { managed with ten := { managed.ten with segments := [⟨0x20000000, 65536, 4096, 0⟩] } }

theorem witness_PagesManaged_segment : MapsFree segmented 0 ∧ domainUnused segmented 65535 = true ∧ placedContext.segs.length < 64 ∧
    (∀ g ∈ segmented.ten.segments, g.id ≠ 65535 ∧ meets g.base g.size (2 ^ 56 - 65536) 65536 = false) ∧
    (∀ x ∈ placedContext.segs, meets x.base x.size 0x20000000 65536 = false) ∧
    segmented.ten.segments.find? (fun x => x.id == 4096) = some ⟨0x20000000, 65536, 4096, 0⟩ := by unfold MapsFree; decide +kernel

/-- A machine with a record that asks for the placed page on agent 1. -/
def migrating : State := { managed with ms := { managed.ms with migs := [⟨0, lastLine.dom, 0, 1, 9, 0⟩] } }

theorem witness_PagesManaged_migrate : let s := migrating
    let l := okOf lastLine (walkVa s placedContext 0)
    let r := (leafEntry? (moveFrame l.dom 0 l.phys (2 ^ 21 * 65536) false s) placedContext 0).getD (pteOf 0, 0, 0)
    Memory.wf s.mem = true ∧ s.wq = [] ∧ placedContext.stage2 = 0 ∧ (walkVa s placedContext 0).isOk = true ∧
    s.ms.migs.find? (fun m => m.vaddr == 0 && m.dom == l.dom) = some ⟨0, lastLine.dom, 0, 1, 9, 0⟩ ∧
    mayMigrate s ⟨0, lastLine.dom, 0, 1, 9, 0⟩ placedContext l 0 (2 ^ 21) = true ∧ pageBusy s l.dom 0 65536 = false ∧
    l.phys + 65536 ≤ 2 ^ 21 * 65536 ∧ r.2.1 = 3 ∧ r.2.2 + 8 ≤ 2 ^ 21 * 65536 := by decide +kernel

theorem witness_PagesManaged_host : mayActOn managed 0 65535 = true ∧ HomeReady managed (leafAt managed ⟨false, false, false⟩ 0xFFFE) 0xFFFE 2 ∧
    (readVa managed 65535 ⟨false, false, false⟩ 0xFF00 256).isOk = true ∧ rangePoisoned managed 65535 0xFF00 256 = false := by
  unfold HomeReady; decide +kernel

/-! Spans, contexts and owners. -/

/-- A launch of spans of two groups and eight spans, of every resource some. -/
def smallLaunch : Launch :=
  { placedLaunch with entry := 0x40, vdx := 200, sx := 40, vregs := 100, store := 4, plane := 2, fmode := 13, vid := 7 }

/-- A context with a group quota. -/
def roomy : Context := { placedContext with num := 9, lslots := 64, sslots := 8, seed := 5 }

/-- A machine of full function with one viaduct started, its first chunks on dies 0 to 3. -/
def started : State :=
  { State.reset with
    dev := { State.reset.dev with stage := 4 }
    viaducts := [{ placedViaduct 1 [] with ctx := 9, launch := smallLaunch, lastSpan := 200, placed := [], chunks := [⟨0, 0⟩, ⟨1, 1⟩, ⟨2, 2⟩, ⟨3, 3⟩] }]
    ten := { State.reset.ten with ctxs := [roomy], owners := [{ Owner.initial 0 with weight := 1, parts := 1 }] }
    uid := 2 }

/-- The one viaduct of a state. -/
def viaductAt (s : State) : Viaduct := s.viaducts.headD (placedViaduct 0 [])

theorem witness_SpansPlaced : started.dev.stage = 4 ∧ started.fab.arrives = [] ∧ (coopPlacement? started).isNone ∧
    (nextWork 0 (dropPreempts started)).1 = some (0, .place 1 0 0 2) ∧ (viaductOf? started 1).isSome ∧ ctxOf? started 9 = some roomy := by decide +kernel

/-- The same, the turn pointer of die 0 within the owner's turn. -/
def inTurn : State := { started with ten := { started.ten with
  pointers := [1, 0, 0, 0], owners := [{ Owner.initial 0 with weight := 1, parts := 1, deficits := [2, 0, 0, 0] }] } }

theorem witness_SpansPlaced_turn : let s := inTurn
    s.dev.stage = 4 ∧ s.fab.arrives = [] ∧ (coopPlacement? s).isNone ∧ s.ten.preempts = [] ∧ ownerWork? s 0 0 = some (.place 1 0 0 2) ∧
    (turnOwners s 0).find? (fun p => p.1 == 0) = some (0, .place 1 0 0 2) ∧ nthD 0 s.ten.pointers 0 = 2 * 0 + 1 ∧
    (2 : Int) ≤ nthD 0 (ownerRec s 0).deficits 0 := by decide +kernel

theorem witness_SpansPlaced_gate : ∀ g ∈ allGroups placed, g.span = 2 → g.issuedFirst = true ∨ g.exited = true := by decide +kernel

/-- Two groups of the placed context on one core, of which its loop lets one issue. -/
def rotating : State :=
  modCtx 65535 (fun c => { c with coreGrants := [(0, 1)] })
    { placed with groups := [placedGroup 3 2 1 0, { placedGroup 4 2 1 0 with gslot := 1, lslot := 1 }] }

/-- The same after the first period of 2048 clk. -/
def rotated : State := { rotating with dev := { rotating.dev with clkParts := [10240, 0, 0, 0] } }

theorem witness_SpansPlaced_rotate : slotGrant rotated 65535 0 0 < (residentOn rotated 65535 0 0).length ∧
    mapGet 0 rotated.ten.rotated (rotationKey 65535 0 0) < clkOf rotated 0 / 2048 ∧
    clkOf rotating 0 / 2048 ≤ mapGet 0 rotating.ten.rotated (rotationKey 65535 0 0) := by decide +kernel

/-- The started machine after die 3 has placed all of its chunk and holds no other. -/
def stealing (asked : Nat) : State :=
  modViaduct 1 (fun v => { v with placed := (List.range 64).map (fun i => 192 + i), asked := [(3, asked)] }) started

theorem witness_SpansPlaced_ask : let s := stealing 0
    viaductOf? s 1 = some (viaductAt s) ∧ ctxOf? s 9 = some roomy ∧ (viaductAt s).st = .started ∧ (viaductAt s).launch.coop = false ∧
    nextLin? (viaductAt s) 3 = none ∧ askedCount (viaductAt s) 3 < 8 ∧ (∀ k ∈ (viaductAt s).chunks, k.die ≠ 4 + 3) ∧
    (askOrder s 0 3)[askedCount (viaductAt s) 3]? = some 0 ∧ (fitPlace? s roomy (viaductAt s).launch 3).isSome ∧
    yieldedChunk? (viaductAt s) 0 = none := by decide +kernel

/-- The same where die 1 has two chunks. -/
def stealable : State := modViaduct 1 (fun v => { v with chunks := [⟨0, 1⟩, ⟨1, 1⟩, ⟨2, 2⟩, ⟨3, 3⟩] }) (stealing 1)

theorem witness_SpansPlaced_yield : (askOrder stealable 0 3)[askedCount (viaductAt stealable) 3]? = some 1 ∧
    yieldedChunk? (viaductAt stealable) 1 = some ⟨1, 1⟩ ∧ (fitPlace? stealable roomy (viaductAt stealable).launch 3).isSome := by decide +kernel

theorem witness_SpansPlaced_answer : 8 ≤ askedCount (viaductAt (stealing 8)) 3 ∧ (∀ k ∈ (viaductAt (stealing 8)).chunks, k.die ≠ 4 + 3) := by
  decide +kernel

/-- An owner that has waited on die 3 for long enough. -/
def ageing : State :=
  { started with dev := { started.dev with clkParts := [0, 0, 0, 327680] }, ten := { started.ten with owners := [{ Owner.initial 0 with weight := 1, parts := 1, waits := [0, 0, 0, 1], levels := [0, 0, 0, 6] }] } }

theorem witness_SpansPlaced_ageing : let o := ownerRec ageing 0
    3 < o.levels.length ∧ nthD 0 o.waits 3 ≠ 0 ∧ ownerWaits ageing 3 0 = true ∧ nthD 0 o.levels 3 < 7 ∧
    nthD 0 o.waits 3 + 65536 ≤ clkOf ageing 3 + 1 := by decide +kernel

/-- A settled state whose one group has exited, with the tick of its owner's record. -/
def departing (released : Bool) : State :=
  { placed with groups := placed.groups.map (fun g => { g with exited := true, splits := [], released := released })
                front := { placed.front with journal := [⟨0, [], 0, 0, 0, 0, 0, 0, 0, 1, 255, 65535, 0, 0⟩], jseq := 1 } }

/-- The span of the placed program. -/
def spanAt (s : State) : Span := (spanOf? s 2).getD (placedSpan 0 0 0)

theorem witness_SpansLeave_release : let s := departing false
    s.g.gid = 0 ∧ groupOf? s 3 = some (groupNo 3 s) ∧ (groupNo 3 s).gid = 3 ∧ (groupNo 3 s).exited = true ∧ (groupNo 3 s).released = false ∧ groupWork s (groupNo 3 s) = false ∧
    (groupNo 3 s).deferred = [] := by decide +kernel

theorem witness_SpansLeave_retire : let s := departing true
    s.Settled ∧ spanOf? s 2 = some (spanAt s) ∧ spanBusy s 2 = false ∧ (spanAt s).savedTraps = [] ∧
    (∀ g ∈ s.groups, g.gid ≠ 0 ∧ (g.span = 2 → g.exited = true ∧ g.deferred = [])) ∧ (viaductOf? s 1).isSome ∧
    (∀ y ∈ s.spans, y.viaduct = 1 → y.uid = 2) ∧ (viaductAt s).st = .started ∧ (viaductAt s).gang = none ∧
    (viaductAt s).retired + 1 = (viaductAt s).lastSpan - (viaductAt s).firstSpan := by unfold State.Settled; decide +kernel

theorem witness_SpansLeave_evict : placed.Settled ∧ spanOf? placed 2 = some (spanAt placed) ∧ coopViaduct placed 1 = false ∧
    (spanAt placed).evicting = false ∧ (placed.spans.filter (fun y => y.ctx == 65535 && y.residence == .resident)) = [spanAt placed] ∧
    (∀ g ∈ placed.groups, g.gid ≠ 0) := by unfold State.Settled; decide +kernel

/-- A pre-emption of the placed core that ends at tick 12500. -/
def preempted : State :=
  { placed with ten := { placed.ten with preempts := [⟨4, 0, 0, false, some 7, false, 0, 25000, false, none⟩] }, tick := 12500 }

theorem witness_SpansLeave_force : preempted.ten.preempts.find? (fun q => q.uid == 4) = some ⟨4, 0, 0, false, some 7, false, 0, 25000, false, none⟩ ∧
    0 + 25000 - 12500 ≤ preempted.tick ∧ preempted.spans.filter (Preempt.victim preempted ⟨4, 0, 0, false, some 7, false, 0, 25000, false, none⟩) = [spanAt preempted] ∧
    (spanAt preempted).residence = .resident := by decide +kernel

/-- A settled state whose span is being evicted; its group has a live register. -/
def evicting : State :=
  { placed with groups := placed.groups.map (fun g => { g with residence := .saving, live := 1, regs := [(31, 9), (63, 8)] })
                spans := placed.spans.map (fun x => { x with evicting := true }) }

theorem witness_SpansLeave_save : evicting.Settled ∧ spanOf? evicting 2 = some (spanAt evicting) ∧ (spanAt evicting).evicting = true ∧
    (spanAt evicting).residence = .resident ∧ (viaductOf? evicting 1).any (fun v => v.st != .trapped) = true ∧ evictionReady evicting 2 = true ∧
    (evicting.groups.map Machine.Group.gid).Nodup := by unfold State.Settled; decide +kernel

/-- A settled state whose span has been saved, its owner in turn. -/
def savedAway : State :=
  modCtx 65535 (fun c => { c with runnable := true })
    { evicting with groups := evicting.groups.map (fun g => { g with residence := .saved })
                    spans := evicting.spans.map (fun x => { x with evicting := false, residence := .saved, core0 := 1023, evictOrder := 6,
                                                                   cores := x.cores.map (fun c => { c with core := 1023 }) })
                    ten := { evicting.ten with owners := [{ Owner.initial 0 with weight := 1, parts := 1 }] } }

/-- The viaduct of the saved span asks for no more than a core has. -/
def savedSmall : State := modViaduct 1 (fun v => { v with launch := { v.launch with vregs := 8 } }) savedAway

theorem witness_SpansLeave_restore : savedSmall.Settled ∧ spanOf? savedSmall 2 = some (spanAt savedSmall) ∧ (spanAt savedSmall).residence = .saved ∧
    coopViaduct savedSmall 1 = false ∧ (spanAt savedSmall).savedTraps = [] ∧ (savedSmall.groups.map Machine.Group.gid).Nodup ∧
    (nextWork 0 (dropPreempts savedSmall)).1 = some (0, .restore 2 1023 1) := by unfold State.Settled; decide +kernel

/-- The same, the turn pointer of die 0 within the owner's turn. -/
def savedInTurn : State := { savedSmall with ten := { savedSmall.ten with
  pointers := [1, 0, 0, 0], owners := [{ Owner.initial 0 with weight := 1, parts := 1, deficits := [1, 0, 0, 0] }] } }

theorem witness_SpansLeave_restore_turn : let s := savedInTurn
    s.Settled ∧ spanOf? s 2 = some (spanAt s) ∧ (spanAt s).residence = .saved ∧ coopViaduct s 1 = false ∧ (spanAt s).savedTraps = [] ∧
    s.ten.preempts = [] ∧ ownerWork? s 0 0 = some (.restore 2 1023 1) ∧
    (turnOwners s 0).find? (fun p => p.1 == 0) = some (0, .restore 2 1023 1) ∧ nthD 0 s.ten.pointers 0 = 2 * 0 + 1 ∧
    (1 : Int) ≤ nthD 0 (ownerRec s 0).deficits 0 := by unfold State.Settled; decide +kernel

/-- A context that firmware can create. -/
def request9 : CtxReq := ⟨4095, 4095, 0, 0, 0x10000, 131072, 65535, 0x10000, 0x3000, 65536, 7, 3, 0, [(65535, 4096)], 4, 0, 0x20000, 0, 65535, some 65535, none⟩

theorem witness_SpansLeave_create : started.dev.stage = 4 ∧ ctxReqGood started request9 = true ∧
    ctxReqGood started { request9 with mthresh := none, tags := [] } = true := by decide +kernel

theorem witness_SpansLeave_move : (∀ x ∈ started.spans, x.ctx ≠ 9) ∧ (∀ q ∈ started.front.queues, q.ctx ≠ 9) ∧
    (let s := modViaduct 1 (fun v => { v with st := .complete }) started
     ∀ v ∈ s.viaducts, v.ctx = 9 → v.st = .complete) := by decide +kernel

/-! Queues, packets and gangs. -/

/-- Bytes with numbers at offsets: (offset, bytes, number). -/
def bytesWith (n : Nat) (fs : List (Nat × Nat × Nat)) : List Byte :=
  fs.foldl (fun bs f => bs.take f.1 ++ natToBytes f.2.1 f.2.2 ++ bs.drop (f.1 + f.2.1)) (List.replicate n 0)

/-- A registered queue of 16 packets at address 0xFC00, its QCB at 0xF000. -/
def ringQueue (rd : Nat) (packets : List Packet) : Queue :=
  ⟨65535, 65535, 0, 0xF000, 0xFC00, 4, 0, false, false, rd, true, 0, 0, false, 0, true, 0, packets, [⟨2, 0, 64⟩, ⟨15, 0, 64⟩]⟩

/-- A machine of full function with that queue and a pending journal entry 7. -/
def queueing (q : Queue) : State :=
  { managed with front := { managed.front with queues := [q], journal := [⟨7, [], 0, 0, 0, 31, 65535, 0, 0, 0, 255, 65535, 0, 0⟩], jseq := 8 } }

/-- The queue of a state. -/
def queueAt (s : State) : Queue := s.front.queues.headD (ringQueue 0 [])

theorem witness_QueuesAccept_kick : ∀ m ∈ [true, false], let q := { ringQueue 31 [] with mapped := m }
    (queueing q).dev.stage = 4 ∧ ctxOf? (queueing q) 65535 = some placedContext ∧ queueOf? (queueing q) 65535 = some q ∧ queueOf? (queueing q) 65536 = none := by
  decide +kernel

/-- That queue after the driver has written 32 packets, 1024 ticks later. -/
def published : State := { wrNat 0x6F008 8 32 (queueing (ringQueue 31 [])) with tick := 1024 }

theorem witness_NoPacketWatch : NoPacketWatch (queueing (ringQueue 31 [])) := by unfold NoPacketWatch; decide +kernel

theorem witness_QueuesAccept_look : readVa published 65535 needRd 0xF008 8 = .ok (natToBytes 8 32) ∧ 31 < bytesToNat (natToBytes 8 32) ∧
    (ringQueue 31 []).lookTick + 1024 ≤ published.tick ∧ queueOf? published 65535 = some (ringQueue 31 []) := by decide +kernel

/-- That queue with a NOP of some first byte at the last place of its ring. -/
def written (head : Nat) : State :=
  let s := queueing (ringQueue 31 [])
  { s with mem := (bytesWith 64 [(0, 1, head), (4, 4, 0x87654321)]).zipIdx.foldl (fun k b => memSet k (0x6FFC0 + b.2) b.1) s.mem }

theorem witness_QueuesAccept_accept : ∀ head ∈ [3, 5, 2], let s := written head
    queueOf? s 65535 = some (ringQueue 31 []) ∧ ctxOf? s 65535 = some placedContext ∧
    ((readVa s 65535 needRd 0xFFC0 64).toOption.map (fun bs => fld bs 0 1)) = some head := by decide +kernel

theorem witness_QueuesAccept_heads : 0xFC00 + 64 * (31 % 2 ^ 4) = 0xFFC0 ∧ 1 + 2 * (31 / 2 ^ 4 % 128) = 3 ∧ 5 % 2 = 1 ∧
    5 / 2 ≠ (31 / 2 ^ 4 + 127) % 128 ∧ (written 3).front.jseq < (written 3).front.acked + 2 ^ 20 := by decide +kernel

/-- A machine whose one queue waits for a slot. -/
def unmapped : State := queueing { ringQueue 31 [] with mapped := false, pending := true, looking := false }

theorem witness_QueuesAccept_slot : unmapped.front.queues = [queueAt unmapped] ∧ (queueAt unmapped).pending = true ∧ (queueAt unmapped).mapped = false ∧
    placedContext.part < 16 ∧ 0 < slotQuotaOf unmapped 0 := by decide +kernel

/-- A packet of a type, at index 31, under journal entry 7. -/
def packet (type : Nat) (fs : List (Nat × Nat × Nat)) : Packet :=
  ⟨31, bytesWith 64 ([(0, 1, 3), (1, 1, type)] ++ fs), 7, none, false, false, 0, none, []⟩

/-- A machine whose queue holds one packet. -/
def holdingPacket (p : Packet) : State := queueing (ringQueue 32 [p])

/-- A started WAIT for a word on a page that is not mapped, 25000 ticks ago. -/
def waitingPage : Packet := { packet 3 [(16, 8, 0x1FFF0000), (24, 8, 1), (32, 8, 9)] with started := true, hold := some 0 }

theorem witness_QueuesAccept_hold : let s := { holdingPacket waitingPage with tick := 25000 }
    queueOf? s 65535 = some (queueAt s) ∧ heldPacket? (queueAt s) 3 = some waitingPage ∧ (queueAt s).mapped = true ∧ 0 + 25000 ≤ s.tick ∧
    wordsReadable s (queueAt s) waitingPage = false := by decide +kernel

/-- A started WAIT whose word holds, in the packet-watch store. -/
def storeWaiting : State :=
  let s := holdingPacket { packet 3 [(16, 8, 0xFFF8), (32, 8, 2 ^ 64 - 1)] with started := true }
  { s with tick := 1024, front := { s.front with storeWatches := [⟨65535, 31, 0, 0xFFF8, 0, 0, 0⟩] } }

theorem witness_QueuesAccept_poll : let s := storeWaiting
    let p := (queueAt s).packets.headD waitingPage
    s.front.storeWatches.find? (fun x => x.qid == 65535 && decide (x.lastPoll + 1024 ≤ s.tick)) = some ⟨65535, 31, 0, 0xFFF8, 0, 0, 0⟩ ∧
    (queueAt s).packets.find? (fun x => x.index == 31 && x.started && !x.done) = some p ∧
    s.front.queues.find? (fun x => x.packets.any (fun y => y.journal == p.journal)) = some (queueAt s) ∧
    (∀ x ∈ p.waits, packetWordHolds s 65535 x = true) := by decide +kernel

theorem witness_PacketsTakeEffect_failed : ∀ type ∈ List.range 10, let p := { packet type [] with failed := some (4, 8) }
    let s := holdingPacket p
    queueOf? s 65535 = some (queueAt s) ∧ startable? s (queueAt s) = some p ∧ p.field 1 1 = type ∧ heldPacket? (queueAt s) type = none := by
  decide +kernel

/-- The packets of the witnesses, of each type. -/
def packets : List (Nat × List (Nat × Nat × Nat)) :=
  [(0, []), (1, [(8, 8, 0x40), (16, 2, 1), (18, 2, 1), (20, 2, 65535), (22, 2, 32), (24, 2, 1), (26, 2, 1), (28, 1, 8), (30, 1, 4), (31, 1, 16), (32, 2, 512), (38, 1, 255), (44, 4, 7)]),
   (2, []), (3, [(16, 8, 0xFFF8), (32, 8, 2 ^ 64 - 1)]), (3, [(16, 8, 0xFFF8), (24, 8, 1), (32, 8, 9)]), (4, [(8, 1, 0x81), (10, 2, 2047), (16, 8, 0xFFF8), (24, 8, 2 ^ 64 - 1)]),
   (5, []), (6, [(8, 3, 9)]), (7, [(8, 1, 15), (9, 1, 8), (12, 2, 5), (16, 8, 0xFF00), (24, 8, 256)]), (8, [(8, 1, 15), (16, 8, 0xFF00), (24, 8, 256)]),
   (9, [(8, 1, 6), (16, 8, 0xFFF8), (24, 8, 0xFFF0), (32, 8, 0xFFE8), (40, 8, 0xFFE0), (48, 8, 0xFFD8), (56, 8, 0xFFD0)]), (9, [(8, 1, 1)])]

theorem witness_PacketsTakeEffect : ∀ x ∈ packets, let p := packet x.1 x.2
    let s := holdingPacket p
    PacketReady s (queueAt s) p x.1 := by unfold PacketReady; decide +kernel

theorem witness_PacketsTakeEffect_launch : let p := packet 1 ((packets.drop 1).headD (0, [])).2
    placeable (holdingPacket p) placedContext (launchOf p.bytes) (launchOf p.bytes).spanCount = true := by decide +kernel

theorem witness_PacketsTakeEffect_wait : ∀ x ∈ [(3, 3, true), (3, 4, false), (9, 10, true), (9, 11, false)], let p := packet x.1 ((packets.drop x.2.1).headD (0, [])).2
    (∀ w ∈ p.waits, (packetWord (holdingPacket p) 65535 w.2.1).isSome) ∧ (∀ w ∈ p.waits, packetWordHolds (holdingPacket p) 65535 w = x.2.2) := by decide +kernel

theorem witness_PacketsTakeEffect_signal : let p := packet 4 ((packets.drop 5).headD (0, [])).2
    let s := holdingPacket p
    s.wat.entries = [] ∧ p.field 16 8 % 8 = 0 ∧ p.conds = [] ∧ s.ms.invals = [] ∧ (accessIn s 65535 needRdW (p.field 16 8)).isOk = true ∧
    lineWaits s (leafAt s needRdW 0xFFF8) 0xFFF8 = false ∧ actingHome s (leafAt s needRdW 0xFFF8) = none ∧
    isPoisoned s (leafAt s needRdW 0xFFF8).phys = false ∧ (leafAt s needRdW 0xFFF8).phys % 128 = 0xFFF8 % 128 := by decide +kernel

theorem witness_PacketsTakeEffect_fence : recordsWait (holdingPacket (packet 5 [])) 65535 (holdingPacket (packet 5 [])).tick = false := by decide +kernel

/-- A started WINDOW-BIND that still waits for die 3, where the window has been in use. -/
def binding : State :=
  let s := holdingPacket { packet 7 ((packets.drop 8).headD (0, [])).2 with started := true, conds := [3] }
  { s with fab := { s.fab with windows := [⟨3, 65535, 15, 0, 0, true, 4, 9, 9, 9⟩, ⟨0, 65535, 15, 0, 0, true, 4, 9, 9, 9⟩] } }

theorem witness_PacketsTakeEffect_apply : let p := (queueAt binding).packets.headD waitingPage
    (queueAt binding).packets.find? (fun p => p.started && memNat 3 p.conds) = some p ∧ p.conds = [3] ∧
    (windowRec binding 3 65535 (p.field 8 1)).any (fun w => w.acked == w.issued) = true := by decide +kernel

theorem witness_PacketsTakeEffect_timeout : let s := { holdingPacket waitingPage with tick := 9 }
    (queueAt s).packets.find? (fun p => p.started && p.field 1 1 == 3) = some waitingPage ∧ waitingPage.field 32 8 ≠ 2 ^ 64 - 1 ∧
    waitingPage.startTick + waitingPage.field 32 8 ≤ s.tick := by decide +kernel

/-- A gang of this package and package 1, its packet at index 31, of a launch that fits or one that does not. -/
def gang (st : GangSt) (reserved : List Bool) (viaduct : Option Nat) (regs : Nat) : Gang :=
  ⟨5, 0, 5, bytesWith 64 [(0, 1, 3), (1, 1, 2), (16, 2, 2)], [], 65535, 65535, 31, bytesWith 64 [(0, 1, 1), (1, 1, 1), (8, 8, 0x40), (16, 2, 3), (18, 2, 1), (20, 2, 1), (22, 2, 32), (24, 2, 1), (26, 2, 1), (28, 1, regs), (30, 1, 5 * (regs / 128)), (38, 1, 255)],
    reserved.zipIdx.map (fun r => ⟨r.2, 0, r.1, none⟩), 65536, 9, 0, 65536, 20, st, viaduct⟩

/-- A machine with that gang and its started packet. -/
def ganging (g : Gang) (tick : Nat) : State :=
  let s := holdingPacket { packet 2 [(16, 2, 2)] with started := true }
  { s with front := { s.front with gangs := [g] }, tick := tick }

theorem witness_GangsStart_reserve : ∀ g ∈ [gang .reserving [false, false] none 8, gang .reserving [false, false] none 255], let s := ganging g 0
    gangOf? s 5 = some g ∧ g.st = .reserving ∧ g.members = [⟨0, 0, false, none⟩, ⟨1, 0, false, none⟩] ∧ s.pkg = 0 ∧ ctxOf? s 65535 = some placedContext ∧
    queueOf? s 65535 = some (queueAt s) ∧
    placeable s placedContext (launchOf g.image) (1 * (launchOf g.image).spanCount / 2 - 0) = (fld g.image 28 1 == 8) ∧ (launchOf g.image).coop = false := by decide +kernel

theorem witness_GangsStart_commit : let g := gang .reserving [true, true] none 8
    gangOf? (ganging g 0) 5 = some g ∧ g.st = .reserving ∧ g.coord = (ganging g 0).pkg ∧ g.viaduct = none ∧ (∀ m ∈ g.members, m.reserved = true) := by decide +kernel

theorem witness_GangsStart_retry : ∀ tick ∈ [65535, 65536], let g := { gang .waitRetry [false, false] none 8 with retryAt := 65535 }
    let s := ganging g tick
    gangOf? s 5 = some g ∧ g.viaduct = none ∧ (∀ m ∈ g.members, m.reserved = false) ∧
    (tick < g.begun + g.limit ∨ g.begun + g.limit ≤ s.tick) ∧ g.retryAt ≤ tick ∧ queueOf? s g.qid = some (queueAt s) ∧
    (queueAt s).packets.find? (fun p => p.index == g.index) = some ((queueAt s).packets.headD waitingPage) ∧
    s.front.queues.find? (fun x => x.packets.any (fun y => y.journal == 7)) = some (queueAt s) := by decide +kernel

theorem witness_GangsStart_start : let g := gang .committed [true, true] (some 1) 8
    gangOf? (ganging g 20) 5 = some g ∧ g.startAt ≤ 20 ∧ (viaductOf? (ganging g 20) 1).any (fun v => decide (v.retired < v.lastSpan - v.firstSpan)) = true := by decide +kernel

/-- A gang that another package coordinates: it has named the start tick. -/
theorem witness_GangsStart_remote : let g := { gang .reserving [true, false] (some 1) 8 with coord := 1 }
    let s := ganging g 0
    gangOf? s 5 = some g ∧ g.coord ≠ s.pkg ∧ g.startAt ≠ 0 ∧ s.front.jseq < s.front.acked + 2 ^ 20 := by decide +kernel

theorem witness_GangsStart_partition : let g := { gang .reserving [false, false] none 8 with members := [⟨0, 1, false, none⟩] }
    let s := ganging g 0
    gangOf? s 5 = some g ∧ ctxOf? s g.ctx = some placedContext ∧ placedContext.part ≠ 1 ∧ s.pkg = 0 := by decide +kernel

theorem witness_GangsStart_rollback : let g := gang .waitRetry [true, true] (some 1) 8
    gangOf? (ganging g 20) 5 = some g ∧ g.st = .waitRetry := by decide +kernel

/-- The signal's state where agent 5 holds a copy of the word's line. -/
def signalHeld : State :=
  let s := holdingPacket (packet 4 ((packets.drop 5).headD (0, [])).2)
  let l := leafAt s needRdW 0xFFF8
  { s with ms := { s.ms with rdc := [⟨5, sliceOf l 0xFFF8, l.dom, 0xFF80, .s, List.replicate 128 0, [0, 0, 0, 0], homeAgent l⟩] } }

theorem witness_PacketsTakeEffect_signal_held : let s := signalHeld
    let p := packet 4 ((packets.drop 5).headD (0, [])).2
    let l := leafAt s needRdW 0xFFF8
    PacketReady s (queueAt s) p 4 ∧ lineWaits s l 0xFFF8 = false ∧ actingHome s l = none ∧
    ∃ r ∈ s.ms.rdc.filter (fun r => r.dom == l.dom && r.line == lineOf 0xFFF8), r.die < 4096 ∧ r.die ≠ agentOf s (homeAgent l % 4) := by
  unfold PacketReady; decide +kernel

/-! The mailbox, loops, links, errors and the start. -/

theorem witness_MailboxServes_stages : managed.dev.stage = 4 ∧ managed.dev.update = none ∧ managed.dev.bootSlot ≠ 0 ∧ managed.dev.bootSlot ≠ 1 ∧
    (∀ n ∈ List.range 16, n = 0 ∨ n = 4 ∨ ({ managed with dev := { managed.dev with stage := n } }).dev.stage = n) := by decide +kernel

/-- A machine whose slot 1 is open for writing, or has been started as the preferred one. -/
def updating (open1 : Option Nat) : State :=
  { managed with dev := { managed.dev with update := open1, bootSlot := 1, preferred := 1, floor := 62 } }

theorem witness_MailboxServes_update : (updating (some 0)).dev.update = some 0 ∧ (List.replicate 48 (0xFF#8)).length ≤ 48 ∧
    (updating none).dev.bootSlot = (updating none).dev.preferred ∧ (updating none).dev.bootError = 0 := by decide +kernel

/-- A queue control block at address 0xF000 of the page, for a ring of 16 packets. -/
def blockBytes : List Byte := bytesWith 64 [(0, 8, 0xFC00), (16, 8, 31), (24, 1, 4), (25, 1, 3), (26, 1, 1)]
/-- A machine with that block in memory. -/
def blocked : State := { managed with mem := blockBytes.zipIdx.foldl (fun k b => memSet k (0x6F000 + b.2) b.1) managed.mem }

theorem witness_MailboxServes_register : ctxOf? blocked 65535 = some placedContext ∧ mayActOn blocked 0 65535 = true ∧ queueOf? blocked 65535 = none ∧
    readVa blocked 65535 needRdW 0xF000 64 = .ok blockBytes ∧ qcbGood blocked 65535 blockBytes = true := by decide +kernel

/-- A machine whose stopped queue holds a NOP that has not started. -/
def halted : State := queueing { ringQueue 32 [packet 0 []] with stopped := true, halt := true }

theorem witness_MailboxServes_queue : queueOf? halted 65535 = some (queueAt halted) ∧ mayActOn halted 0 65535 = true ∧ (queueAt halted).stopped = true ∧
    ((queueAt halted).packets.map (fun p => (p.started, p.journal))) = [(false, 7)] ∧ 8 ≤ halted.front.jseq := by decide +kernel

theorem witness_MailboxServes_owner : let w : W64 := BitVec.ofNat 64 (25000 * 2 ^ 32 + 1 * 2 ^ 16 + 65535)
    let x : W64 := BitVec.ofNat 64 (2500000 * 2 ^ 32 + 255 * 2 ^ 16)
    25000 ≤ bitsOf w.toNat 53 32 ∧ bitsOf w.toNat 23 16 ≠ 0 ∧ bitsOf x.toNat 53 32 ≤ 2500000 ∧ bitsOf x.toNat 23 16 ≠ 0 := by decide +kernel

/-- A machine with quad 255 of die 3 reserved to owner 255 and lent by it. -/
def lending : State :=
  { managed with ten := { managed.ten with partMap := [(3 * 256 + 255, 0x1FF0)], lends := [⟨255, true, true, 0, 3, 255⟩] } }

theorem witness_MailboxServes_lend : let e := mapGet 0 lending.ten.partMap (bitsOf (0x020003FF#32).toNat 9 8 * 256 + bitsOf (0x020003FF#32).toNat 7 0)
    bitOf e 12 = true ∧ bitsOf e 11 4 = 255 ∧
    lending.ten.lends.find? (fun x => x.owner == 255 && x.die == 3 && x.quad == 255) = some ⟨255, true, true, 0, 3, 255⟩ := by decide +kernel

theorem witness_MailboxServes_ranges : ∀ p ∈ [(1, 256, 0), (65535, 0, 3)], p.1 ≠ 0 ∧ p.1 < 65536 ∧ p.2.1 ≤ 256 ∧ p.2.2 < 4 ∧
    (∀ x ∈ [0, 255], x < 256) ∧ (List.replicate 32 (0#8)).length = 32 ∧ (15 : Nat) < 16 ∧ managed.dev.clockCap.length = 4 ∧
    managed.dev.clockCeil.length = 4 := by decide +kernel

/-- A machine with quotas of channel share. -/
def quotas : State := { managed with ten := { managed.ten with chanQuota := [(0, 4), (1, 59)] } }

theorem witness_MailboxServes_quota : let others := (List.range 16).filter (fun p => p != 15 && (memNat p (partsInUse quotas) || quotas.ten.chanQuota.any (fun q => q.1 == p)))
    (others.map (chanQuotaOf quotas)).sum + 1 = 64 := by decide +kernel

/-- A machine at a tick of a phase of a sample period, with the placed context's loop record. -/
def looping (phase tick : Nat) (r : LoopRec) : State :=
  modCtx 65535 (fun c => { c with loop := r }) { managed with tick := tick, ten := { managed.ten with phase := phase } }

/-- A loop record with a request of 1000 beats and gains of 1. -/
def loopRec (bgroup rlatch : Nat) (merged : Option Nat) : LoopRec :=
  { LoopRec.initial with r := 1000, kp := 4096, ki := 4096, u := 65535, integ := 65535, bgroup := bgroup, ylatch := 2 ^ 24 - 1, rlatch := rlatch, ynext := 5, ycur := 6, rtick := 65536, rnext := 7, merged := merged }

/-- The end of a period before which a LOOP-SET was accepted. -/
def latching : State :=
  let t := looping 3 65536 (loopRec 0 0 none)
  let p := packet 6 [(8, 3, 9), (12, 2, 8), (14, 2, 7), (17, 1, 6), (20, 4, 5)]
  let q := ringQueue 32 [{ p with started := true }]
  modCtx 65535 (fun c => { c with pendingLoops := [(7, p.bytes)] }) { t with front := (queueing q).front }

theorem witness_LoopsRun_latch : latching.ten.periodTick + 65536 ≤ latching.tick ∧ (latching.ten.ctxs.map Context.num).Nodup ∧
    (latching.ten.ctxs.map (fun c => (dueLoops latching c).length)) = [1] := by decide +kernel

theorem witness_LoopsRun_merge : ∀ tick ∈ [0, 8192], let s := looping 1 tick (loopRec (2 ^ 32 - 1) 32768 none)
    s.ten.phase = 1 ∧ s.tick ≤ s.ten.periodTick + 8192 := by decide +kernel

/-- The contexts of a state that the clauses of LOOP_UPDATE tell apart: a saved one, one at rest, one skipped and one that runs. -/
def updateStates : List State :=
  [looping 1 8192 (loopRec 0 32768 none), looping 1 8192 (loopRec 0 32767 none), looping 1 8192 LoopRec.initial,
   let s := looping 1 8192 (loopRec 0 32768 (some 3)); { s with spans := s.spans.map (fun x => { x with residence := .saved }) },
   let s := looping 1 8192 LoopRec.initial; { s with spans := [] }]

theorem witness_LoopsRun_update : (∀ s ∈ updateStates, s.ten.phase = 1 ∧ s.ten.periodTick + 8192 ≤ s.tick ∧ (s.ten.ctxs.map Context.num).Nodup) ∧
    (∀ s ∈ updateStates.take 3, ∃ x ∈ s.spans, x.ctx = 65535 ∧ x.residence = .resident) ∧
    (∀ s ∈ (updateStates.drop 3).take 1, ∀ x ∈ s.spans, x.residence = .saved ∧ x.evicting = false) ∧
    (updateStates.map (fun s => s.spans.length)) = [1, 1, 1, 1, 0] ∧
    (updateStates.map (fun s => s.ten.ctxs.map (fun c => (c.loop.r, c.loop.rlatch)))) =
      [[(1000, 32768)], [(1000, 32767)], [(0, 0)], [(1000, 32768)], [(0, 0)]] := by decide +kernel

theorem witness_LoopsRun_grant : (looping 2 12288 LoopRec.initial).ten.phase = 2 ∧ (looping 2 12288 LoopRec.initial).ten.periodTick + 12288 ≤ 12288 ∧
    (looping 2 12288 LoopRec.initial).dev.clockCeil.length = 4 := by decide +kernel

/-- A pool word of 32752 slots and 16 held back at 1 KiB, of entries of 256 words. -/
def poolWord : W64 := BitVec.ofNat 64 (32752 * 2 ^ 48 + 16 * 2 ^ 36 + 256)
/-- A machine with a slot of a pool on die 3 in use. -/
def slotInUse : State :=
  { managed with fab := { managed.fab with slots := [⟨3, 65535, 0, 0, .opened, descriptor, [], 0, [], [], 0, 0, 0, 0, false, 0, false, 0, false, noTrap,
    engineRec placed (groupAt placed) 0 31 5 0 ⟨0, false, 0⟩⟩] } }

theorem witness_LoopsRun_pools : ctxOf? managed 65535 = some placedContext ∧ managed.fab.slots = [] ∧ managed.fab.pools = [] ∧
    (∃ m ∈ slotInUse.fab.slots, m.die = 3 ∧ m.ctx = 65535 ∧ m.st ≠ .free) ∧
    (let n := poolWord.toNat
     bitsOf n 27 15 = 0 ∧ bitsOf n 63 48 = 32752 ∧ bitsOf n 14 0 = 256 ∧ 4 * 256 ≤ 1024 * (bitsOf n 35 30 + 1) ∧
      (bitsOf n 63 48 + bitsOf n 47 36) * (bitsOf n 35 30 + 1) = 32768) := by decide +kernel

theorem witness_GrantsFit : ∀ cap ∈ [7, 64], let as : List Asker := [⟨0, 0, 0, 1, 1⟩, ⟨1, 3, 255, 1, 64⟩, ⟨4095, 3, 1, 4, 5⟩]
    (∀ a ∈ as, a.floor ≤ a.demand ∧ a.cls < 4) ∧ (as.map (fun a => a.floor)).sum ≤ cap ∧ (as.map (fun a => a.demand)).sum = 70 := by decide +kernel

/-- A link with flits 5 and 6 not yet acknowledged, refused as given. -/
def aLink (port : Nat) (up training : Bool) (refusals : List Nat) (same failed : Nat) : Link :=
  ⟨port, up, training, 7, 9, [5, 6], refusals, same, failed, 2⟩

/-- A machine of full function with one link, at a tick. -/
def linked (l : Link) (tick : Nat) : State := { managed with dev := { managed.dev with links := [l] }, tick := tick }

theorem witness_LinksAndErrors_links : ∀ l ∈ [aLink 0 true false [] 0 0, aLink 29 true false [0] 16 0, aLink 23 true false (List.replicate 64 5) 0 0,
      aLink 0 true true [] 0 1, aLink 0 true true [] 0 2, aLink 23 false false [] 0 0],
    linkOf? (linked l (2 ^ 20 + 4)) l.port = some l ∧ 5 ∈ l.unacked ∧ 5 < l.nextSend ∧ 6 < l.nextSend ∧
    (linked l (2 ^ 20 + 4)).dev.stage = 4 := by decide +kernel

theorem witness_LinksAndErrors_sent : ∀ seq ∈ [7, 260], let l := aLink 0 true false [] 0 0
    linkOf? (linked l 0) l.port = some l ∧ l.nextSend ≤ seq ∧ seq < l.unacked.headD l.nextSend + 256 ∧
    (∀ n ∈ l.unacked, n < l.nextSend) := by decide +kernel

/-- A Causeway port whose third training fails, with a put to another package that is not acknowledged. -/
def severed : State :=
  let s := linked (aLink 0 true true [] 0 2) 0
  { s with eng := { s.eng with fabs := [⟨9, 3, 65535, 0, true, 2, 0, 0, 0, 1, .putWin, 0, 0, 0, false,
      [⟨5, 4095, 15, 0, 0, 0, 7, true, false, false, 0, false⟩]⟩] } }

theorem witness_LinksAndErrors_resent : ∃ c ∈ severed.eng.fabs, c.kind.streams = true ∧ localAgent severed c.src = true ∧
    ∃ x ∈ c.lanes, x.applied = true ∧ x.acked = false ∧ localAgent severed x.agent = false := by decide +kernel

theorem witness_LinksAndErrors_limits : (aLink 29 true false [0] 16 0).up = true ∧ 16 ≤ (aLink 29 true false [0] 16 0).sameRefusals ∧
    64 ≤ ((List.replicate 64 5).filter (fun n => decide (2 ^ 20 + 4 < n + 2 ^ 20))).length ∧
    ((List.replicate 64 5).filter (fun n => decide (2 ^ 20 + 5 < n + 2 ^ 20))).length < 64 ∧ (aLink 0 true true [] 0 2).training = true ∧
    (aLink 23 false false [] 0 0).up = false := by decide +kernel

theorem witness_LinksAndErrors_errors : (2 ^ 39 - 1) / 2 ^ 39 = managed.pkg ∧ managed.g.gid = 0 ∧ groupOf? managed 3 = some (groupAt managed) ∧
    (groupAt managed).gid ≠ 0 ∧ 7 < managed.dev.hartRestarts.length := by decide +kernel

/-- A machine with a store-buffer entry on its way to the last line of the page. -/
def draining : State := { managed with ms := { managed.ms with entries := [{ noEntry with uid := 9, ctx := 65535, line := 0xFF80, st := .draining }] } }

theorem witness_LinksAndErrors_entry : let e := draining.ms.entries.headD noEntry
    entryOf? draining e.uid = some e ∧ e.st = .draining ∧ (accessIn draining e.ctx ⟨false, false, false⟩ e.line).isOk = true := by decide +kernel

/-- A machine that asks for the frame of the placed page to be retired, with a repair list. -/
def failing (repairs : List Repair) : State := { managed with dev := { managed.dev with retireAsks := [6], repairs := repairs } }

theorem witness_LinksAndErrors_frame : let s := failing []
    ctxOf? s 65535 = some placedContext ∧ (leafAt s ⟨false, false, false⟩ 0).size < 2 ∧ (walkVa s placedContext 0).isOk = true ∧
    mustRetire s 0x60000 = true ∧ (okOf lastLine (walkVa s placedContext 0)).phys = 0x60000 ∧
    retireTo s placedContext (okOf lastLine (walkVa s placedContext 0)) 7 = true ∧ soleMapping s 65535 0 0x60000 = true := by decide +kernel

theorem witness_LinksAndErrors_room : let s := failing []
    let l := okOf lastLine (walkVa s placedContext 0)
    let r := (leafEntry? (moveFrame l.dom 0 l.phys (7 * 65536) true s) placedContext 0).getD (pteOf 0, 0, 0)
    repairFull s 0x60000 = false ∧ pageBusy s l.dom 0 65536 = false ∧ bitsOf 7 22 21 = homeAgent l % 4 ∧ Memory.wf s.mem = true ∧
    s.wq = [] ∧ placedContext.stage2 = 0 ∧ l.size = 0 ∧ l.pte.run = false ∧ l.pte.hpkg = 0 ∧ l.phys + 65536 ≤ 7 * 65536 ∧ r.2.1 = 3 ∧
    r.2.2 + 8 ≤ 7 * 65536 := by decide +kernel

theorem witness_LinksAndErrors_full : repairFull (failing (List.replicate 4096 ⟨9, (Config.hbmPlace 0x60000).1 % 8, 0, 0⟩)) 0x60000 = true := by
  unfold repairFull failing; simp only [List.filter_replicate, BEq.rfl, if_true, List.length_replicate]; decide

theorem witness_DeviceStarts_release : State.reset.dev.stage = 0 ∧ (∀ n ∈ [1, 2, 3], ({ State.reset with dev := { State.reset.dev with stage := n } }).dev.stage = n) ∧
    State.reset.side.Pairwise (fun p q => p.1 < q.1) := by decide +kernel

theorem witness_DeviceStarts_hour : let s : State := { managed with tick := 900000000000 }
    s.tick ≠ 0 ∧ s.tick % 900000000000 = 0 ∧ ∀ r ∈ s.dev.lifeRing, r.tick ≠ s.tick := by decide +kernel

theorem witness_DeviceStarts_hart : ∀ hart ∈ [0, 7], let s : State := { managed with dev := { managed.dev with harts := List.replicate 8 true } }
    nthD false s.dev.harts hart = true ∧ hart < s.dev.hartRestarts.length := by decide +kernel

theorem witness_DeviceStarts_writes : managed.g.gid = 0 ∧ (groupAt managed).gid = 3 ∧ groupOf? managed 3 = some (groupAt managed) ∧
    spanOf? managed 2 = some (placedSpan 2 1 0) ∧ (placedSpan 2 1 0).bars[15]? = some Barrier.zero ∧
    (∀ x ∈ managed.spans, x.residence ≠ .saved → x.die = 3 → x.core0 / 4 ≠ 255) ∧ ctxOf? managed 65535 = some placedContext ∧
    (2 ^ 64 - 131072) % 131072 = 0 ∧ (2 ^ 64 - 131072) % 65536 = 0 ∧ (5 % 8 < 6 ∧ 6 ≤ 14 % 8) := by decide +kernel

theorem witness_EncodingAgrees : (Instr.addI32 ⟨126, .lit 0xFFFFFFFF#32, .sca 63⟩).wf = true ∧ encode (.addI32 ⟨126, .lit 0xFFFFFFFF#32, .sca 63⟩) ≠ [] ∧
    decodeWords [0b00010000000000011000010011111110#32, 0x3F800000#32, 1#32] = .ok (.faddF32 ⟨3, .reg 4, .lit 0x3F800000#32⟩, [1#32]) := by decide +kernel

/-- A machine with two words placed, of which the one at a place of the clause is next. -/
def inClause (widx : Nat) : State :=
  let s := placeProgram [0b10000000110100000000000000000000#32, 0b10000000110100000000000000000000#32]
    { State.reset with ten := { State.reset.ten with epoch := 0 } }
  { s with groups := s.groups.map (fun g => { g with splits := g.splits.map (fun p => { p with widx := widx, bndPending := false }) }) }

/-- The same with the split taken up. -/
def takenUp (widx : Nat) : State := (focus? 3 0 (inClause widx)).getD State.reset

theorem witness_StepRunsDecoded_goes : ∀ w ∈ [0, 1, 2], Goes (inClause w) (takenUp w) 3 0 ∧ (takenUp w).sp.widx = w := by unfold Goes; decide +kernel

theorem witness_StepRunsDecoded_decoded : ∀ w ∈ [0, 1, 2], let t := takenUp w
    let c := okOf (0, []) (fetchClause t t.sp.pc)
    (fetchClause t t.sp.pc).isOk = true ∧ (decodeWords (c.2.drop (w - 1))).isOk = true ∧ c.2.length = 2 := by decide +kernel

theorem witness_StepRunsDecoded_first : let t := takenUp 0
    let c := okOf (0, []) (fetchClause t t.sp.pc)
    gateShut t t.g = false ∧ t.g.splits.find? (mayMerge t) = none ∧ t.sp.bndPending = false ∧ clauseCheck c.1 c.2 = none ∧
    waitsMet t (headerOf c.1) = true := by decide +kernel

theorem witness_StepRunsDecoded_fetch : let t := takenUp 0
    (viaductOf? t t.g.viaduct).isSome ∧ (accessIn t t.g.ctx needX 0xFFFC).isOk = true := by decide +kernel

theorem witness_StepRunsDecoded_agenda : (inClause 0).agenda = [.issue 3 0] ∧ encode .deviceReset = [] ∧
    placed.agenda = [] ∧ (placed.tick + 1) % 2 = 1 ∧ chosen? (passTicks 1 placed) = some (3, 0) := by decide +kernel

theorem witness_StepKeepsInv : Memory.wf placed.mem = true ∧ placed.g = Group.idle ∧ placed.sp = Split.idle ∧ placed.iss = Issue.idle ∧ placed.wq = [] := by
  decide +kernel

/-- A word in execution in a group of 100 registers, of which live are live in, with a load on its way to the last. -/
def checking (live : Nat) : State :=
  { ready with g := { ready.g with nregs := 100, live := live }, ms := { ready.ms with loads := [{ noLoad with gid := 3, kind := .vec 99 4 false }] } }

theorem witness_VectorWordsCheckFirst : let o : V3 := ⟨99, .reg 98, .sca 63⟩
    let rs := (o.d, 1) :: (o.a.range 1 ++ o.b.range 1)
    (∃ p ∈ ((⟨100, .reg 98, .sca 63⟩ : V3).d, 1) :: rs, (checking 0).g.nregs < p.1 + p.2) ∧ (∀ p ∈ rs, p.1 + p.2 ≤ (checking 0).g.nregs) ∧
    o.d < (checking 100).g.live ∧ (checking 99).g.live ≤ o.d ∧ hazard (checking 99) (regsOf rs) o.b.scalars = true := by decide +kernel

end Sys2Proof.Tests
end

section
/-! The end of a step, and the fields of the state that it leaves alone (R5, R416). -/

namespace Sys2Proof.Machine

open Sys2Proof

/-- What every function of a fold leaves unchanged, the fold leaves unchanged. -/
theorem foldl_keeps {α β γ : Type} (p : α → γ) {f : α → β → α} (h : ∀ a b, p (f a b) = p a) (xs : List β) (a : α) :
    p (xs.foldl f a) = p a := by
  induction xs generalizing a with
  | nil => rfl
  | cons x xs ih => rw [List.foldl_cons, ih, h]

/-- No word is in execution where no group is in focus. -/
theorem unfocus_idle (s : State) :
    (unfocus s).g = Group.idle ∧ (unfocus s).sp = Split.idle ∧ (unfocus s).iss = Issue.idle := by
  unfold unfocus
  split <;> exact ⟨rfl, rfl, rfl⟩

/-- A change of an owner's record changes the tenancy alone. -/
theorem modOwner_frame (n : Nat) (f : Owner → Owner) (s : State) : { modOwner n f s with ten := s.ten } = s := by
  unfold modOwner
  split <;> rfl

/-- Keeping the starts of the owners' waits changes the tenancy alone. -/
theorem keepWaits_frame (s : State) : { keepWaits s with ten := s.ten } = s := by
  refine foldl_keeps (fun u : State => { u with ten := s.ten }) (fun u n => ?_) _ s
  dsimp only
  split
  · rfl
  · exact congrArg (fun v : State => { v with ten := s.ten }) (modOwner_frame n _ u)

/-- What the end of a step gives beside the groups, the tenancy and the device: the state with no group in focus, its writes stored
into the memory before the step, or, after a loss of power, into none. -/
theorem settle_frame (old s : State) :
    { settle old s with groups := s.groups, ten := s.ten, dev := s.dev } =
      { unfocus s with groups := s.groups, ten := s.ten, dev := s.dev,
                       mem := memApply (if (unfocus s).mem = [] then [] else old.mem) (unfocus s).wq, wq := [] } :=
  congrArg (fun u : State => { u with groups := s.groups, ten := s.ten, dev := s.dev }) (keepWaits_frame (restamp old _))

/-- The end of a step leaves no word in execution and no write behind. -/
theorem settle_settled (old s : State) : (settle old s).Settled := by
  obtain ⟨hg, hsp, hiss⟩ := unfocus_idle s
  have h := settle_frame old s
  exact ⟨(congrArg State.g h).trans hg, (congrArg State.sp h).trans hsp, (congrArg State.iss h).trans hiss, congrArg State.wq h⟩

/-- The memory after a step. -/
theorem settle_mem (old s : State) :
    (settle old s).mem = memApply (if (unfocus s).mem = [] then [] else old.mem) (unfocus s).wq :=
  congrArg State.mem (settle_frame old s)

/-- The end of a step keeps memory canonical: it stores writes into the old memory, or into none. -/
theorem settle_mem_wf {old : State} (h : Memory.wf old.mem = true) (s : State) : Memory.wf (settle old s).mem = true := by
  rw [settle_mem]
  split
  · exact memApply_wf rfl _
  · exact memApply_wf h _

/-- What settles an outcome is the end of the step. -/
theorem settleOut_next {old t : State} {o : Out} (h : settleOut old o = .next t) : ∃ s, o = .next s ∧ t = settle old s := by
  cases o with
  | next s => exact ⟨s, rfl, by injection h with h; exact h.symm⟩
  | fault f => cases h
  | refused r => cases h

/-- Every step ends with the end of a step. -/
theorem step_settles {s t : State} (h : step s = .next t) : ∃ u, t = settle s u := by
  unfold step at h
  split at h <;> exact (settleOut_next h).imp fun _ hu => hu.2

/-- Settles O57: whatever the agenda's entry or the schedule does, the end of the step puts its writes into the canonical
memory of before and takes the focus away. -/
theorem stepKeepsInv : Obligations.StepKeepsInv := by
  rintro s t ⟨hwf, -⟩ hst
  obtain ⟨u, rfl⟩ := step_settles hst
  exact ⟨settle_mem_wf hwf u, settle_settled s u⟩

end Sys2Proof.Machine
end

section
/-! What the start, the resets and the records of the device change, and what they leave alone (R391, R463 to R488). -/

namespace Sys2Proof.Machine

open Sys2Proof

/-! Lists and maps. -/

/-- A place of a list reads as what was put there. -/
theorem nthD_set {α : Type} (d v : α) {xs : List α} {i : Nat} (h : i < xs.length) : nthD d (xs.set i v) i = v := by
  simp [nthD, h]

/-- The first element that a test picks is still picked after its own change, where the test still holds of it. -/
theorem find?_updateFirst {α : Type} {p : α → Bool} {f : α → α} {xs : List α} {x : α} (h : xs.find? p = some x)
    (hp : p (f x) = true) : (updateFirst p f xs).find? p = some (f x) := by
  induction xs with
  | nil => simp at h
  | cons y ys ih =>
    by_cases hy : p y = true
    · obtain rfl : y = x := by simpa [hy] using h
      simp [updateFirst, hy, hp]
    · have h := ih (by simpa [hy] using h)
      simpa [updateFirst, hy] using h

/-- The first element that a test picks is still picked after a change of all that it picks. -/
theorem find?_updateAll {α : Type} {p : α → Bool} {f : α → α} {xs : List α} {x : α} (h : xs.find? p = some x)
    (hp : p (f x) = true) : (updateAll p f xs).find? p = some (f x) := by
  induction xs with
  | nil => simp at h
  | cons y ys ih =>
    by_cases hy : p y = true
    · obtain rfl : y = x := by simpa [hy] using h
      simp [updateAll, hy, hp]
    · have h := ih (by simpa [hy] using h)
      simpa [updateAll, hy] using h

/-- In a list with one element for each number below n, the element of a number is found by its key. -/
theorem find?_range_map {α : Type} {f : Nat → α} {key : α → Nat} (hk : ∀ i, key (f i) = i) {n i : Nat} (h : i < n) :
    ((List.range n).map f).find? (fun x => key x == i) = some (f i) := by
  have : ((fun x => key x == i) ∘ f) = (fun j => j == i) := by funext j; simp [hk]
  have hf : (List.range n).find? (fun j => j == i) = some i := by
    rw [List.find?_range_eq_some]
    simpa [h] using fun j hj => Nat.ne_of_lt hj
  rw [List.find?_map, this, hf, Option.map_some]

/-- The rest of a list from a place within it on ends with its last element. -/
theorem getLast?_drop_snoc {α : Type} {xs : List α} {x : α} {k : Nat} (h : k < (xs ++ [x]).length) :
    ((xs ++ [x]).drop k).getLast? = some x := by
  rw [List.getLast?_drop, if_neg (by omega), List.getLast?_concat]

/-- The last elements of a list, up to n of them, are no more than n. -/
theorem length_ring_le {α : Type} (xs : List α) (n : Nat) : (xs.drop (xs.length - n)).length ≤ n := by
  rw [List.length_drop]
  omega

/-- A key that a map does not list reads as the default. -/
theorem mapGet_unlisted {α : Type} {d : α} {m : SMap α} {k : Nat} (h : ∀ p ∈ m, p.1 ≠ k) : mapGet d m k = d := by
  have : m.find? (fun p => p.1 == k) = none := by simpa using h
  simp [mapGet, this]

/-! Lookups of a changed group, span or context. -/

/-- Where no group is in focus, the groups are those of the list. -/
theorem groupOf?_unfocused {s : State} (hs : s.g.gid = 0) (n : Nat) : groupOf? s n = s.groups.find? (fun g => g.gid == n) := by
  simp [groupOf?, allGroups, hs]

/-- A change of a group that is not in focus changes the list of groups alone. -/
theorem modGroup_unfocused {s : State} {n : Nat} (h : s.g.gid ≠ n) (f : Group → Group) :
    modGroup n f s = { s with groups := updateAll (fun g => g.gid == n) f s.groups } := if_neg h

/-- A group not in focus reads as changed. -/
theorem groupOf?_modGroup {s : State} {g : Group} {f : Group → Group} (hs : s.g.gid = 0) (hg : g.gid ≠ 0)
    (h : groupOf? s g.gid = some g) (hf : (f g).gid = g.gid) : groupOf? (modGroup g.gid f s) g.gid = some (f g) := by
  rw [modGroup_unfocused (by rw [hs]; exact Ne.symm hg), groupOf?_unfocused (by exact hs)]
  exact find?_updateAll (groupOf?_unfocused hs _ ▸ h) (by simpa using hf)

/-- A span reads as changed. -/
theorem spanOf?_modSpan {s : State} {x : Span} {f : Span → Span} (h : spanOf? s x.uid = some x) (hf : (f x).uid = x.uid) :
    spanOf? (modSpan x.uid f s) x.uid = some (f x) := find?_updateFirst h (by simpa using hf)

/-- A context reads as changed. -/
theorem ctxOf?_modCtx {s : State} {c : Context} {f : Context → Context} (h : ctxOf? s c.num = some c) (hf : (f c).num = c.num) :
    ctxOf? (modCtx c.num f s) c.num = some (f c) := find?_updateFirst h (by simpa using hf)

/-! What changes the device alone, or little beside it. -/

/-- R478: an error record changes the error ring alone. -/
theorem appendError_frame (r : ErrRec) (s : State) :
    { appendError r s with dev := { (appendError r s).dev with errRing := s.dev.errRing, errLost := s.dev.errLost } } = s := by
  unfold appendError
  dsimp only
  split
  · rfl
  · split <;> rfl

/-- What the start at stage 3 works on leaves unchanged: the stage and its error, the links, and memory. -/
def startView (s : State) : Nat × Nat × List Link × List Host.Cell := (s.dev.stage, s.dev.bootError, s.dev.links, s.mem)

/-- R478: an error record leaves the start's view unchanged. -/
theorem startView_appendError (r : ErrRec) (s : State) : startView (appendError r s) = startView s :=
  (congrArg startView (appendError_frame r s) :)

/-- R483: the retirement of a core leaves the start's view unchanged. -/
theorem startView_retireCore (die core : Nat) (s : State) : startView (retireCore die core s) = startView s := by
  unfold retireCore
  split
  · rfl
  · exact startView_appendError _ _

/-- R483: the self-tests of the cores leave the start's view unchanged. -/
theorem startView_selfTests (s : State) : startView (selfTests s) = startView s := by
  refine foldl_keeps startView (fun u i => ?_) _ (draw s).2
  split
  · exact startView_retireCore _ _ u
  · rfl

/-- R480: the repair of a row leaves the start's view unchanged. -/
theorem startView_repairRow (r : Repair) (s : State) : startView (repairRow r s) = startView s := by
  unfold repairRow
  dsimp only
  split
  · rfl
  · split <;> rfl

/-- R482: the 30 links that a training leaves are as they start: not in training, with nothing sent; all are up where it was complete. -/
theorem linkOf?_trainLinks (ok : Bool) (s : State) {p : Nat} (hp : p < 30) :
    ∃ l, linkOf? (trainLinks ok s) p = some l ∧ (ok = true → l.up = true) ∧ l.training = false ∧ l.nextSend = 0 ∧ l.nextRecv = 0 ∧
      l.unacked = [] := by
  refine ⟨_, find?_range_map (key := Link.port) (fun _ => rfl) hp, ?_⟩
  simp +contextual [Link.initial]

/-- R484: mapping quads to spares changes their records in the device alone. -/
theorem remapQuads_eq (s : State) : ∃ sp n qs,
    remapQuads s = { s with dev := { s.dev with spares := sp, remaps := n, disabledQuads := qs } } := by
  refine List.foldlRecOn (motive := fun u : State => ∃ sp n qs, u = { s with dev := { s.dev with spares := sp, remaps := n, disabledQuads := qs } })
    _ _ ⟨_, _, _, rfl⟩ ?_
  rintro _ ⟨sp, n, qs, rfl⟩ q -
  dsimp only
  split <;> exact ⟨_, _, _, rfl⟩

end Sys2Proof.Machine
end

section
/-! The statement about the start, the watchdogs, the resets, the lifetime record and the access codes, clause by clause. -/

namespace Sys2Proof.Machine

open Sys2Proof

/-! The start. -/

/-- R463: ROM starts at stage 0. -/
theorem execResetRelease_rom {s : State} (h : s.dev.stage = 0) :
    execResetRelease s = .next { s with dev := { s.dev with stage := 1, udsLocked := true } } := by
  simp [execResetRelease, h]

/-- R465: ROM takes the preferred image, or notes its failure; then the other one, or halts safe. -/
theorem execResetRelease_image {s : State} (h : s.dev.stage = 1) :
    let first := s.dev.preferred % 2
    let d : Device :=
      if s.dev.bootError = 0 then
        (if slotGood s first then { s.dev with stage := 2, bootSlot := first } else { s.dev with bootError := first + 1 })
      else if slotGood s (1 - first) then { s.dev with stage := 2, bootSlot := 1 - first }
      else { s.dev with stage := 15, bootError := 3 }
    execResetRelease s = .next { s with dev := d } := by
  simp only [execResetRelease, h, one_ne_zero, ne_eq, not_true_eq_false, if_false]
  split
  · split <;> rfl
  · split <;> rfl

/-- R463, R464: HBM that does not train halts the start. -/
theorem execHbmTrainingComplete_fails {s : State} (h : s.dev.stage = 2) (ok : Bool) :
    execHbmTrainingComplete false ok s = .next { s with dev := { s.dev with stage := 15, bootSlot := 3, bootError := 4 } } := by
  simp [execHbmTrainingComplete, h]

/-- R463, R482, R483: after the training stage 3 stands, with the 30 links fresh. -/
theorem execHbmTrainingComplete_trains {s : State} (h : s.dev.stage = 2) (ok : Bool) :
    ∃ t, execHbmTrainingComplete true ok s = .next t ∧ t.dev.stage = 3 ∧ t.dev.bootError = (if ok then s.dev.bootError else 5) ∧
      (∀ p, p < 30 → ∃ l, linkOf? t p = some l ∧ (ok = true → l.up = true) ∧ l.training = false ∧ l.nextSend = 0 ∧ l.nextRecv = 0 ∧
        l.unacked = []) ∧ t.mem = s.mem := by
  let u : State := { s with dev := { s.dev with stage := 3, bootError := if ok then s.dev.bootError else 5 } }
  have hv : startView (selfTests (u.dev.repairs.foldl (fun v r => repairRow r v) (trainLinks ok u))) = startView (trainLinks ok u) :=
    (startView_selfTests _).trans (foldl_keeps startView (fun v r => startView_repairRow r v) _ _)
  simp only [startView, Prod.mk.injEq] at hv
  obtain ⟨hstage, herr, hlinks, hmem⟩ := hv
  refine ⟨_, by simp only [execHbmTrainingComplete, h]; rfl, hstage, herr, fun p hp => ?_, hmem⟩
  rw [linkOf?, hlinks]
  exact linkOf?_trainLinks ok u hp

/-- R463, R485, R486: full function begins, its harts run, and the journal entries still pending close with status 7. -/
theorem execFullFunctionStart_starts {s : State} (h : s.dev.stage = 3) :
    ∃ t, execFullFunctionStart s = .next t ∧ t.dev.stage = 4 ∧ t.dev.alias2 = alias2Key s ∧ t.dev.chain = certificateChain s ∧
      t.dev.harts = List.replicate 8 true ∧ t.front.journal = s.front.journal.map (fun e =>
        if e.status = 255 then { e with status := 7, done := s.tick } else e) ∧
      (s.dev.journalAt ≠ [] → t.dev.journalAt = s.dev.journalAt) ∧ t.mem = s.mem := by
  refine ⟨_, if_neg (by simp [h]), rfl, rfl, rfl, rfl, ?_, fun hj => if_neg hj, rfl⟩
  simp [closeJournal, updateAll]

/-! Watchdogs and resets. -/

/-- R467: a watchdog of H0 resets the device. -/
theorem execWatchdogExpiry_first {s : State} (h : nthD false s.dev.harts 0 = true) :
    execWatchdogExpiry 0 s = .next (resetDevice s) := by simp [execWatchdogExpiry, h, hartLost]

/-- R467: any other restarts its hart. -/
theorem execWatchdogExpiry_other {s : State} {hart : Nat} (h : nthD false s.dev.harts hart = true) (h0 : hart ≠ 0) :
    execWatchdogExpiry hart s = .next (restartHart hart s) := by simp [execWatchdogExpiry, h, hartLost, h0]

/-- R486: a device reset starts from the reset state with what is kept; only the mapping of the quads follows. -/
theorem resetDevice_eq (s : State) : ∃ sp n qs, resetDevice s =
    { State.reset with
      mem := s.mem, wq := s.wq, side := poisonOnly s.side,
      front := { State.reset.front with journal := s.front.journal, jseq := s.front.jseq, acked := s.front.acked },
      ten := { State.reset.ten with
        owners := s.ten.owners.map (fun o => { Owner.initial o.num with usage := o.usage, usageEnd := o.usageEnd }),
        epoch := s.ten.epoch, periods := s.ten.periods, periodTick := s.ten.periodTick },
      dev := { keptDevice s with spares := sp, remaps := n, disabledQuads := qs },
      pkg := s.pkg, tick := s.tick, uid := s.uid, free := s.free, turn := s.turn, agenda := s.agenda } := remapQuads_eq _

/-- R433, R486: what a reset keeps of the side-band bits reads as poison exactly where the line was poisoned. -/
theorem sideSt_poisonOnly {m : SMap Nat} (h : m.Pairwise (fun p q => p.1 < q.1)) (k : Nat) :
    (sideSt (mapGet 0 (poisonOnly m) k) == 7) = (sideSt (mapGet 0 m k) == 7) := by
  induction m with
  | nil => rfl
  | cons p m ih =>
    obtain ⟨hp, hm⟩ := List.pairwise_cons.mp h
    have ih := ih hm
    unfold poisonOnly at ih ⊢
    rw [List.filter_cons, mapGet_cons]
    by_cases hk : p.1 = k
    · have hnone : mapGet 0 (m.filter (fun q => sideSt q.2 == 7)) k = 0 :=
        mapGet_unlisted fun q hq => hk ▸ Nat.ne_of_gt (hp q (List.mem_filter.mp hq).1)
      by_cases h7 : (sideSt p.2 == 7) = true
      · simp [h7, mapGet_cons, hk]
      · simp only [Bool.not_eq_true] at h7
        have h0 : (sideSt 0 == 7) = false := rfl
        simp only [h7, hk, hnone, h0, Bool.false_eq_true, if_false, if_true]
    · by_cases h7 : (sideSt p.2 == 7) = true
      · simp [h7, mapGet_cons, hk, ih]
      · simp [h7, hk, ih]

/-- R433, R486: a device reset keeps every poisoned line, and makes none. -/
theorem isPoisoned_resetDevice {s : State} (h : s.side.Pairwise (fun p q => p.1 < q.1)) (a : Nat) :
    isPoisoned (resetDevice s) a = isPoisoned s a := by
  obtain ⟨sp, n, qs, hr⟩ := resetDevice_eq s
  rw [hr]
  exact sideSt_poisonOnly h (lineOf a)

/-! The lifetime record. -/

/-- R488: the record of the hour that ends. -/
def hourRecord (s : State) : LifeRec :=
  { tick := s.tick, epoch := s.ten.epoch, ecc := s.dev.hourEcc,
    links := (List.range 24).map (fun p => ((linkOf? s p).map (fun l => l.retrains)).getD 0),
    aborts := s.dev.aborts, sat := s.dev.satTicks,
    repair := [s.dev.repairs.length, s.dev.rowsRepaired, s.dev.retiredCores.length, s.dev.spares.sum],
    sensors := (List.range 288).map (fun i => Config.sensorBins i (draw s).1) }

/-- R488: at an hour of the tick count the hour's record joins the ring of 4096 and its counts start again. -/
theorem execLifetimeRecord_hour {s : State} (h0 : s.tick ≠ 0) (hh : s.tick % 900000000000 = 0)
    (hn : ∀ r ∈ s.dev.lifeRing, r.tick ≠ s.tick) :
    ∃ t, execLifetimeRecord s = .next t ∧
      t.dev.lifeRing = (s.dev.lifeRing ++ [hourRecord s]).drop ((s.dev.lifeRing ++ [hourRecord s]).length - 4096) ∧
      t.dev.lifeTotal.sat = s.dev.lifeTotal.sat + s.dev.satTicks ∧ t.dev.hourEcc = List.replicate 24 0 ∧ t.dev.aborts = [0, 0, 0, 0] ∧
      t.dev.satTicks = 0 ∧ t.mem = s.mem := by
  have hc : ¬ (s.tick = 0 ∨ s.tick % 900000000000 ≠ 0 ∨ s.dev.lifeRing.any (fun r => r.tick == s.tick) = true) := by
    simpa [h0, hh] using hn
  refine ⟨_, if_neg hc, ?_, rfl, rfl, rfl, rfl, rfl⟩
  simp only [draw, hourRecord]
  rfl

/-! Writes of registers. -/

/-- A write of a register or field is one under its access code. -/
theorem exec_registerWrite (fw : Bool) (reg : RegSel) (value : Nat) (s : State) :
    exec (.registerWrite fw reg value) s = execRegisterWrite fw reg value s := rfl

/-- R5, R26: a write of %fmode sets its low five bits, unless it names a reserved rounding. -/
theorem execRegisterWrite_fmode (fw : Bool) (gid value : Nat) (s : State) :
    execRegisterWrite fw (.fmode gid) value s =
      .next (if 6 ≤ value % 8 then s else modGroup gid (fun g => { g with fmode := BitVec.ofNat 32 (value % 32) }) s) := by
  unfold execRegisterWrite
  split_ifs <;> rfl

/-- R5, R387: firmware sets a partition's slot quota where the quotas fit the front end's slots. -/
theorem execRegisterWrite_slotQuota {part : Nat} (hp : part < 16) (value : Nat) (s : State) :
    execRegisterWrite true (.slotQuota part) value s =
      .next (if 128 < (((List.range 16).filter (fun p => p != part)).map (slotQuotaOf s)).sum + value then s
        else { s with ten := { s.ten with slotQuota := mapSet 8 s.ten.slotQuota part value } }) := by
  unfold execRegisterWrite
  split_ifs <;> simp [hp] <;> omega

/-- R5, R345: firmware's write of the pool word of a die in a context record is the setting of that pool. -/
theorem execRegisterWrite_pool (ctx : Nat) {die : Nat} (hd : die < 4) (word : W64) (s : State) :
    execRegisterWrite true (.contextWord ctx (64 + 8 * die)) word.toNat s = execPoolWordSet ctx die word s := by
  have hlo : ¬ 256 ≤ 64 + 8 * die := by omega
  have hin : 64 ≤ 64 + 8 * die ∧ 64 + 8 * die < 96 ∧ (64 + 8 * die) % 8 = 0 := by omega
  have hdie : (64 + 8 * die - 64) / 8 = die := by omega
  unfold execRegisterWrite
  simp only [hlo, hin, hdie, not_true_eq_false, or_self, if_false, and_self, if_true, BitVec.ofNat_toNat, BitVec.setWidth_eq]

/-- R5, R394: firmware's write of the first word of a context record sets the base of its save area. -/
theorem execRegisterWrite_save (ctx : Nat) {value : Nat} (hlt : value < 2 ^ 64) (hv : value % 65536 = 0) (s : State) :
    execRegisterWrite true (.contextWord ctx 0) value s = .next (modCtx ctx (fun c => { c with save := value }) s) := by
  change Host.Outcome.next (writeCtxWord ctx 0 (value % 2 ^ 64) s) = _
  rw [Nat.mod_eq_of_lt hlt]
  exact congrArg _ (if_pos hv)

/-- R5, R414: firmware's write of the first word of a translation domain record sets the root of its tables. -/
theorem execRegisterWrite_root (ctx : Nat) {value : Nat} (hlt : value < 2 ^ 64) (hv : value % 131072 = 0) (s : State) :
    execRegisterWrite true (.domainWord ctx 0) value s = .next (modCtx ctx (fun c => { c with root1 := value }) s) := by
  change Host.Outcome.next (writeDomWord ctx 0 (value % 2 ^ 64) s) = _
  rw [Nat.mod_eq_of_lt hlt]
  exact congrArg _ (if_pos hv)

/-- Settles O53, clause by clause, from what each event and each write does. -/
theorem deviceStarts : Obligations.DeviceStarts := by
  refine ⟨?rom, ?image, ?training, ?full, ?watchdog, ?reset, ?power, ?hour, ?function, ?readOnly, ?group, ?notFirmware, ?quota, ?key,
    ?doorbell, ?pool, ?barrier, ?partition, ?context⟩
  case rom => exact fun s h => execResetRelease_rom h
  case image => exact fun s h => execResetRelease_image h
  case training => exact fun s ok h => ⟨execHbmTrainingComplete_fails h ok, execHbmTrainingComplete_trains h ok⟩
  case full => exact fun s h => execFullFunctionStart_starts h
  case watchdog =>
    refine fun s hart h hlen => ⟨?_, fun h0 => ⟨restartHart hart s, execWatchdogExpiry_other h h0, rfl, nthD_set 0 _ hlen, rfl, rfl⟩⟩
    rintro rfl
    exact execWatchdogExpiry_first h
  case reset =>
    intro s hside
    refine ⟨resetDevice s, rfl, ?_⟩
    have hpoison := isPoisoned_resetDevice hside
    obtain ⟨sp, n, qs, hr⟩ := resetDevice_eq s
    rw [hr] at hpoison ⊢
    exact ⟨rfl, rfl, rfl, hpoison, rfl, rfl, rfl, rfl, rfl, rfl, rfl, rfl, rfl, rfl, rfl, rfl, rfl, rfl, rfl, rfl, rfl, rfl⟩
  case power =>
    intro s
    refine ⟨_, rfl, ?_⟩
    obtain ⟨sp, n, qs, hr⟩ := resetDevice_eq (draw s).2
    rw [hr]
    exact ⟨rfl, rfl, rfl, rfl, rfl, rfl, rfl, rfl, rfl, rfl, rfl, rfl, rfl⟩
  case hour =>
    intro s h0 hh hn
    obtain ⟨t, ht, hring, hrest⟩ := execLifetimeRecord_hour h0 hh hn
    refine ⟨t, hourRecord s, ht, ?_, ?_, rfl, rfl, rfl, rfl, rfl, hrest⟩
    · rw [hring]
      exact getLast?_drop_snoc (Nat.sub_lt (by simp) (by omega))
    · rw [hring]
      exact length_ring_le _ _
  case function => exact fun s func => ⟨_, rfl, rfl, rfl, rfl, fun f => mapGet_mapSet 0 _ func f 0, rfl⟩
  case readOnly => exact fun s fw gid value => ⟨rfl, rfl⟩
  case group =>
    intro s g fw lane value hs hg h hl
    refine ⟨fun hv => ⟨_, _, ?_, groupOf?_modGroup (f := fun g => { g with fmode := BitVec.ofNat 32 (value % 32) }) hs hg h rfl, rfl⟩, fun hv => ?_,
      ⟨_, _, rfl, groupOf?_modGroup hs hg h rfl, rfl⟩, ⟨_, _, if_pos hl, groupOf?_modGroup hs hg h rfl, ?_, fun k hk => ?_, rfl⟩⟩
    · rw [exec_registerWrite, execRegisterWrite_fmode, if_neg (by omega)]
    · rw [exec_registerWrite, execRegisterWrite_fmode, if_pos hv]
    · rw [mapGet_mapSet, if_pos rfl]
    · rw [mapGet_mapSet, if_neg hk]
  case notFirmware => exact fun s a b value => ⟨rfl, rfl, rfl, rfl, rfl, rfl, rfl⟩
  case quota => exact fun s part value hp => execRegisterWrite_slotQuota hp value s
  case key =>
    intro s key value h1 h2
    refine ⟨_, if_pos (by simp [h1, h2]), ?_, fun k hk => ?_⟩
    · by_cases hv : value % 2 = 1 <;> simp [hv]
    · by_cases hv : value % 2 = 1 <;> simp [hv, hk]
  case doorbell => exact fun s value h => if_pos (by simp [h])
  case pool => exact fun s ctx die word hd => execRegisterWrite_pool ctx hd word s
  case barrier =>
    intro s x idx value b hx hb
    obtain ⟨hlt, rfl⟩ := List.getElem?_eq_some_iff.mp hb
    refine ⟨_, _, rfl, spanOf?_modSpan hx ?_, ?_⟩
    · simp [hlt]
    · simp [hlt, nthD, Barrier.write]
  case partition =>
    intro s die quad value hd hq h
    refine if_pos ?_
    simpa [hd, hq] using h
  case context =>
    intro s c value hc hv hlt
    refine ⟨⟨_, _, execRegisterWrite_save c.num hlt hv s, ctxOf?_modCtx hc rfl, rfl⟩,
      fun hr => ⟨_, _, execRegisterWrite_root c.num hlt hr s, ctxOf?_modCtx hc rfl, rfl⟩⟩

end Sys2Proof.Machine
end

section
/-! A vector word that fails its checks, or that names a register on its way (R11, R20, R21, R73). -/

namespace Sys2Proof.Machine

open Sys2Proof Sys2Proof.Claims

/-- R11: a range check that fails traps with register-range. -/
theorem rangeTrap_some {s : State} {rs : List (Nat × Nat)} (h : ∃ p ∈ rs, s.g.nregs < p.1 + p.2) :
    rangeTrap s rs = some (plainTrap .registerRange) :=
  if_pos (by simpa [overRange] using h)

/-- R21: a live-in check that fails traps with region-contract. -/
theorem liveTrap_some {s : State} {ds : List Nat} (h : ∃ d ∈ ds, d < s.g.live) :
    liveTrap s ds = some (plainTrap .regionContract) :=
  if_pos (by simpa [inLive] using h)

section
variable {d n : Nat} {srcs : List (Nat × Nat)} {s : State} (scas : List Nat) (f : State → Nat → LaneOut)

/-- R11: a vector word whose ranges do not fit the group's registers traps with register-range. -/
theorem vecWord_overRange (h : ∃ p ∈ (d, n) :: srcs, s.g.nregs < p.1 + p.2) :
    vecWord d n srcs scas f s = .next (takeTrap (plainTrap .registerRange) s) := by
  have htrap : vecTrap s d n srcs = some (plainTrap .registerRange) := by simp only [vecTrap, rangeTrap_some h, firstTrap]
  rw [vecWord, htrap, issueWord]

/-- R21: a vector word whose ranges fit and whose destination is a live-in traps with region-contract. -/
theorem vecWord_liveIn (hr : ∀ p ∈ (d, n) :: srcs, p.1 + p.2 ≤ s.g.nregs) (hl : d < s.g.live) :
    vecWord d n srcs scas f s = .next (takeTrap (plainTrap .regionContract) s) := by
  have htrap : vecTrap s d n srcs = some (plainTrap .regionContract) := by
    rw [vecTrap, (rangeTrap_none s _).mpr hr, liveTrap_some ⟨d, by simp, hl⟩, firstTrap, firstTrap]
  rw [vecWord, htrap, issueWord]

/-- R20, R73: a vector word that passes its checks and names a register on its way is not issued. -/
theorem vecWord_stalls (hr : ∀ p ∈ (d, n) :: srcs, p.1 + p.2 ≤ s.g.nregs) (hl : s.g.live ≤ d)
    (hh : hazard s (regsOf ((d, n) :: srcs)) scas = true) : vecWord d n srcs scas f s = .next (stallWord s) := by
  have htrap : vecTrap s d n srcs = none := by
    simp only [vecTrap, (rangeTrap_none s _).mpr hr, (liveTrap_none s [d]).mpr (by simpa using hl), firstTrap]
  rw [vecWord, htrap, issueWord, if_pos hh]

end

/-- R97 to R102: the integer and the 32-bit floating-point words of two operands are vector words of 32-bit shapes. -/
theorem exec_word32 {op : V3 → Instr} (h : op ∈ integerRows.map (fun r => r.1) ++ floatRows.map (fun r => r.1)) (o : V3) (s : State) :
    ∃ f, exec (op o) s = vecWord o.d 1 (o.a.range 1 ++ o.b.range 1) o.b.scalars f s := by
  fin_cases h <;> exact ⟨_, rfl⟩

/-- Settles O60: each of these words is a vector word, and a vector word makes its checks in this order before anything else. -/
theorem vectorWordsCheckFirst : Obligations.VectorWordsCheckFirst := by
  intro op hop o s
  obtain ⟨f, hf⟩ := exec_word32 hop o s
  rw [hf]
  exact ⟨vecWord_overRange _ f, vecWord_liveIn _ f, vecWord_stalls _ f⟩

end Sys2Proof.Machine
end

section
/-! Every instruction and event answers a next state: the model has no fault, and no arm refuses. -/

namespace Sys2Proof.Machine

open Sys2Proof

/-- An outcome is a next state. -/
def Answers (o : Out) : Prop := ∃ t, o = .next t

theorem answers_next (t : State) : Answers (.next t) := ⟨t, rfl⟩

theorem answers_issueWord (trap : Option Trap) (vs ss : List Nat) (eff : State → State) (s : State) :
    Answers (issueWord trap vs ss eff s) := ⟨_, issueWord_eq ..⟩

theorem answers_S3_word (o : S3) (f : W64 → W64 → W64) (s : State) : Answers (o.word f s) := by
  unfold S3.word scaWord
  exact answers_issueWord ..

theorem answers_S2_word (o : S2) (f : W64 → W64) (s : State) : Answers (o.word f s) := by
  unfold S2.word scaWord
  exact answers_issueWord ..

theorem answers_atomOp (op : Nat) (o : AtomOp) (s : State) : Answers (atomOp op o s) := by
  unfold atomOp
  split <;> exact answers_issueWord ..

theorem answers_request (func code seq : Nat) (pf : Bool) (f : State → (Nat × List Byte) × State) (s : State) :
    Answers (request func code seq pf f s) := by
  unfold request
  split_ifs <;> exact answers_next _

theorem answers_updateRequest (func code seq : Nat) (f : State → (Nat × List Byte) × State) (s : State) :
    Answers (updateRequest func code seq f s) := by
  unfold updateRequest
  split_ifs <;> exact answers_next _

theorem answers_mmRequest (q : MmReq) (s : State) : Answers (mmRequest q s) := by
  unfold mmRequest
  split_ifs
  case neg => cases q.answer s <;> exact answers_next _
  all_goals exact answers_next _

theorem answers_startType (ok : Nat → Bool) (qid : Nat) (f : Queue → Packet → State → State) (s : State) :
    Answers (startType ok qid f s) := by
  unfold startType
  repeat' first | exact answers_next _ | split

theorem answers_startOrResume (type qid : Nat) (f : Queue → Packet → State → State) (s : State) :
    Answers (startOrResume type qid f s) := by
  unfold startOrResume
  repeat' first | exact answers_startType .. | exact answers_next _ | split

theorem answers_poolWordSet (ctx die : Nat) (word : W64) (s : State) : Answers (execPoolWordSet ctx die word s) := by
  unfold execPoolWordSet
  dsimp only
  split <;> exact answers_next _

theorem answers_homeWriteApply (entry : Nat) (s : State) : Answers (execHomeWriteApply entry s) := by
  unfold execHomeWriteApply
  repeat' first | exact answers_next _ | split

/-- R18 to R20, R463: the meaning of every instruction and event is a next state. -/
theorem exec_answers (i : Instr) (s : State) : Answers (exec i s) := by
  cases i
  -- Scalar words.
  case sadd | ssub | smul | smulhiN64 | sand | sor | sxor | sshl | sshr | ssra | sminI64 | smaxI64 | sminN64 | smaxN64 | smov |
      ssetEq | ssetLtI64 | ssetLtN64 | shi =>
    simp only [exec, answers_S3_word, answers_S2_word, execSadd, execSsub, execSmul, execSmulhiN64, execSand, execSor, execSxor, execSshl,
      execSshr, execSsra, execSminI64, execSmaxI64, execSminN64, execSmaxN64, execSmov, execSsetEq, execSsetLtI64,
      execSsetLtN64, execShi]
  -- Atomics.
  case atomAddI32 | atomAddI64 | atomFaddF32 | atomFaddBf16x2 | atomMinI32 | atomMaxI32 | atomMinN32 | atomMaxN32 | atomAndB32 |
      atomOrB32 | atomXorB32 | atomXchgB32 | atomXchgB64 =>
    simp only [exec, answers_atomOp, execAtomAddI32, execAtomAddI64, execAtomFaddF32, execAtomFaddBf16x2, execAtomMinI32, execAtomMaxI32,
      execAtomMinN32, execAtomMaxN32, execAtomAndB32, execAtomOrB32, execAtomXorB32, execAtomXchgB32, execAtomXchgB64]
  -- Words that read scalars, masks or nothing else.
  case qlevel | mcount | mfirst | mfrom | sfromLane | sldB64 | sstB64 | arriveRemote | watch | waitu | beatReg | brz | brnz |
      call | callr | ret | join | msave | mload =>
    simp only [exec, scaWord, matWord, answers_issueWord, execQlevel, execMcount, execMfirst, execMfrom, execSfromLane, execSldB64, execSstB64,
      execArriveRemote, execWatch, execWaitu, execBeatReg, execBrz, execBrnz, execCall, execCallr, execRet, execJoin, execMsave,
      execMload]
  -- Special registers.
  case sreg =>
    simp only [exec, execSreg]
    split_ifs <;> exact answers_issueWord ..
  case swreg =>
    simp only [exec, execSwreg]
    split <;> exact answers_issueWord ..
  -- Requests to the mailbox, and packets.
  case mbUpdateBegin | mbUpdateData | mbUpdateFinish | mbUpdateCommit =>
    simp only [exec, answers_updateRequest, execMbUpdateBegin, execMbUpdateData, execMbUpdateFinish, execMbUpdateCommit]
  case mmMap | mmUnmap | mmProtect | mmRunChange | mmStage2Change | segmentCreate | segmentAttach =>
    simp only [exec, answers_mmRequest, execMmMap, execMmUnmap, execMmProtect, execMmRunChange, execMmStage2Change, execSegmentCreate,
      execSegmentAttach]
  case nopPacket | launchPacket | gangPacket | loopSet | windowBind | paramBind =>
    simp only [exec, answers_startType, execNopPacket, execLaunchPacket, execGangPacket, execLoopSet, execWindowBind, execParamBind]
  case waitPacket | signalPacket | fencePacket | barrierAnd =>
    simp only [exec, answers_startOrResume, execWaitPacket, execSignalPacket, execFencePacket, execBarrierAnd]
  case queueRegister | queueUnregister | queueRestart | journalAcknowledge | mbAttestationReport | mbCertificateChain |
      mbErrorRingRead | mbLifetimeRead | usageSnapshot | ownerRecordWrite | lendEntryWrite | recallRequest | partitionReset |
      wayMaskSet | occupancyRead | wayBudgetSet | channelQuotaSet | clockCapSet | loopRecordRead =>
    simp only [exec, answers_request, execQueueRegister, execQueueUnregister, execQueueRestart, execJournalAcknowledge,
      execMbAttestationReport, execMbCertificateChain, execMbErrorRingRead, execMbLifetimeRead, execUsageSnapshot,
      execOwnerRecordWrite, execLendEntryWrite, execRecallRequest, execPartitionReset, execWayMaskSet, execOccupancyRead,
      execWayBudgetSet, execChannelQuotaSet, execClockCapSet, execLoopRecordRead]
  -- Loads, stores, transactions and faults.
  case storeClaimAnswer | entryDrainAck | loadDataReturn | homeWriteApply | actingHomeForward | atomicLanePerform |
      keystoneRequest | txValidationResult | txSliceReceive | txSliceLock | serialTokenGrant | faultDeclareUnresolvable |
      faultQueueReadAdvance =>
    simp only [exec, execStoreClaimAnswer, execEntryDrainAck, execLoadDataReturn, execHomeWriteApply, execActingHomeForward,
      execAtomicLanePerform, execKeystoneRequest, execTxValidationResult, execTxSliceReceive, execTxSliceLock,
      execSerialTokenGrant, execFaultDeclareUnresolvable, execFaultQueueReadAdvance]
    repeat' first | exact answers_next _ | split
  -- Watches and barriers, and the engines.
  case watchListScanEnd | watchRegistration | watchWithdraw | watchFireDelivery | hwBarrierComplete | tileOpComplete |
      copyTransferWrite | functionResultPlace | selectResultPlace | xshfExchange | xshfTimeout | putAck | collFlush |
      userRoutineLoad | mordantDeadline | mordantRelease =>
    simp only [exec, execWatchListScanEnd, execWatchRegistration, execWatchWithdraw, execWatchFireDelivery, execHwBarrierComplete,
      execTileOpComplete, execCopyTransferWrite, execFunctionResultPlace, execSelectResultPlace, execXshfExchange,
      execXshfTimeout, execPutAck, execCollFlush, execUserRoutineLoad, execMordantDeadline, execMordantRelease]
    repeat' first | exact answers_next _ | split
  -- The front end.
  case ringLook | packetAccept | windowBindApply | waitPacketTimeout | packetWatchPoll | waitPageHoldExpiry | gangReserve |
      gangCommit | gangRollback | gangRetry | gangStart =>
    simp only [exec, execRingLook, execPacketAccept, execWindowBindApply, execWaitPacketTimeout, execPacketWatchPoll, execWaitPageHoldExpiry,
      execGangReserve, execGangCommit, execGangRollback, execGangRetry, execGangStart]
    repeat' first | exact answers_next _ | split
  -- Placement and eviction.
  case spanPlace | startGateOpen | issueSetRotate | stealRequest | stealAnswer | groupResourceRelease | spanRetire | spanRestore
      | ownerAgeing | forcedEviction | spanEvictionSave | watchPurge | wakeMessage =>
    simp only [exec, execSpanPlace, execStartGateOpen, execIssueSetRotate, execStealRequest, execStealAnswer, execGroupResourceRelease,
      execSpanRetire, execSpanRestore, execOwnerAgeing, execForcedEviction, execSpanEvictionSave, execWatchPurge,
      execWakeMessage]
    repeat' first | exact answers_next _ | split
  -- Coherence.
  case pageResolve | hostMemoryWrite | hostMemoryRead | gets | getx | wrh | putm | pute | invalidation | invalidationAck |
      pageAttributeWalk | homeTranslationWalk | migrationCountClear | migration | contextPartMove =>
    simp only [exec, execPageResolve, execHostMemoryWrite, execHostMemoryRead, execGets, execGetx, execWrh, execPutm, execPute,
      execInvalidation, execInvalidationAck, execPageAttributeWalk, execHomeTranslationWalk, execMigrationCountClear,
      execMigration, execContextPartMove]
    repeat' first | exact answers_next _ | exact answers_homeWriteApply .. | split
  -- The loops and the device.
  case poolWordSet | sampleLatch | beatGroupMerge | loopUpdate | grantApply | contextCreate | mbBootStatus | registerWrite |
      patrolScrub | frameRetire | flitReceive | flitNack | linkRetrain | retrainComplete | watchdogExpiry | resetRelease |
      hbmTrainingComplete | fullFunctionStart | lifetimeRecord | causewayPortRetry | flitAck =>
    simp only [exec, execPoolWordSet, execSampleLatch, execBeatGroupMerge, execLoopUpdate, execGrantApply, execContextCreate, execMbBootStatus,
      execRegisterWrite, execPatrolScrub, execFrameRetire, execFlitReceive, execFlitNack, execLinkRetrain, execRetrainComplete,
      execWatchdogExpiry, execResetRelease, execHbmTrainingComplete, execFullFunctionStart, execLifetimeRecord,
      execCausewayPortRetry, execFlitAck]
    repeat' first | exact answers_next _ | exact answers_poolWordSet .. | split
  -- The words that make no check, and the events that are one operation on the state.
  case mand | mor | mxor | mandn | mnot | mmov | qbind | qunbind | wait | beat | br | bra | brn | brv | yield | trap |
      doorbellKick | slotMappingPass | contextSwapOut | contextDestroy | nocDrain | regionAbort | splitRestart | waitvDeadline |
      deferredTrapRaise | quiesceIdleComplete | quiesceTimeout | putApply | collCombine | mordantAllocApply | mordantSendArrival
      | mordantFreeArrival | clockStepChange | sramError | deviceReset | powerLoss | debuggerResume | mailboxDoorbell |
      functionLevelReset | getWinRead =>
    exact ⟨_, rfl⟩
  -- The words that are executed under checks.
  all_goals exact answers_issueWord _ _ _ _ _

theorem answers_recordOut {o : Out} (h : Answers o) (gid num : Nat) (old : State) : Answers (recordOut gid num old o) := by
  obtain ⟨t, rfl⟩ := h
  exact answers_next _

theorem answers_settleOut {o : Out} (h : Answers o) (old : State) : Answers (settleOut old o) := by
  obtain ⟨t, rfl⟩ := h
  exact answers_next _

/-- R265: the issue of a split's word answers what the word answers, or takes no word up. -/
theorem answers_issueStep (gid num : Nat) (s : State) : Answers (issueStep gid num s) := by
  unfold issueStep
  split
  · split
    · exact answers_next _
    · exact answers_recordOut (exec_answers _ _) ..
  · exact answers_next _

/-- The schedule's choice is an event that happens, an issue, or the mere passing of a tick. -/
theorem answers_freeStep (s : State) : Answers (freeStep s) := by
  unfold freeStep
  dsimp only
  generalize passTicks 1 s = t
  cases chosen? t <;> cases eventNow t <;>
    simp only [Option.map_some, Option.map_none, Option.or_some, Option.or_none, Option.getD_some, Option.getD_none,
      ite_self]
  case none.none => exact answers_next _
  case none.some => exact answers_next _
  case some.none => exact answers_issueStep ..
  case some.some => split_ifs <;> [exact answers_next _; exact answers_issueStep ..]

theorem answers_stimStep (a : Stim) (s : State) : Answers (stimStep a s) := by
  cases a
  case op i =>
    unfold stimStep
    dsimp only
    split_ifs <;> [exact exec_answers i s; exact answers_next s]
  case issue gid split => exact answers_issueStep gid split s
  all_goals exact answers_next _

/-- Settles O58: every arm of the machine's meaning answers a next state, and the step passes it on. -/
theorem stepNeverStops : Obligations.StepNeverStops := by
  refine ⟨fun s => ?_, exec_answers⟩
  unfold step
  split <;> [exact answers_settleOut (answers_freeStep s) s; exact answers_settleOut (answers_stimStep ..) s]

end Sys2Proof.Machine
end

section
/-! The parts of a blocked word: what a boundary, a wait and an acquire change, and what they leave alone (R20, R205, R300). -/

namespace Sys2Proof.Machine

open Sys2Proof Sys2Proof.Claims

/-! The boundary. -/

/-- The fields that a region boundary may change, as they are in s: of the group in focus its queues, pending subtractions,
transaction and replay counts; the split; the states of store-buffer entries; and what watches, contexts, engines, spans and
collectives hold. -/
def withBoundaryOf (s u : State) : State :=
  { u with
    g := { u.g with queues := s.g.queues, pendings := s.g.pendings, tx := s.g.tx, replays := s.g.replays },
    ms := { u.ms with entries := s.ms.entries },
    sp := s.sp, wat := s.wat, ten := s.ten, eng := s.eng, spans := s.spans, fab := s.fab }

/-- R229: beats change the contexts alone. -/
theorem withBoundaryOf_addBeats (s : State) (n : Nat) (u : State) : withBoundaryOf s (addBeats n u) = withBoundaryOf s u := by
  unfold addBeats
  split <;> rfl

/-- R187, R188, R362: a pending subtraction changes the spans, or the tags of collectives, alone. -/
theorem withBoundaryOf_applyPending (s : State) (p : Pending) (u : State) :
    withBoundaryOf s (applyPending p u) = withBoundaryOf s u := by
  cases p <;> rfl

/-- R300: what a region boundary leaves unchanged. -/
theorem commitRegion_frame (s : State) : withBoundaryOf s (commitRegion s) = s := by
  unfold commitRegion
  exact (foldl_keeps (withBoundaryOf s) (fun u p => withBoundaryOf_applyPending s p u) _ _).trans (withBoundaryOf_addBeats s s.sp.beats _)

/-- R300: a boundary commits the entries of its region, and changes nothing else of the memory system. -/
theorem commitRegion_ms (s : State) : (commitRegion s).ms =
    { s.ms with entries := updateAll (ofRegion s) (fun e => { e with st := .committed }) s.ms.entries } := by
  have hbeats (n : Nat) (u : State) : (addBeats n u).ms = u.ms := by
    unfold addBeats
    split <;> rfl
  have hpend (u : State) (p : Pending) : (applyPending p u).ms = u.ms := by cases p <;> rfl
  unfold commitRegion
  exact (foldl_keeps State.ms hpend _ _).trans (hbeats s.sp.beats _)

/-- R300: after a boundary no entry of its region is open. -/
theorem commitRegion_closed (s : State) :
    ∀ e ∈ (commitRegion s).ms.entries, ¬(e.gid = s.g.gid ∧ e.split = s.sp.num ∧ e.st = .opened) := by
  rw [commitRegion_ms]
  rintro e he ⟨hg, hs, ho⟩
  obtain ⟨x, -, rfl⟩ := List.mem_map.mp he
  by_cases hx : ofRegion s x = true
  · simp [hx] at ho
  · rw [if_neg hx] at hg hs ho
    exact hx (by simp [ofRegion, hg, hs, ho])

/-! Kept registers and memory. -/

/-- What a word keeps that writes no register, no memory and no trap record. -/
def keptView (s : State) : SMap W × SMap W64 × SMap W × SMap W × Flags × W × List Host.Cell × List Host.Cell × List TrapRec :=
  (s.g.regs, s.g.sregs, s.g.kregs, s.g.rng, s.g.flags, s.g.fmode, s.mem, s.wq, s.traps)

theorem kept_iff (s t : State) : Kept s t ↔ keptView t = keptView s := by simp [Kept, keptView]

theorem kept_trans {s t u : State} (h : Kept s t) (k : Kept t u) : Kept s u :=
  (kept_iff s u).mpr (((kept_iff t u).mp k).trans ((kept_iff s t).mp h))

/-- A boundary changes no register, memory or trap record. -/
theorem commitRegion_kept (s : State) : Kept s (commitRegion s) :=
  (kept_iff _ _).mpr (congrArg keptView (commitRegion_frame s) :)

/-! Running the parts. -/

/-- A part that is done leads to the rest. -/
theorem runMicros_done {m : Micro} {s t : State} (h : runMicro m s = .done t) (ms : List Micro) :
    runMicros (m :: ms) s = runMicros ms t := by rw [runMicros, h]

/-- A part that waits holds the split at it and the rest. -/
theorem runMicros_wait {m n : Micro} {s t : State} (h : runMicro m s = .wait n t) (ms : List Micro) :
    runMicros (m :: ms) s = { t with sp := { t.sp with pend := n :: ms } } := by rw [runMicros, h]

/-- The end of a blocked word changes the split alone. -/
theorem runMicros_nil_frame (s : State) : { runMicros [] s with sp := s.sp } = s := by
  unfold runMicros settleRegion
  split <;> rfl

/-- After a blocked word nothing is left to run. -/
theorem runMicros_nil_pend (s : State) : (runMicros [] s).sp.pend = [] := by
  unfold runMicros settleRegion
  split <;> rfl

theorem runMicros_nil_kept (s : State) : Kept s (runMicros [] s) :=
  (kept_iff _ _).mpr (congrArg keptView (runMicros_nil_frame s) :)

theorem waitUntil_true {c : Bool} (h : c = true) (m : Micro) (s : State) : waitUntil c m s = .done s := if_pos h

theorem waitUntil_false {c : Bool} (h : c = false) (m : Micro) (s : State) : waitUntil c m s = .wait m s := by rw [h]; rfl

/-- R300: a region that can end ends at its boundary. -/
theorem runMicro_boundary {s : State} (h : CanEnd s) : runMicro .boundary s = .done (commitRegion s) := by
  obtain ⟨hc, hf⟩ := h
  simp [runMicro, runBoundary, hc, hf]

/-- R282: an acquire at the quad or wider leaves the core no line in its L1. -/
theorem l1Invalidate_noL1 {s t : State} (hd : t.g.die = s.g.die) (hc : t.g.core = s.g.core) :
    NoL1 s (l1Invalidate t.g.die t.g.core t) := by
  intro x hx
  have h := (List.mem_filter.mp hx).2
  rintro ⟨hxd, hxc⟩
  simp [hd, hc, hxd, hxc] at h

/-- A word without checks, which names no register, has its effect. -/
theorem hazard_nil (s : State) : hazard s [] [] = false := rfl

/-- A word that makes no trap and names no register on its way has its effect. -/
theorem issueWord_eff {trap : Option Trap} {vs ss : List Nat} {s : State} (eff : State → State) (ht : trap = none)
    (hh : hazard s vs ss = false) : issueWord trap vs ss eff s = .next (eff s) := by
  subst ht
  simp [issueWord, hh]

/-- R282: after an acquire at the quad or wider, at the end of its word, the core holds no line in its L1. -/
theorem runMicros_acquire {s t : State} {sc : Scope} (hsc : 2 ≤ sc.rank) (hd : t.g.die = s.g.die) (hc : t.g.core = s.g.core) :
    NoL1 s (runMicros [.acquire sc] t) := by
  rw [runMicros_done (t := l1Invalidate t.g.die t.g.core t) (by simp [runMicro, hsc])]
  have hms := congrArg State.ms (runMicros_nil_frame (l1Invalidate t.g.die t.g.core t))
  intro x hx
  exact l1Invalidate_noL1 hd hc x (hms ▸ hx)

/-- An acquire at the end of a word changes the split and the memory system alone. -/
theorem runMicros_acquire_frame (sc : Scope) (t : State) : { runMicros [.acquire sc] t with sp := t.sp, ms := t.ms } = t := by
  rw [runMicros_done (m := .acquire sc) rfl]
  refine (congrArg (fun u : State => { u with sp := t.sp, ms := t.ms }) (runMicros_nil_frame _)).trans ?_
  split <;> rfl

theorem runMicros_acquire_kept (sc : Scope) (t : State) : Kept t (runMicros [.acquire sc] t) :=
  (kept_iff _ _).mpr (congrArg keptView (runMicros_acquire_frame sc t) :)

/-- After an acquire at the end of a word nothing is left to run. -/
theorem runMicros_acquire_pend (sc : Scope) (t : State) : (runMicros [.acquire sc] t).sp.pend = [] := by
  rw [runMicros_done (m := .acquire sc) rfl]
  exact runMicros_nil_pend _

/-! The end of a wait on slots. -/

/-- The mask of some of the four slots, bit by bit. -/
theorem slotMask_filter (q : Nat → Bool) :
    slotMask ([0, 1, 2, 3].filter q) = bit01 (q 0) + 2 * bit01 (q 1) + 4 * bit01 (q 2) + 8 * bit01 (q 3) := by
  cases h0 : q 0 <;> cases h1 : q 1 <;> cases h2 : q 2 <;> cases h3 : q 3 <;> simp [slotMask, h0, h1, h2, h3, bit01]

/-- R222: the bits of %wstat: the fired slots in 3 to 0, and the timeout in 8. -/
theorem bitOf_wstat (q r : Nat → Bool) (timeout restored : Bool) :
    let w := BitVec.ofNat 64 (slotMask ([0, 1, 2, 3].filter q) + slotMask ([0, 1, 2, 3].filter r) * 16 + bit01 timeout * 256 +
      bit01 restored * 512)
    (∀ i, i < 4 → bitOf w.toNat i = q i) ∧ bitOf w.toNat 8 = timeout := by
  have hle (b : Bool) : bit01 b ≤ 1 := by cases b <;> simp [bit01]
  have hone (b : Bool) : (bit01 b == 1) = b := by cases b <;> rfl
  have q0 := hle (q 0); have q1 := hle (q 1); have q2 := hle (q 2); have q3 := hle (q 3)
  have r0 := hle (r 0); have r1 := hle (r 1); have r2 := hle (r 2); have r3 := hle (r 3)
  have ht := hle timeout; have hr := hle restored
  rw [slotMask_filter, slotMask_filter]
  simp only [BitVec.toNat_ofNat, bitOf]
  refine ⟨fun i hi => .trans (congrArg (· == 1) ?_) (hone _), .trans (congrArg (· == 1) ?_) (hone _)⟩
  · interval_cases i <;> omega
  · omega

/-- R221: slots are consumed one by one: each of them is empty, and nothing else of the group has changed. -/
theorem consumeSlots (is : List Nat) (g : Group) :
    let h := is.foldl (fun g i => g.setSlot i (Slot.none (g.slot i).gen)) g
    (∀ k, k < g.slots.length → (h.slot k).st = if k ∈ is then .empty else (g.slot k).st) ∧ { h with slots := g.slots } = g := by
  induction is generalizing g with
  | nil => simp
  | cons i is ih =>
    obtain ⟨hst, hframe⟩ := ih (g.setSlot i (Slot.none (g.slot i).gen))
    refine ⟨fun k hk => ?_, congrArg (fun h : Group => { h with slots := g.slots }) hframe⟩
    have hset : ((g.setSlot i (Slot.none (g.slot i).gen)).slot k).st = if k = i then .empty else (g.slot k).st := by
      by_cases e : k = i
      · subst e
        simp [Group.slot, Group.setSlot, nthD, hk, Slot.none]
      · simp [Group.slot, Group.setSlot, nthD, e, List.getElem?_set_ne (Ne.symm e)]
    rw [List.foldl_cons, hst k (by simpa [Group.setSlot] using hk), hset]
    by_cases e : k = i <;> simp [e]

/-- The state in which a word that blocks runs its parts: the split knows the word's place. -/
def atWord (s : State) : State := { s with sp := { s.sp with pendAt := (s.iss.clause, s.iss.word) } }

theorem blockOn_eq (ms : List Micro) (s : State) : blockOn ms s = runMicros ms (atWord s) := rfl

theorem atWord_kept (s : State) : Kept s (atWord s) := ⟨rfl, rfl, rfl, rfl, rfl, rfl, rfl, rfl, rfl⟩

/-- The state after the boundary of a word that blocks. -/
def afterBoundary (s : State) : State := commitRegion (atWord s)

theorem afterBoundary_frame (s : State) : withBoundaryOf s (afterBoundary s) = s :=
  congrArg (fun u : State => { u with sp := s.sp }) (commitRegion_frame (atWord s))

/-- R300: a word whose first part is the boundary of a region that can end runs its other parts after it. -/
theorem blockOn_boundary {s : State} (h : CanEnd s) (ms : List Micro) :
    blockOn (.boundary :: ms) s = runMicros ms (afterBoundary s) :=
  runMicros_done (runMicro_boundary (s := atWord s) h) ms

theorem afterBoundary_kept (s : State) : Kept s (afterBoundary s) :=
  (kept_iff _ _).mpr (congrArg keptView (afterBoundary_frame s) :)

/-- The conditions of a wait on slots: all of the named slots that are not empty have fired, or one has. -/
def slotsHold (mask : Nat) (all : Bool) (g : Group) : Bool :=
  let named := (namedSlots mask).filter (fun i => (g.slot i).st != .empty)
  if all then named.all (fun i => (g.slot i).st == .fired) else named.any (fun i => (g.slot i).st == .fired)

theorem runMicro_slotWait_holds {mask : Nat} {all : Bool} {s : State} (h : slotsHold mask all s.g = true) (d : Option Nat) :
    runMicro (.slotWait mask all d) s = .done (endWait mask false s) := if_pos h

/-- R221: a wait without a deadline whose condition does not hold waits. -/
theorem runMicro_slotWait_waits {mask : Nat} {all : Bool} {s : State} (h : slotsHold mask all s.g = false) :
    runMicro (.slotWait mask all none) s = .wait (.slotWait mask all none) s := by
  refine (if_neg ?_).trans (if_neg ?_)
  · exact ne_true_of_eq_false h
  · simp

/-- R221, R222: the end of a wait writes %wstat and consumes the slots that have fired. -/
theorem endWait_slots (mask : Nat) (timeout : Bool) (s : State) :
    (∀ i, i < 4 → bitOf (endWait mask timeout s).g.wstat.toNat i = (bitOf mask i && (s.g.slot i).st == .fired)) ∧
    bitOf (endWait mask timeout s).g.wstat.toNat 8 = timeout ∧
    (∀ i, i < s.g.slots.length → ((endWait mask timeout s).g.slot i).st =
      if i ∈ namedSlots mask ∧ (s.g.slot i).st = .fired then .empty else (s.g.slot i).st) ∧
    Kept s (endWait mask timeout s) ∧ (endWait mask timeout s).g.die = s.g.die ∧ (endWait mask timeout s).g.core = s.g.core := by
  have hfired : (namedSlots mask).filter (fun i => (s.g.slot i).st == .fired) =
      [0, 1, 2, 3].filter (fun i => bitOf mask i && (s.g.slot i).st == .fired) := by
    rw [namedSlots, List.filter_filter]
    simp only [Bool.and_comm]
  have hforced : ((namedSlots mask).filter (fun i => (s.g.slot i).st == .fired)).filter (fun i => (s.g.slot i).forced) =
      [0, 1, 2, 3].filter (fun i => (s.g.slot i).forced && (bitOf mask i && (s.g.slot i).st == .fired)) := by
    rw [hfired, List.filter_filter]
  have hbits := bitOf_wstat (fun i => bitOf mask i && (s.g.slot i).st == .fired)
    (fun i => (s.g.slot i).forced && (bitOf mask i && (s.g.slot i).st == .fired)) timeout s.sp.restored
  dsimp only at hbits
  rw [← hforced, ← hfired] at hbits
  obtain ⟨hst, hframe⟩ := consumeSlots ((namedSlots mask).filter (fun i => (s.g.slot i).st == .fired)) s.g
  refine ⟨hbits.1, hbits.2, fun i hi => (hst i hi).trans (by simp), (kept_iff _ _).mpr ?_,
    (congrArg Group.die hframe :), (congrArg Group.core hframe :)⟩
  exact (congrArg (fun g => keptView { s with g := g }) hframe :)

end Sys2Proof.Machine
end

section
/-! Waits, fences, commit and beat, clause by clause (R20, R221 to R225, R229). -/

namespace Sys2Proof.Machine

open Sys2Proof Sys2Proof.Claims

/-- R221: a wait on slots, one of which is not empty, goes to its boundary and then looks at its slots. -/
theorem execWaitv_waits {mask all t : Nat} {s : State} (hm : mask ≠ 0) (htx : inTx s = false) (hh : hazard s [] [t] = false)
    (hend : CanEnd s) (hn : ∃ i ∈ namedSlots mask, (s.g.slot i).st ≠ .empty) :
    exec (.waitv mask all t) s =
      .next (runMicros [.slotWait mask (all == 1) (deadlineOf s (sGet s t)), .acquire .pod] (afterBoundary s)) := by
  have htrap : firstTrap [trapIf (mask == 0) .illegalEncoding, closingTrap s,
      trapIf ((namedSlots mask).all (fun i => (s.g.slot i).st == .empty)) .waitEmpty] = none := by
    simp only [firstTrap_none, List.forall_mem_cons, closingTrap, trapIf_none]
    simpa [hm, htx] using hn
  exact (issueWord_eff _ htrap hh).trans (congrArg _ (blockOn_boundary hend _))

/-- R221: the condition of a wait on slots, in words. -/
theorem slotsHold_iff (mask all : Nat) (g : Group) : slotsHold mask (all == 1) g = true ↔
    (all = 1 ∧ ∀ i ∈ (namedSlots mask).filter (fun i => (g.slot i).st != .empty), ((g.slot i).st == .fired) = true) ∨
    (all ≠ 1 ∧ ∃ i ∈ (namedSlots mask).filter (fun i => (g.slot i).st != .empty), ((g.slot i).st == .fired) = true) := by
  by_cases h : all = 1
  · simp only [slotsHold, h, beq_self_eq_true, if_true, List.all_eq_true, true_and, ne_eq, not_true_eq_false, false_and, or_false]
  · simp only [slotsHold, h, beq_iff_eq, if_false, List.any_eq_true, false_and, ne_eq, not_false_eq_true, true_and, false_or]

/-- A slot that has fired is named and not empty exactly if it is named. -/
theorem any_named_fired (mask : Nat) (g : Group) {i : Nat} (hi : i < 4) :
    (((namedSlots mask).filter (fun k => (g.slot k).st != .empty)).any (fun k => k == i) && (g.slot i).st == .fired) =
      (bitOf mask i && (g.slot i).st == .fired) := by
  cases hf : (g.slot i).st == .fired
  · simp only [Bool.and_false]
  · have hst : (g.slot i).st = .fired := by simpa using hf
    have hmem : i ∈ [0, 1, 2, 3] := by simp; omega
    rw [Bool.and_true, Bool.and_true, Bool.eq_iff_iff, List.any_eq_true]
    constructor
    · rintro ⟨k, hk, he⟩
      obtain rfl : k = i := by simpa using he
      exact (List.mem_filter.mp (List.mem_filter.mp hk).1).2
    · intro hb
      exact ⟨i, List.mem_filter.mpr ⟨List.mem_filter.mpr ⟨hmem, hb⟩, by simp [hst]⟩, beq_self_eq_true i⟩

/-- A named slot that has fired is one that is not empty. -/
theorem named_fired_iff (mask : Nat) (g : Group) (i : Nat) : i ∈ namedSlots mask ∧ (g.slot i).st = .fired ↔
    i ∈ (namedSlots mask).filter (fun i => (g.slot i).st != .empty) ∧ ((g.slot i).st == .fired) = true := by
  rw [List.mem_filter, beq_iff_eq]
  exact ⟨fun ⟨hi, hf⟩ => ⟨⟨hi, by simp [hf]⟩, hf⟩, fun ⟨⟨hi, _⟩, hf⟩ => ⟨hi, hf⟩⟩

/-- R20, R65: a wait for the counters. -/
theorem counterMet_iff (c v : Nat) : counterMet c v = true ↔ v = 15 ∨ c ≤ v := by simp [counterMet]

/-- R20, R65: the counters of a group are as low as a wait asks. -/
def CountersMet (g : Group) (l st c t : Nat) : Prop :=
  (l = 15 ∨ g.cntL ≤ l) ∧ (st = 15 ∨ g.cntS ≤ st) ∧ (c = 15 ∨ g.cntC ≤ c) ∧ (t = 15 ∨ g.cntT ≤ t)

theorem runMicro_counters_met {l st c t : Nat} {s : State} (h : CountersMet s.g l st c t) :
    runMicro (.counters l st c t) s = .done s := by
  obtain ⟨hl, hs, hc, ht⟩ := h
  exact waitUntil_true (by simp [(counterMet_iff _ _).mpr, hl, hs, hc, ht]) _ _

theorem runMicro_counters_unmet {l st c t : Nat} {s : State} (h : ¬CountersMet s.g l st c t) :
    runMicro (.counters l st c t) s = .wait (.counters l st c t) s := by
  refine waitUntil_false (Bool.eq_false_iff.mpr fun hm => h ?_) _ _
  simpa only [CountersMet, Bool.and_eq_true, counterMet_iff, and_assoc] using hm

/-! A group with nothing outstanding. -/

/-- R300: the region of a group with nothing outstanding can end. -/
theorem quiet_canEnd {s : State} (h : Quiet s) : CanEnd s := by
  obtain ⟨hloads, hentries, -, -⟩ := h
  have he : s.ms.entries.filter (ofRegion s) = [] := by
    simpa [ofRegion] using fun e he hg => absurd hg (hentries e he)
  have hl : s.ms.loads.filter (fun d => d.gid == s.g.gid && d.split == s.sp.num) = [] := by
    simpa using fun d hd hg => absurd hg (hloads d hd)
  simp [CanEnd, claimsAnswered, regionFaults, loadFaults, claimFaults, he, hl]

/-- A boundary leaves a group with nothing outstanding as it is. -/
theorem quiet_afterBoundary {s : State} (h : Quiet s) : Quiet (afterBoundary s) := by
  obtain ⟨hloads, hentries, hatoms, hinvals⟩ := h
  have hg : (afterBoundary s).g.gid = s.g.gid := congrArg (fun u => u.g.gid) (afterBoundary_frame s)
  have hms := commitRegion_ms (atWord s)
  rw [Quiet, hg, afterBoundary, hms]
  refine ⟨hloads, fun e he => ?_, hatoms, hinvals⟩
  obtain ⟨x, hx, rfl⟩ := List.mem_map.mp he
  split <;> exact hentries x hx

/-- R292: the stores of a group with nothing outstanding are performed. -/
theorem quiet_storesPerformed {s : State} (h : Quiet s) (sc : Scope) : storesPerformed s sc = true := by
  obtain ⟨-, hentries, -, hinvals⟩ := h
  simp only [storesPerformed, Bool.and_eq_true, Bool.not_eq_true', List.any_eq_false, Bool.or_eq_true]
  refine ⟨⟨fun e he => ?_, fun v hv => ?_⟩, .inr fun e he => ?_⟩
  · simp [hentries e he]
  · simp [hinvals v hv]
  · simp [hentries e he]

/-- R288, R297: the other writes of a group with nothing outstanding are performed. -/
theorem quiet_joinsPerformed {s : State} (h : Quiet s) (sc : Scope) (atomics copies tiles : Bool) :
    joinsPerformed s sc atomics copies tiles = true := by
  obtain ⟨-, -, -, hinvals⟩ := h
  simp only [joinsPerformed, Bool.not_eq_true', List.any_eq_false]
  exact fun v hv => by simp [hinvals v hv]

/-! Fences. -/

/-- R83, R224: a scope of the quad or wider. -/
theorem rank_ofCode {scope : Nat} (h : 2 ≤ scope) : 2 ≤ (Scope.ofCode scope).rank := by
  unfold Scope.ofCode
  split <;> simp_all [Scope.rank]

/-- R224: the parts of a fence after its boundary. -/
def fenceRest (p scope : Nat) : List Micro :=
  .counters (if bitOf p 0 then 0 else 15) 15 (if bitOf p 2 || bitOf p 3 then 0 else 15) (if bitOf p 4 || bitOf p 5 then 0 else 15) ::
    ((if bitOf p 1 then [.performed (Scope.ofCode scope), .joined (Scope.ofCode scope) true (bitOf p 3) (bitOf p 5)] else []) ++
      if bitOf p 0 then [.acquire (Scope.ofCode scope)] else [])

theorem fenceParts_eq (p scope : Nat) : fenceParts p scope = (if bitOf p 1 then [.boundary] else []) ++ fenceRest p scope := by
  simp [fenceParts, fenceRest]

/-- R224: after the boundary of a fence of a group with nothing outstanding, only the acquire has an effect. -/
theorem fenceRest_run {s t : State} (hq : Quiet t) (hL : t.g.cntL = 0) (hC : t.g.cntC = 0) (hT : t.g.cntT = 0)
    (hd : t.g.die = s.g.die) (hc : t.g.core = s.g.core) (p scope : Nat) :
    Kept t (runMicros (fenceRest p scope) t) ∧ (runMicros (fenceRest p scope) t).sp.pend = [] ∧
      (bitOf p 0 = true → 2 ≤ scope → NoL1 s (runMicros (fenceRest p scope) t)) := by
  have hcnt (a c e : Nat) : runMicro (.counters a 15 c e) t = .done t :=
    runMicro_counters_met ⟨.inr (by omega), .inl rfl, .inr (by omega), .inr (by omega)⟩
  have hperf (sc : Scope) : runMicro (.performed sc) t = .done t := waitUntil_true (quiet_storesPerformed hq sc) _ _
  have hjoin (sc : Scope) (a b c : Bool) : runMicro (.joined sc a b c) t = .done t := waitUntil_true (quiet_joinsPerformed hq sc a b c) _ _
  have hrun : runMicros (fenceRest p scope) t = runMicros (if bitOf p 0 then [.acquire (Scope.ofCode scope)] else []) t := by
    rw [fenceRest, runMicros_done (hcnt _ _ _)]
    cases bitOf p 1
    · rfl
    · rw [if_pos rfl, List.cons_append, List.cons_append, List.nil_append, runMicros_done (hperf _), runMicros_done (hjoin _ _ _ _)]
  rw [hrun]
  cases hr : bitOf p 0
  · exact ⟨runMicros_nil_kept t, runMicros_nil_pend t, fun h => by cases h⟩
  · exact ⟨runMicros_acquire_kept _ t, runMicros_acquire_pend _ t, fun _ h => runMicros_acquire (rank_ofCode h) hd hc⟩

/-- R224: a fence of a group with nothing outstanding is done at once. -/
theorem blockOn_fence {s : State} (hq : Quiet s) (hL : s.g.cntL = 0) (hC : s.g.cntC = 0) (hT : s.g.cntT = 0) (p scope : Nat) :
    Kept s (blockOn (fenceParts p scope) s) ∧ (blockOn (fenceParts p scope) s).sp.pend = [] ∧
      (bitOf p 0 = true → 2 ≤ scope → NoL1 s (blockOn (fenceParts p scope) s)) := by
  cases hw : bitOf p 1
  · have hparts := fenceParts_eq p scope
    rw [hw, if_neg (by decide), List.nil_append] at hparts
    obtain ⟨hkept, hpend, hnol1⟩ := fenceRest_run (s := s) (t := atWord s) hq hL hC hT rfl rfl p scope
    rw [hparts]
    exact ⟨kept_trans (atWord_kept s) hkept, hpend, hnol1⟩
  · have hparts := fenceParts_eq p scope
    rw [hw, if_pos rfl, List.singleton_append] at hparts
    have hb := afterBoundary_frame s
    obtain ⟨hkept, hpend, hnol1⟩ := fenceRest_run (s := s) (quiet_afterBoundary hq) ((congrArg (fun u => u.g.cntL) hb :).trans hL)
      ((congrArg (fun u => u.g.cntC) hb :).trans hC) ((congrArg (fun u => u.g.cntT) hb :).trans hT) (congrArg (fun u => u.g.die) hb :)
      (congrArg (fun u => u.g.core) hb :) p scope
    rw [hparts, blockOn_boundary (quiet_canEnd hq)]
    exact ⟨kept_trans (afterBoundary_kept s) hkept, hpend, hnol1⟩

/-- Settles O29, clause by clause: each word blocks on its parts, which are done one after the other where their conditions hold. -/
theorem waitsHold : Obligations.WaitsHold := by
  refine ⟨?waitv, ?wait, ?fence, ?commit, ?beat, ?beatReg⟩
  case beat => exact fun s => issueWord_eff (holdBeats 1) rfl (hazard_nil s)
  case beatReg => exact fun a s h => issueWord_eff (fun t => holdBeats (min (sGet t a).toNat (2 ^ 24 - 1)) t) rfl h
  case waitv =>
    intro mask all t s hm htx hh hend hn
    have hb := afterBoundary_frame s
    have hslot (i : Nat) : (afterBoundary s).g.slot i = s.g.slot i := (congrArg (fun u => u.g.slot i) hb :)
    have hlen : (afterBoundary s).g.slots = s.g.slots := (congrArg (fun u => u.g.slots) hb :)
    have hholds : slotsHold mask (all == 1) (afterBoundary s).g = slotsHold mask (all == 1) s.g :=
      (congrArg (fun u => slotsHold mask (all == 1) u.g) hb :)
    rw [execWaitv_waits hm htx hh hend hn]
    refine ⟨fun hcond => ⟨_, rfl, ?_⟩, fun hcond ht => ⟨_, rfl, ?_⟩⟩
    · rw [← slotsHold_iff, ← hholds] at hcond
      obtain ⟨hbits, hlate, hst, hkept, hdie, hcore⟩ := endWait_slots mask false (afterBoundary s)
      have hdie' : (afterBoundary s).g.die = s.g.die := (congrArg (fun u => u.g.die) hb :)
      have hcore' : (afterBoundary s).g.core = s.g.core := (congrArg (fun u => u.g.core) hb :)
      rw [runMicros_done (runMicro_slotWait_holds hcond _)]
      have hg := congrArg State.g (runMicros_acquire_frame .pod (endWait mask false (afterBoundary s)))
      obtain ⟨hregs, hsregs, -, -, -, -, hmem, hwq, -⟩ := kept_trans (kept_trans (afterBoundary_kept s) hkept) (runMicros_acquire_kept .pod _)
      refine ⟨runMicros_acquire_pend _ _, runMicros_acquire (by decide) (hdie.trans hdie') (hcore.trans hcore'), hmem, hwq, hregs, hsregs,
        fun i hi => ?_, fun i hi hi' => ?_, ?_⟩
      · refine (congrArg (fun g => bitOf g.wstat.toNat i) hg :).trans ((hbits i hi).trans ?_)
        rw [hslot, any_named_fired mask s.g hi]
      · refine (congrArg (fun g => (g.slot i).st) hg :).trans ((hst i (hlen ▸ hi')).trans ?_)
        rw [hslot]
        exact if_congr (named_fired_iff mask s.g i) rfl rfl
      · exact (congrArg (fun g => bitOf g.wstat.toNat 8) hg :).trans hlate
    · rw [← slotsHold_iff, ← hholds, Bool.not_eq_true] at hcond
      rw [deadlineOf, if_pos ht, runMicros_wait (runMicro_slotWait_waits hcond)]
      exact ⟨afterBoundary_kept s, rfl⟩
  case wait =>
    intro l st c t s
    have hrun : exec (.wait l st c t) s = .next (blockOn [.counters l st c t] s) := issueWord_eff _ rfl (hazard_nil s)
    refine ⟨fun hmet => ⟨_, hrun, ?_⟩, fun hmet => ⟨_, hrun, ?_⟩⟩
    · rw [blockOn_eq, runMicros_done (runMicro_counters_met (s := atWord s) hmet)]
      exact ⟨kept_trans (atWord_kept s) (runMicros_nil_kept _), runMicros_nil_pend _⟩
    · rw [blockOn_eq, runMicros_wait (runMicro_counters_unmet (s := atWord s) hmet)]
      exact ⟨atWord_kept s, rfl⟩
  case fence =>
    intro p q scope s htx hq hL hC hT
    have htrap : (if bitOf p 1 then closingTrap s else none) = none := by
      split
      · exact (trapIf_none _ _).mpr (htx ‹_›)
      · rfl
    exact ⟨_, issueWord_eff (blockOn (fenceParts p scope)) htrap (hazard_nil s), blockOn_fence hq hL hC hT p scope⟩
  case commit =>
    intro n s htx hn hsplit hend hpend
    have htrap : firstTrap [closingTrap s, trapIf (decide (s.g.nregs < n)) .registerRange,
        trapIf (n != s.g.live && decide (1 < splitCount s)) .divergence] = none := by
      simp only [firstTrap_none, List.forall_mem_cons, closingTrap, trapIf_none]
      refine ⟨htx, decide_eq_false (by omega), ?_, by simp⟩
      rcases hsplit with h | h <;> simp [h]
    have hlive : runMicro (.liveFree n) (atWord s) = .done (atWord s) := by
      refine waitUntil_true ?_ _ _
      rw [Bool.not_eq_true', List.any_eq_false]
      exact fun r hr => by simpa using hpend r hr
    refine ⟨_, issueWord_eff (blockOn [.liveFree n, .boundary, .setLive n]) htrap (hazard_nil s), ?_⟩
    rw [blockOn_eq, runMicros_done hlive, ← blockOn_eq, blockOn_boundary hend, runMicros_done (m := .setLive n) rfl]
    have hframe := runMicros_nil_frame { afterBoundary s with g := { (afterBoundary s).g with live := n } }
    refine ⟨kept_trans (afterBoundary_kept s) ((kept_iff _ _).mpr (congrArg keptView hframe :)), runMicros_nil_pend _,
      (congrArg (fun u => u.g.live) hframe :), fun e he => ?_⟩
    exact commitRegion_closed (atWord s) e ((congrArg (fun u => u.ms.entries) hframe :) ▸ he)

end Sys2Proof.Machine
end

section
/-! Special registers (R26 to R31, R238). -/

namespace Sys2Proof.Machine

open Sys2Proof Sys2Proof.Claims

/-- R13: what a write of some lanes of a register leaves in the register file. -/
theorem gReg_writeLanes (g : Group) (r : Nat) (f : Nat → W) {ls : List Nat} (hb : ∀ l ∈ ls, l < 32) {q k : Nat} (hk : k < 32) :
    mapGet 0 (writeLanes r f ls g.regs) (regKey q k) = if k ∈ ls ∧ q = r then f k else gReg g q k := by
  unfold writeLanes gReg
  generalize g.regs = m
  induction ls generalizing m with
  | nil => simp
  | cons x xs ih =>
    have hx : x < 32 := hb x (by simp)
    have hkey : (regKey q k = regKey r x) = (k = x ∧ q = r) := by
      apply propext; unfold regKey; omega
    rw [List.foldl_cons, ih (fun l hl => hb l (by simp [hl])), mapGet_mapSet]
    simp only [hkey, List.mem_cons]
    by_cases hxs : k ∈ xs ∧ q = r
    · simp [hxs]
    · by_cases he : k = x ∧ q = r
      · obtain ⟨rfl, rfl⟩ := he
        simp
      · rw [if_neg hxs, if_neg he, if_neg (by tauto)]

/-- Results without flags raise none. -/
theorem flAll_map_zero {α : Type} (xs : List α) : flAll (xs.map (fun _ => (0 : Flags))) = 0 := by
  unfold flAll
  induction xs with
  | nil => rfl
  | cons x xs ih => simpa using ih

/-- R13, R101: a write of a vector register in the active lanes, as the results of a word. -/
theorem vSet_laneWrites (r : Nat) (f : Nat → W) (s : State) : LaneWrites s (vSet r f s) r 1 (fun l => plain (f l, 0)) := by
  refine ⟨fun q l hl => ?_, ?_, fun l _ => ?_, fun k hk => ?_, rfl⟩
  · refine (gReg_writeLanes (ls := lanesOf s.sp.em) s.g r f (fun k hk => List.mem_range.mp (List.mem_filter.mp hk).1) hl).trans ?_
    simp only [mem_lanesOf, plain]
    by_cases hm : inMask s.sp.em l = true
    · by_cases hq : q = r <;> simp [hm, hq, lowWord, zext64, vGet]
    · simp [hm, vGet]
  · exact (congrArg (s.g.flags ||| ·) (flAll_map_zero (lanesOf s.sp.em)) |>.trans BitVec.or_zero).symm
  · simp [plain, vSet, Group.setLanes, rngGet]
  · have : k ∈ clearMarks r (lanesOf s.sp.em) s.g.regPoison := hk
    unfold clearMarks at this
    split at this
    · simp at this
    · exact (List.mem_filter.mp this).1

/-- R14: a write of a scalar register. -/
theorem sSet_scalarWrites (r : Nat) (x : W64) (s : State) : ScalarWrites s (sSet r x s) r x :=
  ⟨by simp, fun q hq => by simp [hq], rfl⟩

/-- R29: the random states after a list of lanes has been written. -/
theorem rngGet_foldl_rngSet (f : Nat → W) (ls : List Nat) (s : State) (k : Nat) :
    rngGet (ls.foldl (fun t l => rngSet l (f l) t) s) k = if k ∈ ls then f k else rngGet s k := by
  induction ls generalizing s with
  | nil => simp
  | cons x xs ih =>
    rw [List.foldl_cons, ih, rngGet_rngSet]
    by_cases hx : k ∈ xs
    · simp [hx]
    · by_cases he : k = x <;> simp [hx, he]

/-- R29: a write of random states leaves the rest of the state as it is. -/
theorem writeRng_frame (r : Nat) (s : State) : { writeRng r s with g := { (writeRng r s).g with rng := s.g.rng } } = s :=
  foldl_keeps (f := fun t l => rngSet l (if vGet s r l = 0 then 1 else vGet s r l) t)
    (fun t : State => { t with g := { t.g with rng := s.g.rng } }) (fun _ _ => rfl) (lanesOf s.sp.em) s

/-- R26: the flags after the bits of a word have cleared some of them. -/
theorem clearFlags_getLsbD (x : W64) (s : State) {i : Nat} (hi : i < 16) :
    (clearFlags x s).g.flags.getLsbD i = (s.g.flags.getLsbD i && !(decide (i < 11) && x.getLsbD i)) := by
  have hbit : (BitVec.ofNat 16 (x.toNat % 2048)).getLsbD i = (decide (i < 11) && x.getLsbD i) := by
    rw [BitVec.getLsbD_ofNat, show 2048 = 2 ^ 11 from rfl, Nat.testBit_mod_two_pow, BitVec.testBit_toNat]
    simp [hi]
  simp only [clearFlags, BitVec.getLsbD_and, BitVec.getLsbD_not, hbit, hi, decide_true, Bool.true_and]

/-- R30: the special registers that are read into a scalar. -/
theorem execSreg_scalar {row : Nat × (State → Nat)} (hrow : row ∈ specialRows) {r : Nat} {s : State} (h : hazard s [] [r] = false) :
    exec (.sreg row.1 r) s = .next (sSet r (BitVec.ofNat 64 (row.2 s)) s) := by
  have hvalue : row.1 < 24 ∧ perLane row.1 = false ∧ specialValue s row.1 = row.2 s := by
    unfold specialRows at hrow
    fin_cases hrow <;> exact ⟨by decide, rfl, rfl⟩
  obtain ⟨hlt, hlane, hval⟩ := hvalue
  rw [exec, execSreg, if_neg (by omega), hlane, if_neg (by decide), issueWord_eff _ rfl h, hval]

/-- R29, R30: the special registers that are read lane by lane. -/
theorem execSreg_lanes {idx r : Nat} {s : State} (hi : idx = 0 ∨ idx = 21) (hr : r + 1 ≤ s.g.nregs) (hl : s.g.live ≤ r)
    (h : hazard s [r] [] = false) :
    exec (.sreg idx r) s = .next (vSet r (fun l => if idx = 0 then BitVec.ofNat 32 l else rngGet s l) s) := by
  have hlane : perLane idx = true := by rcases hi with rfl | rfl <;> rfl
  have htrap : firstTrap [rangeTrap s [(r, 1)], liveTrap s [r]] = none := by
    simp only [firstTrap_none, List.forall_mem_cons, rangeTrap_none, liveTrap_none]
    simpa using ⟨hr, hl⟩
  rw [exec, execSreg, if_neg (by omega), if_pos hlane, issueWord_eff _ htrap h]

end Sys2Proof.Machine
end

section
/-! Firmware groups, breakpoints and the debugger, and the statement about special registers and these words, clause by clause
(R85, R203, R238 to R240). -/

namespace Sys2Proof.Machine

open Sys2Proof Sys2Proof.Claims

/-- Where no group is in focus, a change of the splits of the only group changes that group alone. -/
theorem modSplits_only {s : State} {g : Group} (hs : s.g.gid = 0) (hgs : s.groups = [g]) (hg : g.gid ≠ 0) (f : Split → Split) :
    modSplits g.gid f s = { s with groups := [{ g with splits := g.splits.map f }] } := by
  rw [modSplits, if_neg (by omega), hgs]
  simp [updateAll]

theorem allGroups_only {s : State} {g : Group} (hs : s.g.gid = 0) (hgs : s.groups = [g]) : allGroups s = [g] := by
  rw [allGroups, if_pos hs, hgs]

/-- R85, R239: a group of which every split runs changes the state of every split. -/
theorem groupState_running {s : State} (x : SplitSt) (h : s.sp.state = .running) (hs : ∀ p ∈ s.g.splits, p.state = .running) :
    groupState x s = { s with sp := { s.sp with state := x }, g := { s.g with splits := s.g.splits.map (fun p => { p with state := x }) } } := by
  have hmap : s.g.splits.map (fun p => if p.state = .running then { p with state := x } else p) =
      s.g.splits.map (fun p => { p with state := x }) := List.map_congr_left fun p hp => if_pos (hs p hp)
  rw [groupState, modSplits, if_pos rfl, hmap, if_pos h]

/-- Settles O34, clause by clause: a word that passes its checks has its effect, and the effect is what the rule writes. -/
theorem systemWords : Obligations.SystemWords := by
  refine ⟨?scalar, ?lanes, ?fmode, ?flags, ?rng, ?halt, ?eret, ?brk, ?doorbell, ?resume⟩
  case scalar => exact fun row hrow r s h => ⟨_, execSreg_scalar hrow h, sSet_scalarWrites _ _ _⟩
  case lanes => exact fun idx r s hi hr hl h => ⟨_, execSreg_lanes hi hr hl h, vSet_laneWrites _ _ _⟩
  case fmode =>
    intro r s h hv
    have hmode : ¬ 6 ≤ (sGet s r).toNat % 32 % 8 := by omega
    exact (issueWord_eff _ rfl h).trans (congrArg _ (if_neg hmode))
  case flags => exact fun r s h => ⟨_, issueWord_eff _ rfl h, rfl, fun i hi => clearFlags_getLsbD _ s hi⟩
  case rng =>
    intro r s hr h hp
    refine ⟨writeRng r s, (issueWord_eff _ ((rangeTrap_none s _).mpr (by simpa using hr)) h).trans (congrArg _ (readGuard_clear _ hp)),
      writeRng_frame r s, fun l _ => ?_⟩
    exact (rngGet_foldl_rngSet _ _ s l).trans (if_congr (mem_lanesOf _ _) rfl rfl)
  case halt =>
    intro s hf h hs
    exact (issueWord_eff _ ((trapIf_none _ _).mpr (by simp [hf])) (hazard_nil s)).trans (congrArg _ (groupState_running .halted h hs))
  case eret =>
    intro s g gid num hf hheld hgid hg
    refine (issueWord_eff resumeHeld ((trapIf_none _ _).mpr (by simp [hf])) (hazard_nil s)).trans (congrArg _ ?_)
    rw [resumeHeld, hheld]
    dsimp only
    rw [hg, Option.map_some, Option.getD_some, modSplits, if_neg (by exact Ne.symm hgid)]
    simp only [updateAll, beq_iff_eq]
    rfl
  case brk =>
    intro code s hd h hs
    refine (issueWord_eff _ (if_pos hd) (hazard_nil s)).trans (congrArg _ ?_)
    rw [groupState_running .breaking h (by simp [hs]), hs, List.map_nil, ← hs]
  case doorbell =>
    intro s g hs hgs hg runs h
    refine congrArg Host.Outcome.next ?_
    rw [allGroups_only hs hgs, List.filter_cons_of_pos (by simp)]
    exact modSplits_only hs hgs hg _
  case resume =>
    intro s g v hs hgs hg hv hvs hst
    have hw : modViaduct v.uid unparkViaduct s = { s with viaducts := [{ v with st := .started, trap := none }] } := by
      simp [modViaduct, hvs, updateFirst, unparkViaduct, hst]
    intro runs h w
    refine congrArg Host.Outcome.next ?_
    rw [hw, allGroups_only (g := g) (by exact hs) (by exact hgs), List.filter_cons_of_pos (by simp [hv])]
    exact modSplits_only (s := { s with viaducts := [w] }) hs hgs hg runs

end Sys2Proof.Machine
end

section
/-! Placement at the distributor's turn (R256 to R260, R397). -/

namespace Sys2Proof.Machine

open Sys2Proof Sys2Proof.Claims

/-- A machine of full function in the turn of owner 0 on die 0. Two viaducts have number 1: the first is complete and its
context is gone, the second is started and has a span to place on die 0. -/
def twoOfOneNumber : State :=
  let second : Viaduct :=
    { placedViaduct 1 [] with ctx := 9, owner := 0, lastSpan := 4, placed := [], chunks := [⟨0, 0⟩], st := .started }
  { State.reset with
    dev := { State.reset.dev with stage := 4 }
    viaducts := [{ second with ctx := 8, st := .complete }, second]
    ten := { State.reset.ten with
      ctxs := [{ placedContext with num := 9, owner := 0, lslots := 64, sslots := 8 }]
      owners := [{ Owner.initial 0 with weight := 1, parts := 1, deficits := [32, 0, 0, 0] }]
      pointers := [1, 0, 0, 0] } }

/-- R397: the distributor's work for the owner is a span of the second viaduct. -/
theorem twoOfOneNumber_work : ownerWork? twoOfOneNumber 0 0 = some (.place 1 0 0 1) := by decide +kernel

/-- R397: the owner has the turn. -/
theorem twoOfOneNumber_turn :
    (turnOwners twoOfOneNumber 0).find? (fun p => p.1 == 0) = some (0, .place 1 0 0 1) := by decide +kernel

/-- R397: the turn goes to a span of viaduct 1. -/
theorem twoOfOneNumber_nextWork :
    (nextWork 0 (dropPreempts twoOfOneNumber)).1 = some (0, .place 1 0 0 1) := by decide +kernel

/-- R256: the placement looks the work's number up and finds the first viaduct, whose context is gone: nothing is placed. -/
theorem twoOfOneNumber_places_nothing : exec (.spanPlace 0) twoOfOneNumber = .next twoOfOneNumber := by
  have hcoop : coopPlacement? twoOfOneNumber = none := rfl
  change execSpanPlace 0 twoOfOneNumber = _
  unfold execSpanPlace
  rw [if_neg (by decide), hcoop]
  simp only [twoOfOneNumber_nextWork]
  rfl

/-- Refutes O44: in its second clause nothing says that the number of the owner's work names one viaduct. -/
theorem not_spansPlaced : ¬ Obligations.SpansPlaced := by
  unfold Obligations.SpansPlaced
  rintro ⟨-, hturn, -⟩
  obtain ⟨t, x, hrun, hlast, -⟩ := hturn twoOfOneNumber 0 0 1 0 0 1 rfl rfl (by decide +kernel) rfl twoOfOneNumber_work
    twoOfOneNumber_turn rfl (by decide +kernel)
  cases twoOfOneNumber_places_nothing.symm.trans hrun
  exact nomatch hlast

end Sys2Proof.Machine
end

section
/-! Groups release what they hold; contexts are created, destroyed and moved away (R211, R328, R394, R456). -/

namespace Sys2Proof.Machine

open Sys2Proof Sys2Proof.Claims

/-- R211: the release of a group with nothing outstanding marks every group of its number. -/
theorem execGroupResourceRelease_released {s : State} {g : Group} (hs : s.g.gid = 0) (hg : groupOf? s g.gid = some g)
    (hx : g.exited = true) (hr : g.released = false) (hw : groupWork s g = false) (hd : g.deferred = []) (h0 : g.gid ≠ 0) :
    exec (.groupResourceRelease g.gid) s =
      .next { s with groups := s.groups.map (fun x => if x.gid = g.gid then { x with released := true } else x) } := by
  change execGroupResourceRelease g.gid s = _
  unfold execGroupResourceRelease
  simp [hg, hx, hr, hw, hd, modGroup_unfocused (show s.g.gid ≠ g.gid by rw [hs]; exact Ne.symm h0), updateAll]

/-- R456: a context with nothing left here leaves for another package. -/
theorem execContextPartMove_leaves {s : State} {c : Context} {pkg : Nat} (hc : ctxOf? s c.num = some c) (hp : pkg ≠ s.pkg)
    (hlt : pkg < 1024) (hx : ∀ x ∈ s.spans, x.ctx ≠ c.num) (hv : ∀ v ∈ s.viaducts, v.ctx = c.num → v.st = .complete)
    (hq : ∀ q ∈ s.front.queues, q.ctx ≠ c.num) :
    exec (.contextPartMove c.num pkg) s =
      .next { s with ten := { s.ten with ctxs := s.ten.ctxs.filter (fun x => x.num != c.num) } } := by
  change execContextPartMove c.num pkg s = _
  unfold execContextPartMove
  rw [if_neg]
  simp only [hc, List.any_eq_true, beq_iff_eq, Bool.and_eq_true, bne_iff_ne, not_or, not_exists, not_and]
  exact ⟨hp, by omega, by simp, hx, fun v hm he => not_not.mpr (hv v hm he), hq⟩

/-! The end of a context. -/

/-- R328, R409: nothing of a context is left where it was discarded. -/
theorem discardContext_gone (n : Nat) (s : State) : let t := discardContext n s
    (∀ g ∈ allGroups t, g.ctx ≠ n) ∧ (∀ x ∈ t.spans, x.ctx ≠ n) ∧ (∀ e ∈ t.ms.entries, e.ctx ≠ n) ∧
    (∀ q ∈ t.front.queues, q.ctx ≠ n) ∧ (∀ w ∈ t.fab.windows, w.ctx ≠ n) ∧ ∀ p ∈ t.fab.pools, p.ctx ≠ n := by
  have hfocus : (discardContext n s).g.gid = 0 := congrArg Group.gid (unfocus_idle s).1
  have hgroups : allGroups (discardContext n s) = (unfocus s).groups.filter (fun g => g.ctx != n) := if_pos hfocus
  intro t
  rw [hgroups]
  refine ⟨?_, ?_, ?_, ?_, ?_, ?_⟩ <;> exact fun x hx => by simpa using (List.mem_filter.mp hx).2

/-- R328: the end of a context discards what it has and its record; its purge begins. -/
theorem endContext_of_ctx {s : State} {n : Nat} {c : Context} (hc : ctxOf? s n = some c) :
    let t := discardContext n (cancelQueues n s)
    endContext n s = { t with ten := { t.ten with ctxs := t.ten.ctxs.filter (fun x => x.num != n), dying := t.ten.dying ++ [(c, [])] } } := by
  unfold endContext
  rw [hc]

/-- R328, R346, R383: a destroyed context has nothing left and its purge is under way. -/
theorem execContextDestroy_gone {s : State} {c : Context} (hc : ctxOf? s c.num = some c) :
    ∃ t, exec (.contextDestroy c.num) s = .next t ∧ ctxOf? t c.num = none ∧ (c, []) ∈ t.ten.dying ∧ (∀ g ∈ allGroups t, g.ctx ≠ c.num) ∧
      (∀ x ∈ t.spans, x.ctx ≠ c.num) ∧ (∀ e ∈ t.ms.entries, e.ctx ≠ c.num) ∧ (∀ q ∈ t.front.queues, q.ctx ≠ c.num) ∧
      (∀ w ∈ t.fab.windows, w.ctx ≠ c.num) ∧ ∀ p ∈ t.fab.pools, p.ctx ≠ c.num := by
  refine ⟨endContext c.num s, rfl, ?_⟩
  rw [endContext_of_ctx hc]
  refine ⟨List.find?_eq_none.mpr fun x hx => ?_, List.mem_append_right _ (List.mem_singleton_self _), discardContext_gone c.num _⟩
  simpa using (List.mem_filter.mp hx).2

/-! The creation of a context. -/

/-- What the accounts of L2 change: the memory system, and what owners have used. -/
def withAccountsOf (s u : State) : State := { u with ms := s.ms, ten := { u.ten with owners := s.ten.owners } }

/-- R405: the charge of a line changes what its owner has used alone. -/
theorem withAccountsOf_chargeLine (s : State) (n : Nat) (u : State) : withAccountsOf s (chargeLine n u) = withAccountsOf s u := by
  unfold chargeLine addUse modOwner
  split
  · split
    · rfl
    · split <;> rfl
  · rfl

/-- R406: lines that leave their slices change the accounts of L2 alone. -/
theorem dropL2_frame (gone : L2Tag → Bool) (s : State) : withAccountsOf s (dropL2 gone s) = s := by
  unfold dropL2
  exact foldl_keeps (withAccountsOf s) (fun u (x : L2Tag) => withAccountsOf_chargeLine s x.filler u) _ s

/-- R413: the lines of a domain that go change the accounts of L2 alone. -/
theorem forgetDomain_frame (dom : Nat) (s : State) : withAccountsOf s (forgetDomain dom s) = s := dropL2_frame _ s

/-- R394: the created context stands after the others, and its collective tags after the others. -/
theorem execContextCreate_good {s : State} {r : CtxReq} (hst : s.dev.stage = 4) (hr : ctxReqGood s r = true) :
    let t := forgetDomain r.tagdom s
    exec (.contextCreate r) s = .next { t with
      ten := { t.ten with ctxs := t.ten.ctxs ++ [newContext r] },
      fab := { t.fab with tags := t.fab.tags ++ r.tags.map (fun p => ⟨r.ctx, p.1, p.2, List.replicate 16 0, 0, 0, 0, 0⟩) } } := by
  change execContextCreate r s = _
  unfold execContextCreate
  rw [if_neg (by simp [hst, hr])]

/-- R394, R413, R456: a created context has the record that firmware gives it, and changes no group and no memory. -/
theorem execContextCreate_creates {s : State} {r : CtxReq} (hst : s.dev.stage = 4) (hr : ctxReqGood s r = true) :
    ∃ t c, exec (.contextCreate r) s = .next t ∧ t.ten.ctxs = s.ten.ctxs ++ [c] ∧ c.num = r.ctx ∧ c.asid = r.asid ∧ c.owner = r.owner ∧
      c.part = r.part ∧ c.save = r.save ∧ c.lslots = r.lslots ∧ c.sslots = r.sslots ∧ c.fqbase = r.fqbase ∧ c.fqlen = r.fqlen ∧
      c.seed = r.seed ∧ c.func = r.func ∧ c.root1 = r.root1 ∧ c.stage2 = r.stage2 ∧ c.tagdom = r.tagdom ∧ (c.fqwr, c.fqrd) = (0, 0) ∧
      (r.loop = none → c.loop = LoopRec.initial) ∧ (r.mthresh = none → c.mthresh = 4096) ∧ c.segs = [] ∧ t.mem = s.mem ∧ t.groups = s.groups ∧
      ∀ p ∈ r.tags, ∃ x ∈ t.fab.tags, x.ctx = r.ctx ∧ x.tag = p.1 ∧ x.members = p.2 ∧ x.results = 0 := by
  have hframe := forgetDomain_frame r.tagdom s
  have hctxs : (forgetDomain r.tagdom s).ten.ctxs = s.ten.ctxs := (congrArg (fun u : State => u.ten.ctxs) hframe :)
  have hmem : (forgetDomain r.tagdom s).mem = s.mem := (congrArg (fun u : State => u.mem) hframe :)
  have hgroups : (forgetDomain r.tagdom s).groups = s.groups := (congrArg (fun u : State => u.groups) hframe :)
  refine ⟨_, newContext r, execContextCreate_good hst hr, congrArg (· ++ [newContext r]) hctxs, rfl, rfl, rfl, rfl, rfl, rfl, rfl, rfl,
    rfl, rfl, rfl, rfl, rfl, rfl, rfl, fun h => ?_, fun h => ?_, rfl, hmem, hgroups, fun p hp => ?_⟩
  · simp [newContext, h]
  · simp [newContext, h]
  · exact ⟨_, List.mem_append_right _ (List.mem_map_of_mem hp), rfl, rfl, rfl, rfl⟩

end Sys2Proof.Machine
end

section
/-! What writes at homes and the ends of packets leave unchanged (R327, R378, R379, R389, R391). -/

namespace Sys2Proof.Machine

open Sys2Proof Sys2Proof.Claims

/-- What spans and groups hold, which no write at a home and no end of a packet changes: the bytes of memory, spans, viaducts,
groups, the word in execution and the pre-emptions. -/
def heldView (s : State) : List Host.Cell × List Span × List Viaduct × List Group × Group × Split × List Preempt :=
  (s.mem, s.spans, s.viaducts, s.groups, s.g, s.sp, s.ten.preempts)

/-- A fold of functions that keep what is held keeps it. -/
theorem heldView_foldl {α : Type} {f : State → α → State} (h : ∀ u a, heldView (f u a) = heldView u) (xs : List α) (s : State) :
    heldView (xs.foldl f s) = heldView s := foldl_keeps heldView h xs s

/-! Watches. -/

/-- A state with the watch tables and the side band of s. -/
def withWatchesOf (s u : State) : State := { u with side := s.side, wat := s.wat }

/-- R325: the bit W of a line is in the side band. -/
theorem withWatchesOf_clearW (s : State) (e : WatchEntry) (u : State) : withWatchesOf s (clearW e u) = withWatchesOf s u := by
  unfold clearW
  split
  · rfl
  · split
    · rfl
    · split <;> rfl

/-- R328: entries that are removed change the watch tables and the side band alone. -/
theorem withWatchesOf_dropEntries (s : State) (p : WatchEntry → Bool) (u : State) :
    withWatchesOf s (dropEntries p u) = withWatchesOf s u := by
  unfold dropEntries
  exact foldl_keeps (withWatchesOf s) (fun v e => withWatchesOf_clearW s e v) _ _

/-- R328: a slot's withdrawal changes the watch tables and the side band alone. -/
theorem withWatchesOf_withdrawSlot (s : State) (g : Group) (i : Nat) (u : State) :
    withWatchesOf s (withdrawSlot g i u) = withWatchesOf s u := withWatchesOf_dropEntries s (entryOfSlot g i) u

/-- R328: a group's withdrawal changes the watch tables and the side band alone. -/
theorem withWatchesOf_withdrawGroup (s : State) (g : Group) (u : State) : withWatchesOf s (withdrawGroup g u) = withWatchesOf s u := by
  unfold withdrawGroup
  exact foldl_keeps (withWatchesOf s) (fun v i => withWatchesOf_withdrawSlot s g i v) _ _

@[simp] theorem heldView_dropEntries (p : WatchEntry → Bool) (s : State) : heldView (dropEntries p s) = heldView s :=
  (congrArg heldView (withWatchesOf_dropEntries s p s) :)

@[simp] theorem heldView_withdrawSlot (g : Group) (i : Nat) (s : State) : heldView (withdrawSlot g i s) = heldView s :=
  (congrArg heldView (withWatchesOf_withdrawSlot s g i s) :)

/-- R325, R430: a recall of copies changes the memory system and the side band. -/
@[simp] theorem heldView_demoteLine (dom line phys : Nat) (s : State) : heldView (demoteLine dom line phys s) = heldView s := by
  unfold demoteLine
  change heldView (if _ then markDirty dom line s else s) = _
  split <;> rfl

theorem heldView_setWatched (line : Nat) (b : Bool) (s : State) : heldView (setWatched line b s) = heldView s := rfl

theorem heldView_withWatches (w : WatchSys) (s : State) : heldView { s with wat := w } = heldView s := rfl

/-- R324: so does an entry that is kept. -/
@[simp] theorem heldView_keepEntry (e : WatchEntry) (phys : Nat) (s : State) : heldView (keepEntry e phys s) = heldView s := by
  have hmarked : heldView (setWatched phys true (demoteLine e.dom (lineOf e.addr) phys s)) = heldView s :=
    (heldView_setWatched _ _ _).trans (heldView_demoteLine _ _ _ _)
  unfold keepEntry setFilter
  refine (heldView_withWatches _ _).trans ?_
  split
  · exact (heldView_withWatches _ _).trans hmarked
  · exact hmarked

/-! Packets. -/

/-- R379: a packet that is over leaves the queues and the watches. -/
@[simp] theorem heldView_finishPacket (seq status detail : Nat) (s : State) :
    heldView (finishPacket seq status detail s) = heldView s := by
  unfold finishPacket
  dsimp only
  split
  · rfl
  · exact heldView_dropEntries _ _

/-- R384: the words of a packet are watched. -/
@[simp] theorem heldView_registerPacket (q : Queue) (p : Packet) (s : State) : heldView (registerPacket q p s) = heldView s := by
  refine heldView_foldl (fun u w => ?_) _ s
  dsimp only
  split
  · rfl
  · split
    · rfl
    · split
      · rfl
      · split
        · exact heldView_keepEntry _ _ _
        · split <;> rfl

/-- R384: a packet whose words are looked at again is over, or is watched. -/
@[simp] theorem heldView_recheckPacket (qid index : Nat) (s : State) : heldView (recheckPacket qid index s) = heldView s := by
  unfold recheckPacket
  split
  · rfl
  · split
    · rfl
    · split <;> simp

/-- R327: fires are messages; they reach groups later. -/
@[simp] theorem heldView_fireEntries (es : List WatchEntry) (s : State) : heldView (fireEntries es s) = heldView s := by
  refine (heldView_foldl (fun u e => ?_) es _).trans (heldView_dropEntries _ s)
  split
  · exact heldView_recheckPacket _ _ _
  · rfl

@[simp] theorem heldView_evalWatches (home slice dom line phys : Nat) (bytes : List (Nat × Byte)) (s : State) :
    heldView (evalWatches home slice dom line phys bytes s) = heldView s := by
  unfold evalWatches
  dsimp only
  split <;> exact heldView_fireEntries _ _

/-! Writes at homes. -/

@[simp] theorem heldView_dropL2 (gone : L2Tag → Bool) (s : State) : heldView (dropL2 gone s) = heldView s :=
  (congrArg heldView (dropL2_frame gone s) :)

@[simp] theorem heldView_chargeLine (n : Nat) (s : State) : heldView (chargeLine n s) = heldView s :=
  (congrArg heldView (withAccountsOf_chargeLine s n s) :)

/-- R406: an access at a home changes the accounts of L2. -/
@[simp] theorem heldView_homeTouch (ctx : Nat) (l : Leaf) (va : Nat) (s : State) : heldView (homeTouch ctx l va s) = heldView s := by
  unfold homeTouch l2Touch
  split
  · dsimp only
    split
    · rfl
    · split
      · rfl
      · exact (heldView_chargeLine _ _).trans (heldView_dropL2 _ _)
  · rfl

@[simp] theorem heldView_invalidateRemote (dom line home keep part : Nat) (w : Writer) (s : State) :
    heldView (invalidateRemote dom line home keep part w s) = heldView s := by
  unfold invalidateRemote
  exact heldView_foldl (fun _ _ => by rfl) _ s

@[simp] theorem heldView_clockWrite (src home : Nat) (s : State) : heldView (clockWrite src home s) = heldView s := by
  unfold clockWrite
  split <;> rfl

@[simp] theorem heldView_appendError (r : ErrRec) (s : State) : heldView (appendError r s) = heldView s :=
  (congrArg heldView (appendError_frame r s) :)

/-- R283: a write at a home waits in the write queue, beside memory. -/
@[simp] theorem heldView_homeWrite (ctx va src : Nat) (w : Writer) (l : Leaf) (bytes : List (Nat × Byte)) (s : State) :
    heldView (homeWrite ctx va src w l bytes s) = heldView s := by
  have hbytes (a : Nat) : heldView (bytes.foldl (fun v b => wrByte (a + b.1) b.2 v) s) = heldView s :=
    heldView_foldl (fun _ _ => by rfl) bytes s
  have hclock (p : Bool) (d : Nat) (u : State) : heldView (if p then clockWrite src d u else u) = heldView u := by
    cases p
    · rfl
    · exact heldView_clockWrite _ _ _
  unfold homeWrite
  dsimp only
  split
  · exact heldView_appendError _ _
  · exact (heldView_evalWatches _ _ _ _ _ _ _).trans ((heldView_homeTouch _ _ _ _).trans ((hclock _ _ _).trans
      ((heldView_invalidateRemote _ _ _ _ _ _ _).trans (hbytes _))))

@[simp] theorem heldView_recallHome (va : Nat) (l : Leaf) (s : State) : heldView (recallHome va l s) = heldView s := by
  unfold recallHome
  split <;> simp

@[simp] theorem heldView_firmwareWrite (ctx va : Nat) (w : Writer) (bs : List Byte) (s : State) :
    heldView (firmwareWrite ctx va w bs s) = heldView s := by
  refine heldView_foldl (fun u p => ?_) _ s
  split <;> simp

/-! Queues, gangs and the ends of packets. -/

/-- R378, R379: a queue that stops is written to its control block. -/
@[simp] theorem heldView_stopQueue (qid : Nat) (s : State) : heldView (stopQueue qid s) = heldView s := by
  unfold stopQueue publishRd
  dsimp only
  split
  · exact (heldView_firmwareWrite _ _ _ _ _).trans (heldView_firmwareWrite _ _ _ _ _)
  · rfl

@[simp] theorem heldView_completePacket (seq status detail : Nat) (s : State) :
    heldView (completePacket seq status detail s) = heldView s := by
  unfold completePacket
  dsimp only
  split
  · simp
  · split <;> simp

@[simp] theorem heldView_settleGang (n : Nat) (s : State) : heldView (settleGang n s) = heldView s := by
  unfold settleGang
  split
  · rfl
  · dsimp only
    split
    · rfl
    · split
      · exact heldView_completePacket _ _ _ _
      · rfl

/-- R271, R389: the end of a viaduct reaches its packet or its gang. -/
@[simp] theorem heldView_endGang (v : Viaduct) (status detail : Nat) (s : State) : heldView (endGang v status detail s) = heldView s := by
  unfold endGang
  split
  · simp
  · dsimp only
    split <;> exact heldView_settleGang _ _

end Sys2Proof.Machine
end

section
/-! Retirement of spans (R270, R271). -/

namespace Sys2Proof.Machine

open Sys2Proof Sys2Proof.Claims

/-- Where no group is in focus, the groups of a span are those of the list. -/
theorem groupsOfSpan_unfocused {s : State} (hs : s.g.gid = 0) (n : Nat) : groupsOfSpan s n = s.groups.filter (fun g => g.span == n) := by
  unfold groupsOfSpan allGroups
  rw [if_pos hs]

/-- The same, group by group. -/
theorem mem_groupsOfSpan {s : State} (hs : s.g.gid = 0) {n : Nat} {g : Group} : g ∈ groupsOfSpan s n ↔ g ∈ s.groups ∧ g.span = n := by
  rw [groupsOfSpan_unfocused hs, List.mem_filter, beq_iff_eq]

/-- The numbers of a span's groups are not 0 where no group has number 0. -/
theorem gids_ne_zero {s : State} (hs : s.g.gid = 0) (h0 : ∀ g ∈ s.groups, g.gid ≠ 0) (n : Nat) :
    ∀ k ∈ (groupsOfSpan s n).map Group.gid, k ≠ 0 := fun k hk => by
  obtain ⟨y, hy, rfl⟩ := List.mem_map.mp hk
  exact h0 y ((mem_groupsOfSpan hs).mp hy).1

/-- A viaduct reads as changed. -/
theorem viaductOf?_modViaduct {s : State} {n : Nat} {v : Viaduct} {f : Viaduct → Viaduct} (h : viaductOf? s n = some v)
    (hf : (f v).uid = v.uid) : viaductOf? (modViaduct n f s) n = some (f v) :=
  find?_updateFirst h (by have := List.find?_some h; simpa [hf] using this)

/-- The viaducts of a number are the same where the viaducts are. -/
theorem viaductOf?_congr {s t : State} (h : t.viaducts = s.viaducts) (n : Nat) : viaductOf? t n = viaductOf? s n := by
  unfold viaductOf?
  rw [h]

/-- R271, R389: the end of a viaduct's packet or gang part leaves the viaducts as they are. -/
theorem viaductOf?_endGang (v : Viaduct) (status detail n : Nat) (s : State) :
    viaductOf? (endGang v status detail s) n = viaductOf? s n :=
  viaductOf?_congr (congrArg (fun w => w.2.2.1) (heldView_endGang v status detail s) :) n

/-- R270: a span that retires takes its groups with it and is counted. -/
theorem retireSpan_eqs {s : State} {x : Span} (hx : spanOf? s x.uid = some x) : let t := retireSpan x.uid s
    t.spans = s.spans.filter (fun y => y.uid != x.uid) ∧ t.groups = s.groups.filter (fun g => g.span != x.uid) ∧
    t.viaducts = updateFirst (fun v => v.uid == x.viaduct) (fun v => { v with retired := v.retired + 1 }) s.viaducts ∧
    t.mem = s.mem ∧ t.front = s.front ∧ t.tick = s.tick := by
  have hframe : withWatchesOf s ((groupsOfSpan s x.uid).foldl (fun t g => withdrawGroup g t) s) = s :=
    foldl_keeps (withWatchesOf s) (fun u g => withWatchesOf_withdrawGroup s g u) _ s
  unfold retireSpan
  rw [hx]
  refine ⟨?_, ?_, ?_, ?_, ?_, ?_⟩
  · exact (congrArg (fun u : State => u.spans.filter (fun y => y.uid != x.uid)) hframe :)
  · exact (congrArg (fun u : State => u.groups.filter (fun g => g.span != x.uid)) hframe :)
  · exact (congrArg (fun u : State => updateFirst (fun v => v.uid == x.viaduct)
      (fun v => { v with retired := v.retired + 1 }) u.viaducts) hframe :)
  · exact (congrArg State.mem hframe :)
  · exact (congrArg State.front hframe :)
  · exact (congrArg State.tick hframe :)

/-- R240, R271: what is done about a viaduct of which no span is left: nothing, or it completes with a status. -/
theorem settleViaduct_cases {s : State} {n : Nat} {v : Viaduct} (hv : viaductOf? s n = some v) :
    settleViaduct n s = s ∨
      ∃ status detail, settleViaduct n s = endGang v status detail (modViaduct n (fun x => { x with st := .complete }) s) := by
  unfold settleViaduct
  rw [hv]
  dsimp only
  split
  · exact .inl rfl
  · split
    · exact .inr ⟨_, _, rfl⟩
    · split
      · exact .inr ⟨_, _, rfl⟩
      · exact .inl rfl
    · exact .inl rfl

/-- R271: a started viaduct whose spans have all retired completes with success. -/
theorem settleViaduct_completes {s : State} {n : Nat} {v : Viaduct} (hv : viaductOf? s n = some v)
    (hspans : ∀ x ∈ s.spans, x.viaduct ≠ n) (hst : v.st = .started) (hr : v.retired = v.lastSpan - v.firstSpan) :
    settleViaduct n s = endGang v 0 0 (modViaduct n (fun x => { x with st := .complete }) s) := by
  unfold settleViaduct
  rw [hv]
  dsimp only
  rw [if_neg (by simpa using hspans), hst]
  exact if_pos hr

/-- R391: a packet that completes with success takes its status in the journal. -/
theorem completePacket_journal (seq detail : Nat) (s : State) :
    (completePacket seq 0 detail s).front.journal = journalWith s seq 0 detail := by
  have hfinish : (finishPacket seq 0 detail s).front.journal = journalWith s seq 0 detail := by
    unfold finishPacket
    dsimp only
    split
    · rfl
    · exact (congrArg (fun u : State => u.front.journal) (withWatchesOf_dropEntries s _ _) :)
  unfold completePacket
  dsimp only
  split
  · exact hfinish
  · simpa using hfinish

/-- R271: what is done about a viaduct of which no span is left changes no span, no group and no memory, and not how many
spans have retired. -/
theorem settleViaduct_keeps {s : State} {n : Nat} {v : Viaduct} (hv : viaductOf? s n = some v) : let t := settleViaduct n s
    t.spans = s.spans ∧ t.groups = s.groups ∧ t.mem = s.mem ∧ ∃ w, viaductOf? t n = some w ∧ w.retired = v.retired := by
  intro t
  obtain h | ⟨status, detail, h⟩ := settleViaduct_cases hv
  · rw [show t = s from h]
    exact ⟨rfl, rfl, rfl, v, hv, rfl⟩
  · have hheld : heldView t = heldView (modViaduct n (fun x => { x with st := .complete }) s) :=
      (congrArg heldView h).trans (heldView_endGang ..)
    simp only [heldView, Prod.mk.injEq] at hheld
    obtain ⟨hmem, hspans, -, hgroups, -⟩ := hheld
    have hw : viaductOf? t n = some { v with st := .complete } := by
      rw [show t = _ from h, viaductOf?_endGang]
      exact viaductOf?_modViaduct hv rfl
    exact ⟨hspans, hgroups, hmem, _, hw, rfl⟩

/-- R270: a span retires once nothing of it is outstanding. -/
theorem execSpanRetire_retires {s : State} {x : Span} (hx : spanOf? s x.uid = some x) (hb : spanBusy s x.uid = false)
    (ht : x.savedTraps = []) (hg : ∀ g ∈ groupsOfSpan s x.uid, g.exited = true ∧ g.deferred = []) :
    exec (.spanRetire x.uid) s = .next (refreshCtx x.ctx (settleViaduct x.viaduct (retireSpan x.uid s))) := by
  change execSpanRetire x.uid s = _
  have hall : (groupsOfSpan s x.uid).all (fun g => g.exited && g.deferred == []) = true :=
    List.all_eq_true.mpr fun g h => by simp [hg g h]
  have hmay : mayRetire s x = true := by
    unfold mayRetire
    rw [hall]
    simp [hb, ht]
  unfold execSpanRetire
  rw [hx]
  exact if_pos hmay

/-- R270, R271: the retirement of a span, and with the last span the completion of its viaduct. -/
theorem execSpanRetire_leaves {s : State} {x : Span} {v : Viaduct} (hs : s.Settled) (hx : spanOf? s x.uid = some x)
    (hb : spanBusy s x.uid = false) (ht : x.savedTraps = [])
    (hg : ∀ g ∈ s.groups, g.gid ≠ 0 ∧ (g.span = x.uid → g.exited = true ∧ g.deferred = [])) (hv : viaductOf? s x.viaduct = some v) :
    ∃ t w, exec (.spanRetire x.uid) s = .next t ∧ t.spans = s.spans.filter (fun y => y.uid != x.uid) ∧
      t.groups = s.groups.filter (fun g => g.span != x.uid) ∧ viaductOf? t x.viaduct = some w ∧ w.retired = v.retired + 1 ∧ t.mem = s.mem ∧
      ((∀ y ∈ s.spans, y.viaduct = x.viaduct → y.uid = x.uid) → v.st = .started → v.gang = none →
        v.retired + 1 = v.lastSpan - v.firstSpan → w.st = .complete ∧ t.front.journal = journalWith s v.journal 0 0) := by
  have hmine : ∀ g ∈ groupsOfSpan s x.uid, g.exited = true ∧ g.deferred = [] := fun g h => by
    obtain ⟨hm, hsp⟩ := (mem_groupsOfSpan (congrArg Group.gid hs.1)).mp h
    exact (hg g hm).2 hsp
  obtain ⟨hspans, hgroups, hviaducts, hmem, hfront, htick⟩ := retireSpan_eqs hx
  generalize hr : retireSpan x.uid s = r at *
  have hvr : viaductOf? r x.viaduct = some { v with retired := v.retired + 1 } :=
    (viaductOf?_congr (s := modViaduct x.viaduct (fun v => { v with retired := v.retired + 1 }) s) hviaducts _).trans
      (viaductOf?_modViaduct hv rfl)
  obtain ⟨kspans, kgroups, kmem, w, hw, hret⟩ := settleViaduct_keeps hvr
  refine ⟨_, w, execSpanRetire_retires hx hb ht hmine, ?_⟩
  rw [hr]
  refine ⟨kspans.trans hspans, kgroups.trans hgroups, hw, hret, kmem.trans hmem, fun honly hst hgang hlast => ?_⟩
  have hnone : ∀ y ∈ r.spans, y.viaduct ≠ x.viaduct := fun y hy he => by
    rw [hspans] at hy
    obtain ⟨hm, hne⟩ := List.mem_filter.mp hy
    exact absurd (honly y hm he) (by simpa using hne)
  have hdone := settleViaduct_completes hvr hnone hst hlast
  have hcomplete : viaductOf? (settleViaduct x.viaduct r) x.viaduct = some { v with retired := v.retired + 1, st := .complete } := by
    rw [hdone, viaductOf?_endGang]
    exact viaductOf?_modViaduct hvr rfl
  have hjournal : (settleViaduct x.viaduct r).front.journal = journalWith r v.journal 0 0 := by
    rw [hdone]
    unfold endGang
    rw [show ({ v with retired := v.retired + 1 } : Viaduct).gang = none from hgang]
    exact completePacket_journal _ _ _
  refine ⟨?_, hjournal.trans ?_⟩
  · cases hw.symm.trans hcomplete
    rfl
  · unfold journalWith
    rw [hfront, htick]

end Sys2Proof.Machine
end

section
/-! Restoring of spans (R23, R396, R397). -/

namespace Sys2Proof.Machine

open Sys2Proof Sys2Proof.Claims

/-! What the condition monitor leaves unchanged (R332). -/

/-- A state with the groups and the focus of s. -/
def withGroupsOf (s u : State) : State := { u with groups := s.groups, g := s.g, sp := s.sp }

/-- Groups that change leave the rest unchanged. -/
theorem withGroupsOf_modGroup (s : State) (n : Nat) (f : Group → Group) (u : State) :
    withGroupsOf s (modGroup n f u) = withGroupsOf s u := by
  unfold modGroup
  split <;> rfl

/-- Splits that change leave all but the groups and the focus unchanged. -/
theorem withGroupsOf_modSplits (s : State) (n : Nat) (f : Split → Split) (u : State) :
    withGroupsOf s (modSplits n f u) = withGroupsOf s u := by
  unfold modSplits
  split <;> rfl

/-- R220: a slot that fires changes the groups and the focus alone. -/
theorem withGroupsOf_fireSlot (s : State) (gid i gen : Nat) (forced : Bool) (u : State) :
    withGroupsOf s (fireSlot gid i gen forced u) = withGroupsOf s u := by
  unfold fireSlot
  dsimp only
  split
  · exact (withGroupsOf_modSplits s _ _ _).trans (withGroupsOf_modGroup s _ _ _)
  · rfl

/-- R332: the evaluation of a group's slots changes the groups and the focus alone. -/
theorem withGroupsOf_evalMonitor (s : State) (gid : Nat) (u : State) :
    withGroupsOf s (evalMonitor gid u) = withGroupsOf s u := by
  unfold evalMonitor
  split
  · rfl
  · split
    · refine foldl_keeps (withGroupsOf s) (fun v i => ?_) _ _
      dsimp only
      split
      · exact withGroupsOf_fireSlot s _ _ _ _ _
      · rfl
    · rfl

/-- Whether a view of groups sees neither slots nor splits. -/
def Slotless {γ : Type} (p : Group → γ) : Prop := ∀ g ss ps, p { g with slots := ss, splits := ps } = p g

/-- What a view sees of the groups and of the one in focus. -/
def groupsView {γ : Type} (p : Group → γ) (s : State) : List γ × γ := (s.groups.map p, p s.g)

/-- A change of the groups of a number that a view does not see. -/
theorem map_updateAll {α γ : Type} {p : α → γ} {f : α → α} (h : ∀ a, p (f a) = p a) (q : α → Bool) (xs : List α) :
    (updateAll q f xs).map p = xs.map p := by
  unfold updateAll
  rw [List.map_map]
  refine List.map_congr_left fun a _ => ?_
  dsimp only [Function.comp_apply]
  split
  · exact h a
  · rfl

/-- A view sees no change of a group that it does not see in each group. -/
theorem groupsView_modGroup {γ : Type} {p : Group → γ} {f : Group → Group} (h : ∀ g, p (f g) = p g) (n : Nat) (s : State) :
    groupsView p (modGroup n f s) = groupsView p s := by
  unfold modGroup
  split
  · exact congrArg (Prod.mk _) (h s.g)
  · exact congrArg (fun xs => (xs, p s.g)) (map_updateAll h _ _)

section
variable {γ : Type} {p : Group → γ} (hp : Slotless p)
include hp

/-- A view that sees no splits sees no change of them. -/
theorem groupsView_modSplits (n : Nat) (f : Split → Split) (s : State) : groupsView p (modSplits n f s) = groupsView p s := by
  have h (g : Group) : p { g with splits := g.splits.map f } = p g := hp g g.slots _
  unfold modSplits
  split
  · exact congrArg (Prod.mk _) (h s.g)
  · exact congrArg (fun xs => (xs, p s.g)) (map_updateAll h _ _)

/-- R220: a view that sees neither slots nor splits sees no slot fire. -/
theorem groupsView_fireSlot (gid i gen : Nat) (forced : Bool) (s : State) :
    groupsView p (fireSlot gid i gen forced s) = groupsView p s := by
  unfold fireSlot
  dsimp only
  split
  · exact (groupsView_modSplits hp _ _ _).trans (groupsView_modGroup (fun g => hp g _ g.splits) _ _)
  · rfl

/-- R332: a view that sees neither slots nor splits sees no evaluation of the slots. -/
theorem groupsView_evalMonitor (gid : Nat) (s : State) : groupsView p (evalMonitor gid s) = groupsView p s := by
  unfold evalMonitor
  split
  · rfl
  · split
    · refine foldl_keeps (groupsView p) (fun u i => ?_) _ s
      dsimp only
      split
      · exact groupsView_fireSlot hp _ _ _ _ _
      · rfl
    · rfl

end

end Sys2Proof.Machine
end

section
/-! Restoring of a span and of its groups (R23, R396). -/

namespace Sys2Proof.Machine

open Sys2Proof Sys2Proof.Claims

/-- A map without the keys that fail a test. -/
theorem mapGet_filter_keys {α : Type} (d : α) (m : SMap α) (q : Nat → Bool) (k : Nat) :
    mapGet d (m.filter (fun p => q p.1)) k = if q k then mapGet d m k else d := by
  induction m with
  | nil => simp [mapGet]
  | cons p m ih =>
    by_cases hp : q p.1 = true
    · rw [show (p :: m).filter (fun p => q p.1) = p :: m.filter (fun p => q p.1) from List.filter_cons_of_pos hp, mapGet_cons,
        mapGet_cons, ih]
      by_cases hk : p.1 = k
      · simp [← hk, hp]
      · simp [hk]
    · rw [show (p :: m).filter (fun p => q p.1) = m.filter (fun p => q p.1) from List.filter_cons_of_neg hp, mapGet_cons, ih]
      by_cases hk : p.1 = k
      · simp [← hk, hp]
      · simp [hk]

/-- What a restored group has of the group that was saved: its number, its scalar and mask registers and its live vector
registers; it is resident. -/
def Restored (g h : Group) : Prop :=
  h.gid = g.gid ∧ h.residence = .resident ∧ h.sregs = g.sregs ∧ h.kregs = g.kregs ∧
    h.regs = g.regs.filter (fun r => decide (r.1 < 32 * g.live))

/-- R23: the registers of a restored group below the live count are those saved; the others read as zero. -/
theorem Restored.gReg {g h : Group} (hr : Restored g h) (r : Nat) {l : Nat} (hl : l < 32) :
    gReg h r l = if r < g.live then gReg g r l else 0 := by
  obtain ⟨-, -, -, -, hregs⟩ := hr
  have hkey : (regKey r l < 32 * g.live) = (r < g.live) := by
    apply propext; unfold regKey; omega
  unfold Machine.gReg
  rw [hregs, mapGet_filter_keys 0 g.regs (fun k => decide (k < 32 * g.live))]
  simp only [decide_eq_true_eq, hkey]

/-- R23, R396: the restore of a group changes the group of its number alone, wherever it goes. -/
theorem restoreGroup_eq {a b n : Nat} {s : State} {g : Group} (hg : groupOf? s n = some g) :
    ∃ f : Group → Group, restoreGroup a b n s = modGroup n f s ∧ Restored g (f g) ∧ ∀ h, (f h).gid = h.gid := by
  unfold restoreGroup
  rw [hg]
  exact ⟨_, rfl, ⟨rfl, rfl, rfl, rfl, rfl⟩, fun _ => rfl⟩

/-- A group of another number is as before. -/
theorem groupOf?_modGroup_ne {s : State} {n k : Nat} {f : Group → Group} (hs : s.g.gid = 0) (hn : n ≠ 0) (hf : ∀ h, (f h).gid = h.gid)
    (hk : k ≠ n) : groupOf? (modGroup n f s) k = groupOf? s k := by
  rw [modGroup_unfocused (by rw [hs]; exact Ne.symm hn), groupOf?_unfocused hs, groupOf?_unfocused (by exact hs)]
  dsimp only
  induction s.groups with
  | nil => rfl
  | cons x xs ih =>
    by_cases hx : x.gid = n
    · have hxk : x.gid ≠ k := hx.trans_ne (Ne.symm hk)
      have hfk : (f x).gid ≠ k := (hf x).trans_ne hxk
      simpa [updateAll, hx, hxk, hfk, Ne.symm hk] using ih
    · have hcons : updateAll (fun g => g.gid == n) f (x :: xs) = x :: updateAll (fun g => g.gid == n) f xs := by
        simp [updateAll, hx]
      rw [hcons, List.find?_cons, List.find?_cons, ih]

/-- R396: where no group is in focus, the restore of a group restores it and leaves the others as they are. -/
theorem restoreGroup_restores {s : State} (a b : Nat) {n : Nat} (hs : s.g.gid = 0) (hn : n ≠ 0) : let t := restoreGroup a b n s
    t.g = s.g ∧ (∀ k, k ≠ n → groupOf? t k = groupOf? s k) ∧
    ∀ g, groupOf? s n = some g → ∃ h, groupOf? t n = some h ∧ Restored g h := by
  intro t
  cases hg : groupOf? s n with
  | none =>
    have ht : t = s := by
      change restoreGroup a b n s = s
      unfold restoreGroup
      rw [hg]
    rw [ht]
    exact ⟨rfl, fun _ _ => rfl, fun g h => nomatch h⟩
  | some g =>
    obtain ⟨f, ht, hr, hf⟩ := restoreGroup_eq (a := a) (b := b) hg
    have hgid : g.gid = n := by simpa using List.find?_some hg
    subst hgid
    rw [show t = _ from ht]
    refine ⟨(congrArg State.g (modGroup_unfocused (by rw [hs]; exact Ne.symm hn) f) :), fun k hk => groupOf?_modGroup_ne hs hn hf hk,
      fun h heq => ⟨f g, groupOf?_modGroup hs hn hg (hf g), ?_⟩⟩
    cases heq
    exact hr

/-- R396: groups restored one after another, none twice: each is restored, and the others are as they were. -/
theorem restoreGroups_restore (a b : Nat) {ns : List Nat} (hnd : ns.Nodup) (h0 : ∀ n ∈ ns, n ≠ 0) {s : State} (hs : s.g.gid = 0) :
    let t := ns.foldl (fun u n => restoreGroup a b n u) s
    t.g = s.g ∧ (∀ k, k ∉ ns → groupOf? t k = groupOf? s k) ∧
    ∀ n ∈ ns, ∀ g, groupOf? s n = some g → ∃ h, groupOf? t n = some h ∧ Restored g h := by
  induction ns generalizing s with
  | nil => exact ⟨rfl, fun _ _ => rfl, fun n hn => nomatch hn⟩
  | cons m ns ih =>
    obtain ⟨hm, hnd⟩ := List.nodup_cons.mp hnd
    obtain ⟨hfocus, hothers, hthis⟩ := restoreGroup_restores a b hs (h0 m (by simp))
    obtain ⟨ihfocus, ihothers, ihthese⟩ := ih hnd (fun n h => h0 n (by simp [h])) (s := restoreGroup a b m s) (by rw [hfocus]; exact hs)
    refine ⟨ihfocus.trans hfocus, fun k hk => ?_, fun n hn g hg => ?_⟩
    · obtain ⟨hkm, hkn⟩ := not_or.mp (fun h => hk (List.mem_cons.mpr h))
      exact (ihothers k hkn).trans (hothers k hkm)
    · obtain rfl | hn := List.mem_cons.mp hn
      · obtain ⟨h, hh, hr⟩ := hthis g hg
        exact ⟨h, (ihothers n hm).trans hh, hr⟩
      · exact ihthese n hn g ((hothers n (fun he => hm (he ▸ hn))).trans hg)

end Sys2Proof.Machine
end

section
/-! The distributor's turn to restore a span (R396, R397). -/

namespace Sys2Proof.Machine

open Sys2Proof Sys2Proof.Claims

/-! The restore of a span. -/

/-- R396: the restore of a group changes the groups and the focus alone. -/
theorem withGroupsOf_restoreGroup (s : State) (a b n : Nat) (u : State) :
    withGroupsOf s (restoreGroup a b n u) = withGroupsOf s u := by
  unfold restoreGroup
  split
  · rfl
  · exact withGroupsOf_modGroup s _ _ _

/-- R396: a span at the place to which it is restored, no trap waiting any longer. -/
def restoredAt (core0 place : Nat) (y : Span) : Span :=
  { y with core0 := place, residence := .resident, evicting := false, restored := true, slot := none, savedTraps := [],
           cores := y.cores.map (fun c => { c with core := c.core - core0 + place }) }

/-- R396: the groups of a span restored at a place, one after another. -/
def restoreGroups (x : Span) (place : Nat) (s : State) : State :=
  (groupsOfSpan s x.uid).foldl (fun w g => restoreGroup x.core0 place g.gid w) (modSpan x.uid (restoredAt x.core0 place) s)

/-- R396: the restore of a span of which no trap waits: its groups are restored and their slots evaluated; of the rest, the
span, the engines and its context change. -/
theorem restoreSpan_eq {s : State} {x : Span} (place : Nat) (hx : spanOf? s x.uid = some x) (ht : x.savedTraps = []) :
    ∃ (eng : Engines) (ten : Tenancy), restoreSpan x.uid place s = { (groupsOfSpan s x.uid).foldl (fun w g => evalMonitor g.gid w)
        { restoreGroups x place s with eng := eng } with ten := ten } := by
  unfold restoreSpan
  rw [hx]
  simp only [ht, List.foldl_nil]
  exact ⟨_, _, rfl⟩

/-- The spans and memory. -/
def spansView (s : State) : List Span × List Host.Cell × List Host.Cell := (s.spans, s.mem, s.wq)

/-- The spans of a number are the same where the spans are. -/
theorem spanOf?_congr {s t : State} (h : t.spans = s.spans) (n : Nat) : spanOf? t n = spanOf? s n := by
  unfold spanOf?
  rw [h]

/-- R332: the evaluation of a group's slots changes no span and no memory. -/
theorem spansView_evalMonitor (n : Nat) (s : State) : spansView (evalMonitor n s) = spansView s :=
  (congrArg spansView (withGroupsOf_evalMonitor s n s) :)

/-- R396: the restore of a group changes no span and no memory. -/
theorem spansView_restoreGroup (a b n : Nat) (s : State) : spansView (restoreGroup a b n s) = spansView s :=
  (congrArg spansView (withGroupsOf_restoreGroup s a b n s) :)

/-- R396: the restore of a span changes no other span and no memory. -/
theorem spansView_restoreSpan {s : State} {x : Span} (place : Nat) (hx : spanOf? s x.uid = some x) (ht : x.savedTraps = []) :
    spansView (restoreSpan x.uid place s) = spansView (modSpan x.uid (restoredAt x.core0 place) s) := by
  obtain ⟨eng, ten, h⟩ := restoreSpan_eq place hx ht
  have hmonitor (u : State) : spansView ((groupsOfSpan s x.uid).foldl (fun w g => evalMonitor g.gid w) u) = spansView u :=
    foldl_keeps spansView (fun v (g : Group) => spansView_evalMonitor g.gid v) _ u
  have hgroups : spansView (restoreGroups x place s) = spansView (modSpan x.uid (restoredAt x.core0 place) s) :=
    foldl_keeps spansView (fun v (g : Group) => spansView_restoreGroup x.core0 place g.gid v) _ _
  rw [h]
  exact (hmonitor _).trans hgroups

/-- R396, R397: so does what a distributor's restore does for the owner. -/
theorem spansView_restoreFor {s : State} {x : Span} (owner place : Nat) (hx : spanOf? s x.uid = some x) (ht : x.savedTraps = []) :
    spansView (restoreFor owner x place s) = spansView (modSpan x.uid (restoredAt x.core0 place) s) :=
  (congrArg spansView (modOwner_frame owner _ _) :).trans (spansView_restoreSpan place hx ht)

/-- R396: the restored span, as it reads after the restore. -/
theorem spanOf?_restoreFor {s : State} {x : Span} (owner place : Nat) (hx : spanOf? s x.uid = some x) (ht : x.savedTraps = []) :
    spanOf? (restoreFor owner x place s) x.uid = some (restoredAt x.core0 place x) :=
  (spanOf?_congr (congrArg Prod.fst (spansView_restoreFor owner place hx ht)) x.uid).trans
    (spanOf?_modSpan (f := restoredAt x.core0 place) hx rfl)

/-- What a restored group's description sees of a group. -/
def restoredView (g : Group) : Nat × Residence × SMap W64 × SMap W × SMap W := (g.gid, g.residence, g.sregs, g.kregs, g.regs)

/-- What has the same view is restored too. -/
theorem Restored.of_view {g h k : Group} (hr : Restored g h) (hk : restoredView k = restoredView h) : Restored g k := by
  simp only [restoredView, Prod.mk.injEq] at hk
  obtain ⟨hgid, hres, hsregs, hkregs, hregs⟩ := hk
  obtain ⟨rgid, rres, rsregs, rkregs, rregs⟩ := hr
  exact ⟨hgid.trans rgid, hres.trans rres, hsregs.trans rsregs, hkregs.trans rkregs, hregs.trans rregs⟩

/-- Where no number names two groups, each is the group of its number. -/
theorem groupOf?_of_mem {s : State} {g : Group} (hs : s.g.gid = 0) (hnd : (s.groups.map Group.gid).Nodup) (hg : g ∈ s.groups) :
    groupOf? s g.gid = some g := by
  rw [groupOf?_unfocused hs]
  generalize s.groups = gs at *
  induction gs with
  | nil => exact absurd hg List.not_mem_nil
  | cons x xs ih =>
    obtain ⟨hx, hnd⟩ := List.nodup_cons.mp hnd
    obtain rfl | hg := List.mem_cons.mp hg
    · simp
    · have hne : x.gid ≠ g.gid := fun he => hx (he ▸ List.mem_map_of_mem hg)
      rw [List.find?_cons_of_neg (by simpa using hne)]
      exact ih hnd hg

/-- R23, R396: where no group is in focus, every group of a restored span is restored. -/
theorem restoreFor_groups {s : State} {x : Span} (owner place : Nat) (hs : s.Settled) (hx : spanOf? s x.uid = some x)
    (ht : x.savedTraps = []) (hnd : (s.groups.map Group.gid).Nodup) (h0 : ∀ g ∈ s.groups, g.gid ≠ 0) :
    ∀ g ∈ s.groups, g.span = x.uid → ∃ h ∈ (restoreFor owner x place s).groups, Restored g h := by
  intro g hg hsp
  have hfocus : s.g.gid = 0 := congrArg Group.gid hs.1
  have hgids : ((groupsOfSpan s x.uid).map Group.gid).Nodup :=
    groupsOfSpan_unfocused hfocus x.uid ▸ hnd.sublist (List.filter_sublist.map _)
  have hin : g.gid ∈ (groupsOfSpan s x.uid).map Group.gid := List.mem_map_of_mem ((mem_groupsOfSpan hfocus).mpr ⟨hg, hsp⟩)
  obtain ⟨rfocus, -, rgroups⟩ := restoreGroups_restore x.core0 place hgids (gids_ne_zero hfocus h0 x.uid)
    (s := modSpan x.uid (restoredAt x.core0 place) s) hfocus
  obtain ⟨h, hh, hr⟩ := rgroups g.gid hin g (groupOf?_of_mem (s := s) hfocus hnd hg)
  rw [List.foldl_map] at hh rfocus
  rw [groupOf?_unfocused (by rw [rfocus]; exact hfocus)] at hh
  obtain ⟨eng, ten, hrest⟩ := restoreSpan_eq place hx ht
  have hview : (restoreFor owner x place s).groups.map restoredView = (restoreGroups x place s).groups.map restoredView := by
    rw [show (restoreFor owner x place s).groups = (restoreSpan x.uid place s).groups from
      (congrArg State.groups (modOwner_frame owner _ (endPreempts owner x.die place _ _)) :), hrest]
    exact congrArg Prod.fst (foldl_keeps (groupsView restoredView)
      (fun v (y : Group) => groupsView_evalMonitor (fun _ _ _ => rfl) y.gid v) (groupsOfSpan s x.uid)
      { restoreGroups x place s with eng := eng })
  have hmem : restoredView h ∈ (restoreFor owner x place s).groups.map restoredView :=
    hview ▸ List.mem_map_of_mem (List.mem_of_find?_eq_some hh)
  obtain ⟨k, hk, hkh⟩ := List.mem_map.mp hmem
  exact ⟨k, hk, hr.of_view hkh⟩

/-! The turn (R397). -/

/-- R397: the turns of a die change the tenancy alone. -/
theorem takeTurns_frame (ten : Tenancy) (die : Nat) (ps : List (Nat × Work)) (n : Nat) (s : State) :
    { (takeTurns die ps n s).2 with ten := ten } = { s with ten := ten } := by
  induction n generalizing s with
  | zero => rfl
  | succ n ih =>
    unfold takeTurns
    dsimp only
    split
    · split
      · rfl
      · exact ih (setPointer die _ s)
    · split
      · rfl
      · exact (ih (setPointer die _ (modOwner _ _ s))).trans
          (congrArg (fun u : State => { u with ten := ten }) (modOwner_frame _ _ s) :)

/-- R397: the choice of a die's next work changes the tenancy alone. -/
theorem nextWork_frame (ten : Tenancy) (die : Nat) (s : State) : { (nextWork die s).2 with ten := ten } = { s with ten := ten } := by
  unfold nextWork
  dsimp only
  split
  · rfl
  · exact takeTurns_frame ten die _ _ _

/-- R397: the restore of a saved span at its owner's turn; the turn has changed the tenancy alone. -/
theorem execSpanRestore_turn {s u : State} {x : Span} {owner place cost : Nat} (hx : spanOf? s x.uid = some x)
    (hr : x.residence = .saved) (hc : coopViaduct s x.viaduct = false)
    (hw : nextWork x.die (dropPreempts s) = (some (owner, .restore x.uid place cost), u)) :
    exec (.spanRestore x.uid) s = .next (restoreFor owner x place u) ∧ u = { s with ten := u.ten } := by
  constructor
  · change execSpanRestore x.uid s = _
    unfold execSpanRestore
    rw [hx]
    dsimp only
    rw [if_neg (by simp [hr]), if_neg (by simp [hc]), hw]
    exact if_pos rfl
  · have := nextWork_frame u.ten x.die (dropPreempts s)
    rwa [hw] at this

/-- R23, R396: a restored span stands at its place, its groups with what was saved of them; memory is as it was. -/
theorem execSpanRestore_restores {s u : State} {x : Span} {owner place cost : Nat} (hs : s.Settled) (hx : spanOf? s x.uid = some x)
    (hr : x.residence = .saved) (hc : coopViaduct s x.viaduct = false) (ht : x.savedTraps = [])
    (hnd : (s.groups.map Machine.Group.gid).Nodup) (h0 : ∀ g ∈ s.groups, g.gid ≠ 0)
    (hw : nextWork x.die (dropPreempts s) = (some (owner, .restore x.uid place cost), u)) :
    ∃ t y, exec (.spanRestore x.uid) s = .next t ∧ spanOf? t x.uid = some y ∧ y.residence = .resident ∧ y.core0 = place ∧
      y.restored = true ∧ t.mem = s.mem ∧ t.wq = s.wq ∧
      (∀ g ∈ s.groups, g.span = x.uid → ∃ h ∈ t.groups, h.gid = g.gid ∧ h.residence = .resident ∧ h.sregs = g.sregs ∧ h.kregs = g.kregs ∧
        ∀ r l, l < 32 → gReg h r l = if r < g.live then gReg g r l else 0) := by
  obtain ⟨hrun, hu⟩ := execSpanRestore_turn hx hr hc hw
  have hxu : spanOf? u x.uid = some x := by rw [hu]; exact hx
  have hsu : u.Settled := by rw [hu]; exact hs
  have hgroups : u.groups = s.groups := by rw [hu]
  have hmem : u.mem = s.mem ∧ u.wq = s.wq := by rw [hu]; exact ⟨rfl, rfl⟩
  have hview := spansView_restoreFor owner place hxu ht
  refine ⟨_, _, hrun, spanOf?_restoreFor owner place hxu ht, rfl, rfl, rfl, ?_, ?_, fun g hg hsp => ?_⟩
  · exact (congrArg (fun v => v.2.1) hview).trans hmem.1
  · exact (congrArg (fun v => v.2.2) hview).trans hmem.2
  · obtain ⟨h, hh, hres⟩ := restoreFor_groups owner place hsu hxu ht (hgroups ▸ hnd) (hgroups ▸ h0) g (hgroups ▸ hg) hsp
    exact ⟨h, hh, hres.1, hres.2.1, hres.2.2.1, hres.2.2.2.1, fun r l hl => hres.gReg r hl⟩

/-! An owner within its turn. -/

/-- R402: with no pre-emption none ends. -/
theorem dropPreempts_none {s : State} (h : s.ten.preempts = []) : dropPreempts s = s := by
  unfold dropPreempts
  rw [h, List.filter_nil, ← h]

/-- R397: an owner with work keeps its deficits. -/
theorem ownerRec_dropDeficits {die n : Nat} {keep : List Nat} (h : memNat n keep = true) (s : State) :
    ownerRec (dropDeficits die keep s) n = ownerRec s n := by
  unfold ownerRec
  refine congrArg (fun o : Option Owner => o.getD (Owner.initial n)) ?_
  unfold dropDeficits
  dsimp only
  induction s.ten.owners with
  | nil => rfl
  | cons o os ih =>
    rw [List.map_cons, List.find?_cons, List.find?_cons, ih]
    by_cases ho : o.num = n
    · subst ho
      simp [h]
    · have hn : (if memNat o.num keep then o
          else { o with deficits := o.deficits.set die (min 0 (nthD 0 o.deficits die)) }).num = o.num := by
        split <;> rfl
      rw [hn, beq_false_of_ne ho]

/-- R397: an owner whose work can be done in its turn is among the owners of started viaducts. -/
theorem mem_activeOwners_of_turn {s : State} {die owner : Nat} {w : Work}
    (h : (turnOwners s die).find? (fun p => p.1 == owner) = some (owner, w)) : owner ∈ activeOwners s := by
  have hall := List.mem_of_mem_filter (List.mem_of_find?_eq_some h)
  obtain ⟨o, ho, hp⟩ := List.mem_filterMap.mp hall
  obtain ⟨_, -, hpair⟩ := Option.map_eq_some_iff.mp hp
  have howner : o = owner := congrArg Prod.fst hpair
  exact howner ▸ ho

/-- R397: a turn that lasts, with a deficit that covers the owner's work, gives that work. -/
theorem takeTurns_lasts {s : State} {die owner : Nat} {w : Work} {ps : List (Nat × Work)} (n : Nat)
    (hturn : ps.find? (fun p => p.1 == owner) = some (owner, w)) (hp : nthD 0 s.ten.pointers die = 2 * owner + 1)
    (hd : (w.cost : Int) ≤ nthD 0 (ownerRec s owner).deficits die) : takeTurns die ps (n + 1) s = (some (owner, w), s) := by
  have hodd : (2 * owner + 1) % 2 = 1 := by omega
  have hhalf : (2 * owner + 1) / 2 = owner := by omega
  unfold takeTurns
  simp only [hp, hodd, hhalf, if_true, hturn]
  exact if_pos hd

/-- R397: an owner whose turn lasts goes first while its deficit covers its work. -/
theorem nextWork_inTurn {s : State} {die owner : Nat} {w : Work} (hw : ownerWork? s die owner = some w)
    (hturn : (turnOwners s die).find? (fun p => p.1 == owner) = some (owner, w)) (hp : nthD 0 s.ten.pointers die = 2 * owner + 1)
    (hd : (w.cost : Int) ≤ nthD 0 (ownerRec s owner).deficits die) :
    ∃ u, nextWork die s = (some (owner, w), u) := by
  have hkeep : memNat owner ((activeOwners s).filter (fun o => (ownerWork? s die o).isSome)) = true :=
    List.any_eq_true.mpr ⟨owner, List.mem_filter.mpr ⟨mem_activeOwners_of_turn hturn, by simp [hw]⟩, by simp⟩
  have hne : turnOwners s die ≠ [] := fun h => by simp [h] at hturn
  unfold nextWork
  dsimp only
  rw [if_neg hne]
  exact ⟨_, takeTurns_lasts 1023 hturn hp (by rw [ownerRec_dropDeficits hkeep]; exact hd)⟩

/-- R396, R397: an owner in its turn has its saved span restored. -/
theorem execSpanRestore_inTurn {s : State} {x : Span} {owner place cost : Nat} (hx : spanOf? s x.uid = some x)
    (hr : x.residence = .saved) (hc : coopViaduct s x.viaduct = false) (ht : x.savedTraps = []) (hpre : s.ten.preempts = [])
    (hw : ownerWork? s x.die owner = some (.restore x.uid place cost))
    (hturn : (turnOwners s x.die).find? (fun p => p.1 == owner) = some (owner, .restore x.uid place cost))
    (hp : nthD 0 s.ten.pointers x.die = 2 * owner + 1) (hd : (cost : Int) ≤ nthD 0 (ownerRec s owner).deficits x.die) :
    ∃ t y, exec (.spanRestore x.uid) s = .next t ∧ spanOf? t x.uid = some y ∧ y.residence = .resident ∧ y.core0 = place ∧
      y.restored = true := by
  obtain ⟨u, hnext⟩ := nextWork_inTurn hw hturn hp hd
  obtain ⟨hrun, hu⟩ := execSpanRestore_turn hx hr hc (by rw [dropPreempts_none hpre]; exact hnext)
  have hxu : spanOf? u x.uid = some x := by rw [hu]; exact hx
  exact ⟨_, _, hrun, spanOf?_restoreFor owner place hxu ht, rfl, rfl, rfl⟩

end Sys2Proof.Machine
end

section
/-! What the eviction of a split leaves unchanged (R306, R307, R322, R396). -/

namespace Sys2Proof.Machine

open Sys2Proof Sys2Proof.Claims

/-- What the eviction of a split leaves of a group: its number, its span and where it stands. -/
def groupKey (g : Group) : Nat × Nat × Residence := (g.gid, g.span, g.residence)

/-- What the eviction of a split leaves of a span: its number, and whether it is being evicted. -/
def spanKey (x : Span) : Nat × Bool := (x.uid, x.evicting)

/-- What the eviction of a split in focus leaves unchanged. -/
def evictView (s : State) : List Host.Cell × List (Nat × Bool) × List Preempt × List (Nat × Nat × Residence) × Nat × Nat × Residence :=
  (s.mem, s.spans.map spanKey, s.ten.preempts, groupsView groupKey s)

/-- What changes nothing that is held changes nothing of this view. -/
theorem evictView_of_held {s t : State} (h : heldView t = heldView s) : evictView t = evictView s := by
  simp only [heldView, Prod.mk.injEq] at h
  obtain ⟨hmem, hspans, -, hgroups, hg, -, hpre⟩ := h
  simp only [evictView, groupsView, hmem, hspans, hgroups, hg, hpre]

/-- What changes the groups alone changes nothing of this view but of the groups. -/
theorem evictView_of_groups {s t : State} (h : withGroupsOf s t = s) (hg : groupsView groupKey t = groupsView groupKey s) :
    evictView t = evictView s := by
  have hrest := (congrArg (fun u : State => (u.mem, u.spans, u.ten.preempts)) h :)
  simp only [withGroupsOf, Prod.mk.injEq] at hrest
  obtain ⟨hmem, hspans, hpre⟩ := hrest
  simp only [evictView, hmem, hspans, hpre, hg]

/-! Slots. -/

/-- R328: a withdrawal. -/
theorem evictView_withdrawSlot (g : Group) (i : Nat) (s : State) : evictView (withdrawSlot g i s) = evictView s :=
  evictView_of_held (heldView_withdrawSlot g i s)

/-- R332: the evaluation of the slots of a group. -/
theorem evictView_evalMonitor (n : Nat) (s : State) : evictView (evalMonitor n s) = evictView s :=
  evictView_of_groups (withGroupsOf_evalMonitor s n s) (groupsView_evalMonitor (fun _ _ _ => rfl) n s)

/-- R219, R220: an armed slot, withdrawn and evaluated. -/
theorem evictView_armSlot (i : Nat) (c : Cond) (isWaitu region : Bool) (s : State) :
    evictView (armSlot i c isWaitu region s) = evictView s := by
  have hw := evictView_withdrawSlot s.g i s
  unfold armSlot
  cases c with
  | word _ _ _ _ => exact hw
  | barPhase _ _ => exact (evictView_evalMonitor _ _).trans hw
  | window _ _ => exact (evictView_evalMonitor _ _).trans hw
  | queue _ => exact (evictView_evalMonitor _ _).trans hw
  | mordant _ => exact (evictView_evalMonitor _ _).trans hw

/-- R307: a slot as the checkpoint has it. -/
theorem evictView_restoreSlot (i : Nat) (old : Slot) (s : State) : evictView (restoreSlot i old s) = evictView s := by
  have hw := evictView_withdrawSlot s.g i s
  unfold restoreSlot
  dsimp only
  split
  · rfl
  · split
    · exact evictView_armSlot _ _ _ _ _
    · exact hw
    · exact hw

/-! Regions and their aborts. -/

theorem evictView_countAbort (n : Nat) (s : State) : evictView (countAbort n s) = evictView s := rfl

theorem evictView_withSplit (p : Split) (s : State) : evictView { s with sp := p } = evictView s := rfl

/-- R307: what an abort discards and restores is of the group in focus, and no key of it. -/
theorem evictView_discardRegion (s : State) : evictView (discardRegion s) = evictView s := by
  unfold discardRegion
  refine (foldl_keeps evictView (fun u (p : Slot × Nat) => evictView_restoreSlot p.2 p.1 u) _ _).trans ?_
  simp only [evictView, groupsView, groupKey, returnTaken]
  cases inTx s <;> rfl

theorem heldView_withMs (m : MemSys) (s : State) : heldView { s with ms := m } = heldView s := rfl

theorem heldView_modCtx (n : Nat) (f : Context → Context) (s : State) : heldView (modCtx n f s) = heldView s := rfl

/-- R309, R421: a fault record goes to its queue, or to the driver. -/
theorem heldView_writeFault (r : FaultRec) (s : State) : heldView (writeFault r s) = heldView s := by
  unfold writeFault
  split
  · rfl
  · refine (heldView_withMs _ _).trans ?_
    split
    · rfl
    · exact (heldView_modCtx _ _ _).trans (heldView_firmwareWrite _ _ _ _ _)

/-- R309: so do several. -/
theorem heldView_writeFaults (rs : List FaultRec) (s : State) : heldView (writeFaults rs s).1 = heldView s := by
  induction rs generalizing s with
  | nil => rfl
  | cons r rs ih =>
    unfold writeFaults
    split
    · exact (ih _).trans (heldView_writeFault r s)
    · rfl

/-- R306 to R309: the abort of a region. -/
theorem evictView_abortRegion (rs : List FaultRec) (s : State) : evictView (abortRegion rs s) = evictView s := by
  unfold abortRegion
  refine (evictView_withSplit _ _).trans ((evictView_of_held (heldView_writeFaults _ _)).trans ?_)
  split
  · exact evictView_discardRegion s
  · exact (evictView_countAbort _ _).trans (evictView_discardRegion s)

/-- R153: the atomics of a split that are gone. -/
theorem evictView_atomsGone (s : State) : evictView (atomsGone s) = evictView s := by
  unfold atomsGone
  split <;> rfl

/-- R306, R307: the abort of an evicted region. -/
theorem evictView_evictRegion (rs : List FaultRec) (s : State) : evictView (evictRegion rs s) = evictView s := by
  have hgone := evictView_atomsGone s
  have hdiscard : evictView (discardRegion (atomsGone s)) = evictView s := (evictView_discardRegion _).trans hgone
  have habort (fs : List FaultRec) : evictView (abortRegion fs (atomsGone s)) = evictView s := (evictView_abortRegion fs _).trans hgone
  unfold evictRegion
  dsimp only
  split
  · exact (evictView_withSplit _ _).trans ((evictView_countAbort 2 _).trans hdiscard)
  · split
    · exact habort _
    · exact (evictView_withSplit _ _).trans (habort _)

/-! Boundaries and the ends of transactions. -/

/-- A change of the first element of a kind that a view does not see. -/
theorem map_updateFirst {α γ : Type} {p : α → γ} {f : α → α} (h : ∀ a, p (f a) = p a) (q : α → Bool) (xs : List α) :
    (updateFirst q f xs).map p = xs.map p := by
  induction xs with
  | nil => rfl
  | cons x xs ih =>
    unfold updateFirst
    split
    · exact congrArg (· :: xs.map p) (h x)
    · exact congrArg (p x :: ·) ih

/-- A change of a span that is not of its key. -/
theorem evictView_modSpan {f : Span → Span} (h : ∀ x, spanKey (f x) = spanKey x) (n : Nat) (s : State) :
    evictView (modSpan n f s) = evictView s :=
  congrArg (fun xs => (s.mem, xs, s.ten.preempts, groupsView groupKey s)) (map_updateFirst h _ s.spans)

/-- R187, R188: a subtraction changes what a span holds. -/
theorem evictView_applyPending (p : Pending) (s : State) : evictView (applyPending p s) = evictView s := by
  cases p with
  | block _ _ _ _ _ => exact evictView_modSpan (fun _ => by rfl) _ _
  | tileRow _ _ _ _ _ => exact evictView_modSpan (fun _ => by rfl) _ _
  | histogram _ _ => rfl

/-- R229: beats are counted in the context. -/
theorem evictView_addBeats (n : Nat) (s : State) : evictView (addBeats n s) = evictView s := by
  unfold addBeats
  split <;> rfl

/-- R300: a boundary. -/
theorem evictView_commitRegion (s : State) : evictView (commitRegion s) = evictView s := by
  have hpend (ps : List Pending) (u : State) : evictView (ps.foldl (fun v p => applyPending p v) u) = evictView u :=
    foldl_keeps evictView (fun v p => evictView_applyPending p v) ps u
  unfold commitRegion takeCheckpoint
  refine (evictView_withSplit _ _).trans ((evictView_withSplit _ _).trans ?_)
  exact (hpend _ _).trans (evictView_addBeats s.sp.beats _)

/-- R227: the end of a transaction. -/
theorem evictView_endTx (succ : W) (causes : List (Nat × Nat)) (code : Option Nat) (s : State) :
    evictView (endTx succ causes code s) = evictView s := by
  unfold endTx
  split
  · rfl
  · dsimp only
    split <;> rfl

/-- R306, R322, R396: the eviction of a split in focus. -/
theorem evictView_evictSplit (s : State) : evictView (evictSplit s) = evictView s := by
  unfold evictSplit
  split
  · split
    · rfl
    · split
      · exact (evictView_commitRegion _).trans (evictView_endTx _ _ _ s)
      · exact evictView_evictRegion _ _
  · split
    · rfl
    · exact evictView_evictRegion _ _

end Sys2Proof.Machine
end

section
/-! An operation on a split where no group is in focus. -/

namespace Sys2Proof.Machine

open Sys2Proof Sys2Proof.Claims

/-- The groups of a list to which a group is added. -/
theorem mem_insertGroup {x y : Group} {xs : List Group} : y ∈ insertGroup x xs ↔ y = x ∨ y ∈ xs := by
  induction xs with
  | nil => simp [insertGroup]
  | cons z zs ih =>
    unfold insertGroup
    split
    · exact List.mem_cons
    · rw [List.mem_cons, List.mem_cons, ih]
      tauto

/-- The group of another number is as before. -/
theorem find?_insertGroup_ne {x : Group} {k : Nat} (hk : k ≠ x.gid) (xs : List Group) :
    (insertGroup x xs).find? (fun g => g.gid == k) = xs.find? (fun g => g.gid == k) := by
  have hx : (x.gid == k) = false := beq_false_of_ne (Ne.symm hk)
  induction xs with
  | nil => simp [insertGroup, hx]
  | cons z zs ih =>
    unfold insertGroup
    split
    · rw [List.find?_cons, hx]
    · rw [List.find?_cons, List.find?_cons, ih]

/-- The added group is the group of its number where no other has it. -/
theorem find?_insertGroup_same {x : Group} {k : Nat} {xs : List Group} (hx : x.gid = k) (h : ∀ y ∈ xs, y.gid ≠ k) :
    (insertGroup x xs).find? (fun g => g.gid == k) = some x := by
  induction xs with
  | nil => simp [insertGroup, hx]
  | cons z zs ih =>
    unfold insertGroup
    split
    · simp [hx]
    · rw [List.find?_cons, beq_false_of_ne (h z (by simp))]
      exact ih fun y hy => h y (by simp [hy])

/-- A state with a group of s in focus: the group stands apart from the others, one of its splits from the others, and all
else is as in s. -/
structure Focused (gid : Nat) (g : Group) (s t : State) : Prop where
  others : t.groups = s.groups.filter (fun x => x.gid != gid)
  own : ∃ ps, t.g = { g with splits := ps }
  rest : { t with groups := s.groups, g := s.g, sp := s.sp, iss := s.iss } = s

/-- Where no group is in focus, a group of the list is put in focus. -/
theorem focusFor?_focused {s : State} {gid : Nat} {g : Group} (num : Nat) (hs : s.g.gid = 0)
    (hg : s.groups.find? (fun x => x.gid == gid) = some g) : ∃ t, focusFor? gid num s = some t ∧ Focused gid g s t := by
  have hu : unfocus s = { s with g := Group.idle, sp := Split.idle, iss := Issue.idle } := if_pos hs
  unfold focusFor? focus?
  simp only [hu, hg]
  cases hp : g.splits.find? (fun p => p.num == num) with
  | none => exact ⟨_, rfl, rfl, ⟨g.splits, rfl⟩, rfl⟩
  | some p => exact ⟨_, rfl, rfl, ⟨_, rfl⟩, rfl⟩

/-- A group that is not there is not put in focus. -/
theorem focusFor?_none {s : State} {gid : Nat} (num : Nat) (hs : s.g.gid = 0)
    (hg : s.groups.find? (fun x => x.gid == gid) = none) : focusFor? gid num s = none := by
  have hu : unfocus s = { s with g := Group.idle, sp := Split.idle, iss := Issue.idle } := if_pos hs
  unfold focusFor? focus?
  simp [hu, hg]

/-- The group in focus put back among the others. -/
theorem unfocus_focused {s : State} (h : s.g.gid ≠ 0) : unfocus s =
    { s with groups := insertGroup { s.g with splits := insertSplit s.sp s.g.splits } s.groups,
             g := Group.idle, sp := Split.idle, iss := Issue.idle } := if_neg h

/-- Where no group is in focus before it, none is after an operation on a split. -/
theorem onSplit_unfocused {s t : State} {gid num : Nat} {f : State → State} (hs : s.g.gid = 0) (ht : focusFor? gid num s = some t)
    (hg : (f t).g.gid ≠ 0) (hgs : ∀ h ∈ (f t).groups, h.gid ≠ 0) : onSplit gid num f s = unfocus (f t) := by
  have hidle : unfocus (unfocus (f t)) = unfocus (f t) := by
    rw [unfocus_focused hg]
    rfl
  have hnone : (unfocus (f t)).groups.find? (fun g => g.gid == s.g.gid) = none := by
    rw [unfocus_focused hg, hs]
    refine List.find?_eq_none.mpr fun y hy => ?_
    obtain rfl | hy := mem_insertGroup.mp hy
    · simpa using hg
    · simpa using hgs y hy
  unfold onSplit
  rw [ht]
  dsimp only
  rw [show focus? s.g.gid s.sp.num (unfocus (f t)) = none by simp only [focus?, hidle, hnone]]

/-! The eviction of the splits of a group. -/

/-- A group with its number marked as one that is being saved, if the number is listed. -/
def markSaving (ns : List Nat) (g : Group) : Group := if g.gid ∈ ns then { g with residence := .saving } else g

/-- What the start of an eviction leaves of a state where no group is in focus: the spans and whether they are being evicted,
memory and the pre-emptions; each group left has the number and the span of one before it, and is being saved if its number is
listed. -/
structure KeysFrom (ns : List Nat) (s t : State) : Prop where
  mem : t.mem = s.mem
  spans : t.spans.map spanKey = s.spans.map spanKey
  preempts : t.ten.preempts = s.ten.preempts
  unfocused : t.g.gid = 0
  groups : ∀ g ∈ t.groups, ∃ h ∈ s.groups, groupKey g = groupKey (markSaving ns h)

/-- Marking changes neither number nor span. -/
theorem markSaving_names (ns : List Nat) (g : Group) : (markSaving ns g).gid = g.gid ∧ (markSaving ns g).span = g.span := by
  unfold markSaving
  split <;> exact ⟨rfl, rfl⟩

/-- The key of a marked group is its key where it is not listed, and that of a group being saved where it is. -/
theorem groupKey_markSaving (ns : List Nat) (g : Group) :
    groupKey (markSaving ns g) = (g.gid, g.span, if g.gid ∈ ns then .saving else g.residence) := by
  unfold markSaving
  split <;> rfl

/-- Nothing has changed. -/
theorem keysFrom_refl {s : State} (hs : s.g.gid = 0) : KeysFrom [] s s :=
  ⟨rfl, rfl, rfl, hs, fun g hg => ⟨g, hg, (groupKey_markSaving [] g).symm⟩⟩

/-- Numbers marked one after another. -/
theorem keysFrom_trans {ms ns : List Nat} {s t u : State} (h : KeysFrom ms s t) (k : KeysFrom ns t u) : KeysFrom (ns ++ ms) s u where
  mem := k.mem.trans h.mem
  spans := k.spans.trans h.spans
  preempts := k.preempts.trans h.preempts
  unfocused := k.unfocused
  groups g hg := by
    obtain ⟨x, hx, hgx⟩ := k.groups g hg
    obtain ⟨y, hy, hxy⟩ := h.groups x hx
    rw [groupKey_markSaving] at hgx hxy
    simp only [groupKey, Prod.mk.injEq] at hxy
    obtain ⟨hgid, hspan, hres⟩ := hxy
    refine ⟨y, hy, ?_⟩
    rw [hgx, groupKey_markSaving, hgid, hspan, hres]
    simp only [List.mem_append]
    by_cases hn : y.gid ∈ ns <;> simp [hn]

/-- The groups of later states have numbers. -/
theorem keysFrom_gid {ns : List Nat} {s t : State} (h : KeysFrom ns s t) (h0 : ∀ g ∈ s.groups, g.gid ≠ 0) :
    ∀ g ∈ t.groups, g.gid ≠ 0 := fun g hg => by
  obtain ⟨y, hy, he⟩ := h.groups g hg
  exact (congrArg Prod.fst he).trans_ne ((markSaving_names ns y).1.trans_ne (h0 y hy))

/-- An operation on a split that changes nothing of the view keeps the groups' keys. -/
theorem keysFrom_onSplit {s : State} {f : State → State} (gid num : Nat) (hs : s.g.gid = 0) (h0 : ∀ g ∈ s.groups, g.gid ≠ 0)
    (hf : ∀ u, evictView (f u) = evictView u) : KeysFrom [] s (onSplit gid num f s) := by
  cases hg : s.groups.find? (fun x => x.gid == gid) with
  | none =>
    have : onSplit gid num f s = s := by
      unfold onSplit
      rw [focusFor?_none num hs hg]
    rw [this]
    exact keysFrom_refl hs
  | some g =>
    obtain ⟨t, ht, hothers, ⟨ps, hown⟩, hrest⟩ := focusFor?_focused num hs hg
    have hgs := List.mem_of_find?_eq_some hg
    have hv := hf t
    simp only [evictView, groupsView, Prod.mk.injEq] at hv
    obtain ⟨hmem, hspans, hpre, hgroups, hkey⟩ := hv
    have hft : groupKey (f t).g = groupKey g := hkey.trans (by rw [hown]; rfl)
    have hmine : ∀ h ∈ (f t).groups, ∃ y ∈ s.groups, groupKey h = groupKey y := fun h hh => by
      have := List.mem_map_of_mem (f := groupKey) hh
      rw [hgroups, hothers] at this
      obtain ⟨y, hy, he⟩ := List.mem_map.mp this
      exact ⟨y, List.mem_of_mem_filter hy, he.symm⟩
    have hgid : (f t).g.gid ≠ 0 := (congrArg Prod.fst hft).trans_ne (h0 g hgs)
    have hgids : ∀ h ∈ (f t).groups, h.gid ≠ 0 := fun h hh => by
      obtain ⟨y, hy, he⟩ := hmine h hh
      exact (congrArg Prod.fst he).trans_ne (h0 y hy)
    rw [onSplit_unfocused hs ht hgid hgids, unfocus_focused hgid]
    refine ⟨hmem.trans (congrArg State.mem hrest :), hspans.trans (congrArg (fun u : State => u.spans.map spanKey) hrest :),
      hpre.trans (congrArg (fun u : State => u.ten.preempts) hrest :), rfl, fun h hh => ?_⟩
    obtain rfl | hh := mem_insertGroup.mp hh
    · exact ⟨g, hgs, hft.trans (groupKey_markSaving [] g).symm⟩
    · obtain ⟨y, hy, he⟩ := hmine h hh
      exact ⟨y, hy, he.trans (groupKey_markSaving [] y).symm⟩

/-- The eviction of the splits of a group keeps the groups' keys. -/
theorem keysFrom_evictGroup {s : State} (keep : State → Bool) (gid : Nat) (hs : s.g.gid = 0) (h0 : ∀ g ∈ s.groups, g.gid ≠ 0) :
    KeysFrom [] s (evictGroup keep gid s) := by
  have hf (u : State) : evictView (if keep u then evictSplit u else u) = evictView u := by
    split
    · exact evictView_evictSplit u
    · rfl
  unfold evictGroup
  split
  · exact keysFrom_refl hs
  next g hg =>
    clear hg
    generalize splitsOf s g = ps
    induction ps generalizing s with
    | nil => exact keysFrom_refl hs
    | cons p ps ih =>
      have hp := keysFrom_onSplit gid p.num hs h0 hf
      exact keysFrom_trans hp (ih hp.unfocused (keysFrom_gid hp h0))

/-! The start of an eviction. -/

/-- R330, R396: what the start of an eviction does to one group of the span. -/
def startGroup (n : Nat) (s : State) : State :=
  evictGroup (fun y => (ownAtoms y).all (fun a => a.lanes == [])) n
    (loseStatus n (modGroup n (fun y => { y with residence := .saving }) s))

/-- R24, R330: a group marked as one that is being saved, its status lost. -/
theorem keysFrom_marked {s : State} {n : Nat} (hs : s.g.gid = 0) (hn : n ≠ 0) :
    KeysFrom [n] s (loseStatus n (modGroup n (fun y => { y with residence := .saving }) s)) := by
  have hne : s.g.gid ≠ n := hs.trans_ne (Ne.symm hn)
  unfold loseStatus
  rw [modGroup_unfocused hne, modGroup_unfocused (by exact hne)]
  refine ⟨rfl, rfl, rfl, hs, fun g hg => ?_⟩
  obtain ⟨x, hx, rfl⟩ := List.mem_map.mp hg
  obtain ⟨y, hy, rfl⟩ := List.mem_map.mp hx
  refine ⟨y, hy, ?_⟩
  rw [groupKey_markSaving]
  by_cases hy : y.gid = n <;> simp [hy, groupKey]

/-- R330, R396: a group whose eviction starts is being saved. -/
theorem keysFrom_startGroup {s : State} {n : Nat} (hs : s.g.gid = 0) (hn : n ≠ 0) (h0 : ∀ g ∈ s.groups, g.gid ≠ 0) :
    KeysFrom [n] s (startGroup n s) := by
  have hm := keysFrom_marked (s := s) hs hn
  exact keysFrom_trans hm (keysFrom_evictGroup _ n hm.unfocused (keysFrom_gid hm h0))

/-- R330, R396: groups whose evictions start one after another are being saved. -/
theorem keysFrom_startGroups {ns : List Nat} (hn : ∀ n ∈ ns, n ≠ 0) {s : State} (hs : s.g.gid = 0) (h0 : ∀ g ∈ s.groups, g.gid ≠ 0) :
    KeysFrom ns.reverse s (ns.foldl (fun t n => startGroup n t) s) := by
  induction ns generalizing s with
  | nil => exact keysFrom_refl hs
  | cons n ns ih =>
    have hm := keysFrom_startGroup hs (hn n (by simp)) h0
    rw [List.reverse_cons]
    exact keysFrom_trans hm (ih (fun m h => hn m (by simp [h])) hm.unfocused (keysFrom_gid hm h0))

end Sys2Proof.Machine
end

section
/-! Evictions start (R330, R400, R402). -/

namespace Sys2Proof.Machine

open Sys2Proof Sys2Proof.Claims

/-- The span of a number has the same key where the spans have the same keys. -/
theorem spanOf?_of_keys {s t : State} {n : Nat} {x : Span} (h : t.spans.map spanKey = s.spans.map spanKey)
    (hx : spanOf? s n = some x) : ∃ y, spanOf? t n = some y ∧ spanKey y = spanKey x := by
  have hfind (u : State) : (u.spans.map spanKey).find? (fun k => k.1 == n) = (spanOf? u n).map spanKey := List.find?_map ..
  have ht : (spanOf? t n).map spanKey = some (spanKey x) := by
    rw [← hfind, h, hfind, hx]
    rfl
  exact Option.map_eq_some_iff.mp ht

/-- The start of an eviction, group by group. -/
theorem startEviction_eq {s : State} {x : Span} (hx : spanOf? s x.uid = some x) (he : x.evicting = false) (hr : x.residence = .resident) :
    startEviction x.uid s = refreshCtx x.ctx (suspendTiles x.uid (((groupsOfSpan s x.uid).map Group.gid).foldl
      (fun w n => startGroup n w) (modSpan x.uid (fun y => { y with evicting := true }) s))) := by
  unfold startEviction
  rw [hx]
  dsimp only
  rw [if_neg (by simp [he, hr]), List.foldl_map]
  rfl

/-- R330, R396: once its eviction has started, a span is being evicted and its groups are being saved; no memory and no
pre-emption has changed. -/
theorem startEviction_evicting {s : State} {x : Span} (hs : s.g.gid = 0) (hx : spanOf? s x.uid = some x) (he : x.evicting = false)
    (hr : x.residence = .resident) (h0 : ∀ g ∈ s.groups, g.gid ≠ 0) : let t := startEviction x.uid s
    Evicting t x.uid ∧ t.mem = s.mem ∧ t.ten.preempts = s.ten.preempts := by
  have hk := keysFrom_startGroups (gids_ne_zero hs h0 x.uid) (s := modSpan x.uid (fun y => { y with evicting := true }) s) hs h0
  obtain ⟨y, hy, hkey⟩ := spanOf?_of_keys hk.spans (spanOf?_modSpan hx rfl)
  intro t
  have ht : t = _ := startEviction_eq hx he hr
  rw [ht]
  refine ⟨⟨y, hy, congrArg Prod.snd hkey, fun g hg hsp => ?_⟩, hk.mem, hk.preempts⟩
  obtain ⟨h, hh, hgh⟩ := hk.groups g hg
  rw [groupKey_markSaving] at hgh
  simp only [groupKey, Prod.mk.injEq] at hgh
  obtain ⟨-, hspan, hres⟩ := hgh
  have hin : h.gid ∈ ((groupsOfSpan s x.uid).map Group.gid).reverse :=
    List.mem_reverse.mpr (List.mem_map_of_mem ((mem_groupsOfSpan hs).mpr ⟨hh, hspan.symm.trans hsp⟩))
  rw [hres, if_pos hin]

/-- R261: the eviction of a span of a viaduct that is not cooperative is the span's alone. -/
theorem startEvictionWhole_alone {s : State} {x : Span} (hc : coopViaduct s x.viaduct = false) :
    startEvictionWhole x s = startEviction x.uid s := by
  unfold startEvictionWhole
  simp [hc]

/-- R402: a span swapped out is evicted once its pre-emption stands among the others. -/
theorem swapSpan_eq (x : Span) (s : State) : ∃ (ps : List Preempt) (n : Nat),
    swapSpan x s = startEvictionWhole x { s with uid := n, ten := { s.ten with preempts := ps } } := ⟨_, _, rfl⟩

/-- R402: a context swapped out of the one place where it is resident. -/
theorem execContextSwapOut_evicts {s : State} {x : Span} {ctx : Nat} (hs : s.Settled) (hx : spanOf? s x.uid = some x)
    (hc : coopViaduct s x.viaduct = false) (he : x.evicting = false)
    (hone : (s.spans.filter (fun y => y.ctx == ctx && y.residence == .resident)) = [x]) (h0 : ∀ g ∈ s.groups, g.gid ≠ 0) :
    ∃ t, exec (.contextSwapOut ctx) s = .next t ∧ Evicting t x.uid ∧ t.mem = s.mem := by
  have hr : x.residence = .resident := by
    have hm := (List.mem_filter.mp (hone ▸ List.mem_singleton_self x : x ∈ s.spans.filter _)).2
    simp only [Bool.and_eq_true, beq_iff_eq] at hm
    exact hm.2
  refine ⟨swapSpan x s, ?_, ?_⟩
  · change execContextSwapOut ctx s = _
    unfold execContextSwapOut
    rw [hone]
    rfl
  · obtain ⟨ps, n, hswap⟩ := swapSpan_eq x s
    rw [hswap, startEvictionWhole_alone (by exact hc)]
    obtain ⟨hev, hmem, -⟩ := startEviction_evicting (s := { s with uid := n, ten := { s.ten with preempts := ps } })
      (congrArg Group.gid hs.1) hx he hr h0
    exact ⟨hev, hmem⟩

/-- R400: 12500 ticks before the deadline of a pre-emption its one victim is evicted. -/
theorem execForcedEviction_evicts {s : State} {x : Span} {p : Preempt} (hs : s.Settled) (hx : spanOf? s x.uid = some x)
    (hc : coopViaduct s x.viaduct = false) (he : x.evicting = false) (hr : x.residence = .resident) (h0 : ∀ g ∈ s.groups, g.gid ≠ 0)
    (hp : s.ten.preempts.find? (fun q => q.uid == p.uid) = some p) (hev : p.evicted = false)
    (htick : p.start + p.deadline - 12500 ≤ s.tick) (hone : s.spans.filter (p.victim s) = [x]) :
    ∃ t q, exec (.forcedEviction p.uid) s = .next t ∧ Evicting t x.uid ∧ t.ten.preempts.find? (fun r => r.uid == p.uid) = some q ∧
      q.evicted = true ∧ t.mem = s.mem := by
  obtain ⟨hevict, hmem, hpre⟩ := startEviction_evicting (congrArg Group.gid hs.1) hx he hr h0
  refine ⟨{ startEviction x.uid s with ten := { (startEviction x.uid s).ten with
      preempts := updateFirst (fun q => q.uid == p.uid) (fun q => { q with evicted := true }) (startEviction x.uid s).ten.preempts } },
    { p with evicted := true }, ?_, hevict, ?_, rfl, hmem⟩
  · change execForcedEviction p.uid s = _
    unfold execForcedEviction
    rw [hp]
    dsimp only
    rw [if_neg (by simp [hev, htick]), hone, List.foldl_cons, List.foldl_nil, startEvictionWhole_alone hc]
  · dsimp only
    rw [hpre]
    exact find?_updateFirst hp (by simp)

end Sys2Proof.Machine
end

section
/-! A span is saved (R23, R396). -/

namespace Sys2Proof.Machine

open Sys2Proof Sys2Proof.Claims

/-- What the splits of groups whose numbers are listed may change: where no group is in focus, the groups' splits alone. -/
structure SplitsMoved (ns : List Nat) (s t : State) : Prop where
  rest : { t with groups := s.groups, g := s.g, sp := s.sp, iss := s.iss } = s
  unfocused : t.g.gid = 0
  named : ∀ g ∈ t.groups, g.gid ≠ 0
  others : ∀ k, k ∉ ns → groupOf? t k = groupOf? s k
  own : ∀ k g, groupOf? s k = some g → ∃ ps, groupOf? t k = some { g with splits := ps }

/-- Nothing has moved. -/
theorem splitsMoved_refl (ns : List Nat) {s : State} (hs : s.g.gid = 0) (h0 : ∀ g ∈ s.groups, g.gid ≠ 0) : SplitsMoved ns s s :=
  ⟨rfl, hs, h0, fun _ _ => rfl, fun _ g hg => ⟨g.splits, hg⟩⟩

/-- Splits moved twice. -/
theorem splitsMoved_trans {ns : List Nat} {s t u : State} (h : SplitsMoved ns s t) (k : SplitsMoved ns t u) : SplitsMoved ns s u where
  rest := (congrArg (fun v : State => { v with groups := s.groups, g := s.g, sp := s.sp, iss := s.iss }) k.rest :).trans h.rest
  unfocused := k.unfocused
  named := k.named
  others n hn := (k.others n hn).trans (h.others n hn)
  own n g hg := by
    obtain ⟨ps, hps⟩ := h.own n g hg
    obtain ⟨qs, hqs⟩ := k.own n _ hps
    exact ⟨qs, hqs⟩

/-- An operation on a split that does nothing. -/
theorem splitsMoved_onSplit {s : State} {f : State → State} {ns : List Nat} {gid : Nat} (num : Nat) (hin : gid ∈ ns) (hs : s.g.gid = 0)
    (h0 : ∀ g ∈ s.groups, g.gid ≠ 0) (hf : ∀ g t, Focused gid g s t → g.gid = gid → f t = t) : SplitsMoved ns s (onSplit gid num f s) := by
  cases hg : s.groups.find? (fun x => x.gid == gid) with
  | none =>
    have hsame : onSplit gid num f s = s := by
      unfold onSplit
      rw [focusFor?_none num hs hg]
    rw [hsame]
    exact splitsMoved_refl ns hs h0
  | some g =>
    obtain ⟨t, ht, hfoc⟩ := focusFor?_focused num hs hg
    have hgid : g.gid = gid := by simpa using List.find?_some hg
    have hft := hf g t hfoc hgid
    obtain ⟨hothers, ⟨ps, hown⟩, hrest⟩ := hfoc
    have htg : t.g.gid = gid := by rw [hown]; exact hgid
    have ht0 : t.g.gid ≠ 0 := htg.trans_ne (hgid ▸ h0 g (List.mem_of_find?_eq_some hg))
    have htgs : ∀ h ∈ t.groups, h.gid ≠ 0 := fun h hh => h0 h (List.mem_of_mem_filter (hothers ▸ hh))
    rw [onSplit_unfocused hs ht (by rw [hft]; exact ht0) (by rw [hft]; exact htgs), hft, unfocus_focused ht0]
    have hothersOf (k : Nat) (hk : k ≠ gid) :
        (insertGroup { t.g with splits := insertSplit t.sp t.g.splits } t.groups).find? (fun x => x.gid == k) =
          s.groups.find? (fun x => x.gid == k) := by
      rw [find?_insertGroup_ne (by exact hk.trans_eq htg.symm), hothers, List.find?_filter]
      congr 1
      funext a
      by_cases ha : a.gid = k <;> simp [ha, hk]
    refine ⟨hrest, rfl, fun h hh => ?_, fun k hk => ?_, fun k h hh => ?_⟩
    · obtain rfl | hh := mem_insertGroup.mp hh
      · exact ht0
      · exact htgs h hh
    · rw [groupOf?_unfocused rfl, groupOf?_unfocused hs]
      exact hothersOf k fun he => hk (he ▸ hin)
    · rw [groupOf?_unfocused hs] at hh
      rw [groupOf?_unfocused rfl]
      by_cases hk : k = gid
      · subst hk
        cases hg.symm.trans hh
        have hnone : ∀ y ∈ t.groups, y.gid ≠ k := fun y hy => by
          rw [hothers] at hy
          simpa using (List.mem_filter.mp hy).2
        exact ⟨insertSplit t.sp t.g.splits, (find?_insertGroup_same
          (x := { t.g with splits := insertSplit t.sp t.g.splits }) htg hnone).trans (by rw [hown])⟩
      · exact ⟨h.splits, (hothersOf k hk).trans hh⟩

/-- R153, R396: where a group has no atomic, no region of it aborts when its span is saved. -/
theorem splitsMoved_evictGroup {s : State} {ns : List Nat} {gid : Nat} (hin : gid ∈ ns) (hs : s.g.gid = 0)
    (h0 : ∀ g ∈ s.groups, g.gid ≠ 0) (ha : ∀ a ∈ s.ms.atoms, a.gid ≠ gid) :
    SplitsMoved ns s (evictGroup (fun y => ownAtoms y != []) gid s) := by
  have hidle (u : State) (hu : u.ms = s.ms) (g : Group) (t : State) (ht : Focused gid g u t) (hg : g.gid = gid) :
      (if ownAtoms t != [] then evictSplit t else t) = t := by
    obtain ⟨-, ⟨ps, hown⟩, hrest⟩ := ht
    have hms : t.ms = s.ms := (congrArg State.ms hrest :).trans hu
    have hnone : ownAtoms t = [] := by
      unfold ownAtoms
      refine List.filter_eq_nil_iff.mpr fun a hm => ?_
      have hne : a.gid ≠ t.g.gid := by
        rw [hown]
        exact (ha a (hms ▸ hm)).trans_eq hg.symm
      simp [hne]
    simp [hnone]
  unfold evictGroup
  split
  · exact splitsMoved_refl ns hs h0
  next g _ =>
    generalize splitsOf s g = ps
    suffices h : ∀ u : State, SplitsMoved ns s u →
        SplitsMoved ns s (ps.foldl (fun t p => onSplit gid p.num (fun u => if ownAtoms u != [] then evictSplit u else u) t) u) from
      h s (splitsMoved_refl ns hs h0)
    induction ps with
    | nil => exact fun u hu => hu
    | cons p ps ih =>
      intro u hu
      exact ih _ (splitsMoved_trans hu (splitsMoved_onSplit p.num hin hu.unfocused hu.named
        (hidle u (congrArg State.ms hu.rest :))))

/-- The same for several groups. -/
theorem splitsMoved_evictGroups {s : State} {ns : List Nat} (hs : s.g.gid = 0) (h0 : ∀ g ∈ s.groups, g.gid ≠ 0)
    (ha : ∀ n ∈ ns, ∀ a ∈ s.ms.atoms, a.gid ≠ n) :
    SplitsMoved ns s (ns.foldl (fun w n => evictGroup (fun y => ownAtoms y != []) n w) s) := by
  suffices h : ∀ ms : List Nat, ms ⊆ ns → ∀ u : State, SplitsMoved ns s u →
      SplitsMoved ns s (ms.foldl (fun w n => evictGroup (fun y => ownAtoms y != []) n w) u) from
    h ns (List.Subset.refl ns) s (splitsMoved_refl ns hs h0)
  intro ms
  induction ms with
  | nil => exact fun _ u hu => hu
  | cons m ms ih =>
    intro hsub u hu
    have hin : m ∈ ns := hsub (by simp)
    have hms : u.ms = s.ms := (congrArg State.ms hu.rest :)
    exact ih (fun x hx => hsub (by simp [hx])) _ (splitsMoved_trans hu
      (splitsMoved_evictGroup hin hu.unfocused hu.named (by rw [hms]; exact ha m hin)))

/-! The groups of a saved span. -/

/-- The group of a number among groups of which those of a number have changed. -/
theorem groupOf?_modGroup_map {s : State} {n : Nat} {f : Group → Group} (hs : s.g.gid = 0) (hn : n ≠ 0) (hf : ∀ g, (f g).gid = g.gid)
    (k : Nat) : groupOf? (modGroup n f s) k = (groupOf? s k).map (fun g => if k = n then f g else g) := by
  cases hg : groupOf? s k with
  | none =>
    by_cases hk : k = n
    · subst hk
      rw [modGroup_unfocused (hs.trans_ne (Ne.symm hn)), groupOf?_unfocused (by exact hs)]
      rw [groupOf?_unfocused hs] at hg
      refine List.find?_eq_none.mpr fun x hx => ?_
      obtain ⟨y, hy, rfl⟩ := List.mem_map.mp hx
      have hne : ¬(y.gid == k) = true := List.find?_eq_none.mp hg y hy
      rw [if_neg hne]
      exact hne
    · rw [groupOf?_modGroup_ne hs hn hf hk, hg]
      rfl
  | some g =>
    have hgid : g.gid = k := by simpa using List.find?_some hg
    subst hgid
    by_cases hk : g.gid = n
    · subst hk
      rw [groupOf?_modGroup hs hn hg (hf g)]
      simp
    · rw [groupOf?_modGroup_ne hs hn hf hk, hg]
      simp [hk]

/-- R396: a group whose record is written. -/
def savedGroup (g : Group) : Group := { g with residence := .saved }

/-- R396: groups whose records are written one after another. -/
theorem groupOf?_savedGroups {ns : List Nat} (hn : ∀ n ∈ ns, n ≠ 0) {s : State} (hs : s.g.gid = 0) (k : Nat) :
    groupOf? (ns.foldl (fun w n => modGroup n savedGroup w) s) k =
      (groupOf? s k).map (fun g => if k ∈ ns then savedGroup g else g) := by
  induction ns generalizing s with
  | nil => simp
  | cons n ns ih =>
    have hn0 := hn n (by simp)
    rw [List.foldl_cons, ih (fun m hm => hn m (by simp [hm]))
      (by rw [modGroup_unfocused (hs.trans_ne (Ne.symm hn0))]; exact hs),
      groupOf?_modGroup_map (f := savedGroup) hs hn0 (fun _ => rfl), Option.map_map]
    refine congrArg (fun f => (groupOf? s k).map f) (funext fun g => ?_)
    by_cases hk : k = n <;> by_cases hm : k ∈ ns <;> simp [hk, hm, savedGroup]

/-- R396: the groups of a span after their records are written, the regions that waited for atomics aborted. -/
def saveGroups (n : Nat) (s : State) : State :=
  let ns := (groupsOfSpan s n).map Group.gid
  ns.foldl (fun w k => modGroup k savedGroup w) (ns.foldl (fun w k => evictGroup (fun y => ownAtoms y != []) k w) s)

/-- R396: what is written of a span besides its groups. -/
theorem finishEviction_eq (x : Span) (s : State) : ∃ (f : Span → Span) (eng : Engines) (t : State), t = saveGroups x.uid s ∧
    finishEviction x s = refreshCtx x.ctx { modSpan x.uid f t with
      ten := { t.ten with evictSeq := t.ten.evictSeq + 1 }, eng := eng } ∧
    ∀ y, (f y).uid = y.uid ∧ (f y).residence = .saved ∧ (f y).evicting = false ∧ (f y).evictOrder = t.ten.evictSeq := by
  unfold finishEviction saveGroups
  simp only [List.foldl_map]
  exact ⟨_, _, _, rfl, rfl, fun _ => ⟨rfl, rfl, rfl, rfl⟩⟩

/-- R396: where no group of a span has an atomic, its groups keep their registers in their records; all else but groups is as
it was. -/
theorem saveGroups_saves {s : State} {n : Nat} (hs : s.Settled) (hnd : (s.groups.map Group.gid).Nodup) (h0 : ∀ g ∈ s.groups, g.gid ≠ 0)
    (ha : ∀ g ∈ s.groups, g.span = n → ∀ a ∈ s.ms.atoms, a.gid ≠ g.gid) : let t := saveGroups n s
    withGroupsOf s { t with iss := s.iss } = s ∧
    (∀ g ∈ s.groups, g.span = n → ∃ h ∈ t.groups, h.gid = g.gid ∧ h.residence = .saved ∧ h.regs = g.regs ∧ h.live = g.live) ∧
    ∀ g ∈ s.groups, g.span ≠ n → g ∈ t.groups := by
  have hfocus : s.g.gid = 0 := congrArg Group.gid hs.1
  have hns : ∀ k ∈ (groupsOfSpan s n).map Group.gid, ∃ g ∈ s.groups, g.span = n ∧ g.gid = k := fun k hk => by
    obtain ⟨g, hg, rfl⟩ := List.mem_map.mp hk
    obtain ⟨hm, hsp⟩ := (mem_groupsOfSpan hfocus).mp hg
    exact ⟨g, hm, hsp, rfl⟩
  have hmoved := splitsMoved_evictGroups (ns := (groupsOfSpan s n).map Group.gid) hfocus h0 fun k hk a hm => by
    obtain ⟨g, hg, hsp, rfl⟩ := hns k hk
    exact ha g hg hsp a hm
  have hfind := groupOf?_savedGroups (gids_ne_zero hfocus h0 n) hmoved.unfocused
  intro t
  have hrest : withGroupsOf s { t with iss := s.iss } = s :=
    (foldl_keeps (fun u : State => withGroupsOf s { u with iss := s.iss })
      (fun u k => (congrArg (fun v : State => { v with iss := s.iss }) (withGroupsOf_modGroup s k savedGroup u) :)) _ _).trans hmoved.rest
  have htfocus : t.g.gid = 0 :=
    (foldl_keeps (fun u : State => u.g.gid)
      (fun u k => congrArg Prod.snd (groupsView_modGroup (p := Group.gid) (f := savedGroup) (fun _ => rfl) k u)) _ _).trans
      hmoved.unfocused
  have hmem {k : Nat} {h : Group} (hk : groupOf? t k = some h) : h ∈ t.groups :=
    List.mem_of_find?_eq_some (groupOf?_unfocused htfocus k ▸ hk)
  refine ⟨hrest, fun g hg hsp => ?_, fun g hg hsp => ?_⟩
  · have hin : g.gid ∈ (groupsOfSpan s n).map Group.gid := List.mem_map_of_mem ((mem_groupsOfSpan hfocus).mpr ⟨hg, hsp⟩)
    obtain ⟨ps, hps⟩ := hmoved.own g.gid g (groupOf?_of_mem hfocus hnd hg)
    have hk := hfind g.gid
    rw [hps, Option.map_some, if_pos hin] at hk
    exact ⟨_, hmem hk, rfl, rfl, rfl, rfl⟩
  · have hg' := groupOf?_of_mem hfocus hnd hg
    have hout : g.gid ∉ (groupsOfSpan s n).map Group.gid := fun hin => by
      obtain ⟨y, hy, hysp, hgid⟩ := hns _ hin
      have := groupOf?_of_mem hfocus hnd hy
      rw [hgid, hg'] at this
      cases this
      exact hsp hysp
    have hk := hfind g.gid
    rw [hmoved.others _ hout, hg', Option.map_some, if_neg hout] at hk
    exact hmem hk

end Sys2Proof.Machine
end

section
/-! Groups leave: the obligation (R211, R270, R328, R396, R400 to R402). -/

namespace Sys2Proof.Machine

open Sys2Proof Sys2Proof.Claims

/-- R396: a span whose eviction waits for nothing is saved, its groups with their registers; memory is as it was. -/
theorem execSpanEvictionSave_saves {s : State} {x : Span} {v : Viaduct} (hs : s.Settled) (hx : spanOf? s x.uid = some x)
    (he : x.evicting = true) (hr : x.residence = .resident) (hv : viaductOf? s x.viaduct = some v) (hst : v.st ≠ .trapped)
    (hready : evictionReady s x.uid = true) (ha : ∀ g ∈ s.groups, g.span = x.uid → ∀ a ∈ s.ms.atoms, a.gid ≠ g.gid)
    (hnd : (s.groups.map Machine.Group.gid).Nodup) (h0 : ∀ g ∈ s.groups, g.gid ≠ 0) :
    ∃ t y, exec (.spanEvictionSave x.uid) s = .next t ∧ spanOf? t x.uid = some y ∧ y.residence = .saved ∧ y.evicting = false ∧
      y.evictOrder = s.ten.evictSeq ∧ t.ten.evictSeq = s.ten.evictSeq + 1 ∧ t.mem = s.mem ∧ t.wq = s.wq ∧
      (∀ g ∈ s.groups, g.span = x.uid → ∃ h ∈ t.groups, h.gid = g.gid ∧ h.residence = .saved ∧ h.regs = g.regs ∧ h.live = g.live) ∧
      ∀ g ∈ s.groups, g.span ≠ x.uid → g ∈ t.groups := by
  obtain ⟨hrest, hsaved, hothers⟩ := saveGroups_saves hs hnd h0 ha
  obtain ⟨f, eng, t, ht, hfin, hf⟩ := finishEviction_eq x s
  rw [← ht] at hrest hsaved hothers
  have hspans : t.spans = s.spans := (congrArg State.spans hrest :)
  have hseq : t.ten.evictSeq = s.ten.evictSeq := (congrArg (fun u : State => u.ten.evictSeq) hrest :)
  have hrun : exec (.spanEvictionSave x.uid) s = .next (finishEviction x s) := by
    change execSpanEvictionSave x.uid s = _
    unfold execSpanEvictionSave
    rw [hx]
    dsimp only
    rw [if_neg (by simp [he, hr]), if_neg (by simp [hv, hst]), if_pos hready]
  have hxt : spanOf? (modSpan x.uid f t) x.uid = some (f x) :=
    spanOf?_modSpan ((spanOf?_congr hspans x.uid).trans hx) (hf x).1
  obtain ⟨-, hres, hev, horder⟩ := hf x
  rw [hfin] at hrun
  exact ⟨_, f x, hrun, hxt, hres, hev, horder.trans hseq, congrArg (· + 1) hseq, (congrArg State.mem hrest :), (congrArg State.wq hrest :),
    hsaved, hothers⟩

/-- Settles O45: each clause by the lemma on its instruction. -/
theorem spansLeave : Obligations.SpansLeave := by
  unfold Obligations.SpansLeave
  refine ⟨?_, ?_, ?_, ?_, ?_, ?_, ?_, ?_, ?_, ?_⟩
  · intro s g hs hg hx hr hw hd h0
    exact execGroupResourceRelease_released hs hg hx hr hw hd h0
  · intro s x v hs hx hb ht hg hv
    exact execSpanRetire_leaves hs hx hb ht hg hv
  · intro s x ctx hs hx hc he hone h0
    exact execContextSwapOut_evicts hs hx hc he hone h0
  · intro s x p hs hx hc he hr h0 hp hev htick hone
    exact execForcedEviction_evicts hs hx hc he hr h0 hp hev htick hone
  · intro s x v hs hx he hr hv hst hready ha hnd h0
    exact execSpanEvictionSave_saves hs hx he hr hv hst hready ha hnd h0
  · intro s u x owner place cost hs hx hr hc ht hnd h0 hw
    exact execSpanRestore_restores hs hx hr hc ht hnd h0 hw
  · intro s x owner place cost _ hx hr hc ht hpre hw hturn hp hd
    exact execSpanRestore_inTurn hx hr hc ht hpre hw hturn hp hd
  · intro s r hst hr
    exact execContextCreate_creates hst hr
  · intro s c hc
    exact execContextDestroy_gone hc
  · intro s c pkg hc hp hlt hx hv hq
    exact execContextPartMove_leaves hc hp hlt hx hv hq

end Sys2Proof.Machine
end

section
/-! Words that write vector registers: what they do where nothing keeps them from issuing (R97 to R102). -/

namespace Sys2Proof.Machine

open Sys2Proof Sys2Proof.Claims

/-- R11, R20, R21, R73, R477: a word of a vector destination that lets itself be issued has its effect. -/
theorem clearWord_effect {s : State} {d n : Nat} {srcs : List (Nat × Nat)} {scas : List Nat} (h : Clear s d n srcs scas)
    (eff : State → State) :
    issueWord (vecTrap s d n srcs) (regsOf ((d, n) :: srcs)) scas (readGuard (regsOf srcs) eff) s = .next (eff s) := by
  obtain ⟨hrange, hlive, hhazard, hpoison⟩ := h
  have htrap : vecTrap s d n srcs = none := by
    simp only [vecTrap, (rangeTrap_none s _).mpr hrange, (liveTrap_none s [d]).mpr (by simpa using hlive), firstTrap]
  rw [issueWord_eff _ htrap hhazard, readGuard_clear eff hpoison]

/-- R7: a mask holds lanes below 32 only. -/
theorem lt_of_mem_lanesOf {m : W} {l : Nat} (h : l ∈ lanesOf m) : l < 32 := List.mem_range.mp (List.mem_filter.mp h).1

/-- R13, R26, R101: the results of the active lanes, written to one register or a pair. -/
theorem laneEff_laneWrites {n : Nat} (hn : n = 1 ∨ n = 2) (d : Nat) (f : State → Nat → LaneOut) (s : State) :
    LaneWrites s (laneEff d n f s) d n (f s) := by
  obtain ⟨hflags, hpoison, hframe⟩ := foldLanes_frame d n (f s) (lanesOf s.sp.em) s.g
  refine ⟨fun r l hl => ?_, hflags, fun l _ => ?_, hpoison, congrArg (fun g : Group => { s with g := g }) hframe⟩
  · have hpair : (n ≠ 1 ∧ r = d + 1) = (n = 2 ∧ r = d + 1) := by apply propext; omega
    have hread := foldLanes_reg d n (f s) (lanesOf s.sp.em) (nodup_lanesOf _)
      (fun _ hk => lt_of_mem_lanesOf hk) s.g r l hl
    simp only [mem_lanesOf, hpair] at hread
    exact hread
  · have hread := foldLanes_rng d n (f s) (lanesOf s.sp.em) (nodup_lanesOf _) s.g l
    simp only [mem_lanesOf] at hread
    exact hread

/-- R97 to R102: a vector word of one or two registers that lets itself be issued writes its lanes' results. -/
theorem vecWord_laneWrites {s : State} {d n : Nat} {srcs : List (Nat × Nat)} {scas : List Nat} (hn : n = 1 ∨ n = 2)
    (h : Clear s d n srcs scas) (f : State → Nat → LaneOut) :
    ∃ t, vecWord d n srcs scas f s = .next t ∧ LaneWrites s t d n (f s) :=
  ⟨_, clearWord_effect h _, laneEff_laneWrites hn d f s⟩

/-- The results of lanes matter below 32 only. -/
theorem laneWrites_congr {s t : State} {d n : Nat} {f f' : Nat → LaneOut} (hf : ∀ l, l < 32 → f l = f' l)
    (h : LaneWrites s t d n f) : LaneWrites s t d n f' := by
  obtain ⟨hregs, hflags, hrng, hpoison, hframe⟩ := h
  have hlanes : (lanesOf s.sp.em).map (fun l => (f l).flags) = (lanesOf s.sp.em).map (fun l => (f' l).flags) :=
    List.map_congr_left fun l hl => by rw [hf l (lt_of_mem_lanesOf hl)]
  exact ⟨fun r l hl => hf l hl ▸ hregs r l hl, hlanes ▸ hflags, fun l hl => hf l hl ▸ hrng l hl, hpoison, hframe⟩

/-- R13: a lane of a register of a group of which a register was written in the lanes of a mask. -/
theorem gReg_setLanes (r : Nat) (m : W) (f : Nat → W) (g : Group) (q : Nat) {l : Nat} (hl : l < 32) :
    gReg (g.setLanes r m f) q l = if inMask m l ∧ q = r then f l else gReg g q l := by
  have hread := gReg_writeLanes (ls := lanesOf m) g r f (q := q) (fun _ hk => lt_of_mem_lanesOf hk) hl
  simp only [mem_lanesOf] at hread
  exact hread

/-- R26: no flags are set by none. -/
theorem raise_zero (s : State) : raise 0 s = s := by simp [raise]

end Sys2Proof.Machine
end

section
/-! The fixed trees of reductions and running sums, for an operation that is associative and sets no flags (R48, R49, R51). -/

namespace Sys2Proof.Machine

open Sys2Proof

/-- The values present in a list, combined from the left. -/
def joined {α : Type} (op : α → α → α) (xs : List (Option α)) : Option α := xs.foldl (Option.merge op) none

/-- R48, R50: a combining step of an operation without flags. -/
theorem combine_flagless {α : Type} (op : α → α → α) (x y : Option α) :
    combine (fun a b => (op a b, 0)) x y = (Option.merge op x y, 0) := by
  cases x <;> cases y <;> rfl

/-- Values that are all present are combined from the first on. -/
theorem joined_map_some {α : Type} (op : α → α → α) (y : α) (ys : List α) :
    joined op ((y :: ys).map some) = some (ys.foldl op y) :=
  (List.foldl_map (f := some)).trans (List.foldl_hom some fun _ _ => rfl)

/-- Absent values do not count: the combination is that of the places that hold one. -/
theorem joined_guarded {α β : Type} (op : α → α → α) (p : β → Bool) (x : β → α) (ls : List β) :
    joined op (ls.map (fun l => if p l then some (x l) else none)) = joined op (((ls.filter p).map x).map some) := by
  unfold joined
  rw [List.map_map, List.foldl_map, List.foldl_map, List.foldl_filter]
  congr
  funext a l
  by_cases h : p l <;> simp [h]

section
variable {α : Type} (op : α → α → α) [Std.Associative op]

/-- A list is combined part by part. -/
theorem joined_append (xs ys : List (Option α)) : joined op (xs ++ ys) = Option.merge op (joined op xs) (joined op ys) := by
  unfold joined
  rw [List.foldl_append, ← List.foldl_assoc (op := Option.merge op), Option.merge_none_right]

/-- The first place of a list is combined with the rest. -/
theorem joined_cons (x : Option α) (xs : List (Option α)) : joined op (x :: xs) = Option.merge op x (joined op xs) := by
  have := joined_append op [x] xs
  simpa [joined] using this

/-- R48: a level of the tree halves the list and keeps what it combines to. -/
theorem pairUp_flagless (xs : List (Option α)) :
    let r := pairUp (fun a b => (op a b, 0)) xs
    joined op r.1 = joined op xs ∧ r.1.length = (xs.length + 1) / 2 ∧ r.2 = 0 := by
  induction xs using pairUp.induct (fun a b => (op a b, (0 : Flags))) with
  | case1 => exact ⟨rfl, by simp [pairUp], rfl⟩
  | case2 x => exact ⟨rfl, by simp [pairUp], rfl⟩
  | case3 x y xs ih =>
    obtain ⟨hjoin, hlen, hflags⟩ := ih
    have hassoc : Option.merge op (Option.merge op x y) (joined op xs) = Option.merge op x (Option.merge op y (joined op xs)) :=
      Std.Associative.assoc x y (joined op xs)
    simp only [pairUp, combine_flagless, joined_cons, hjoin, hlen, hflags, hassoc, List.length_cons]
    exact ⟨trivial, by omega, by simp⟩

/-- R48: n levels of the tree bring a list of up to 2^n places down to one, which holds what the list combines to. -/
theorem reduceTree_flagless (n : Nat) {xs : List (Option α)} (h : xs.length ≤ 2 ^ n) :
    let r := reduceTree (fun a b => (op a b, 0)) n xs
    r.1.head?.join = joined op xs ∧ r.2 = 0 := by
  induction n generalizing xs with
  | zero =>
    match xs, h with
    | [], _ => exact ⟨rfl, rfl⟩
    | [x], _ => exact ⟨by simp [reduceTree, joined], rfl⟩
  | succ n ih =>
    obtain ⟨hjoin, hlen, hflags⟩ := pairUp_flagless op xs
    obtain ⟨hhead, hrest⟩ := ih (xs := (pairUp (fun a b => (op a b, 0)) xs).1) (by rw [hlen]; omega)
    exact ⟨hhead.trans hjoin, by simp only [reduceTree, hflags, hrest]; rfl⟩

/-- R48: the combination of the active lanes is the combination of their values in lane order. -/
theorem reduceLanes_flagless (em : W) (x : Nat → α) :
    reduceLanes (fun a b => (op a b, 0)) em x = (joined op (leavesOf em x), 0) := by
  obtain ⟨hhead, hflags⟩ := reduceTree_flagless op 5 (xs := leavesOf em x) (by simp [leavesOf, laneList])
  exact Prod.ext hhead hflags

/-- The last w of the first i + 1 places of a list, or all of them where they are fewer. -/
def window (xs : List (Option α)) (w i : Nat) : List (Option α) := (xs.take (i + 1)).drop (i + 1 - w)

/-- R49: a list of running combinations holds, at each place, what the last w places up to it combine to. -/
def HoldsWindows (xs : List (Option α)) (w : Nat) (p : List (Option α)) : Prop :=
  p.length = xs.length ∧ ∀ i, i < xs.length → nthD none p i = joined op (window xs w i)

omit [Std.Associative op] in
/-- R49: before the first step, each place holds its own leaf. -/
theorem holdsWindows_leaves (xs : List (Option α)) : HoldsWindows op xs 1 xs := by
  refine ⟨rfl, fun i hi => ?_⟩
  have hone : window xs 1 i = [xs[i]] := by
    rw [window, Nat.add_sub_cancel, List.take_add_one, List.getElem?_eq_getElem hi]
    exact List.drop_left' (by simp; omega)
  simp [hone, joined, nthD, hi]

/-- The last 2 * w places up to one are the last w up to the place w before it, and the last w. -/
theorem window_double {xs : List (Option α)} {w i : Nat} (hw : w ≤ i) (hi : i < xs.length) :
    window xs (2 * w) i = window xs w (i - w) ++ window xs w i := by
  have hfirst : xs.take (i - w + 1) = (xs.take (i + 1)).take (i + 1 - w) := by
    rw [List.take_take]
    congr 1
    omega
  unfold window
  rw [hfirst, show i - w + 1 - w = i + 1 - 2 * w by omega, ← List.drop_append_of_le_length (by simp; omega), List.take_append_drop]

omit [Std.Associative op] in
/-- R49: a step of an operation without flags. -/
theorem scanStep_flagless (d : Nat) (p : List (Option α)) : scanStep (fun a b => (op a b, 0)) d p =
    (p.zipIdx.map (fun x => if d ≤ x.2 then Option.merge op (nthD none p (x.2 - d)) x.1 else x.1), 0) := by
  have hstep : (fun x : Option α × Nat => if d ≤ x.2 then combine (fun a b => (op a b, 0)) (nthD none p (x.2 - d)) x.1 else (x.1, 0)) =
      fun x => (if d ≤ x.2 then Option.merge op (nthD none p (x.2 - d)) x.1 else x.1, 0) := by
    funext x
    split
    · exact combine_flagless op _ _
    · rfl
  simp only [scanStep, hstep, List.map_map]
  exact congrArg (Prod.mk _) (flAll_map_zero p.zipIdx)

/-- R49: a step at the distance of the windows' width doubles them. -/
theorem scanStep_doubles {xs p : List (Option α)} {w w' : Nat} (hw' : w' = 2 * w) (h : HoldsWindows op xs w p) :
    HoldsWindows op xs w' (scanStep (fun a b => (op a b, 0)) w p).1 := by
  subst hw'
  obtain ⟨hlen, hval⟩ := h
  rw [scanStep_flagless]
  refine ⟨by simp [hlen], fun i hi => ?_⟩
  have hp : i < p.length := by omega
  have hread : nthD none (p.zipIdx.map (fun x => if w ≤ x.2 then Option.merge op (nthD none p (x.2 - w)) x.1 else x.1)) i =
      if w ≤ i then Option.merge op (nthD none p (i - w)) (nthD none p i) else nthD none p i := by
    simp [nthD, hp]
  rw [hread]
  split
  case isTrue hw => rw [hval i hi, hval (i - w) (by omega), ← joined_append, window_double hw hi]
  case isFalse hw =>
    rw [hval i hi]
    simp only [window, show i + 1 - w = 0 by omega, show i + 1 - 2 * w = 0 by omega]

/-- R49: the steps at the distances 1, 2, 4, 8 and 16 leave at each lane the combination of the leaves up to it. -/
theorem scanLanes_flagless (em : W) (x : Nat → α) :
    let r := scanLanes (fun a b => (op a b, 0)) em x
    (∀ l, l < 32 → nthD none r.1 l = joined op ((leavesOf em x).take (l + 1))) ∧ r.2 = 0 := by
  have hlen : (leavesOf em x).length = 32 := by simp [leavesOf, laneList]
  have h2 := scanStep_doubles (w' := 2) op rfl (holdsWindows_leaves op (leavesOf em x))
  have h4 := scanStep_doubles (w' := 4) op rfl h2
  have h8 := scanStep_doubles (w' := 8) op rfl h4
  have h16 := scanStep_doubles (w' := 16) op rfl h8
  obtain ⟨-, hval⟩ := scanStep_doubles (w' := 32) op rfl h16
  simp only [scanLanes, List.foldl_cons, List.foldl_nil]
  refine ⟨fun l hl => ?_, by simp only [scanStep_flagless]; rfl⟩
  rw [hval l (by omega), window, show l + 1 - 32 = 0 by omega, List.drop_zero]

end

end Sys2Proof.Machine
end

section
/-! The exchanges, the integer reductions and the running sum (R136, R137, R139). -/

namespace Sys2Proof.Machine

open Sys2Proof Sys2Proof.Claims

/-- R136: the exchanges of 32 bits differ in the lane that a lane reads alone. -/
theorem exec_exchange {row : (X3 → Instr) × (Nat → Nat → Nat)} (h : row ∈ exchangeRows) (o : X3) (s : State) :
    exec (row.1 o) s = exchange o row.2 s := by
  unfold exchangeRows at h
  fin_cases h <;> rfl

/-- R137: the combination of the integers that lanes hold, from the first on, as a word; 0 of none. -/
def intTotal (op : Int → Int → Int) (xs : List (Nat × W)) : W :=
  match xs.map (fun x => x.2.toInt) with
  | [] => 0
  | y :: ys => BitVec.ofInt 32 (ys.foldl op y)

/-- R137: an operation on words stands for one on integers: over any words it gives the word of their integers' combination. -/
def StandsFor (wop : W → W → W) (op : Int → Int → Int) : Prop :=
  ∀ (y : W) (ys : List W), ys.foldl wop y = BitVec.ofInt 32 ((ys.map BitVec.toInt).foldl op y.toInt)

/-- R137: sums of words are sums of their integers modulo 2^32. -/
theorem standsFor_add : StandsFor (fun a b => a + b) (fun x y => x + y) := fun y ys => by
  have hhom : ∀ (i : Int) (b : W), BitVec.ofInt 32 i + b = BitVec.ofInt 32 (i + b.toInt) := fun i b => by
    rw [BitVec.ofInt_add, BitVec.ofInt_toInt]
  have hfold := List.foldl_hom (BitVec.ofInt 32) (g₁ := fun i (b : W) => i + b.toInt) (l := ys) (init := y.toInt) hhom
  rw [BitVec.ofInt_toInt] at hfold
  rw [List.foldl_map, ← hfold]

/-- R137: an operation whose results read as those of an operation on integers stands for it. -/
theorem standsFor_of_toInt {wop : W → W → W} {op : Int → Int → Int} (h : ∀ a b, (wop a b).toInt = op a.toInt b.toInt) :
    StandsFor wop op := fun y ys => by
  have hfold := List.foldl_hom BitVec.toInt (g₁ := wop) (g₂ := fun i (b : W) => op i b.toInt) (l := ys) (init := y)
    fun a b => (h a b).symm
  rw [List.foldl_map, hfold, BitVec.ofInt_toInt]

/-- R137: the smaller word as a signed integer. -/
theorem toInt_minWord (a b : W) : (if b.toInt < a.toInt then b else a).toInt = min a.toInt b.toInt := by
  split <;> omega

/-- R137: the larger word as a signed integer. -/
theorem toInt_maxWord (a b : W) : (if a.toInt < b.toInt then b else a).toInt = max a.toInt b.toInt := by
  split <;> omega

/-- An operation whose results read as those of an associative operation on integers is associative. -/
theorem associative_of_toInt {wop : W → W → W} (op : Int → Int → Int) [Std.Associative op]
    (h : ∀ a b, (wop a b).toInt = op a.toInt b.toInt) : Std.Associative wop :=
  ⟨fun a b c => BitVec.eq_of_toInt_eq (by simp only [h, Std.Associative.assoc (op := op)])⟩

/-- Words that are all present combine to the word of their integers' combination. -/
theorem joined_standsFor {wop : W → W → W} {op : Int → Int → Int} (h : StandsFor wop op) (xs : List (Nat × W)) :
    (joined wop ((xs.map Prod.snd).map some)).getD 0 = intTotal op xs := by
  cases xs with
  | nil => rfl
  | cons y ys =>
    rw [List.map_cons, joined_map_some, Option.getD_some, h, List.map_map]
    rfl

/-- R137: the leaves combine to what the active lanes' values combine to. -/
theorem joined_leaves {α : Type} (op : α → α → α) (em : W) (x : Nat → α) :
    joined op (leavesOf em x) = joined op ((((lanesOf em).map (fun l => (l, x l))).map Prod.snd).map some) := by
  rw [leavesOf, joined_guarded, List.map_map (g := Prod.snd)]
  rfl

/-- R139: the leaves up to a lane combine to what the values of the active lanes up to it combine to. -/
theorem joined_take_leaves {α : Type} (op : α → α → α) (em : W) (x : Nat → α) {l : Nat} (hl : l < 32) :
    joined op ((leavesOf em x).take (l + 1)) =
      joined op (((((lanesOf em).map (fun k => (k, x k))).filter (fun p => p.1 ≤ l)).map Prod.snd).map some) := by
  have hrange : ∀ l < 32, (List.range 32).take (l + 1) = (List.range 32).filter (fun k => decide (k ≤ l)) := by decide
  have hlanes : ((List.range 32).filter (fun k => decide (k ≤ l))).filter (inMask em) =
      (lanesOf em).filter (fun k => decide (k ≤ l)) := List.filter_comm ..
  rw [leavesOf, ← List.map_take, laneList, hrange l hl, joined_guarded, hlanes, List.filter_map, List.map_map (g := Prod.snd)]
  rfl

section
variable {wop : W → W → W} {op : Int → Int → Int} [Std.Associative wop] {o : V2} {s : State}

/-- R137: an integer reduction gives every active lane the combination of the active lanes' integers. -/
theorem intReduction_laneWrites (h : StandsFor wop op) (hc : Clear s o.d 1 (o.a.range 1) []) :
    ∃ t, intReduction o wop s = .next t ∧ LaneWrites s t o.d 1 (fun _ => plain (intTotal op (activeValues s o.a), 0)) := by
  refine ⟨_, clearWord_effect hc _, ?_⟩
  have hval : (joined wop (leavesOf s.sp.em (o.a.val s))).getD 0 = intTotal op (activeValues s o.a) := by
    rw [joined_leaves, joined_standsFor h]
    rfl
  simp only [reduceLanes_flagless, flAll_map_zero, hval]
  exact (raise_zero _).symm ▸ vSet_laneWrites ..

/-- R139: the scan word gives every active lane the combination of the integers of the active lanes up to it. -/
theorem prefixWord_laneWrites (h : StandsFor wop op) (hc : Clear s o.d 1 (o.a.range 1) []) :
    ∃ t, prefixWord o (fun _ a => (a, 0)) (fun _ a b => (wop a b, 0)) (fun a => a) s = .next t ∧
      LaneWrites s t o.d 1 (fun l => plain (intTotal op ((activeValues s o.a).filter (fun x => x.1 ≤ l)), 0)) := by
  refine ⟨_, clearWord_effect hc _, ?_⟩
  obtain ⟨hval, hflags⟩ := scanLanes_flagless wop s.sp.em (o.a.val s)
  simp only [hflags, flAll_map_zero]
  refine (raise_zero _).symm ▸ laneWrites_congr (fun l hl => ?_) (vSet_laneWrites ..)
  rw [hval l hl, joined_take_leaves wop _ _ hl, joined_standsFor h]
  rfl

end

/-- R137, R139: the integer reductions and the running sum. -/
theorem exec_gather {row : (V2 → Instr) × (Nat → List (Nat × W) → W)} (hrow : row ∈ gatherRows) {o : V2} {s : State}
    (hc : Clear s o.d 1 (o.a.range 1) []) :
    ∃ t, exec (row.1 o) s = .next t ∧ LaneWrites s t o.d 1 (fun l => plain (row.2 l (activeValues s o.a), 0)) := by
  have hmin := associative_of_toInt min toInt_minWord
  have hmax := associative_of_toInt max toInt_maxWord
  unfold gatherRows at hrow
  fin_cases hrow
  · exact intReduction_laneWrites standsFor_add hc
  · exact intReduction_laneWrites (standsFor_of_toInt toInt_minWord) hc
  · exact intReduction_laneWrites (standsFor_of_toInt toInt_maxWord) hc
  · exact prefixWord_laneWrites standsFor_add hc

end Sys2Proof.Machine
end

section
/-! The reductions, indexed extremes and running sum over the fixed trees, and the statement (R48 to R51, R136 to R139). -/

namespace Sys2Proof.Machine

open Sys2Proof Sys2Proof.Claims

/-- The state u with the vector registers, their marks and the flags of s. -/
def withVectorsOf (s u : State) : State :=
  { u with g := { u.g with regs := s.g.regs, regPoison := s.g.regPoison, flags := s.g.flags } }

/-- R13, R26, R101: t is s after the active lanes have written what f gives to the n registers from d, which set these flags. -/
def TreeWrites (s t : State) (d n : Nat) (f : Nat → Nat → W) (fl : Flags) : Prop :=
  (∀ q l, l < 32 → vGet t q l = if inMask s.sp.em l ∧ d ≤ q ∧ q < d + n then f (q - d) l else vGet s q l) ∧
    t.g.flags = s.g.flags ||| fl ∧ (∀ k ∈ t.g.regPoison, k ∈ s.g.regPoison) ∧
    withVectorsOf s t = s

/-- R13: a lane of a register after it was written in the active lanes. -/
theorem vGet_vSet (r : Nat) (f : Nat → W) (s : State) (q : Nat) {l : Nat} (hl : l < 32) :
    vGet (vSet r f s) q l = if inMask s.sp.em l ∧ q = r then f l else vGet s q l := gReg_setLanes r s.sp.em f s.g q hl

/-- R13: a write of a vector register leaves the rest as it is. -/
theorem withVectorsOf_vSet (s : State) (r : Nat) (f : Nat → W) (u : State) : withVectorsOf s (vSet r f u) = withVectorsOf s u := rfl

/-- R26: setting flags leaves the rest as it is. -/
theorem withVectorsOf_raise (s : State) (fl : Flags) (u : State) : withVectorsOf s (raise fl u) = withVectorsOf s u := rfl

/-- R477: a write of a register marks nothing. -/
theorem vSet_regPoison (r : Nat) (f : Nat → W) (s : State) : ∀ k ∈ (vSet r f s).g.regPoison, k ∈ s.g.regPoison := by
  obtain ⟨-, -, -, hpoison, -⟩ := vSet_laneWrites r f s
  exact hpoison

/-- R13, R26: one register written, and flags set. -/
theorem treeWrites_one (d : Nat) (f : Nat → W) (fl : Flags) (s : State) :
    TreeWrites s (raise fl (vSet d f s)) d 1 (fun _ => f) fl := by
  refine ⟨fun q l hl => ?_, rfl, vSet_regPoison d f s, withVectorsOf_vSet s d f s⟩
  have hone : (d ≤ q ∧ q < d + 1) = (q = d) := by apply propext; omega
  simp only [vGet_raise, vGet_vSet d f s q hl, hone]

/-- R12, R26: a pair of registers written, and flags set. -/
theorem treeWrites_two (d : Nat) (f0 f1 : Nat → W) (fl : Flags) (s : State) :
    TreeWrites s (raise fl (vSet (d + 1) f1 (vSet d f0 s))) d 2 (fun j l => if j = 0 then f0 l else f1 l) fl := by
  have hpoison : ∀ k ∈ (vSet (d + 1) f1 (vSet d f0 s)).g.regPoison, k ∈ s.g.regPoison := fun k hk =>
    vSet_regPoison d f0 s k (vSet_regPoison (d + 1) f1 (vSet d f0 s) k hk)
  have hframe : withVectorsOf s (raise fl (vSet (d + 1) f1 (vSet d f0 s))) = s := by
    rw [withVectorsOf_raise, withVectorsOf_vSet, withVectorsOf_vSet]
    rfl
  refine ⟨fun q l hl => ?_, rfl, hpoison, hframe⟩
  rw [vGet_raise, vGet_vSet _ _ _ _ hl, vGet_vSet _ _ _ _ hl, show (vSet d f0 s).sp = s.sp from rfl]
  by_cases hq0 : q = d
  · simp [hq0]
  by_cases hq1 : q = d + 1
  · simp [hq1]
  · have hout : (d ≤ q ∧ q < d + 2) = False := eq_false (by omega)
    simp only [hq0, hq1, hout, and_false, if_false]

section
variable {o : V2} {s : State}

/-- R48, R137: a reduction over the tree gives the active lanes its result, with the flags of its steps and leaves. -/
theorem reduction_treeWrites (leaf : W → W → W × Flags) (comb : W → W → W → W × Flags) (fin : W → W)
    (hc : Clear s o.d 1 (o.a.range 1) []) :
    let x l := leaf s.g.fmode (o.a.val s l)
    let r := reduceLanes (comb s.g.fmode) s.sp.em (fun l => (x l).1)
    ∃ t, reduction o leaf comb fin s = .next t ∧
      TreeWrites s t o.d 1 (fun _ _ => fin (r.1.getD 0)) (r.2 ||| flAll ((lanesOf s.sp.em).map (fun l => (x l).2))) := by
  intro x r
  exact ⟨_, clearWord_effect hc _, treeWrites_one o.d (fun _ => fin (r.1.getD 0)) _ s⟩

/-- R138: an indexed extreme over the tree gives the active lanes the value and its lane, with the flags of the leaves. -/
theorem indexReduction_treeWrites (isMax : Bool) (hc : Clear s o.d 2 (o.a.range 1) []) :
    let x l := floatLeaf s.g.fmode (o.a.val s l)
    let r := (reduceLanes (indexStep isMax) s.sp.em (fun l => ((x l).1, l))).1.getD (0, 0)
    ∃ t, indexReduction isMax o s = .next t ∧
      TreeWrites s t o.d 2 (fun j _ => if j = 0 then canonF32 r.1 else BitVec.ofNat 32 r.2)
        (flAll ((lanesOf s.sp.em).map (fun l => (x l).2 ||| flIf (decodeFloat fmtF32 (x l).1.toNat).isSig flInvalid))) := by
  intro x r
  exact ⟨_, clearWord_effect hc _, treeWrites_two o.d (fun _ => canonF32 r.1) (fun _ => BitVec.ofNat 32 r.2) _ s⟩

/-- R49, R139: a scan over the tree gives each active lane its combination, with the flags of the steps and leaves. -/
theorem prefixWord_treeWrites (leaf : W → W → W × Flags) (comb : W → W → W → W × Flags) (fin : W → W)
    (hc : Clear s o.d 1 (o.a.range 1) []) :
    let x l := leaf s.g.fmode (o.a.val s l)
    let r := scanLanes (comb s.g.fmode) s.sp.em (fun l => (x l).1)
    ∃ t, prefixWord o leaf comb fin s = .next t ∧
      TreeWrites s t o.d 1 (fun _ l => fin ((nthD none r.1 l).getD 0)) (r.2 ||| flAll ((lanesOf s.sp.em).map (fun l => (x l).2))) := by
  intro x r
  exact ⟨_, clearWord_effect hc _, treeWrites_one o.d (fun l => fin ((nthD none r.1 l).getD 0)) _ s⟩

end

/-- R48 to R51, R137 to R139: the floating-point reductions, the indexed extremes and the running sum. -/
theorem exec_tree {row : (V2 → Instr) × Nat × (W → W → (Nat → W) → (Nat → Nat → W) × Flags)} (hrow : row ∈ treeRows) {o : V2}
    {s : State} (hc : Clear s o.d row.2.1 (o.a.range 1) []) :
    let r := row.2.2 s.g.fmode s.sp.em (fun l => o.a.val s l)
    ∃ t, exec (row.1 o) s = .next t ∧ TreeWrites s t o.d row.2.1 r.1 r.2 := by
  unfold treeRows at hrow
  fin_cases hrow
  · exact reduction_treeWrites floatLeaf sumStep canonF32 hc
  · exact reduction_treeWrites floatLeaf (fun _ => minMaxStep false) canonF32 hc
  · exact reduction_treeWrites floatLeaf (fun _ => minMaxStep true) canonF32 hc
  · exact indexReduction_treeWrites true hc
  · exact indexReduction_treeWrites false hc
  · exact prefixWord_treeWrites floatLeaf sumStep canonF32 hc

/-- Settles O7: each clause by the lemma on its rows. -/
theorem laneExchangeResults : Obligations.LaneExchangeResults := by
  unfold Obligations.LaneExchangeResults
  refine ⟨?_, ?_, ?_, ?_⟩
  · intro row hrow o s hc
    rw [exec_exchange hrow]
    exact vecWord_laneWrites (.inl rfl) hc _
  · intro o s hc
    exact vecWord_laneWrites (.inr rfl) hc _
  · intro row hrow o s hc
    exact exec_gather hrow hc
  · intro row hrow o s hc
    exact exec_tree hrow hc

end Sys2Proof.Machine
end

section
/-! The head of a core's tile-operation queue is carried out: the group, the queue and the rest (R163, R411). -/

namespace Sys2Proof.Machine

open Sys2Proof Sys2Proof.Claims

/-- R18: the part of a span on a core reads as changed. -/
theorem spanCoreOf?_modSpanCore {s : State} {span core : Nat} {p : SpanCore} {f : SpanCore → SpanCore}
    (h : spanCoreOf? s span core = some p) (hf : (f p).core = p.core) :
    spanCoreOf? (modSpanCore span core f s) span core = some (f p) := by
  obtain ⟨x, hx, hp⟩ := Option.bind_eq_some_iff.mp h
  obtain rfl : x.uid = span := by simpa using List.find?_some hx
  obtain rfl : p.core = core := by simpa using List.find?_some hp
  exact Option.bind_eq_some_iff.mpr ⟨_, spanOf?_modSpan hx rfl, find?_updateFirst hp (by simpa using hf)⟩

/-- R183: a tile reads as changed. -/
theorem tileOf_modTile {s : State} {span core t : Nat} {p : SpanCore} (f : Tile → Tile) (h : spanCoreOf? s span core = some p)
    (ht : t < p.tiles.length) : tileOf (modTile span core t f s) span core t = f (tileOf s span core t) := by
  unfold tileOf modTile
  rw [spanCoreOf?_modSpanCore h rfl, h]
  exact nthD_set _ _ ht

/-- R183: the tiles are the same where the spans are. -/
theorem tileOf_congr {s t : State} (h : t.spans = s.spans) (span core n : Nat) : tileOf t span core n = tileOf s span core n := by
  unfold tileOf spanCoreOf?
  rw [spanOf?_congr h]

/-- A change of a group changes the groups alone. -/
theorem modGroup_frame (n : Nat) (f : Group → Group) (s : State) : { modGroup n f s with groups := s.groups, g := s.g } = s := by
  unfold modGroup
  split <;> rfl

/-- A change of a group leaves the spans as they are. -/
theorem modGroup_spans (n : Nat) (f : Group → Group) (s : State) : (modGroup n f s).spans = s.spans :=
  (congrArg State.spans (modGroup_frame n f s) :)

/-- The groups of a number are the same where the groups are. -/
theorem groupOf?_congr {s t : State} (hg : t.g = s.g) (h : t.groups = s.groups) (n : Nat) : groupOf? t n = groupOf? s n := by
  unfold groupOf? allGroups
  rw [hg, h]

/-- R411: the charge of an operation changes what is kept of owners alone. -/
theorem chargeTile_frame (g : Group) (c : TileCmd) (n : Nat) (s : State) : { chargeTile g c n s with ten := s.ten } = s := by
  unfold chargeTile addUse
  split
  · rfl
  split
  · split
    · rfl
    · exact modOwner_frame ..
  · rfl

/-- R411: the charge of an operation leaves the groups as they are. -/
theorem groupOf?_chargeTile (g : Group) (c : TileCmd) (n : Nat) (s : State) (k : Nat) :
    groupOf? (chargeTile g c n s) k = groupOf? s k := by
  have hframe := chargeTile_frame g c n s
  exact groupOf?_congr (t := chargeTile g c n s) (congrArg State.g hframe :) (congrArg State.groups hframe :) k

/-- R163: a group of which a tile operation is complete. -/
def finished (fl : Flags) (g : Group) : Group := { g with cntT := g.cntT - 1, flags := g.flags ||| fl }

/-- R26, R163: the flags of a complete operation. -/
theorem finished_flags (fl : Flags) (g : Group) : (finished fl g).flags = g.flags ||| fl := rfl

/-- R163: the end of an operation leaves the vector registers as its effect left them. -/
theorem gReg_finished (fl : Flags) (g : Group) (r l : Nat) : gReg (finished fl g) r l = gReg g r l := rfl

/-- R163: an operation taken off its queue. -/
def takenOff (c : TileCmd) (s : State) : State :=
  { s with eng := { s.eng with tiles := s.eng.tiles.filter (fun k => k.uid != c.uid) } }

/-- R163: what the effect of a tile operation has left of s in t when it is to finish: the queues and memory are as they were,
and its group g is h, with its count and mask registers. -/
structure TileAffected (s t : State) (g h : Group) (c : TileCmd) : Prop where
  unfocused : t.g.gid = 0
  group : groupOf? t c.gid = some h
  eng : t.eng = s.eng
  mem : t.mem = s.mem
  wq : t.wq = s.wq
  cntT : h.cntT = g.cntT
  kregs : h.kregs = g.kregs

section
variable {s t : State} {g h : Group} {c : TileCmd} {tile : Nat}

/-- R163: the group of the head of a queue has its number. -/
theorem tileHead_gid (hh : TileHead s g c tile) : g.gid = c.gid := by
  obtain ⟨-, -, hg, -⟩ := hh
  simpa using List.find?_some hg

/-- R163: the group of the head of a queue is a group. -/
theorem tileHead_gid_ne_zero (hh : TileHead s g c tile) : c.gid ≠ 0 := by
  obtain ⟨-, h0, -⟩ := hh
  exact h0

/-- R163: an operation without an effect. -/
theorem tileHead_affected (hh : TileHead s g c tile) : TileAffected s s g g c := by
  obtain ⟨hs, -, hg, -⟩ := hh
  exact ⟨hs, hg, rfl, rfl, rfl, rfl, rfl⟩

/-- R163: a change of the tile of an operation. -/
theorem tileHead_modTile (hh : TileHead s g c tile) (n : Nat) (f : Tile → Tile) :
    TileAffected s (modTile c.span c.core n f s) g g c := by
  obtain ⟨hs, -, hg, -⟩ := hh
  exact ⟨hs, hg, rfl, rfl, rfl, rfl, rfl⟩

/-- R163: the tile of an operation reads as changed. -/
theorem tileHead_tileOf_modTile (hh : TileHead s g c tile) (f : Tile → Tile) :
    tileOf (modTile c.span c.core tile f s) c.span c.core tile = f (tileOf s c.span c.core tile) := by
  obtain ⟨-, -, -, -, p, hp, ht⟩ := hh
  exact tileOf_modTile f hp ht

/-- R163: a change of the group of an operation that keeps its number, count and mask registers. -/
theorem TileAffected.modGroup (ht : TileAffected s t g h c) (h0 : c.gid ≠ 0) {f : Group → Group} (hgid : (f h).gid = h.gid)
    (hcnt : (f h).cntT = h.cntT) (hk : (f h).kregs = h.kregs) : TileAffected s (modGroup c.gid f t) g (f h) c := by
  obtain ⟨hunf, hg, heng, hmem, hwq, hcntT, hkregs⟩ := ht
  have hname : h.gid = c.gid := by simpa using List.find?_some hg
  have hread := groupOf?_modGroup (f := f) hunf (hname.trans_ne h0) (hname.symm ▸ hg) hgid
  rw [hname] at hread
  rw [modGroup_unfocused (hunf.trans_ne h0.symm)] at hread ⊢
  exact ⟨hunf, hread, heng, hmem, hwq, hcnt.trans hcntT, hk.trans hkregs⟩

/-- R163, R411: the head of a queue that has had its effect lowers T, sets its flags and leaves the queue. -/
theorem tileHead_finishes {fl : Flags} (hh : TileHead s g c tile) (ht : TileAffected s t g h c)
    (hrun : runTile g c s = finishTile g c fl false t) :
    ∃ u, exec (.tileOpComplete c.die c.core) s = .next u ∧ TileDone s u g (finished fl h) c ∧ u.spans = t.spans := by
  have hname := tileHead_gid hh
  obtain ⟨-, h0, hg, hhead, -⟩ := hh
  obtain ⟨hunf, hgt, heng, hmem, hwq, hcnt, hk⟩ := ht
  have hexec : exec (.tileOpComplete c.die c.core) s = .next (chargeTile g c (tileClk s c) (runTile g c s)) := by
    change execTileOpComplete c.die c.core s = _
    unfold execTileOpComplete
    rw [hhead]
    dsimp only
    rw [hg]
  have hfin : finishTile g c fl false t = modGroup c.gid (finished fl) (takenOff c t) := congrArg (modGroup · _ _) hname
  rw [hrun, hfin] at hexec
  have hcharge := chargeTile_frame g c (tileClk s c) (modGroup c.gid (finished fl) (takenOff c t))
  have hmod := modGroup_frame c.gid (finished fl) (takenOff c t)
  refine ⟨_, hexec, ⟨?_, congrArg (· - 1) hcnt, ?_, ?_, ?_, hk⟩, ?_⟩
  · have hgid : h.gid = c.gid := by simpa using List.find?_some hgt
    rw [groupOf?_chargeTile, ← hgid]
    exact groupOf?_modGroup (s := takenOff c t) hunf (hgid.trans_ne h0) (hgid.symm ▸ hgt) rfl
  · rw [(congrArg State.eng hcharge :), (congrArg State.eng hmod :), takenOff, heng]
  · exact (congrArg State.mem hcharge :).trans ((congrArg State.mem hmod :).trans hmem)
  · exact (congrArg State.wq hcharge :).trans ((congrArg State.wq hmod :).trans hwq)
  · exact (congrArg State.spans hcharge :).trans (congrArg State.spans hmod :)

end

end Sys2Proof.Machine
end

section
/-! Rows zeroed, drained and counted (R179, R182, R188, R189). -/

namespace Sys2Proof.Machine

open Sys2Proof Sys2Proof.Claims

/-- R179: an element of a tile whose rows were zeroed. -/
theorem zeroRows_elem (em : W) (x : Tile) (row : Nat) {col : Nat} (hcol : col < 64) :
    mapGet 0 (zeroRows em x).elems (row * 64 + col) = if row < 32 ∧ inMask em row then 0 else mapGet 0 x.elems (row * 64 + col) := by
  have hrow : (row * 64 + col) / 64 = row := by omega
  have hread := mapGet_filter_keys 0 x.elems (fun k => !inMask em (k / 64)) (row * 64 + col)
  rw [hrow] at hread
  refine hread.trans ?_
  by_cases hm : inMask em row = true
  · simp [hm, lt_of_mem_lanesOf ((mem_lanesOf em row).mpr hm)]
  · simp [hm]

/-- R182: the registers of a group after some of them were written in the lanes of a mask. -/
theorem gReg_setWide (d n : Nat) (m : W) (f : Nat → Nat → W) (g : Group) (q : Nat) {l : Nat} (hl : l < 32) :
    gReg (g.setWide d n m f) q l = if d ≤ q ∧ q < d + n ∧ inMask m l then f l (q - d) else gReg g q l := by
  induction n with
  | zero =>
    have hout : ¬(d ≤ q ∧ q < d + 0 ∧ inMask m l = true) := by omega
    rw [if_neg hout]
    rfl
  | succ n ih =>
    have hstep : g.setWide d (n + 1) m f = (g.setWide d n m f).setLanes (d + n) m (fun l => f l n) := by
      simp only [Group.setWide, List.range_succ, List.foldl_append, List.foldl_cons, List.foldl_nil]
    rw [hstep, gReg_setLanes _ _ _ _ _ hl, ih]
    by_cases hq : q = d + n
    · by_cases hm : inMask m l = true <;> simp [hq, hm]
    · have hsame : (d ≤ q ∧ q < d + (n + 1)) ↔ (d ≤ q ∧ q < d + n) := by omega
      simp only [hq, and_false, ← and_assoc, hsame]
      rfl

/-- R182: a write of vector registers leaves the rest of their group as it is. -/
theorem setWide_frame (d n : Nat) (m : W) (f : Nat → Nat → W) (g : Group) :
    { g.setWide d n m f with regs := g.regs, regPoison := g.regPoison } = g :=
  foldl_keeps (f := fun a j => a.setLanes (d + j) m (fun l => f l j))
    (fun a : Group => { a with regs := g.regs, regPoison := g.regPoison }) (fun _ _ => rfl) (List.range n) g

/-- R182: a group of which eight registers from d have received columns 8 * gi to 8 * gi + 7 of the active rows of a tile. -/
def drained (x : Tile) (d gi : Nat) (em : W) (g : Group) : Group :=
  g.setWide d 8 em (fun l j => mapGet 0 x.elems (elemKey l (8 * gi + j)))

/-- R182: a drain leaves the number, the count, the mask registers and the flags of its group. -/
theorem drained_keeps (x : Tile) (d gi : Nat) (em : W) (g : Group) : (drained x d gi em g).gid = g.gid ∧
    (drained x d gi em g).cntT = g.cntT ∧ (drained x d gi em g).kregs = g.kregs ∧ (drained x d gi em g).flags = g.flags := by
  have hframe : { drained x d gi em g with regs := g.regs, regPoison := g.regPoison } = g := setWide_frame ..
  exact ⟨(congrArg Group.gid hframe :), (congrArg Group.cntT hframe :), (congrArg Group.kregs hframe :),
    (congrArg Group.flags hframe :)⟩

/-- R182: what a drain leaves in the registers. -/
theorem gReg_drained (x : Tile) (d gi : Nat) (em : W) (g : Group) (r : Nat) {l : Nat} (hl : l < 32) :
    gReg (drained x d gi em g) r l =
      if d ≤ r ∧ r < d + 8 ∧ inMask em l then mapGet 0 x.elems (l * 64 + 8 * gi + (r - d)) else gReg g r l := by
  rw [drained, gReg_setWide _ _ _ _ _ _ hl, elemKey, ← Nat.add_assoc]

/-- R189: the counts of all rows together. -/
theorem rowSum_eq (m : SMap Nat) : rowSum m = ((List.range 32).map (fun r => mapGet 0 m r)).sum := by
  rw [rowSum, List.sum_eq_foldl, List.foldl_map]

section
variable {s : State} {g : Group} {c : TileCmd}

/-- R179, R182, R183: mzero zeroes the active rows of its tile. -/
theorem mzero_completes {t : Nat} (hop : c.op = .mzero t) (hh : TileHead s g c t) :
    ∃ u h, exec (.tileOpComplete c.die c.core) s = .next u ∧ TileDone s u g h c ∧ h.regs = g.regs ∧ h.flags = g.flags ∧
      ∀ row col, col < 64 → mapGet 0 (tileOf u c.span c.core t).elems (row * 64 + col) =
        if row < 32 ∧ inMask c.em row then 0 else mapGet 0 (tileOf s c.span c.core t).elems (row * 64 + col) := by
  obtain ⟨u, hexec, hdone, hspans⟩ := tileHead_finishes hh (tileHead_modTile hh t (zeroRows c.em)) (fl := 0)
    (by rw [runTile, hop])
  refine ⟨u, _, hexec, hdone, rfl, BitVec.or_zero, fun row col hcol => ?_⟩
  rw [tileOf_congr hspans, tileHead_tileOf_modTile hh, zeroRows_elem _ _ _ hcol]

/-- R182: mdrain reads eight columns of the active rows into registers. -/
theorem mdrain_completes {t d gi : Nat} (hop : c.op = .mdrain t d gi) (hh : TileHead s g c t)
    (hpoison : (tileOf s c.span c.core t).poison = []) :
    ∃ u h, exec (.tileOpComplete c.die c.core) s = .next u ∧ TileDone s u g h c ∧ u.spans = s.spans ∧ h.flags = g.flags ∧
      ∀ r l, l < 32 → gReg h r l = if d ≤ r ∧ r < d + 8 ∧ inMask c.em l then
        mapGet 0 (tileOf s c.span c.core t).elems (l * 64 + 8 * gi + (r - d)) else gReg g r l := by
  obtain ⟨hgid, hcnt, hkregs, hflags⟩ := drained_keeps (tileOf s c.span c.core t) d gi c.em g
  have haff := (tileHead_affected hh).modGroup (tileHead_gid_ne_zero hh) hgid hcnt hkregs
  have hclean : (lanesOf c.em).any (fun l => (tileOf s c.span c.core t).poison.any (fun k => k / 64 == l && k % 64 / 8 == gi)) =
      false := by simp [hpoison]
  have hrun : runTile g c s = finishTile g c 0 false (modGroup c.gid (drained (tileOf s c.span c.core t) d gi c.em) s) := by
    rw [runTile, hop]
    dsimp only
    rw [hclean, tileHead_gid hh]
    rfl
  obtain ⟨u, hexec, hdone, hspans⟩ := tileHead_finishes hh haff hrun
  refine ⟨u, _, hexec, hdone, hspans.trans (modGroup_spans ..), ?_, fun r l hl => ?_⟩
  · rw [finished_flags, hflags]
    exact BitVec.or_zero
  · rw [gReg_finished, gReg_drained _ _ _ _ _ _ hl]

/-- R188: what a completed mstat leaves for its split's next boundary is in its group alone. -/
theorem TileAffected.leavePending {t : State} {h : Group} (ht : TileAffected s t g h c) (h0 : c.gid ≠ 0) (hgid : g.gid = c.gid)
    (ps : List Pending) : ∃ qs, TileAffected s (leavePending g c ps t) g { h with pendings := qs } c := by
  unfold Machine.leavePending
  split
  · exact ⟨h.pendings, ht⟩
  · exact hgid.symm ▸ ⟨_, ht.modGroup h0 rfl rfl rfl⟩

/-- R188: mstat leaves the spans as they are. -/
theorem leavePending_spans (g : Group) (c : TileCmd) (ps : List Pending) (t : State) : (leavePending g c ps t).spans = t.spans := by
  unfold leavePending
  split
  · rfl
  · exact modGroup_spans ..

/-- R188: mstat reads the counts of the active rows of a tile into a register. -/
theorem mstatTile_completes {t d : Nat} (hop : c.op = .mstatTile t d) (hh : TileHead s g c t) :
    ∃ u h, exec (.tileOpComplete c.die c.core) s = .next u ∧ TileDone s u g h c ∧ u.spans = s.spans ∧
      ∀ r l, l < 32 → gReg h r l = if r = d ∧ inMask c.em l then
        BitVec.ofNat 32 (mapGet 0 (tileOf s c.span c.core t).dunder l + mapGet 0 (tileOf s c.span c.core t).dsat l * 2 ^ 8)
        else gReg g r l := by
  have h0 := tileHead_gid_ne_zero hh
  have haff := (tileHead_affected hh).modGroup h0
    (f := fun y => y.setLanes d c.em (fun l =>
      BitVec.ofNat 32 (mapGet 0 (tileOf s c.span c.core t).dunder l + mapGet 0 (tileOf s c.span c.core t).dsat l * 256))) rfl rfl rfl
  obtain ⟨qs, hleft⟩ := haff.leavePending h0 (tileHead_gid hh) ((lanesOf c.em).map (fun l => Pending.tileRow c.core t l
    (mapGet 0 (tileOf s c.span c.core t).dunder l) (mapGet 0 (tileOf s c.span c.core t).dsat l)))
  obtain ⟨u, hexec, hdone, hspans⟩ := tileHead_finishes hh hleft (fl := 0) (by
    rw [runTile, hop]
    dsimp only
    rw [runStatTile, tileHead_gid hh])
  refine ⟨u, _, hexec, hdone, hspans.trans ((leavePending_spans ..).trans (modGroup_spans ..)), fun r l hl => ?_⟩
  refine (gReg_setLanes d c.em _ g r hl).trans ?_
  simp only [and_comm]
  rfl

/-- R189: msuggest writes the suggestion for its tile to a scalar register. -/
theorem msuggest_completes {t thr d : Nat} (hop : c.op = .msuggest t thr d) (hh : TileHead s g c t) :
    ∃ u h, exec (.tileOpComplete c.die c.core) s = .next u ∧ TileDone s u g h c ∧ h.regs = g.regs ∧
      ∀ r, mapGet 0 h.sregs r = if r = d then suggestion (tileOf s c.span c.core t) thr else mapGet 0 g.sregs r := by
  have haff := (tileHead_affected hh).modGroup (tileHead_gid_ne_zero hh)
    (f := fun y => { y with sregs := mapSet 0 y.sregs d (suggestion (tileOf s c.span c.core t) thr) }) rfl rfl rfl
  obtain ⟨u, hexec, hdone, -⟩ := tileHead_finishes hh haff (fl := 0) (by
    rw [runTile, hop]
    dsimp only
    rw [tileHead_gid hh])
  exact ⟨u, _, hexec, hdone, rfl, fun r => mapGet_mapSet ..⟩

end

end Sys2Proof.Machine
end

section
/-! One element of a product of integer formats: the exact sum of the units, modulo 2^32 (R54, R58, R59, R178). -/

namespace Sys2Proof.Machine

open Sys2Proof Sys2Proof.Claims

/-- R57, R58: a block that is not poisoned and has no special element. -/
def PlainBlock (b : Block) : Prop := b.poison = false ∧ ∀ k ∈ b.classes, k.2 = .zero

/-- What holds of the default and of every listed value holds of what a map reads as. -/
theorem mapGet_of_all {α : Type} {P : α → Prop} {d : α} {m : SMap α} (hd : P d) (hm : ∀ p ∈ m, P p.2) (k : Nat) :
    P (mapGet d m k) := by
  unfold mapGet
  split
  case h_1 p hp => exact hm p (List.mem_of_find?_eq_some hp)
  case h_2 => exact hd

/-- R172: a block of a reservation that lists only plain blocks is plain. -/
theorem plainBlock_block {r : Reservation} (h : ∀ p ∈ r.blocks, PlainBlock p.2) (m k : Nat) : PlainBlock (r.block m k) :=
  mapGet_of_all (P := PlainBlock) ⟨rfl, fun _ hk => absurd hk List.not_mem_nil⟩ h _

/-- R56: an element of a plain block has no class but that of a zero. -/
theorem PlainBlock.cls {b : Block} (h : PlainBlock b) (j : Nat) : b.cls j = none ∨ b.cls j = some .zero := by
  obtain ⟨-, hclasses⟩ := h
  unfold Block.cls
  cases hfind : b.classes.find? (fun c => c.1 == j) with
  | none => exact .inl rfl
  | some c => exact .inr (congrArg some (hclasses c (List.mem_of_find?_eq_some hfind)))

/-- R58: the sum of the products of the integers of two blocks at some positions. -/
def productSum (a b : Block) (js : List Nat) : Int := (js.map (fun j => mapGet 0 a.ints j * mapGet 0 b.ints j)).sum

/-- R58: without outliers the value of a unit is its sum of products. -/
theorem unitValue_plain {a : Block} (ha : PlainBlock a) (b : Block) (js : List Nat) : (unitValue a b js).1 = productSum a b js := by
  have hsum : js.foldl (fun acc j => acc + mapGet 0 a.ints j * mapGet 0 b.ints j) 0 = productSum a b js := by
    rw [productSum, List.sum_eq_foldl, List.foldl_map]
  have hnone (f : Nat → Option (Int × Int)) (hf : ∀ j, f j = none) : js.filterMap f = [] :=
    List.filterMap_eq_nil_iff.mpr fun j _ => hf j
  unfold unitValue
  rw [hsum, hnone]
  · simp
  · intro j
    rcases ha.cls j with h | h <;> rw [h]

/-- R59: sums of integers as words are sums modulo 2^32. -/
theorem ofInt_toInt_add (i k : Int) : BitVec.ofInt 32 ((BitVec.ofInt 32 i).toInt + k) = BitVec.ofInt 32 (i + k) := by
  rw [BitVec.ofInt_add, BitVec.ofInt_toInt, ← BitVec.ofInt_add]

section
variable {ra rb : ResRec} (ha : ra.fmt ∈ [0, 2]) (hb : rb.fmt ∈ [0, 2])
include ha hb

/-- R52, R59: the integer formats accumulate integers, and have no codes that count beyond the k extent. -/
theorem integerPair (b : Block) (u : Nat × Nat × Nat × Nat) : intPair ra.fmt rb.fmt = true ∧ binaryPad ra rb b u = 0 := by
  simp only [List.mem_cons, List.not_mem_nil, or_false] at ha hb
  refine ⟨?_, if_neg (by omega)⟩
  rcases ha with ha | ha <;> rcases hb with hb | hb <;> rw [ha, hb] <;> rfl

/-- R59: a unit of plain blocks of integer formats adds its sum of products, and meets no poison. -/
theorem addUnit_integer {a b : Block} (hpa : PlainBlock a) (hpb : PlainBlock b) (u : Nat × Nat × Nat × Nat) (x : Accum) :
    (addUnit ra rb a b u x).val = BitVec.ofInt 32 (x.val.toInt + productSum a b (realPairs ra rb a u)) ∧
    (addUnit ra rb a b u x).bad = x.bad := by
  obtain ⟨hint, hpad⟩ := integerPair ha hb b u
  have hclean : ¬(a.poison || b.poison) = true := by
    obtain ⟨hca, -⟩ := hpa
    obtain ⟨hcb, -⟩ := hpb
    simp [hca, hcb]
  unfold addUnit
  rw [if_neg hclean]
  dsimp only
  rw [hpad, if_pos hint, unitValue_plain hpa, Int.add_zero]
  split
  case isTrue hnone =>
    obtain ⟨hnil, -⟩ := hnone
    rw [hnil]
    exact ⟨by simp [productSum], rfl⟩
  case isFalse => exact ⟨rfl, rfl⟩

/-- R178: an element after units of plain blocks of integer formats has their sums of products added, and met no poison. -/
theorem accumElem_integer {a b : Reservation} (hpa : ∀ p ∈ a.blocks, PlainBlock p.2) (hpb : ∀ p ∈ b.blocks, PlainBlock p.2)
    (us : List (Nat × Nat × Nat × Nat)) (row col : Nat) (v : W) :
    (accumElem ra rb a b us row col v).val = BitVec.ofInt 32 (v.toInt + (us.map (fun u =>
      productSum (a.block row u.1) (b.block col u.2.1) (realPairs ra rb (a.block row u.1) u))).sum) ∧
    (accumElem ra rb a b us row col v).bad = false := by
  have hfold (x : Accum) : let y := us.foldl (fun x u => addUnit ra rb (a.block row u.1) (b.block col u.2.1) u x) x
      y.val = BitVec.ofInt 32 (x.val.toInt + (us.map (fun u =>
        productSum (a.block row u.1) (b.block col u.2.1) (realPairs ra rb (a.block row u.1) u))).sum) ∧ y.bad = x.bad := by
    induction us generalizing x with
    | nil => exact ⟨by simp, rfl⟩
    | cons u us ih =>
      obtain ⟨hval, hbad⟩ := addUnit_integer ha hb (plainBlock_block hpa row u.1) (plainBlock_block hpb col u.2.1) u x
      obtain ⟨ihval, ihbad⟩ := ih (addUnit ra rb (a.block row u.1) (b.block col u.2.1) u x)
      refine ⟨ihval.trans ?_, ihbad.trans hbad⟩
      rw [hval, ofInt_toInt_add, List.map_cons, List.sum_cons, Int.add_assoc]
  exact hfold ⟨v, 0, false⟩

end

end Sys2Proof.Machine
end

section
/-! The units of n steps of 16 positions, and the sum over the positions (R54, R58, R178). -/

namespace Sys2Proof.Machine

open Sys2Proof Sys2Proof.Claims

/-- A sum over the picked elements of a list is one over all, in which the others count 0. -/
theorem sum_map_filter {α : Type} (p : α → Bool) (f : α → Int) (xs : List α) :
    ((xs.filter p).map f).sum = (xs.map (fun x => if p x then f x else 0)).sum := by
  induction xs with
  | nil => rfl
  | cons x xs ih => by_cases hx : p x <;> simp [hx, ih]

/-- A sum over the list of the numbers below n is one over their set. -/
theorem list_sum_range (f : Nat → Int) (n : Nat) : ((List.range n).map f).sum = ∑ i ∈ Finset.range n, f i := rfl

/-- A sum over blocks of 32 is one over all their positions. -/
theorem sum_blocks (f : Nat → Int) (m : Nat) :
    ∑ i ∈ Finset.range m, ∑ j ∈ Finset.range 32, f (32 * i + j) = ∑ p ∈ Finset.range (32 * m), f p := by
  induction m with
  | zero => rfl
  | succ m ih => rw [Finset.sum_range_succ, ih, Nat.mul_succ, Finset.sum_range_add]

/-- A sum over a range of which only n positions from lo count. -/
theorem sum_window (f : Nat → Int) (lo n rest : Nat) :
    ∑ p ∈ Finset.range (lo + n + rest), (if lo ≤ p ∧ p < lo + n then f p else 0) = ∑ i ∈ Finset.range n, f (lo + i) := by
  have hbefore : ∑ p ∈ Finset.range lo, (if lo ≤ p ∧ p < lo + n then f p else 0) = 0 :=
    Finset.sum_eq_zero fun p hp => if_neg (by have := Finset.mem_range.mp hp; omega)
  have hafter : ∑ p ∈ Finset.range rest, (if lo ≤ lo + n + p ∧ lo + n + p < lo + n then f (lo + n + p) else 0) = 0 :=
    Finset.sum_eq_zero fun p _ => if_neg (by omega)
  rw [Finset.sum_range_add, hafter, Finset.sum_range_add, hbefore, Int.zero_add, Int.add_zero]
  exact Finset.sum_congr rfl fun i hi => if_pos (by have := Finset.mem_range.mp hi; omega)

/-- R54, R58: the product at position p from block qa of row `row` of A and block qb of column `col` of B, padding left out. -/
def pairTerm (ra rb : ResRec) (a b : Reservation) (row col qa qb p : Nat) : Int :=
  if 32 * qa + p < ra.kext ∧ 32 * qb + p < rb.kext then planeInt a row (32 * qa + p) * planeInt b col (32 * qb + p) else 0

/-- R176: an element of a block is the element of its row or column. -/
theorem block_ints (r : Reservation) (m q i j : Nat) (hj : j < 32) :
    mapGet 0 (r.block m (q + i)).ints j = planeInt r m (32 * q + (32 * i + j)) := by
  unfold planeInt
  rw [show (32 * q + (32 * i + j)) / 32 = q + i by omega, show (32 * q + (32 * i + j)) % 32 = j by omega]

/-- R54, R58: the sum of products of the positions of one unit that are real in both operands. -/
theorem productSum_realPairs {ra rb : ResRec} {a b : Reservation} {row col qa qb i lo hi : Nat}
    (ha : PlainBlock (a.block row (qa + i))) :
    productSum (a.block row (qa + i)) (b.block col (qb + i)) (realPairs ra rb (a.block row (qa + i)) (qa + i, qb + i, lo, hi)) =
      ∑ j ∈ Finset.range 32, if lo ≤ j ∧ j < hi then pairTerm ra rb a b row col qa qb (32 * i + j) else 0 := by
  unfold productSum realPairs
  rw [sum_map_filter, list_sum_range]
  refine Finset.sum_congr rfl fun j hj => ?_
  have hj := Finset.mem_range.mp hj
  have hreal : ((a.block row (qa + i)).cls j != some .payload) = true := by
    rcases ha.cls j with h | h <;> rw [h] <;> rfl
  simp only [hreal, Bool.and_true, decide_eq_true_eq, pairTerm, block_ints _ _ _ _ _ hj]
  rw [show 32 * (qa + i) + j = 32 * qa + (32 * i + j) by omega, show 32 * (qb + i) + j = 32 * qb + (32 * i + j) by omega]
  by_cases hin : lo ≤ j ∧ j < hi
  · simp [hin]
  · rw [if_neg hin, if_neg (by tauto)]

/-- R178: the units of n steps cover the positions of the steps, from the record's origins on. -/
theorem sum_units {ra rb : ResRec} {a b : Reservation} (hpa : ∀ p ∈ a.blocks, PlainBlock p.2) (hk : (ra.korg + rb.korg) % 2 = 0)
    (n row col : Nat) :
    ((unitsFrom rb.korg ra.korg n).map (fun u =>
      productSum (a.block row u.1) (b.block col u.2.1) (realPairs ra rb (a.block row u.1) u))).sum = stepSum ra rb a b n row col := by
  unfold unitsFrom
  split
  case isTrue hn => rw [hn]; rfl
  case isFalse hn =>
    obtain ⟨m, hm⟩ : ∃ m, (ra.korg + n - 1) / 2 + 1 - ra.korg / 2 = m := ⟨_, rfl⟩
    obtain ⟨rest, hrest⟩ : ∃ rest, 32 * m = 16 * (ra.korg % 2) + 16 * n + rest := ⟨32 * m - (16 * (ra.korg % 2) + 16 * n), by omega⟩
    dsimp only
    rw [hm, List.map_map, list_sum_range]
    calc _ = ∑ i ∈ Finset.range m, ∑ j ∈ Finset.range 32,
            if 16 * (ra.korg % 2) ≤ 32 * i + j ∧ 32 * i + j < 16 * (ra.korg % 2) + 16 * n
              then pairTerm ra rb a b row col (ra.korg / 2) (rb.korg / 2) (32 * i + j) else 0 := by
          refine Finset.sum_congr rfl fun i hi => ?_
          have hi := Finset.mem_range.mp hi
          refine (productSum_realPairs (plainBlock_block hpa row _)).trans (Finset.sum_congr rfl fun j hj => ?_)
          have hj := Finset.mem_range.mp hj
          congr 1
          apply propext
          split <;> split <;> omega
      _ = ∑ p ∈ Finset.range (16 * (ra.korg % 2) + 16 * n + rest),
            if 16 * (ra.korg % 2) ≤ p ∧ p < 16 * (ra.korg % 2) + 16 * n
              then pairTerm ra rb a b row col (ra.korg / 2) (rb.korg / 2) p else 0 := by
          rw [← hrest, ← sum_blocks]
      _ = ∑ i ∈ Finset.range (16 * n), pairTerm ra rb a b row col (ra.korg / 2) (rb.korg / 2) (16 * (ra.korg % 2) + i) :=
          sum_window ..
      _ = stepSum ra rb a b n row col := by
          rw [stepSum, list_sum_range]
          refine Finset.sum_congr rfl fun i _ => ?_
          unfold pairTerm
          rw [show 32 * (ra.korg / 2) + (16 * (ra.korg % 2) + i) = 16 * ra.korg + i by omega,
            show 32 * (rb.korg / 2) + (16 * (ra.korg % 2) + i) = 16 * rb.korg + i by omega]

end Sys2Proof.Machine
end

section
/-! The product on a tile, and the statement about the head of a queue (R58, R59, R163, R178). -/

namespace Sys2Proof.Machine

open Sys2Proof Sys2Proof.Claims

/-- R178: one element of a tile after all units, with the flags and whether poison was met so far. -/
def accumCell (ra rb : ResRec) (a b : Reservation) (us : List (Nat × Nat × Nat × Nat)) (acc : Tile × Flags × Bool)
    (rc : Nat × Nat) : Tile × Flags × Bool :=
  let k := elemKey rc.1 rc.2
  let v := accumElem ra rb a b us rc.1 rc.2 (mapGet 0 acc.1.elems k)
  ({ acc.1 with elems := mapSet 0 acc.1.elems k v.val }, acc.2.1 ||| v.flags, acc.2.2 || v.bad || memNat k acc.1.poison)

/-- R178: the elements that a product writes: the active rows within A's extent, and the columns within B's. -/
def accumCells (ra rb : ResRec) (em : W) : List (Nat × Nat) :=
  ((lanesOf em).filter (fun r => decide (r < ra.mext))).product (List.range rb.mext)

/-- R178: a product on a tile, element by element. -/
theorem accumTile_eq (ra rb : ResRec) (a b : Reservation) (n : Nat) (em : W) (x : Tile) : accumTile ra rb a b n em x =
    (accumCells ra rb em).foldl (accumCell ra rb a b (unitsFrom rb.korg ra.korg n)) (x, 0, false) := rfl

/-- R178: the elements that a product writes. -/
theorem mem_accumCells (ra rb : ResRec) (em : W) (row col : Nat) :
    (row, col) ∈ accumCells ra rb em ↔ row < 32 ∧ inMask em row ∧ row < ra.mext ∧ col < rb.mext := by
  rw [accumCells, List.pair_mem_product, List.mem_filter, mem_lanesOf, List.mem_range, decide_eq_true_eq]
  exact ⟨fun ⟨⟨hm, hr⟩, hc⟩ => ⟨lt_of_mem_lanesOf ((mem_lanesOf em row).mpr hm), hm, hr, hc⟩, fun ⟨_, hm, hr, hc⟩ => ⟨⟨hm, hr⟩, hc⟩⟩

/-- R178: no element is written twice. -/
theorem nodup_accumCells (ra rb : ResRec) (em : W) : (accumCells ra rb em).Nodup :=
  ((nodup_lanesOf em).filter _).product List.nodup_range

section
variable {ra rb : ResRec} {a b : Reservation} {us : List (Nat × Nat × Nat × Nat)}

/-- R178: what a list of elements leaves in a tile without poison, where no block met has any. -/
theorem foldl_accumCell (hbad : ∀ row col v, (accumElem ra rb a b us row col v).bad = false) {cells : List (Nat × Nat)}
    (hnd : cells.Nodup) (hcols : ∀ rc ∈ cells, rc.2 < 64) {acc : Tile × Flags × Bool} (hp : acc.1.poison = []) :
    let r := cells.foldl (accumCell ra rb a b us) acc
    r.2.2 = acc.2.2 ∧ ∀ row col, col < 64 → mapGet 0 r.1.elems (row * 64 + col) =
      if (row, col) ∈ cells then (accumElem ra rb a b us row col (mapGet 0 acc.1.elems (row * 64 + col))).val
      else mapGet 0 acc.1.elems (row * 64 + col) := by
  induction cells generalizing acc with
  | nil => exact ⟨rfl, fun row col _ => (if_neg List.not_mem_nil).symm⟩
  | cons rc cells ih =>
    obtain ⟨hnew, hnd⟩ := List.nodup_cons.mp hnd
    obtain ⟨hflag, helems⟩ := ih hnd (fun x hx => hcols x (by simp [hx])) (acc := accumCell ra rb a b us acc rc) hp
    have hrc : rc.2 < 64 := hcols rc (by simp)
    refine ⟨hflag.trans (by simp [accumCell, hbad, hp, memNat]), fun row col hcol => (helems row col hcol).trans ?_⟩
    have hkey : (row * 64 + col = elemKey rc.1 rc.2) = ((row, col) = rc) := by
      rw [elemKey, Prod.ext_iff]
      apply propext
      dsimp only
      omega
    have hread : mapGet 0 (accumCell ra rb a b us acc rc).1.elems (row * 64 + col) =
        if (row, col) = rc then (accumElem ra rb a b us rc.1 rc.2 (mapGet 0 acc.1.elems (elemKey rc.1 rc.2))).val
        else mapGet 0 acc.1.elems (row * 64 + col) := by
      simp only [accumCell, mapGet_mapSet, hkey]
    rw [hread]
    by_cases hhead : (row, col) = rc
    · subst hhead
      simp [hnew, elemKey]
    · simp [hhead]

/-- R58, R59, R178: a product of plain blocks of integer formats on a tile without poison: every element of the active rows and of
the columns has its sum of products added, and no poison was met. -/
theorem accumTile_integer (ha : ra.fmt ∈ [0, 2]) (hb : rb.fmt ∈ [0, 2]) (hk : (ra.korg + rb.korg) % 2 = 0) (hm : rb.mext ≤ 64)
    (hpa : ∀ p ∈ a.blocks, PlainBlock p.2) (hpb : ∀ p ∈ b.blocks, PlainBlock p.2) (n : Nat) (em : W) {x : Tile} (hx : x.poison = []) :
    (accumTile ra rb a b n em x).2.2 = false ∧ ∀ row col, col < 64 →
      mapGet 0 (accumTile ra rb a b n em x).1.elems (row * 64 + col) =
        if row < 32 ∧ inMask em row ∧ row < ra.mext ∧ col < rb.mext then
          BitVec.ofInt 32 ((mapGet 0 x.elems (row * 64 + col)).toInt + stepSum ra rb a b n row col)
        else mapGet 0 x.elems (row * 64 + col) := by
  have helem := accumElem_integer ha hb hpa hpb (unitsFrom rb.korg ra.korg n)
  have hcols : ∀ rc ∈ accumCells ra rb em, rc.2 < 64 := fun rc hrc => by
    have := (mem_accumCells ra rb em rc.1 rc.2).mp hrc
    omega
  obtain ⟨hbad, hval⟩ := foldl_accumCell (acc := (x, 0, false)) (fun row col v => (helem row col v).2) (nodup_accumCells ra rb em) hcols hx
  rw [accumTile_eq]
  refine ⟨hbad, fun row col hcol => (hval row col hcol).trans ?_⟩
  rw [(helem row col _).1, sum_units hpa hk]
  simp only [mem_accumCells]

end

section
variable {s : State} {g : Group} {c : TileCmd}

/-- R58, R59, R178: a product of integer formats is added to the elements of the active rows of its tile. -/
theorem mmk_completes {t ha hb n : Nat} {a0 a1 b0 b1 : W64} {a b : Reservation} (hop : c.op = .mmk t ha hb a0 a1 b0 b1 n)
    (hh : TileHead s g c t) (hra : resOf? s c.span c.core ha = some a) (hrb : resOf? s c.span c.core hb = some b)
    (hfa : (resRec a0 a1).fmt ∈ [0, 2]) (hfb : (resRec b0 b1).fmt ∈ [0, 2])
    (hk : ((resRec a0 a1).korg + (resRec b0 b1).korg) % 2 = 0) (hm : (resRec b0 b1).mext ≤ 64)
    (hpoison : (tileOf s c.span c.core t).poison = []) (hblocks : ∀ p ∈ a.blocks ++ b.blocks, PlainBlock p.2) :
    ∃ u h, exec (.tileOpComplete c.die c.core) s = .next u ∧ TileDone s u g h c ∧ h.regs = g.regs ∧
      ∀ row col, col < 64 → mapGet 0 (tileOf u c.span c.core t).elems (row * 64 + col) =
        let old := mapGet 0 (tileOf s c.span c.core t).elems (row * 64 + col)
        if row < 32 ∧ inMask c.em row ∧ row < (resRec a0 a1).mext ∧ col < (resRec b0 b1).mext then
          BitVec.ofInt 32 (old.toInt + stepSum (resRec a0 a1) (resRec b0 b1) a b n row col)
        else old := by
  obtain ⟨hbad, hval⟩ := accumTile_integer hfa hfb hk hm (fun p hp => hblocks p (List.mem_append_left _ hp))
    (fun p hp => hblocks p (List.mem_append_right _ hp)) n c.em hpoison
  obtain ⟨u, hexec, hdone, hspans⟩ := tileHead_finishes hh
    (tileHead_modTile hh t (fun _ => (accumTile (resRec a0 a1) (resRec b0 b1) a b n c.em (tileOf s c.span c.core t)).1))
    (fl := (accumTile (resRec a0 a1) (resRec b0 b1) a b n c.em (tileOf s c.span c.core t)).2.1) (by
      rw [runTile, hop]
      dsimp only
      rw [runPair, hra, hrb]
      dsimp only
      rw [hbad])
  refine ⟨u, _, hexec, hdone, rfl, fun row col hcol => ?_⟩
  rw [tileOf_congr hspans, tileHead_tileOf_modTile hh, hval row col hcol]

end

/-- Settles O24: each clause by the lemma on its operation. -/
theorem tileOperationsComplete : Obligations.TileOperationsComplete := by
  unfold Obligations.TileOperationsComplete
  intro s g c
  refine ⟨?_, ?_, ?_, ?_, ?_⟩
  · intro t ha hb a0 a1 b0 b1 n a b hop hh hra hrb hfa hfb hk hm hpoison hblocks
    exact mmk_completes hop hh hra hrb hfa hfb hk hm hpoison hblocks
  · intro t hop hh
    exact mzero_completes hop hh
  · intro t d gi hop hh hpoison
    exact mdrain_completes hop hh hpoison
  · intro t d hop hh
    exact mstatTile_completes hop hh
  · intro t thr d hop hh
    obtain ⟨u, h, hexec, hdone, hregs, hsregs⟩ := msuggest_completes hop hh
    refine ⟨u, h, hexec, hdone, hregs, fun r => ?_⟩
    rw [hsregs r, suggestion, rowSum_eq, rowSum_eq]

end Sys2Proof.Machine
end

section
/-! The decoder and the encoder are each other's inverse (R62, R68, R75 to R88). -/

namespace Sys2Proof

open Sys2Proof.Machine

/-- R68, R99: a source operand b that is written as the field code and the literal words lits, and is read back from them: the field c,
the greatest, calls for a literal, and no other does. -/
structure Source {β : Type} (read : Nat → W → β) (c code : Nat) (lits : List W) (b : β) : Prop where
  reads : ∀ x lit, read x lit = b ↔ x = code ∧ ∀ w ∈ lits, w = lit
  le : code ≤ c
  called : (code = c ∧ ∃ w, lits = [w]) ∨ (code ≠ c ∧ lits = [])

theorem Source.ofRegister {β : Type} {read : Nat → W → β} {c code : Nat} {b : β} (hcode : code < c)
    (h : ∀ x lit, read x lit = b ↔ x = code) : Source read c code [] b :=
  ⟨by simpa using h, hcode.le, .inr ⟨hcode.ne, rfl⟩⟩

theorem Source.ofLiteral {β : Type} {read : Nat → W → β} {c : Nat} {w : W} {b : β}
    (h : ∀ x lit, read x lit = b ↔ x = c ∧ w = lit) : Source read c c [w] b :=
  ⟨by simpa using h, le_rfl, .inl ⟨rfl, w, rfl⟩⟩

theorem VSrc.source {a : VSrc} {sh : Nat} (h : a.wf sh = true) : Source getVSrc 127 a.code a.lits a := by
  cases a with
  | reg n =>
    have hn : n < 127 := (of_decide_eq_true h).1
    refine .ofRegister hn fun x lit => ?_
    unfold getVSrc
    split_ifs <;> simp [VSrc.code]
    omega
  | lit w =>
    refine .ofLiteral fun x lit => ?_
    unfold getVSrc
    split_ifs with hx <;> simp [hx, eq_comm]

theorem SSrc.source {a : SSrc} (h : a.wf = true) : Source getSSrc 127 a.code a.lits a := by
  cases a with
  | reg n =>
    have hn : n < 64 := of_decide_eq_true h
    refine .ofRegister (by omega : n < 127) fun x lit => ?_
    unfold getSSrc
    split_ifs <;> simp [SSrc.code]
    omega
  | lit w =>
    refine .ofLiteral fun x lit => ?_
    unfold getSSrc
    split_ifs with hx <;> simp [hx, eq_comm]

/-- R75, R99: the fields b and S together as a second source. -/
def readBSrc (z : Nat) (lit : W) : BSrc := getBSrc (z / 2) (z % 2) lit

theorem BSrc.source {b : BSrc} {sh : Nat} (h : b.wf sh = true) : Source readBSrc 254 b.code b.lits b := by
  cases b with
  | reg n =>
    have hn : n < 127 := (of_decide_eq_true h).1
    refine .ofRegister (by omega : n * 2 < 254) fun z lit => ?_
    unfold readBSrc getBSrc
    split_ifs <;> simp [BSrc.code] <;> omega
  | sca n =>
    have hn : n < 64 := of_decide_eq_true h
    refine .ofRegister (by omega : n * 2 + 1 < 254) fun z lit => ?_
    unfold readBSrc getBSrc
    split_ifs <;> simp [BSrc.code] <;> omega
  | lit w =>
    refine .ofLiteral fun z lit => ?_
    unfold readBSrc getBSrc
    split_ifs <;> simp [eq_comm] <;> omega

section
variable {β γ : Type} {ra : Nat → W → β} {ca ka : Nat} {la : List W} {a : β} {rb : Nat → W → γ} {cb kb : Nat} {lb : List W}
  {b : γ}

/-- R68: a source is read from its field and the literal that the field calls for exactly if they are what it is written as. -/
theorem Source.one (h : Source ra ca ka la a) (x : Nat) (l : Option W) :
    ((x == ca) = l.isSome ∧ ra x (l.getD 0) = a) ↔ (x = ka ∧ la = l.toList) := by
  rw [h.reads]
  by_cases hx : x = ka
  · obtain ⟨hk, w, rfl⟩ | ⟨hk, rfl⟩ := h.called <;> cases l <;> simp [hx, hk]
  · simp [hx]

/-- R68: the same for two sources of which at most one is a literal. -/
theorem Source.two (ha : Source ra ca ka la a) (hb : Source rb cb kb lb b) (hab : la = [] ∨ lb = []) (x y : Nat) (l : Option W) :
    ((x == ca || y == cb) = l.isSome ∧ ra x (l.getD 0) = a ∧ rb y (l.getD 0) = b) ↔ (x = ka ∧ y = kb ∧ la ++ lb = l.toList) := by
  rw [ha.reads, hb.reads]
  by_cases hxy : x = ka ∧ y = kb
  · obtain ⟨hk, w, rfl⟩ | ⟨hk, rfl⟩ := ha.called <;> obtain ⟨hk', w', rfl⟩ | ⟨hk', rfl⟩ := hb.called <;>
      cases l <;> simp_all
  · grind

end

/-- R68, R75 to R86: the operands o are written as low bits of 22 bits and at most one literal, and low bits with the literal that they
call for are read as o exactly if they are what o is written as. -/
structure RoundTrip {α : Type} (fm : Form) (get : Nat → W → Option α) (put : α → Nat × List W) (o : α) : Prop where
  low_lt : (put o).1 < 2 ^ 22
  lits : (put o).2.length ≤ 1
  agree : ∀ (f : Nat) (l : Option W), f < 2 ^ 22 →
    (fm.callsLiteral f = l.isSome ∧ get f (l.getD 0) = some o ↔ put o = (f, l.toList))

section
variable {α β γ : Type} {fm : Form} {get : Nat → W → Option α} {put : α → Nat × List W} {o : α}
  {ra : Nat → W → β} {ca ka : Nat} {la : List W} {a : β} {rb : Nat → W → γ} {cb kb : Nat} {lb : List W} {b : γ}

/-- A format without a source. -/
theorem RoundTrip.noSource (hcall : ∀ f, fm.callsLiteral f = false) (hlits : (put o).2 = []) (hlow : (put o).1 < 2 ^ 22)
    (hget : ∀ f < 2 ^ 22, ∀ lit, get f lit = some o ↔ (put o).1 = f) : RoundTrip fm get put o where
  low_lt := hlow
  lits := by simp [hlits]
  agree f l hf := by cases l <;> simp [hcall, hget f hf, Prod.ext_iff, hlits]

/-- A format whose field x is a source and whose other fields are P. -/
theorem RoundTrip.oneSource (ha : Source ra ca ka la a) (x : Nat → Nat) (P : Nat → Prop)
    (hcall : ∀ f, fm.callsLiteral f = (x f == ca)) (hlits : (put o).2 = la) (hlow : (put o).1 < 2 ^ 22)
    (hput : ∀ f < 2 ^ 22, (put o).1 = f ↔ P f ∧ x f = ka)
    (hget : ∀ f lit, get f lit = some o ↔ P f ∧ ra (x f) lit = a) : RoundTrip fm get put o where
  low_lt := hlow
  lits := by obtain ⟨-, w, h⟩ | ⟨-, h⟩ := ha.called <;> simp [hlits, h]
  agree f l hf := by rw [Prod.ext_iff, hput f hf, hlits, hget, hcall, and_assoc, ← ha.one, and_left_comm]

/-- A format whose fields x and y are sources and whose other fields are P. -/
theorem RoundTrip.twoSources (ha : Source ra ca ka la a) (hb : Source rb cb kb lb b) (hab : la = [] ∨ lb = []) (x y : Nat → Nat)
    (P : Nat → Prop) (hcall : ∀ f, fm.callsLiteral f = (x f == ca || y f == cb)) (hlits : (put o).2 = la ++ lb)
    (hlow : (put o).1 < 2 ^ 22) (hput : ∀ f < 2 ^ 22, (put o).1 = f ↔ P f ∧ x f = ka ∧ y f = kb)
    (hget : ∀ f lit, get f lit = some o ↔ P f ∧ ra (x f) lit = a ∧ rb (y f) lit = b) : RoundTrip fm get put o where
  low_lt := hlow
  lits := by
    obtain ⟨-, w, h⟩ | ⟨-, h⟩ := ha.called <;> obtain ⟨-, w', h'⟩ | ⟨-, h'⟩ := hb.called <;> simp_all
  agree f l hf := by
    rw [Prod.ext_iff, hput f hf, hlits, hget, hcall, and_assoc, and_assoc, ← ha.two hb hab, and_left_comm]

end

/-! The fields of the V and M formats. -/

/-- R75: the fields d, a, and b with S, of the V format. -/
theorem vWord_iff {f d x z : Nat} (hf : f < 2 ^ 22) (hx : x ≤ 127) (hz : z < 256) :
    d * 2 ^ 15 + x * 2 ^ 8 + z = f ↔ bitsOf f 21 15 = d ∧ bitsOf f 14 8 = x ∧ bitsOf f 7 0 = z := by
  simp only [bitsOf, Nat.reducePow, Nat.reduceAdd, Nat.reduceSub]
  omega

/-- R78: the fields of the M format. -/
theorem mWord_iff {f d b x k : Nat} (hf : f < 2 ^ 22) (hb : b < 64) (hx : x ≤ 127) (hk : k < 4) :
    d * 2 ^ 15 + (b * 2 ^ 9 + x * 2 ^ 2 + k) = f ↔
      bitsOf f 21 15 = d ∧ bitsOf f 14 9 = b ∧ bitsOf f 8 2 = x ∧ bitsOf f 1 0 = k := by
  simp only [bitsOf, Nat.reducePow, Nat.reduceAdd, Nat.reduceSub]
  omega

/-- R75: field b with S = 0 is code 127 exactly if both fields together are 254. -/
theorem callsLiteral_ab (f : Nat) :
    (bitsOf f 14 8 == 127 || (bitsOf f 7 1 == 127 && bitsOf f 0 0 == 0)) = (bitsOf f 14 8 == 127 || bitsOf f 7 0 == 254) := by
  rw [Bool.eq_iff_iff]
  simp only [bitsOf, Nat.reducePow, Nat.reduceAdd, Nat.reduceSub, Bool.and_eq_true, Bool.or_eq_true, beq_iff_eq]
  omega

/-- R75: the fields b and S are the two parts of the low byte. -/
theorem bitsOf_bS (f : Nat) : bitsOf f 7 1 = bitsOf f 7 0 / 2 ∧ bitsOf f 0 0 = bitsOf f 7 0 % 2 := by
  simp only [bitsOf, Nat.reducePow, Nat.reduceAdd, Nat.reduceSub]
  omega

section
variable {α β γ : Type} {fm : Form} {get : Nat → W → Option α} {put : α → Nat × List W} {o : α}
  {ra : Nat → W → β} {ka : Nat} {la : List W} {a : β} {rb : Nat → W → γ} {kb : Nat} {lb : List W} {b : γ}
  {d z base scale : Nat}

/-- R75: operands of the V format with sources a and b. -/
theorem RoundTrip.vab (ha : Source ra 127 ka la a) (hb : Source rb 254 kb lb b) (hab : la = [] ∨ lb = []) (hd : d < 128)
    (hcall : ∀ f, fm.callsLiteral f = (bitsOf f 14 8 == 127 || bitsOf f 7 0 == 254))
    (hput : put o = (d * 2 ^ 15 + ka * 2 ^ 8 + kb, la ++ lb))
    (hget : ∀ f lit, get f lit = some o ↔ bitsOf f 21 15 = d ∧ ra (bitsOf f 14 8) lit = a ∧ rb (bitsOf f 7 0) lit = b) :
    RoundTrip fm get put o := by
  have hla := ha.le
  have hlb := hb.le
  refine .twoSources ha hb hab (bitsOf · 14 8) (bitsOf · 7 0) (bitsOf · 21 15 = d) hcall ?_ ?_ (fun f hf => ?_) hget
  · rw [hput]
  · rw [hput]; dsimp only; omega
  · rw [hput]; exact vWord_iff hf hla (by omega)

/-- R75, R77: operands of the V format with source a, whose other fields make the low byte z. -/
theorem RoundTrip.va (ha : Source ra 127 ka la a) (hd : d < 128) (hz : z < 256)
    (hcall : ∀ f, fm.callsLiteral f = (bitsOf f 14 8 == 127)) (hput : put o = (d * 2 ^ 15 + ka * 2 ^ 8 + z, la))
    (hget : ∀ f lit, get f lit = some o ↔ (bitsOf f 21 15 = d ∧ bitsOf f 7 0 = z) ∧ ra (bitsOf f 14 8) lit = a) :
    RoundTrip fm get put o := by
  have hla := ha.le
  refine .oneSource ha (bitsOf · 14 8) (fun f => bitsOf f 21 15 = d ∧ bitsOf f 7 0 = z) hcall ?_ ?_ (fun f hf => ?_) hget
  · rw [hput]
  · rw [hput]; dsimp only; omega
  · rw [hput, vWord_iff hf hla hz]; tauto

/-- R75: operands of the V format with source a and nothing else. -/
theorem RoundTrip.vaOnly (ha : Source ra 127 ka la a) (hd : d < 128) (hcall : ∀ f, fm.callsLiteral f = (bitsOf f 14 8 == 127))
    (hput : put o = (d * 2 ^ 15 + ka * 2 ^ 8, la))
    (hget : ∀ f lit, get f lit = some o ↔ bitsOf f 7 0 = 0 ∧ bitsOf f 21 15 = d ∧ ra (bitsOf f 14 8) lit = a) :
    RoundTrip fm get put o :=
  .va ha hd (by decide : 0 < 256) hcall (by rw [hput, Nat.add_zero]) fun f lit => by rw [hget]; tauto

/-- R76, R77: operands of the V format without a source. -/
theorem RoundTrip.vRegs {x : Nat} (hd : d < 128) (hx : x < 128) (hz : z < 256) (hcall : ∀ f, fm.callsLiteral f = false)
    (hput : put o = (d * 2 ^ 15 + x * 2 ^ 8 + z, []))
    (hget : ∀ f lit, get f lit = some o ↔ bitsOf f 21 15 = d ∧ bitsOf f 14 8 = x ∧ bitsOf f 7 0 = z) : RoundTrip fm get put o := by
  refine .noSource hcall ?_ ?_ fun f hf lit => ?_
  · rw [hput]
  · rw [hput]; dsimp only; omega
  · rw [hput, hget, vWord_iff hf (by omega) hz]

/-- R78: operands of the M format with its offset. -/
theorem RoundTrip.mem (ha : Source ra 127 ka la a) (hd : d < 128) (hbase : base < 64) (hscale : scale < 4)
    (hcall : ∀ f, fm.callsLiteral f = (bitsOf f 8 2 == 127))
    (hput : put o = (d * 2 ^ 15 + (base * 2 ^ 9 + ka * 2 ^ 2 + scale), la))
    (hget : ∀ f lit, get f lit = some o ↔
      (bitsOf f 21 15 = d ∧ bitsOf f 14 9 = base ∧ bitsOf f 1 0 = scale) ∧ ra (bitsOf f 8 2) lit = a) :
    RoundTrip fm get put o := by
  have hla := ha.le
  refine .oneSource ha (bitsOf · 8 2) (fun f => bitsOf f 21 15 = d ∧ bitsOf f 14 9 = base ∧ bitsOf f 1 0 = scale) hcall ?_ ?_
    (fun f hf => ?_) hget
  · rw [hput]
  · rw [hput]; dsimp only; omega
  · rw [hput, mWord_iff hf hbase hla hscale]; tauto

/-- R78, R151: operands of the M format with a data source and an offset. -/
theorem RoundTrip.dataMem (ha : Source ra 127 ka la a) (hb : Source rb 127 kb lb b) (hab : la = [] ∨ lb = []) (hbase : base < 64)
    (hscale : scale < 4) (hcall : ∀ f, fm.callsLiteral f = (bitsOf f 8 2 == 127 || bitsOf f 21 15 == 127))
    (hput : put o = (ka * 2 ^ 15 + (base * 2 ^ 9 + kb * 2 ^ 2 + scale), la ++ lb))
    (hget : ∀ f lit, get f lit = some o ↔
      (bitsOf f 14 9 = base ∧ bitsOf f 1 0 = scale) ∧ ra (bitsOf f 21 15) lit = a ∧ rb (bitsOf f 8 2) lit = b) :
    RoundTrip fm get put o := by
  have hla := ha.le
  have hlb := hb.le
  refine .twoSources ha hb hab (bitsOf · 21 15) (bitsOf · 8 2) (fun f => bitsOf f 14 9 = base ∧ bitsOf f 1 0 = scale)
    (fun f => by rw [hcall, Bool.or_comm]) ?_ ?_ (fun f hf => ?_) hget
  · rw [hput]
  · rw [hput]; dsimp only; omega
  · rw [hput, mWord_iff hf hbase hlb hscale]; tauto

end

/-! The formats, each with the checks on its operands. -/

theorem V3.roundTrip (o : V3) {sd sa sb : Nat} (h : o.wf sd sa sb = true) : RoundTrip .vab getV3 putV3 o := by
  obtain ⟨d, a, b⟩ := o
  simp only [V3.wf, regOk, Bool.and_eq_true, decide_eq_true_eq] at h
  obtain ⟨⟨⟨hd, ha⟩, hb⟩, hab⟩ := h
  refine .vab (VSrc.source ha) (BSrc.source hb) ?_ (by omega : d < 128) callsLiteral_ab rfl fun f lit => ?_
  · cases a <;> cases b <;> simp_all [VSrc.lits, BSrc.lits, VSrc.isLit, BSrc.isLit]
  · simp [getV3, readBSrc, bitsOf_bS]

theorem K3.roundTrip (o : K3) {sa sb : Nat} (h : o.wf sa sb = true) : RoundTrip .kab getK3 putK3 o := by
  obtain ⟨k, a, b⟩ := o
  simp only [K3.wf, Bool.and_eq_true, decide_eq_true_eq] at h
  obtain ⟨⟨⟨hk, ha⟩, hb⟩, hab⟩ := h
  refine .vab (VSrc.source ha) (BSrc.source hb) ?_ (by omega : k < 128) callsLiteral_ab rfl fun f lit => ?_
  · cases a <;> cases b <;> simp_all [VSrc.lits, BSrc.lits, VSrc.isLit, BSrc.isLit]
  · simp [getK3, readBSrc, bitsOf_bS]

/-- R134: the fields b and S of an exchange. -/
def readUSrc (z : Nat) (lit : W) : Option USrc :=
  if z % 2 = 1 then some (.sca (z / 2)) else if z / 2 = 127 then some (.lit lit) else none

theorem USrc.source {b : USrc} (h : b.wf = true) : Source readUSrc 254 b.code b.lits (some b) := by
  cases b with
  | sca n =>
    have hn : n < 64 := of_decide_eq_true h
    refine .ofRegister (by omega : n * 2 + 1 < 254) fun z lit => ?_
    unfold readUSrc
    split_ifs <;> simp [USrc.code] <;> omega
  | lit w =>
    refine .ofLiteral fun z lit => ?_
    unfold readUSrc
    split_ifs <;> simp [eq_comm] <;> omega

theorem X3.roundTrip (o : X3) {sh : Nat} (h : o.wf sh = true) : RoundTrip .vab getX3 putX3 o := by
  obtain ⟨d, a, b⟩ := o
  simp only [X3.wf, regOk, Bool.and_eq_true, decide_eq_true_eq] at h
  obtain ⟨⟨⟨hd, ha⟩, hb⟩, hab⟩ := h
  refine .vab (VSrc.source ha) (USrc.source hb) ?_ (by omega : d < 128) callsLiteral_ab rfl fun f lit => ?_
  · cases a <;> cases b <;> simp_all [VSrc.lits, USrc.lits, VSrc.isLit, USrc.isLit]
  · simp only [getX3, readUSrc, bitsOf_bS]
    split_ifs <;> simp

/-- R130: the field b of a scalar instruction, whose S is zero. -/
def readZeroS (z : Nat) (lit : W) : Option SSrc := if z % 2 = 0 then some (getSSrc (z / 2) lit) else none

theorem SSrc.source_zeroS {b : SSrc} (h : b.wf = true) : Source readZeroS 254 (b.code * 2) b.lits (some b) := by
  obtain ⟨hreads, hle, hcalled⟩ := SSrc.source h
  refine ⟨fun x lit => ?_, by omega, hcalled.imp (fun h => ⟨by omega, h.2⟩) fun h => ⟨by omega, h.2⟩⟩
  unfold readZeroS
  split_ifs <;> simp [hreads] <;> omega

theorem S3.roundTrip (o : S3) (h : o.wf = true) : RoundTrip .sab getS3 putS3 o := by
  obtain ⟨d, a, b⟩ := o
  simp only [S3.wf, Bool.and_eq_true, decide_eq_true_eq] at h
  obtain ⟨⟨⟨hd, ha⟩, hb⟩, hab⟩ := h
  refine .vab (SSrc.source ha) (SSrc.source_zeroS hb) ?_ (by omega : d < 128) callsLiteral_ab rfl fun f lit => ?_
  · cases a <;> cases b <;> simp_all [SSrc.lits, SSrc.isLit]
  · simp only [getS3, readZeroS, bitsOf_bS]
    split_ifs <;> simp

theorem V2.roundTrip (o : V2) {sd sa : Nat} (h : o.wf sd sa = true) : RoundTrip .va getV2 putV2 o := by
  obtain ⟨d, a⟩ := o
  simp only [V2.wf, regOk, Bool.and_eq_true, decide_eq_true_eq] at h
  exact .vaOnly (VSrc.source h.2) (by omega : d < 128) (fun _ => rfl) rfl fun f lit => by simp [getV2]

theorem MnzOp.roundTrip (o : MnzOp) (h : o.wf = true) : RoundTrip .va getMnz putMnz o := by
  obtain ⟨k, a⟩ := o
  simp only [MnzOp.wf, Bool.and_eq_true, decide_eq_true_eq] at h
  exact .vaOnly (VSrc.source h.2) (by omega : k < 128) (fun _ => rfl) rfl fun f lit => by simp [getMnz]

theorem MaskFrom.roundTrip (o : MaskFrom) (h : o.wf = true) : RoundTrip .sa getMF putMF o := by
  obtain ⟨k, a⟩ := o
  simp only [MaskFrom.wf, Bool.and_eq_true, decide_eq_true_eq] at h
  exact .vaOnly (SSrc.source h.2) (by omega : k < 128) (fun _ => rfl) rfl fun f lit => by simp [getMF]

theorem S2.roundTrip (o : S2) (h : o.wf = true) : RoundTrip .sa getS2 putS2 o := by
  obtain ⟨d, a⟩ := o
  simp only [S2.wf, Bool.and_eq_true, decide_eq_true_eq] at h
  exact .vaOnly (SSrc.source h.2) (by omega : d < 128) (fun _ => rfl) rfl fun f lit => by simp [getS2]

theorem bit01_le (b : Bool) : bit01 b ≤ 1 := by cases b <;> decide

/-- A flag is the field of one bit that holds it. -/
theorem flag_iff (f i : Nat) (b : Bool) : (bitsOf f i i == 1) = b ↔ bitsOf f i i = bit01 b := by
  have h : bitsOf f i i < 2 := by simp only [bitsOf, Nat.add_sub_cancel_left, pow_one]; omega
  cases b <;> simp [bit01]
  omega

/-- R77: the fields round and sat and the zeros below them make the low byte. -/
theorem roundByte_iff {f rnd : Nat} (sat : Bool) : bitsOf f 7 0 = rnd * 2 ^ 5 + bit01 sat * 2 ^ 4 ↔
    bitsOf f 3 0 = 0 ∧ bitsOf f 7 5 = rnd ∧ bitsOf f 4 4 = bit01 sat := by
  have := bit01_le sat
  simp only [bitsOf, Nat.reducePow, Nat.reduceAdd, Nat.reduceSub]
  omega

theorem C2.roundTrip (o : C2) {sd sa : Nat} {satOk : Bool} (h : o.wf sd sa satOk = true) : RoundTrip .va getC2 putC2 o := by
  obtain ⟨d, a, rnd, sat⟩ := o
  simp only [C2.wf, regOk, Bool.and_eq_true, decide_eq_true_eq] at h
  obtain ⟨⟨⟨hd, ha⟩, hrnd⟩, -⟩ := h
  have := bit01_le sat
  refine .va (VSrc.source ha) (by omega : d < 128) (by omega : rnd * 2 ^ 5 + bit01 sat * 2 ^ 4 < 256) (fun _ => rfl)
    (by rw [putC2, Nat.add_assoc]) fun f lit => ?_
  simp only [getC2, Option.ite_none_right_eq_some, Option.some.injEq, C2.mk.injEq, flag_iff, roundByte_iff]
  tauto

theorem U2.roundTrip (o : U2) {elems : Nat} (h : o.wf elems = true) (he : elems ≤ 4 := by decide) : RoundTrip .va getU2 putU2 o := by
  obtain ⟨d, a, elem⟩ := o
  simp only [U2.wf, regOk, Bool.and_eq_true, decide_eq_true_eq] at h
  obtain ⟨⟨hd, ha⟩, helem⟩ := h
  refine .va (VSrc.source ha) (by omega : d < 128) (by omega : elem * 2 < 256) (fun _ => rfl) rfl fun f lit => ?_
  have hz : bitsOf f 7 0 = elem * 2 ↔ (bitsOf f 7 3 = 0 ∧ bitsOf f 0 0 = 0) ∧ bitsOf f 2 1 = elem := by
    simp only [bitsOf, Nat.reducePow, Nat.reduceAdd, Nat.reduceSub]
    omega
  simp only [getU2, Option.ite_none_right_eq_some, Option.some.injEq, U2.mk.injEq, hz]
  tauto

theorem P2.roundTrip (o : P2) {rndOk : Bool} (h : o.wf rndOk = true) : RoundTrip .pack getP2 putP2 o := by
  obtain ⟨d, a, rnd, sat⟩ := o
  simp only [P2.wf, regOk, Bool.and_eq_true, decide_eq_true_eq] at h
  obtain ⟨⟨⟨hd, ha⟩, hrnd⟩, -⟩ := h
  have := bit01_le sat
  refine .vRegs (by omega : d < 128) (by omega : a < 128) (by omega : rnd * 2 ^ 5 + bit01 sat * 2 ^ 4 < 256) (fun _ => rfl)
    (by rw [putP2, Nat.add_assoc]) fun f lit => ?_
  simp only [getP2, Option.ite_none_right_eq_some, Option.some.injEq, P2.mk.injEq, flag_iff, roundByte_iff]
  tauto

theorem M3.roundTrip (o : M3) (h : o.wf = true) : RoundTrip .masks getM3 putM3 o := by
  obtain ⟨k, a, b⟩ := o
  simp only [M3.wf, decide_eq_true_eq] at h
  refine .vRegs (by omega : k < 128) (by omega : a < 128) (by omega : b * 2 < 256) (fun _ => rfl) rfl fun f lit => ?_
  simp only [getM3, Option.ite_none_right_eq_some, Option.some.injEq, M3.mk.injEq, bitsOf_bS]
  omega

theorem M2.roundTrip (o : M2) (h : o.wf = true) : RoundTrip .masks getM2 putM2 o := by
  obtain ⟨k, a⟩ := o
  simp only [M2.wf, decide_eq_true_eq] at h
  refine .vRegs (by omega : k < 128) (by omega : a < 128) (by decide : 0 < 256) (fun _ => rfl) (by simp only [putM2, Nat.add_zero])
    fun f lit => ?_
  simp only [getM2, Option.ite_none_right_eq_some, Option.some.injEq, M2.mk.injEq]
  tauto

theorem MaskToScalar.roundTrip (o : MaskToScalar) (h : o.wf = true) : RoundTrip .masks getMS putMS o := by
  obtain ⟨d, a⟩ := o
  simp only [MaskToScalar.wf, decide_eq_true_eq] at h
  refine .vRegs (by omega : d < 128) (by omega : a < 128) (by decide : 0 < 256) (fun _ => rfl) (by simp only [putMS, Nat.add_zero])
    fun f lit => ?_
  simp only [getMS, Option.ite_none_right_eq_some, Option.some.injEq, MaskToScalar.mk.injEq]
  tauto

theorem CpOp.roundTrip (o : CpOp) {ntOk : Bool} (h : o.wf ntOk = true) : RoundTrip .plain getCp putCp o := by
  obtain ⟨src, dst, bar, size, nt, acc⟩ := o
  simp only [CpOp.wf, regOk, Bool.and_eq_true, decide_eq_true_eq] at h
  obtain ⟨⟨⟨⟨hsrc, hdst⟩, hbs⟩, -⟩, -⟩ := h
  have := bit01_le nt
  have := bit01_le acc
  refine .noSource (fun _ => rfl) rfl (by simp only [putCp]; omega) fun f hf lit => ?_
  simp only [getCp, putCp, Option.some.injEq, CpOp.mk.injEq, flag_iff]
  simp only [bitsOf, Nat.reducePow, Nat.reduceAdd, Nat.reduceSub]
  omega

/-! The M format. -/

theorem LdOp.roundTrip (o : LdOp) {sh : Nat} (h : o.wf sh = true) : RoundTrip .mem getLd putLd o := by
  obtain ⟨d, base, off, scale⟩ := o
  simp only [LdOp.wf, MAddr.wf, regOk, Bool.and_eq_true, decide_eq_true_eq] at h
  obtain ⟨hd, hm, hoff⟩ := h
  refine .mem (VSrc.source hoff) (by omega : d < 128) hm.1 hm.2 (fun _ => rfl) rfl fun f lit => ?_
  simp only [getLd, getMAddr, Option.some.injEq, LdOp.mk.injEq, MAddr.mk.injEq]
  tauto

theorem CasOp.roundTrip (o : CasOp) {sh : Nat} (h : o.wf sh = true) : RoundTrip .mem getCas putCas o := by
  obtain ⟨d, base, off, scale⟩ := o
  simp only [CasOp.wf, MAddr.wf, regOk, Bool.and_eq_true, decide_eq_true_eq] at h
  obtain ⟨hd, hm, hoff⟩ := h
  refine .mem (VSrc.source hoff) (by omega : d < 128) hm.1 hm.2 (fun _ => rfl) rfl fun f lit => ?_
  simp only [getCas, getMAddr, Option.some.injEq, CasOp.mk.injEq, MAddr.mk.injEq]
  tauto

theorem AtestOp.roundTrip (o : AtestOp) (h : o.wf = true) : RoundTrip .mem getAtest putAtest o := by
  obtain ⟨k, base, off, scale⟩ := o
  simp only [AtestOp.wf, MAddr.wf, Bool.and_eq_true, decide_eq_true_eq] at h
  obtain ⟨hk, hm, hoff⟩ := h
  refine .mem (VSrc.source hoff) (by omega : k < 128) hm.1 hm.2 (fun _ => rfl) rfl fun f lit => ?_
  simp only [getAtest, getMAddr, Option.some.injEq, AtestOp.mk.injEq, MAddr.mk.injEq]
  tauto

theorem PfOp.roundTrip (o : PfOp) (h : o.wf = true) : RoundTrip .mem getPf putPf o := by
  obtain ⟨base, off, scale⟩ := o
  simp only [PfOp.wf, MAddr.wf, Bool.and_eq_true, decide_eq_true_eq] at h
  obtain ⟨hm, hoff⟩ := h
  refine .mem (VSrc.source hoff) (by decide : 0 < 128) hm.1 hm.2 (fun _ => rfl) (by simp [putPf, MAddr.code]) fun f lit => ?_
  simp only [getPf, getMAddr, Option.ite_none_right_eq_some, Option.some.injEq, PfOp.mk.injEq, MAddr.mk.injEq]
  tauto

/-- R147, R148: an offset that is always the literal. -/
def readLit (x : Nat) (lit : W) : Option W := if x = 127 then some lit else none

theorem literal_source (w : W) : Source readLit 127 127 [w] (some w) :=
  .ofLiteral fun x lit => by simp [readLit, eq_comm]

theorem LpOp.roundTrip (o : LpOp) {sh : Nat} (h : o.wf sh = true) : RoundTrip .mem getLp putLp o := by
  obtain ⟨d, win, off, scale⟩ := o
  simp only [LpOp.wf, regOk, Bool.and_eq_true, decide_eq_true_eq] at h
  refine .mem (literal_source off) (by omega : d < 128) (by omega : win < 64) h.2.2 (fun _ => rfl) (by simp only [putLp, Nat.add_assoc])
    fun f lit => ?_
  have hwin : bitsOf f 14 9 = win ↔ bitsOf f 14 13 = 0 ∧ bitsOf f 12 9 = win := by
    simp only [bitsOf, Nat.reducePow, Nat.reduceAdd, Nat.reduceSub]
    omega
  simp only [getLp, readLit, Option.ite_none_right_eq_some, Option.some.injEq, LpOp.mk.injEq, hwin]
  tauto

theorem SlOp.roundTrip (o : SlOp) (h : o.wf = true) : RoundTrip .mem getSl putSl o := by
  obtain ⟨d, base, off, scale⟩ := o
  simp only [SlOp.wf, decide_eq_true_eq] at h
  refine .mem (literal_source off) (by omega : d < 128) h.2.1 h.2.2 (fun _ => rfl) (by simp only [putSl, Nat.add_assoc]) fun f lit => ?_
  simp only [getSl, readLit, Option.ite_none_right_eq_some, Option.some.injEq, SlOp.mk.injEq]
  tauto

theorem AtomOp.roundTrip (o : AtomOp) {sh : Nat} (h : o.wf sh = true) : RoundTrip .atom getAtom putAtom o := by
  obtain ⟨d, base, off, scale⟩ := o
  simp only [AtomOp.wf, MAddr.wf, Bool.and_eq_true, decide_eq_true_eq] at h
  obtain ⟨⟨hd, hm, hoff⟩, hlit⟩ := h
  refine .dataMem (VSrc.source hd) (VSrc.source hoff) ?_ hm.1 hm.2 (fun _ => rfl) rfl fun f lit => ?_
  · cases d <;> cases off <;> simp_all [VSrc.lits, VSrc.isLit]
  · simp only [getAtom, getMAddr, Option.some.injEq, AtomOp.mk.injEq, MAddr.mk.injEq]
    tauto

/-- R146: the data of a store of more than 32 bits is a register. -/
theorem StOp.roundTrip (o : StOp) {sh : Nat} (h : o.wf sh = true) : RoundTrip (if sh = 1 then .store else .mem) getSt putSt o := by
  obtain ⟨data, base, off, scale⟩ := o
  simp only [StOp.wf, MAddr.wf, Bool.and_eq_true, decide_eq_true_eq] at h
  obtain ⟨⟨hdata, hm, hoff⟩, hlit⟩ := h
  split_ifs with hsh
  · refine .dataMem (VSrc.source hdata) (VSrc.source hoff) ?_ hm.1 hm.2 (fun _ => rfl) rfl fun f lit => ?_
    · cases data <;> cases off <;> simp_all [VSrc.lits, VSrc.isLit]
    · simp only [getSt, getMAddr, Option.some.injEq, StOp.mk.injEq, MAddr.mk.injEq]
      tauto
  · cases data with
    | lit w => simp [VSrc.isLit, hsh] at hlit
    | reg n =>
      have hreads (x : Nat) (lit : W) : getVSrc x lit = .reg n ↔ x = n := by
        simpa [VSrc.code, VSrc.lits] using (VSrc.source hdata).reads x lit
      have hn : n < 127 := (of_decide_eq_true hdata).1
      refine .mem (VSrc.source hoff) (by omega : n < 128) hm.1 hm.2 (fun _ => rfl) rfl fun f lit => ?_
      simp only [getSt, getMAddr, Option.some.injEq, StOp.mk.injEq, MAddr.mk.injEq, hreads]
      tauto

theorem mkWord_toNat {mj op low : Nat} (hm : mj < 16) (ho : op < 64) (hl : low < 2 ^ 22) :
    (mkWord mj op low).toNat = mj * 2 ^ 28 + op * 2 ^ 22 + low := by
  simp only [mkWord, BitVec.toNat_ofNat]
  omega

/-- R62, R88: a word is made of its major, its op and its low 22 bits. -/
theorem mkWord_fields (w : W) : mkWord (w.toNat / 2 ^ 28) (w.toNat / 2 ^ 22 % 64) (w.toNat % 2 ^ 22) = w := by
  apply BitVec.eq_of_toNat_eq
  have := w.isLt
  simp only [mkWord, BitVec.toNat_ofNat]
  omega

theorem formOf_lt {mj op : Nat} {fm : Form} (h : formOf mj op = some fm) : mj < 16 ∧ op < 64 := by
  unfold formOf at h
  split at h
  case h_15 => simp at h
  all_goals split_ifs at h <;> omega

/-- R68, R86: the word of a major, an op and low bits, with the literal l after it where it calls for one, stands for i. -/
structure Reads (mj op low : Nat) (l : Option W) (i : Instr) : Prop where
  low_lt : low < 2 ^ 22
  form : ∃ fm, formOf mj op = some fm ∧ fm.callsLiteral low = l.isSome
  parse : parseWord mj op low (l.getD 0) = some i

/-- R68, R86: the words ws are one instruction word and the literal it calls for, and stand for i. -/
def Spells (ws : List W) (i : Instr) : Prop := ∃ mj op low l, Reads mj op low l i ∧ ws = mkWord mj op low :: l.toList

/-- R86: the fields of a word are an instruction exactly if the op is assigned and they are operands that it admits. -/
theorem decodeFields_ok_iff (mj op low : Nat) (lit : W) (i : Instr) :
    decodeFields mj op low lit = .ok i ↔ (formOf mj op).isSome ∧ parseWord mj op low lit = some i ∧ i.wf = true := by
  unfold decodeFields
  cases formOf mj op with
  | none => simp
  | some fm =>
    cases parseWord mj op low lit with
    | none => simp
    | some j =>
      dsimp only
      by_cases hwf : j.wf = true
      · rw [if_pos hwf]
        simpa using fun h => h ▸ hwf
      · rw [if_neg hwf]
        simpa using fun h => h ▸ Bool.eq_false_iff.mpr hwf

/-- What the decoder makes of a list of words that begins with w. -/
theorem decodeWords_cons_ok_iff {w : W} {ws rest : List W} {i : Instr} : decodeWords (w :: ws) = .ok (i, rest) ↔
    ∃ l : Option W, ws = l.toList ++ rest ∧ l.isSome = wordCallsLiteral w ∧
      decodeFields (w.toNat / 2 ^ 28) (w.toNat / 2 ^ 22 % 64) (w.toNat % 2 ^ 22) (l.getD 0) = .ok i := by
  have hmap (x : Except DecodeError Instr) (us : List W) :
      x.map (fun i => (i, us)) = .ok (i, rest) ↔ us = rest ∧ x = .ok i := by
    cases x <;> simp [Except.map, and_comm]
  unfold decodeWords
  dsimp only
  split_ifs with hc
  · cases ws with
    | nil => simp [hc]
    | cons v vs => simp [hc, hmap, Option.exists]
  · simp [hc, hmap, Option.exists]

theorem decodeWords_mkWord {mj op low : Nat} {l : Option W} {i : Instr} (h : Reads mj op low l i) (hwf : i.wf = true)
    (ws : List W) : decodeWords (mkWord mj op low :: (l.toList ++ ws)) = .ok (i, ws) := by
  obtain ⟨hlow, ⟨fm, hform, hcall⟩, hparse⟩ := h
  obtain ⟨hm, ho⟩ := formOf_lt hform
  have hw := mkWord_toNat hm ho hlow
  obtain ⟨hmj, hop, hf⟩ : (mkWord mj op low).toNat / 2 ^ 28 = mj ∧ (mkWord mj op low).toNat / 2 ^ 22 % 64 = op ∧
      (mkWord mj op low).toNat % 2 ^ 22 = low := by omega
  refine decodeWords_cons_ok_iff.mpr ⟨l, rfl, ?_, ?_⟩
  · rw [wordCallsLiteral, hmj, hop, hf, hform, ← hcall]
  · rw [hmj, hop, hf, decodeFields_ok_iff]
    exact ⟨by rw [hform]; rfl, hparse, hwf⟩

theorem decodeWords_ok {ws rest : List W} {i : Instr} (h : decodeWords ws = .ok (i, rest)) :
    i.wf = true ∧ ∃ us, Spells us i ∧ ws = us ++ rest := by
  cases ws with
  | nil => cases h
  | cons w ws =>
    obtain ⟨l, rfl, hl, hdec⟩ := decodeWords_cons_ok_iff.mp h
    obtain ⟨hform, hparse, hwf⟩ := (decodeFields_ok_iff ..).mp hdec
    obtain ⟨fm, hform⟩ := Option.isSome_iff_exists.mp hform
    have hcall : fm.callsLiteral (w.toNat % 2 ^ 22) = l.isSome := by rw [hl, wordCallsLiteral, hform]
    exact ⟨hwf, _, ⟨_, _, _, l, ⟨Nat.mod_lt _ (by decide), ⟨fm, hform, hcall⟩, hparse⟩, by rw [mkWord_fields]⟩, rfl⟩

/-! Every instruction with an encoding is spelled by its encoding. -/

section
variable {α : Type} {fm : Form} {get : Nat → W → Option α} {put : α → Nat × List W} {o : α} {mk : α → Instr} {mj op : Nat}

/-- Operands that make the round trip are spelled by the word that they are written as. -/
theorem spells_put (h : RoundTrip fm get put o) (hform : formOf mj op = some fm)
    (hparse : ∀ f lit, parseWord mj op f lit = (get f lit).map mk) : Spells (mkWord mj op (put o).1 :: (put o).2) (mk o) := by
  have hl : (put o).2 = (put o).2.head?.toList := by
    cases hp : (put o).2 with
    | nil => rfl
    | cons w ws => simpa [hp] using h.lits
  obtain ⟨hcall, hget⟩ := (h.agree _ _ h.low_lt).mpr (Prod.ext rfl hl)
  exact ⟨mj, op, _, _, ⟨h.low_lt, ⟨fm, hform, hcall⟩, by rw [hparse, hget, Option.map_some]⟩, by rw [← hl]⟩

/-- A word of R79 to R85, which calls for no literal. Its low bits are a variable, so that nothing computes with their numerals. -/
theorem spells_plain {n : Nat} {i : Instr} (hform : formOf mj op = some .plain)
    (h : ∀ low, low = n → low < 2 ^ 22 ∧ parseWord mj op low 0 = some i) : Spells [mkWord mj op n] i :=
  ⟨mj, op, n, none, ⟨(h n rfl).1, ⟨.plain, hform, rfl⟩, (h n rfl).2⟩, rfl⟩

end

/-- R75 to R88: a well-formed instruction that has an encoding is spelled by it. -/
theorem spells_encode {i : Instr} (h : i.wf = true) (hne : encode i ≠ []) : Spells (encode i) i := by
  cases i
  -- The words whose operands make one of the round trips.
  case addI32 o | subI32 o | addSatI32 o | subSatI32 o | addSatN32 o | subSatN32 o | addI64 o | subI64 o | mulLoI32 o | mulHiI32 o |
      mulHiN32 o | mulWideI32 o | mulWideN32 o | minI32 o | maxI32 o | minN32 o | maxN32 o | absdiffN32 o | avgN32 o | andB32 o |
      orB32 o | xorB32 o | andnB32 o | shlB32 o | shrB32 o | sraI32 o | rotlB32 o | shlB64 o | shrB64 o | bfeN32 o | bfeI32 o |
      faddF32 o | fsubF32 o | fmulF32 o | fminF32 o | fmaxF32 o | fminnF32 o | fmaxnF32 o | fscaleF32 o | faddF16x2 o |
      fsubF16x2 o | fmulF16x2 o | faddBf16x2 o | fsubBf16x2 o | fmulBf16x2 o | fmaxBf16x2 o | fminBf16x2 o | faddF64 o | fsubF64 o |
      fmulF64 o | fminF64 o | fmaxF64 o | fmaF32 o | fnmaF32 o | fmaF16x2 o | fmaBf16x2 o | fmaF64 o | fdot2F32Bf16 o |
      fdot2F32F16 o | madLoI32 o | madHiN32 o | madWideN32 o | bfiB32 o | bdot4I32I8 o | bdot4I32N8 o | lpick o | popcB32 o |
      clzB32 o | ctzB32 o | brevB32 o | fabsF32 o | fnegF32 o | fclassF32 o | movB32 o | movB64 o | cvtF64F32 o | redAddI32 o |
      redAddF32 o | redMinI32 o | redMaxI32 o | redMinF32 o | redMaxF32 o | redxMaxF32 o | redxMinF32 o | scanAddI32 o |
      scanAddF32 o | cmpEqI32 o | cmpNeI32 o | cmpLtI32 o | cmpLeI32 o | cmpLtN32 o | cmpLeN32 o | cmpEqI64 o | cmpLtI64 o |
      cmpLtN64 o | fcmpEqF32 o | fcmpLtF32 o | fcmpLeF32 o | fcmpUnF32 o | fcmpLtF64 o | fcmpEqF64 o | cvtF32I32 o | cvtF32N32 o |
      cvtI32F32 o | cvtN32F32 o | froundF32 o | cvtF32F64 o | cvtF16x2F32 o | cvtBf16x2F32 o | cvtE4m3x4F32 o | cvtE5m2x4F32 o |
      cvtI8x4I32 o | cvtF32F16 o | cvtF32Bf16 o | cvtF32E4m3 o | cvtF32E5m2 o | cvtI32I8 o | bflyB32 o | bflyB64 o | rotLane o |
      bcast o | mnz o | mand o | mor o | mxor o | mandn o | mnot o | mmov o | mcount o | mfirst o | mfrom o | sadd o | ssub o |
      smul o | smulhiN64 o | sand o | sor o | sxor o | sshl o | sshr o | ssra o | sminI64 o | smaxI64 o | sminN64 o | smaxN64 o |
      ssetEq o | ssetLtI64 o | ssetLtN64 o | sfromLane o | shi o | smov o | ldB8N o | ldB8I o | ldB16N o | ldB16I o | ldB32 o |
      ldB64 o | ldB128 o | acvtGenLocal o | acvtGenStore o | acvtGenQuad o | acvtLocal o | acvtStore o | acvtQuad o | stB8 o |
      stB16 o | stB32 o | stB64 o | stB128 o | ldParamB32 o | ldParamB64 o | sldB64 o | sstB64 o | prefetch o | atestLocal o |
      atestStore o | atestQuad o | atomAddI32 o | atomAddI64 o | atomFaddF32 o | atomFaddBf16x2 o | atomMinI32 o | atomMaxI32 o |
      atomMinN32 o | atomMaxN32 o | atomAndB32 o | atomOrB32 o | atomXorB32 o | atomXchgB32 o | atomXchgB64 o | atomCasB32 o |
      atomCasB64 o | cpG2s o | cpS2g o | cpS2s o | cpG2p o | cpS2p o | cpMcast o | cpPut o | cpFill o =>
    exact spells_put (o.roundTrip h) rfl fun _ _ => rfl
  -- The words without operands.
  case barDie | barPkg | barPod | txBegin | txEnd | beat | join | exit | yield | halt | eret =>
    exact spells_plain rfl fun low hlow => hlow ▸ ⟨by decide, rfl⟩
  -- The words of number fields with reserved bits, which are 0 or fixed.
  case cpClose | pres | pset | prel | mzero | mtab | mdrain | mdrainMx | msave | mload | msuggest | qbind | qpush | qpop | qtry |
      qlevel | qunbind | barCore | barQuad | bexp | arrive | arriveRemote | bwait | wait | watch | cond | waitv | waitu | fence |
      commit | txAbort | quiescePkg | quiescePod | br | callr | ret | collRed | collBcast | putWin | getWin | winAdd | winRead |
      xshf | mordAlloc | mordSend | mordStat | mordFree | histRead | trap | sreg | swreg | brk =>
    have h := of_decide_eq_true h
    refine spells_plain rfl fun low hlow => ⟨by omega, (if_pos ?_).trans (congrArg some ?_)⟩
    all_goals
      simp [bitsOf]
      omega
  -- The words whose fields take all 22 bits.
  case mmk | mlut | brz | brnz | bra | brn | brv | call =>
    have h := of_decide_eq_true h
    refine spells_plain rfl fun low hlow => ⟨by omega, congrArg some ?_⟩
    simp [bitsOf]
    omega
  -- The words that share an op with another, told apart by the reserved bits.
  case mstatBlock | mscaleImm | mstatTile | mscaleReg | beatReg =>
    have h := of_decide_eq_true h
    refine spells_plain rfl fun low hlow => ⟨by omega, ?_⟩
    simp [parseWord, parseMatrix, parseSync, bitsOf]
    refine ⟨?_, ?_⟩ <;> omega
  -- The events.
  all_goals exact absurd rfl hne

/-! What the decoder reads is encoded as the words that it was read from. -/

theorem word_of_get {α : Type} {fm fm' : Form} {get : Nat → W → Option α} {put : α → Nat × List W} {o : α} {mj op low : Nat}
    {l : Option W} (h : RoundTrip fm get put o) (hform : formOf mj op = some fm) (hform' : formOf mj op = some fm')
    (hcall : fm'.callsLiteral low = l.isSome) (hlow : low < 2 ^ 22) (hget : get low (l.getD 0) = some o) :
    mkWord mj op (put o).1 :: (put o).2 = mkWord mj op low :: l.toList := by
  obtain rfl : fm = fm' := Option.some.inj (hform.symm.trans hform')
  rw [(h.agree low l hlow).mp ⟨hcall, hget⟩]

section
variable {mj op low : Nat} {fm : Form} {l : Option W} {lit : W} {i : Instr}

/-- R75 to R78, R99 to R152: majors 0 to 6. -/
theorem encode_of_parse_operands (hmj : mj < 7) (hlow : low < 2 ^ 22) (hform : formOf mj op = some fm)
    (hcall : fm.callsLiteral low = l.isSome) (hparse : parseWord mj op low (l.getD 0) = some i) (hwf : i.wf = true) :
    encode i = mkWord mj op low :: l.toList := by
  delta parseWord parseInteger parseFloat parseAccumulate parseConvert parseLane parseScalar parseMemory at hparse
  split at hparse
  case h_15 => cases hparse
  case h_8 | h_9 | h_10 | h_11 | h_12 | h_13 | h_14 => omega
  all_goals
    split at hparse
    all_goals simp only [Option.map_eq_some_iff, reduceCtorEq] at hparse
  all_goals
    obtain ⟨o, ho, rfl⟩ := hparse
    exact word_of_get (o.roundTrip hwf) rfl hform hcall hlow ho

theorem word_low_congr {a b : Nat} (h : a = b) : [mkWord mj op a] = [mkWord mj op b] := by rw [h]

/-- R79: major 7. -/
theorem encode_of_parseCopy (hlow : low < 2 ^ 22) (hform : formOf 7 op = some fm) (hcall : fm.callsLiteral low = l.isSome)
    (hparse : parseCopy op low (l.getD 0) = some i) (hwf : i.wf = true) : encode i = mkWord 7 op low :: l.toList := by
  unfold parseCopy at hparse
  split at hparse
  case h_10 => cases hparse
  case h_9 =>
    obtain rfl : Form.plain = fm := Option.some.inj hform
    obtain rfl : l = none := by simpa [Form.callsLiteral] using hcall
    split at hparse <;> cases hparse
    refine word_low_congr ?_
    simp only [bitsOf, Nat.reducePow, Nat.reduceAdd, Nat.reduceSub] at *
    omega
  all_goals
    obtain ⟨o, ho, rfl⟩ := Option.map_eq_some_iff.mp hparse
    exact word_of_get (o.roundTrip hwf) rfl hform hcall hlow ho

/-- R80, R81: majors 8 and 9. The fields of a word are all of its low bits, so they make the low bits again. -/
theorem encode_of_parse_X_Q (hmj : mj = 8 ∨ mj = 9) (hlow : low < 2 ^ 22) (hparse : parseWord mj op low lit = some i) :
    encode i = [mkWord mj op low] := by
  delta parseWord parseMatrix parseQueue at hparse
  split at hparse
  case h_9 | h_10 =>
    split at hparse
    all_goals repeat' split at hparse
    all_goals cases hparse
    all_goals
      refine word_low_congr ?_
      simp only [bitsOf, Nat.reducePow, Nat.reduceAdd, Nat.reduceSub] at *
      omega
  case h_15 => cases hparse
  all_goals omega

/-- R82 to R85: majors A to D, in the same way. -/
theorem encode_of_parse_Y_to_D (hmj : 9 < mj) (hlow : low < 2 ^ 22) (hparse : parseWord mj op low lit = some i) :
    encode i = [mkWord mj op low] := by
  delta parseWord parseSync parseBranch parseFabric parseSystem at hparse
  split at hparse
  case h_11 | h_12 | h_13 | h_14 =>
    split at hparse
    all_goals repeat' split at hparse
    all_goals cases hparse
    all_goals
      refine word_low_congr ?_
      simp only [bitsOf, Nat.reducePow, Nat.reduceAdd, Nat.reduceSub] at *
      omega
  case h_15 => cases hparse
  all_goals omega

end

theorem formOf_plain {mj op : Nat} {fm : Form} (hmj : 7 ≤ mj) (h : formOf mj op = some fm) : fm = .plain := by
  unfold formOf at h
  split at h
  case h_15 => cases h
  case h_1 | h_2 | h_3 | h_4 | h_5 | h_6 | h_7 => omega
  all_goals
    split at h <;> cases h
    rfl

/-- R68, R75 to R88: the words that spell a well-formed instruction are its encoding. -/
theorem encode_of_spells {us : List W} {i : Instr} (h : Spells us i) (hwf : i.wf = true) : encode i = us := by
  obtain ⟨mj, op, low, l, ⟨hlow, ⟨fm, hform, hcall⟩, hparse⟩, rfl⟩ := h
  by_cases hmj : mj < 7
  · exact encode_of_parse_operands hmj hlow hform hcall hparse hwf
  obtain rfl := formOf_plain (Nat.le_of_not_lt hmj) hform
  by_cases h7 : mj = 7
  · subst h7
    exact encode_of_parseCopy hlow hform hcall hparse hwf
  obtain rfl : l = none := by simpa [Form.callsLiteral] using hcall
  obtain h89 | h : (mj = 8 ∨ mj = 9) ∨ 9 < mj := by omega
  · exact encode_of_parse_X_Q h89 hlow hparse
  · exact encode_of_parse_Y_to_D h hlow hparse

/-- Settles O54: what the decoder accepts are the words that spell a well-formed instruction, and those are its encoding. -/
theorem encodingAgrees : Obligations.EncodingAgrees := by
  refine ⟨fun i ws hwf hne => ?_, fun ws rest i h => ?_⟩
  · obtain ⟨mj, op, low, l, hreads, henc⟩ := spells_encode hwf hne
    rw [henc]
    exact decodeWords_mkWord hreads hwf ws
  · obtain ⟨hwf, us, hspells, rfl⟩ := decodeWords_ok h
    have henc := encode_of_spells hspells hwf
    obtain ⟨mj, op, low, l, -, rfl⟩ := hspells
    exact ⟨hwf, by rw [henc]; simp, by rw [henc]⟩

end Sys2Proof
end

section
/-! Branches, calls and returns (R66, R72, R84, R207). -/

namespace Sys2Proof.Machine

open Sys2Proof Sys2Proof.Claims

/-- R84: a 16-bit word offset lies between -2^15 and 2^15. -/
theorem toSigned_16_bounds (n : Nat) : -2 ^ 15 ≤ toSigned 16 n ∧ toSigned 16 n < 2 ^ 15 := by
  unfold toSigned
  split_ifs <;> omega

/-- R84: an address below 2^56 and a word offset make no carry in 64 bits. -/
theorem branchTarget_eq {s : State} {off : Nat} (hc : s.iss.clause < 2 ^ 56) (h0 : 0 ≤ (s.iss.clause : Int) + 4 * toSigned 16 off) :
    branchTarget s off = target s off := by
  obtain ⟨hlo, hhi⟩ := toSigned_16_bounds off
  rw [branchTarget, target, BitVec.toNat_add, BitVec.toNat_ofNat, BitVec.toNat_ofInt]
  generalize toSigned 16 off = k at *
  omega

theorem jumpTo_good {s : State} {a : Nat} (h : badTarget s a = false) : jumpTo a s = jumped s a := by
  simp [jumpTo, h, jumped]

theorem branchIf_target {s : State} {off : Nat} (hc : s.iss.clause < 2 ^ 56) (h0 : 0 ≤ (s.iss.clause : Int) + 4 * toSigned 16 off)
    (hbad : badTarget s (target s off) = false) (c : Bool) :
    branchIf c off s = if c = true then jumped s (target s off) else s := by
  rw [branchIf, branchTarget_eq hc h0, jumpTo_good hbad]

theorem inMask_and (a b : W) (l : Nat) : inMask (a &&& b) l = (inMask a l && inMask b l) := BitVec.getLsbD_and

/-- A mask is known by its 32 lanes. -/
theorem mask_eq_iff (a b : W) : a = b ↔ ∀ l < 32, inMask a l = inMask b l :=
  ⟨fun h l _ => by rw [h], fun h => BitVec.eq_of_getLsbD_eq h⟩

/-- R207: every active lane is in m. -/
theorem and_eq_self_iff (m em : W) : (m &&& em == em) = (List.range 32).all (fun l => !inMask em l || inMask m l) := by
  rw [Bool.eq_iff_iff, beq_iff_eq, mask_eq_iff]
  simp only [inMask_and, List.all_eq_true, List.mem_range]
  refine forall₂_congr fun l _ => ?_
  cases inMask em l <;> simp

/-- R207: no active lane is in m. -/
theorem and_eq_zero_iff (m em : W) : (m &&& em == 0) = (List.range 32).all (fun l => !inMask em l || !inMask m l) := by
  rw [Bool.eq_iff_iff, beq_iff_eq, mask_eq_iff]
  simp only [inMask_and, List.all_eq_true, List.mem_range]
  refine forall₂_congr fun l _ => ?_
  cases inMask em l <;> simp [inMask]

/-- Settles O32: each word has its effect, and a good target is jumped to. -/
theorem branchesJump : Obligations.BranchesJump := by
  refine ⟨fun off s hc h0 hbad => ?_, fun l t s hh hbad => ?_, fun t s hh hbad => ?_, fun s => rfl⟩
  · have hif := branchIf_target hc h0 hbad
    refine ⟨?_, fun c hh => ⟨?_, ?_⟩, fun k => ⟨?_, ?_⟩, fun l hh hbadl => ?_⟩
    · exact congrArg Host.Outcome.next (hif true)
    · rw [exec, execBrz, issueWord_eff _ rfl hh, hif]
      simp
    · rw [exec, execBrnz, issueWord_eff _ rfl hh, hif]
      simp
    · refine congrArg Host.Outcome.next ((hif _).trans ?_)
      rw [and_eq_self_iff]
    · refine congrArg Host.Outcome.next ((hif _).trans ?_)
      rw [and_eq_zero_iff]
    · rw [exec, execCall, issueWord_eff _ rfl hh, branchTarget_eq hc h0]
      exact congrArg Host.Outcome.next (jumpTo_good hbadl)
  · rw [exec, execCallr, issueWord_eff _ rfl hh]
    exact congrArg Host.Outcome.next (jumpTo_good hbad)
  · rw [exec, execRet, issueWord_eff _ rfl hh]
    exact congrArg Host.Outcome.next (jumpTo_good hbad)

end Sys2Proof.Machine
end

section
/-! Words written out from the field tables (R75 to R88). -/

namespace Sys2Proof.Machine

open Sys2Proof Sys2Proof.Claims

/-- Settles O55: the decoder is run on each of the words. -/
theorem spelledWordsDecode : Obligations.SpelledWordsDecode := by
  refine ⟨?_, ?_⟩
  · decide +kernel
  · decide +kernel

end Sys2Proof.Machine
end

section
/-! The issue of a split's next word, and the end of a step (R62 to R66, R68, R264 to R266). -/

namespace Sys2Proof.Machine

open Sys2Proof Sys2Proof.Claims

/-- R265: a split that goes on issues its next word. -/
theorem issueStep_goes {s t : State} {gid num : Nat} (h : Goes s t gid num) {i : Instr} {u : State} (hnext : nextWord s t = .run i u) :
    issueStep gid num s = recordOut gid num u (exec i u) := by
  obtain ⟨hmay, hfocus, hruns, hdef, hrunning, hpend, hset⟩ := h
  have htake : takeUp gid num s = .run i u := by simp [takeUp, hfocus, hruns, hdef, hrunning, hpend, hset, hnext]
  rw [issueStep, if_pos hmay, htake]

/-- R62, R68: the word at an index of a fetched body, where it decodes. -/
theorem wordAtIndex_decoded {body rest : List W} {k : Nat} {i : Instr} (h : decodeWords (body.drop (k - 1)) = .ok (i, rest)) (s : State) :
    wordAtIndex body k s = .run i (advance k body.length rest.length s) := by
  rw [wordAtIndex, h]

theorem laterWord_decoded {t : State} {n : Nat} {c : W × List W} {i : Instr} {rest : List W} (hw : t.sp.widx = n + 1)
    (hfetch : fetchClause t t.sp.pc = .ok c) (hdec : decodeWords (c.2.drop n) = .ok (i, rest)) :
    laterWord t = .run i (advance (n + 1) c.2.length rest.length t) := by
  rw [laterWord, hfetch, hw]
  exact wordAtIndex_decoded (k := n + 1) hdec t

theorem settleRegion_done {t : State} (h : t.sp.bndPending = false) : settleRegion t = t := by
  simp [settleRegion, h]

theorem clear_bndPending {t : State} (h : t.sp.bndPending = false) : { t with sp := { t.sp with bndPending := false } } = t := by
  rw [← h]

theorem firstWord_decoded {s t : State} {c : W × List W} {i : Instr} {rest : List W} (hb : t.sp.bndPending = false)
    (hfetch : fetchClause t t.sp.pc = .ok c) (hcheck : clauseCheck c.1 c.2 = none) (hmet : waitsMet t (headerOf c.1) = true)
    (hdec : decodeWords c.2 = .ok (i, rest)) :
    firstWord s t = .run i (advance 1 c.2.length rest.length (markIssued (headerOf c.1) (attrUse t.g.die t.g.core t.g.ctx t.sp.pc t))) := by
  unfold firstWord
  rw [settleRegion_done hb]
  dsimp only
  rw [clear_bndPending hb, hfetch]
  dsimp only
  rw [hcheck]
  dsimp only
  rw [if_pos hmet]
  exact wordAtIndex_decoded (k := 1) hdec _

/-- R66, R264, R266: what the issue of a clause's first word records, whose page the lookaside has looked up. -/
theorem markIssued_attrUse (h : Header) (s : State) :
    markIssued h (attrUse s.g.die s.g.core s.g.ctx s.sp.pc s) = { attrUse s.g.die s.g.core s.g.ctx s.sp.pc s with
      sp := s.sp,
      g := { s.g with issuedFirst := true, lastSplit := s.sp.num, stamp := coreClk s s.g.die s.g.core + 1, yieldMark := h.yieldBit } } := by
  unfold attrUse
  split <;> rfl

theorem focus?_num {s t : State} {gid num : Nat} (h : focus? gid num s = some t) : t.sp.num = num := by
  unfold focus? at h
  dsimp only at h
  split at h
  · cases h
  next g _ =>
    split at h
    · cases h
    next p hp =>
      cases h
      simpa using List.find?_some hp

/-- R62, R68: the state in which a word is executed: the PC past its words and, after the last of them, past the clause. -/
theorem advance_eq (k n : Nat) (rest : List W) (s : State) : advance k n rest.length s =
    { s with iss := ⟨s.sp.pc, k, n + 1 - rest.length, n, false⟩,
             sp := if rest = [] then { s.sp with pc := s.sp.pc + 4 * (n + 1), widx := 0 }
                   else { s.sp with widx := n + 1 - rest.length } } := by
  simp only [advance, List.length_eq_zero_iff]

/-- R265: recording an issue changes the record of the core, and the stamp and the last split of the group. -/
theorem recordIssue_frame (gid num : Nat) (u v : State) : let w := recordIssue gid num u v
    w.sp = v.sp ∧ w.iss = v.iss ∧ { w with cores := v.cores, g := { w.g with stamp := v.g.stamp, lastSplit := v.g.lastSplit } } = v := by
  unfold recordIssue
  dsimp only
  split <;> exact ⟨rfl, rfl, rfl⟩

/-- R63: a word of the image of the start is the four bytes of that image. -/
theorem fetchWord_image {s : State} {v : Viaduct} {l k : Leaf} {va : Nat} (hv : viaductOf? s s.g.viaduct = some v)
    (hl : accessIn s s.g.ctx needX va = .ok l)
    (hk : accessIn { s with mem := v.image, wq := [] } s.g.ctx ⟨false, false, false⟩ va = .ok k) :
    fetchWord s va = .ok (bytesToNat [mapGet unlistedByte v.image k.phys, mapGet unlistedByte v.image (k.phys + 1),
      mapGet unlistedByte v.image (k.phys + 2), mapGet unlistedByte v.image (k.phys + 3)]) := by
  have hstart : startMemory s = { s with mem := v.image, wq := [] } := by rw [startMemory, hv]; rfl
  rw [fetchWord, hl]
  dsimp only
  rw [hstart, hk]
  rfl

/-! The end of a step. -/

/-- Taking the focus away leaves memory, the writes of the step, the tick and the device. -/
theorem unfocus_keeps (s : State) :
    (unfocus s).mem = s.mem ∧ (unfocus s).wq = s.wq ∧ (unfocus s).tick = s.tick ∧ (unfocus s).dev = s.dev := by
  unfold unfocus
  split <;> exact ⟨rfl, rfl, rfl, rfl⟩

/-- The end of a step leaves the tick, and of the device all but the starts of its idle trees. -/
theorem settle_tick_dev (old s : State) : (settle old s).tick = s.tick ∧
    { (settle old s).dev with idleFrom := s.dev.idleFrom, podFrom := s.dev.podFrom } = s.dev := by
  obtain ⟨-, -, htick, hdev⟩ := unfocus_keeps s
  refine ⟨(congrArg State.tick (settle_frame old s)).trans htick, ?_⟩
  have hkeep : (keepWaits (restamp old { unfocus s with
      mem := memApply (if (unfocus s).mem = [] then [] else old.mem) (unfocus s).wq, wq := [] })).dev = s.dev :=
    (congrArg State.dev (keepWaits_frame _) :).trans hdev
  exact congrArg (fun d : Device => { d with idleFrom := s.dev.idleFrom, podFrom := s.dev.podFrom }) hkeep

/-- After a step memory holds what was read within it. -/
theorem rdByte_settle {old s : State} (h : s.mem = old.mem) (a : Nat) : rdByte (settle old s) a = rdByte s a := by
  obtain ⟨-, -, -, hwq⟩ := settle_settled old s
  obtain ⟨hmem, hq, -, -⟩ := unfocus_keeps s
  have hbase : (if s.mem = [] then [] else old.mem) = s.mem := by
    rw [← h]
    split_ifs with hnil <;> simp [hnil]
  rw [rdByte_eq_memGet, rdByte_eq_memGet, hwq, settle_mem, hmem, hq, hbase, memApply]

/-! The passing of ticks. -/

theorem addUse_frame (owner idx n : Nat) (s : State) : { addUse owner idx n s with ten := s.ten } = s := by
  unfold addUse
  split_ifs <;> [rfl; exact modOwner_frame ..]

theorem passUsage_tick (n : Nat) (g : Group) (s : State) : (passUsage n g s).tick = s.tick := by
  unfold passUsage
  split_ifs
  · split
    · exact (congrArg State.tick (addUse_frame ..) :)
    · rfl
  · rfl

theorem passTicks_tick (n : Nat) (s : State) : (passTicks n s).tick = s.tick + n := by
  have h : ((allGroups s).foldl (fun u g => passUsage n g u) (passResident n s)).tick = s.tick :=
    foldl_keeps State.tick (fun u g => passUsage_tick n g u) _ _
  exact congrArg (· + n) h

/-- Log entry 2: at an odd tick the issue of the chosen split comes before an event. -/
theorem freeStep_issues {s : State} {p : Nat × Nat} (hodd : (s.tick + 1) % 2 = 1) (h : chosen? (passTicks 1 s) = some p) :
    freeStep s = issueStep p.1 p.2 { passTicks 1 s with turn := (passTicks 1 s).turn + 1 } := by
  have htick : ¬(passTicks 1 s).tick % 2 = 0 := by
    rw [passTicks_tick]
    omega
  unfold freeStep
  dsimp only
  rw [if_neg htick, h]
  rfl

/-- Settles O56: the first two clauses are the words after a clause's first and the first, and each other clause the lemma on its
operation. -/
theorem stepRunsDecoded : Obligations.StepRunsDecoded := by
  refine ⟨?_, ?_, ?_, ?_, ?_, ?_, ?_, ?_⟩
  · intro s t gid num n c i rest hgoes hw hfetch hdec
    refine issueStep_goes hgoes ?_
    rw [nextWord, if_pos (by omega), laterWord_decoded hw hfetch hdec, advance_eq]
  · intro s t gid num c i rest hgoes hw hgate hmerge hb hfetch hcheck hmet hdec
    refine issueStep_goes hgoes ?_
    obtain ⟨-, hfocus, -⟩ := hgoes
    unfold nextWord
    rw [if_neg (not_not.mpr hw), hgate, hmerge]
    refine (firstWord_decoded hb hfetch hcheck hmet hdec).trans ?_
    rw [markIssued_attrUse, focus?_num hfocus, advance_eq]
    rfl
  · rintro gid num u v o rfl
    exact ⟨_, rfl, recordIssue_frame gid num u v⟩
  · intro s v l k va hv hl hk
    exact fetchWord_image hv hl hk
  · intro s gid num rest h
    rw [step, h]
    rfl
  · intro s p h hodd hp
    rw [step, h]
    exact congrArg (settleOut s) (freeStep_issues hodd hp)
  · intro s i rest h henc
    rw [step, h]
    dsimp only
    rw [stimStep, if_pos henc]
  · rintro s t o rfl
    exact ⟨_, rfl, settle_settled s t, (settle_tick_dev s t).1, (settle_tick_dev s t).2, fun hm a => rdByte_settle hm a⟩

end Sys2Proof.Machine
end

section
/-! Arithmetic on words as arithmetic on exact integers, at any width (R104 to R107, R131). -/

namespace Sys2Proof.Machine

open Sys2Proof

section
variable {n : Nat} (a b : BitVec n)

/-- R104: a sum is that of the signed values modulo 2^n. -/
theorem add_eq_ofInt : a + b = BitVec.ofInt n (a.toInt + b.toInt) := by
  rw [BitVec.ofInt_add, BitVec.ofInt_toInt, BitVec.ofInt_toInt]

/-- R104: a difference is that of the signed values modulo 2^n. -/
theorem sub_eq_ofInt : a - b = BitVec.ofInt n (a.toInt - b.toInt) := by
  rw [Int.sub_eq_add_neg, BitVec.ofInt_add, BitVec.ofInt_neg, BitVec.ofInt_toInt, BitVec.ofInt_toInt, BitVec.sub_eq_add_neg]

/-- R105: a product is that of the signed values modulo 2^n. -/
theorem mul_eq_ofInt : a * b = BitVec.ofInt n (a.toInt * b.toInt) := by
  rw [BitVec.ofInt_mul, BitVec.ofInt_toInt, BitVec.ofInt_toInt]

/-- R106: the smaller of two words as signed integers. -/
theorem minSigned_eq_ofInt : (if a.toInt ≤ b.toInt then a else b) = BitVec.ofInt n (min a.toInt b.toInt) := by
  rw [min_def, apply_ite (BitVec.ofInt n), BitVec.ofInt_toInt, BitVec.ofInt_toInt]

/-- R106: the larger of two words as signed integers. -/
theorem maxSigned_eq_ofInt : (if a.toInt ≤ b.toInt then b else a) = BitVec.ofInt n (max a.toInt b.toInt) := by
  rw [max_def, apply_ite (BitVec.ofInt n), BitVec.ofInt_toInt, BitVec.ofInt_toInt]

/-- R106: the smaller of two words as unsigned numbers. -/
theorem minUnsigned_eq_ofNat : (if a.toNat ≤ b.toNat then a else b) = BitVec.ofNat n (min a.toNat b.toNat) := by
  rw [min_def, apply_ite (BitVec.ofNat n), BitVec.ofNat_toNat, BitVec.ofNat_toNat, BitVec.setWidth_eq, BitVec.setWidth_eq]

/-- R106: the larger of two words as unsigned numbers. -/
theorem maxUnsigned_eq_ofNat : (if a.toNat ≤ b.toNat then b else a) = BitVec.ofNat n (max a.toNat b.toNat) := by
  rw [max_def, apply_ite (BitVec.ofNat n), BitVec.ofNat_toNat, BitVec.ofNat_toNat, BitVec.setWidth_eq, BitVec.setWidth_eq]

/-- R106: a difference that does not wrap. -/
theorem sub_eq_ofNat (h : b.toNat ≤ a.toNat) : a - b = BitVec.ofNat n (a.toNat - b.toNat) := by
  apply BitVec.eq_of_toNat_eq
  rw [BitVec.toNat_sub_of_le h, BitVec.toNat_ofNat, Nat.mod_eq_of_lt (by omega)]

/-- R106: the absolute difference of two unsigned numbers. -/
theorem absdiff_eq_ofNat : (if a.toNat ≤ b.toNat then b - a else a - b) =
    BitVec.ofNat n (max a.toNat b.toNat - min a.toNat b.toNat) := by
  split
  case isTrue h => rw [sub_eq_ofNat b a h, max_eq_right h, min_eq_left h]
  case isFalse h => rw [sub_eq_ofNat a b (by omega), max_eq_left (by omega), min_eq_right (by omega)]

/-- R107: a left shift multiplies by a power of two; a count of n or more leaves no bit. -/
theorem shiftLeft_eq_ofNat (k : Nat) : (if k < n then a <<< k else 0) = BitVec.ofNat n (a.toNat * 2 ^ min k n) := by
  apply BitVec.eq_of_toNat_eq
  split
  case isTrue h => rw [BitVec.toNat_shiftLeft, Nat.shiftLeft_eq, BitVec.toNat_ofNat, min_eq_left (by omega)]
  case isFalse h => simp [min_eq_right (not_lt.mp h)]

/-- R107: a right shift divides by a power of two; a count of n or more leaves no bit. -/
theorem shiftRight_eq_ofNat (k : Nat) : (if k < n then a >>> k else 0) = BitVec.ofNat n (a.toNat / 2 ^ min k n) := by
  apply BitVec.eq_of_toNat_eq
  rw [BitVec.toNat_ofNat, Nat.mod_eq_of_lt ((Nat.div_le_self _ _).trans_lt a.isLt)]
  split
  case isTrue h => rw [BitVec.toNat_ushiftRight, Nat.shiftRight_eq_div_pow, min_eq_left (by omega)]
  case isFalse h => rw [min_eq_right (not_lt.mp h), Nat.div_eq_of_lt a.isLt]; rfl

/-- R107: a signed value divided by 2^n leaves its sign alone. -/
theorem toInt_div_two_pow_self : a.toInt / 2 ^ n = if 0 ≤ a.toInt then 0 else -1 := by
  have hpos : (0 : Int) < 2 ^ n := by positivity
  have hlt := a.two_mul_toInt_lt
  have hge := a.le_two_mul_toInt
  split
  case isTrue h => exact Int.ediv_eq_zero_of_lt h (by omega)
  case isFalse h => exact Int.ediv_eq_neg_one_of_neg_of_le (by omega) (by omega)

/-- R107: an arithmetic right shift divides the signed value by a power of two; a count of n or more leaves the sign. -/
theorem sshiftRight_eq_ofInt (k : Nat) :
    (if k < n then a.sshiftRight k else if 0 ≤ a.toInt then 0 else BitVec.allOnes n) = BitVec.ofInt n (a.toInt / 2 ^ min k n) := by
  split
  case isTrue h =>
    rw [← BitVec.ofInt_toInt (x := a.sshiftRight k), BitVec.toInt_sshiftRight, Int.shiftRight_eq_div_pow, min_eq_left (by omega)]
    norm_cast
  case isFalse h =>
    rw [min_eq_right (not_lt.mp h), toInt_div_two_pow_self, apply_ite (BitVec.ofInt n), BitVec.ofInt_neg, ← BitVec.neg_one_eq_allOnes]
    simp

/-- R107: a rotation carries the bits that leave at the top back in at the bottom. -/
theorem rotateLeft_eq_ofNat {k : Nat} (hk : k < n) :
    a.rotateLeft k = BitVec.ofNat n (a.toNat * 2 ^ k + a.toNat / 2 ^ (n - k)) := by
  have hpow : 2 ^ n = 2 ^ k * 2 ^ (n - k) := by rw [← pow_add, Nat.add_sub_cancel' hk.le]
  have hlow : a.toNat / 2 ^ (n - k) < 2 ^ k := Nat.div_lt_of_lt_mul (by rw [Nat.mul_comm, ← hpow]; exact a.isLt)
  have hhigh : a.toNat * 2 ^ k % 2 ^ n = (a.toNat % 2 ^ (n - k)) <<< k := by
    rw [Nat.shiftLeft_eq, hpow, Nat.mul_comm (a.toNat), Nat.mul_mod_mul_left, Nat.mul_comm]
  have hfit : (a.toNat % 2 ^ (n - k)) <<< k + a.toNat / 2 ^ (n - k) < 2 ^ n := by
    have hmod : a.toNat % 2 ^ (n - k) < 2 ^ (n - k) := Nat.mod_lt _ (by positivity)
    rw [Nat.shiftLeft_eq, hpow]
    nlinarith [Nat.two_pow_pos k]
  apply BitVec.eq_of_toNat_eq
  rw [BitVec.toNat_rotateLeft, Nat.mod_eq_of_lt hk, Nat.shiftLeft_eq, Nat.shiftRight_eq_div_pow, hhigh,
    ← Nat.shiftLeft_add_eq_or_of_lt hlow, BitVec.toNat_ofNat, Nat.add_mod, hhigh,
    Nat.mod_eq_of_lt (a := a.toNat / 2 ^ (n - k)) (b := 2 ^ n) (by omega), Nat.mod_eq_of_lt hfit]

end

/-- R12: the low word of a 64-bit integer. -/
theorem lowWord_ofInt (x : Int) : lowWord (BitVec.ofInt 64 x) = BitVec.ofInt 32 x := by
  apply BitVec.eq_of_toNat_eq
  rw [lowWord, BitVec.toNat_setWidth, BitVec.toNat_ofInt, BitVec.toNat_ofInt]
  omega

/-- R12: a zero-extended word is its own low word. -/
@[simp] theorem lowWord_zext64 (w : W) : lowWord (zext64 w) = w := by
  simp [lowWord, zext64]

/-- R105: the high word of a 64-bit number. -/
theorem highWord_ofInt (x : Int) : highWord (BitVec.ofInt 64 x) = BitVec.ofInt 32 (x / 2 ^ 32) := by
  apply BitVec.eq_of_toNat_eq
  rw [highWord, BitVec.toNat_setWidth, BitVec.toNat_ushiftRight, Nat.shiftRight_eq_div_pow, BitVec.toNat_ofInt, BitVec.toNat_ofInt]
  omega

/-- R105: the product of sign-extended words is the full signed product. -/
theorem sext64_mul (a b : W) : sext64 a * sext64 b = BitVec.ofInt 64 (a.toInt * b.toInt) := (BitVec.ofInt_mul _ _).symm

/-- R105: the product of zero-extended words is the full unsigned product. -/
theorem zext64_mul (a b : W) : zext64 a * zext64 b = BitVec.ofNat 64 (a.toNat * b.toNat) := by
  rw [BitVec.ofNat_mul, BitVec.ofNat_toNat, BitVec.ofNat_toNat]
  rfl

/-- R105: the high word of a full signed product. -/
theorem highWord_sext64_mul (a b : W) : highWord (sext64 a * sext64 b) = BitVec.ofInt 32 (a.toInt * b.toInt / 2 ^ 32) := by
  rw [sext64_mul, highWord_ofInt]

/-- R105: the high word of a full unsigned product. -/
theorem highWord_zext64_mul (a b : W) : highWord (zext64 a * zext64 b) = BitVec.ofNat 32 (a.toNat * b.toNat / 2 ^ 32) := by
  rw [zext64_mul, ← BitVec.ofInt_natCast, highWord_ofInt, ← BitVec.ofInt_natCast]
  norm_cast

/-- R131: a pair of low words as a number. -/
theorem joinWords_lowWord (a b : W64) :
    joinWords (lowWord b) (lowWord a) = BitVec.ofNat 64 (b.toNat % 2 ^ 32 * 2 ^ 32 + a.toNat % 2 ^ 32) := by
  apply BitVec.eq_of_toNat_eq
  have hlow : (lowWord a).toNat < 2 ^ 32 := (lowWord a).isLt
  rw [joinWords, BitVec.toNat_append, ← Nat.shiftLeft_add_eq_or_of_lt hlow, Nat.shiftLeft_eq, lowWord, lowWord,
    BitVec.toNat_setWidth, BitVec.toNat_setWidth, BitVec.toNat_ofNat]
  omega

end Sys2Proof.Machine
end

section
/-! Counts, bit reversal and bit fields (R35, R108, R109, R122, R141). -/

namespace Sys2Proof.Machine

open Sys2Proof

/-- R108: the count of the 1 bits of a number's low w bits. -/
theorem popCount_eq_countP (w n : Nat) : popCount w n = (List.range w).countP (fun i => n.testBit i) := by
  induction w generalizing n with
  | zero => rfl
  | succ w ih =>
    have hbit : n % 2 = if n.testBit 0 = true then 1 else 0 := by rw [Nat.testBit_zero]; split <;> simp_all
    rw [popCount, ih, List.range_succ_eq_map, List.countP_cons, List.countP_map, hbit, Nat.add_comm]
    simp only [Function.comp_def, Nat.testBit_succ]

/-- R108: the position of the lowest 1 bit of a number's low w bits, or w. -/
theorem lowestBit_eq_find? (w n : Nat) : lowestBit w n = ((List.range w).find? (fun i => n.testBit i)).getD w := by
  induction w generalizing n with
  | zero => rfl
  | succ w ih =>
    rw [lowestBit, ih, List.range_succ_eq_map, List.find?_cons, Nat.testBit_zero]
    by_cases h : n % 2 = 1
    · simp [h]
    · simp only [h, if_false, decide_false, List.find?_map, Function.comp_def, Nat.testBit_succ]
      cases (List.range w).find? (fun i => (n / 2).testBit i) <;> simp [Nat.add_comm]

/-- R108: the number of 0 bits above the highest 1 bit of a w-bit number, or w. -/
theorem leadingZeros_eq_find? {w n : Nat} (h : n < 2 ^ w) :
    w - bitLen n = ((List.range w).find? (fun i => n.testBit (w - 1 - i))).getD w := by
  by_cases hn : n = 0
  · subst hn
    have hnone : (List.range w).find? (fun i => Nat.testBit 0 (w - 1 - i)) = none := by simp
    rw [hnone]
    rfl
  · have hlog : n.log2 < w := (Nat.log2_lt hn).mpr h
    have hfound : (List.range w).find? (fun i => n.testBit (w - 1 - i)) = some (w - bitLen n) := by
      rw [bitLen, if_neg hn, List.find?_range_eq_some]
      refine ⟨?_, List.mem_range.mpr (by omega), fun j hj => ?_⟩
      · rw [show w - 1 - (w - (n.log2 + 1)) = n.log2 by omega]
        exact Nat.testBit_log2 hn
      · rw [Nat.testBit_lt_two_pow (Nat.lt_log2_self.trans_le (Nat.pow_le_pow_right (by decide) (by omega)))]
        rfl
    rw [hfound, Option.getD_some]

/-- R108: the reversal of w bits is a w-bit number. -/
theorem reverseBits_lt (w n : Nat) : reverseBits w n < 2 ^ w := by
  induction w generalizing n with
  | zero => simp [reverseBits]
  | succ w ih =>
    have hbit : n % 2 * 2 ^ w ≤ 1 * 2 ^ w := Nat.mul_le_mul_right _ (by omega)
    have hrest := ih (n / 2)
    rw [reverseBits, pow_succ]
    omega

/-- R108: bit i of the reversal of w bits is bit w - 1 - i. -/
theorem testBit_reverseBits {w i : Nat} (n : Nat) (hi : i < w) : (reverseBits w n).testBit i = n.testBit (w - 1 - i) := by
  induction w generalizing n with
  | zero => omega
  | succ w ih =>
    rw [reverseBits, Nat.mul_comm, Nat.testBit_two_pow_mul_add _ (reverseBits_lt w _)]
    split
    case isTrue h => rw [ih _ h, ← Nat.testBit_succ, show (w - 1 - i).succ = w + 1 - 1 - i by omega]
    case isFalse h =>
      obtain rfl : i = w := by omega
      simp

/-- R108: the reversal of a word's bits. -/
theorem ofNat_reverseBits {w : Nat} (a : BitVec w) : BitVec.ofNat w (reverseBits w a.toNat) = a.reverse := by
  apply BitVec.eq_of_getLsbD_eq
  intro i hi
  rw [BitVec.getLsbD_ofNat, testBit_reverseBits _ hi, BitVec.getLsbD_reverse, BitVec.getMsbD_eq_getLsbD, BitVec.testBit_toNat]

/-- R35: a pattern read as two's complement. -/
theorem toSigned_eq_bmod {w : Nat} (hw : w ≠ 0) (n : Nat) : toSigned w n = Int.bmod n (2 ^ w) := by
  obtain ⟨v, rfl⟩ := Nat.exists_eq_succ_of_ne_zero hw
  rw [toSigned, Int.bmod, ← Int.natCast_mod, Nat.succ_sub_one, pow_succ]
  have hpos := Nat.two_pow_pos v
  split_ifs <;> omega

/-- R35: a pattern read as two's complement is the signed value of the word that it makes. -/
theorem toSigned_eq_toInt {w : Nat} (hw : w ≠ 0) (n : Nat) : toSigned w n = (BitVec.ofNat w n).toInt := by
  rw [toSigned_eq_bmod hw, BitVec.toInt_ofNat']

/-- R122: the field of w bits at p of d replaced by the low bits of a, bit by bit. -/
theorem insertField_getLsbD (a d : W) (p w : Nat) {i : Nat} (hi : i < 32) :
    ((d &&& ~~~ BitVec.ofNat 32 ((2 ^ w - 1) * 2 ^ p)) ||| BitVec.ofNat 32 (a.toNat % 2 ^ w * 2 ^ p)).getLsbD i =
      if p ≤ i ∧ i < p + w then a.getLsbD (i - p) else d.getLsbD i := by
  simp only [BitVec.getLsbD_or, BitVec.getLsbD_and, BitVec.getLsbD_not, BitVec.getLsbD_ofNat, Nat.testBit_mul_two_pow,
    Nat.testBit_two_pow_sub_one, Nat.testBit_mod_two_pow, BitVec.testBit_toNat, hi, decide_true, Bool.true_and]
  by_cases hp : p ≤ i
  · have hin : (i - p < w) = (i < p + w) := by apply propext; omega
    by_cases hw : i < p + w <;> simp [hp, hw, hin]
  · simp [hp]

end Sys2Proof.Machine
end

section
/-! The 32-bit integer words of two operands, and the statement about them (R104 to R107, R109). -/

namespace Sys2Proof.Machine

open Sys2Proof Sys2Proof.Claims

/-- R101: what a lane's output r means for a word of 32 bits: its low word and its flags are p, and no random state is used. -/
structure Gives (r : LaneOut) (p : W × Flags) : Prop where
  val : lowWord r.val = p.1
  flags : r.flags = p.2
  rng : r.rng = none

/-- R101: a result without flags. -/
theorem out32_gives {w x : W} (h : w = x) : Gives (out32 w) (x, 0) := ⟨(lowWord_zext64 w).trans h, rfl, rfl⟩

/-- R104: an exact integer clamped to a range sets saturate where it lies outside. -/
theorem clampOut_gives {lo hi : Int} (h : lo ≤ hi) (x : Int) : Gives (clampOut lo hi x) (saturated lo hi x) := by
  unfold clampOut saturated
  split_ifs with hlo hhi
  · exact ⟨by rw [lowWord_ofInt, max_eq_left (by omega)], by simp [flIf, hlo], rfl⟩
  · exact ⟨by rw [lowWord_ofInt, min_eq_left hhi.le, max_eq_right h], by simp [flIf, hhi], rfl⟩
  · exact ⟨by rw [lowWord_ofInt, min_eq_right (not_lt.mp hhi), max_eq_right (not_lt.mp hlo)], by simp [flIf, hlo, hhi], rfl⟩

/-- R101: a word of one register writes what its lanes' outputs mean. -/
theorem laneWrites_gives {s t : State} {d : Nat} {f : Nat → LaneOut} {g : Nat → W × Flags} (hfg : ∀ l, Gives (f l) (g l))
    (h : LaneWrites s t d 1 f) : LaneWrites s t d 1 (fun l => plain (g l)) := by
  obtain ⟨hregs, hflags, hrng, hrest⟩ := h
  have hval l : lowWord (f l).val = lowWord (plain (g l)).val := (hfg l).val.trans (lowWord_zext64 _).symm
  have hfl l : (f l).flags = (plain (g l)).flags := (hfg l).flags
  have hr l : (f l).rng = (plain (g l)).rng := (hfg l).rng
  simp only [hval, hfl, hr, OfNat.one_ne_ofNat, false_and, if_false] at hregs hflags hrng
  exact ⟨hregs, hflags, hrng, hrest⟩

/-- R109: a field read as two's complement. -/
theorem signedField_eq_ofInt (i : Int) (w : Nat) :
    (if w = 0 then (0 : W) else BitVec.ofInt 32 (toSigned w (i % (2 ^ w : Nat)).toNat)) =
      BitVec.ofInt 32 (if w = 0 then 0 else Int.bmod i (2 ^ w)) := by
  split
  case isTrue => rfl
  case isFalse hw =>
    have hpos : 0 ≤ i % ((2 ^ w : Nat) : Int) := Int.emod_nonneg _ (by positivity)
    rw [toSigned_eq_bmod hw, Int.toNat_of_nonneg hpos, Int.emod_bmod]

/-- R104 to R107, R109: each of these words is a vector word whose lanes' outputs mean what its row says. -/
theorem exec_integer {row : (V3 → Instr) × (W → W → W × Flags)} (hrow : row ∈ integerRows) (o : V3) (s : State) :
    ∃ f, exec (row.1 o) s = vecWord o.d 1 (o.a.range 1 ++ o.b.range 1) o.b.scalars f s ∧
      ∀ l, Gives (f s l) (row.2 (o.a.val s l) (o.b.val s l)) := by
  unfold integerRows at hrow
  fin_cases hrow
  · exact ⟨_, rfl, fun l => out32_gives (add_eq_ofInt _ _)⟩
  · exact ⟨_, rfl, fun l => out32_gives (sub_eq_ofInt _ _)⟩
  · exact ⟨_, rfl, fun l => clampOut_gives (by decide) _⟩
  · exact ⟨_, rfl, fun l => clampOut_gives (by decide) _⟩
  · exact ⟨_, rfl, fun l => clampOut_gives (by decide) _⟩
  · exact ⟨_, rfl, fun l => clampOut_gives (by decide) _⟩
  · exact ⟨_, rfl, fun l => out32_gives (mul_eq_ofInt _ _)⟩
  · exact ⟨_, rfl, fun l => out32_gives (highWord_sext64_mul _ _)⟩
  · exact ⟨_, rfl, fun l => out32_gives (highWord_zext64_mul _ _)⟩
  · exact ⟨_, rfl, fun l => out32_gives (minSigned_eq_ofInt _ _)⟩
  · exact ⟨_, rfl, fun l => out32_gives (maxSigned_eq_ofInt _ _)⟩
  · exact ⟨_, rfl, fun l => out32_gives (minUnsigned_eq_ofNat _ _)⟩
  · exact ⟨_, rfl, fun l => out32_gives (maxUnsigned_eq_ofNat _ _)⟩
  · exact ⟨_, rfl, fun l => out32_gives (absdiff_eq_ofNat _ _)⟩
  · exact ⟨_, rfl, fun l => out32_gives rfl⟩
  · exact ⟨_, rfl, fun l => out32_gives rfl⟩
  · exact ⟨_, rfl, fun l => out32_gives rfl⟩
  · exact ⟨_, rfl, fun l => out32_gives rfl⟩
  · exact ⟨_, rfl, fun l => out32_gives rfl⟩
  · exact ⟨_, rfl, fun l => out32_gives (shiftLeft_eq_ofNat _ _)⟩
  · exact ⟨_, rfl, fun l => out32_gives (shiftRight_eq_ofNat _ _)⟩
  · exact ⟨_, rfl, fun l => out32_gives (sshiftRight_eq_ofInt _ _)⟩
  · exact ⟨_, rfl, fun l => out32_gives (rotateLeft_eq_ofNat _ (Nat.mod_lt _ (by decide)))⟩
  · exact ⟨_, rfl, fun l => out32_gives rfl⟩
  · exact ⟨_, rfl, fun l => out32_gives (signedField_eq_ofInt _ _)⟩

/-- Settles O1: a word that lets itself be issued writes its lanes' outputs, which mean what its row says. -/
theorem integerResults : Obligations.IntegerResults := by
  intro row hrow o s hc
  obtain ⟨f, hexec, hgives⟩ := exec_integer hrow o s
  obtain ⟨t, hnext, hwrites⟩ := vecWord_laneWrites (.inl rfl) hc f
  exact ⟨t, hexec.trans hnext, laneWrites_gives hgives hwrites⟩

end Sys2Proof.Machine
end

section
/-! The counts, the bit reversal, the 32-bit move and the 64-bit integer words, and the statement about them (R104, R105, R107,
R108, R124). -/

namespace Sys2Proof.Machine

open Sys2Proof Sys2Proof.Claims

/-- R97 to R102: an instruction that is a vector word whose outputs are g lets itself be issued and writes g. -/
theorem exec_laneWrites {e : Out} {s : State} {d n : Nat} {srcs : List (Nat × Nat)} {scas : List Nat} {f : State → Nat → LaneOut}
    {g : Nat → LaneOut} (hn : n = 1 ∨ n = 2) (hc : Clear s d n srcs scas) (he : e = vecWord d n srcs scas f s)
    (hfg : ∀ l, f s l = g l) : ∃ t, e = .next t ∧ LaneWrites s t d n g := by
  obtain ⟨t, hnext, hwrites⟩ := vecWord_laneWrites hn hc f
  exact ⟨t, he.trans hnext, laneWrites_congr (fun l _ => hfg l) hwrites⟩

/-- R101: a 32-bit result without flags. -/
theorem out32_eq_plain {w x : W} (h : w = x) : out32 w = plain (x, 0) := h ▸ rfl

/-- R101: a 64-bit result without flags. -/
theorem out64_eq {w x : W64} (h : w = x) : out64 w = ⟨x, 0, none⟩ := h ▸ rfl

section
variable {s : State}

/-- R108, R124: the counts, the bit reversal and the 32-bit move. -/
theorem exec_count {row : (V2 → Instr) × (W → W)} (hrow : row ∈ countRows) {o : V2} (hc : Clear s o.d 1 (o.a.range 1) []) :
    ∃ t, exec (row.1 o) s = .next t ∧ LaneWrites s t o.d 1 (fun l => plain (row.2 (o.a.val s l), 0)) := by
  unfold countRows at hrow
  fin_cases hrow
  · exact exec_laneWrites (.inl rfl) hc rfl fun l => out32_eq_plain (congrArg _ (popCount_eq_countP 32 _))
  · exact exec_laneWrites (.inl rfl) hc rfl fun l => out32_eq_plain (congrArg _ (leadingZeros_eq_find? (o.a.val s l).isLt))
  · exact exec_laneWrites (.inl rfl) hc rfl fun l => out32_eq_plain (congrArg _ (lowestBit_eq_find? 32 _))
  · exact exec_laneWrites (.inl rfl) hc rfl fun l => out32_eq_plain (ofNat_reverseBits _)
  · exact exec_laneWrites (.inl rfl) hc rfl fun l => rfl

/-- R104: the 64-bit sum and difference. -/
theorem exec_integer64 {row : (V3 → Instr) × (W64 → W64 → W64)} (hrow : row ∈ integer64Rows) {o : V3}
    (hc : Clear s o.d 2 (o.a.range 2 ++ o.b.range 2) o.b.scalars) :
    ∃ t, exec (row.1 o) s = .next t ∧
      LaneWrites s t o.d 2 (fun l => ⟨row.2 (o.a.val64 .signed s l) (o.b.val64 .signed s l), 0, none⟩) := by
  unfold integer64Rows at hrow
  fin_cases hrow
  · exact exec_laneWrites (.inr rfl) hc rfl fun l => out64_eq (add_eq_ofInt _ _)
  · exact exec_laneWrites (.inr rfl) hc rfl fun l => out64_eq (sub_eq_ofInt _ _)

/-- R105: the full products. -/
theorem exec_wide {row : (V3 → Instr) × (W → W → W64)} (hrow : row ∈ wideRows) {o : V3}
    (hc : Clear s o.d 2 (o.a.range 1 ++ o.b.range 1) o.b.scalars) :
    ∃ t, exec (row.1 o) s = .next t ∧ LaneWrites s t o.d 2 (fun l => ⟨row.2 (o.a.val s l) (o.b.val s l), 0, none⟩) := by
  unfold wideRows at hrow
  fin_cases hrow
  · exact exec_laneWrites (.inr rfl) hc rfl fun l => out64_eq (sext64_mul _ _)
  · exact exec_laneWrites (.inr rfl) hc rfl fun l => out64_eq (zext64_mul _ _)

/-- R107: the shifts of a pair. -/
theorem exec_shift64 {row : (V3 → Instr) × (W64 → W → W64)} (hrow : row ∈ shift64Rows) {o : V3}
    (hc : Clear s o.d 2 (o.a.range 2 ++ o.b.range 1) o.b.scalars) :
    ∃ t, exec (row.1 o) s = .next t ∧
      LaneWrites s t o.d 2 (fun l => ⟨row.2 (o.a.val64 .zero s l) (o.b.val s l), 0, none⟩) := by
  unfold shift64Rows at hrow
  fin_cases hrow
  · exact exec_laneWrites (.inr rfl) hc rfl fun l => out64_eq (shiftLeft_eq_ofNat _ _)
  · exact exec_laneWrites (.inr rfl) hc rfl fun l => out64_eq (shiftRight_eq_ofNat _ _)

end

/-- Settles O2: each clause by the lemma on its rows. -/
theorem countAndPairResults : Obligations.CountAndPairResults :=
  ⟨fun _ hrow _ _ hc => exec_count hrow hc, fun _ hrow _ _ hc => exec_integer64 hrow hc, fun _ hrow _ _ hc => exec_wide hrow hc,
    fun _ hrow _ _ hc => exec_shift64 hrow hc⟩

end Sys2Proof.Machine
end

section
/-! Floating point, accumulation, the lane pick and conversions, and the statements about them (R36, R111 to R129, R136). -/

namespace Sys2Proof.Machine

open Sys2Proof Sys2Proof.Claims

section
variable {s : State}

/-- R111, R112, R117: the 32-bit floating-point words of two operands. -/
theorem exec_float {row : (V3 → Instr) × (W → W → W → W → LaneOut)} (hrow : row ∈ floatRows) {o : V3}
    (hc : Clear s o.d 1 (o.a.range 1 ++ o.b.range 1) o.b.scalars) :
    ∃ t, exec (row.1 o) s = .next t ∧
      LaneWrites s t o.d 1 (fun l => row.2 s.g.fmode (rngGet s l) (o.a.val s l) (o.b.val s l)) := by
  unfold floatRows at hrow
  fin_cases hrow <;> exact exec_laneWrites (.inl rfl) hc rfl fun l => rfl

/-- R119: the fused words of 32-bit shapes. -/
theorem exec_fused {row : (V3 → Instr) × (W → W → W → W → W → LaneOut)} (hrow : row ∈ fusedRows) {o : V3}
    (hc : Clear s o.d 1 ((o.d, 1) :: (o.a.range 1 ++ o.b.range 1)) o.b.scalars) :
    ∃ t, exec (row.1 o) s = .next t ∧
      LaneWrites s t o.d 1 (fun l => row.2 s.g.fmode (rngGet s l) (o.a.val s l) (o.b.val s l) (vGet s o.d l)) := by
  unfold fusedRows at hrow
  fin_cases hrow <;> exact exec_laneWrites (.inl rfl) hc rfl fun l => rfl

end

/-- Settles O4: each clause by the lemma on its rows. -/
theorem floatResults : Obligations.FloatResults :=
  ⟨fun _ hrow _ _ hc => exec_float hrow hc, fun _ hrow _ _ hc => exec_fused hrow hc⟩

/-- R123: the sum of the four products of bytes. -/
theorem dot4_eq (ext : Nat → Int) (x : W → Nat → Int) (hx : ∀ a e, ext (elemAt 8 e a) = x a e) (a b d : W) :
    dot4 ext a b d = BitVec.ofInt 32 (d.toInt + (x a 0 * x b 0 + x a 1 * x b 1 + x a 2 * x b 2 + x a 3 * x b 3)) := by
  have hsum : (List.range 4).foldl (fun i e => i + ext (elemAt 8 e a) * ext (elemAt 8 e b)) d.toInt =
      d.toInt + x a 0 * x b 0 + x a 1 * x b 1 + x a 2 * x b 2 + x a 3 * x b 3 := by simp only [hx]; rfl
  rw [dot4, hsum]
  congr 1
  ring

/-- R36: an element of a word is the number that its bits make. -/
theorem toNat_extractLsb'_eq_elemAt (w i : Nat) (x : W) : (x.extractLsb' (w * i) w).toNat = elemAt w i x := by
  rw [BitVec.extractLsb'_toNat, Nat.shiftRight_eq_div_pow, elemAt]

/-- R35, R36: a signed element of a word. -/
theorem toSigned_elemAt {w : Nat} (hw : w ≠ 0) (x : W) (i : Nat) : toSigned w (elemAt w i x) = (x.extractLsb' (w * i) w).toInt := by
  rw [toSigned_eq_toInt hw, ← toNat_extractLsb'_eq_elemAt, BitVec.ofNat_toNat, BitVec.setWidth_eq]

/-- R36: an unsigned element of a word. -/
theorem natCast_elemAt {w : Nat} (x : W) (i : Nat) : ((elemAt w i x : Nat) : Int) = (x.extractLsb' (w * i) w).toNat :=
  congrArg Nat.cast (toNat_extractLsb'_eq_elemAt w i x).symm

/-- R121: the high word of a full product with an addend. -/
theorem madHigh_eq (a b d : W) : highWord (zext64 a * zext64 b) + d = BitVec.ofNat 32 (a.toNat * b.toNat / 2 ^ 32 + d.toNat) := by
  rw [highWord_zext64_mul, BitVec.ofNat_add, BitVec.ofNat_toNat, BitVec.setWidth_eq]

/-- R121: a full product with an addend. -/
theorem madWide_eq (a b : W) (d : W64) : zext64 a * zext64 b + d = BitVec.ofNat 64 (a.toNat * b.toNat + d.toNat) := by
  rw [zext64_mul, BitVec.ofNat_add, BitVec.ofNat_toNat, BitVec.setWidth_eq]

/-- R122: a field insertion, bit by bit. -/
theorem bfiWord_eq (a b d : W) : bfiWord a b d = BitVec.ofFnLE (n := 32) (fun i =>
    if bitsOf b.toNat 7 0 ≤ i.val ∧ i.val < bitsOf b.toNat 7 0 + min (bitsOf b.toNat 15 8) 32 then
      a.getLsbD (i.val - bitsOf b.toNat 7 0) else d.getLsbD i.val) := by
  apply BitVec.eq_of_getLsbD_eq
  intro i hi
  rw [bfiWord, insertField_getLsbD a d _ _ hi, BitVec.getLsbD_ofFnLE, dif_pos hi]

/-- R115, R118 to R123, R136: the words of three operands of mixed shapes. -/
theorem exec_mixed {row : Row3} (hrow : row ∈ mixedRows) {o : V3} {s : State}
    (hc : Clear s o.d row.sd ((if row.acc then [(o.d, row.sd)] else []) ++ o.a.range row.sa ++ o.b.range row.sb) o.b.scalars) :
    ∃ t, exec (row.op o) s = .next t ∧ LaneWrites s t o.d row.sd (row.out o s) := by
  unfold mixedRows at hrow
  fin_cases hrow
  · exact exec_laneWrites (.inl rfl) hc rfl fun l => rfl
  · exact exec_laneWrites (.inr rfl) hc rfl fun l => rfl
  · exact exec_laneWrites (.inr rfl) hc rfl fun l => rfl
  · exact exec_laneWrites (.inr rfl) hc rfl fun l => rfl
  · exact exec_laneWrites (.inr rfl) hc rfl fun l => rfl
  · exact exec_laneWrites (.inr rfl) hc rfl fun l => rfl
  · exact exec_laneWrites (.inr rfl) hc rfl fun l => rfl
  · exact exec_laneWrites (.inl rfl) hc rfl fun l => rfl
  · exact exec_laneWrites (.inl rfl) hc rfl fun l => rfl
  · exact exec_laneWrites (.inl rfl) hc rfl fun l => rfl
  · exact exec_laneWrites (.inl rfl) hc rfl fun l => out32_eq_plain (madHigh_eq _ _ _)
  · exact exec_laneWrites (.inr rfl) hc rfl fun l => out64_eq (madWide_eq _ _ _)
  · exact exec_laneWrites (.inl rfl) hc rfl fun l => out32_eq_plain (bfiWord_eq _ _ _)
  · exact exec_laneWrites (.inl rfl) hc rfl fun l => out32_eq_plain (dot4_eq _ _ (toSigned_elemAt (by decide)) _ _ _)
  · exact exec_laneWrites (.inl rfl) hc rfl fun l => out32_eq_plain (dot4_eq _ _ natCast_elemAt _ _ _)
  · exact exec_laneWrites (.inl rfl) hc rfl fun l => rfl

/-- Settles O5: by the lemma on its rows. -/
theorem mixedShapeResults : Obligations.MixedShapeResults := fun _ hrow _ _ hc => exec_mixed hrow hc

/-- R128: the signed byte of an element. -/
theorem ofInt_toSigned_byte (x : Nat) : out32 (BitVec.ofInt 32 (toSigned 8 x)) = plain (BitVec.ofInt 32 (BitVec.ofNat 8 x).toInt, 0) :=
  out32_eq_plain (congrArg _ (toSigned_eq_toInt (by decide) x))

section
variable {s : State}

/-- R113, R114, R124, R129: the signs, the class, the move of a pair and the exact widening. -/
theorem exec_unary {row : (V2 → Instr) × Nat × Nat × (V2 → State → Nat → LaneOut)} (hrow : row ∈ unaryRows) {o : V2}
    (hc : Clear s o.d row.2.1 (o.a.range row.2.2.1) []) :
    ∃ t, exec (row.1 o) s = .next t ∧ LaneWrites s t o.d row.2.1 (row.2.2.2 o s) := by
  unfold unaryRows at hrow
  fin_cases hrow
  · exact exec_laneWrites (.inl rfl) hc rfl fun l => rfl
  · exact exec_laneWrites (.inl rfl) hc rfl fun l => rfl
  · exact exec_laneWrites (.inl rfl) hc rfl fun l => rfl
  · exact exec_laneWrites (.inr rfl) hc rfl fun l => rfl
  · exact exec_laneWrites (.inr rfl) hc rfl fun l => rfl

/-- R125, R126, R129: the conversions with a rounding code. -/
theorem exec_convert {row : (C2 → Instr) × Nat × (C2 → W → W → W64 → LaneOut)} (hrow : row ∈ convertRows) {o : C2}
    (hc : Clear s o.d 1 (o.a.range row.2.1) []) :
    ∃ t, exec (row.1 o) s = .next t ∧ LaneWrites s t o.d 1 (fun l => row.2.2 o s.g.fmode (rngGet s l)
      (if row.2.1 = 1 then zext64 (o.a.val s l) else o.a.val64 .float s l)) := by
  unfold convertRows at hrow
  fin_cases hrow
  · exact exec_laneWrites (.inl rfl) hc rfl fun l => by simp only [if_true, lowWord_zext64]
  · exact exec_laneWrites (.inl rfl) hc rfl fun l => by simp only [if_true, lowWord_zext64]
  · exact exec_laneWrites (.inl rfl) hc rfl fun l => by simp only [if_true, lowWord_zext64]
  · exact exec_laneWrites (.inl rfl) hc rfl fun l => by simp only [if_true, lowWord_zext64]
  · exact exec_laneWrites (.inl rfl) hc rfl fun l => by simp only [if_true, lowWord_zext64]
  · exact exec_laneWrites (.inl rfl) hc rfl fun l => rfl

/-- R127: the packing conversions. -/
theorem exec_pack {row : (P2 → Instr) × Nat × Nat × (P2 → W → W → W → Nat × Flags × W)} (hrow : row ∈ packRows) {o : P2}
    (hc : Clear s o.d 1 [(o.a, row.2.2.1)] []) :
    ∃ t, exec (row.1 o) s = .next t ∧ LaneWrites s t o.d 1 (fun l =>
      let r := packElems row.2.1 (fun e rng => row.2.2.2 o s.g.fmode (vGet s (o.a + e) l) rng) row.2.2.1 (rngGet s l)
      outRng r.1 r.2.1 (rngGet s l) r.2.2) := by
  unfold packRows at hrow
  fin_cases hrow <;> exact exec_laneWrites (.inl rfl) hc rfl fun l => rfl

/-- R128: the unpacking conversions. -/
theorem exec_unpack {row : (U2 → Instr) × Nat × (W → Nat → LaneOut)} (hrow : row ∈ unpackRows) {o : U2}
    (hc : Clear s o.d 1 (o.a.range 1) []) :
    ∃ t, exec (row.1 o) s = .next t ∧
      LaneWrites s t o.d 1 (fun l => row.2.2 s.g.fmode (elemAt row.2.1 o.elem (o.a.val s l))) := by
  unfold unpackRows at hrow
  fin_cases hrow
  · exact exec_laneWrites (.inl rfl) hc rfl fun l => rfl
  · exact exec_laneWrites (.inl rfl) hc rfl fun l => rfl
  · exact exec_laneWrites (.inl rfl) hc rfl fun l => rfl
  · exact exec_laneWrites (.inl rfl) hc rfl fun l => rfl
  · exact exec_laneWrites (.inl rfl) hc rfl fun l => ofInt_toSigned_byte _

end

/-- Settles O6: each clause by the lemma on its rows. -/
theorem conversionResults : Obligations.ConversionResults :=
  ⟨fun _ hrow _ _ hc => exec_unary hrow hc, fun _ hrow _ _ hc => exec_convert hrow hc, fun _ hrow _ _ hc => exec_pack hrow hc,
    fun _ hrow _ _ hc => exec_unpack hrow hc⟩

end Sys2Proof.Machine
end

section
/-! The compares, the mask words and the scalar words, and the statements about them (R15, R101, R110, R116, R130 to R132, R140, R141). -/

namespace Sys2Proof.Machine

open Sys2Proof Sys2Proof.Claims

/-- R101: a lane of a mask made lane by lane. -/
theorem inMask_maskOf (f : Nat → Bool) {l : Nat} (hl : l < 32) : inMask (maskOf f) l = f l := by
  have hfold (ls : List Nat) (acc : W) :
      (ls.foldl (fun acc k => if f k then acc ||| BitVec.ofNat 32 (2 ^ k) else acc) acc).getLsbD l =
        (acc.getLsbD l || (decide (l ∈ ls) && f l)) := by
    induction ls generalizing acc with
    | nil => simp
    | cons k ks ih =>
      rw [List.foldl_cons, ih, apply_ite (fun m : W => m.getLsbD l), BitVec.getLsbD_or, BitVec.getLsbD_ofNat, Nat.testBit_two_pow]
      by_cases hk : k = l
      · subst hk
        cases f k <;> simp [hl]
      · have hk' : l ≠ k := Ne.symm hk
        simp [hk, hk']
  rw [maskOf, inMask, hfold]
  simp [laneList, hl]

/-- R26, R101: a mask register written and flags set leave the rest of the state as it is. -/
theorem kSet_raise_frame (k : Nat) (x : W) (fl : Flags) (s : State) :
    { raise fl (kSet k x s) with g := { (raise fl (kSet k x s)).g with kregs := s.g.kregs, flags := s.g.flags } } = s := rfl

/-- R101, R26: a mask register receives the results of the active lanes, with their flags. -/
theorem maskEff_maskWrites (k : Nat) (f : State → Nat → Bool × Flags) (s : State) : MaskWrites s (maskEff k f s) k (f s) := by
  refine ⟨fun l hl => ?_, fun j hj => ?_, raise_g_flags _ _, kSet_raise_frame _ _ _ s⟩
  · rw [maskEff, kGet_raise, kGet_kSet, if_pos rfl, inMask_maskOf _ hl]
  · rw [maskEff, kGet_raise, kGet_kSet, if_neg hj]

/-- R11, R73, R110, R477: a compare of operands of n registers lets itself be issued: the ranges that it reads fit, nothing is on its
way to what it names, and nothing that it reads is marked. -/
def ReadsClear (s : State) (o : K3) (n : Nat) : Prop :=
  (∀ p ∈ o.a.range n ++ o.b.range n, p.1 + p.2 ≤ s.g.nregs) ∧
    hazard s (regsOf (o.a.range n ++ o.b.range n)) o.b.scalars = false ∧
    poisonedLane s (regsOf (o.a.range n ++ o.b.range n)) = none

section
variable {s : State} {o : K3}

/-- R101, R110: an instruction that is a compare whose results are g lets itself be issued and writes g. -/
theorem exec_maskWrites {e : Out} {n : Nat} {f : State → Nat → Bool × Flags} {g : Nat → Bool × Flags} (hc : ReadsClear s o n)
    (he : e = o.word n f s) (hfg : ∀ l, f s l = g l) : ∃ t, e = .next t ∧ MaskWrites s t o.k g := by
  obtain ⟨hrange, hhazard, hpoison⟩ := hc
  have hg : f s = g := funext hfg
  exact ⟨maskEff o.k f s, by rw [he, K3.word, issueWord_eff _ ((rangeTrap_none s _).mpr hrange) hhazard, readGuard_clear _ hpoison],
    hg ▸ maskEff_maskWrites o.k f s⟩

/-- R110: the compares of 32-bit integers. -/
theorem exec_compare {row : (K3 → Instr) × (W → W → Bool)} (hrow : row ∈ compareRows) (hc : ReadsClear s o 1) :
    ∃ t, exec (row.1 o) s = .next t ∧ MaskWrites s t o.k (fun l => (row.2 (o.a.val s l) (o.b.val s l), 0)) := by
  unfold compareRows at hrow
  fin_cases hrow
  · exact exec_maskWrites hc rfl fun l => rfl
  · exact exec_maskWrites hc rfl fun l => by simp [bne, beq_eq_decide]
  · exact exec_maskWrites hc rfl fun l => rfl
  · exact exec_maskWrites hc rfl fun l => rfl
  · exact exec_maskWrites hc rfl fun l => rfl
  · exact exec_maskWrites hc rfl fun l => rfl

/-- R110: the compares of 64-bit integers. -/
theorem exec_compare64 {row : (K3 → Instr) × Ext × (W64 → W64 → Bool)} (hrow : row ∈ compare64Rows) (hc : ReadsClear s o 2) :
    ∃ t, exec (row.1 o) s = .next t ∧
      MaskWrites s t o.k (fun l => (row.2.2 (o.a.val64 row.2.1 s l) (o.b.val64 row.2.1 s l), 0)) := by
  unfold compare64Rows at hrow
  fin_cases hrow <;> exact exec_maskWrites hc rfl fun l => rfl

/-- R116: the floating-point compares. -/
theorem exec_floatCompare {row : (K3 → Instr) × Nat × (W → W64 → W64 → Bool × Flags)} (hrow : row ∈ floatCompareRows)
    (hc : ReadsClear s o row.2.1) :
    ∃ t, exec (row.1 o) s = .next t ∧ MaskWrites s t o.k (fun l =>
      if row.2.1 = 1 then row.2.2 s.g.fmode (zext64 (o.a.val s l)) (zext64 (o.b.val s l))
      else row.2.2 s.g.fmode (o.a.val64 .float s l) (o.b.val64 .float s l)) := by
  unfold floatCompareRows at hrow
  fin_cases hrow
  · exact exec_maskWrites hc rfl fun l => by simp only [if_true, lowWord_zext64]; rfl
  · exact exec_maskWrites hc rfl fun l => by simp only [if_true, lowWord_zext64]; rfl
  · exact exec_maskWrites hc rfl fun l => by simp only [if_true, lowWord_zext64]; rfl
  · exact exec_maskWrites hc rfl fun l => by simp only [if_true, lowWord_zext64]; rfl
  · exact exec_maskWrites hc rfl fun l => rfl
  · exact exec_maskWrites hc rfl fun l => rfl

end

/-- Settles O3: each clause by the lemma on its rows. -/
theorem compareResults : Obligations.CompareResults :=
  ⟨fun _ hrow _ _ hc => exec_compare hrow hc, fun _ hrow _ _ hc => exec_compare64 hrow hc,
    fun _ hrow _ _ hc => exec_floatCompare hrow hc⟩

/-- R15, R226: a write of a mask operand. -/
theorem maskSet_maskOperandWrites (k : Nat) (x : W) (s : State) : MaskOperandWrites s (maskSet k x s) k x := by
  refine ⟨fun hk => ?_, fun hk => ?_⟩
  · have hset : maskSet k x s = kSet k x s := if_neg (by omega)
    rw [hset]
    exact ⟨by simp, fun j hj => by simp [hj], rfl⟩
  · have hset : maskSet k x s = emSet x s := if_pos hk
    rw [hset]
    exact ⟨rfl, rfl⟩

/-- R140: a word without checks, which names no vector register and writes a mask operand. -/
theorem issueWord_maskOperandWrites {s : State} {ss : List Nat} {k : Nat} (hh : hazard s [] ss = false) (x : State → W) :
    ∃ t, issueWord none [] ss (fun t => maskSet k (x t) t) s = .next t ∧ MaskOperandWrites s t k (x s) :=
  ⟨_, issueWord_eff _ rfl hh, maskSet_maskOperandWrites k (x s) s⟩

/-- R140: the mask words of two sources combine them lane by lane. -/
theorem exec_mask2 {row : (M3 → Instr) × (Bool → Bool → Bool)} (hrow : row ∈ mask2Rows) (o : M3) (s : State) :
    ∃ f : W → W → W, exec (row.1 o) s = maskWord o f s ∧
      ∀ a b l, l < 32 → inMask (f a b) l = row.2 (inMask a l) (inMask b l) := by
  unfold mask2Rows at hrow
  fin_cases hrow
  · exact ⟨fun a b => a &&& b, rfl, fun a b l _ => inMask_and a b l⟩
  · exact ⟨fun a b => a ||| b, rfl, fun a b l _ => BitVec.getLsbD_or⟩
  · exact ⟨fun a b => a ^^^ b, rfl, fun a b l _ => BitVec.getLsbD_xor⟩
  · exact ⟨fun a b => a &&& ~~~ b, rfl, fun a b l hl => by simp [inMask, hl]⟩

/-- R140: whether each active lane's word is not zero. -/
theorem exec_mnz {o : MnzOp} {s : State} (hr : ∀ p ∈ o.a.range 1, p.1 + p.2 ≤ s.g.nregs)
    (hh : hazard s (regsOf (o.a.range 1)) [] = false) (hp : poisonedLane s (regsOf (o.a.range 1)) = none) :
    exec (.mnz o) s = .next (maskSet o.k (maskOf (fun l => inMask s.sp.em l && o.a.val s l != 0)) s) :=
  (issueWord_eff _ ((rangeTrap_none s _).mpr hr) hh).trans (congrArg _ (readGuard_clear _ hp))

/-- R130: an instruction that is a scalar word of result x. -/
theorem exec_scalarWrites {e : Out} {s : State} {d : Nat} {srcs : List Nat} {f : State → W64} {x : W64}
    (hh : hazard s [] (d :: srcs) = false) (he : e = scaWord d srcs f s) (hx : f s = x) : ∃ t, e = .next t ∧ ScalarWrites s t d x :=
  ⟨sSet d x s, by rw [he, scaWord, issueWord_eff _ rfl hh, hx], sSet_scalarWrites d x s⟩

/-- R131: a truth value as a number. -/
theorem truth_eq_ofNat (b : Bool) : truth b = BitVec.ofNat 64 b.toNat := by cases b <;> rfl

/-- R131: the scalar words of two operands compute what their rows say. -/
theorem exec_scalar {row : (S3 → Instr) × (W64 → W64 → W64)} (hrow : row ∈ scalarRows) (o : S3) (s : State) :
    ∃ f, exec (row.1 o) s = o.word f s ∧ ∀ a b, f a b = row.2 a b := by
  unfold scalarRows at hrow
  fin_cases hrow
  · exact ⟨_, (rfl : _ = execSadd o s), add_eq_ofInt⟩
  · exact ⟨_, (rfl : _ = execSsub o s), sub_eq_ofInt⟩
  · exact ⟨_, (rfl : _ = execSmul o s), mul_eq_ofInt⟩
  · exact ⟨_, (rfl : _ = execSmulhiN64 o s), fun a b => rfl⟩
  · exact ⟨_, (rfl : _ = execSand o s), fun a b => rfl⟩
  · exact ⟨_, (rfl : _ = execSor o s), fun a b => rfl⟩
  · exact ⟨_, (rfl : _ = execSxor o s), fun a b => rfl⟩
  · exact ⟨_, (rfl : _ = execSshl o s), fun a b => shiftLeft_eq_ofNat a _⟩
  · exact ⟨_, (rfl : _ = execSshr o s), fun a b => shiftRight_eq_ofNat a _⟩
  · exact ⟨_, (rfl : _ = execSsra o s), fun a b => sshiftRight_eq_ofInt a _⟩
  · exact ⟨_, (rfl : _ = execSminI64 o s), minSigned_eq_ofInt⟩
  · exact ⟨_, (rfl : _ = execSmaxI64 o s), maxSigned_eq_ofInt⟩
  · exact ⟨_, (rfl : _ = execSminN64 o s), minUnsigned_eq_ofNat⟩
  · exact ⟨_, (rfl : _ = execSmaxN64 o s), maxUnsigned_eq_ofNat⟩
  · exact ⟨_, (rfl : _ = execSsetEq o s), fun a b => truth_eq_ofNat _⟩
  · exact ⟨_, (rfl : _ = execSsetLtI64 o s), fun a b => truth_eq_ofNat _⟩
  · exact ⟨_, (rfl : _ = execSsetLtN64 o s), fun a b => truth_eq_ofNat _⟩
  · exact ⟨_, (rfl : _ = execShi o s), joinWords_lowWord⟩

/-- R132: the word of a lane of the vector register that A numbers, where the group has no marked word. -/
theorem exec_sfromLane {o : S3} {s : State} (hr : (o.a.val s).toNat < s.g.nregs) (hn : (o.a.val s).toNat ≤ 126)
    (hh : hazard s [(o.a.val s).toNat] (o.d :: (o.a.scalars ++ o.b.scalars)) = false) (hp : s.g.regPoison = []) :
    exec (.sfromLane o) s = .next (sSet o.d (zext64 (vGet s (o.a.val s).toNat ((o.b.val s).toNat % 32))) s) := by
  have htrap : trapIf (decide (126 < (o.a.val s).toNat ∨ s.g.nregs ≤ (o.a.val s).toNat)) .registerRange = none :=
    (trapIf_none _ _).mpr (decide_eq_false (by omega))
  change execSfromLane o s = _
  rw [execSfromLane, issueWord_eff _ htrap hh, hp]
  rfl

/-- Settles O8: each clause by the lemma on its rows or its word. -/
theorem maskAndScalarResults : Obligations.MaskAndScalarResults := by
  refine ⟨?mask2, ?mnot, ?mmov, ?mfrom, ?mnz, ?scalar, ?smov, ?sfromLane, ?maskToScalar⟩
  case mask2 =>
    intro row hrow o s
    obtain ⟨f, hexec, hlanes⟩ := exec_mask2 hrow o s
    obtain ⟨t, hnext, hwrites⟩ := issueWord_maskOperandWrites (k := o.k) (hazard_nil s) (fun u => f (maskGet u o.a) (maskGet u o.b))
    exact ⟨t, hexec.trans hnext, _, fun l hl => hlanes _ _ l hl, hwrites⟩
  case mnot => exact fun o s => issueWord_maskOperandWrites (hazard_nil s) (fun u => ~~~ maskGet u o.a)
  case mmov => exact fun o s => issueWord_maskOperandWrites (hazard_nil s) (fun u => maskGet u o.a)
  case mfrom => exact fun o s hh => issueWord_maskOperandWrites hh (fun u => lowWord (o.a.val u))
  case mnz => exact fun o s hr hh hp => ⟨_, exec_mnz hr hh hp, _, fun l hl => inMask_maskOf _ hl, maskSet_maskOperandWrites _ _ _⟩
  case scalar =>
    intro row hrow o s hh
    obtain ⟨f, hexec, hf⟩ := exec_scalar hrow o s
    exact exec_scalarWrites hh hexec (hf _ _)
  case smov => exact fun o s hh => exec_scalarWrites hh (rfl : _ = o.word (fun a => a) s) rfl
  case sfromLane => exact fun o s hr hn hh hp => ⟨_, exec_sfromLane hr hn hh hp, sSet_scalarWrites _ _ _⟩
  case maskToScalar =>
    intro o s hh
    exact ⟨exec_scalarWrites hh (rfl : _ = execMcount o s) (congrArg _ (popCount_eq_countP 32 _)),
      exec_scalarWrites hh (rfl : _ = execMfirst o s) (congrArg _ (lowestBit_eq_find? 32 _))⟩

end Sys2Proof.Machine
end

section
/-! Loads go out (R142 to R145, R147, R148). -/

namespace Sys2Proof.Machine

open Sys2Proof Sys2Proof.Claims

/-- R7: a mask with a lane has a lowest one. -/
theorem lanesOf_ne_nil {m : W} (h : m ≠ 0) : lanesOf m ≠ [] := by
  obtain ⟨l, -, hl⟩ : ∃ l < 32, inMask m l ≠ inMask 0 l := by simpa using (mask_eq_iff m 0).not.mp h
  exact List.ne_nil_of_mem ((mem_lanesOf m l).mpr (by simpa [inMask] using hl))

/-- R142: some lane's address is formed where some lane is active. -/
theorem laneAddrs_ne_nil {s : State} (h : s.sp.em ≠ 0) (m : MAddr) : laneAddrs m s ≠ [] := by
  simpa [laneAddrs] using lanesOf_ne_nil h

/-- R142: no lane's address is formed where none is active. -/
theorem laneAddrs_nil {s : State} (h : s.sp.em = 0) (m : MAddr) : laneAddrs m s = [] := by
  simp [laneAddrs, h, lanesOf, inMask]

/-- R145, R147: what a lane of a load takes as it issues. -/
theorem takenLane_loadLane (s : State) (n txLane : Nat) (p : Nat × Nat × Place) :
    TakenLane s n (loadLane s n p.1 txLane p.2.2) p := by
  obtain ⟨lane, a, place⟩ := p
  cases place with
  | mem va =>
    cases htx : s.g.tx with
    | none => exact ⟨by simp [loadLane, htx], by simp [loadLane, htx], by simp +contextual [loadLane, htx]⟩
    | some t =>
      cases hin : inTx s with
      | false => exact ⟨by simp [loadLane, htx, hin], by simp [loadLane, htx, hin], by simp +contextual [loadLane, htx, hin]⟩
      | true => exact ⟨by simp [loadLane, htx, hin], by simp [loadLane, htx, hin], by simp [loadLane, htx, hin]⟩
  | store off => exact ⟨rfl, by simp [loadLane, Place.bytes], by simp +contextual [loadLane, Place.bytes]⟩
  | quad off => exact ⟨rfl, by simp [loadLane, Place.bytes], by simp +contextual [loadLane, Place.bytes]⟩
  | param va => exact ⟨rfl, by simp [loadLane], by simp +contextual [loadLane]⟩
  | past => exact ⟨rfl, by simp [loadLane], by simp +contextual [loadLane]⟩

/-- R144, R145: a load of places that pass goes out with a lane for each of them. -/
theorem sendLoad_loadSent (k : LoadKind) (n : Nat) (scalar : Bool) (ps : List (Nat × Nat × Place)) (s : State) :
    LoadSent s (sendLoad k n scalar ps s) k n ps := by
  refine ⟨_, rfl, rfl, rfl, rfl, rfl, rfl, rfl, rfl, ?_⟩
  rw [List.forall₂_map_left_iff]
  exact List.forall₂_same.mpr fun p _ => takenLane_loadLane s n _ p

/-- R142 to R145: a load of lanes whose places pass goes out. -/
theorem loadEff_sends {s : State} {n : Nat} {lanes : List (Nat × W64)} {ps : List (Nat × Nat × Place)} (k : LoadKind) (scalar : Bool)
    (hl : lanes ≠ []) (hL : s.g.cntL < 63) (hp : placesOf s loadSpaces n lanes = .ok ps) (hf : Free s n ps) :
    loadEff k n scalar lanes s = sendLoad k n scalar ps s := by
  have hcopy : ps.any (fun p => copyHeld s p.2.2 n) = false := List.any_eq_false.mpr fun p hm => by simp [(hf p hm).1]
  have hpoison : ps.find? (fun p => p.2.2.poisoned s n) = none := List.find?_eq_none.mpr fun p hm => by simp [(hf p hm).2]
  simp [loadEff, hl, Nat.not_le.mpr hL, hp, hcopy, hpoison]

/-- R145: the rows of the vector loads name the loads of their bytes. -/
theorem exec_load {row : (LdOp → Instr) × Nat × Bool} (h : row ∈ loadRows) (o : LdOp) (s : State) :
    exec (row.1 o) s = vecLoad o row.2.1 row.2.2 s := by
  unfold loadRows at h
  fin_cases h <;> rfl

/-- R145: a vector load that lets itself be issued has its effect. -/
theorem vecLoad_effect {o : LdOp} {n : Nat} {s : State} (h : Clear s o.d (max 1 (n / 4)) (o.mem.off.range 1) [o.mem.base])
    (signed : Bool) : vecLoad o n signed s = .next (loadEff (.vec o.d n signed) n false (laneAddrs o.mem s) s) :=
  clearWord_effect h _

/-- R147: the rows of the parameter loads name the loads of their bytes. -/
theorem exec_param {row : (LpOp → Instr) × Nat} (h : row ∈ paramRows) (o : LpOp) (s : State) :
    exec (row.1 o) s = paramLoad o row.2 s := by
  unfold paramRows at h
  fin_cases h <;> rfl

/-- R147: a parameter load whose offset passes goes out for every active lane. -/
theorem paramEff_sends {o : LpOp} {n : Nat} {s : State} {p : Place} (hem : s.sp.em ≠ 0) (hL : s.g.cntL < 63)
    (hp : paramPlace s o.win (o.off.toNat * 2 ^ o.scale) n = .ok p) :
    paramEff o n s = sendLoad (.vec o.d n false) n false ((lanesOf s.sp.em).map (fun l => (l, 0, p))) s := by
  obtain ⟨low, rest, hlanes⟩ := List.exists_cons_of_ne_nil (lanesOf_ne_nil hem)
  simp [paramEff, hlanes, Nat.not_le.mpr hL, hp]

/-- R147: a parameter load that lets itself be issued has its effect. -/
theorem paramLoad_effect {o : LpOp} {n : Nat} {s : State} (h : Clear s o.d (n / 4) [] []) :
    paramLoad o n s = .next (paramEff o n s) := by
  obtain ⟨hrange, hlive, hhazard, -⟩ := h
  refine issueWord_eff _ ((firstTrap_none _).mpr ?_) (by simpa [regsOf] using hhazard)
  simpa [rangeTrap_none, liveTrap_none] using ⟨hrange _ (List.mem_singleton_self _), hlive⟩

/-- Settles O9: each form of a load is its effect, which sends it. -/
theorem loadsGoOut : Obligations.LoadsGoOut := by
  refine ⟨?vector, ?parameter, ?scalar, ?idle⟩
  case vector =>
    intro row hrow o s ps hc hem hL hp hf
    rw [exec_load hrow, vecLoad_effect hc, loadEff_sends _ _ (laneAddrs_ne_nil hem _) hL hp hf]
    exact ⟨_, rfl, sendLoad_loadSent _ _ _ _ s⟩
  case parameter =>
    intro row hrow o s p hc hem hL hp
    rw [exec_param hrow, paramLoad_effect hc, paramEff_sends hem hL hp]
    exact ⟨_, rfl, sendLoad_loadSent _ _ _ _ s⟩
  case scalar =>
    intro o s ps hh hL hp hf
    have heff := issueWord_eff (fun t => loadEff (.scalar o.d) 8 true [(0, scalarAddr o t)] t) rfl hh
    exact ⟨_, heff.trans (congrArg _ (loadEff_sends _ _ (List.cons_ne_nil _ _) hL hp hf)), sendLoad_loadSent _ _ _ _ s⟩
  case idle =>
    intro row hrow o s hc hem
    rw [exec_load hrow, vecLoad_effect hc, laneAddrs_nil hem]
    rfl

end Sys2Proof.Machine
end

section
/-! The prefetch (R149, R411). -/

namespace Sys2Proof.Machine

open Sys2Proof Sys2Proof.Claims

/-- A group of a context of owner 0, which has no owner record, with lane 0 active. A page of 512 MiB at address 0 is mapped
readable at home, the core's lookaside holds it, and the home slice holds no line. -/
def prefetchForUnrecorded : State :=
  { State.reset with
    g := { Group.idle with gid := 1, ctx := 9 }
    sp := { Split.idle with em := 1 }
    mem := [(0, 1), (5, 2), (65536, 5)]
    ms := { State.reset.ms with attrs := [⟨0, 0, 0, 0, 2, 1, 0, 0, 0, 0⟩] }
    ten := { State.reset.ten with ctxs := [{ placedContext with num := 9, root1 := 0 }] } }

/-- A prefetch of the line at address 0. -/
def prefetchOfZero : PfOp := ⟨⟨0, .lit 0, 0⟩⟩

/-- How many owner records an outcome leaves. -/
def ownerRecords : Out → Nat
  | .next t => t.ten.owners.length
  | .fault _ => 0
  | .refused _ => 0

/-- R411: the fill of the line at its home is charged to owner 0, who receives a record. -/
theorem execPrefetch_records {t : State} (h : exec (.prefetch prefetchOfZero) prefetchForUnrecorded = .next t) :
    t.ten.owners.length = 1 := by
  have hrun : ownerRecords (exec (.prefetch prefetchOfZero) prefetchForUnrecorded) = 1 := by decide +kernel
  rwa [h] at hrun

/-- Refutes O11: nothing in its clause on the prefetch says that the owner of the context has a record; where it has none, the fill of
the line makes one, so that the owners are not the same. -/
theorem not_apertureResults : ¬ Obligations.ApertureResults := by
  unfold Obligations.ApertureResults
  intro h
  obtain ⟨-, -, -, hprefetch⟩ := h _ (List.mem_cons_self ..)
  obtain ⟨t, hrun, -, howners⟩ := hprefetch prefetchOfZero prefetchForUnrecorded (by simp [prefetchOfZero, VSrc.range]) rfl rfl
  have hlen := congrArg List.length howners
  rw [List.length_map, List.length_map, execPrefetch_records hrun] at hlen
  exact absurd hlen (by decide)

end Sys2Proof.Machine
end

section
/-! What an address, an operand and the keystone's queue of a split depend on, and that a boundary leaves it alone (R78, R143, R300,
R313). -/

namespace Sys2Proof.Machine

open Sys2Proof Sys2Proof.Claims

/-- A changed list reads as before where the change touches neither the key nor what is read. -/
theorem find?_updateFirst_map {α γ : Type} {q : α → Bool} {f : α → α} {r : α → γ} (hq : ∀ x, q (f x) = q x)
    (hr : ∀ x, r (f x) = r x) (p : α → Bool) (xs : List α) : ((updateFirst p f xs).find? q).map r = (xs.find? q).map r := by
  induction xs with
  | nil => rfl
  | cons x xs ih =>
    unfold updateFirst
    split
    · simp only [List.find?_cons, hq]
      split <;> simp [hr]
    · simp only [List.find?_cons]
      split <;> [rfl; exact ih]

/-- R143, R147, R275: what the checks of an address read of the state. -/
def addressView (s : State) : List Viaduct × Nat × Nat × Option Nat :=
  (s.viaducts, s.g.viaduct, s.g.lslot, (ctxOf? s s.g.ctx).map Context.lbase)

/-- R143: an address goes where it went, as long as what its checks read stays. -/
theorem placeOf_congr {s t : State} (h : addressView t = addressView s) (allowed : List Space) (n lane : Nat) (a : W64) :
    placeOf t allowed n lane a = placeOf s allowed n lane a := by
  simp only [addressView, Prod.mk.injEq] at h
  obtain ⟨hv, hgv, hslot, hbase⟩ := h
  have hlaunch : launchOf? t = launchOf? s := by simp only [launchOf?, viaductOf?, hv, hgv]
  have hextent (sp : Space) : extentOf t sp = extentOf s sp := by simp only [extentOf, hlaunch]
  have hbind (w : Nat) : bindingOf? t w = bindingOf? s w := by simp only [bindingOf?, viaductOf?, hv, hgv]
  have hlocal (o : Nat) : localBacking t lane o = localBacking s lane o := by
    have hb : ((ctxOf? t t.g.ctx).map (fun c => c.lbase)).getD 0 = ((ctxOf? s s.g.ctx).map (fun c => c.lbase)).getD 0 :=
      congrArg (fun b => b.getD 0) hbase
    simp only [localBacking, hb, hslot]
  simp only [placeOf, hextent, hbind, hlocal]

theorem placesOf_congr {s t : State} (h : addressView t = addressView s) (allowed : List Space) (n : Nat) (lanes : List (Nat × W64)) :
    placesOf t allowed n lanes = placesOf s allowed n lanes := by
  induction lanes with
  | nil => rfl
  | cons p rest ih => simp only [placesOf, placeOf_congr h, ih]

/-- R143, R274: where an address that passes its checks goes, in the space that it names. -/
def goesTo (s : State) (n lane : Nat) (a : W64) (p : Place) : Space → Prop
  | .glob => p = .mem a.toNat
  | .loc => p = .mem (localBacking s lane (bitsOf a.toNat 47 0))
  | .store => p = .store (bitsOf a.toNat 47 0)
  | .quad => p = .quad (bitsOf a.toNat 47 0)
  | .param => ∃ b, bindingOf? s (bitsOf a.toNat 35 32) = some b ∧
      p = if b.size < a.toNat % 2 ^ 32 + n then .past else .param (b.base + a.toNat % 2 ^ 32)

/-- R143: an address that passes its checks names an allowed space, is aligned, and goes to its place in the space. -/
theorem placeOf_ok {s : State} {allowed : List Space} {n lane : Nat} {a : W64} {p : Place} (h : placeOf s allowed n lane a = .ok p) :
    ∃ sp ∈ allowed, a.toNat % n = 0 ∧ goesTo s n lane a p sp := by
  unfold placeOf at h
  dsimp only at h
  split at h
  · cases h
  split at h
  · cases h
  next sp _ =>
    generalize hoff : (if sp = Space.glob then a.toNat else bitsOf a.toNat 47 0) = off at h
    split at h
    · cases h
    next hallowed =>
    split at h
    · cases h
    next haligned =>
    have hmem : sp ∈ allowed := by
      simp only [Bool.or_eq_true, not_or, Bool.not_eq_true', Bool.not_eq_false] at hallowed
      simpa using hallowed.1
    refine ⟨sp, hmem, not_not.mp haligned, ?_⟩
    cases sp with
    | glob => cases h; rfl
    | loc => cases h; exact congrArg (fun o => Place.mem (localBacking s lane o)) hoff.symm
    | store => cases h; exact congrArg Place.store hoff.symm
    | quad => cases h; exact congrArg Place.quad hoff.symm
    | param =>
      dsimp only at h
      split at h
      · cases h
      next b hb =>
        refine ⟨b, hb, ?_⟩
        split at h
        next hpast => cases h; exact (if_pos hpast).symm
        next hin => cases h; exact (if_neg hin).symm

/-- R143: each place of the lanes that pass is the place of one of their addresses. -/
theorem placesOf_mem {s : State} {allowed : List Space} {n : Nat} {lanes : List (Nat × W64)} {ps : List (Nat × Nat × Place)}
    (h : placesOf s allowed n lanes = .ok ps) {q : Nat × Nat × Place} (hq : q ∈ ps) : ∃ a, placeOf s allowed n q.1 a = .ok q.2.2 := by
  induction lanes generalizing ps with
  | nil => cases h; cases hq
  | cons x rest ih =>
    obtain ⟨l, a⟩ := x
    simp only [placesOf] at h
    split at h
    · cases h
    next p hp =>
      split at h
      · cases h
      next ps' hps =>
        cases h
        obtain rfl | hq := List.mem_cons.mp hq
        · exact ⟨a, hp⟩
        · exact ih hps hq

/-- R78: a lane's address depends on the registers alone. -/
theorem addr_congr {s t : State} (hr : t.g.regs = s.g.regs) (hs : t.g.sregs = s.g.sregs) (m : MAddr) (l : Nat) :
    m.addr t l = m.addr s l := by
  have hv (r : Nat) : vGet t r l = vGet s r l := by simp only [vGet, gReg, hr]
  cases hoff : m.off <;> simp only [MAddr.addr, MAddr.offset, sGet, hs, hoff, VSrc.val, hv]

/-- R152: a lane's operands depend on the registers alone. -/
theorem atomOperand_congr {s t : State} (hr : t.g.regs = s.g.regs) (op d : Nat) (lit : Option W) (l : Nat) :
    atomOperand op d lit l t = atomOperand op d lit l s := by
  have hv (r : Nat) : vGet t r l = vGet s r l := by simp only [vGet, gReg, hr]
  cases lit <;> simp only [atomOperand, vGet64, hv]

/-- R313: what a group is known by: its number and its place. -/
def groupPlace (g : Group) : Nat × Nat × Nat := (g.gid, g.die, g.core)

/-- R313: groups are where they were, as long as the other groups and the place of the group in focus stay. -/
theorem groupOf?_place {s t : State} (hgs : t.groups = s.groups) (hg : groupPlace t.g = groupPlace s.g) (n : Nat) :
    (groupOf? t n).map groupPlace = (groupOf? s n).map groupPlace := by
  have hgid : t.g.gid = s.g.gid := congrArg Prod.fst hg
  simp only [groupOf?, allGroups, hgid, hgs]
  split
  · rfl
  · rw [List.find?_cons, List.find?_cons, hgid]
    split <;> [exact congrArg some hg; rfl]

/-- R313: the keystone's queue is as full as before where the atomics, the other groups, and the place of the group in focus stay. -/
theorem keystoneFull_congr {s t : State} (hgs : t.groups = s.groups) (hg : groupPlace t.g = groupPlace s.g)
    (ha : t.ms.atoms = s.ms.atoms) : keystoneFull t t.g = keystoneFull s s.g := by
  have hqueue (die quad : Nat) : keystoneQueue t die quad = keystoneQueue s die quad := by
    unfold keystoneQueue
    rw [ha]
    refine List.filter_congr fun a _ => congrArg _ ?_
    have hplace := groupOf?_place hgs hg a.gid
    cases ht : groupOf? t a.gid <;> cases hs : groupOf? s a.gid <;> simp_all [groupPlace]
  simp only [groupPlace, Prod.mk.injEq] at hg
  obtain ⟨hgid, hdie, hcore⟩ := hg
  simp only [keystoneFull, hqueue, hgid, hdie, hcore]

/-- The number and the active lanes of the split in focus. -/
def lanesView (s : State) : Nat × W := (s.sp.num, s.sp.em)

/-- R300: a boundary leaves the split its number and its active lanes. -/
theorem commitRegion_lanesView (s : State) : lanesView (commitRegion s) = lanesView s := by
  have hbeats (n : Nat) (u : State) : lanesView (addBeats n u) = lanesView u := by
    unfold addBeats
    split <;> rfl
  have hpend (u : State) (p : Pending) : lanesView (applyPending p u) = lanesView u := by cases p <;> rfl
  unfold commitRegion
  exact (foldl_keeps lanesView hpend _ _).trans (hbeats s.sp.beats _)

/-- R153, R300: after a boundary no lane of an atomic to come is done. -/
theorem commitRegion_done (s : State) : (commitRegion s).sp.done = 0 := rfl

/-- R275: a change of a context that leaves its number and local base alone. -/
theorem ctxOf?_modCtx_lbase {f : Context → Context} (hnum : ∀ c, (f c).num = c.num) (hbase : ∀ c, (f c).lbase = c.lbase) (k : Nat)
    (s : State) (n : Nat) : (ctxOf? (modCtx k f s) n).map Context.lbase = (ctxOf? s n).map Context.lbase :=
  find?_updateFirst_map (fun c => by rw [hnum]) hbase _ _

/-- R275, R300: a boundary leaves a context's local base alone. -/
theorem commitRegion_lbase (s : State) (n : Nat) :
    (ctxOf? (commitRegion s) n).map Context.lbase = (ctxOf? s n).map Context.lbase := by
  have hbeats (k : Nat) (u : State) : (ctxOf? (addBeats k u) n).map Context.lbase = (ctxOf? u n).map Context.lbase := by
    unfold addBeats
    split
    · rfl
    · exact ctxOf?_modCtx_lbase (by intro; rfl) (by intro; rfl) _ u n
  have hpend (u : State) (p : Pending) : (ctxOf? (applyPending p u) n).map Context.lbase = (ctxOf? u n).map Context.lbase := by
    cases p <;> rfl
  unfold commitRegion
  exact (foldl_keeps (fun u : State => (ctxOf? u n).map Context.lbase) hpend _ _).trans (hbeats s.sp.beats _)

end Sys2Proof.Machine
end

section
/-! An atomic ends its region and sends its lanes (R151, R153, R300, R313). -/

namespace Sys2Proof.Machine

open Sys2Proof Sys2Proof.Claims

/-- The state in which an atomic sends its lanes: after the boundary, the region PC at the word. -/
def atSending (s : State) : State :=
  let t := settleCheckpoint s.iss.clause s.iss.word (afterBoundary s)
  { t with sp := { t.sp with bndPending := false } }

theorem atSending_frame (s : State) : withBoundaryOf s (atSending s) = s :=
  (congrArg (fun u : State => { u with sp := s.sp }) (afterBoundary_frame s) :)

theorem atSending_kept (s : State) : Kept s (atSending s) := (kept_iff _ _).mpr (congrArg keptView (atSending_frame s) :)

/-- R143, R300: addresses go where they went before the boundary. -/
theorem addressView_atSending (s : State) : addressView (atSending s) = addressView s := by
  have hview : ((atSending s).viaducts, (atSending s).g.viaduct, (atSending s).g.lslot) = (s.viaducts, s.g.viaduct, s.g.lslot) :=
    (congrArg (fun u : State => (u.viaducts, u.g.viaduct, u.g.lslot)) (atSending_frame s) :)
  have hctx : (atSending s).g.ctx = s.g.ctx := (congrArg (fun u : State => u.g.ctx) (atSending_frame s) :)
  simp only [Prod.mk.injEq] at hview
  obtain ⟨hv, hgv, hslot⟩ := hview
  have hbase : (ctxOf? (atSending s) s.g.ctx).map Context.lbase = (ctxOf? s s.g.ctx).map Context.lbase :=
    commitRegion_lbase (atWord s) s.g.ctx
  simp only [addressView, hv, hgv, hslot, hctx, hbase]

/-- R153: the lanes to send are those that the word names. -/
theorem atomPlaces_atSending (op : Nat) (m : MAddr) (s : State) :
    atomPlaces op m (atSending s) = placesOf s storeSpaces (atomSize op) (laneAddrs m s) := by
  obtain ⟨hregs, hsregs, -⟩ := atSending_kept s
  have hem : (atSending s).sp.em = s.sp.em := congrArg Prod.snd (commitRegion_lanesView (atWord s))
  have hdone : (atSending s).sp.done = 0 := commitRegion_done (atWord s)
  have hactive : (atSending s).sp.em &&& ~~~ (atSending s).sp.done = s.sp.em := by
    rw [hem, hdone]
    exact BitVec.and_allOnes
  simp only [atomPlaces, hactive, placesOf_congr (addressView_atSending s), addr_congr hregs hsregs, laneAddrs]

/-- R153: the lanes of an atomic that go to homes. -/
def homeLanes (ps : List (Nat × Nat × Place)) (arg : Nat → W64 × W64) : List (Nat × Nat × W64 × W64) :=
  ps.filterMap (fun p => match p.2.2 with | .mem va => some (p.1, va, (arg p.1).1, (arg p.1).2) | _ => none)

/-- R313: the lanes of an atomic that go to the keystone. -/
def chipLanes (ps : List (Nat × Nat × Place)) (arg : Nat → W64 × W64) : List (Nat × Nat × W64 × W64) :=
  ps.filterMap (fun p => if p.2.2.onChip then some (p.1, p.2.1, (arg p.1).1, (arg p.1).2) else none)

/-- R143, R151: a lane of an atomic goes to its home or to the keystone. -/
theorem homeLanes_or_chipLanes {s : State} {n : Nat} {lanes : List (Nat × W64)} {ps : List (Nat × Nat × Place)}
    (h : placesOf s storeSpaces n lanes = .ok ps) (hne : ps ≠ []) (arg : Nat → W64 × W64) :
    homeLanes ps arg ≠ [] ∨ chipLanes ps arg ≠ [] := by
  obtain ⟨⟨l, a, p⟩, rest, rfl⟩ := List.exists_cons_of_ne_nil hne
  obtain ⟨x, hx⟩ := placesOf_mem h (List.mem_cons_self ..)
  obtain ⟨sp, hsp, -, hplace⟩ := placeOf_ok hx
  cases sp with
  | glob => exact .inl (by simp [homeLanes, show p = _ from hplace])
  | loc => exact .inl (by simp [homeLanes, show p = _ from hplace])
  | store => exact .inr (by simp [chipLanes, show p = _ from hplace, Place.onChip])
  | quad => exact .inr (by simp [chipLanes, show p = _ from hplace, Place.onChip])
  | param => simp [storeSpaces] at hsp

/-- R20, R153, R313: the lanes of an atomic are sent at once where L and the keystone have room. -/
theorem runMicro_atomIssue {op : Nat} {o : CasOp} {lit : Option W} {s : State} {ps : List (Nat × Nat × Place)}
    (hp : placesOf s storeSpaces (atomSize op) (laneAddrs o.mem s) = .ok ps) (hL : s.g.cntL < 63)
    (hk : (∃ p ∈ ps, p.2.2.onChip = true) → keystoneFull s s.g = false) :
    runMicro (.atomIssue op o lit) (afterBoundary s) =
      .done (sendAtom op (if lit.isSome then none else some o.d) lit ps (atSending s)) := by
  have hiss : (afterBoundary s).iss = s.iss := (congrArg State.iss (afterBoundary_frame s) :)
  have hcnt : (atSending s).g.cntL = s.g.cntL := (congrArg (fun u : State => u.g.cntL) (atSending_frame s) :)
  have hfull : keystoneFull (atSending s) (atSending s).g = keystoneFull s s.g :=
    keystoneFull_congr (congrArg State.groups (atSending_frame s) :) (congrArg (fun u : State => groupPlace u.g) (atSending_frame s) :)
      (congrArg (fun u : State => u.ms.atoms) (atSending_frame s) :)
  have hroom : ¬(ps ≠ [] ∧ (63 ≤ (atSending s).g.cntL ∨
      (ps.any (fun p => p.2.2.onChip) ∧ keystoneFull (atSending s) (atSending s).g))) := by
    rintro ⟨-, hfullL | ⟨hchip, hfullK⟩⟩
    · omega
    · rw [hfull, hk (by simpa using hchip)] at hfullK
      cases hfullK
  have hplaces := (atomPlaces_atSending op o.mem s).trans hp
  simp only [runMicro, runAtomIssue, hiss]
  change (match atomPlaces op o.mem (atSending s) with
    | .error e => Ran.over (takeTrap e (atSending s))
    | .ok ps => if ps ≠ [] ∧ (63 ≤ (atSending s).g.cntL ∨
        (ps.any (fun p => p.2.2.onChip) ∧ keystoneFull (atSending s) (atSending s).g)) then
          .wait (.atomIssue op o lit) (atSending s)
        else .done (sendAtom op (if lit.isSome then none else some o.d) lit ps (atSending s))) = _
  rw [hplaces]
  exact if_neg hroom

/-- R151, R313: a request of the split in focus for some lanes of an atomic. -/
def atomRequest (s : State) (uid op : Nat) (d : Option Nat) (keystone : Bool) (lanes : List (Nat × Nat × W64 × W64)) : Atom :=
  { uid := uid, gid := s.g.gid, split := s.sp.num, clause := s.iss.clause, word := s.iss.word, op := op, d := d,
    keystone := keystone, lanes := lanes, faults := [] }

/-- R151, R153: the requests for the homes and for the keystone are outstanding, and L has risen by one. -/
theorem sendAtom_eq {ps : List (Nat × Nat × Place)} (h : ps ≠ []) (op : Nat) (d : Option Nat) (lit : Option W) (s : State) :
    let arg (l : Nat) := atomOperand op (d.getD 0) lit l s
    sendAtom op d lit ps s =
      { s with ms := { s.ms with atoms := s.ms.atoms ++ [atomRequest s s.uid op d false (homeLanes ps arg),
                                                        atomRequest s (s.uid + 1) op d true (chipLanes ps arg)] }
               g := { s.g with cntL := s.g.cntL + 1 }, uid := s.uid + 2 } := if_neg h

/-- R153: an atomic with lanes on their way waits for them. -/
theorem runMicro_atomWait {s : State} {a : Atom} (hm : a ∈ s.ms.atoms) (hg : a.gid = s.g.gid) (hs : a.split = s.sp.num)
    (hl : a.lanes ≠ []) : runMicro .atomWait s = .wait .atomWait s := by
  have hany : (ownAtoms s).any (fun a => a.lanes != []) = true :=
    List.any_eq_true.mpr ⟨a, List.mem_filter.mpr ⟨hm, by simp [hg, hs]⟩, by simpa using hl⟩
  simp [runMicro, runAtomWait, hany]

/-- R151, R153: an atomic that sends lanes waits for them. -/
theorem runMicro_atomWait_sent {s : State} {n : Nat} {lanes : List (Nat × W64)} {ps : List (Nat × Nat × Place)}
    (h : placesOf s storeSpaces n lanes = .ok ps) (hne : ps ≠ []) (op : Nat) (d : Option Nat) (lit : Option W) (u : State) :
    runMicro .atomWait (sendAtom op d lit ps u) = .wait .atomWait (sendAtom op d lit ps u) := by
  rw [sendAtom_eq hne]
  obtain hhome | hchip := homeLanes_or_chipLanes h hne (fun l => atomOperand op (d.getD 0) lit l u)
  · exact runMicro_atomWait (List.mem_append_right _ (List.mem_cons_self ..)) rfl rfl hhome
  · exact runMicro_atomWait (List.mem_append_right _ (List.mem_cons_of_mem _ (List.mem_cons_self ..))) rfl rfl hchip

/-- R143: as many places as lanes. -/
theorem placesOf_ne_nil {s : State} {allowed : List Space} {n : Nat} {lanes : List (Nat × W64)} {ps : List (Nat × Nat × Place)}
    (h : placesOf s allowed n lanes = .ok ps) (hl : lanes ≠ []) : ps ≠ [] := by
  obtain ⟨⟨l, a⟩, rest, rfl⟩ := List.exists_cons_of_ne_nil hl
  simp only [placesOf] at h
  split at h
  · cases h
  · split at h <;> cases h
    exact List.cons_ne_nil _ _

/-- The state after an atomic has sent its lanes. -/
def atomSentState (op : Nat) (d : Option Nat) (lit : Option W) (ps : List (Nat × Nat × Place)) (s : State) : State :=
  let t := sendAtom op d lit ps (atSending s)
  { t with sp := { t.sp with pend := [.atomWait, .boundary] } }

/-- R151, R153, R313: what an atomic that is executed leaves. -/
theorem atomSentState_sent {op : Nat} {d : Option Nat} {lit : Option W} {ps : List (Nat × Nat × Place)} {s : State}
    {arg : Nat → W64 × W64} (hne : ps ≠ []) (harg : ∀ l, atomOperand op (d.getD 0) lit l s = arg l) :
    AtomSent s (atomSentState op d lit ps s) op d ps arg := by
  obtain ⟨hregs, hsregs, hkregs, -, hflags, -, hmem, hwq, -⟩ := atSending_kept s
  have hatoms : (atSending s).ms.atoms = s.ms.atoms := (congrArg (fun u : State => u.ms.atoms) (atSending_frame s) :)
  have hL : (atSending s).g.cntL = s.g.cntL := (congrArg (fun u : State => u.g.cntL) (atSending_frame s) :)
  have hgid : (atSending s).g.gid = s.g.gid := (congrArg (fun u : State => u.g.gid) (atSending_frame s) :)
  have hnum : (atSending s).sp.num = s.sp.num := congrArg Prod.fst (commitRegion_lanesView (atWord s))
  have harg' : (fun l => atomOperand op (d.getD 0) lit l (atSending s)) = arg :=
    funext fun l => (atomOperand_congr hregs _ _ _ _).trans (harg l)
  have heq := sendAtom_eq hne op d lit (atSending s)
  dsimp only at heq
  rw [harg'] at heq
  unfold atomSentState
  rw [heq]
  let u := (atSending s).uid
  refine ⟨atomRequest (atSending s) u op d false (homeLanes ps arg), atomRequest (atSending s) (u + 1) op d true (chipLanes ps arg),
    congrArg (· ++ _) hatoms, congrArg (· + 1) hL, rfl, rfl, ?_, rfl, rfl, (Nat.lt_succ_self u).ne, rfl, hmem, hwq, hregs, hsregs,
    hkregs, hflags⟩
  intro x hx
  obtain rfl | rfl : x = _ ∨ x = _ := by simpa using hx
  · exact ⟨hgid, hnum, rfl, rfl, rfl⟩
  · exact ⟨hgid, hnum, rfl, rfl, rfl⟩

/-- R143, R151, R153: the effect of an atomic that is executed. -/
theorem atomEff_sends {op : Nat} {o : CasOp} {lit : Option W} {s : State} {regs : List (Nat × Nat)} {ps : List (Nat × Nat × Place)}
    (h : AtomReady s op o.mem regs ps) :
    atomEff op o lit s = atomSentState op (if lit.isSome then none else some o.d) lit ps s ∧ ps ≠ [] := by
  obtain ⟨-, hL, -, -, -, -, hbnd, hdone, hem, hplaces, hcopy, hfull, hend⟩ := h
  have hne : ps ≠ [] := placesOf_ne_nil hplaces (laneAddrs_ne_nil hem _)
  have hnow : atomPlaces op o.mem s = .ok ps := by
    have hactive : s.sp.em &&& ~~~ s.sp.done = s.sp.em := by
      rw [hdone]
      exact BitVec.and_allOnes
    simpa only [atomPlaces, hactive, laneAddrs] using hplaces
  have hroom : (ps.any (fun p => p.2.2.onChip) && keystoneFull s s.g) = false := by
    cases hchip : ps.any (fun p => p.2.2.onChip) with
    | false => rfl
    | true => exact hfull (by simpa using hchip)
  have hheld : ps.any (fun p => copyHeld s p.2.2 (atomSize op)) = false :=
    List.any_eq_false.mpr fun p hp => by simp [hcopy p hp]
  have hagain : atomAgain s = false := by simp [atomAgain, hbnd]
  have heff : atomEff op o lit s = blockOn [.boundary, .atomIssue op o lit, .atomWait, .boundary] s := by
    simp [atomEff, Nat.not_le.mpr hL, hnow, hroom, hheld, hagain]
  rw [heff, blockOn_boundary hend, runMicros_done (runMicro_atomIssue hplaces hL hfull),
    runMicros_wait (runMicro_atomWait_sent hplaces hne ..)]
  exact ⟨rfl, hne⟩

/-- R143, R151, R153: an atomic word that is executed sends its lanes with their operands. -/
theorem atomWord_sends {op : Nat} {o : CasOp} {lit : Option W} {s : State} {ps : List (Nat × Nat × Place)} {arg : Nat → W64 × W64}
    (h : AtomReady s op o.mem (atomRange op o lit) ps)
    (harg : ∀ l, atomOperand op ((if lit.isSome then none else some o.d : Option Nat).getD 0) lit l s = arg l) :
    ∃ t, atomWord op o lit s = .next t ∧ AtomSent s t op (if lit.isSome then none else some o.d) ps arg := by
  obtain ⟨heff, hne⟩ := atomEff_sends (lit := lit) h
  obtain ⟨htx, -, hrange, hlive, hhazard, hpoison, -⟩ := h
  have htrap : firstTrap [trapIf (inTx s) .txState, rangeTrap s (atomRange op o lit ++ o.mem.off.range 1),
      liveTrap s ((atomRange op o lit).map (fun p => p.1))] = none := by
    simp only [firstTrap_none, List.forall_mem_cons, List.not_mem_nil, false_imp_iff, implies_true, and_true]
    exact ⟨(trapIf_none _ _).mpr htx, (rangeTrap_none _ _).mpr hrange, (liveTrap_none _ _).mpr (List.forall_mem_map.mpr hlive)⟩
  refine ⟨_, ?_, atomSentState_sent hne harg⟩
  rw [atomWord, issueWord_eff _ htrap hhazard, readGuard_clear _ hpoison, heff]

/-- R151, R152: the rows of the atomics name the atomics of their operation, of which none compares. -/
theorem exec_atom {row : (AtomOp → Instr) × Nat} (h : row ∈ atomRows) (o : AtomOp) (s : State) :
    exec (row.1 o) s = atomOp row.2 o s ∧ row.2 ≠ 39 ∧ row.2 ≠ 40 := by
  unfold atomRows at h
  fin_cases h <;> exact ⟨rfl, by decide, by decide⟩

/-- R152: the operand of an atomic that does not compare. -/
theorem atomOperand_register {op : Nat} (h39 : op ≠ 39) (h40 : op ≠ 40) (d l : Nat) (s : State) :
    atomOperand op d none l s = (if atomSize op = 8 then vGet64 s d l else zext64 (vGet s d l), 0) := by
  simp only [atomOperand, h39, h40, if_false]
  split <;> rfl

/-- Settles O12: each form of an atomic is an atomic word that sends its lanes, with the operands of its form. -/
theorem atomicsGoOut : Obligations.AtomicsGoOut := by
  refine ⟨?register, ?literal, fun o s ps h => ?cas32, fun o s ps h => ?cas64⟩
  case register =>
    intro row hrow o d s ps hd h
    obtain ⟨hexec, h39, h40⟩ := exec_atom hrow o s
    obtain ⟨t, hnext, hsent⟩ := atomWord_sends (o := ⟨d, o.mem⟩) (lit := none) h fun l => atomOperand_register h39 h40 d l s
    exact ⟨t, by rw [hexec, atomOp, hd]; exact hnext, hsent⟩
  case literal =>
    intro row hrow o w s ps hd h
    obtain ⟨hexec, -⟩ := exec_atom hrow o s
    obtain ⟨t, hnext, hsent⟩ := atomWord_sends (o := ⟨127, o.mem⟩) (lit := some w) h fun l => rfl
    exact ⟨t, by rw [hexec, atomOp, hd]; exact hnext, hsent⟩
  case cas32 => exact atomWord_sends (lit := none) h fun l => rfl
  case cas64 => exact atomWord_sends (lit := none) h fun l => rfl

end Sys2Proof.Machine
end

section
/-! Barrier registers of the span in focus, and sequence numbers of streams (R17, R213, R356). -/

namespace Sys2Proof.Machine

open Sys2Proof Sys2Proof.Claims

/-- A place of a list other than the one that is set. -/
theorem nthD_set_ne {α : Type} (d v : α) (xs : List α) {i k : Nat} (h : i ≠ k) : nthD d (xs.set i v) k = nthD d xs k := by
  simp [nthD, List.getElem?_set_ne h]

/-- R17: a barrier register is that of the spans and of the span in focus. -/
theorem barGet_congr {s t : State} (hs : t.spans = s.spans) (hg : t.g.span = s.g.span) (k : Nat) : barGet t k = barGet s k := by
  simp only [barGet, spanOf?_congr hs, hg]

theorem barCount_congr {s t : State} (hs : t.spans = s.spans) (hg : t.g.span = s.g.span) : barCount t = barCount s := by
  simp only [barCount, spanOf?_congr hs, hg]

/-- R17: a barrier register that exists is one of a span. -/
theorem spanOf?_of_lt_barCount {s : State} {b : Nat} (h : b < barCount s) :
    ∃ x, spanOf? s s.g.span = some x ∧ x.uid = s.g.span ∧ b < x.bars.length ∧ ∀ k, barGet s k = nthD Barrier.zero x.bars k := by
  cases hx : spanOf? s s.g.span with
  | none => simp [barCount, hx] at h
  | some x =>
    refine ⟨x, rfl, by simpa using List.find?_some hx, by simpa [barCount, hx] using h, fun k => ?_⟩
    simp only [barGet, hx]

/-- R17: the span of a number reads as changed. -/
theorem spanOf?_modSpan_of {s : State} {n : Nat} {x : Span} {f : Span → Span} (h : spanOf? s n = some x) (hf : (f x).uid = x.uid) :
    spanOf? (modSpan n f s) n = some (f x) := by
  have hn : x.uid = n := by simpa using List.find?_some h
  subst hn
  exact spanOf?_modSpan h hf

/-- R17: a barrier register of the span in focus reads as set, and the others as before. -/
theorem barGet_setBar {s : State} {b : Nat} (h : b < barCount s) (f : Span → Barrier) {x : Span} (hx : spanOf? s s.g.span = some x)
    (k : Nat) : barGet (modSpan s.g.span (fun y => { y with bars := y.bars.set b (f y) }) s) k = if k = b then f x else barGet s k := by
  obtain ⟨y, hy, -, hb, hget⟩ := spanOf?_of_lt_barCount h
  obtain rfl : y = x := Option.some.inj (hy.symm.trans hx)
  have hset := spanOf?_modSpan_of (f := fun y => { y with bars := y.bars.set b (f y) }) hx rfl
  have hbar : barGet (modSpan s.g.span (fun y => { y with bars := y.bars.set b (f y) }) s) k = nthD Barrier.zero (y.bars.set b (f y)) k := by
    simp only [barGet, show ∀ g : Span → Span, (modSpan s.g.span g s).g.span = s.g.span from fun _ => rfl, hset]
  rw [hbar]
  by_cases hk : k = b
  · rw [if_pos hk, hk, nthD_set _ _ hb]
  · rw [if_neg hk, nthD_set_ne _ _ _ (Ne.symm hk), hget]

/-- R17: a barrier register of the span in focus reads as changed, and the others as before. -/
theorem barGet_modBar {s : State} {b : Nat} (h : b < barCount s) (f : Barrier → Barrier) (k : Nat) :
    barGet (modBar s.g.span b f s) k = if k = b then f (barGet s b) else barGet s k := by
  obtain ⟨x, hx, -, -, hget⟩ := spanOf?_of_lt_barCount h
  rw [hget b]
  exact barGet_setBar h (fun y => f (nthD Barrier.zero y.bars b)) hx k

/-- R17: a change of a barrier register makes none and takes none away. -/
theorem barCount_modBar {s : State} {b : Nat} (h : b < barCount s) (f : Barrier → Barrier) :
    barCount (modBar s.g.span b f s) = barCount s := by
  obtain ⟨x, hx, -, -, -⟩ := spanOf?_of_lt_barCount h
  have hset := spanOf?_modSpan_of (f := fun y => { y with bars := y.bars.set b (f (nthD Barrier.zero y.bars b)) }) hx rfl
  simp only [barCount, modBar, show ∀ g : Span → Span, (modSpan s.g.span g s).g.span = s.g.span from fun _ => rfl, hset, hx,
    List.length_set]

/-- R356: a stream carries its own names. -/
theorem streamOf_names (s : State) (ctx src agent win : Nat) :
    (streamOf s ctx src agent win).ctx = ctx ∧ (streamOf s ctx src agent win).src = src ∧
      (streamOf s ctx src agent win).agent = agent ∧ (streamOf s ctx src agent win).win = win := by
  unfold streamOf
  cases h : s.fab.streams.find? (fun t => t.ctx == ctx && t.src == src && t.agent == agent && t.win == win) with
  | none => exact ⟨rfl, rfl, rfl, rfl⟩
  | some t =>
    have := List.find?_some h
    simp only [Bool.and_eq_true, beq_iff_eq, and_assoc] at this
    exact this

/-- R356: a stream that is replaced, and one to another window. -/
theorem streamOf_setStream {ctx src agent win : Nat} {t : Stream} (ht : t.ctx = ctx ∧ t.src = src ∧ t.agent = agent ∧ t.win = win)
    (s : State) (w : Nat) :
    streamOf (setStream t s) ctx src agent w = if w = win then t else streamOf s ctx src agent w := by
  obtain ⟨rfl, rfl, rfl, rfl⟩ := ht
  unfold streamOf setStream
  rw [List.find?_append, List.find?_filter]
  by_cases hw : w = t.win
  · subst hw
    rw [if_pos rfl, List.find?_eq_none.mpr fun x _ => by simp; tauto]
    simp
  · have hother (x : Stream) : decide (((!(x.ctx == t.ctx && x.src == t.src && x.agent == t.agent && x.win == t.win)) = true) ∧
        ((x.ctx == t.ctx && x.src == t.src && x.agent == t.agent && x.win == w) = true)) =
        (x.ctx == t.ctx && x.src == t.src && x.agent == t.agent && x.win == w) := by
      rw [Bool.eq_iff_iff, decide_eq_true_iff]
      refine ⟨And.right, fun h => ⟨?_, h⟩⟩
      obtain ⟨-, hwin⟩ := Bool.and_eq_true_iff.mp h
      simp [beq_iff_eq.mp hwin, hw]
    rw [if_neg hw, funext hother, List.find?_singleton]
    simp [Ne.symm hw]

/-- R356: a number is taken of each stream in turn, modulo 2^32. -/
theorem next_takeSeqs (ctx src agent : Nat) (ws : List Nat) (s : State) (w : Nat) :
    (streamOf (takeSeqs ctx src (ws.map (fun w => (agent, w))) s).2 ctx src agent w).next % 2 ^ 32 =
      ((streamOf s ctx src agent w).next + ws.count w) % 2 ^ 32 := by
  induction ws generalizing s with
  | nil => simp [takeSeqs]
  | cons v ws ih =>
    obtain ⟨hctx, hsrc, hagent, hwin⟩ := streamOf_names s ctx src agent v
    simp only [List.map_cons, takeSeqs, ih, takeSeq]
    rw [streamOf_setStream (t := { streamOf s ctx src agent v with next := nextSeq (streamOf s ctx src agent v).next })
      ⟨hctx, hsrc, hagent, hwin⟩, List.count_cons]
    by_cases hw : w = v
    · subst hw
      simp only [if_true, beq_self_eq_true, nextSeq]
      omega
    · simp [hw, Ne.symm hw]

/-- R356: numbers taken change the streams alone. -/
theorem takeSeqs_frame (ctx src : Nat) (ls : List (Nat × Nat)) (s : State) :
    { (takeSeqs ctx src ls s).2 with fab := { (takeSeqs ctx src ls s).2.fab with streams := s.fab.streams } } = s := by
  induction ls generalizing s with
  | nil => rfl
  | cons p ls ih => exact (congrArg (fun u : State => { u with fab := { u.fab with streams := s.fab.streams } }) (ih _) :)

end Sys2Proof.Machine
end

section
/-! Copies go out (R155 to R158, R162, R356). -/

namespace Sys2Proof.Machine

open Sys2Proof Sys2Proof.Claims

/-- R108: a count of 1 bits, bit by bit. -/
theorem popCount_four (n : Nat) : popCount 4 n = (List.range 4).countP (fun i => bitOf n i) := by
  have h (k : Nat) : (if k % 2 = 1 then 1 else 0) = k % 2 := by split <;> omega
  rw [show List.range 4 = [0, 1, 2, 3] from rfl]
  simp only [popCount, bitOf, List.countP_cons, List.countP_nil, beq_iff_eq, h]
  omega

/-- R157: the bytes that the lanes of a copy account. -/
theorem sum_laneBytes (op : CopyOp) (z : Nat) (ls : List CopyLane) :
    (ls.map (laneBytes op z)).foldl (fun a n => a + n) 0 = copyBytes op z ls := by
  rw [← List.sum_eq_foldl_nat, copyBytes]
  refine congrArg List.sum (List.map_congr_left fun l _ => ?_)
  rw [laneBytes, popCount_four]

/-- R158: a lane that has passed its checks is neither held nor skipped nor done. -/
theorem copyLanes_fresh {s : State} {op : CopyOp} {o : CpOp} {z : Nat} {ns : List Nat} {ls : List CopyLane}
    (h : copyLanes s op o z ns = .ok ls) : ∀ l ∈ ls, l.held = false ∧ l.skip = false ∧ l.done = false := by
  induction ns generalizing ls with
  | nil =>
    cases h
    simp
  | cons n ns ih =>
    simp only [copyLanes] at h
    split at h
    · cases h
    · split at h
      · cases h
      · split at h
        · cases h
        next rest hrest =>
          cases h
          exact List.forall_mem_cons.mpr ⟨⟨rfl, rfl, rfl⟩, ih hrest⟩

/-- R356: the lanes of a copy with their sequence numbers. -/
def numberedLanes (seqs : List Nat) (ls : List CopyLane) : List CopyLane :=
  ls.zipIdx.map (fun p => { p.1 with seq := nthD 0 seqs p.2 })

/-- R356: a sequence number changes nothing else of a lane. -/
theorem map_numberedLanes {α : Type} {f : CopyLane → α} (hf : ∀ l n, f { l with seq := n } = f l) (seqs : List Nat) (ls : List CopyLane) :
    (numberedLanes seqs ls).map f = ls.map f := by
  have h : f ∘ (fun p : CopyLane × Nat => { p.1 with seq := nthD 0 seqs p.2 }) = f ∘ Prod.fst := funext fun p => hf p.1 _
  rw [numberedLanes, List.map_map, h, ← List.map_map, List.zipIdx_map_fst]

/-- R213: an accounting copy's bytes become pending. -/
def pendBytes (o : CpOp) (span n : Nat) (s : State) : State :=
  if o.acc then modBar span o.bar (fun b => { b with pending := b.pending + n }) s else s

/-- R155: a copy enters the engine's queue. -/
def queueCopy (c : Copy) (s : State) : State :=
  { s with eng := { s.eng with copies := s.eng.copies ++ [c] }, g := { s.g with cntC := s.g.cntC + 1 } }

/-- R158: the copy that the split in focus sends. -/
def sentCopy (s : State) (op : CopyOp) (o : CpOp) (ls : List CopyLane) (receivers : List (Nat × Nat)) (seqs : List Nat) : Copy :=
  { uid := s.uid, gid := s.g.gid, span := s.g.span, split := s.sp.num, clause := s.iss.clause, word := s.iss.word, op := op,
    z := 4 * 2 ^ o.size, bar := if o.acc then some o.bar else none, nt := o.nt, lanes := numberedLanes seqs ls,
    receivers := receivers, die := s.g.die, flags := 0, suspended := false }

/-- What a copy that goes out finds: the spans, the engine, and the span and the count of the group in focus. -/
def copyView (s : State) : List Span × Engines × Nat × Nat := (s.spans, s.eng, s.g.span, s.g.cntC)

/-- R155, R158, R213: a copy of lanes that pass, sent from a state that this view does not tell from s. -/
theorem copySent_queueCopy {s u : State} {op : CopyOp} {o : CpOp} {ls : List CopyLane} (h : CopyReady s op o ls)
    (hu : copyView u = copyView s) (receivers : List (Nat × Nat)) (seqs : List Nat) :
    CopySent s (queueCopy (sentCopy s op o ls receivers seqs) (pendBytes o s.g.span (copyBytes op (4 * 2 ^ o.size) ls) u)) op o ls := by
  obtain ⟨-, -, hbar, -, -, -, -, hlanes, -⟩ := h
  simp only [copyView, Prod.mk.injEq] at hu
  obtain ⟨hspans, heng, hspan, hcnt⟩ := hu
  have hfresh : ∀ l ∈ numberedLanes seqs ls, l.held = false ∧ l.skip = false ∧ l.done = false := by
    intro l hl
    obtain ⟨p, hp, rfl⟩ := List.mem_map.mp hl
    exact copyLanes_fresh hlanes p.1 (List.fst_mem_of_mem_zipIdx hp)
  have heng' : (pendBytes o s.g.span (copyBytes op (4 * 2 ^ o.size) ls) u).eng = s.eng := by
    unfold pendBytes
    split <;> exact heng
  have hcnt' : (pendBytes o s.g.span (copyBytes op (4 * 2 ^ o.size) ls) u).g = u.g := by
    unfold pendBytes
    split <;> rfl
  have hget (k : Nat) : barGet (queueCopy (sentCopy s op o ls receivers seqs) (pendBytes o s.g.span (copyBytes op (4 * 2 ^ o.size) ls) u)) k =
      barGet (pendBytes o s.g.span (copyBytes op (4 * 2 ^ o.size) ls) u) k := rfl
  have hu (k : Nat) : barGet u k = barGet s k := barGet_congr hspans hspan k
  refine ⟨⟨sentCopy s op o ls receivers seqs, ?_, rfl, rfl, rfl, rfl, rfl, rfl, rfl, rfl, map_numberedLanes (by intros; rfl) _ _, hfresh⟩,
    ?_, fun hacc => ?_, fun b hb => ?_⟩
  · simp only [queueCopy, heng']
  · simp only [queueCopy, hcnt', hcnt]
  all_goals rw [hget]
  · have hcount : o.bar < barCount u := (barCount_congr hspans hspan).symm ▸ hbar hacc
    rw [pendBytes, if_pos hacc, ← hspan, barGet_modBar hcount, if_pos rfl, hu]
  · rw [pendBytes]
    split
    next hacc =>
      have hcount : o.bar < barCount u := (barCount_congr hspans hspan).symm ▸ hbar hacc
      have hne : b ≠ o.bar := hb.resolve_left (by simp [hacc])
      rw [← hspan, barGet_modBar hcount, if_neg hne, hu]
    next => exact hu b

/-- R162: the receivers of a copy. -/
def copyReceivers (s : State) (op : CopyOp) (ls : List CopyLane) : List (Nat × Nat) :=
  if op = .mcast then
    ((ls.flatMap (fun l => maskCores s l.mask)).eraseDups).filterMap (fun c => (receiverOf s c).map (fun x => (x, c)))
  else []

/-- R155, R158: a copy other than a put is queued. -/
theorem sendCopy_plain {op : CopyOp} (hop : op ≠ .put) (o : CpOp) (ls : List CopyLane) (s : State) :
    sendCopy op o (4 * 2 ^ o.size) ls s =
      queueCopy (sentCopy s op o ls (copyReceivers s op ls) [])
        (pendBytes o s.g.span (copyBytes op (4 * 2 ^ o.size) ls) { s with uid := s.uid + 1 }) := by
  simp only [sendCopy, if_neg hop, sum_laneBytes]
  rfl

/-- R356: the lanes of a put as agents and windows of streams. -/
def putStreams (s : State) (ls : List CopyLane) : List (Nat × Nat) := ls.map (fun l => (agentOf s s.g.die, l.mask))

/-- R356: the numbers that the lanes of a put take, and what is left then. -/
def putNumbers (s : State) (ls : List CopyLane) : List Nat × State :=
  takeSeqs s.g.ctx (agentOf s s.g.die) (putStreams s ls) { s with uid := s.uid + 1 }

/-- R155, R355, R356: a put is queued once its lanes have their numbers and are counted at their windows. -/
theorem sendCopy_put (o : CpOp) (ls : List CopyLane) (s : State) :
    sendCopy .put o (4 * 2 ^ o.size) ls s =
      queueCopy (sentCopy s .put o ls [] (putNumbers s ls).1)
        (pendBytes o s.g.span (copyBytes .put (4 * 2 ^ o.size) ls)
          (noteIssuedAll s.g.die s.g.ctx (ls.map (fun l => l.mask)) (putNumbers s ls).2)) := by
  simp only [sendCopy, if_true, sum_laneBytes]
  rfl

/-- R155 to R158: a copy that is executed is sent. -/
theorem copyWord_sends {s : State} {op : CopyOp} {o : CpOp} {ls : List CopyLane} (h : CopyReady s op o ls)
    (hput : op = .put → streamFull s s.g.ctx (agentOf s s.g.die) (putStreams s ls) = false) :
    copyWord op o s = .next (sendCopy op o (4 * 2 ^ o.size) ls s) := by
  obtain ⟨htx, hrange, hbar, hhazard, hpoison, hem, hC, hlanes, hroom, hfull⟩ := h
  have htrap : firstTrap [trapIf (inTx s) .txState, rangeTrap s [(o.src, 2), (o.dst, 2)],
      trapIf (o.acc && decide (barCount s ≤ o.bar)) .registerRange] = none := by
    simp only [firstTrap_none, List.forall_mem_cons, List.not_mem_nil, false_imp_iff, implies_true, and_true]
    exact ⟨(trapIf_none _ _).mpr htx, (rangeTrap_none _ _).mpr hrange, (trapIf_none _ _).mpr (by simpa using hbar)⟩
  have hbytes : (o.acc && decide (16777215 < (barGet s o.bar).pending + copyBytes op (4 * 2 ^ o.size) ls)) = false := by
    simpa using hroom
  have hstream : (decide (op = .put) && streamFull s s.g.ctx (agentOf s s.g.die) (putStreams s ls)) = false := by
    simpa using hput
  have heff : copyEff op o s = sendCopy op o (4 * 2 ^ o.size) ls s := by
    simp only [putStreams] at hstream
    rw [copyEff, if_neg hem]
    simp [Nat.not_le.mpr hC, hlanes, sum_laneBytes, hbytes, hfull, hstream]
  rw [copyWord, issueWord_eff _ htrap hhazard, readGuard_clear _ hpoison, heff]

end Sys2Proof.Machine
end

section
/-! Puts at their windows, closes, and the obligation (R161, R213, R355, R356). -/

namespace Sys2Proof.Machine

open Sys2Proof Sys2Proof.Claims

/-- A state with the groups, the focus and the windows of s. -/
def withWindowsOf (s u : State) : State :=
  { u with groups := s.groups, g := s.g, sp := s.sp, fab := { u.fab with windows := s.fab.windows } }

/-- R332, R355: lanes counted at their windows change the windows, and slots that fire. -/
theorem withWindowsOf_noteIssuedAll (s : State) (die ctx : Nat) (ls : List Nat) (u : State) :
    withWindowsOf s (noteIssuedAll die ctx ls u) = withWindowsOf s u := by
  have hgroups (v : State) : withGroupsOf s (evalMonitors v) = withGroupsOf s v :=
    foldl_keeps (withGroupsOf s) (fun w n => withGroupsOf_evalMonitor s n w) _ v
  have hmon (v : State) : withWindowsOf s (evalMonitors v) = withWindowsOf s v :=
    (congrArg (fun x : State => { x with fab := { x.fab with windows := s.fab.windows } }) (hgroups v) :)
  unfold noteIssuedAll
  refine foldl_keeps (withWindowsOf s) (fun v w => ?_) _ u
  exact (hmon _).trans rfl

/-- What a put leaves unchanged of a group: its registers and modes, its count of copies and its span. -/
def putGroupView (g : Group) : SMap W × SMap W64 × SMap W × SMap W × Flags × W × Nat × Nat :=
  (g.regs, g.sregs, g.kregs, g.rng, g.flags, g.fmode, g.cntC, g.span)

/-- R332, R355: lanes counted at their windows leave registers and counts unchanged. -/
theorem putGroupView_noteIssuedAll (die ctx : Nat) (ls : List Nat) (u : State) :
    putGroupView (noteIssuedAll die ctx ls u).g = putGroupView u.g := by
  have hslotless : Slotless putGroupView := fun _ _ _ => rfl
  have hmon (v : State) : groupsView putGroupView (evalMonitors v) = groupsView putGroupView v :=
    foldl_keeps (groupsView putGroupView) (fun w n => groupsView_evalMonitor hslotless n w) _ v
  unfold noteIssuedAll
  refine congrArg Prod.snd (foldl_keeps (groupsView putGroupView) (f := fun v w => noteIssued die ctx w _ v) (fun v w => ?_) _ u)
  exact (hmon _).trans rfl

/-- R355, R356: a put that has its numbers and is counted at its windows. -/
def countedPut (s : State) (ls : List CopyLane) : State :=
  noteIssuedAll s.g.die s.g.ctx (ls.map (fun l => l.mask)) (putNumbers s ls).2

theorem putNumbers_frame (s : State) (ls : List CopyLane) :
    { (putNumbers s ls).2 with fab := { (putNumbers s ls).2.fab with streams := s.fab.streams } } = { s with uid := s.uid + 1 } :=
  takeSeqs_frame _ _ _ _

theorem countedPut_frame (s : State) (ls : List CopyLane) :
    withWindowsOf s (countedPut s ls) = withWindowsOf s (putNumbers s ls).2 := withWindowsOf_noteIssuedAll s _ _ _ _

theorem countedPut_group (s : State) (ls : List CopyLane) : putGroupView (countedPut s ls).g = putGroupView s.g :=
  (putGroupView_noteIssuedAll _ _ _ _).trans (congrArg (fun u : State => putGroupView u.g) (putNumbers_frame s ls) :)

/-- R355: what a put that goes out finds is as before. -/
theorem copyView_countedPut (s : State) (ls : List CopyLane) : copyView (countedPut s ls) = copyView s := by
  have hrest : ((countedPut s ls).spans, (countedPut s ls).eng) = (s.spans, s.eng) :=
    ((congrArg (fun u : State => (u.spans, u.eng)) (countedPut_frame s ls) :)).trans
      (congrArg (fun u : State => (u.spans, u.eng)) (putNumbers_frame s ls) :)
  have hgroup := countedPut_group s ls
  simp only [putGroupView, Prod.mk.injEq] at hrest hgroup
  obtain ⟨hspans, heng⟩ := hrest
  obtain ⟨-, -, -, -, -, -, hcnt, hspan⟩ := hgroup
  simp only [copyView, hspans, heng, hcnt, hspan]

/-- R355: registers, memory and traps are as before. -/
theorem keptView_countedPut (s : State) (ls : List CopyLane) : keptView (countedPut s ls) = keptView s := by
  have hrest : ((countedPut s ls).mem, (countedPut s ls).wq, (countedPut s ls).traps) = (s.mem, s.wq, s.traps) :=
    ((congrArg (fun u : State => (u.mem, u.wq, u.traps)) (countedPut_frame s ls) :)).trans
      (congrArg (fun u : State => (u.mem, u.wq, u.traps)) (putNumbers_frame s ls) :)
  have hgroup := countedPut_group s ls
  simp only [putGroupView, Prod.mk.injEq] at hrest hgroup
  obtain ⟨hmem, hwq, htraps⟩ := hrest
  obtain ⟨hregs, hsregs, hkregs, hrng, hflags, hfmode, -, -⟩ := hgroup
  simp only [keptView, hregs, hsregs, hkregs, hrng, hflags, hfmode, hmem, hwq, htraps]

/-- R356: each stream has given a number to each of its lanes. -/
theorem next_countedPut (s : State) (ls : List CopyLane) (w : Nat) :
    (streamOf (countedPut s ls) s.g.ctx (agentOf s s.g.die) (agentOf s s.g.die) w).next % 2 ^ 32 =
      ((streamOf s s.g.ctx (agentOf s s.g.die) (agentOf s s.g.die) w).next + ls.countP (fun l => l.mask == w)) % 2 ^ 32 := by
  have hstreams : (countedPut s ls).fab.streams = (putNumbers s ls).2.fab.streams :=
    (congrArg (fun u : State => u.fab.streams) (countedPut_frame s ls) :)
  have hmasks : putStreams s ls = (ls.map (fun l => l.mask)).map (fun w => (agentOf s s.g.die, w)) := by
    simp [putStreams]
  have hcount : (ls.map (fun l => l.mask)).count w = ls.countP (fun l => l.mask == w) := by
    rw [List.count, List.countP_map]
    rfl
  have heq : streamOf (countedPut s ls) s.g.ctx (agentOf s s.g.die) (agentOf s s.g.die) w =
      streamOf (putNumbers s ls).2 s.g.ctx (agentOf s s.g.die) (agentOf s s.g.die) w := by simp only [streamOf, hstreams]
  rw [heq, putNumbers, hmasks, next_takeSeqs, hcount]
  rfl

/-- R155: what is queued and pending is neither a register nor memory nor a trap. -/
theorem keptView_queueCopy (c : Copy) (o : CpOp) (span n : Nat) (u : State) :
    keptView (queueCopy c (pendBytes o span n u)) = keptView u := by
  unfold pendBytes
  split <;> rfl

/-- R156: nor is it a stream. -/
theorem streams_queueCopy (c : Copy) (o : CpOp) (span n : Nat) (u : State) :
    (queueCopy c (pendBytes o span n u)).fab.streams = u.fab.streams := by
  unfold pendBytes
  split <;> rfl

/-- R157: the rows of the copies name the copies of their op, none of them a put. -/
theorem exec_copy {row : (CpOp → Instr) × CopyOp} (h : row ∈ copyRows) (o : CpOp) (s : State) :
    exec (row.1 o) s = copyWord row.2 o s ∧ row.2 ≠ .put := by
  unfold copyRows at h
  fin_cases h <;> exact ⟨rfl, by decide⟩

/-- R161: a barrier register that the split in focus has closed. -/
def closedBar (s : State) (b : Barrier) : Barrier :=
  { b with closed := true, closer := some (s.g.gid, s.sp.num, s.iss.clause, s.iss.word) }

/-- R161: the close of a barrier register by the split in focus, as the engine keeps it. -/
def closingCopy (s : State) (b : Nat) : Copy :=
  { uid := s.uid, gid := s.g.gid, span := s.g.span, split := s.sp.num, clause := s.iss.clause, word := s.iss.word, op := .close,
    z := 0, bar := some b, nt := false, lanes := [], receivers := [], die := s.g.die, flags := 0, suspended := false }

/-- R161: the state in which a close has shut its barrier register. -/
def shutState (s : State) (b : Nat) : State :=
  queueCopy (closingCopy s b) (modBar s.g.span b (closedBar s) { s with uid := s.uid + 1 })

/-- R161: a close of an open barrier register that is executed. -/
theorem execCpClose_shuts {b : Nat} {s : State} (htx : inTx s = false) (hb : b < barCount s) (hopen : (barGet s b).closed = false)
    (hC : s.g.cntC < 63) (hfull : copyQueueFull s s.g = false) :
    exec (.cpClose b) s = .next (memberArrive s.g.span b (shutState s b)) := by
  have htrap : firstTrap [trapIf (inTx s) .txState, trapIf (decide (barCount s ≤ b)) .registerRange] = none := by
    simp only [firstTrap_none, List.forall_mem_cons, List.not_mem_nil, false_imp_iff, implies_true, and_true]
    exact ⟨(trapIf_none _ _).mpr htx, (trapIf_none _ _).mpr (by simpa using hb)⟩
  have heff : closeEff b s = memberArrive s.g.span b (shutState s b) := by
    simp only [closeEff, hopen, Bool.false_eq_true, if_false, Nat.not_le.mpr hC, hfull]
    rfl
  exact (issueWord_eff (closeEff b) htrap rfl).trans (congrArg _ heff)

/-- R213: a barrier register with one arrival more. -/
def arrivedOnce (b : Barrier) : Barrier := { b with arrived := b.arrived + 1 }

/-- R213: an arrival that is not the last is counted. -/
theorem arriveOn_counts {s : State} {b : Nat} (hb : b < barCount s) (h : (barGet s b).arrived + 1 < (barGet s b).expected) :
    ∃ t, arriveOn s.g.span b s = some t ∧ barGet t b = arrivedOnce (barGet s b) ∧ { t with spans := s.spans } = s := by
  obtain ⟨x, hx, -, -, hget⟩ := spanOf?_of_lt_barCount hb
  have hset := barGet_setBar hb (fun _ => arrivedOnce (nthD Barrier.zero x.bars b)) hx b
  rw [hget b] at h ⊢
  refine ⟨_, ?_, hset.trans (if_pos rfl), rfl⟩
  simp only [arriveOn, hx]
  rw [if_neg (by omega), if_neg (by omega)]
  rfl

/-- R161: the shut register, and the others. -/
theorem barGet_shutState {s : State} {b : Nat} (hb : b < barCount s) : barGet (shutState s b) b = closedBar s (barGet s b) :=
  (barGet_modBar (s := { s with uid := s.uid + 1 }) hb (closedBar s) b).trans (if_pos rfl)

/-- R161: a closed barrier register with bytes pending does not arrive yet. -/
theorem memberArrive_pending {s : State} {b : Nat} (h : (barGet s b).pending ≠ 0) : memberArrive s.g.span b s = s := by
  unfold memberArrive
  cases hx : spanOf? s s.g.span with
  | none => rfl
  | some x =>
    have hget : barGet s b = nthD Barrier.zero x.bars b := by simp only [barGet, hx]
    rw [hget] at h
    dsimp only
    split
    · rfl
    · rw [if_pos (by simp [h])]

/-- R161: a barrier register that the engine has opened again. -/
def reopened (b : Barrier) : Barrier := { b with closed := false, closer := none }

/-- R161: the close of a barrier register of a span leaves the engine. -/
def dropClose (span b : Nat) (s : State) : State :=
  { s with eng := { s.eng with copies := s.eng.copies.filter (fun k => !(k.op == .close && k.span == span && k.bar == some b)) } }

/-- R161, R213: a barrier register that the group in focus closed, with nothing pending, arrives. -/
theorem memberArrive_idle {s : State} {b : Nat} {c : Nat × Nat × Nat} (hb : b < barCount s)
    (hcloser : (barGet s b).closer = some (s.g.gid, c)) (hclosed : (barGet s b).closed = true) (hpending : (barGet s b).pending = 0)
    (h : (barGet s b).arrived + 1 < (barGet s b).expected) :
    (memberArrive s.g.span b s).g.cntC = s.g.cntC - 1 ∧ barGet (memberArrive s.g.span b s) b = arrivedOnce (reopened (barGet s b)) ∧
      Kept s (memberArrive s.g.span b s) := by
  obtain ⟨x, hx, -, -, hget⟩ := spanOf?_of_lt_barCount hb
  let u := lowerC s.g.gid (dropClose s.g.span b (modBar s.g.span b reopened s))
  have hu : u = { dropClose s.g.span b (modBar s.g.span b reopened s) with g := { s.g with cntC := s.g.cntC - 1 } } := if_pos rfl
  have hcount : b < barCount u := by
    rw [hu]
    exact (barCount_modBar hb reopened).symm ▸ hb
  have hbar : barGet u b = reopened (barGet s b) := by
    rw [hu]
    exact (barGet_modBar hb reopened b).trans (if_pos rfl)
  obtain ⟨t, ht, hgot, hframe⟩ := arriveOn_counts hcount (by rw [hbar]; exact h)
  have hspan : u.g.span = s.g.span := by rw [hu]
  have hmem : memberArrive s.g.span b s = t := by
    rw [hget b] at hcloser hclosed hpending
    rw [hspan] at ht
    simp only [memberArrive, hx, hcloser, hclosed, hpending, Bool.not_true, bne_self_eq_false, Bool.or_self, Bool.false_eq_true, if_false]
    change (match arriveOn s.g.span b u with | some v => v | none => _) = t
    rw [ht]
  rw [hmem]
  have hcnt : t.g.cntC = s.g.cntC - 1 := ((congrArg (fun v : State => v.g.cntC) hframe :)).trans (by rw [hu])
  have hkept : keptView t = keptView s := ((congrArg keptView hframe :)).trans (by rw [hu]; rfl)
  exact ⟨hcnt, hgot.trans (congrArg arrivedOnce hbar), (kept_iff _ _).mpr hkept⟩

/-- Settles O20: a copy and a put are queued with their bytes pending; a close shuts its register, which arrives at once where
nothing is pending. -/
theorem copiesGoOut : Obligations.CopiesGoOut := by
  refine ⟨?copy, ?put, ?close⟩
  case copy =>
    intro row hrow o s ls h
    obtain ⟨hexec, hop⟩ := exec_copy hrow o s
    rw [hexec, copyWord_sends h fun hput => absurd hput hop, sendCopy_plain hop]
    refine ⟨_, rfl, copySent_queueCopy (u := { s with uid := s.uid + 1 }) h rfl _ _, ?_⟩
    unfold pendBytes
    split <;> rfl
  case put =>
    intro o s ls h hroom
    rw [show exec (.cpPut o) s = copyWord .put o s from rfl, copyWord_sends h fun _ => hroom, sendCopy_put]
    refine ⟨_, rfl, copySent_queueCopy h (copyView_countedPut s ls) _ _, ?_, fun w => ?_⟩
    · exact (kept_iff _ _).mpr ((keptView_queueCopy _ _ _ _ _).trans (keptView_countedPut s ls))
    · rw [streamOf, streams_queueCopy]
      exact next_countedPut s ls w
  case close =>
    intro b s htx hb hopen hC hfull
    have hget := barGet_shutState hb
    have hcount : b < barCount (shutState s b) := (barCount_modBar (s := { s with uid := s.uid + 1 }) hb (closedBar s)).symm ▸ hb
    rw [execCpClose_shuts htx hb hopen hC hfull]
    refine ⟨fun hpending => ⟨_, rfl, ?_⟩, fun hpending harrive => ⟨_, rfl, ?_⟩⟩
    · rw [show s.g.span = (shutState s b).g.span from rfl, memberArrive_pending (by rw [hget]; exact hpending), hget]
      exact ⟨rfl, rfl, rfl, rfl, (kept_iff _ _).mpr rfl⟩
    · obtain ⟨hcnt, hbar, hkept⟩ := memberArrive_idle (s := shutState s b) (c := (s.sp.num, s.iss.clause, s.iss.word)) hcount
        (by rw [hget]; rfl) (by rw [hget]; rfl) (by rw [hget]; exact hpending) (by rw [hget]; exact harrive)
      rw [hget] at hbar
      exact ⟨hcnt, congrArg Barrier.closed hbar, congrArg Barrier.arrived hbar, hkept⟩

end Sys2Proof.Machine
end

section
/-! What the upkeep of caches, accounts and watches leaves unchanged (R279 to R284, R327, R405, R406, R423 to R435). -/

namespace Sys2Proof.Machine

open Sys2Proof Sys2Proof.Claims

/-- A state with the caches, clocks, accounts, watches and queues of s: what reads and writes keep up to date beside memory,
registers and what is outstanding. -/
def withUpkeepOf (s u : State) : State :=
  { u with
    side := s.side, wat := s.wat, uid := s.uid, free := s.free, front := s.front, dev := s.dev,
    ten := { u.ten with owners := s.ten.owners },
    ms := { u.ms with
      l1 := s.ms.l1, l2 := s.ms.l2, rdc := s.ms.rdc, invals := s.ms.invals, attrs := s.ms.attrs, htbs := s.ms.htbs,
      clocks := s.ms.clocks, migs := s.ms.migs, migsDropped := s.ms.migsDropped } }

/-- A fold of upkeep is upkeep. -/
theorem withUpkeepOf_foldl {α : Type} {s : State} {f : State → α → State} (h : ∀ u a, withUpkeepOf s (f u a) = withUpkeepOf s u)
    (xs : List α) (u : State) : withUpkeepOf s (xs.foldl f u) = withUpkeepOf s u := foldl_keeps (withUpkeepOf s) h xs u

/-! Watches. -/

theorem withUpkeepOf_dropEntries (s : State) (p : WatchEntry → Bool) (u : State) :
    withUpkeepOf s (dropEntries p u) = withUpkeepOf s u :=
  (congrArg (withUpkeepOf s) (withWatchesOf_dropEntries u p u) :)

theorem withUpkeepOf_demoteLine (s : State) (dom line phys : Nat) (u : State) :
    withUpkeepOf s (demoteLine dom line phys u) = withUpkeepOf s u := by
  unfold demoteLine
  change withUpkeepOf s (if _ then markDirty dom line u else u) = _
  split <;> rfl

theorem withUpkeepOf_keepEntry (s : State) (e : WatchEntry) (phys : Nat) (u : State) :
    withUpkeepOf s (keepEntry e phys u) = withUpkeepOf s u := by
  have hmarked : withUpkeepOf s (setWatched phys true (demoteLine e.dom (lineOf e.addr) phys u)) = withUpkeepOf s u :=
    withUpkeepOf_demoteLine s _ _ _ u
  unfold keepEntry setFilter
  split <;> exact hmarked

/-- R379, R391: a packet that is over leaves its queue. -/
theorem withUpkeepOf_finishPacket (s : State) (seq status detail : Nat) (u : State) :
    withUpkeepOf s (finishPacket seq status detail u) = withUpkeepOf s u := by
  unfold finishPacket
  dsimp only
  split
  · rfl
  · exact withUpkeepOf_dropEntries s _ _

theorem withUpkeepOf_registerPacket (s : State) (q : Queue) (p : Packet) (u : State) :
    withUpkeepOf s (registerPacket q p u) = withUpkeepOf s u := by
  refine withUpkeepOf_foldl (fun v w => ?_) _ u
  dsimp only
  split
  · rfl
  · split
    · rfl
    · split
      · rfl
      · split
        · exact withUpkeepOf_keepEntry s _ _ _
        · split <;> rfl

theorem withUpkeepOf_recheckPacket (s : State) (qid index : Nat) (u : State) :
    withUpkeepOf s (recheckPacket qid index u) = withUpkeepOf s u := by
  unfold recheckPacket
  split
  · rfl
  · split
    · rfl
    · split
      · exact withUpkeepOf_finishPacket s _ _ _ u
      · exact withUpkeepOf_registerPacket s _ _ u

/-- R327: a write fires watches, and starts a scan. -/
theorem withUpkeepOf_evalWatches (s : State) (home slice dom line phys : Nat) (bytes : List (Nat × Byte)) (u : State) :
    withUpkeepOf s (evalWatches home slice dom line phys bytes u) = withUpkeepOf s u := by
  have hfire (es : List WatchEntry) (v : State) : withUpkeepOf s (fireEntries es v) = withUpkeepOf s v := by
    refine (withUpkeepOf_foldl (fun w e => ?_) es _).trans (withUpkeepOf_dropEntries s _ v)
    split
    · exact withUpkeepOf_recheckPacket s _ _ w
    · rfl
  unfold evalWatches
  dsimp only
  split <;> exact hfire _ _

/-! Home slices, clocks and buffers. -/

theorem withUpkeepOf_chargeLine (s : State) (n : Nat) (u : State) : withUpkeepOf s (chargeLine n u) = withUpkeepOf s u := by
  unfold chargeLine addUse modOwner
  split
  · split
    · rfl
    · split <;> rfl
  · rfl

theorem withUpkeepOf_dropL2 (s : State) (gone : L2Tag → Bool) (u : State) : withUpkeepOf s (dropL2 gone u) = withUpkeepOf s u :=
  (withUpkeepOf_foldl (fun v (x : L2Tag) => withUpkeepOf_chargeLine s x.filler v) _ u :)

theorem withUpkeepOf_homeTouch (s : State) (ctx : Nat) (l : Leaf) (va : Nat) (u : State) :
    withUpkeepOf s (homeTouch ctx l va u) = withUpkeepOf s u := by
  unfold homeTouch l2Touch
  split
  · dsimp only
    split
    · rfl
    · split
      · rfl
      · exact (withUpkeepOf_chargeLine s _ _).trans (withUpkeepOf_dropL2 s _ _)
  · rfl

theorem withUpkeepOf_invalidateRemote (s : State) (dom line home keep part : Nat) (w : Writer) (u : State) :
    withUpkeepOf s (invalidateRemote dom line home keep part w u) = withUpkeepOf s u := by
  unfold invalidateRemote
  exact withUpkeepOf_foldl (fun _ _ => by rfl) _ u

theorem withUpkeepOf_clockWrite (s : State) (src home : Nat) (u : State) :
    withUpkeepOf s (clockWrite src home u) = withUpkeepOf s u := by
  unfold clockWrite
  split <;> rfl

theorem withUpkeepOf_attrFill (s : State) (die core va : Nat) (l : Leaf) (u : State) :
    withUpkeepOf s (attrFill die core va l u) = withUpkeepOf s u := rfl

theorem withUpkeepOf_attrUse (s : State) (die core ctx va : Nat) (u : State) :
    withUpkeepOf s (attrUse die core ctx va u) = withUpkeepOf s u := by
  unfold attrUse
  split <;> rfl

theorem withUpkeepOf_l1Update (s : State) (die core dom line : Nat) (bytes : List (Nat × Byte)) (u : State) :
    withUpkeepOf s (l1Update die core dom line bytes u) = withUpkeepOf s u := rfl

/-- R427, R435: a request is counted, and may send a migration record. -/
theorem withUpkeepOf_requestCount (s : State) (agent ctx va : Nat) (l : Leaf) (u : State) :
    withUpkeepOf s (requestCount agent ctx va l u) = withUpkeepOf s u := by
  have hfill : withUpkeepOf s (htbFill ctx va l u) = withUpkeepOf s u := by
    unfold htbFill
    dsimp only
    split <;> rfl
  unfold requestCount
  dsimp only
  split
  · exact hfill
  · split
    · split <;> exact hfill
    · exact hfill

/-- R431: a line with no acting home is not recalled. -/
theorem recallHome_of_home {s : State} {l : Leaf} (h : actingHome s l = none) (va : Nat) : recallHome va l s = s := by
  refine if_neg fun hst => ?_
  rw [actingHome, if_pos hst] at h
  cases h

theorem lineOf_lineOf (a : Nat) : lineOf (lineOf a) = lineOf a := by simp [lineOf]

/-- R433: poison is a line's. -/
theorem isPoisoned_lineOf (s : State) (a : Nat) : isPoisoned s (lineOf a) = isPoisoned s a := by rw [isPoisoned, isPoisoned, lineOf_lineOf]

/-- The bytes of a line written. -/
def writeLineBytes (phys : Nat) (bytes : List (Nat × Byte)) (s : State) : State :=
  bytes.foldl (fun u b => wrByte (lineOf phys + b.1) b.2 u) s

/-- R283, R434: a write of a line at its home that is not poisoned writes the bytes. -/
theorem withUpkeepOf_homeWrite (s : State) {u : State} {l : Leaf} (h : isPoisoned u l.phys = false) (ctx va src : Nat) (w : Writer)
    (bytes : List (Nat × Byte)) : withUpkeepOf s (homeWrite ctx va src w l bytes u) = withUpkeepOf s (writeLineBytes l.phys bytes u) := by
  have hclean : ¬(isPoisoned u (lineOf l.phys) = true ∧ ¬ wholeLine bytes = true) := by
    rintro ⟨hp, -⟩
    rw [isPoisoned_lineOf, h] at hp
    cases hp
  have hclock (p : Bool) (d : Nat) (v : State) : withUpkeepOf s (if p then clockWrite src d v else v) = withUpkeepOf s v := by
    cases p
    · rfl
    · exact withUpkeepOf_clockWrite s _ _ _
  unfold homeWrite
  dsimp only
  rw [if_neg hclean]
  exact (withUpkeepOf_evalWatches s _ _ _ _ _ _ _).trans ((withUpkeepOf_homeTouch s _ _ _ _).trans ((hclock _ _ _).trans
    (withUpkeepOf_invalidateRemote s _ _ _ _ _ _ _)))

/-! Remote data caches. -/

theorem withUpkeepOf_takeBack (s : State) (agent dom line : Nat) (u : State) :
    withUpkeepOf s (takeBack agent dom line u) = withUpkeepOf s u := by
  have hhome (ctx : Nat) (l : Leaf) : withUpkeepOf s (homeTouch ctx l line (requestCount agent ctx line l (giveUpLine agent dom line u))) =
      withUpkeepOf s u := (withUpkeepOf_homeTouch s _ _ _ _).trans (withUpkeepOf_requestCount s _ _ _ _ _)
  unfold takeBack
  dsimp only
  split
  · rfl
  next ctx l _ => split <;> split <;> exact hhome ctx l

theorem withUpkeepOf_rdcRoom (s : State) (agent slice dom line : Nat) (u : State) :
    withUpkeepOf s (rdcRoom agent slice dom line u) = withUpkeepOf s u := by
  have hevict (v : RdcLine) (w : State) : withUpkeepOf s (rdcEvict v w) = withUpkeepOf s w := by
    unfold rdcEvict
    split
    · rfl
    all_goals exact withUpkeepOf_takeBack s _ _ _ w
  unfold rdcRoom
  dsimp only
  split
  · rfl
  · split
    · rfl
    · split
      · exact hevict _ _
      · rfl

theorem withUpkeepOf_rdcFill (s : State) (agent line : Nat) (st : RdcSt) (l : Leaf) (u : State) :
    withUpkeepOf s (rdcFill agent line st l u) = withUpkeepOf s u := by
  have hroom (p : Bool) (slice dom : Nat) : withUpkeepOf s (if p then u else rdcRoom agent slice dom line u) = withUpkeepOf s u := by
    cases p
    · exact withUpkeepOf_rdcRoom s _ _ _ _ u
    · rfl
  unfold rdcFill
  dsimp only
  split <;> exact hroom _ _ _

/-- R430, R431: a line is granted to an agent. -/
theorem withUpkeepOf_grantGets (s : State) (agent ctx line : Nat) (l : Leaf) (u : State) :
    withUpkeepOf s (grantGets agent ctx line l u) = withUpkeepOf s u := by
  have hhome : withUpkeepOf s (homeTouch ctx l line (requestCount agent ctx line l u)) = withUpkeepOf s u :=
    (withUpkeepOf_homeTouch s _ _ _ _).trans (withUpkeepOf_requestCount s _ _ _ _ _)
  unfold grantGets
  dsimp only
  split
  · exact hhome
  · split
    · split
      · exact (withUpkeepOf_rdcFill s _ _ _ _ _).trans hhome
      · exact hhome
    · exact (withUpkeepOf_rdcFill s _ _ _ _ _).trans hhome

/-- R282, R283, R430: what a served read leaves in the caches. -/
theorem withUpkeepOf_afterRead (s : State) (die core ctx : Nat) (l : Leaf) (va : Nat) (u : State) :
    withUpkeepOf s (afterRead die core ctx l va u) = withUpkeepOf s u := by
  have hl1 (p : Bool) (bytes : List Byte) (w : State) :
      withUpkeepOf s (if p then l1Fill die core l.dom (lineOf va) bytes w else w) = withUpkeepOf s w := by cases p <;> rfl
  have hclock (p : Bool) (c : List Nat) (w : State) : withUpkeepOf s (if p then clockJoin die c w else w) = withUpkeepOf s w := by
    cases p <;> rfl
  unfold afterRead
  dsimp only
  split
  · rfl
  · refine (hl1 _ _ _).trans ?_
    split
    · rfl
    · split
      · exact withUpkeepOf_grantGets s _ _ _ _ _
      · refine (hclock _ _ _).trans ((withUpkeepOf_homeTouch s _ _ _ _).trans ?_)
        split
        · exact withUpkeepOf_requestCount s _ _ _ _ _
        · rfl

end Sys2Proof.Machine
end

section
/-! Bytes and numbers, and masks of one lane (R5, R7). -/

namespace Sys2Proof.Machine

open Sys2Proof Sys2Proof.Claims

/-- R5: the bytes after the first k stand for the number shifted by them. -/
theorem bytesToNat_drop (bs : List Byte) (k : Nat) : bytesToNat (bs.drop k) = bytesToNat bs / 2 ^ (8 * k) := by
  induction k generalizing bs with
  | zero => simp
  | succ k ih =>
    cases bs with
    | nil => simp [bytesToNat]
    | cons b bs =>
      rw [List.drop_succ_cons, ih, bytesToNat, show 8 * (k + 1) = 8 + 8 * k by ring, pow_add, ← Nat.div_div_eq_div_mul]
      congr 1
      have := b.isLt
      omega

/-- R5: the first k bytes stand for the number below 2^(8k). -/
theorem bytesToNat_take (bs : List Byte) (k : Nat) : bytesToNat (bs.take k) = bytesToNat bs % 2 ^ (8 * k) := by
  induction k generalizing bs with
  | zero => simp [bytesToNat, Nat.mod_one]
  | succ k ih =>
    cases bs with
    | nil => simp [bytesToNat]
    | cons b bs =>
      have hb := b.isLt
      have hlow : (b.toNat + 256 * bytesToNat bs) % 2 ^ 8 = b.toNat := by omega
      have hhigh : (b.toNat + 256 * bytesToNat bs) / 2 ^ 8 = bytesToNat bs := by omega
      rw [List.take_succ_cons, bytesToNat, bytesToNat, ih, show 8 * (k + 1) = 8 + 8 * k by ring, pow_add, Nat.mod_mul, hlow, hhigh]
      rfl

@[simp] theorem length_natToBytes (n x : Nat) : (natToBytes n x).length = n := by
  induction n generalizing x with
  | zero => rfl
  | succ n ih => simp [natToBytes, ih]

/-- R5: n bytes of a number stand for it below 2^(8n). -/
theorem bytesToNat_natToBytes (n x : Nat) : bytesToNat (natToBytes n x) = x % 2 ^ (8 * n) := by
  induction n generalizing x with
  | zero => simp [natToBytes, bytesToNat, Nat.mod_one]
  | succ n ih =>
    rw [natToBytes, bytesToNat, ih, show 8 * (n + 1) = 8 + 8 * n by ring, pow_add, Nat.mod_mul, BitVec.toNat_ofNat]
    rfl

/-- R7: a lane's own mask holds that lane alone. -/
theorem inMask_laneBit (l : Nat) {k : Nat} (hk : k < 32) : inMask (laneBit l) k = (k == l) := by
  rw [inMask, laneBit, BitVec.getLsbD_ofNat, Nat.testBit_two_pow, Bool.eq_iff_iff]
  simp only [hk, decide_true, Bool.true_and, decide_eq_true_eq, beq_iff_eq]
  exact eq_comm

end Sys2Proof.Machine
end

section
/-! A lane of a load is served (R145, R282, R283). -/

namespace Sys2Proof.Machine

open Sys2Proof Sys2Proof.Claims

/-- R145: what a load leaves in a register of its destination. -/
theorem loadedWord_eq_loadValue {size j : Nat} (signed : Bool) (bs : List Byte) (hj : j < max 1 (size / 4)) :
    loadedWord size signed bs j = loadValue size signed bs j := by
  have hword : bytesToNat ((bs.drop (4 * j)).take 4) = bytesToNat bs / 2 ^ (32 * j) % 2 ^ 32 := by
    rw [bytesToNat_take, bytesToNat_drop, show 8 * (4 * j) = 32 * j by ring]
  unfold loadedWord loadValue
  rw [hword]
  split
  next hs =>
    obtain ⟨-, hsize⟩ := hs
    obtain rfl : j = 0 := by omega
    have hmod (n : Nat) : n % 2 ^ 32 % 2 ^ (8 * size) = n % 2 ^ (8 * size) := Nat.mod_mod_of_dvd n (pow_dvd_pow 2 (by omega))
    simp only [toSigned, mul_zero, pow_zero, Nat.div_one, hmod]
  next => exact BitVec.eq_of_toNat_eq (by simp)

/-- R145: the bytes of a lane that has taken all of them. -/
theorem laneBytes_taken {u : State} {x : LoadLane} (h : x.taken = true) : Claims.laneBytes u x = x.fwd.map (fun b => b.getD 0) := by
  have hsome : ∀ b ∈ x.fwd, b.isSome = true := by simpa [LoadLane.taken] using h
  unfold Claims.laneBytes
  refine List.ext_getElem (by simp) fun i hi hi' => ?_
  have hlt : i < x.fwd.length := by simpa using hi
  obtain ⟨b, hb⟩ := Option.isSome_iff_exists.mp (hsome _ (List.getElem_mem hlt))
  simp [hb]

/-- R145: the bytes of a lane whose line is read. -/
theorem laneBytes_served {u : State} {x : LoadLane} {l : Leaf} (h : accessIn u u.g.ctx needRd x.addr = .ok l) :
    Claims.laneBytes u x = x.bytesWith (servedBytes u u.g.die u.g.core l x.addr x.fwd.length) := by
  unfold Claims.laneBytes LoadLane.bytesWith servedBytes servedLine homeLine
  simp only [h]
  cases l1Find u u.g.die u.g.core l.dom (lineOf x.addr) <;> cases rdcHit u u.g.die l x.addr <;> rfl

/-- R145: whether a lane of a load has its bytes, or its address can be read. -/
def Servable (u : State) (x : LoadLane) : Prop := x.taken = true ∨ ∃ l, accessIn u u.g.ctx needRd x.addr = .ok l

/-- R145: a lane that is served writes its bytes, after the upkeep of the read. -/
theorem serveLane_writes {u : State} {x : LoadLane} (k : LoadKind) (h : Servable u x) :
    ∃ v, withUpkeepOf u v = u ∧ serveLane k x u = writeLoaded k x.lane (Claims.laneBytes u x) v := by
  unfold serveLane
  cases htaken : x.taken with
  | true => exact ⟨u, rfl, by rw [laneBytes_taken htaken, if_pos rfl]⟩
  | false =>
    obtain ⟨l, hl⟩ := h.resolve_left (by simp [htaken])
    refine ⟨afterRead u.g.die u.g.core u.g.ctx l x.addr u, withUpkeepOf_afterRead u _ _ _ l x.addr u, ?_⟩
    rw [laneBytes_served hl]
    simp only [hl, Bool.false_eq_true, if_false]

/-- R145: a lane that is not served changes nothing. -/
theorem serveLane_unserved {u : State} {x : LoadLane} (k : LoadKind) (h : ¬Servable u x) : serveLane k x u = u := by
  simp only [Servable, not_or, not_exists] at h
  obtain ⟨htaken, hread⟩ := h
  unfold serveLane
  rw [if_neg htaken]
  split
  · rfl
  next l hl => exact absurd hl (hread l)

/-- A state with the registers of s, and the caches and accounts of s. -/
def withLoadedOf (s u : State) : State :=
  withUpkeepOf s { u with g := { u.g with regs := s.g.regs, regPoison := s.g.regPoison, sregs := s.g.sregs } }

/-- R145: a lane that is served changes registers, caches and accounts alone. -/
theorem withLoadedOf_serveLane (s : State) (k : LoadKind) (x : LoadLane) (u : State) :
    withLoadedOf s (serveLane k x u) = withLoadedOf s u := by
  by_cases h : Servable u x
  · obtain ⟨v, hv, heq⟩ := serveLane_writes k h
    have hframe : withLoadedOf s (writeLoaded k x.lane (Claims.laneBytes u x) v) = withLoadedOf s v := by
      cases k with
      | scalar d => rfl
      | vec d size signed =>
        exact (congrArg (fun g : Group => withLoadedOf s { v with g := g }) (setWide_frame d _ _ _ v.g) :)
    exact heq ▸ hframe.trans (congrArg (withLoadedOf s) hv :)
  · rw [serveLane_unserved k h]

/-- R145: the registers of another lane, and those outside a load's destination, are as before. -/
theorem gReg_serveLane_other {dd size : Nat} {signed : Bool} {x : LoadLane} {r l : Nat} (hl : l < 32)
    (h : x.lane ≠ l ∨ r < dd ∨ dd + max 1 (size / 4) ≤ r) (u : State) :
    gReg (serveLane (.vec dd size signed) x u).g r l = gReg u.g r l := by
  by_cases hs : Servable u x
  · obtain ⟨v, hv, heq⟩ := serveLane_writes (.vec dd size signed) hs
    have hout : ¬(dd ≤ r ∧ r < dd + max 1 (size / 4) ∧ inMask (laneBit x.lane) l = true) := by
      rw [inMask_laneBit _ hl, beq_iff_eq]
      omega
    rw [heq, writeLoaded, gReg_setWide _ _ _ _ _ _ hl, if_neg hout]
    exact (congrArg (fun w : State => gReg w.g r l) hv :)
  · rw [serveLane_unserved _ hs]

/-- R145: a lane that is served has its value in each register of the load's destination. -/
theorem gReg_serveLane_same {dd size j : Nat} {signed : Bool} {x : LoadLane} {u : State} (hx : x.lane < 32) (hs : Servable u x)
    (hj : j < max 1 (size / 4)) :
    gReg (serveLane (.vec dd size signed) x u).g (dd + j) x.lane = loadValue size signed (Claims.laneBytes u x) j := by
  obtain ⟨v, -, heq⟩ := serveLane_writes (.vec dd size signed) hs
  have hin : dd ≤ dd + j ∧ dd + j < dd + max 1 (size / 4) ∧ inMask (laneBit x.lane) x.lane = true := by
    rw [inMask_laneBit _ hx]
    simpa using hj
  rw [heq, writeLoaded, gReg_setWide _ _ _ _ _ _ hx, if_pos hin, Nat.add_sub_cancel_left, loadedWord_eq_loadValue signed _ hj]

/-- R145: no scalar register changes where a vector load is served. -/
theorem sregs_serveLane_vec (dd size : Nat) (signed : Bool) (x : LoadLane) (u : State) :
    (serveLane (.vec dd size signed) x u).g.sregs = u.g.sregs := by
  by_cases hs : Servable u x
  · obtain ⟨v, hv, heq⟩ := serveLane_writes (.vec dd size signed) hs
    rw [heq, writeLoaded]
    exact ((congrArg Group.sregs (setWide_frame dd _ _ _ v.g) :)).trans (congrArg (fun w : State => w.g.sregs) hv :)
  · rw [serveLane_unserved _ hs]

/-- R148: no vector register and no other scalar register changes where a scalar load is served. -/
theorem serveLane_scalar (dd : Nat) (x : LoadLane) (u : State) :
    (serveLane (.scalar dd) x u).g.regs = u.g.regs ∧ ∀ r, r ≠ dd → sGet (serveLane (.scalar dd) x u) r = sGet u r := by
  by_cases hs : Servable u x
  · obtain ⟨v, hv, heq⟩ := serveLane_writes (.scalar dd) hs
    rw [heq]
    refine ⟨(congrArg (fun w : State => w.g.regs) hv :), fun r hr => ?_⟩
    have hget : sGet (writeLoaded (.scalar dd) x.lane (Claims.laneBytes u x) v) r = sGet v r :=
      (mapGet_mapSet 0 v.g.sregs dd r _).trans (if_neg hr)
    exact hget.trans (congrArg (fun w : State => sGet w r) hv :)
  · rw [serveLane_unserved _ hs]
    exact ⟨rfl, fun _ _ => rfl⟩

/-- R148: a scalar load that is served has its value. -/
theorem sGet_serveLane {dd : Nat} {x : LoadLane} {u : State} (hs : Servable u x) :
    sGet (serveLane (.scalar dd) x u) dd = BitVec.ofNat 64 (bytesToNat (Claims.laneBytes u x)) := by
  obtain ⟨v, -, heq⟩ := serveLane_writes (.scalar dd) hs
  rw [heq]
  exact (mapGet_mapSet 0 v.g.sregs dd dd _).trans (if_pos rfl)

end Sys2Proof.Machine
end

section
/-! An outstanding load returns (R144, R145, R148, R306). -/

namespace Sys2Proof.Machine

open Sys2Proof Sys2Proof.Claims

/-- R153: the split that is in focus for an event stands with the groups that the state had. -/
theorem focusFor?_of_at {s u : State} {gid num : Nat} (h : At s gid num u) :
    focusFor? gid num s = some u ∧ ∃ g, groupOf? s gid = some g ∧ Focused gid g s u := by
  obtain ⟨hsettled, -, hfocus⟩ := h
  have hs : s.g.gid = 0 := congrArg Group.gid hsettled.1
  have hfor : focusFor? gid num s = some u := by
    unfold focusFor?
    rw [hfocus]
  cases hg : s.groups.find? (fun x => x.gid == gid) with
  | none => rw [focusFor?_none num hs hg] at hfor; cases hfor
  | some g =>
    obtain ⟨t, ht, hfocused⟩ := focusFor?_focused num hs hg
    obtain rfl : t = u := Option.some.inj (ht.symm.trans hfor)
    exact ⟨hfor, g, (groupOf?_unfocused hs gid).trans hg, hfocused⟩

/-- R153: an operation on the split in focus that leaves the group's number and the other groups. -/
theorem onSplit_of_at {s u : State} {gid num : Nat} (h : At s gid num u) {f : State → State} (hg : (f u).g.gid = u.g.gid)
    (hgs : (f u).groups = u.groups) : onSplit gid num f s = unfocus (f u) := by
  obtain ⟨hfor, g, hgroup, hothers, ⟨ps, hown⟩, -⟩ := focusFor?_of_at h
  obtain ⟨hsettled, hgids, -⟩ := h
  have hs : s.g.gid = 0 := congrArg Group.gid hsettled.1
  refine onSplit_unfocused hs hfor ?_ fun y hy => ?_
  · rw [hg, hown]
    exact hgids g (List.mem_of_find?_eq_some (groupOf?_unfocused hs gid ▸ hgroup))
  · rw [hgs, hothers] at hy
    exact hgids y (List.mem_filter.mp hy).1

/-- R306: a load without fault records has lanes that can be served. -/
theorem servable_of_loadRecs {u : State} {d : Load} (h : loadRecs u d = []) : ∀ x ∈ d.lanes, Servable u x := by
  intro x hx
  have hnone := List.filterMap_eq_nil_iff.mp h x hx
  cases htaken : x.taken with
  | true => exact .inl htaken
  | false =>
    refine .inr ?_
    simp only [htaken, Bool.false_eq_true, if_false, Option.map_eq_none_iff] at hnone
    unfold readFault? at hnone
    split at hnone
    · cases hnone
    next l hl => exact ⟨l, hl⟩

/-- R145: the lanes of a load served in order. -/
def serveLanes (k : LoadKind) (xs : List LoadLane) (u : State) : State := xs.foldl (fun t x => serveLane k x t) u

/-- R144, R145: a load that nothing holds back is served and done. -/
theorem returnLoad_serves {u : State} {d : Load} (hw : loadWaits u d = false) (htx : d.tx = false) (hrecs : loadRecs u d = []) :
    returnLoad d u = loadDone d (serveLanes d.kind d.lanes u) := by
  simp [returnLoad, hw, htx, hrecs, ownTx?, serveLanes]

theorem withLoadedOf_serveLanes (s : State) (k : LoadKind) (xs : List LoadLane) (u : State) :
    withLoadedOf s (serveLanes k xs u) = withLoadedOf s u :=
  foldl_keeps (withLoadedOf s) (fun v x => withLoadedOf_serveLane s k x v) xs u

/-- R145: registers of lanes that a load does not name, and those outside its destination, are as before. -/
theorem gReg_serveLanes_other {dd size : Nat} {signed : Bool} {r l : Nat} (hl : l < 32) {xs : List LoadLane}
    (h : (∀ x ∈ xs, x.lane ≠ l) ∨ r < dd ∨ dd + max 1 (size / 4) ≤ r) (u : State) :
    gReg (serveLanes (.vec dd size signed) xs u).g r l = gReg u.g r l := by
  induction xs generalizing u with
  | nil => rfl
  | cons x xs ih =>
    have hx := h.imp_left fun hne => hne x (List.mem_cons_self ..)
    have hrest := h.imp_left fun hne y hy => hne y (List.mem_cons_of_mem _ hy)
    exact (ih hrest _).trans (gReg_serveLane_other hl hx u)

/-- R145: a lane that has its bytes, or is alone, has its value once the lanes are served. -/
theorem gReg_serveLanes_same {dd size : Nat} {signed : Bool} {xs : List LoadLane} {u : State} (hnd : (xs.map LoadLane.lane).Nodup)
    (hxs : ∀ x ∈ xs, x.lane < 32) (hs : ∀ x ∈ xs, Servable u x) {x : LoadLane} (hx : x ∈ xs) (h : x.taken = true ∨ xs = [x]) {j : Nat}
    (hj : j < max 1 (size / 4)) :
    gReg (serveLanes (.vec dd size signed) xs u).g (dd + j) x.lane = loadValue size signed (Claims.laneBytes u x) j := by
  rcases h with htaken | rfl
  · obtain ⟨pre, post, rfl⟩ := List.append_of_mem hx
    have hpost : ∀ y ∈ post, y.lane ≠ x.lane := by
      rw [List.map_append, List.map_cons, List.nodup_middle, List.nodup_cons] at hnd
      intro y hy heq
      exact hnd.1 (List.mem_append_right _ (heq ▸ List.mem_map_of_mem hy))
    have hsame := gReg_serveLane_same (dd := dd) (signed := signed) (u := serveLanes (.vec dd size signed) pre u) (hxs x hx) (.inl htaken) hj
    rw [laneBytes_taken htaken] at hsame ⊢
    rw [serveLanes, List.foldl_append, List.foldl_cons]
    exact (gReg_serveLanes_other (hxs x hx) (.inl hpost) _).trans hsame
  · exact gReg_serveLane_same (hxs x hx) (hs x hx) hj

theorem sregs_serveLanes_vec (dd size : Nat) (signed : Bool) (xs : List LoadLane) (u : State) :
    (serveLanes (.vec dd size signed) xs u).g.sregs = u.g.sregs :=
  foldl_keeps (fun v : State => v.g.sregs) (fun v x => sregs_serveLane_vec dd size signed x v) xs u

theorem regs_serveLanes_scalar (dd : Nat) (xs : List LoadLane) (u : State) : (serveLanes (.scalar dd) xs u).g.regs = u.g.regs :=
  foldl_keeps (fun v : State => v.g.regs) (fun v x => (serveLane_scalar dd x v).1) xs u

theorem sGet_serveLanes_other {dd r : Nat} (hr : r ≠ dd) (xs : List LoadLane) (u : State) :
    sGet (serveLanes (.scalar dd) xs u) r = sGet u r :=
  foldl_keeps (fun v : State => sGet v r) (fun v x => (serveLane_scalar dd x v).2 r hr) xs u

/-- Settles O13: a load that nothing holds back serves its lanes in order and is done. -/
theorem loadReturns : Obligations.LoadReturns := by
  intro s u d hat hd hw htx hrecs hnd hlanes
  have hfound : exec (.loadDataReturn d.uid) s = .next (onSplit d.gid d.split (returnLoad d) s) := by
    change execLoadDataReturn d.uid s = _
    unfold execLoadDataReturn
    rw [hd]
  have hserves := returnLoad_serves hw htx hrecs
  have hframe := withLoadedOf_serveLanes u d.kind d.lanes u
  obtain ⟨-, g, -, -, -, hrest⟩ := focusFor?_of_at hat
  have hservable := servable_of_loadRecs hrecs
  have hnum : (returnLoad d u).g.gid = u.g.gid := hserves ▸ (congrArg (fun v : State => v.g.gid) hframe :)
  have hgroups : (returnLoad d u).groups = u.groups := hserves ▸ (congrArg State.groups hframe :)
  have hms : u.ms = s.ms := (congrArg State.ms hrest :)
  let w := serveLanes d.kind d.lanes u
  have hkept : (w.ms.loads, w.ms.entries, w.mem, w.wq, w.spans, w.sp) = (s.ms.loads, s.ms.entries, s.mem, s.wq, s.spans, u.sp) :=
    ((congrArg (fun v : State => (v.ms.loads, v.ms.entries, v.mem, v.wq, v.spans, v.sp)) hframe :)).trans
      (congrArg (fun v : State => (v.ms.loads, v.ms.entries, v.mem, v.wq, v.spans, u.sp)) hrest :)
  have hgroup : (w.g.cntL, w.g.flags, w.g.kregs) = (u.g.cntL, u.g.flags, u.g.kregs) :=
    (congrArg (fun v : State => (v.g.cntL, v.g.flags, v.g.kregs)) hframe :)
  simp only [Prod.mk.injEq] at hkept hgroup
  obtain ⟨hloads, hentries, hmem, hwq, hspans, hsp⟩ := hkept
  obtain ⟨hcnt, hflags, hkregs⟩ := hgroup
  refine ⟨loadDone d w, ?_, congrArg _ hloads, congrArg (· - 1) hcnt, ?_, hkregs, hsp, hmem, hwq, hentries, hspans, ?vector, ?scalar⟩
  · rw [hfound, onSplit_of_at hat hnum hgroups, hserves]
  · exact congrArg (fun f : Flags => if d.param then f ||| flWindow else f) hflags
  case vector =>
    intro dd size signed hk
    have hw : w = serveLanes (.vec dd size signed) d.lanes u := by simp only [w, hk]
    refine ⟨?_, fun r l hl h => ?_, fun x hx h j hj => ?_⟩
    · exact (congrArg (fun v : State => v.g.sregs) hw).trans (sregs_serveLanes_vec dd size signed d.lanes u)
    · exact (congrArg (fun v : State => gReg v.g r l) hw).trans (gReg_serveLanes_other hl h u)
    · exact (congrArg (fun v : State => gReg v.g (dd + j) x.lane) hw).trans (gReg_serveLanes_same hnd hlanes hservable hx h hj)
  case scalar =>
    intro dd hk
    have hw : w = serveLanes (.scalar dd) d.lanes u := by simp only [w, hk]
    refine ⟨?_, fun r hr => ?_, fun x hx => ?_⟩
    · exact (congrArg (fun v : State => v.g.regs) hw).trans (regs_serveLanes_scalar dd d.lanes u)
    · exact (congrArg (fun v : State => sGet v r) hw).trans (sGet_serveLanes_other hr d.lanes u)
    · have halone : w = serveLane (.scalar dd) x u := by rw [hw, hx]; rfl
      exact (congrArg (fun v : State => sGet v dd) halone).trans (sGet_serveLane (hservable x (by rw [hx]; exact List.mem_singleton_self x)))

end Sys2Proof.Machine
end

section
/-! Bytes of memory (R5, R283). -/

namespace Sys2Proof.Machine

open Sys2Proof Sys2Proof.Claims

/-- A byte of memory depends on memory and on the writes of the step alone. -/
theorem rdByte_congr {s t : State} (hm : t.mem = s.mem) (hq : t.wq = s.wq) (a : Nat) : rdByte t a = rdByte s a := by
  simp only [rdByte, hm, hq]

/-- A run of bytes waits in the writes of the step, the last one foremost. -/
theorem wrBytes_eq (phys : Nat) (bs : List Byte) (s : State) :
    wrBytes phys bs s = { s with wq := (bs.zipIdx.map (fun p => (phys + p.2, p.1))).reverse ++ s.wq } := by
  have h (xs : List (Byte × Nat)) (u : State) : xs.foldl (fun t p => wrByte (phys + p.2) p.1 t) u =
      { u with wq := (xs.map (fun p => (phys + p.2, p.1))).reverse ++ u.wq } := by
    induction xs generalizing u with
    | nil => rfl
    | cons x xs ih =>
      rw [List.foldl_cons, ih, List.map_cons, List.reverse_cons, List.append_assoc]
      rfl
  exact h _ s

/-- A byte of memory after a run of bytes was written. -/
theorem rdByte_wrBytes (phys : Nat) (bs : List Byte) (s : State) (c : Nat) :
    rdByte (wrBytes phys bs s) c = if phys ≤ c ∧ c < phys + bs.length then nthD 0 bs (c - phys) else rdByte s c := by
  induction bs using List.reverseRecOn with
  | nil => exact (if_neg (by simp)).symm
  | append_singleton bs b ih =>
    have hstep : wrBytes phys (bs ++ [b]) s = wrByte (phys + bs.length) b (wrBytes phys bs s) := by
      simp [wrBytes, List.zipIdx_append]
    rw [hstep, rdByte_wrByte, ih, List.length_append, List.length_singleton]
    by_cases hlast : c = phys + bs.length
    · rw [if_pos hlast, if_pos (by omega)]
      simp [nthD, show c - phys = bs.length by omega]
    · rw [if_neg hlast]
      by_cases hin : phys ≤ c ∧ c < phys + bs.length
      · rw [if_pos hin, if_pos (by omega)]
        simp [nthD, List.getElem?_append_left (show c - phys < bs.length by omega)]
      · rw [if_neg hin, if_neg (by omega)]

/-- R5: a number that was written reads as written. -/
theorem rdNat_wrBytes_natToBytes (phys n x : Nat) (s : State) : rdNat (wrBytes phys (natToBytes n x) s) phys n = x % 2 ^ (8 * n) := by
  have hbytes : rdBytes (wrBytes phys (natToBytes n x) s) phys n = natToBytes n x := by
    refine List.ext_getElem (by simp [rdBytes]) fun i hi hi' => ?_
    have hlt : i < n := by simpa [rdBytes] using hi
    simp [rdBytes, rdByte_wrBytes, hlt, nthD]
  rw [rdNat, hbytes, bytesToNat_natToBytes]

/-- A number of memory depends on memory and on the writes of the step alone. -/
theorem rdNat_congr {s t : State} (hm : t.mem = s.mem) (hq : t.wq = s.wq) (a n : Nat) : rdNat t a n = rdNat s a n := by
  simp only [rdNat, rdBytes, rdByte_congr hm hq]

/-- R283: bytes of a line at a virtual address are written at the physical address of the same place in its line. -/
theorem writeLineBytes_lineBytes {phys va : Nat} (h : phys % 128 = va % 128) (bs : List Byte) (s : State) :
    writeLineBytes phys (lineBytes va bs) s = wrBytes phys bs s := by
  have hplace (k : Nat) : lineOf phys + (va % 128 + k) = phys + k := by
    unfold lineOf
    omega
  simp only [writeLineBytes, lineBytes, List.foldl_map, hplace]
  rfl

end Sys2Proof.Machine
end

section
/-! One lane of an atomic is performed at its home (R151 to R153, R311). -/

namespace Sys2Proof.Machine

open Sys2Proof Sys2Proof.Claims

/-- R152: the model's result of an atomic is that of its rule. -/
theorem atomResult_rule {op : Nat} {f : Nat → W64 → W64 → Nat} (h : (op, f) ∈ atomRule) (m : Nat) (x y : W64) :
    atomResult op m x y % 2 ^ (8 * atomSize op) = f m x y % 2 ^ (8 * atomSize op) := by
  have hsigned (n : Nat) : toSigned 32 n = (BitVec.ofNat 32 n).toInt := toSigned_eq_toInt (by decide) n
  have hlow (n : Nat) : BitVec.ofNat 32 (n % 2 ^ 32) = BitVec.ofNat 32 n := BitVec.eq_of_toNat_eq (by simp)
  unfold atomRule at h
  dsimp only at h
  simp only [List.mem_cons, Prod.mk.injEq, List.not_mem_nil, or_false] at h
  rcases h with ⟨rfl, rfl⟩ | ⟨rfl, rfl⟩ | ⟨rfl, rfl⟩ | ⟨rfl, rfl⟩ | ⟨rfl, rfl⟩ | ⟨rfl, rfl⟩ | ⟨rfl, rfl⟩ | ⟨rfl, rfl⟩ | ⟨rfl, rfl⟩ |
    ⟨rfl, rfl⟩ | ⟨rfl, rfl⟩ | ⟨rfl, rfl⟩ | ⟨rfl, rfl⟩
  case inr.inr.inr.inl =>
    have hmod (n : Nat) : n % 2 ^ (8 * atomSize 31) = (BitVec.ofNat 32 n).toNat := (BitVec.toNat_ofNat n 32).symm
    simp only [atomResult, hsigned, hlow]
    rcases lt_trichotomy (BitVec.ofNat 32 m).toInt (BitVec.ofNat 32 x.toNat).toInt with hlt | heq | hgt
    · rw [if_neg (by omega), if_pos (by omega)]
    · rw [if_pos (by omega), if_pos (by omega), hmod, hmod, hlow, BitVec.eq_of_toInt_eq heq]
    · rw [if_pos (by omega), if_neg (by omega)]
  case inl => simp [atomResult, Nat.add_mod]
  all_goals simp only [atomResult, hsigned, hlow]

/-- A member of a list of which one element changes stands there still, or changed. -/
theorem mem_updateFirst {α : Type} {p : α → Bool} {f : α → α} {xs : List α} {x : α} (h : x ∈ xs) :
    x ∈ updateFirst p f xs ∨ p x = true ∧ f x ∈ updateFirst p f xs := by
  induction xs with
  | nil => cases h
  | cons y ys ih =>
    unfold updateFirst
    split
    next hy =>
      obtain rfl | hx := List.mem_cons.mp h
      · exact .inr ⟨hy, List.mem_cons_self ..⟩
      · exact .inl (List.mem_cons_of_mem _ hx)
    next =>
      obtain rfl | hx := List.mem_cons.mp h
      · exact .inl (List.mem_cons_self ..)
      · exact (ih hx).imp (List.mem_cons_of_mem _) (And.imp_right (List.mem_cons_of_mem _))

/-- The splits of a group are the one put among them and the others. -/
theorem mem_insertSplit {p q : Split} {ps : List Split} (h : q ∈ insertSplit p ps) : q = p ∨ q ∈ ps := by
  induction ps with
  | nil =>
    unfold insertSplit at h
    split at h
    · cases h
    · exact .inl (List.mem_singleton.mp h)
  | cons x xs ih =>
    unfold insertSplit at h
    split at h
    · exact .inr h
    · split at h
      · exact List.mem_cons.mp h
      · obtain rfl | h := List.mem_cons.mp h
        · exact .inr (List.mem_cons_self ..)
        · exact (ih h).imp_right (List.mem_cons_of_mem _)

/-- Two changes of the elements that a test picks are one, where the first keeps what the test sees. -/
theorem updateAll_updateAll {α : Type} {p : α → Bool} {f g : α → α} (hf : ∀ x, p (f x) = p x) (xs : List α) :
    updateAll p g (updateAll p f xs) = updateAll p (g ∘ f) xs := by
  unfold updateAll
  rw [List.map_map]
  refine List.map_congr_left fun x _ => ?_
  by_cases hx : p x = true <;> simp [hx, hf]

/-- R153: an atomic without a lane. -/
def dropLane (lane : Nat) (a : Atom) : Atom := { a with lanes := a.lanes.filter (fun x => x.1 != lane) }

/-- R152: a group whose lane has received the old value of an atomic's word. -/
def receiveOld (a : Atom) (lane old : Nat) (g : Group) : Group :=
  match a.d with
  | none => g
  | some d =>
    if atomSize a.op = 8 then g.setWide d 2 (laneBit lane) (fun _ j => BitVec.ofNat 32 (old / 2 ^ (32 * j)))
    else g.setLanes d (laneBit lane) (fun _ => BitVec.ofNat 32 old)

/-- R153: a split of which a lane of an atomic is done. -/
def laneDone (a : Atom) (lane : Nat) (p : Split) : Split :=
  if p.num = a.split then { p with done := p.done ||| laneBit lane } else p

/-- R152, R153: a group with the old value received and the lane done. -/
def performed (a : Atom) (lane old : Nat) (g : Group) : Group :=
  { receiveOld a lane old g with splits := (receiveOld a lane old g).splits.map (laneDone a lane) }

/-- R152: the group changes in its registers alone. -/
theorem receiveOld_frame (a : Atom) (lane old : Nat) (g : Group) :
    { receiveOld a lane old g with regs := g.regs, regPoison := g.regPoison } = g := by
  unfold receiveOld
  split
  · rfl
  · split
    · exact setWide_frame _ _ _ _ g
    · rfl

/-- R152: the registers after the old value is received. -/
theorem gReg_receiveOld (a : Atom) {lane : Nat} (old : Nat) (g : Group) (r : Nat) {m : Nat} (hm : m < 32) :
    gReg (receiveOld a lane old g) r m =
      if m = lane ∧ a.d = some r then BitVec.ofNat 32 old
      else if m = lane ∧ atomSize a.op = 8 ∧ (a.d.map (fun d => d + 1)) = some r then BitVec.ofNat 32 (old / 2 ^ 32)
      else gReg g r m := by
  unfold receiveOld
  split
  next hd => simp [hd]
  next d hd =>
    simp only [hd, Option.map_some, Option.some.injEq]
    split
    next hsize =>
      simp only [gReg_setWide _ _ _ _ _ _ hm, inMask_laneBit _ hm, beq_iff_eq]
      by_cases hl : m = lane
      · simp only [hl, hsize, true_and, and_true]
        by_cases h0 : d = r
        · simp [h0]
        · by_cases h1 : d + 1 = r
          · rw [if_pos (by omega), if_neg h0, if_pos h1, show r - d = 1 by omega, mul_one]
          · rw [if_neg (by omega), if_neg h0, if_neg h1]
      · simp [hl]
    next hsize =>
      simp only [gReg_setLanes _ _ _ _ _ hm, inMask_laneBit _ hm, beq_iff_eq, hsize, false_and, and_false, if_false, eq_comm (a := d)]

/-- R152, R153: where no group is in focus, the returned value and the done bit reach the groups of the number. -/
theorem atomReturn_unfocused {s : State} {a : Atom} (h : s.g.gid ≠ a.gid) (lane old : Nat) :
    atomReturn a lane old s = { s with groups := updateAll (fun g => g.gid == a.gid) (performed a lane old) s.groups } := by
  have hgid (g : Group) : (receiveOld a lane old g).gid = g.gid := (congrArg Group.gid (receiveOld_frame a lane old g) :)
  have heq : atomReturn a lane old s = modSplits a.gid (laneDone a lane) (modGroup a.gid (receiveOld a lane old) s) := by
    unfold atomReturn
    cases hd : a.d with
    | none =>
      have hid : receiveOld a lane old = id := funext fun g => by simp only [receiveOld, hd, id]
      have hsame : modGroup a.gid (receiveOld a lane old) s = s := by
        rw [modGroup_unfocused h, hid]
        simp [updateAll]
      rw [hsame]
      rfl
    | some d =>
      have hsome : receiveOld a lane old = fun g =>
          if atomSize a.op = 8 then g.setWide d 2 (laneBit lane) (fun _ j => BitVec.ofNat 32 (old / 2 ^ (32 * j)))
          else g.setLanes d (laneBit lane) (fun _ => BitVec.ofNat 32 old) := funext fun g => by simp only [receiveOld, hd]
      rw [hsome]
      rfl
  rw [heq, modGroup_unfocused h, modSplits, if_neg (by exact h), updateAll_updateAll fun g => by rw [hgid]]
  rfl

/-- R153: a lane that is done is done. -/
theorem inMask_laneDone {a : Atom} {lane : Nat} {p : Split} (hp : p.num = a.split) (hl : lane < 32) :
    inMask (laneDone a lane p).done lane = true := by
  have hbit : (laneBit lane).getLsbD lane = true := by
    have := inMask_laneBit lane hl
    simpa [inMask] using this
  simp [laneDone, hp, inMask, hbit]

/-- R311: a lane that is ready writes its result at the home and leaves the atomic; its old value returns. -/
theorem performLane_performs {s : State} {g : Group} {a : Atom} {x : Nat × Nat × W64 × W64} {l : Leaf} (h : LaneReady s g a x l) :
    ∃ v, performLane a x.1 s = atomReturn a x.1 (rdNat s l.phys (atomSize a.op)) v ∧
      withUpkeepOf s v = withUpkeepOf s (atomDrop a.uid x.1 (wrBytes l.phys
        (natToBytes (atomSize a.op) (atomResult a.op (rdNat s l.phys (atomSize a.op)) x.2.2.1 x.2.2.2)) s)) := by
  obtain ⟨-, -, hg, -, -, -, hx, hready, haccess, hpoison, hhome, -, hplace, -⟩ := h
  obtain ⟨lane, va, p, q⟩ := x
  dsimp only at hx hready haccess hplace ⊢
  have hfault : atomFault? s g.ctx va = none := by
    unfold atomFault?
    rw [haccess]
    exact if_neg (by simp [hpoison])
  have hperform : performLane a lane s = homeAtomic g a lane va p q l s := by
    simp only [performLane, hg, hx, hready, hfault, haccess, if_true]
  rw [hperform, homeAtomic, recallHome_of_home hhome]
  refine ⟨_, rfl, ?_⟩
  have hwrite := withUpkeepOf_homeWrite s (u := attrFill g.die g.core va l s) hpoison g.ctx (lineOf va) g.die ⟨.atomic, a.gid, a.split⟩
    (lineBytes va (natToBytes (atomSize a.op) (atomResult a.op (rdNat s l.phys (atomSize a.op)) p q)))
  rw [writeLineBytes_lineBytes hplace] at hwrite
  have hattr (bs : List Byte) (phys : Nat) : withUpkeepOf s (wrBytes phys bs (attrFill g.die g.core va l s)) = withUpkeepOf s (wrBytes phys bs s) := by
    rw [wrBytes_eq, wrBytes_eq]
    rfl
  exact (congrArg (atomDrop a.uid lane) (hwrite.trans (hattr _ _)) :)

/-- R153: a state where no group is in focus, with a split of one in focus. -/
def focusedOn (gid num : Nat) (g : Group) (p : Split) (s : State) : State :=
  { unfocus s with
    groups := (unfocus s).groups.filter (fun x => x.gid != gid)
    g := { g with splits := g.splits.filter (fun x => x.num != num) }
    sp := p
    iss := ⟨p.pendAt.1, p.pendAt.2, p.widx, 0, false⟩ }

/-- R153: an operation that finds nothing to do on a split changes at most the order in which the group lists it. -/
theorem onSplit_idle {s : State} {gid num : Nat} {g : Group} {p : Split} {f : State → State} (hs : s.g.gid = 0)
    (hgids : ∀ y ∈ s.groups, y.gid ≠ 0) (hg : groupOf? s gid = some g) (hp : g.splits.find? (fun q => q.num == num) = some p)
    (hf : f (focusedOn gid num g p s) = focusedOn gid num g p s) :
    groupOf? (onSplit gid num f s) gid = some { g with splits := insertSplit p (g.splits.filter (fun q => q.num != num)) } ∧
      { onSplit gid num f s with groups := s.groups, g := s.g, sp := s.sp, iss := s.iss } = s := by
  have hlist := groupOf?_unfocused hs gid ▸ hg
  have hmem := List.mem_of_find?_eq_some hlist
  have hnum : g.gid = gid := by simpa using List.find?_some hlist
  have hidle : unfocus s = { s with g := Group.idle, sp := Split.idle, iss := Issue.idle } := if_pos hs
  have hfocus : focusFor? gid num s = some (focusedOn gid num g p s) := by
    simp only [focusFor?, focus?, focusedOn, hidle, hlist, hp]
  have hother : ∀ y ∈ s.groups.filter (fun x => x.gid != gid), y.gid ≠ gid ∧ y.gid ≠ 0 := fun y hy => by
    obtain ⟨hy, hne⟩ := List.mem_filter.mp hy
    exact ⟨by simpa using hne, hgids y hy⟩
  have hgroups : (focusedOn gid num g p s).groups = s.groups.filter (fun x => x.gid != gid) := by simp only [focusedOn, hidle]
  have hown : (focusedOn gid num g p s).g.gid ≠ 0 := hgids g hmem
  have hsplit := onSplit_unfocused (f := f) hs hfocus (by rw [hf]; exact hown)
    (by rw [hf, hgroups]; exact fun y hy => (hother y hy).2)
  rw [hsplit, hf, unfocus_focused hown]
  refine ⟨?_, ?_⟩
  · rw [groupOf?_unfocused rfl]
    simp only [hgroups]
    exact find?_insertGroup_same hnum fun y hy => (hother y hy).1
  · simp only [focusedOn, hidle]

/-- R153: the split of an atomic that has lanes on their way goes on waiting. -/
theorem afterLane_waits {s : State} {a b : Atom} {g : Group} {p : Split} (hs : s.g.gid = 0) (hgids : ∀ y ∈ s.groups, y.gid ≠ 0)
    (hg : groupOf? s a.gid = some g) (hp : g.splits.find? (fun q => q.num == a.split) = some p) (hmember : p.member ≠ 0)
    (hpend : p.pend = [.atomWait, .boundary]) (hb : b ∈ s.ms.atoms) (hbg : b.gid = a.gid) (hbs : b.split = a.split) (hbl : b.lanes ≠ []) :
    groupOf? (afterLane a.gid a.split s) a.gid = some { g with splits := insertSplit p (g.splits.filter (fun q => q.num != a.split)) } ∧
      { afterLane a.gid a.split s with groups := s.groups, g := s.g, sp := s.sp, iss := s.iss } = s := by
  refine onSplit_idle hs hgids hg hp ?_
  have hlist := groupOf?_unfocused hs a.gid ▸ hg
  have hnum : g.gid = a.gid := by simpa using List.find?_some hlist
  have hsnum : p.num = a.split := by simpa using List.find?_some hp
  have hatoms : (focusedOn a.gid a.split g p s).ms.atoms = s.ms.atoms := by
    unfold focusedOn unfocus
    split <;> rfl
  have hwait : runMicro .atomWait (focusedOn a.gid a.split g p s) = .wait .atomWait (focusedOn a.gid a.split g p s) :=
    runMicro_atomWait (a := b) (hatoms ▸ hb) (hbg.trans hnum.symm) (hbs.trans hsnum.symm) hbl
  have hsp : (focusedOn a.gid a.split g p s).sp = p := rfl
  rw [hsp, if_neg hmember, if_neg (by simp [hpend]), hpend, runMicros_wait hwait, hsp, ← hpend]
  rfl

/-- R153: the group of an atomic, and what else a lane that is performed changes: the bytes written and the atomics. -/
theorem performLane_unfocused {s : State} {g : Group} {a : Atom} {x : Nat × Nat × W64 × W64} {l : Leaf} (h : LaneReady s g a x l) :
    let old := rdNat s l.phys (atomSize a.op)
    let bs := natToBytes (atomSize a.op) (atomResult a.op old x.2.2.1 x.2.2.2)
    (performLane a x.1 s).g = s.g ∧ (performLane a x.1 s).groups = updateAll (fun y => y.gid == a.gid) (performed a x.1 old) s.groups ∧
      (performLane a x.1 s).mem = s.mem ∧ (performLane a x.1 s).wq = (wrBytes l.phys bs s).wq ∧
      (performLane a x.1 s).ms.atoms = updateFirst (fun y => y.uid == a.uid) (dropLane x.1) s.ms.atoms := by
  intro old bs
  obtain ⟨v, hperform, hv⟩ := performLane_performs h
  obtain ⟨hsettled, hgids, hg, -⟩ := h
  have hs : s.g.gid = 0 := congrArg Group.gid hsettled.1
  have hlist := groupOf?_unfocused hs a.gid ▸ hg
  have hnum : g.gid = a.gid := by simpa using List.find?_some hlist
  have hgid : a.gid ≠ 0 := hnum ▸ hgids g (List.mem_of_find?_eq_some hlist)
  rw [wrBytes_eq] at hv
  have hview : (v.g, v.groups, v.mem, v.wq, v.ms.atoms) =
      (s.g, s.groups, s.mem, (bs.zipIdx.map (fun p => (l.phys + p.2, p.1))).reverse ++ s.wq,
        updateFirst (fun y => y.uid == a.uid) (dropLane x.1) s.ms.atoms) :=
    (congrArg (fun u : State => (u.g, u.groups, u.mem, u.wq, u.ms.atoms)) hv :)
  simp only [Prod.mk.injEq] at hview
  obtain ⟨hvg, hvgroups, hvmem, hvwq, hvatoms⟩ := hview
  rw [hperform, atomReturn_unfocused (by rw [hvg, hs]; exact hgid.symm), wrBytes_eq]
  exact ⟨hvg, congrArg _ hvgroups, hvmem, hvwq, hvatoms⟩

/-- R153: a lane that is done changes a split's done lanes alone. -/
theorem laneDone_names (a : Atom) (lane : Nat) (p : Split) :
    (laneDone a lane p).num = p.num ∧ (laneDone a lane p).member = p.member ∧ (laneDone a lane p).pend = p.pend := by
  unfold laneDone
  split <;> exact ⟨rfl, rfl, rfl⟩

/-- R153: the split of an atomic after a lane is performed. -/
theorem find?_performed_splits {a : Atom} {g : Group} {p : Split} (lane old : Nat)
    (hp : g.splits.find? (fun q => q.num == a.split) = some p) :
    (performed a lane old g).splits.find? (fun q => q.num == a.split) = some (laneDone a lane p) := by
  have hsplits : (performed a lane old g).splits = g.splits.map (laneDone a lane) :=
    congrArg (List.map (laneDone a lane)) (congrArg Group.splits (receiveOld_frame a lane old g) :)
  have hsame : (fun q : Split => q.num == a.split) ∘ laneDone a lane = fun q => q.num == a.split := funext fun q => by
    simp only [Function.comp_apply, (laneDone_names a lane q).1]
  rw [hsplits, List.find?_map, hsame, hp, Option.map_some]

/-- R152: the number of the group. -/
theorem performed_gid (a : Atom) (lane old : Nat) (g : Group) : (performed a lane old g).gid = g.gid :=
  (congrArg Group.gid (receiveOld_frame a lane old g) :)

/-- R153: where an atomic of a split has a lane left beside the one that leaves, one of the split has a lane left after it. -/
theorem atom_left {atoms : List Atom} {a b : Atom} {lane : Nat} (hb : b ∈ atoms)
    (h : if b.uid = a.uid then ∃ y ∈ b.lanes, y.1 ≠ lane else b.lanes ≠ []) :
    ∃ c ∈ updateFirst (fun y => y.uid == a.uid) (dropLane lane) atoms, c.gid = b.gid ∧ c.split = b.split ∧ c.lanes ≠ [] := by
  have hany : b.lanes ≠ [] := by
    split at h
    · obtain ⟨y, hy, -⟩ := h
      exact List.ne_nil_of_mem hy
    · exact h
  obtain hstays | ⟨huid, hdropped⟩ := mem_updateFirst (p := fun y => y.uid == a.uid) (f := dropLane lane) hb
  · exact ⟨b, hstays, rfl, rfl, hany⟩
  · rw [if_pos (beq_iff_eq.mp huid)] at h
    obtain ⟨y, hy, hne⟩ := h
    exact ⟨dropLane lane b, hdropped, rfl, rfl, List.ne_nil_of_mem (List.mem_filter.mpr ⟨hy, by simpa using hne⟩)⟩

/-- Settles O15: the lane is performed at the home, and the split goes on waiting for the other lanes. -/
theorem atomicLanesPerform : Obligations.AtomicLanesPerform := by
  intro s g a x l h
  obtain ⟨hpg, hpgroups, hpmem, hpwq, hpatoms⟩ := performLane_unfocused h
  obtain ⟨hsettled, hgids, hg, hx, hfound, -, -, -, -, -, -, -, -, p, hp, hmember, hpend, b, hb, hbg, hbs, hleft⟩ := h
  have hs : s.g.gid = 0 := congrArg Group.gid hsettled.1
  let old := rdNat s l.phys (atomSize a.op)
  let t := performLane a x.1 s
  have htgids : ∀ y ∈ t.groups, y.gid ≠ 0 := by
    rw [hpgroups]
    intro y hy
    obtain ⟨z, hz, rfl⟩ := List.mem_map.mp hy
    split
    · exact (performed_gid a x.1 old z).trans_ne (hgids z hz)
    · exact hgids z hz
  have htg : groupOf? t a.gid = some (performed a x.1 old g) := by
    have hlist := groupOf?_unfocused hs a.gid ▸ hg
    have hnum : g.gid = a.gid := by simpa using List.find?_some hlist
    rw [groupOf?_unfocused (hpg ▸ hs), hpgroups]
    exact find?_updateAll hlist (by simpa using (performed_gid a x.1 old g).trans hnum)
  obtain ⟨c, hc, hcg, hcs, hcl⟩ := atom_left hb hleft
  obtain ⟨hnum, hstands, hwaits⟩ := laneDone_names a x.1 p
  obtain ⟨hgroup, hframe⟩ := afterLane_waits (hpg ▸ hs) htgids htg (find?_performed_splits x.1 old hp) (hstands.trans_ne hmember)
    (hwaits.trans hpend) (hpatoms ▸ hc) (hcg.trans hbg) (hcs.trans hbs) hcl
  have hexec : exec (.atomicLanePerform a.uid x.1) s = .next (afterLane a.gid a.split t) := by
    change execAtomicLanePerform a.uid x.1 s = _
    unfold execAtomicLanePerform
    rw [hfound]
  have hmem : (afterLane a.gid a.split t).mem = s.mem := ((congrArg State.mem hframe :)).trans hpmem
  have hwq : (afterLane a.gid a.split t).wq = (wrBytes l.phys (natToBytes (atomSize a.op) (atomResult a.op old x.2.2.1 x.2.2.2)) s).wq :=
    ((congrArg State.wq hframe :)).trans hpwq
  have hwmem (bs : List Byte) : (wrBytes l.phys bs s).mem = s.mem := by rw [wrBytes_eq]
  have hrframe := receiveOld_frame a x.1 old g
  refine ⟨_, _, hexec, hgroup, fun f hf => ?value, fun c hc => ?rest, fun r m hm => ?register, (congrArg Group.sregs hrframe :),
    (congrArg Group.kregs hrframe :), (congrArg Group.cntL hrframe :), (congrArg Group.flags hrframe :), fun q hq hqn => ?done,
    ((congrArg (fun u : State => u.ms.atoms) hframe :)).trans hpatoms⟩
  case value =>
    rw [rdNat_congr (hmem.trans (hwmem _).symm) hwq, rdNat_wrBytes_natToBytes, atomResult_rule hf]
  case rest =>
    rw [rdByte_congr (hmem.trans (hwmem _).symm) hwq, rdByte_wrBytes, length_natToBytes, if_neg (by omega)]
  case register => exact gReg_receiveOld a old g r hm
  case done =>
    obtain rfl | hq := mem_insertSplit hq
    · exact inMask_laneDone (hnum.symm.trans hqn) hx
    · exact absurd hqn (by simpa using (List.mem_filter.mp hq).2)

end Sys2Proof.Machine
end

section
/-! Core store and quad store after a write (R254, R274, R277). -/

namespace Sys2Proof.Machine

open Sys2Proof Sys2Proof.Claims

/-- A byte map after a run of bytes was put into it. -/
theorem mapGet_putBytes (m : SMap Byte) (off : Nat) (bs : List Byte) (a : Nat) :
    mapGet 0 (putBytes m off bs) a = if off ≤ a ∧ a < off + bs.length then nthD 0 bs (a - off) else mapGet 0 m a := by
  induction bs using List.reverseRecOn with
  | nil => exact (if_neg (by simp)).symm
  | append_singleton bs b ih =>
    have hstep : putBytes m off (bs ++ [b]) = mapSet 0 (putBytes m off bs) (off + bs.length) b := by
      simp [putBytes, List.zipIdx_append]
    rw [hstep, mapGet_mapSet, ih, List.length_append, List.length_singleton]
    by_cases hlast : a = off + bs.length
    · rw [if_pos hlast, if_pos (by omega)]
      simp [nthD, show a - off = bs.length by omega]
    · rw [if_neg hlast]
      by_cases hin : off ≤ a ∧ a < off + bs.length
      · rw [if_pos hin, if_pos (by omega)]
        simp [nthD, List.getElem?_append_left (show a - off < bs.length by omega)]
      · rw [if_neg hin, if_neg (by omega)]

/-- A changed list reads as before under a test that the changed element meets neither before nor after. -/
theorem find?_updateFirst_ne {α : Type} {p q : α → Bool} {f : α → α} (h : ∀ x, p x = true → q x = false ∧ q (f x) = false) (xs : List α) :
    (updateFirst p f xs).find? q = xs.find? q := by
  induction xs with
  | nil => rfl
  | cons x xs ih =>
    unfold updateFirst
    split
    next hx => rw [List.find?_cons, List.find?_cons, (h x hx).1, (h x hx).2]
    next => rw [List.find?_cons, List.find?_cons, ih]

section
variable {f : SpanCore → SpanCore} (hcore : ∀ c, (f c).core = c.core)
include hcore

/-- R254: what a change of a part of a span does not touch reads as before in every part. -/
theorem spanCoreOf?_modSpanCore_map {γ : Type} {r : SpanCore → γ} (hr : ∀ c, r (f c) = r c) (span core : Nat) (s : State) (n k : Nat) :
    (spanCoreOf? (modSpanCore span core f s) n k).map r = (spanCoreOf? s n k).map r := by
  have hspan (u : State) : (spanCoreOf? u n k).map r =
      ((spanOf? u n).map (fun x => (x.cores.find? (fun c => c.core == k)).map r)).join := by
    unfold spanCoreOf?
    cases spanOf? u n <;> rfl
  rw [hspan, hspan]
  exact congrArg Option.join (find?_updateFirst_map (fun x => by rfl)
    (fun x => find?_updateFirst_map (fun c => by rw [hcore]) hr _ x.cores) _ s.spans)

/-- R254: the parts of a span on other cores are as before. -/
theorem spanCoreOf?_modSpanCore_ne {core k : Nat} (hk : k ≠ core) (span : Nat) (s : State) (n : Nat) :
    spanCoreOf? (modSpanCore span core f s) n k = spanCoreOf? s n k := by
  have hspan (u : State) : spanCoreOf? u n k = ((spanOf? u n).map (fun x => x.cores.find? (fun c => c.core == k))).join := by
    unfold spanCoreOf?
    cases spanOf? u n <;> rfl
  have hparts (cs : List SpanCore) :
      (updateFirst (fun c => c.core == core) f cs).find? (fun c => c.core == k) = cs.find? (fun c => c.core == k) :=
    find?_updateFirst_ne (fun c hc => by simp [hcore, beq_iff_eq.mp hc, Ne.symm hk]) cs
  rw [hspan, hspan]
  exact congrArg Option.join (find?_updateFirst_map (fun x => by rfl) (fun x => hparts x.cores) _ s.spans)

omit hcore in
/-- R254: a part of a span that changes leaves the cores of spans where they are. -/
theorem core0_modSpanCore (span core : Nat) (s : State) (n : Nat) :
    (spanOf? (modSpanCore span core f s) n).map Span.core0 = (spanOf? s n).map Span.core0 :=
  find?_updateFirst_map (by intro; rfl) (by intro; rfl) _ s.spans

end

/-- R274, R277: a byte of quad store is in the part of the core that its offset counts to from where the span begins. -/
theorem quadByte_eq {u : State} {n b : Nat} (h : (spanOf? u n).map Span.core0 = some b) (a : Nat) :
    quadByte u n a = ((spanCoreOf? u n (b + a / 131072)).map (fun c => mapGet 0 c.quad a)).getD 0 := by
  obtain ⟨x, hx, rfl⟩ := Option.map_eq_some_iff.mp h
  simp only [quadByte, hx, quadCore]

/-- R274, R277: a byte of quad store depends on where spans begin and on the quad stores of their parts. -/
theorem quadByte_congr {s t : State} {n : Nat} (h0 : (spanOf? t n).map Span.core0 = (spanOf? s n).map Span.core0)
    (hq : ∀ k, (spanCoreOf? t n k).map SpanCore.quad = (spanCoreOf? s n k).map SpanCore.quad) (a : Nat) :
    quadByte t n a = quadByte s n a := by
  cases hs : (spanOf? s n).map Span.core0 with
  | none =>
    have hnone (u : State) (hu : (spanOf? u n).map Span.core0 = none) : quadByte u n a = 0 := by
      simp only [quadByte, Option.map_eq_none_iff.mp hu]
    rw [hnone t (h0.trans hs), hnone s hs]
  | some b =>
    have hget (o : Option SpanCore) : o.map (fun c => mapGet 0 c.quad a) = (o.map SpanCore.quad).map (fun m => mapGet 0 m a) := by
      rw [Option.map_map]
      rfl
    rw [quadByte_eq (h0.trans hs), quadByte_eq hs, hget, hget, hq]

/-- R277: a byte of core store after a run of bytes was written there. -/
theorem storeByte_storeWrite {s : State} {span core : Nat} (h : (spanCoreOf? s span core).isSome) (off : Nat) (bs : List Byte)
    (poison : Bool) (a : Nat) :
    storeByte (storeWrite span core off bs poison s) span core a =
      if off ≤ a ∧ a < off + bs.length then nthD 0 bs (a - off) else storeByte s span core a := by
  obtain ⟨p, hp⟩ := Option.isSome_iff_exists.mp h
  unfold storeByte storeWrite
  rw [spanCoreOf?_modSpanCore hp rfl, hp]
  exact mapGet_putBytes p.store off bs a

/-- R277: a write of core store leaves quad store as it is. -/
theorem quadByte_storeWrite (span core off : Nat) (bs : List Byte) (poison : Bool) (s : State) (n a : Nat) :
    quadByte (storeWrite span core off bs poison s) n a = quadByte s n a :=
  quadByte_congr (core0_modSpanCore span core s n)
    (fun k => spanCoreOf?_modSpanCore_map (by intro; rfl) (by intro; rfl) span core s n k) a

/-- R277: a write of quad store leaves core store as it is. -/
theorem storeByte_quadWrite (span off : Nat) (bs : List Byte) (poison : Bool) (s : State) (n k a : Nat) :
    storeByte (quadWrite span off bs poison s) n k a = storeByte s n k a := by
  unfold quadWrite
  split
  · rfl
  next x _ =>
    have hget (u : State) : storeByte u n k a = (((spanCoreOf? u n k).map SpanCore.store).map (fun m => mapGet 0 m a)).getD 0 := by
      rw [Option.map_map]
      rfl
    rw [hget, hget, spanCoreOf?_modSpanCore_map (by intro; rfl) (by intro; rfl)]

/-- R274, R277: a byte of quad store after bytes of one core's part were written. -/
theorem quadByte_quadWrite {s : State} {span off : Nat} {x : Span} (hx : spanOf? s span = some x)
    (h : (spanCoreOf? s span (quadCore x off)).isSome) {bs : List Byte} (hone : off % 131072 + bs.length ≤ 131072) (poison : Bool) (a : Nat) :
    quadByte (quadWrite span off bs poison s) span a =
      if off ≤ a ∧ a < off + bs.length then nthD 0 bs (a - off) else quadByte s span a := by
  obtain ⟨p, hp⟩ := Option.isSome_iff_exists.mp h
  let f (c : SpanCore) : SpanCore :=
    { c with quad := putBytes c.quad off bs, quadPoison := markWords c.quadPoison off bs.length poison }
  have hwrite : quadWrite span off bs poison s = modSpanCore span (quadCore x off) f s := by
    unfold quadWrite
    rw [hx]
  have h0 : (spanOf? s span).map Span.core0 = some x.core0 := by rw [hx, Option.map_some]
  rw [hwrite, quadByte_eq ((core0_modSpanCore span _ s span).trans h0), quadByte_eq h0]
  by_cases hsame : a / 131072 = off / 131072
  · rw [hsame, ← quadCore, spanCoreOf?_modSpanCore hp rfl, hp]
    exact mapGet_putBytes p.quad off bs a
  · have hne : x.core0 + a / 131072 ≠ quadCore x off := by
      unfold quadCore
      omega
    rw [spanCoreOf?_modSpanCore_ne (by intro; rfl) hne, if_neg (by omega)]

end Sys2Proof.Machine
end

section
/-! The lanes of a copy that end it (R159, R161, R334). -/

namespace Sys2Proof.Machine

open Sys2Proof Sys2Proof.Claims

/-- R254: a change of a span beside its parts on cores leaves them as they are. -/
theorem spanCoreOf?_modSpan {f : Span → Span} (hu : ∀ x, (f x).uid = x.uid) (hc : ∀ x, (f x).cores = x.cores) (m : Nat) (s : State)
    (n k : Nat) : spanCoreOf? (modSpan m f s) n k = spanCoreOf? s n k := by
  have hspan (u : State) : spanCoreOf? u n k = ((spanOf? u n).map (fun x => x.cores.find? (fun c => c.core == k))).join := by
    unfold spanCoreOf?
    cases spanOf? u n <;> rfl
  rw [hspan, hspan]
  exact congrArg Option.join (find?_updateFirst_map (fun x => by rw [hu]) (fun x => by rw [hc]) _ s.spans)

/-- R161: a barrier register that is not closed does not arrive. -/
theorem memberArrive_open {s : State} {span b : Nat} {x : Span} (hx : spanOf? s span = some x)
    (h : (nthD Barrier.zero x.bars b).closed = false) : memberArrive span b s = s := by
  unfold memberArrive
  rw [hx]
  dsimp only
  split
  · rfl
  · rw [if_pos (by simp [h])]

/-- R159: a copy of which some lanes are done, those that wrote among them. -/
def finishedCopy (ls wrote : List CopyLane) (c : Copy) : Copy :=
  let done (l : CopyLane) : CopyLane := { l with done := true, held := false, wrote := wrote.any (fun x => x.lane == l.lane) }
  { c with lanes := updateAll (fun l => ls.any (fun x => x.lane == l.lane)) done c.lanes }

/-- R334: the bytes of a lane leave the pending field of the copy's barrier register. -/
def lowerPending (c : Copy) (l : CopyLane) (s : State) : State :=
  match c.bar with
  | none => s
  | some b => modBar c.span b (fun x => { x with pending := x.pending - laneBytes c.op c.z l }) s

/-- R26, R334: a copy of a group is complete. -/
def completeCopy (gid uid : Nat) (fl : Flags) (s : State) : State :=
  let w := lowerC gid (modGroup gid (fun g => { g with flags := g.flags ||| fl }) s)
  { w with eng := { w.eng with copies := w.eng.copies.filter (fun k => k.uid != uid) } }

/-- R334: the copies that are left do not name the one that changed. -/
theorem filter_updateFirst {α : Type} {p : α → Bool} {f : α → α} (hf : ∀ x, p (f x) = p x) (xs : List α) :
    (updateFirst p f xs).filter (fun x => !p x) = xs.filter (fun x => !p x) := by
  induction xs with
  | nil => rfl
  | cons x xs ih =>
    unfold updateFirst
    split
    next hx => simp [hx, hf]
    next hx => simp [hx, ih]

/-- R161, R334: what the copy's barrier register still has pending, and that it is open. -/
theorem spanOf?_lowerPending {c : Copy} {l : CopyLane} {s : State} {b : Nat} {x : Span} (hb : c.bar = some b)
    (hx : spanOf? s c.span = some x) (hlt : b < x.bars.length) :
    ∃ y, spanOf? (lowerPending c l s) c.span = some y ∧
      nthD Barrier.zero y.bars b = { nthD Barrier.zero x.bars b with pending := (nthD Barrier.zero x.bars b).pending - laneBytes c.op c.z l } := by
  unfold lowerPending
  rw [hb]
  exact ⟨_, spanOf?_modSpan_of hx rfl, nthD_set _ _ hlt⟩

/-- R334: pending bytes are counted in the spans alone. -/
theorem lowerPending_frame (c : Copy) (l : CopyLane) (s : State) : { lowerPending c l s with spans := s.spans } = s := by
  unfold lowerPending
  split <;> rfl

/-- R334: pending bytes are counted beside the spans' parts on cores. -/
theorem spanCoreOf?_lowerPending (c : Copy) (l : CopyLane) (s : State) (n k : Nat) :
    spanCoreOf? (lowerPending c l s) n k = spanCoreOf? s n k := by
  unfold lowerPending
  split
  · rfl
  · exact spanCoreOf?_modSpan (by intro; rfl) (by intro; rfl) _ s n k

theorem completeCopy_spans (gid uid : Nat) (fl : Flags) (s : State) : (completeCopy gid uid fl s).spans = s.spans :=
  (modGroup_spans _ _ _).trans (modGroup_spans _ _ _)

/-- R159, R161, R334: the last lane of a copy whose barrier register is open completes it. -/
theorem finishLanes_last {t : State} {c : Copy} {l : CopyLane} (hc : t.eng.copies.find? (fun x => x.uid == c.uid) = some c)
    (hl : c.lanes = [l]) (hopen : ∀ b, c.bar = some b → ∃ x, spanOf? t c.span = some x ∧ b < x.bars.length ∧
      (nthD Barrier.zero x.bars b).closed = false) (gid : Nat) (wrote : List CopyLane) :
    finishLanes gid c.uid [l] wrote t =
      completeCopy gid c.uid c.flags (lowerPending c l (modCopy c.uid (finishedCopy [l] wrote) t)) := by
  have hfound : (modCopy c.uid (finishedCopy [l] wrote) t).eng.copies.find? (fun x => x.uid == c.uid) = some (finishedCopy [l] wrote c) :=
    find?_updateFirst hc (by simp [finishedCopy])
  have hall : (finishedCopy [l] wrote c).lanes.all (fun l => l.done) = true := by simp [finishedCopy, hl, updateAll]
  have hdown (u : State) : countDown (finishedCopy [l] wrote c) [l] u = lowerPending c l u := by
    unfold countDown lowerPending
    cases hb : c.bar <;> simp [finishedCopy, hb]
  change (match (modCopy c.uid (finishedCopy [l] wrote) t).eng.copies.find? (fun x => x.uid == c.uid) with
    | none => modCopy c.uid (finishedCopy [l] wrote) t
    | some c' =>
      let u := countDown c' [l] (modCopy c.uid (finishedCopy [l] wrote) t)
      let v := if c'.lanes.all (fun l => l.done) then completeCopy gid c.uid c'.flags u else u
      match c'.bar with
      | some b => memberArrive c'.span b v
      | none => v) = _
  rw [hfound]
  dsimp only
  rw [hall, if_pos rfl, hdown]
  change (match c.bar with | some b => memberArrive c.span b (completeCopy gid c.uid c.flags _) | none => completeCopy gid c.uid c.flags _) = _
  cases hb : c.bar with
  | none => rfl
  | some b =>
    obtain ⟨x, hx, hlt, hclosed⟩ := hopen b hb
    obtain ⟨y, hy, hbar⟩ := spanOf?_lowerPending (l := l) (s := modCopy c.uid (finishedCopy [l] wrote) t) hb hx hlt
    refine memberArrive_open ((spanOf?_congr (completeCopy_spans gid c.uid c.flags _) c.span).trans hy) ?_
    rw [hbar]
    exact hclosed

/-- R26, R334: a copy that completes lowers its group's count, and leaves the rest of the machine as it is. -/
theorem completeCopy_unfocused {s : State} {gid : Nat} {g : Group} (hs : s.g.gid = 0) (h0 : gid ≠ 0) (hg : groupOf? s gid = some g)
    (uid : Nat) (fl : Flags) :
    groupOf? (completeCopy gid uid fl s) gid = some { g with flags := g.flags ||| fl, cntC := g.cntC - 1 } ∧
      { completeCopy gid uid fl s with groups := s.groups, eng := s.eng } = s ∧
      (completeCopy gid uid fl s).eng.copies = s.eng.copies.filter (fun k => k.uid != uid) := by
  have hne : s.g.gid ≠ gid := by
    rw [hs]
    exact h0.symm
  unfold completeCopy lowerC
  rw [modGroup_unfocused hne, modGroup_unfocused (by exact hne)]
  refine ⟨?_, rfl, rfl⟩
  rw [groupOf?_unfocused (by exact hs)]
  have hlist := groupOf?_unfocused hs gid ▸ hg
  have hkey := List.find?_some hlist
  exact find?_updateAll (find?_updateAll hlist hkey) hkey

end Sys2Proof.Machine
end

section
/-! A transfer of a copy of one lane (R159, R277, R333, R334). -/

namespace Sys2Proof.Machine

open Sys2Proof Sys2Proof.Claims

/-- What the last lane of a copy leaves of the machine as it is, and that the copy's group counts one less. -/
structure CopyEnded (t r : State) (g : Group) (c : Copy) (l : CopyLane) : Prop where
  group : groupOf? r c.gid = some { g with flags := g.flags ||| c.flags, cntC := g.cntC - 1 }
  copies : r.eng.copies = t.eng.copies.filter (fun k => k.uid != c.uid)
  mem : r.mem = t.mem
  wq : r.wq = t.wq
  parts : ∀ n k, spanCoreOf? r n k = spanCoreOf? t n k
  pending : ∀ b x, c.bar = some b → spanOf? r c.span = some x → ∀ y, spanOf? t c.span = some y →
    (nthD Barrier.zero x.bars b).pending = (nthD Barrier.zero y.bars b).pending - laneBytes c.op c.z l

/-- R159, R334: the last lane of a copy ends it. -/
theorem finishLanes_ended {t : State} {g : Group} {c : Copy} {l : CopyLane} (ht : t.g.gid = 0) (h0 : c.gid ≠ 0)
    (hg : groupOf? t c.gid = some g) (hc : t.eng.copies.find? (fun x => x.uid == c.uid) = some c) (hl : c.lanes = [l])
    (hopen : ∀ b, c.bar = some b → ∃ x, spanOf? t c.span = some x ∧ b < x.bars.length ∧ (nthD Barrier.zero x.bars b).closed = false) :
    CopyEnded t (finishLanes c.gid c.uid [l] [l] t) g c l := by
  let m := modCopy c.uid (finishedCopy [l] [l]) t
  let u := lowerPending c l m
  have hframe : { u with spans := m.spans } = m := lowerPending_frame c l m
  have hug : u.g = t.g := (congrArg State.g hframe :)
  have hgroups : u.groups = t.groups := (congrArg State.groups hframe :)
  obtain ⟨hgroup, hrest, hcopies⟩ := completeCopy_unfocused (s := u) (hug ▸ ht) h0 ((groupOf?_congr hug hgroups _).trans hg) c.uid c.flags
  have hspans : (completeCopy c.gid c.uid c.flags u).spans = u.spans := completeCopy_spans _ _ _ _
  rw [finishLanes_last hc hl hopen]
  refine ⟨hgroup, ?_, ((congrArg State.mem hrest :)).trans (congrArg State.mem hframe :), ((congrArg State.wq hrest :)).trans
    (congrArg State.wq hframe :), fun n k => ?_, fun b x hb hx y hy => ?_⟩
  · have hleft : u.eng.copies = updateFirst (fun x => x.uid == c.uid) (finishedCopy [l] [l]) t.eng.copies :=
      (congrArg (fun v : State => v.eng.copies) hframe :)
    rw [hcopies, hleft]
    exact filter_updateFirst (p := fun x : Copy => x.uid == c.uid) (f := finishedCopy [l] [l]) (fun _ => rfl) _
  · have hparts : spanCoreOf? (completeCopy c.gid c.uid c.flags u) n k = spanCoreOf? u n k := by
      unfold spanCoreOf?
      rw [spanOf?_congr hspans]
    exact hparts.trans (spanCoreOf?_lowerPending c l m n k)
  · obtain ⟨x', hx', hlt, -⟩ := hopen b hb
    obtain rfl : x' = y := Option.some.inj (hx'.symm.trans hy)
    obtain ⟨z, hz, hbar⟩ := spanOf?_lowerPending (l := l) (s := m) hb hx' hlt
    obtain rfl : z = x := Option.some.inj ((hz.symm.trans (spanOf?_congr hspans c.span).symm).trans hx)
    rw [hbar]

/-- R333: a lane whose copy is not suspended, may start and is not skipped is transferred. -/
theorem exec_transfers {s : State} {g : Group} {c : Copy} {l : CopyLane} (hc : s.eng.copies.find? (fun x => x.uid == c.uid) = some c)
    (hg : groupOf? s c.gid = some g) (hsusp : c.suspended = false) (hl : c.lanes = [l]) (hdone : l.done = false) (hskip : l.skip = false)
    (hstart : mayStart s g c = true) : exec (.copyTransferWrite c.uid l.lane) s = .next (runTransfer g c l s) := by
  change execCopyTransferWrite c.uid l.lane s = _
  unfold execCopyTransferWrite
  have hlane : c.lanes.find? (fun x => x.lane == l.lane && !x.done) = some l := by simp [hl, hdone]
  simp [hc, hg, hlane, hsusp, hstart, hskip]

/-- R333: the bytes of a lane on their way, to memory or to a store on the chip. -/
def moveLane (g : Group) (c : Copy) (l : CopyLane) (s : State) : State :=
  if c.op.writesMemory l.dst then writeTransfer g c [l] (readTransfer g c l s)
  else writeLane g c l (laneSource s g c l).1 (laneSource s g c l).2 (readTransfer g c l s)

/-- R159, R333: the transfer of a lone lane that nothing holds back. -/
theorem runTransfer_single {s : State} {g : Group} {c : Copy} {l : CopyLane} (hl : c.lanes = [l]) (hdone : l.done = false)
    (hskip : l.skip = false) (hfaults : laneFaults s g.ctx c.op l = []) (hready : laneReady s g c l = true) (hput : c.op ≠ .put) :
    runTransfer g c l s = finishLanes g.gid c.uid [l] [l] (moveLane g c l s) := by
  have hsame : sameTransfer c.op l l = true := by simp [sameTransfer]
  simp [runTransfer, hl, hdone, hskip, hsame, hfaults, hready, hput, moveLane]

/-- R159: of a lone lane every byte stands. -/
theorem standing_single {c : Copy} {l : CopyLane} (hl : c.lanes = [l]) (here : CopyLane → Bool) (bs : List Byte) :
    standing c here l bs = bs.zipIdx.map (fun p => (l.dst + p.2, p.1)) := by
  have hnone (a : Nat) : overwritten c here l.lane a = false := by simp [overwritten, hl]
  simp [standing, hnone]

/-- R277: a store address that is not beyond the aperture's offsets. -/
theorem storeAddress {a off : Nat} (ha : a = 0xFF01 * 2 ^ 48 + off) (hoff : off < 2 ^ 48) : a / 2 ^ 48 = 0xFF01 ∧ bitsOf a 47 0 = off := by
  subst ha
  simp only [bitsOf]
  omega

/-- R159, R277: a copy of a lone lane into core store writes there. -/
theorem writeLane_store {c : Copy} {l : CopyLane} {off : Nat} (hop : c.op = .g2s) (hl : c.lanes = [l]) (hdst : l.dst = 0xFF01 * 2 ^ 48 + off)
    (hoff : off < 2 ^ 48) (g : Group) (bs : List Byte) (poison : Bool) (s : State) :
    writeLane g c l bs poison s = storeWrite c.span g.core off bs poison s := by
  obtain ⟨htop, hlow⟩ := storeAddress hdst hoff
  have hkeep : (standing c anyLane l bs).length = bs.length := by simp [standing_single hl]
  simp only [writeLane, hop, writeChip, hkeep, if_true, writeRun, Nat.zero_add, htop, hlow]

/-- R406, R423, R435: the read request of a transfer is upkeep. -/
theorem withUpkeepOf_readTransfer (g : Group) (c : Copy) (l : CopyLane) (s : State) : withUpkeepOf s (readTransfer g c l s) = s := by
  unfold readTransfer
  split
  · split
    · exact (withUpkeepOf_homeTouch s _ _ _ _).trans (withUpkeepOf_requestCount s _ _ _ _ _)
    · rfl
  · split
    · exact withUpkeepOf_attrUse s _ _ _ _ _
    · rfl

/-- R159, R333: the source of a copy from memory. -/
theorem laneSource_memory {s : State} {g : Group} {c : Copy} {l : CopyLane} {f : Leaf} (hop : c.op = .g2s)
    (hf : accessIn s g.ctx needRd l.src = .ok f) : laneSource s g c l = (rdBytes s f.phys c.z, isPoisoned s f.phys) := by
  simp [laneSource, hop, CopyOp.readsMemory, hf]

/-- R159, R277: the source of a copy from core store. -/
theorem laneSource_store {s : State} {g : Group} {c : Copy} {l : CopyLane} {off : Nat} (hop : c.op = .s2g)
    (hsrc : l.src = 0xFF01 * 2 ^ 48 + off) (hoff : off < 2 ^ 48) :
    laneSource s g c l = ((List.range c.z).map (fun i => storeByte s c.span g.core (off + i)), storePoisoned s c.span g.core off c.z) := by
  obtain ⟨htop, hlow⟩ := storeAddress hsrc hoff
  rw [laneSource, if_neg (by simp [hop]), if_neg (by simp [hop, CopyOp.readsMemory])]
  dsimp only
  rw [htop, hlow, if_pos rfl]

/-- A place of a run of values. -/
theorem nthD_range_map {α : Type} (d : α) (f : Nat → α) {n i : Nat} (h : i < n) : nthD d ((List.range n).map f) i = f i := by
  simp [nthD, h]

/-- R17: a write of a part of a span leaves the barrier registers of spans as they are. -/
theorem bars_modSpanCore (span core : Nat) (f : SpanCore → SpanCore) (s : State) (n : Nat) :
    (spanOf? (modSpanCore span core f s) n).map Span.bars = (spanOf? s n).map Span.bars :=
  find?_updateFirst_map (by intro; rfl) (by intro; rfl) _ s.spans

/-- R159, R277, R333, R334: a copy of one lane from memory into core store. -/
theorem transfer_g2s {s : State} {g : Group} {c : Copy} {l : CopyLane} {f : Leaf} {off : Nat} (hs : s.g.gid = 0) (h0 : c.gid ≠ 0)
    (hc : s.eng.copies.find? (fun x => x.uid == c.uid) = some c) (hg : groupOf? s c.gid = some g) (hl : c.lanes = [l])
    (hcore : (spanCoreOf? s c.span g.core).isSome) (hoff : off < 2 ^ 48)
    (hopen : ∀ b, c.bar = some b → ∃ x, spanOf? s c.span = some x ∧ b < x.bars.length ∧ (nthD Barrier.zero x.bars b).closed = false)
    (hop : c.op = .g2s) (hdst : l.dst = 0xFF01 * 2 ^ 48 + off) (hf : accessIn s g.ctx needRd l.src = .ok f)
    (hpoison : isPoisoned s f.phys = false) :
    let t := moveLane g c l s
    CopyEnded t (finishLanes c.gid c.uid [l] [l] t) g c l ∧ t.eng = s.eng ∧ t.mem = s.mem ∧ t.wq = s.wq ∧
      (spanOf? t c.span).map Span.bars = (spanOf? s c.span).map Span.bars ∧
      ∀ a, storeByte t c.span g.core a =
        if off ≤ a ∧ a < off + c.z then rdByte s (f.phys + (a - off)) else storeByte s c.span g.core a := by
  intro t
  let u := readTransfer g c l s
  have hu : withUpkeepOf s u = s := withUpkeepOf_readTransfer g c l s
  have hspans : u.spans = s.spans := (congrArg State.spans hu :)
  have hmove : t = storeWrite c.span g.core off (rdBytes s f.phys c.z) false u := by
    have hwrites : c.op.writesMemory l.dst = false := by rw [hop]; rfl
    change moveLane g c l s = _
    rw [moveLane, hwrites, laneSource_memory hop hf, hpoison]
    exact writeLane_store hop hl hdst hoff g _ _ _
  have hcore' : (spanCoreOf? u c.span g.core).isSome := by
    unfold spanCoreOf? at hcore ⊢
    rwa [spanOf?_congr hspans]
  have hbars : (spanOf? (storeWrite c.span g.core off (rdBytes s f.phys c.z) false u) c.span).map Span.bars =
      (spanOf? s c.span).map Span.bars := (bars_modSpanCore _ _ _ u _).trans (by rw [spanOf?_congr hspans])
  have hug : u.g = s.g := (congrArg State.g hu :)
  have hugs : u.groups = s.groups := (congrArg State.groups hu :)
  have hueng : u.eng = s.eng := (congrArg State.eng hu :)
  rw [hmove]
  refine ⟨finishLanes_ended ((congrArg Group.gid hug).trans hs) h0 ((groupOf?_congr (by exact hug) hugs _).trans hg)
    (hueng ▸ hc) hl fun b hb => ?_, hueng, (congrArg State.mem hu :), (congrArg State.wq hu :), hbars, fun a => ?_⟩
  · obtain ⟨x, hx, hlt, hclosed⟩ := hopen b hb
    rw [hx, Option.map_some, Option.map_eq_some_iff] at hbars
    obtain ⟨y, hy, hyb⟩ := hbars
    exact ⟨y, hy, hyb ▸ hlt, hyb ▸ hclosed⟩
  · have hold : storeByte u c.span g.core a = storeByte s c.span g.core a := by
      unfold storeByte spanCoreOf?
      rw [spanOf?_congr hspans]
    rw [storeByte_storeWrite hcore', hold, rdBytes, List.length_map, List.length_range]
    split
    next hin => exact nthD_range_map 0 _ (by omega)
    next => rfl

/-- A pair whose key no listed key exceeds goes to the end of a list. -/
theorem mapInsert_last {α : Type} {k : Nat} (v : α) {m : SMap α} (h : ∀ p ∈ m, p.1 ≤ k) : mapInsert k v m = m ++ [(k, v)] := by
  induction m with
  | nil => rfl
  | cons p m ih =>
    obtain ⟨hp, hm⟩ := List.forall_mem_cons.mp h
    rw [mapInsert, if_neg (by omega), ih hm]
    rfl

/-- R303: bytes of a line merged into none are those bytes. -/
theorem mergeBytes_lineBytes (va : Nat) (bs : List Byte) : mergeBytes [] (lineBytes va bs) = lineBytes va bs := by
  induction bs using List.reverseRecOn with
  | nil => rfl
  | append_singleton bs b ih =>
    have hstep : lineBytes va (bs ++ [b]) = lineBytes va bs ++ [(va % 128 + bs.length, b)] := by
      simp [lineBytes, List.zipIdx_append]
    have hlow : ∀ p ∈ lineBytes va bs, p.1 < va % 128 + bs.length := by
      intro p hp
      obtain ⟨q, hq, rfl⟩ := List.mem_map.mp hp
      have := List.snd_lt_of_mem_zipIdx hq
      dsimp only
      omega
    have hfilter : (lineBytes va bs).filter (fun x => x.1 != va % 128 + bs.length) = lineBytes va bs :=
      List.filter_eq_self.mpr fun p hp => by simpa using (hlow p hp).ne
    unfold mergeBytes at ih ⊢
    rw [hstep, List.foldl_append, ih, List.foldl_cons, List.foldl_nil, hfilter, mapInsert_last b fun p hp => (hlow p hp).le]

/-- R427, R435: a request changes no line's coherence bits. -/
theorem side_requestCount (agent ctx va : Nat) (l : Leaf) (s : State) : (requestCount agent ctx va l s).side = s.side := by
  have hfill : (htbFill ctx va l s).side = s.side := by
    unfold htbFill
    dsimp only
    split <;> rfl
  unfold requestCount
  dsimp only
  split
  · exact hfill
  · split
    · split <;> exact hfill
    · exact hfill

/-- R423: what the lookaside holds does not change where an address goes. -/
theorem accessIn_attrFill (die core va : Nat) (l : Leaf) (s : State) (k : Nat) (n : Need) (a : Nat) :
    accessIn (attrFill die core va l s) k n a = accessIn s k n a := rfl

/-- R423: nor does a use of the lookaside, which changes no line's coherence bits. -/
theorem attrUse_keeps (die core ctx va : Nat) (s : State) :
    (attrUse die core ctx va s).side = s.side ∧ ∀ k n a, accessIn (attrUse die core ctx va s) k n a = accessIn s k n a := by
  unfold attrUse
  split
  · exact ⟨rfl, accessIn_attrFill _ _ _ _ s⟩
  · exact ⟨rfl, fun _ _ _ => rfl⟩

/-- R333, R434: bytes of one line written at the home of the line. -/
theorem withUpkeepOf_writeHomeLine (s : State) {u : State} {g : Group} {va : Nat} {f : Leaf} (hf : accessIn u g.ctx needW va = .ok f)
    (hpoison : isPoisoned u f.phys = false) (hhome : actingHome u f = none) (hplace : f.phys % 128 = va % 128) (w : Writer)
    (bs : List Byte) :
    withUpkeepOf s (writeHomeLine g w va (lineBytes va bs) false u) = withUpkeepOf s (wrBytes f.phys bs u) := by
  let v := requestCount (agentOf u g.die) g.ctx va f u
  have hside : v.side = u.side := side_requestCount _ _ _ _ _
  have hhome' : actingHome v f = none := by
    unfold actingHome sideBits at hhome ⊢
    rwa [hside]
  have hpoison' : isPoisoned v (lineOf f.phys) = false := by
    rw [isPoisoned_lineOf]
    unfold isPoisoned sideState at hpoison ⊢
    rwa [hside]
  have hphys : writeLineBytes (lineOf f.phys) (lineBytes va bs) v = wrBytes f.phys bs v := by
    rw [← writeLineBytes_lineBytes hplace, writeLineBytes, writeLineBytes, lineOf_lineOf]
  have hreq : withUpkeepOf s (wrBytes f.phys bs v) = withUpkeepOf s (wrBytes f.phys bs u) := by
    rw [wrBytes_eq, wrBytes_eq]
    have hv := withUpkeepOf_requestCount s (agentOf u g.die) g.ctx va f u
    exact (congrArg (fun x : State => { x with wq := (bs.zipIdx.map (fun p : Byte × Nat => (f.phys + p.2, p.1))).reverse ++ x.wq }) hv :)
  have hwrite := withUpkeepOf_homeWrite s (u := v) (l := { f with phys := lineOf f.phys }) hpoison' g.ctx (lineOf va) g.die w (lineBytes va bs)
  unfold writeHomeLine
  rw [hf]
  dsimp only
  rw [recallHome_of_home hhome']
  exact hwrite.trans ((congrArg (withUpkeepOf s) hphys).trans hreq)

/-- R159, R333: a lone lane's bytes, as the bytes of its line. -/
theorem lineBytes_standing {c : Copy} {l : CopyLane} (hl : c.lanes = [l]) {bs : List Byte} (hfit : l.dst % 128 + bs.length ≤ 128) :
    (standing c anyLane l bs).map (fun b => (b.1 % 128, b.2)) = lineBytes l.dst bs := by
  rw [standing_single hl, lineBytes, List.map_map]
  refine List.map_congr_left fun p hp => ?_
  have := List.snd_lt_of_mem_zipIdx hp
  simp only [Function.comp_apply, Prod.mk.injEq, and_true]
  omega

/-- R159, R333: a copy of one lane from core store to memory writes its bytes at the home of their line. -/
theorem moveLane_s2g {s : State} {g : Group} {c : Copy} {l : CopyLane} {f : Leaf} {off : Nat} (hop : c.op = .s2g)
    (hl : c.lanes = [l]) (hsrc : l.src = 0xFF01 * 2 ^ 48 + off) (hoff : off < 2 ^ 48) (hf : accessIn s g.ctx needW l.dst = .ok f)
    (hpoison : isPoisoned s f.phys = false) (hclean : storePoisoned s c.span g.core off c.z = false) (hhome : actingHome s f = none)
    (hfit : l.dst % 128 + c.z ≤ 128) (hplace : f.phys % 128 = l.dst % 128) :
    withUpkeepOf s (moveLane g c l s) =
      withUpkeepOf s (wrBytes f.phys ((List.range c.z).map (fun i => storeByte s c.span g.core (off + i))) s) := by
  let bs := (List.range c.z).map (fun i => storeByte s c.span g.core (off + i))
  let u := attrUse g.die g.core g.ctx l.dst s
  have hu : withUpkeepOf s u = s := withUpkeepOf_attrUse s _ _ _ _ _
  have hspans : u.spans = s.spans := (congrArg State.spans hu :)
  obtain ⟨hside, haccess⟩ := attrUse_keeps g.die g.core g.ctx l.dst s
  have hread : readTransfer g c l s = u := by simp [readTransfer, hop, CopyOp.readsMemory, CopyOp.writesMemory, u]
  have hsource : laneSource u g c l = (bs, false) := by
    have hpart : spanCoreOf? u c.span g.core = spanCoreOf? s c.span g.core := by
      unfold spanCoreOf?
      rw [spanOf?_congr hspans]
    have hclean' : storePoisoned u c.span g.core off c.z = false := by
      unfold storePoisoned at hclean ⊢
      rwa [hpart]
    rw [laneSource_store hop hsrc hoff, hclean']
    simp only [storeByte, hpart, bs]
  have hbytes : mergeBytes [] ((standing c anyLane l bs).map (fun b => (b.1 % 128, b.2))) = lineBytes l.dst bs := by
    rw [lineBytes_standing hl (by simpa [bs] using hfit), mergeBytes_lineBytes]
  have hmove : moveLane g c l s = writeHomeLine g ⟨.copy, c.gid, c.split⟩ l.dst (lineBytes l.dst bs) false u := by
    have hwrites : c.op.writesMemory l.dst = true := by rw [hop]; rfl
    rw [moveLane, hwrites, if_pos rfl, hread, ← hbytes]
    simp [writeTransfer, hop, hsource]
  have hpoison' : isPoisoned u f.phys = false := by
    unfold isPoisoned sideState at hpoison ⊢
    rwa [hside]
  have hhome' : actingHome u f = none := by
    unfold actingHome sideBits at hhome ⊢
    rwa [hside]
  rw [hmove, withUpkeepOf_writeHomeLine s ((haccess _ _ _).trans hf) hpoison' hhome' hplace, wrBytes_eq, wrBytes_eq]
  exact (congrArg (fun x : State => { x with wq := (bs.zipIdx.map (fun p : Byte × Nat => (f.phys + p.2, p.1))).reverse ++ x.wq }) hu :)

/-- Settles O21: the lane's bytes move, and the lane ends the copy. -/
theorem copiesTransfer : Obligations.CopiesTransfer := by
  intro s g c l f off hs h0 hc hg hsusp hl hdone hskip hstart hready hcore hoff hopen
  have hexec := exec_transfers hc hg hsusp hl hdone hskip hstart
  have hgid : g.gid = c.gid := by
    have hlist := groupOf?_unfocused hs c.gid ▸ hg
    simpa using List.find?_some hlist
  refine ⟨fun hop hdst hf hpoison => ?toStore, fun hop hsrc hf hpoison hclean hhome hfit hplace _ => ?toMemory⟩
  case toStore =>
    have hfaults : laneFaults s g.ctx c.op l = [] := by simp [laneFaults, hop, CopyOp.readsMemory, CopyOp.writesMemory, hf]
    obtain ⟨hend, heng, hmem, hwq, hbars, hbytes⟩ := transfer_g2s hs h0 hc hg hl hcore hoff hopen hop hdst hf hpoison
    rw [hexec, runTransfer_single hl hdone hskip hfaults hready (by simp [hop]), hgid]
    refine ⟨_, _, rfl, hend.group, rfl, fun a => ?_, hend.copies.trans (by rw [heng]), hend.mem.trans hmem, hend.wq.trans hwq, rfl,
      fun b x hb hx y hy => ?_⟩
    · rw [← hbytes, storeByte, hend.parts, ← storeByte]
    · rw [hy, Option.map_some, Option.map_eq_some_iff] at hbars
      obtain ⟨z, hz, hzb⟩ := hbars
      rw [hend.pending b x hb hx z hz, hzb, laneBytes, if_neg (by simp [hop])]
  case toMemory =>
    have hfaults : laneFaults s g.ctx c.op l = [] := by simp [laneFaults, hop, CopyOp.readsMemory, CopyOp.writesMemory, hf]
    let t := moveLane g c l s
    let bs := (List.range c.z).map (fun i => storeByte s c.span g.core (off + i))
    have hmove : withUpkeepOf s t = withUpkeepOf s (wrBytes f.phys bs s) :=
      moveLane_s2g hop hl hsrc hoff hf hpoison hclean hhome hfit hplace
    rw [wrBytes_eq] at hmove
    have hview : (t.g, t.groups, t.spans, t.eng, t.mem) = (s.g, s.groups, s.spans, s.eng, s.mem) :=
      (congrArg (fun u : State => (u.g, u.groups, u.spans, u.eng, u.mem)) hmove :)
    have hwq : t.wq = (wrBytes f.phys bs s).wq := ((congrArg State.wq hmove :)).trans (by rw [wrBytes_eq]; rfl)
    simp only [Prod.mk.injEq] at hview
    obtain ⟨htg, htgs, htspans, hteng, htmem⟩ := hview
    have hend : CopyEnded t (finishLanes c.gid c.uid [l] [l] t) g c l :=
      finishLanes_ended (htg ▸ hs) h0 ((groupOf?_congr htg htgs _).trans hg) (hteng ▸ hc) hl fun b hb => by
        rw [spanOf?_congr htspans]
        exact hopen b hb
    rw [hexec, runTransfer_single hl hdone hskip hfaults hready (by simp [hop]), hgid]
    refine ⟨_, _, rfl, hend.group, rfl, fun a => ?_, hend.copies.trans (by rw [hteng]), rfl⟩
    have hwmem : (wrBytes f.phys bs s).mem = s.mem := by rw [wrBytes_eq]
    rw [rdByte_congr (hend.mem.trans (htmem.trans hwmem.symm)) (hend.wq.trans hwq), rdByte_wrBytes, List.length_map, List.length_range]
    split
    next hin => exact nthD_range_map 0 _ (by omega)
    next => rfl

end Sys2Proof.Machine
end

section
/-! The bytes of store-buffer entries (R145, R303). -/

namespace Sys2Proof.Machine

open Sys2Proof Sys2Proof.Claims

/-- The byte that a list of bytes by offset holds for an offset. -/
def byteAt (m : List (Nat × Byte)) (k : Nat) : Option Byte := (m.find? (fun b => b.1 == k)).map (fun b => b.2)

/-- The byte of a run from an address on, if the address given lies in it. -/
def runByte (va : Nat) (bs : List Byte) (a : Nat) : Option Byte := if va ≤ a ∧ a < va + bs.length then bs[a - va]? else none

/-- A byte put into a list in place of the one of its offset. -/
theorem byteAt_insert (m : List (Nat × Byte)) (k : Nat) (b : Byte) (j : Nat) :
    byteAt (mapInsert k b (m.filter (fun x => x.1 != k))) j = if j = k then some b else byteAt m j := by
  have hins (l : List (Nat × Byte)) (hl : ∀ p ∈ l, p.1 ≠ k) : byteAt (mapInsert k b l) j = if j = k then some b else byteAt l j := by
    induction l with
    | nil =>
      by_cases hj : j = k
      · simp [byteAt, mapInsert, hj]
      · simp [byteAt, mapInsert, hj, Ne.symm hj]
    | cons p l ih =>
      obtain ⟨hp, hrest⟩ := List.forall_mem_cons.mp hl
      have hcons (q : Nat × Byte) (l : List (Nat × Byte)) : byteAt (q :: l) j = if q.1 = j then some q.2 else byteAt l j := by
        by_cases hq : q.1 = j <;> simp [byteAt, hq]
      unfold mapInsert
      split
      · simp only [hcons, eq_comm (a := k)]
      · simp only [hcons, ih hrest]
        by_cases hj : j = k
        · simp [hj, hp]
        · simp [hj]
  rw [hins _ fun p hp => by simpa using (List.mem_filter.mp hp).2]
  by_cases hj : j = k
  · simp [hj]
  · rw [if_neg hj, if_neg hj, byteAt, byteAt, List.find?_filter]
    congr 2
    funext x
    by_cases hx : x.1 = j <;> simp [hx, hj]

/-- R303: the bytes of an entry after bytes of its line were merged into them. -/
theorem byteAt_mergeBytes (m : List (Nat × Byte)) (va : Nat) (bs : List Byte) (k : Nat) :
    byteAt (mergeBytes m (lineBytes va bs)) k = (runByte (va % 128) bs k).or (byteAt m k) := by
  induction bs using List.reverseRecOn with
  | nil => simp [lineBytes, mergeBytes, runByte]
  | append_singleton bs b ih =>
    have hstep : mergeBytes m (lineBytes va (bs ++ [b])) = mapInsert (va % 128 + bs.length) b
        ((mergeBytes m (lineBytes va bs)).filter (fun x => x.1 != va % 128 + bs.length)) := by
      simp [lineBytes, mergeBytes, List.zipIdx_append]
    rw [hstep, byteAt_insert, ih, runByte, runByte, List.length_append, List.length_singleton]
    by_cases hlast : k = va % 128 + bs.length
    · rw [if_pos hlast, if_pos (by omega)]
      simp [show k - va % 128 = bs.length by omega]
    · rw [if_neg hlast]
      by_cases hin : va % 128 ≤ k ∧ k < va % 128 + bs.length
      · rw [if_pos hin, if_pos (by omega), List.getElem?_append_left (by omega)]
      · rw [if_neg hin, if_neg (by omega)]

/-- R303: the bytes of a new entry. -/
theorem byteAt_lineBytes (va : Nat) (bs : List Byte) (k : Nat) : byteAt (lineBytes va bs) k = runByte (va % 128) bs k := by
  rw [← mergeBytes_lineBytes, byteAt_mergeBytes]
  exact Option.or_none

/-- R303: bytes that lie in one line are found in that line. -/
theorem runByte_line {va : Nat} {bs : List Byte} (h : va % 128 + bs.length ≤ 128) (a : Nat) :
    runByte va bs a = if lineOf va = lineOf a then runByte (va % 128) bs (a % 128) else none := by
  unfold runByte lineOf
  by_cases hl : va / 128 * 128 = a / 128 * 128
  · rw [if_pos hl]
    by_cases hin : va ≤ a ∧ a < va + bs.length
    · rw [if_pos hin, if_pos (by omega), show a % 128 - va % 128 = a - va by omega]
    · rw [if_neg hin, if_neg (by omega)]
  · rw [if_neg hl, if_neg (by omega)]

/-- R145: what an entry holds for an address of a domain. -/
def entryByte (dom a : Nat) (e : SbEntry) : Option Byte := if e.dom = dom ∧ e.line = lineOf a then byteAt e.bytes (a % 128) else none

theorem youngest_eq (es : List SbEntry) (dom a : Nat) : youngest es dom a = (es.filterMap (entryByte dom a)).getLast? := rfl

/-- R145: a later entry goes before an earlier one. -/
theorem youngest_append (es fs : List SbEntry) (dom a : Nat) : youngest (es ++ fs) dom a = (youngest fs dom a).or (youngest es dom a) := by
  rw [youngest_eq, youngest_eq, youngest_eq, List.filterMap_append, List.getLast?_append]

theorem youngest_singleton (e : SbEntry) (dom a : Nat) : youngest [e] dom a = entryByte dom a e := by
  rw [youngest_eq, List.filterMap_cons, List.filterMap_nil]
  cases entryByte dom a e <;> rfl

/-- R145: entries of other lines hold nothing of a line. -/
theorem youngest_none {es : List SbEntry} {dom a : Nat} (h : ∀ e ∈ es, ¬(e.dom = dom ∧ e.line = lineOf a)) : youngest es dom a = none := by
  have hnil : es.filterMap (entryByte dom a) = [] := List.filterMap_eq_nil_iff.mpr fun e he => if_neg (h e he)
  rw [youngest_eq, hnil]
  rfl

/-- A change of the first element that a test picks, in place. -/
theorem exists_updateFirst_eq {α : Type} {p : α → Bool} {xs : List α} (f : α → α) (h : xs.any p = true) :
    ∃ as x bs, xs = as ++ x :: bs ∧ p x = true ∧ updateFirst p f xs = as ++ f x :: bs := by
  induction xs with
  | nil => cases h
  | cons y ys ih =>
    unfold updateFirst
    split
    next hy => exact ⟨[], y, ys, rfl, hy, rfl⟩
    next hy =>
      obtain ⟨as, x, bs, rfl, hx, hupd⟩ := ih (by simpa [hy] using h)
      exact ⟨y :: as, x, bs, rfl, hx, congrArg (y :: ·) hupd⟩

end Sys2Proof.Machine
end

section
/-! The lines that a region has entries for, and the room for more (R303, R304). -/

namespace Sys2Proof.Machine

open Sys2Proof Sys2Proof.Claims

/-- A state with other store-buffer entries. -/
def withEntries (es : List SbEntry) (s : State) : State := { s with ms := { s.ms with entries := es } }

/-- What the count of entries and the search for a line see of an entry. -/
def bareEntry (e : SbEntry) : SbEntry := { e with bytes := [], lanes := 0, lowVa := 0 }

/-- Entries that a view does not tell apart are counted alike. -/
theorem length_filter_of_map {α γ : Type} {r : α → γ} {q : γ → Bool} {p : α → Bool} (hp : ∀ x, p x = q (r x)) {xs ys : List α}
    (h : xs.map r = ys.map r) : (xs.filter p).length = (ys.filter p).length := by
  have hlen (l : List α) : (l.filter p).length = ((l.map r).filter q).length := by
    rw [List.filter_map, List.length_map]
    exact congrArg (fun f => (l.filter f).length) (funext hp)
  rw [hlen, hlen, h]

/-- R303: whether the region of the split in focus has an open entry for a line. -/
def hasLine (s : State) (k : Nat × Nat) : Bool := s.ms.entries.any (fun e => ofRegion s e && e.dom == k.1 && e.line == k.2 && !e.tx)

section
variable {s : State} {es : List SbEntry} (h : es.map bareEntry = s.ms.entries.map bareEntry)
include h

theorem openCount_bare (n : Nat) : openCount (withEntries es s) n = openCount s n :=
  length_filter_of_map (r := bareEntry) (q := fun e : SbEntry => e.gid == n && e.st == EntrySt.opened)
    (p := fun e : SbEntry => e.gid == n && e.st == EntrySt.opened) (fun _ => rfl) h

theorem sramUsed_bare (die core : Nat) : sramUsed (withEntries es s) die core = sramUsed s die core :=
  length_filter_of_map (r := bareEntry) (q := fun e : SbEntry => e.die == die && e.core == core && !e.spilled)
    (p := fun e : SbEntry => e.die == die && e.core == core && !e.spilled) (fun _ => rfl) h

theorem hasLine_bare (k : Nat × Nat) : hasLine (withEntries es s) k = hasLine s k := by
  let q (e : SbEntry) : Bool := ofRegion s e && e.dom == k.1 && e.line == k.2 && !e.tx
  have hany (l : List SbEntry) : l.any q = (l.map bareEntry).any q := by
    rw [List.any_map]
    rfl
  exact (hany es).trans (h ▸ (hany s.ms.entries).symm)

/-- R304: room is what it was where no entry was made. -/
theorem roomFor_bare (n : Nat) : RoomFor (withEntries es s) n ↔ RoomFor s n := by
  have hguarantees : unusedGuarantees (withEntries es s) = unusedGuarantees s := by
    unfold unusedGuarantees
    simp only [openCount_bare h]
    rfl
  unfold RoomFor
  rw [hguarantees, openCount_bare h, sramUsed_bare h]
  exact Iff.rfl

theorem regionLines_bare : RegionLines (withEntries es s) ↔ RegionLines s := by
  let key (e : SbEntry) : Nat × Nat × Bool := (e.dom, e.line, e.tx)
  have hnodup (u : State) : RegionLines u ↔ (((u.ms.entries.map bareEntry).filter (ofRegion u)).map key).Nodup := by
    rw [List.filter_map, List.map_map]
    unfold RegionLines List.Nodup
    rw [List.pairwise_map]
    refine List.Pairwise.iff fun e f => ?_
    simp [key, bareEntry]
  rw [hnodup, hnodup]
  change (((es.map bareEntry).filter (ofRegion s)).map key).Nodup ↔ _
  rw [h]

end

/-- A list without its repetitions has none. -/
theorem nodup_eraseDups {α : Type} [BEq α] [LawfulBEq α] : ∀ xs : List α, xs.eraseDups.Nodup
  | [] => List.nodup_nil
  | x :: xs => by
    rw [List.eraseDups_cons, List.nodup_cons]
    exact ⟨by simp, nodup_eraseDups _⟩
termination_by xs => xs.length
decreasing_by exact Nat.lt_succ_of_le (List.length_filter_le _ _)

/-- R303: the lines that a list of lines adds to a region. -/
def linesToOpen (s : State) (ks : List (Nat × Nat)) : List (Nat × Nat) := ks.eraseDups.filter (fun k => !hasLine s k)

theorem mem_linesToOpen {s : State} {ks : List (Nat × Nat)} {k : Nat × Nat} : k ∈ linesToOpen s ks ↔ k ∈ ks ∧ hasLine s k = false := by
  simp [linesToOpen]

theorem nodup_linesToOpen (s : State) (ks : List (Nat × Nat)) : (linesToOpen s ks).Nodup := 
  (nodup_eraseDups ks).filter (fun k => !hasLine s k)

/-- R303: a line less to store adds no more lines. -/
theorem length_linesToOpen_tail (s : State) (k : Nat × Nat) (ks : List (Nat × Nat)) :
    (linesToOpen s ks).length ≤ (linesToOpen s (k :: ks)).length :=
  ((nodup_linesToOpen s ks).subperm fun x hx => by
    rw [mem_linesToOpen] at hx ⊢
    exact ⟨List.mem_cons_of_mem _ hx.1, hx.2⟩).length_le

/-- R304: fewer lines need no more room. -/
theorem roomFor_mono {s : State} {m n : Nat} (hmn : m ≤ n) (h : RoomFor s n) : RoomFor s m := by
  unfold RoomFor at h ⊢
  omega

/-- R304: there is room for a new entry. -/
theorem entryRoom_ok {s : State} {n : Nat} (h : RoomFor s (n + 1)) : ∃ room, entryRoom s = .ok room := by
  have hguarantees : ((s.groups.filter (fun g => g.die == s.g.die && g.core == s.g.core && g.gid != s.g.gid && g.residence == .resident &&
      !g.released)).foldl (fun n g => n + (32 - openCount s g.gid)) 0) = unusedGuarantees s := by
    rw [unusedGuarantees, List.sum_eq_foldl_nat, List.foldl_map]
  unfold RoomFor at h
  unfold entryRoom
  dsimp only
  rw [hguarantees, if_neg (by omega)]
  split
  · exact ⟨_, rfl⟩
  · rw [if_pos (by omega)]
    exact ⟨_, rfl⟩

/-- R304: after an entry is made for the group in focus there is room for one less. -/
theorem roomFor_append {s : State} {e : SbEntry} {n : Nat} (hgid : e.gid = s.g.gid) (hst : e.st = .opened) (h : RoomFor s (n + 1)) :
    RoomFor (withEntries (s.ms.entries ++ [e]) s) n := by
  have hcount (m : Nat) : openCount (withEntries (s.ms.entries ++ [e]) s) m = openCount s m + if m = s.g.gid then 1 else 0 := by
    by_cases hm : m = s.g.gid
    · simp [openCount, withEntries, List.filter_append, hgid, hst, hm]
    · simp [openCount, withEntries, List.filter_append, hgid, hm, Ne.symm hm]
  have hsram : sramUsed (withEntries (s.ms.entries ++ [e]) s) s.g.die s.g.core ≤ sramUsed s s.g.die s.g.core + 1 := by
    simp only [sramUsed, withEntries, List.filter_append, List.length_append]
    exact Nat.add_le_add_left (List.length_filter_le _ [e]) _
  have hguarantees : unusedGuarantees (withEntries (s.ms.entries ++ [e]) s) = unusedGuarantees s := by
    unfold unusedGuarantees
    refine congrArg List.sum (List.map_congr_left fun g hg => ?_)
    have hne : g.gid ≠ s.g.gid := by
      have := (List.mem_filter.mp hg).2
      simp only [Bool.and_eq_true, bne_iff_ne, ne_eq] at this
      tauto
    rw [hcount, if_neg hne]
    rfl
  unfold RoomFor at h ⊢
  rw [hguarantees]
  change openCount _ s.g.gid + n ≤ 32 ∨ openCount _ s.g.gid + n ≤ 128 ∧ unusedGuarantees s + n + sramUsed _ s.g.die s.g.core ≤ 512
  rw [hcount, if_pos rfl]
  omega

end Sys2Proof.Machine
end

section
/-! Bytes of one lane enter the store buffer (R145, R303, R304). -/

namespace Sys2Proof.Machine

open Sys2Proof Sys2Proof.Claims

/-- R145: the byte that the region of the split in focus has for an address. -/
def regionByte (s : State) (es : List SbEntry) (dom a : Nat) : Option Byte := youngest (es.filter (fun e => ofRegion s e && !e.tx)) dom a

/-- R145: the byte that the committed and draining entries of the group in focus have for an address. -/
def committedByte (s : State) (es : List SbEntry) (dom a : Nat) : Option Byte :=
  youngest (es.filter (fun e => e.gid == s.g.gid && e.st != EntrySt.opened)) dom a

theorem forwardByte_withEntries (s : State) (es : List SbEntry) (dom a : Nat) :
    forwardByte (withEntries es s) dom a = (regionByte s es dom a).or (committedByte s es dom a) := rfl

/-- R145: the byte of a run of bytes of a domain, if the address given is in it. -/
def domainRun (s : State) (va : Nat) (bs : List Byte) (dom a : Nat) : Option Byte :=
  if domainOf s s.g.ctx va = dom then runByte va bs a else none

/-- R303: a new open entry of the region of the split in focus, for bytes of one lane. -/
def newEntry (s : State) (room : Bool × Bool) (lane va : Nat) (bs : List Byte) : SbEntry :=
  { uid := s.uid, gid := s.g.gid, split := s.sp.num, ctx := s.g.ctx, die := s.g.die, core := s.g.core, dom := domainOf s s.g.ctx va,
    line := lineOf va, bytes := lineBytes va bs, lanes := laneBit lane, lowVa := va, firstSeq := s.uid, st := .opened,
    claim := .waiting, shared := room.2, spilled := room.1, tx := false, poison := false }

/-- R303: whether an entry is the open one of the region for a line, outside a transaction. -/
def ofLine (s : State) (va : Nat) (e : SbEntry) : Bool :=
  ofRegion s e && e.dom == domainOf s s.g.ctx va && e.line == lineOf va && e.tx == false

/-- R303: an entry of the line is one of the region, outside a transaction, of that domain and line. -/
theorem ofLine_iff {s : State} {va : Nat} {e : SbEntry} :
    ofLine s va e = true ↔ ofRegion s e = true ∧ e.dom = domainOf s s.g.ctx va ∧ e.line = lineOf va ∧ e.tx = false := by
  simp [ofLine, and_assoc]

/-- R303: a region has a line where it has an open entry of it. -/
theorem hasLine_eq_any (s : State) (va : Nat) : hasLine s (domainOf s s.g.ctx va, lineOf va) = s.ms.entries.any (ofLine s va) := by
  unfold hasLine ofLine
  refine congrArg (List.any s.ms.entries) (funext fun e => ?_)
  cases e.tx <;> rfl

/-- R303: an open entry of the region is none of the group's committed ones. -/
theorem not_committed {s : State} {e : SbEntry} (h : ofRegion s e = true) : (e.gid == s.g.gid && e.st != EntrySt.opened) = false := by
  simp only [ofRegion, Bool.and_eq_true, beq_iff_eq] at h
  obtain ⟨-, hst⟩ := h
  simp [hst]

/-- R145, R303: what an entry holds after bytes of its line were merged into it. -/
theorem entryByte_merge {s : State} {va : Nat} {e : SbEntry} {bs : List Byte} (he : ofLine s va e = true)
    (hfit : va % 128 + bs.length ≤ 128) (lane dom a : Nat) :
    entryByte dom a (e.merge lane va bs) = (domainRun s va bs dom a).or (entryByte dom a e) := by
  obtain ⟨-, hdom, hline, -⟩ := ofLine_iff.mp he
  have hdom' : (e.merge lane va bs).dom = domainOf s s.g.ctx va := hdom
  have hline' : (e.merge lane va bs).line = lineOf va := hline
  have hbytes : byteAt (e.merge lane va bs).bytes (a % 128) = (runByte (va % 128) bs (a % 128)).or (byteAt e.bytes (a % 128)) :=
    byteAt_mergeBytes _ _ _ _
  unfold entryByte domainRun
  rw [runByte_line hfit, hdom', hline', hbytes, hdom, hline]
  by_cases hd : domainOf s s.g.ctx va = dom <;> by_cases hl : lineOf va = lineOf a <;> simp [hd, hl]

/-- R145, R303: bytes merged into the region's entry of their line are what the region has there. -/
theorem regionByte_merge {s : State} {va : Nat} {bs : List Byte} (hregion : RegionLines s) (h : s.ms.entries.any (ofLine s va) = true)
    (hfit : va % 128 + bs.length ≤ 128) (lane dom a : Nat) :
    regionByte s (updateFirst (ofLine s va) (SbEntry.merge lane va bs) s.ms.entries) dom a =
      (domainRun s va bs dom a).or (regionByte s s.ms.entries dom a) := by
  obtain ⟨as, x, zs, hes, hx, hupd⟩ := exists_updateFirst_eq (SbEntry.merge lane va bs) h
  obtain ⟨hxr, hxdom, hxline, hxtx⟩ := ofLine_iff.mp hx
  let q (e : SbEntry) : Bool := ofRegion s e && !e.tx
  have hqx : q x = true := by simp [q, hxr, hxtx]
  have hqm : q (x.merge lane va bs) = true := hqx
  have hothers : ∀ e ∈ as.filter q ++ zs.filter q, ¬(e.dom = x.dom ∧ e.line = x.line) := by
    unfold RegionLines at hregion
    rw [hes, List.filter_append, List.filter_cons_of_pos hxr, List.pairwise_append, List.pairwise_cons] at hregion
    obtain ⟨-, ⟨hafter, -⟩, hbefore⟩ := hregion
    intro e he
    obtain he | he := List.mem_append.mp he
    · obtain ⟨hmem, hq⟩ := List.mem_filter.mp he
      obtain ⟨hr, htx⟩ : ofRegion s e = true ∧ e.tx = false := by simpa [q] using hq
      exact fun hsame => hbefore e (List.mem_filter.mpr ⟨hmem, hr⟩) x (List.mem_cons_self ..) ⟨hsame.1, hsame.2, htx.trans hxtx.symm⟩
    · obtain ⟨hmem, hq⟩ := List.mem_filter.mp he
      obtain ⟨hr, htx⟩ : ofRegion s e = true ∧ e.tx = false := by simpa [q] using hq
      exact fun hsame => hafter e (List.mem_filter.mpr ⟨hmem, hr⟩) ⟨hsame.1.symm, hsame.2.symm, hxtx.trans htx.symm⟩
  have hsplit (y : SbEntry) (hy : q y = true) : youngest ((as ++ y :: zs).filter q) dom a =
      ((youngest (zs.filter q) dom a).or (entryByte dom a y)).or (youngest (as.filter q) dom a) := by
    rw [List.filter_append, List.filter_cons_of_pos hy, ← List.singleton_append, youngest_append, youngest_append, youngest_singleton]
  have hmerged := entryByte_merge hx hfit lane dom a
  unfold regionByte
  rw [hupd, hes]
  refine (hsplit _ hqm).trans (Eq.trans ?_ (congrArg _ (hsplit x hqx).symm))
  rw [hmerged]
  by_cases hsame : x.dom = dom ∧ x.line = lineOf a
  · obtain ⟨rfl, hline⟩ := hsame
    rw [youngest_none fun e he => hline ▸ hothers e (List.mem_append_right _ he)]
    simp [Option.or_assoc]
  · have hrun : domainRun s va bs dom a = none := by
      unfold domainRun
      rw [runByte_line hfit, ← hxdom, ← hxline]
      split
      next hd => exact if_neg fun hl => hsame ⟨hd, hl⟩
      next => rfl
    simp [hrun]

/-- R145: nothing committed changes where bytes are merged into an open entry. -/
theorem committedByte_merge {s : State} {va : Nat} {bs : List Byte} (h : s.ms.entries.any (ofLine s va) = true) (lane dom a : Nat) :
    committedByte s (updateFirst (ofLine s va) (SbEntry.merge lane va bs) s.ms.entries) dom a = committedByte s s.ms.entries dom a := by
  obtain ⟨as, x, zs, hes, hx, hupd⟩ := exists_updateFirst_eq (SbEntry.merge lane va bs) h
  have hxr := (ofLine_iff.mp hx).1
  have hmr : ofRegion s (x.merge lane va bs) = true := hxr
  unfold committedByte
  rw [hupd, hes, List.filter_append, List.filter_append, List.filter_cons_of_neg (by simp [not_committed hmr]),
    List.filter_cons_of_neg (by simp [not_committed hxr])]

/-- R303: a new entry is one of the line. -/
theorem ofLine_newEntry (s : State) (room : Bool × Bool) (lane va : Nat) (bs : List Byte) : ofLine s va (newEntry s room lane va bs) = true := by
  simp [ofLine, ofRegion, newEntry]

/-- R145, R303: the bytes of a new entry are what the region has there. -/
theorem forwardByte_newEntry {s : State} {va : Nat} {bs : List Byte} (hfit : va % 128 + bs.length ≤ 128) (room : Bool × Bool)
    (lane dom a : Nat) :
    forwardByte (withEntries (s.ms.entries ++ [newEntry s room lane va bs]) s) dom a =
      (domainRun s va bs dom a).or (forwardByte s dom a) := by
  let e := newEntry s room lane va bs
  obtain ⟨hr, -, -, htx⟩ := ofLine_iff.mp (ofLine_newEntry s room lane va bs)
  have hregion : regionByte s (s.ms.entries ++ [e]) dom a = (entryByte dom a e).or (regionByte s s.ms.entries dom a) := by
    rw [regionByte, List.filter_append, List.filter_cons_of_pos (p := fun e => ofRegion s e && !e.tx) (by simp [e, hr, htx]),
      List.filter_nil, youngest_append, youngest_singleton]
    rfl
  have hcommitted : committedByte s (s.ms.entries ++ [e]) dom a = committedByte s s.ms.entries dom a := by
    rw [committedByte, List.filter_append, List.filter_cons_of_neg (by simp [e, not_committed hr]), List.filter_nil, List.append_nil]
    rfl
  have hbyte : entryByte dom a e = domainRun s va bs dom a := by
    unfold entryByte domainRun
    rw [runByte_line hfit]
    simp only [e, newEntry, byteAt_lineBytes]
    by_cases hd : domainOf s s.g.ctx va = dom <;> by_cases hl : lineOf va = lineOf a <;> simp [hd, hl]
  rw [forwardByte_withEntries, hregion, hcommitted, hbyte, Option.or_assoc]
  rfl

/-- R303: a new entry for a line that the region had none of keeps its lines apart. -/
theorem regionLines_newEntry {s : State} {va : Nat} (hregion : RegionLines s) (h : s.ms.entries.any (ofLine s va) = false)
    (room : Bool × Bool) (lane : Nat) (bs : List Byte) : RegionLines (withEntries (s.ms.entries ++ [newEntry s room lane va bs]) s) := by
  obtain ⟨hr, hdom, hline, htx⟩ := ofLine_iff.mp (ofLine_newEntry s room lane va bs)
  unfold RegionLines at hregion ⊢
  change ((s.ms.entries ++ [newEntry s room lane va bs]).filter (ofRegion s)).Pairwise _
  rw [List.filter_append, List.filter_cons_of_pos hr, List.filter_nil, List.pairwise_append]
  refine ⟨hregion, List.pairwise_singleton _ _, fun e he f hf => ?_⟩
  obtain rfl := List.mem_singleton.mp hf
  obtain ⟨hmem, her⟩ := List.mem_filter.mp he
  rintro ⟨hd, hl, ht⟩
  exact List.any_eq_false.mp h e hmem (ofLine_iff.mpr ⟨her, hd.trans hdom, hl.trans hline, ht.trans htx⟩)

/-- R303: the lines that are left to open after one was opened. -/
theorem length_linesToOpen_newEntry {s : State} {va : Nat} (h : s.ms.entries.any (ofLine s va) = false) (room : Bool × Bool) (lane : Nat)
    (bs : List Byte) (ks : List (Nat × Nat)) :
    (linesToOpen (withEntries (s.ms.entries ++ [newEntry s room lane va bs]) s) ks).length + 1 ≤
      (linesToOpen s ((domainOf s s.g.ctx va, lineOf va) :: ks)).length := by
  let k := (domainOf s s.g.ctx va, lineOf va)
  let t := withEntries (s.ms.entries ++ [newEntry s room lane va bs]) s
  have hhas (j : Nat × Nat) : hasLine t j = (hasLine s j || (k.1 == j.1 && k.2 == j.2)) := by
    have happ : hasLine t j = (s.ms.entries ++ [newEntry s room lane va bs]).any
        (fun e => ofRegion s e && e.dom == j.1 && e.line == j.2 && !e.tx) := rfl
    rw [happ, List.any_append]
    refine congrArg (hasLine s j || ·) ?_
    simp [ofRegion, newEntry, k]
  have hk : k ∉ linesToOpen t ks := fun hmem => by
    have := (mem_linesToOpen.mp hmem).2
    rw [hhas] at this
    simp at this
  have hsub : k :: linesToOpen t ks ⊆ linesToOpen s (k :: ks) := by
    intro j hj
    rw [mem_linesToOpen]
    obtain rfl | hj := List.mem_cons.mp hj
    · exact ⟨List.mem_cons_self .., (hasLine_eq_any s va).trans h⟩
    · obtain ⟨hmem, hnew⟩ := mem_linesToOpen.mp hj
      rw [hhas, Bool.or_eq_false_iff] at hnew
      exact ⟨List.mem_cons_of_mem _ hmem, hnew.1⟩
  exact ((List.nodup_cons.mpr ⟨hk, nodup_linesToOpen t ks⟩).subperm hsub).length_le

/-- What the store buffer keeps to when the bytes of stores enter it: the region's lines stand apart, and there is room for the lines
still to be opened. -/
def BufferReady (s : State) (ks : List (Nat × Nat)) : Prop := RegionLines s ∧ RoomFor s (linesToOpen s ks).length

/-- R303, R304: bytes of one lane of a store enter the store buffer. -/
theorem bufferBytes_holds {s : State} {va : Nat} {bs : List Byte} {ks : List (Nat × Nat)}
    (h : BufferReady s ((domainOf s s.g.ctx va, lineOf va) :: ks)) (hfit : va % 128 + bs.length ≤ 128) (lane : Nat) :
    ∃ es uid, bufferBytes lane va bs false s = .held { withEntries es s with uid := uid } ∧ BufferReady (withEntries es s) ks ∧
      ∀ dom a, forwardByte (withEntries es s) dom a = (domainRun s va bs dom a).or (forwardByte s dom a) := by
  obtain ⟨hregion, hroom⟩ := h
  cases hany : s.ms.entries.any (ofLine s va) with
  | true =>
    let es := updateFirst (ofLine s va) (SbEntry.merge lane va bs) s.ms.entries
    have hbare : es.map bareEntry = s.ms.entries.map bareEntry :=
      map_updateFirst (f := SbEntry.merge lane va bs) (fun _ => rfl) _ _
    have hlines : linesToOpen (withEntries es s) ks = linesToOpen s ks := by
      unfold linesToOpen
      simp only [hasLine_bare hbare]
    refine ⟨es, s.uid, ?_, ⟨(regionLines_bare hbare).mpr hregion, ?_⟩, fun dom a => ?_⟩
    · exact if_pos hany
    · rw [roomFor_bare hbare, hlines]
      exact roomFor_mono (length_linesToOpen_tail s _ ks) hroom
    · rw [forwardByte_withEntries, regionByte_merge hregion hany hfit, committedByte_merge hany, Option.or_assoc]
      rfl
  | false =>
    have hless := fun room => length_linesToOpen_newEntry hany room lane bs ks
    obtain ⟨room, hok⟩ := entryRoom_ok (roomFor_mono (hless (false, false)) hroom)
    refine ⟨s.ms.entries ++ [newEntry s room lane va bs], s.uid + 1, ?_, ⟨regionLines_newEntry hregion hany room lane bs, ?_⟩,
      fun dom a => forwardByte_newEntry hfit room lane dom a⟩
    · refine (if_neg (c := s.ms.entries.any (ofLine s va) = true) (by simp [hany])).trans ?_
      rw [hok]
      rfl
    · exact roomFor_append rfl rfl (roomFor_mono (hless room) hroom)

end Sys2Proof.Machine
end

section
/-! The lanes of a store (R143, R146, R148, R277, R303). -/

namespace Sys2Proof.Machine

open Sys2Proof Sys2Proof.Claims

/-- R146: of writes in order, a later one goes before an earlier one. -/
theorem lastByte_cons (va : Nat) (bs : List Byte) (ws : List (Nat × List Byte)) (a : Nat) :
    lastByte ((va, bs) :: ws) a = (lastByte ws a).or (runByte va bs a) := by
  have hrun (l : List (Nat × List Byte)) : lastByte l a = (l.filterMap (fun w => runByte w.1 w.2 a)).getLast? := rfl
  rw [hrun, hrun, ← List.singleton_append, List.filterMap_append, List.getLast?_append]
  refine congrArg (Option.or _) ?_
  cases h : runByte va bs a with
  | none =>
    rw [List.filterMap_cons_none (f := fun w : Nat × List Byte => runByte w.1 w.2 a) h]
    rfl
  | some b =>
    rw [List.filterMap_cons_some (f := fun w : Nat × List Byte => runByte w.1 w.2 a) h]
    rfl

/-- The byte that a run puts at an address, or the old one. -/
theorem runByte_getD (va : Nat) (bs : List Byte) (a : Nat) (b : Byte) :
    (runByte va bs a).getD b = if va ≤ a ∧ a < va + bs.length then nthD 0 bs (a - va) else b := by
  unfold runByte
  split
  next hin => simp [nthD, show a - va < bs.length by omega]
  next => rfl

/-! Lanes to memory. -/

/-- R303: the lines of lanes with their bytes, as (lane, transaction's lane, address, bytes). -/
def itemLines (s : State) (is : List (Nat × Nat × Nat × List Byte)) : List (Nat × Nat) :=
  is.map (fun i => (domainOf s s.g.ctx i.2.2.1, lineOf i.2.2.1))

/-- R146: their writes to a domain. -/
def itemWrites (s : State) (dom : Nat) (is : List (Nat × Nat × Nat × List Byte)) : List (Nat × List Byte) :=
  is.filterMap (fun i => if domainOf s s.g.ctx i.2.2.1 = dom then some (i.2.2.1, i.2.2.2) else none)

/-- R423: a use of the lookaside changes the lookaside and the serial number alone. -/
theorem attrUse_eq (die core ctx va : Nat) (s : State) :
    ∃ as uid, attrUse die core ctx va s = { s with ms := { s.ms with attrs := as }, uid := uid } := by
  unfold attrUse
  split
  · exact ⟨_, _, rfl⟩
  · exact ⟨_, _, rfl⟩

/-- R303, R304, R423: the lanes' bytes enter the store buffer one after another. -/
theorem bufferLanes_holds {is : List (Nat × Nat × Nat × List Byte)} {s : State} (htx : inTx s = false)
    (h : BufferReady s (itemLines s is)) (hfit : ∀ i ∈ is, i.2.2.1 % 128 + i.2.2.2.length ≤ 128) :
    ∃ t, bufferLanes is s = .ok t ∧
      (∀ dom a, forwardByte t dom a = (lastByte (itemWrites s dom is) a).or (forwardByte s dom a)) ∧
      { t with ms := { t.ms with entries := s.ms.entries, attrs := s.ms.attrs }, uid := s.uid } = s := by
  induction is generalizing s with
  | nil => exact ⟨s, rfl, fun _ _ => rfl, rfl⟩
  | cons i is ih =>
    obtain ⟨lane, txLane, va, bs⟩ := i
    obtain ⟨hfit, hfits⟩ := List.forall_mem_cons.mp hfit
    obtain ⟨as, n, hattr⟩ := attrUse_eq s.g.die s.g.core s.g.ctx va s
    let u : State := { s with ms := { s.ms with attrs := as }, uid := n }
    have hready : BufferReady u ((domainOf u u.g.ctx va, lineOf va) :: itemLines s is) := h
    obtain ⟨es, m, hbuf, hnext, hbyte⟩ := bufferBytes_holds hready hfit lane
    let v : State := { withEntries es u with uid := m }
    obtain ⟨t, ht, hlast, hframe⟩ := ih (s := v) htx hnext hfits
    refine ⟨t, ?_, fun dom a => ?_, ?_⟩
    · have hu : inTx u = false := htx
      simp only [bufferLanes, hattr]
      rw [if_neg (show ¬inTx u = true by simp [hu])]
      change (match bufferBytes lane va bs false u with
        | .held t => bufferLanes is t
        | .wait => .error none
        | .trap => .error (some (lane, va))) = .ok t
      rw [hbuf]
      exact ht
    · have hstep : forwardByte v dom a = (domainRun s va bs dom a).or (forwardByte s dom a) := hbyte dom a
      have hwrites : itemWrites v dom is = itemWrites s dom is := rfl
      rw [hlast, hstep, hwrites]
      by_cases hd : domainOf s s.g.ctx va = dom
      · have hcons : itemWrites s dom ((lane, txLane, va, bs) :: is) = (va, bs) :: itemWrites s dom is :=
          List.filterMap_cons_some (if_pos hd)
        rw [hcons, lastByte_cons, domainRun, if_pos hd, Option.or_assoc]
      · have hcons : itemWrites s dom ((lane, txLane, va, bs) :: is) = itemWrites s dom is := List.filterMap_cons_none (if_neg hd)
        rw [hcons, domainRun, if_neg hd, Option.none_or]
    · exact (congrArg (fun w : State => { w with ms := { w.ms with entries := s.ms.entries, attrs := s.ms.attrs }, uid := s.uid }) hframe :)

/-! Lanes to the stores on the chip. -/

/-- R254, R277: a place on the chip has its part of a span, and n bytes from it on lie in that part. -/
def ChipReady (s : State) (n : Nat) : Place → Prop
  | .store _ => (spanCoreOf? s s.g.span s.g.core).isSome
  | .quad off => (∃ x, spanOf? s s.g.span = some x ∧ (spanCoreOf? s s.g.span (quadCore x off)).isSome) ∧ off % 131072 + n ≤ 131072
  | .mem _ => True
  | .param _ => True
  | .past => True

/-- R254: a write of a part of a span takes no part away. -/
theorem chipReady_modSpanCore {s : State} {f : SpanCore → SpanCore} (hcore : ∀ c, (f c).core = c.core) (span core : Nat) {n : Nat}
    {p : Place} (h : ChipReady s n p) : ChipReady (modSpanCore span core f s) n p := by
  have hsome (m k : Nat) : (spanCoreOf? (modSpanCore span core f s) m k).isSome = (spanCoreOf? s m k).isSome := by
    have := congrArg Option.isSome (spanCoreOf?_modSpanCore_map hcore (r := fun _ => ()) (fun _ => rfl) span core s m k)
    simpa using this
  cases p with
  | store off => exact (hsome _ _).trans h
  | quad off =>
    obtain ⟨⟨x, hx, hpart⟩, hone⟩ := h
    have h0 := core0_modSpanCore (f := f) span core s s.g.span
    rw [hx, Option.map_some, Option.map_eq_some_iff] at h0
    obtain ⟨y, hy, hy0⟩ := h0
    refine ⟨⟨y, hy, (hsome _ _).trans ?_⟩, hone⟩
    rw [quadCore, hy0]
    exact hpart
  | mem va => trivial
  | param va => trivial
  | past => trivial

/-- R254: nor does a write of a place on the chip. -/
theorem chipReady_write {s : State} {n : Nat} {p : Place} (h : ChipReady s n p) (q : Place) (bs : List Byte) : ChipReady (q.write bs s) n p := by
  cases q with
  | store off => exact chipReady_modSpanCore (by intro; rfl) _ _ h
  | quad off =>
    change ChipReady (quadWrite s.g.span off bs false s) n p
    unfold quadWrite
    split
    · exact h
    · exact chipReady_modSpanCore (by intro; rfl) _ _ h
  | mem va => exact h
  | param va => exact h
  | past => exact h

/-- R277: a write of a place on the chip changes the spans alone. -/
theorem write_frame (p : Place) (bs : List Byte) (s : State) : { p.write bs s with spans := s.spans } = s := by
  cases p with
  | quad off =>
    change { quadWrite s.g.span off bs false s with spans := s.spans } = s
    unfold quadWrite
    split <;> rfl
  | store off => rfl
  | mem va => rfl
  | param va => rfl
  | past => rfl

/-- R146, R277: places on the chip written in order. -/
def writePlaces (data : Nat → List Byte) (ps : List (Nat × Nat × Place)) (s : State) : State :=
  ps.foldl (fun u p => p.2.2.write (data p.1) u) s

theorem writePlaces_frame (data : Nat → List Byte) (ps : List (Nat × Nat × Place)) (s : State) :
    { writePlaces data ps s with spans := s.spans } = s :=
  foldl_keeps (fun u : State => { u with spans := s.spans }) (f := fun u p => p.2.2.write (data p.1) u)
    (fun u (p : Nat × Nat × Place) => (congrArg (fun v : State => { v with spans := s.spans }) (write_frame p.2.2 (data p.1) u) :)) ps s

/-- R146, R277: what core store and quad store hold after places on the chip were written in order. -/
theorem writePlaces_bytes {data : Nat → List Byte} {n : Nat} (hdata : ∀ l, (data l).length = n) {ps : List (Nat × Nat × Place)} {s : State}
    (h : ∀ p ∈ ps, ChipReady s n p.2.2) (a : Nat) :
    storeByte (writePlaces data ps s) s.g.span s.g.core a =
        (lastByte (storeWrites ps data) a).getD (storeByte s s.g.span s.g.core a) ∧
      quadByte (writePlaces data ps s) s.g.span a = (lastByte (quadWrites ps data) a).getD (quadByte s s.g.span a) := by
  induction ps generalizing s with
  | nil => exact ⟨rfl, rfl⟩
  | cons p ps ih =>
    obtain ⟨l, x, place⟩ := p
    obtain ⟨hp, hps⟩ := List.forall_mem_cons.mp h
    let u := place.write (data l) s
    have hug : u.g = s.g := (congrArg State.g (write_frame place (data l) s) :)
    obtain ⟨hstore, hquad⟩ := ih (s := u) fun q hq => chipReady_write (hps q hq) place (data l)
    rw [hug] at hstore hquad
    have hfold : writePlaces data ((l, x, place) :: ps) s = writePlaces data ps u := rfl
    rw [hfold, hstore, hquad]
    have hor (o o' : Option Byte) (b : Byte) : (o.or o').getD b = o.getD (o'.getD b) := by cases o <;> rfl
    cases place with
    | store off =>
      have hs : storeWrites ((l, x, .store off) :: ps) data = (off, data l) :: storeWrites ps data := rfl
      have hq : quadWrites ((l, x, .store off) :: ps) data = quadWrites ps data := rfl
      rw [hs, hq, lastByte_cons, hor, runByte_getD]
      exact ⟨congrArg _ (storeByte_storeWrite hp off (data l) false a), congrArg _ (quadByte_storeWrite _ _ off (data l) false s _ a)⟩
    | quad off =>
      obtain ⟨⟨y, hy, hpart⟩, hone⟩ := hp
      have hs : storeWrites ((l, x, .quad off) :: ps) data = storeWrites ps data := rfl
      have hq : quadWrites ((l, x, .quad off) :: ps) data = (off, data l) :: quadWrites ps data := rfl
      rw [hs, hq, lastByte_cons, hor, runByte_getD]
      exact ⟨congrArg _ (storeByte_quadWrite _ off (data l) false s _ _ a),
        congrArg _ (quadByte_quadWrite hy hpart (by rw [hdata]; exact hone) false a)⟩
    | mem va => exact ⟨rfl, rfl⟩
    | param va => exact ⟨rfl, rfl⟩
    | past => exact ⟨rfl, rfl⟩

/-! The obligation. -/

/-- R146: the lanes of a store to memory, with their bytes. -/
def storeItems (s : State) (scalar : Bool) (ps : List (Nat × Nat × Place)) (data : Nat → List Byte) : List (Nat × Nat × Nat × List Byte) :=
  ps.filterMap (fun p => match p.2.2 with | .mem va => some (p.1, txLaneOf s scalar p.1, va, data p.1) | _ => none)

/-- R146: the lanes of a store to the chip. -/
def chipPlaces (ps : List (Nat × Nat × Place)) : List (Nat × Nat × Place) := ps.filter (fun p => p.2.2.onChip)

/-- R303: the lines that a store adds to its region. -/
theorem newLines_eq (s : State) (scalar : Bool) (ps : List (Nat × Nat × Place)) (data : Nat → List Byte) :
    newLines s ps = linesToOpen s (itemLines s (storeItems s scalar ps data)) := by
  have hlines : itemLines s (storeItems s scalar ps data) =
      ps.filterMap (fun p => match p.2.2 with | .mem va => some (domainOf s s.g.ctx va, lineOf va) | _ => none) := by
    unfold itemLines storeItems
    rw [List.map_filterMap]
    refine congrArg (List.filterMap · ps) (funext fun p => ?_)
    cases p.2.2 <;> rfl
  rw [hlines]
  rfl

/-- R146: the writes of a store to a domain. -/
theorem itemWrites_storeItems (s : State) (scalar : Bool) (ps : List (Nat × Nat × Place)) (data : Nat → List Byte) (dom : Nat) :
    itemWrites s dom (storeItems s scalar ps data) = globalWrites s dom ps data := by
  unfold itemWrites storeItems globalWrites
  rw [List.filterMap_filterMap]
  refine congrArg (List.filterMap · ps) (funext fun p => ?_)
  cases p.2.2 <;> rfl

/-- R146: the writes of a store to the chip are those of its places there. -/
theorem writes_chipPlaces (ps : List (Nat × Nat × Place)) (data : Nat → List Byte) :
    storeWrites (chipPlaces ps) data = storeWrites ps data ∧ quadWrites (chipPlaces ps) data = quadWrites ps data := by
  unfold storeWrites quadWrites chipPlaces
  rw [List.filterMap_filter, List.filterMap_filter]
  constructor
  all_goals
    refine congrArg (List.filterMap · ps) (funext fun p => ?_)
    cases p.2.2 <;> rfl

/-- R143, R274: n bytes at an aligned offset of quad store lie in one core's part. -/
theorem quad_one_core {n : Nat} (hn : n ∈ [1, 2, 4, 8, 16]) {a : W64} (ha : a.toNat % n = 0) :
    bitsOf a.toNat 47 0 % 131072 + n ≤ 131072 := by
  simp only [bitsOf, pow_zero, Nat.div_one, List.mem_cons, List.not_mem_nil, or_false] at hn ⊢
  rcases hn with rfl | rfl | rfl | rfl | rfl <;> omega

/-- R143, R254: the places on the chip of a store that is ready. -/
theorem chipReady_of_storeReady {s : State} {n : Nat} {lanes : List (Nat × W64)} {ps : List (Nat × Nat × Place)}
    (hn : n ∈ [1, 2, 4, 8, 16]) (h : StoreReady s n lanes ps) : ∀ p ∈ ps, ChipReady s n p.2.2 := by
  obtain ⟨-, -, hplaces, -, -, hexist, -⟩ := h
  intro p hp
  have hthere := hexist p hp
  obtain ⟨a, ha⟩ := placesOf_mem hplaces hp
  obtain ⟨sp, hsp, halign, hgoes⟩ := placeOf_ok ha
  cases hplace : p.2.2 with
  | store off =>
    rw [hplace] at hthere
    exact hthere
  | quad off =>
    rw [hplace] at hthere hgoes
    cases sp with
    | quad =>
      obtain rfl : off = bitsOf a.toNat 47 0 := Place.quad.inj hgoes
      exact ⟨hthere, quad_one_core hn halign⟩
    | glob => cases hgoes
    | loc => cases hgoes
    | store => cases hgoes
    | param => simp [storeSpaces] at hsp
  | mem va => trivial
  | param va => trivial
  | past => trivial

/-- R143, R146, R303: a store that is ready leaves its bytes. -/
theorem storeEff_stores {s : State} {n : Nat} {lanes : List (Nat × W64)} {ps : List (Nat × Nat × Place)} (hn : n ∈ [1, 2, 4, 8, 16])
    (hl : lanes ≠ []) (h : StoreReady s n lanes ps) {data : Nat → List Byte} (hdata : ∀ l, (data l).length = n) (scalar : Bool) :
    Stored s (storeEff n scalar lanes data s) ps data := by
  have hchips := chipReady_of_storeReady hn h
  obtain ⟨hS, htx, hplaces, hcopy, hregion, hexist, hroom⟩ := h
  let is := storeItems s scalar ps data
  have hready : BufferReady s (itemLines s is) := ⟨hregion, newLines_eq s scalar ps data ▸ hroom⟩
  have hfit : ∀ i ∈ is, i.2.2.1 % 128 + i.2.2.2.length ≤ 128 := by
    intro i hi
    obtain ⟨p, hp, hmem⟩ := List.mem_filterMap.mp hi
    have hthere := hexist p hp
    split at hmem
    next va hva =>
      cases hmem
      rw [hva] at hthere
      rw [hdata]
      exact hthere
    next => cases hmem
  obtain ⟨t, hbuf, hbytes, hframe⟩ := bufferLanes_holds htx hready hfit
  have hheld : (chipPlaces ps).any (fun p => copyHeld s p.2.2 n) = false :=
    List.any_eq_false.mpr fun p hp => by simp [hcopy p (List.mem_filter.mp hp).1]
  have heff : storeEff n scalar lanes data s = writePlaces data (chipPlaces ps) t := by
    unfold storeEff
    rw [if_neg hl, if_neg (Nat.not_le.mpr hS), hplaces]
    dsimp only
    rw [if_neg (by simp [htx]), if_neg (by rw [← chipPlaces, hheld]; decide)]
    change (match bufferLanes is s with
      | .error none => stallWord s
      | .error (some f) => takeTrap (laneTrap .storeOverflow f.1 (BitVec.ofNat 64 f.2)) s
      | .ok t => writePlaces data (chipPlaces ps) t) = _
    rw [hbuf]
  have htg : t.g = s.g := (congrArg State.g hframe :)
  have hchipt : ∀ p ∈ chipPlaces ps, ChipReady t n p.2.2 := fun p hp => by
    have hsame : ChipReady t n p.2.2 = ChipReady s n p.2.2 := (congrArg (fun u : State => ChipReady u n p.2.2) hframe :)
    exact hsame.mpr (hchips p (List.mem_filter.mp hp).1)
  have hwrite := writePlaces_bytes hdata hchipt
  have hrest := writePlaces_frame data (chipPlaces ps) t
  obtain ⟨hstores, hquads⟩ := writes_chipPlaces ps data
  rw [hstores, hquads, htg] at hwrite
  rw [heff]
  refine ⟨fun a => ?_, fun a => ?_, fun dom a => ?_, ?_⟩
  · exact (hwrite a).1.trans (congrArg _ (congrArg (fun u : State => storeByte u s.g.span s.g.core a) hframe :))
  · exact (hwrite a).2.trans (congrArg _ (congrArg (fun u : State => quadByte u s.g.span a) hframe :))
  · have hforward : forwardByte (writePlaces data (chipPlaces ps) t) dom a = forwardByte t dom a :=
      (congrArg (fun u : State => forwardByte u dom a) hrest :)
    rw [hforward, hbytes, itemWrites_storeItems]
  · have hspans : { t with spans := s.spans, ms := { t.ms with entries := s.ms.entries, attrs := s.ms.attrs }, uid := s.uid } = s :=
      (congrArg (fun u : State => { u with spans := s.spans }) hframe :)
    exact ((congrArg (fun u : State => { u with
      spans := s.spans, ms := { u.ms with entries := s.ms.entries, attrs := s.ms.attrs }, uid := s.uid }) hrest :)).trans hspans

/-- R146: the rows of the stores name the stores of their bytes. -/
theorem exec_store {row : (StOp → Instr) × Nat} (h : row ∈ storeRows) (o : StOp) (s : State) :
    exec (row.1 o) s = vecStore o row.2 s ∧ row.2 ∈ [1, 2, 4, 8, 16] := by
  unfold storeRows at h
  fin_cases h <;> exact ⟨rfl, by decide⟩

/-- R146: a vector store that lets itself be issued has its effect. -/
theorem vecStore_effect {o : StOp} {n : Nat} {s : State} (hrange : ∀ p ∈ storeRange o n, p.1 + p.2 ≤ s.g.nregs)
    (hhazard : hazard s (regsOf (storeRange o n)) [o.mem.base] = false) (hpoison : poisonedLane s (regsOf (storeRange o n)) = none) :
    vecStore o n s = .next (storeEff n false (laneAddrs o.mem s) (fun l => storeBytes o.data n l s) s) := by
  rw [vecStore, issueWord_eff _ ((rangeTrap_none _ _).mpr hrange) hhazard, readGuard_clear _ hpoison]

/-- R146: a lane of a store of n bytes writes n bytes. -/
theorem length_storeBytes {n : Nat} (hn : n ∈ [1, 2, 4, 8, 16]) (d : VSrc) (l : Nat) (s : State) : (storeBytes d n l s).length = n := by
  cases d with
  | lit w => exact length_natToBytes n _
  | reg r =>
    have hlen (k : Nat) : ((List.range k).flatMap (fun j => natToBytes 4 (vGet s (r + j) l).toNat)).length = k * 4 := by
      simp [List.length_flatMap]
    rw [storeBytes, List.length_take, hlen]
    simp only [List.mem_cons, List.not_mem_nil, or_false] at hn
    omega

/-- Settles O10: each form of a store is its effect, which leaves its bytes. -/
theorem storesWrite : Obligations.StoresWrite := by
  refine ⟨?vector, ?scalar, ?idle⟩
  case vector =>
    intro row hrow o s ps hrange hhazard hpoison hem h
    obtain ⟨hexec, hn⟩ := exec_store hrow o s
    rw [hexec, vecStore_effect hrange hhazard hpoison]
    exact ⟨_, rfl, storeEff_stores hn (laneAddrs_ne_nil hem _) h (fun l => length_storeBytes hn o.data l s) false⟩
  case scalar =>
    intro o s ps hhazard h
    have heff := issueWord_eff (fun t => storeEff 8 true [(0, scalarAddr o t)] (fun _ => natToBytes 8 (sGet t o.d).toNat) t) rfl hhazard
    exact ⟨_, heff, storeEff_stores (by decide) (List.cons_ne_nil _ _) h (fun _ => length_natToBytes 8 _) true⟩
  case idle =>
    intro row hrow o s hrange hhazard hem
    obtain ⟨hexec, -⟩ := exec_store hrow o s
    have hpoison : poisonedLane s (regsOf (storeRange o row.2)) = none := by simp [poisonedLane, hem, lanesOf, inMask]
    rw [hexec, vecStore_effect hrange hhazard hpoison, laneAddrs_nil hem]
    rfl

end Sys2Proof.Machine
end

section
/-! Maps written key by key, the words of major 8, and the reservation of a handle after a change (R163, R168). -/

namespace Sys2Proof.Machine

open Sys2Proof Sys2Proof.Claims

/-! Maps. -/

/-- A map after values that depend on their keys alone were written one after another. -/
theorem mapGet_foldl_mapSet {α β : Type} [DecidableEq β] (d : β) (g : Nat → β) {key : α → Nat} {val : α → β} {xs : List α}
    (h : ∀ x ∈ xs, val x = g (key x)) (m : SMap β) (k : Nat) :
    mapGet d (xs.foldl (fun a x => mapSet d a (key x) (val x)) m) k = if k ∈ xs.map key then g k else mapGet d m k := by
  induction xs generalizing m with
  | nil => rfl
  | cons x xs ih =>
    rw [List.foldl_cons, ih (fun y hy => h y (List.mem_cons_of_mem x hy)), mapGet_mapSet, h x List.mem_cons_self, List.map_cons]
    by_cases hk : k = key x
    · simp [hk]
    · simp [hk]

/-- A map whose keys are all different reads as each of its pairs. -/
theorem mapGet_of_mem {α : Type} (d : α) {m : SMap α} (h : (m.map Prod.fst).Nodup) {p : Nat × α} (hp : p ∈ m) : mapGet d m p.1 = p.2 := by
  induction m with
  | nil => exact nomatch hp
  | cons q m ih =>
    obtain ⟨hq, hm⟩ := List.nodup_cons.mp h
    rw [mapGet_cons]
    obtain rfl | hp := List.mem_cons.mp hp
    · exact if_pos rfl
    · have hne : q.1 ≠ p.1 := fun heq => hq (heq.symm ▸ List.mem_map_of_mem hp)
      rw [if_neg hne, ih hm hp]

/-! Words of major 8. -/

/-- R163: a word of major 8 outside a transaction that makes no trap and names no register on its way has its effect. -/
theorem matWord_eff {trap : Option Trap} {vs ss : List Nat} {s : State} (eff : State → State) (htx : inTx s = false)
    (ht : trap = none) (hh : hazard s vs ss = false) : matWord trap vs ss eff s = .next (eff s) :=
  issueWord_eff eff (by simp [htx, ht, trapIf, firstTrap]) hh

/-! Lookups. -/

/-- R168: the reservations of the group in focus are those of its span's part on its core. -/
theorem heldRes?_eq {s : State} {c : SpanCore} (hc : spanCoreOf? s s.g.span s.g.core = some c) (h : Nat) :
    heldRes? s h = c.resv.find? (fun r => r.handle == h) := by
  rw [heldRes?, resOf?, hc, Option.bind_some]

/-- R168: a change of the reservations of one handle. -/
theorem onlyRes_modSpanCore {s : State} {c : SpanCore} {f : List Reservation → List Reservation} {n : Nat} {r : Option Reservation}
    (hc : spanCoreOf? s s.g.span s.g.core = some c) (hthis : (f c.resv).find? (fun x => x.handle == n) = r)
    (hothers : ∀ h, h ≠ n → (f c.resv).find? (fun x => x.handle == h) = c.resv.find? (fun x => x.handle == h)) :
    OnlyRes s (modSpanCore s.g.span s.g.core (fun x => { x with resv := f x.resv }) s) n r := by
  have hread := heldRes?_eq (s := modSpanCore s.g.span s.g.core (fun x => { x with resv := f x.resv }) s)
    (spanCoreOf?_modSpanCore hc rfl)
  exact ⟨(hread n).trans hthis, fun h hne => (hread h).trans ((hothers h hne).trans (heldRes?_eq hc h).symm), rfl⟩

/-- R173: the reservation of a handle changed. -/
theorem onlyRes_modRes {s : State} {n : Nat} {r : Reservation} {f : Reservation → Reservation}
    (hc : (spanCoreOf? s s.g.span s.g.core).isSome) (hr : heldRes? s n = some r) (hf : ∀ x, (f x).handle = x.handle) :
    OnlyRes s (modRes s.g.span s.g.core n f s) n (some (f r)) := by
  obtain ⟨c, hc⟩ := Option.isSome_iff_exists.mp hc
  rw [heldRes?_eq hc] at hr
  have hn : (r.handle == n) = true := by simpa using List.find?_some hr
  refine onlyRes_modSpanCore (f := updateFirst (fun x => x.handle == n) f) hc (find?_updateFirst hr (by rw [hf]; exact hn)) fun h hne => ?_
  exact find?_updateFirst_ne (fun x hx => by simp [hf, beq_iff_eq.mp hx, Ne.symm hne]) _

end Sys2Proof.Machine
end

section
/-! The fields of reservation records, and the statement about reservations (R55, R168 to R174). -/

namespace Sys2Proof.Machine

open Sys2Proof Sys2Proof.Claims

/-! Records. -/

/-- A number is in a list. -/
theorem memNat_iff (n : Nat) (xs : List Nat) : memNat n xs = true ↔ n ∈ xs := by simp [memNat]

/-- R172: a record that fits may be held. -/
theorem bad_of_recordFits {units : Nat} {others : List ResRec} {r : ResRec} (h : RecordFits units others r) :
    r.bad units others = false := by
  obtain ⟨hclean, hfmt, hroleA, hroleB, htl, hm1, hk1, hk2, hs1, hs2, hunits, hothers, hneed, hsoff⟩ := h
  have hext : ¬(r.mext = 0 ∨ (if r.roleB then 64 else 32) < r.mext ∨ r.kext = 0 ∨ 1024 < r.kext ∨ r.size = 0 ∨ 512 < r.size) := by
    have hmext : r.mext ≤ if r.roleB then 64 else 32 := by
      cases hr : r.roleB with
      | false => exact (hroleA hr).2
      | true => exact (hroleB hr).2
    omega
  have hrole : (!r.roleB && r.tl) = false ∧ (r.roleB && r.fmt == 1) = false := by
    cases hr : r.roleB with
    | false => simp [hroleA hr]
    | true => simp [hroleB hr]
  have htable : (r.tl && !memNat r.fmt [2, 4, 5, 6, 7]) = false := by
    cases ht : r.tl with
    | false => rfl
    | true => simp only [(memNat_iff _ _).mpr (htl ht), Bool.not_true, Bool.and_false]
  have hfree : others.any (fun o => decide (o.base < r.base + r.size ∧ r.base < o.base + o.size)) = false := by
    simp only [List.any_eq_false, decide_eq_true_eq]
    intro o ho
    have := hothers o ho
    omega
  have hscale : (!planeMx r.fmt && r.soff != 0) = false ∧
      (planeMx r.fmt && decide (r.soff < r.body ∨ 2 ^ 18 < r.soff + r.mext * r.nb)) = false := by
    by_cases hf : r.fmt ∈ [3, 6, 7, 8, 9, 10]
    · rw [if_pos hf] at hsoff
      have hmx : planeMx r.fmt = true := (memNat_iff _ _).mpr hf
      have h1 : r.fmt ≠ 1 := fun h1 => absurd (h1 ▸ hf) (by decide)
      simpa [hmx, h1, ResRec.body, ResRec.bsz, ResRec.nb] using hsoff
    · rw [if_neg hf] at hsoff
      have hmx : planeMx r.fmt = false := Bool.eq_false_iff.mpr (mt (memNat_iff _ _).mp hf)
      simp [hmx, hsoff]
  have hlong : ¬r.size * 256 < r.need := Nat.not_lt.mpr hneed
  simp only [ResRec.bad, hclean, hrole, htable, hext, hfree, hscale, hlong, Nat.not_lt.mpr hunits, show ¬17 ≤ r.fmt by omega,
    decide_false, Bool.not_true, Bool.or_false]

/-- R169: a record with another k origin, with its parts. -/
theorem withKorg_eq (w : W64) (k : Nat) :
    withKorg w k = BitVec.ofNat 64 (2 ^ 24 * (2 ^ 6 * (w.toNat / 2 ^ 30) + k % 2 ^ 6) + w.toNat % 2 ^ 24) := by
  unfold withKorg setBits bitsOf
  congr 1
  omega

/-- R169: the bits of a record with k origin 0. -/
theorem withKorg_zero_getLsbD (w : W64) {i : Nat} (hi : i < 64) :
    (withKorg w 0).getLsbD i = (decide (i < 24 ∨ 30 ≤ i) && w.getLsbD i) := by
  rw [withKorg_eq, BitVec.getLsbD_ofNat, Nat.testBit_two_pow_mul_add _ (Nat.mod_lt _ (by decide)), Nat.zero_mod,
    Nat.testBit_two_pow_mul_add _ (by decide), Nat.testBit_mod_two_pow, Nat.testBit_div_two_pow, Nat.zero_testBit]
  simp only [hi, decide_true, Bool.true_and]
  by_cases hlow : i < 24
  · simp [hlow, BitVec.getLsbD]
  · by_cases hmid : i < 30
    · simp [hlow, show i - 24 < 6 by omega, show ¬30 ≤ i by omega]
    · simp [hlow, show ¬i - 24 < 6 by omega, show 30 ≤ i by omega, show i - 24 - 6 + 30 = i by omega, BitVec.getLsbD]

/-- R173: two records are the same with k origin 0 exactly if they differ in korg at most. -/
theorem korgOnly_iff (v0 v1 w0 w1 : W64) : withKorg v0 0 = withKorg w0 0 ∧ v1 = w1 ↔ KorgOnly v0 v1 w0 w1 := by
  refine and_congr_left fun _ => ⟨fun h i hi => ?_, fun h => BitVec.eq_of_getLsbD_eq fun i hi => ?_⟩
  · by_cases h64 : i < 64
    · simpa [withKorg_zero_getLsbD _ h64, hi] using congrArg (fun x : W64 => x.getLsbD i) h
    · rw [BitVec.getLsbD_of_ge _ _ (by omega), BitVec.getLsbD_of_ge _ _ (by omega)]
  · rw [withKorg_zero_getLsbD _ hi, withKorg_zero_getLsbD _ hi]
    by_cases hout : i < 24 ∨ 30 ≤ i
    · rw [h i hout]
    · simp [hout]

/-- R169: the k origin that was put into a record. -/
theorem korg_withKorg (w v : W64) (k : Nat) : (resRec (withKorg w k) v).korg = k % 64 := by
  have hw := w.isLt
  simp only [resRec, bitsOf, withKorg_eq, BitVec.toNat_ofNat]
  omega

/-- R55: a block of which the counts alone are kept. -/
def countsOf (x : Block) : Block := { Block.zero with under := x.under, align := x.align }

/-- R55, R173: the blocks of a reservation with a new record. -/
theorem block_replace (w0 w1 : W64) {r : Reservation} (h : (r.blocks.map Prod.fst).Nodup) (m b : Nat) :
    (Reservation.replace w0 w1 r).block m b =
      if (resRec w0 w1).fmt = r.record.fmt then countsOf (r.block m b) else Block.zero := by
  unfold Reservation.replace Reservation.block
  dsimp only
  split
  · refine (mapGet_foldl_mapSet Block.zero (fun k => countsOf (mapGet Block.zero r.blocks k))
      (fun p hp => congrArg countsOf (mapGet_of_mem Block.zero h hp).symm) [] (blockKey m b)).trans ?_
    split
    · rfl
    next hk =>
      have hkey : ∀ p ∈ r.blocks, p.1 ≠ blockKey m b := fun p hp heq => hk (List.mem_map.mpr ⟨p, hp, heq⟩)
      rw [mapGet_unlisted hkey]
      rfl
  · rfl

/-! The words. -/

/-- R172: pres of a free handle makes its reservation. -/
theorem presEff_makes {s : State} {n e : Nat} (hc : (spanCoreOf? s s.g.span s.g.core).isSome) (hfree : heldRes? s n = none)
    (hfits : PairFits s n e) : OnlyRes s (presEff n e s) n (some ⟨n, sGet s e, sGet s (e + 1), [], []⟩) := by
  obtain ⟨c, hc⟩ := Option.isSome_iff_exists.mp hc
  have heff : presEff n e s = modSpanCore s.g.span s.g.core
      (fun x => { x with resv := x.resv ++ [newRes n (sGet s e) (sGet s (e + 1))] }) s := by
    simp [presEff, hfree, bad_of_recordFits hfits]
  rw [heff]
  rw [heldRes?_eq hc] at hfree
  refine onlyRes_modSpanCore (f := fun rs => rs ++ [newRes n (sGet s e) (sGet s (e + 1))]) hc ?_ fun h hne => ?_
  · simp [List.find?_append, hfree, newRes]
  · simp [List.find?_append, newRes, Ne.symm hne]

/-- R174: prel of a handle that nothing outstanding names releases its reservation. -/
theorem prelEff_releases {s : State} {n : Nat} (hc : (spanCoreOf? s s.g.span s.g.core).isSome) (hheld : (heldRes? s n).isSome)
    (hidle : resBusy s n = false) : OnlyRes s (prelEff n s) n none := by
  obtain ⟨c, hc⟩ := Option.isSome_iff_exists.mp hc
  have heff : prelEff n s = modSpanCore s.g.span s.g.core (fun x => { x with resv := x.resv.filter (fun r => r.handle != n) }) s := by
    simp [prelEff, hidle, Option.isSome_iff_ne_none.mp hheld]
  rw [heff]
  refine onlyRes_modSpanCore (f := fun rs => rs.filter (fun r => r.handle != n)) hc (by simp) fun h hne => ?_
  rw [List.find?_filter]
  congr 1
  funext x
  by_cases hx : x.handle = h <;> simp [hx, hne]

/-- Settles O22: each word is its effect, which changes the reservation of its handle alone. -/
theorem reservationsChange : Obligations.ReservationsChange := by
  intro n e s htx hc
  refine ⟨?make, ?again, ?korgOnly, ?whole, ?korg, ?read, ?release, ?released⟩
  case make =>
    intro hh hfree hfits
    exact ⟨_, matWord_eff (presEff n e) htx rfl hh, presEff_makes hc hfree hfits⟩
  case again =>
    intro r hh hr h0 h1
    have heff : presEff n e s = s := by simp [presEff, hr, h0, h1]
    exact (matWord_eff (presEff n e) htx rfl hh).trans (congrArg _ heff)
  case korgOnly =>
    intro r hh hr hfits hk
    have heff : psetEff n 0 e s = modRes s.g.span s.g.core n (fun x => { x with word0 := sGet s e }) s := by
      simp only [psetEff, psetWhole, hr, bad_of_recordFits hfits, korgOnly_iff, hk, if_true, if_false, Bool.false_eq_true]
    exact ⟨_, matWord_eff (psetEff n 0 e) htx rfl hh, heff ▸ onlyRes_modRes hc hr fun _ => rfl⟩
  case whole =>
    intro r hh hr hidle hfits hk hnd
    have heff : psetEff n 0 e s = modRes s.g.span s.g.core n (Reservation.replace (sGet s e) (sGet s (e + 1))) s := by
      simp only [psetEff, psetWhole, hr, bad_of_recordFits hfits, korgOnly_iff, hk, hidle, if_false, Bool.false_eq_true]
    exact ⟨_, _, matWord_eff (psetEff n 0 e) htx rfl hh, heff ▸ onlyRes_modRes hc hr fun _ => rfl, rfl, rfl, rfl,
      block_replace _ _ hnd⟩
  case korg =>
    intro r hh hr
    have heff : psetEff n 1 e s = modRes s.g.span s.g.core n
        (fun x => { x with word0 := withKorg x.word0 ((sGet s e).toNat % 64) }) s := by simp [psetEff, hr]
    have honly : OnlyRes s (psetEff n 1 e s) n (some { r with word0 := withKorg r.word0 ((sGet s e).toNat % 64) }) :=
      heff ▸ onlyRes_modRes hc hr fun _ => rfl
    exact ⟨_, _, matWord_eff (psetEff n 1 e) htx rfl hh, honly, (korg_withKorg _ _ _).trans (Nat.mod_mod _ _), rfl, rfl, rfl⟩
  case read =>
    intro r hh hr
    have heff : psetEff n 2 e s = sSet (e + 1) r.word1 (sSet e r.word0 s) := by simp [psetEff, hr]
    exact (matWord_eff (psetEff n 2 e) htx rfl hh).trans (congrArg _ heff)
  case release =>
    intro hheld hidle
    exact ⟨_, matWord_eff (prelEff n) htx rfl (hazard_nil s), prelEff_releases hc hheld hidle⟩
  case released =>
    intro hfree
    have heff : prelEff n s = s := by simp [prelEff, hfree]
    exact (matWord_eff (prelEff n) htx rfl (hazard_nil s)).trans (congrArg _ heff)

end Sys2Proof.Machine
end

section
/-! Matrix words go out (R163, R166, R175, R178 to R190). -/

namespace Sys2Proof.Machine

open Sys2Proof Sys2Proof.Claims

/-! The queue and the replay counts. -/

/-- R163: an operation that has room enters its core's queue. -/
theorem pushTile_sent {s : State} (h : TileRoom s) (op : TileOp) : TileSent s (pushTile op s) op false := by
  obtain ⟨-, hcnt, hfull, -, -⟩ := h
  unfold TileSent pushTile
  rw [hfull, decide_eq_false (Nat.not_le.mpr hcnt)]
  rfl

/-- R166: a counted word that is not one of those issued before acts and is counted. -/
theorem counted_acts {f : State → State} {s : State} (hnew : s.sp.kept ≤ s.sp.replay) (hgoes : (f s).iss.stalled = false) :
    counted f s = countReplay (f s) := by
  simp [counted, replayed, Nat.not_lt.mpr hnew, hgoes]

/-- R163, R166: a counted operation that has room enters its core's queue and is counted. -/
theorem counted_sent {s : State} (h : TileRoom s) (op : TileOp) : TileSent s (counted (pushTile op) s) op true := by
  have hsent : TileSent s (pushTile op s) op false := pushTile_sent h op
  obtain ⟨-, -, -, hnew, hgoes⟩ := h
  rw [counted_acts hnew (by rw [show pushTile op s = _ from hsent]; exact hgoes), show pushTile op s = _ from hsent]
  rfl

/-- R163: a word of major 8 whose effect sends an operation. -/
theorem matWord_sends {trap : Option Trap} {vs ss : List Nat} {eff : State → State} {s : State} {op : TileOp} {count : Bool}
    (h : TileRoom s) (ht : trap = none) (hh : hazard s vs ss = false) (hsent : TileSent s (eff s) op count) :
    ∃ u, matWord trap vs ss eff s = .next u ∧ TileSent s u op count := by
  obtain ⟨htx, -⟩ := h
  exact ⟨_, matWord_eff eff htx ht hh, hsent⟩

/-! The checks. -/

/-- R18: a tile of the group makes no trap. -/
theorem tileTrap_none {s : State} {t : Nat} (h : t < tileCount s) : tileTrap s t = none := by
  simp [tileTrap, trapIf, Nat.not_le.mpr h]

/-- R11, R18: no trap for a tile and a range of registers that exist. -/
theorem tileRangeTrap_none {s : State} {t d n : Nat} (ht : t < tileCount s) (hd : d + n ≤ s.g.nregs) :
    firstTrap [tileTrap s t, rangeTrap s [(d, n)]] = none := by
  simp [firstTrap_none, tileTrap_none ht, rangeTrap_none, hd]

/-- R11, R21: no trap for a destination that exists and is no live-in. -/
theorem destTrap_none {s : State} {d n : Nat} (hd : d + n ≤ s.g.nregs) (hl : s.g.live ≤ d) :
    firstTrap [rangeTrap s [(d, n)], liveTrap s [d]] = none := by
  simp [firstTrap_none, rangeTrap_none, liveTrap_none, hd, hl]

/-- R11, R18, R21: no trap for a tile and a destination that exist, where the destination is no live-in. -/
theorem tileDestTrap_none {s : State} {t d n : Nat} (ht : t < tileCount s) (hd : d + n ≤ s.g.nregs) (hl : s.g.live ≤ d) :
    firstTrap [tileTrap s t, rangeTrap s [(d, n)], liveTrap s [d]] = none := by
  simp [firstTrap_none, tileTrap_none ht, rangeTrap_none, liveTrap_none, hd, hl]

/-! What words capture. -/

/-- R166, R175, R178: an operation on two reservations that it accepts captures their records. -/
theorem pairEff_sent {s : State} {accepts : ResRec → ResRec → Bool} {ha hb n : Nat} {a b : Reservation}
    (mk : W64 → W64 → W64 → W64 → TileOp) (h : TileRoom s) (hra : heldRes? s ha = some a) (hrb : heldRes? s hb = some b)
    (hgood : pairBad a.record b.record n = false) (hacc : accepts a.record b.record = true) :
    TileSent s (pairEff accepts ha hb n mk s) (mk a.word0 a.word1 b.word0 b.word1) true := by
  have hsent := counted_sent h (mk a.word0 a.word1 b.word0 b.word1)
  obtain ⟨-, -, -, hnew, -⟩ := h
  have heff : pairEff accepts ha hb n mk s = counted (pushTile (mk a.word0 a.word1 b.word0 b.word1)) s := by
    simp [pairEff, replayed, Nat.not_lt.mpr hnew, hra, hrb, hgood, hacc]
  exact heff ▸ hsent

/-- R180: mtab captures the record of its reservation. -/
theorem mtabEff_sent {s : State} {hb n : Nat} {b : Reservation} (h : TileRoom s) (hr : heldRes? s hb = some b)
    (hrole : b.record.roleB = true) (htl : b.record.tl = true) (hk : 16 * (b.record.korg + n) ≤ 1024) :
    TileSent s (mtabEff hb n s) (.mtab hb b.word0 b.word1 n) false := by
  have heff : mtabEff hb n s = pushTile (.mtab hb b.word0 b.word1 n) s := by
    simp only [mtabEff, hr, hrole, htl, decide_eq_false (Nat.not_lt.mpr hk), Bool.not_true, Bool.or_false, if_false, Bool.false_eq_true]
  exact heff ▸ pushTile_sent h _

/-- R187: mstat of a reservation is sent, of the high part only for role B. -/
theorem mstatEff_sent {s : State} {hi n k d : Nat} {r : Reservation} (h : TileRoom s) (hr : heldRes? s n = some r)
    (hrole : hi = 1 → r.record.roleB = true) : TileSent s (mstatEff hi n k d s) (.mstatBlock n k (hi == 1) d) false := by
  have heff : mstatEff hi n k d s = pushTile (.mstatBlock n k (hi == 1) d) s := by
    rw [mstatEff, hr]
    exact if_neg fun ⟨hhi, hroleA⟩ => hroleA (hrole hhi)
  exact heff ▸ pushTile_sent h _

/-- A check that passes answers its value. -/
theorem ok_of_check {ε α : Type} {c : Prop} [Decidable c] {e : ε} {x y : α} (h : (if c then .error e else .ok y) = Except.ok x) : x = y := by
  split at h <;> cases h
  rfl

/-- R143, R184: a range that passes its checks is at the address given. -/
theorem rangePlace_ok {s : State} {spaces : List Space} {al n l : Nat} {a : W64} {x : Nat}
    (h : rangePlace s spaces al n l a = .ok x) : x = a.toNat := by
  unfold rangePlace at h
  split at h
  · cases h
  · split at h
    · cases h
    · exact ok_of_check h

/-- R184: the addresses of a drain's lanes are those in its registers. -/
theorem drainAddrs_ok {s : State} {d fmt m : Nat} {ls : List Nat} {as : List (Nat × Nat × Nat)} (h : drainAddrs s d fmt m ls = .ok as) :
    ∀ p ∈ as, p.2.1 = (vGet64 s d p.1).toNat ∧ p.2.2 = (vGet64 s (d + 2) p.1).toNat := by
  induction ls generalizing as with
  | nil =>
    cases h
    exact fun p hp => nomatch hp
  | cons l ls ih =>
    unfold drainAddrs at h
    split at h
    · cases h
    next a ha =>
      split at h
      · cases h
      next b hb =>
        split at h <;> cases h
        next rest hrest =>
          intro p hp
          obtain rfl | hp := List.mem_cons.mp hp
          · exact ⟨rangePlace_ok ha, rangePlace_ok hb⟩
          · exact ih hrest p hp

/-- R184: the addresses of lanes, each kept under its lane. -/
def capturedAddrs (part : Nat × Nat → Nat) (as : List (Nat × Nat × Nat)) : SMap W64 :=
  as.foldl (fun m p => mapSet 0 m p.1 (BitVec.ofNat 64 (part p.2))) []

/-- R184: a captured address reads as what the lane gave. -/
theorem mapGet_capturedAddrs {part : Nat × Nat → Nat} {as : List (Nat × Nat × Nat)} {f : Nat → W64}
    (h : ∀ p ∈ as, part p.2 = (f p.1).toNat) {p : Nat × Nat × Nat} (hp : p ∈ as) : mapGet 0 (capturedAddrs part as) p.1 = f p.1 := by
  have hval : ∀ q ∈ as, BitVec.ofNat 64 (part q.2) = f q.1 := fun q hq => by rw [h q hq, BitVec.ofNat_toNat, BitVec.setWidth_eq]
  exact (mapGet_foldl_mapSet 0 f hval [] p.1).trans (if_pos (List.mem_map_of_mem hp))

/-- R184, R186: mdrain.mx captures its addresses and the mode and off of its tile. -/
theorem drainMxEff_sent {s : State} {t int fmt d m : Nat} {as : List (Nat × Nat × Nat)} (h : TileRoom s)
    (has : drainAddrs s d fmt m (lanesOf s.sp.em) = .ok as) :
    TileSent s (drainMxEff t int fmt d m s) (.mdrainMx t d fmt m (int == 1) (tileOf s s.g.span s.g.core t).mode
      (tileOf s s.g.span s.g.core t).off (capturedAddrs Prod.fst as) (capturedAddrs Prod.snd as)) true := by
  unfold drainMxEff
  rw [has]
  exact counted_sent h _

/-- R190: an effect at the checked address in a scalar register. -/
def atTileAddr (e : Nat) (eff : Nat → State → State) (s : State) : State :=
  match tileAddr s e with
  | .error x => takeTrap x s
  | .ok a => eff a s

/-- R190: msave and mload have their effects at the checked address. -/
theorem exec_tileMemory (t e : Nat) (s : State) :
    exec (.msave t e) s = matWord (tileTrap s t) [] [e] (atTileAddr e (fun a => pushTile (.msave t a))) s ∧
      exec (.mload t e) s = matWord (tileTrap s t) [] [e] (atTileAddr e (fun a => counted (pushTile (.mload t a)))) s := ⟨rfl, rfl⟩

/-- R190: an address that passes its checks. -/
theorem atTileAddr_ok {s : State} {e a : Nat} (h : tileAddr s e = .ok a) (eff : Nat → State → State) : atTileAddr e eff s = eff a s := by
  rw [atTileAddr, h]

/-! The scale of a tile. -/

/-- R18: a tile that exists is one of a part of the span. -/
theorem tileOf_modTile_focus {s : State} {t : Nat} (h : t < tileCount s) (f : Tile → Tile) :
    tileOf (modTile s.g.span s.g.core t f s) s.g.span s.g.core t = f (tileOf s s.g.span s.g.core t) := by
  unfold tileCount at h
  split at h
  next hc => exact tileOf_modTile f hc h
  next => exact absurd h (Nat.not_lt_zero t)

/-- Settles O23: each word passes its checks, and its effect sends the operation with what it captures. -/
theorem matrixWordsGoOut : Obligations.MatrixWordsGoOut := by
  refine ⟨?mzero, ?pair, ?mtab, ?mdrain, ?mdrainMx, ?memory, ?mstatBlock, ?mstatTile, ?msuggest, ?mscaleImm, ?mscaleReg⟩
  case mzero =>
    intro t s h ht
    exact matWord_sends h (tileTrap_none ht) (hazard_nil s) (counted_sent h (.mzero t))
  case pair =>
    intro t ha hb n s a b h ht hra hrb hgood
    refine ⟨fun hfa hfb hb1 => ?_, fun hlo hhi hfb htl => ?_⟩
    · exact matWord_sends h (tileTrap_none ht) (hazard_nil s)
        (pairEff_sent _ h hra hrb hgood (by simp [mmkAccepts, hfa, hfb, hb1]))
    · exact matWord_sends h (tileTrap_none ht) (hazard_nil s)
        (pairEff_sent _ h hra hrb hgood (by simp [mlutAccepts, hlo, hhi, (memNat_iff _ _).mpr hfb, htl]))
  case mtab =>
    intro hb n s b h hr hrole htl hk
    exact matWord_sends h rfl (hazard_nil s) (mtabEff_sent h hr hrole htl hk)
  case mdrain =>
    intro t d g s h ht hd hl hh
    exact matWord_sends h (tileDestTrap_none ht hd hl) hh (pushTile_sent h (.mdrain t d g))
  case mdrainMx =>
    intro t int fmt d m s as h ht hd hh hp has
    have hsent := drainMxEff_sent (t := t) (int := int) h has
    rw [← readGuard_clear (drainMxEff t int fmt d m) hp] at hsent
    obtain ⟨u, hexec, hu⟩ := matWord_sends h (tileRangeTrap_none ht hd) hh hsent
    exact ⟨u, _, _, hexec, hu, fun p hp => ⟨mapGet_capturedAddrs (fun q hq => (drainAddrs_ok has q hq).1) hp,
      mapGet_capturedAddrs (fun q hq => (drainAddrs_ok has q hq).2) hp⟩⟩
  case memory =>
    intro t e a s h ht hh ha
    obtain ⟨hsave, hload⟩ := exec_tileMemory t e s
    rw [hsave, hload]
    refine ⟨matWord_sends h (tileTrap_none ht) hh ?_, matWord_sends h (tileTrap_none ht) hh ?_⟩ <;> rw [atTileAddr_ok ha]
    · exact pushTile_sent h (.msave t a)
    · exact counted_sent h (.mload t a)
  case mstatBlock =>
    intro hi n k d s r h hd hl hh hr hrole
    exact matWord_sends h (destTrap_none hd hl) hh (mstatEff_sent h hr hrole)
  case mstatTile =>
    intro t d s h ht hd hl hh
    exact matWord_sends h (tileDestTrap_none ht hd hl) hh (pushTile_sent h (.mstatTile t d))
  case msuggest =>
    intro t thr d s h ht hh
    exact matWord_sends h (tileTrap_none ht) hh (pushTile_sent h (.msuggest t thr d))
  case mscaleImm =>
    intro t mode off s htx ht
    exact ⟨_, matWord_eff _ htx (tileTrap_none ht) (hazard_nil s), rfl, tileOf_modTile_focus ht _⟩
  case mscaleReg =>
    intro t mode e s htx ht hh hnew hgoes
    refine ⟨_, (matWord_eff _ htx (tileTrap_none ht) hh).trans (congrArg _ (counted_acts hnew hgoes)), rfl, rfl, ?_⟩
    exact tileOf_modTile_focus ht (fun x => { x with mode := mode == 1, off := clampOff (x.off + (sGet s e).toInt) })

end Sys2Proof.Machine
end

section
/-! The words on queue registers (R16, R192 to R202). -/

namespace Sys2Proof.Machine

open Sys2Proof Sys2Proof.Claims

/-- R16: a bound queue register makes no trap. -/
theorem boundTrap_none {s : State} {q : Nat} (h : (s.g.queue q).bind.isSome) : boundTrap s q = none := by
  rw [boundTrap, trapIf_none, Option.isNone_eq_false_iff, h]

/-! Binding. -/

/-- R193: a queue register that no command names has none in flight. -/
theorem inFlight_nil {s : State} {q : Nat} (h : ∀ c ∈ s.eng.fns, c.gid ≠ s.g.gid ∨ c.q ≠ q) : inFlight s s.g.gid q = [] := by
  refine List.filter_eq_nil_iff.mpr fun c hc hnames => ?_
  obtain ⟨hgid, hq⟩ : c.gid = s.g.gid ∧ c.q = q := by simpa using hnames
  exact (h c hc).elim (· hgid) (· hq)

/-- R195: with no command in flight, qbind binds its register. -/
theorem qbindEff_binds {s : State} {q : Nat} (h : inFlight s s.g.gid q = []) (dir k fn : Nat) :
    qbindEff q dir k fn s = putQueue q ⟨some (fn, k, dir == 1), []⟩ s := by simp [qbindEff, h]

/-- R202: with no command in flight, qunbind unbinds its register. -/
theorem qunbindEff_unbinds {s : State} {q : Nat} (h : inFlight s s.g.gid q = []) : qunbindEff q s = putQueue q QueueReg.unbound s := by
  simp [qunbindEff, h]

/-- R195, R202: a counted word that replaces a queue register. -/
theorem counted_putQueue {f : State → State} {s : State} {q : Nat} {x : QueueReg} (hf : f s = putQueue q x s)
    (hnew : s.sp.kept ≤ s.sp.replay) (hgoes : s.iss.stalled = false) :
    issueWord none [] [] (counted f) s = .next { s with
      g := { s.g with queues := s.g.queues.set q x }, sp := { s.sp with replay := s.sp.replay + 1 } } := by
  rw [issueWord_eff _ rfl (hazard_nil s), counted_acts hnew (by rw [hf]; exact hgoes), hf]
  rfl

/-! Pushing. -/

/-- R193, R194: the command that a qpush sends to the engine of its register's function. -/
def pushedCommand (s : State) (a q fn k : Nat) (min : Bool) : FnCmd :=
  { uid := s.uid, gid := s.g.gid, die := s.g.die, quad := s.g.core / 4, q := q, fn := fn, k := k, min := min, ftz := ftzOf s.g.fmode,
    em := s.sp.em, vals := laneList.foldl (fun m l => mapSet 0 m l (vGet s a l)) [] }

/-- R197: a pushed command has the lanes of its source. -/
theorem mapGet_pushedCommand (s : State) (a q fn k : Nat) (min : Bool) {l : Nat} (hl : l < 32) :
    mapGet 0 (pushedCommand s a q fn k min).vals l = vGet s a l :=
  (mapGet_foldl_mapSet (key := fun l => l) (xs := laneList) 0 (vGet s a) (fun _ _ => rfl) [] l).trans (if_pos (by simpa [laneList] using hl))

/-- R193, R194, R197: a push to a register and an engine that have room sends its command. -/
theorem qpushEff_sends {s : State} {a q fn k : Nat} {min : Bool} (hbind : (s.g.queue q).bind = some (fn, k, min))
    (hroom : (s.g.queue q).entries.length + placesInFlight s s.g.gid q + (if fn = 7 then 2 else 1) ≤ 8)
    (hengine : fnQueueFull s s.g (fn == 7) = false) :
    qpushEff a q s = { s with eng := { s.eng with fns := s.eng.fns ++ [pushedCommand s a q fn k min] }, uid := s.uid + 1 } := by
  unfold qpushEff
  rw [hbind]
  dsimp only
  rw [if_neg (Nat.not_lt.mpr hroom), hengine]
  rfl

/-- R197: a push that passes its checks sends its command and is counted. -/
theorem exec_qpush {s : State} {a q fn k : Nat} {min : Bool} (htx : inTx s = false) (ha : a + 1 ≤ s.g.nregs)
    (hh : hazard s [a] [] = false) (hp : poisonedLane s [a] = none) (hnew : s.sp.kept ≤ s.sp.replay) (hgoes : s.iss.stalled = false)
    (hbind : (s.g.queue q).bind = some (fn, k, min))
    (hroom : (s.g.queue q).entries.length + placesInFlight s s.g.gid q + (if fn = 7 then 2 else 1) ≤ 8)
    (hengine : fnQueueFull s s.g (fn == 7) = false) :
    exec (.qpush a q) s = .next { s with
      eng := { s.eng with fns := s.eng.fns ++ [pushedCommand s a q fn k min] }, uid := s.uid + 1,
      sp := { s.sp with replay := s.sp.replay + 1 } } := by
  have htrap : firstTrap [trapIf (inTx s) .txState, rangeTrap s [(a, 1)], boundTrap s q] = none := by
    simp [firstTrap_none, trapIf_none, htx, rangeTrap_none, ha, boundTrap_none (Option.isSome_of_eq_some hbind)]
  have heff := qpushEff_sends (a := a) hbind hroom hengine
  refine (issueWord_eff _ htrap hh).trans ?_
  rw [readGuard_clear _ hp, counted_acts hnew (by rw [heff]; exact hgoes), heff]
  rfl

/-! Taking the oldest entry. -/

/-- A change of the first element that a test picks, where it picks no other. -/
theorem updateFirst_eq_updateAll {α : Type} {p : α → Bool} {xs : List α} (h : xs.Pairwise (fun x y => p x = true → p y = false))
    (f : α → α) : updateFirst p f xs = updateAll p f xs := by
  induction xs with
  | nil => rfl
  | cons x xs ih =>
    obtain ⟨hx, hxs⟩ := List.pairwise_cons.mp h
    by_cases hp : p x = true
    · have hrest : updateAll p f xs = xs :=
        (List.map_congr_left fun y hy => by simp [hx y hy hp]).trans (List.map_id xs)
      simpa [updateFirst, updateAll, hp] using hrest.symm
    · simpa [updateFirst, updateAll, hp] using ih hxs

/-- R200: with one entry of each number, the entry of a number is the one that becomes taken. -/
theorem entries_take {x : QueueReg} (h : x.entries.Pairwise (fun a b => a.seq ≠ b.seq)) (seq split : Nat) :
    x.take seq split = { x with entries := x.entries.map (fun e => if e.seq = seq then { e with taken := some split } else e) } := by
  have hone : x.entries.Pairwise (fun a b => (a.seq == seq) = true → (b.seq == seq) = false) :=
    h.imp fun hne ha => by simpa using fun hb => hne ((beq_iff_eq.mp ha).trans hb.symm)
  simp only [QueueReg.take, updateFirst_eq_updateAll hone, updateAll, beq_iff_eq]

/-- R198, R199: an entry taken into a register. -/
def takenInto (d q : Nat) (e : QEntry) (s : State) : State :=
  vSet d (fun l => mapGet 0 e.data l) (putQueue q ((s.g.queue q).take e.seq s.sp.num) s)

/-- R193, R198: an entry taken into a register leaves the mask registers. -/
theorem takenInto_takes {s : State} {q : Nat} {e : QEntry} (h : (s.g.queue q).entries.Pairwise (fun x y => x.seq ≠ y.seq)) (d : Nat) :
    TakesEntry s (takenInto d q e s) q d e s.g.kregs := by
  refine ⟨fun r l hl => ?_, congrArg (s.g.queues.set q) (entries_take h e.seq s.sp.num), rfl, rfl⟩
  simp only [and_comm (a := r = d)]
  exact vGet_vSet d _ (putQueue q _ s) r hl

/-- R199: the mask register of a try is written beside the entry. -/
theorem takesEntry_kSet {s t : State} {q d m : Nat} {e : QEntry} {k : SMap W} (h : TakesEntry s t q d e k) (x : W) :
    TakesEntry s (kSet m x t) q d e (mapSet 0 k m x) := by
  obtain ⟨hregs, hqueues, hrest, hk⟩ := h
  exact ⟨hregs, hqueues, hrest, congrArg (mapSet 0 · m x) hk⟩

/-- R198, R199: no trap for a destination that exists and is no live-in, and a bound register. -/
theorem takeChecks_none {s : State} {d q : Nat} (hd : d + 1 ≤ s.g.nregs) (hl : s.g.live ≤ d) (hb : (s.g.queue q).bind.isSome) :
    firstTrap [rangeTrap s [(d, 1)], liveTrap s [d], boundTrap s q] = none := by
  simp [firstTrap_none, rangeTrap_none, liveTrap_none, hd, hl, boundTrap_none hb]

/-- R199: a try that passes its checks has its effect. -/
theorem exec_qtry {s : State} {d q : Nat} (m : Nat) (hd : d + 1 ≤ s.g.nregs) (hl : s.g.live ≤ d) (hh : hazard s [d] [] = false)
    (hb : (s.g.queue q).bind.isSome) : exec (.qtry d q m) s = .next (qtryEff d q m s) :=
  issueWord_eff (qtryEff d q m) (takeChecks_none hd hl hb) hh

/-- R198: a pop outside a transaction that passes its checks has its effect. -/
theorem exec_qpop {s : State} {d q : Nat} (htx : inTx s = false) (hd : d + 1 ≤ s.g.nregs) (hl : s.g.live ≤ d)
    (hh : hazard s [d] [] = false) (hb : (s.g.queue q).bind.isSome) : exec (.qpop d q) s = .next (qpopEff d q s) := by
  have htrap : firstTrap [trapIf (inTx s) .txState, rangeTrap s [(d, 1)], liveTrap s [d], boundTrap s q] = none := by
    rw [htx]
    exact takeChecks_none hd hl hb
  exact issueWord_eff (qpopEff d q) htrap hh

/-! The level word. -/

/-- R201: the fields of the level word of a bound register. -/
theorem levelWord_bound {s : State} {q fn k : Nat} {min : Bool} (hbind : (s.g.queue q).bind = some (fn, k, min)) :
    levelWord s q = (s.g.queue q).entries.countP (fun e => e.taken.isNone) + placesInFlight s s.g.gid q * 2 ^ 4 +
      (s.g.queue q).entries.countP (fun e => e.taken.isSome) * 2 ^ 8 + fn * 2 ^ 12 + k * 2 ^ 16 + (if min then 2 ^ 22 else 0) := by
  have hheld : (fun e : QEntry => e.taken == none) = (fun e => e.taken.isNone) := by funext e; cases e.taken <;> rfl
  have htaken : (fun e : QEntry => e.taken != none) = (fun e => e.taken.isSome) := by funext e; cases e.taken <;> rfl
  have hmin : bit01 min * 2 ^ 22 = if min then 2 ^ 22 else 0 := by cases min <;> rfl
  simp only [levelWord, hbind, Option.getD_some, hheld, htaken, hmin, List.countP_eq_length_filter]

end Sys2Proof.Machine
end

section
/-! An engine places the results of a command, and the statement about queue registers (R192 to R203, R332). -/

namespace Sys2Proof.Machine

open Sys2Proof Sys2Proof.Claims

/-- A group of a number reads as before in a view, where the view and the numbers are the same in all groups. -/
theorem groupOf?_view {γ : Type} {p : Group → γ} {s t : State}
    (h : groupsView (fun g => (g.gid, p g)) t = groupsView (fun g => (g.gid, p g)) s) (n : Nat) :
    (groupOf? t n).map p = (groupOf? s n).map p := by
  obtain ⟨hgs, hg⟩ := Prod.mk.inj h
  obtain ⟨hgid, hp⟩ := Prod.mk.inj hg
  have hall : (allGroups t).map (fun g => (g.gid, p g)) = (allGroups s).map (fun g => (g.gid, p g)) := by
    unfold allGroups
    rw [hgid]
    split
    · exact hgs
    · rw [List.map_cons, List.map_cons, hgs, hgid, hp]
  have hread (u : State) : (groupOf? u n).map p =
      (((allGroups u).map (fun g => (g.gid, p g))).find? (fun x => x.1 == n)).map Prod.snd := by
    rw [List.find?_map, Option.map_map]
    rfl
  rw [hread, hread, hall]

/-- R193: the number after those of a register's entries. -/
def entryAfter (x : QueueReg) : Nat := x.entries.foldl (fun m e => max m e.seq) 0 + 1

/-- R193: every entry has a number below the next. -/
theorem seq_lt_entryAfter {x : QueueReg} {e : QEntry} (h : e ∈ x.entries) : e.seq < entryAfter x := by
  have hmax : x.entries.foldl (fun m e => max m e.seq) 0 = max 0 ((x.entries.map QEntry.seq).max?.getD 0) := by
    rw [← List.foldl_max, List.foldl_map]
  have hle : e.seq ≤ (x.entries.map QEntry.seq).max?.getD 0 := List.le_max?_getD_of_mem (List.mem_map_of_mem h)
  rw [entryAfter, hmax]
  omega

/-- R193, R195: the entries that results make, numbered from n on. -/
def resultEntries (n : Nat) (rs : List (SMap W)) : List QEntry := rs.zipIdx.map (fun p => ⟨n + p.2, p.1, none⟩)

/-- R195: the entries that results make hold them in their order. -/
theorem data_resultEntries (n : Nat) (rs : List (SMap W)) : (resultEntries n rs).map (fun e => e.data) = rs := by
  rw [resultEntries, List.map_map]
  exact List.zipIdx_map_fst 0 rs

/-- R193: the entries that results make are not taken, and are numbered from n on. -/
theorem mem_resultEntries {n : Nat} {rs : List (SMap W)} {e : QEntry} (h : e ∈ resultEntries n rs) : e.taken = none ∧ n ≤ e.seq := by
  obtain ⟨p, -, rfl⟩ := List.mem_map.mp h
  exact ⟨rfl, Nat.le_add_right n p.2⟩

/-- R193: the entries that results make have rising numbers. -/
theorem pairwise_resultEntries (n : Nat) (rs : List (SMap W)) : (resultEntries n rs).Pairwise (fun x y => x.seq < y.seq) := by
  have hidx : rs.zipIdx.Pairwise (fun p q => p.2 < q.2) :=
    List.pairwise_map.mp (by rw [List.zipIdx_map_snd]; exact List.pairwise_lt_range')
  exact List.pairwise_map.mpr (hidx.imp fun h => Nat.add_lt_add_left h n)

/-- R195: a queue register with the results of a command behind its entries. -/
def withResults (c : FnCmd) (x : QueueReg) : QueueReg :=
  { x with entries := x.entries ++ resultEntries (entryAfter x) (fnResults c).1 }

/-- R193, R195: the results of a command come behind the entries of its register, in their order. -/
theorem withResults_follow (c : FnCmd) (x : QueueReg) : ∃ es, (withResults c x).entries = x.entries ++ es ∧
    es.map (fun e => e.data) = (fnResults c).1 ∧ (∀ e ∈ es, e.taken = none ∧ ∀ o ∈ x.entries, o.seq < e.seq) ∧
    es.Pairwise (fun a b => a.seq < b.seq) := by
  refine ⟨resultEntries (entryAfter x) (fnResults c).1, rfl, data_resultEntries _ _, fun e he => ?_, pairwise_resultEntries _ _⟩
  obtain ⟨htaken, hseq⟩ := mem_resultEntries he
  exact ⟨htaken, fun o ho => (seq_lt_entryAfter ho).trans_le hseq⟩

/-- R195, R203: a group that has received the results and the flags of a command. -/
def served (c : FnCmd) (g : Group) : Group :=
  { g.setQueue c.q (withResults c (g.queue c.q)) with flags := g.flags ||| (fnResults c).2 }

/-- R195: the register of a command has its results. -/
theorem queue_served {c : FnCmd} {g : Group} (h : c.q < g.queues.length) : (served c g).queue c.q = withResults c (g.queue c.q) :=
  nthD_set _ _ h

/-- R195: the other registers are as they were. -/
theorem queue_served_ne {c : FnCmd} {q : Nat} (h : q ≠ c.q) (g : Group) : (served c g).queue q = g.queue q :=
  nthD_set_ne _ _ _ (Ne.symm h)

/-- R194: a command taken off its engine's queue. -/
def commandDone (c : FnCmd) (s : State) : State :=
  { s with eng := { s.eng with fns := s.eng.fns.filter (fun k => k.uid != c.uid) } }

/-- R195, R332: the results of a command go to its group, and the conditions on its queues are evaluated. -/
theorem placeResults_eq (c : FnCmd) (s : State) :
    placeResults c s = evalMonitor c.gid (modGroup c.gid (fun g => if g.stopped then g else served c g) (commandDone c s)) := rfl

/-- R203: what a group keeps when the condition monitor evaluates its slots. -/
def servedView (g : Group) : Flags × SMap W × SMap W64 × SMap W × List QueueReg := (g.flags, g.regs, g.sregs, g.kregs, g.queues)

/-- R195, R203, R332: where no group is in focus, the group of a command that goes on has its results and flags. -/
theorem groupOf?_placeResults {s : State} {g : Group} {c : FnCmd} (hs : s.g.gid = 0) (h0 : c.gid ≠ 0) (hg : groupOf? s c.gid = some g)
    (hgoes : g.stopped = false) : ∃ h, groupOf? (placeResults c s) c.gid = some h ∧ servedView h = servedView (served c g) := by
  have hgid : g.gid = c.gid := by simpa using List.find?_some hg
  have hserve : (if g.stopped then g else served c g) = served c g := if_neg (by simp [hgoes])
  have hmod := groupOf?_modGroup (s := commandDone c s) (f := fun x => if x.stopped then x else served c x) hs (hgid.trans_ne h0)
    (hgid.symm ▸ hg) (by rw [hserve]; rfl)
  rw [hgid, hserve] at hmod
  have hview := groupOf?_view (p := servedView) (groupsView_evalMonitor (fun _ _ _ => rfl) c.gid
    (modGroup c.gid (fun x => if x.stopped then x else served c x) (commandDone c s))) c.gid
  rw [hmod, ← placeResults_eq] at hview
  exact Option.map_eq_some_iff.mp hview

/-- R194, R195: placing results changes the groups and takes the command off its queue. -/
theorem placeResults_frame (c : FnCmd) (s : State) : withGroupsOf s (placeResults c s) = commandDone c s := by
  rw [placeResults_eq, withGroupsOf_evalMonitor, withGroupsOf_modGroup]
  rfl

/-- R194: the engine of a quad, the select engine or the function unit, places the results of its oldest command. -/
theorem exec_placesResults {s : State} {c : FnCmd} {select : Bool}
    (h : s.eng.fns.find? (fun x => x.die == c.die && x.quad == c.quad && ((x.fn == 7) == select)) = some c) :
    exec (if select then .selectResultPlace c.die c.quad else .functionResultPlace c.die c.quad) s = .next (placeResults c s) := by
  cases select with
  | false =>
    have hfind : s.eng.fns.find? (fun x => x.die == c.die && x.quad == c.quad && x.fn != 7) = some c := by simpa [bne] using h
    change execFunctionResultPlace c.die c.quad s = _
    rw [execFunctionResultPlace, hfind]
  | true =>
    have hfind : s.eng.fns.find? (fun x => x.die == c.die && x.quad == c.quad && x.fn == 7) = some c := by simpa using h
    change execSelectResultPlace c.die c.quad s = _
    rw [execSelectResultPlace, hfind]

/-- Settles O25: each word is its effect on its register, and an engine serves the group of its oldest command. -/
theorem queuesServeFunctions : Obligations.QueuesServeFunctions := by
  refine ⟨?bind, ?push, ?take, ?tryEmpty, ?level, ?engine⟩
  case bind =>
    intro q dir k fn s hnew hgoes hidle
    exact ⟨counted_putQueue (qbindEff_binds (inFlight_nil hidle) dir k fn) hnew hgoes,
      counted_putQueue (qunbindEff_unbinds (inFlight_nil hidle)) hnew hgoes⟩
  case push =>
    intro a q s fn k min htx ha hh hp hnew hgoes hbind hroom hengine
    exact ⟨_, pushedCommand s a q fn k min, exec_qpush htx ha hh hp hnew hgoes hbind hroom hengine, rfl, rfl, rfl, rfl, rfl, rfl, rfl,
      rfl, rfl, fun l hl => mapGet_pushedCommand s a q fn k min hl⟩
  case take =>
    intro d q m s e hd hl hh hb hold hseqs
    have htakes := takenInto_takes hseqs (e := e) d
    have hpop : qpopEff d q s = takenInto d q e s := by
      rw [qpopEff, hold]
      rfl
    have htry : qtryEff d q m s = kSet m s.sp.em (takenInto d q e s) := by
      rw [qtryEff, hold]
      rfl
    exact ⟨fun htx => ⟨_, (exec_qpop htx hd hl hh hb).trans (congrArg _ hpop), htakes⟩,
      _, (exec_qtry m hd hl hh hb).trans (congrArg _ htry), takesEntry_kSet htakes s.sp.em⟩
  case tryEmpty =>
    intro d q m s hd hl hh hb hnone
    have htry : qtryEff d q m s = kSet m 0 s := by rw [qtryEff, hnone]
    exact (exec_qtry m hd hl hh hb).trans (congrArg _ htry)
  case level =>
    intro d q fn k min s hh hbind
    have htrap := boundTrap_none (s := s) (q := q) (Option.isSome_of_eq_some hbind)
    refine ⟨_, issueWord_eff (fun t => sSet d (BitVec.ofNat 64 (levelWord t q)) t) htrap hh, ?_⟩
    rw [levelWord_bound hbind]
    exact sSet_scalarWrites d _ s
  case engine =>
    intro s g c select hs h0 hg hgoes _ hq hhead
    obtain ⟨h, hh, hview⟩ := groupOf?_placeResults hs h0 hg hgoes
    simp only [servedView, Prod.mk.injEq] at hview
    obtain ⟨hflags, hregs, hsregs, hkregs, hqueues⟩ := hview
    have hread (q : Nat) : h.queue q = (served c g).queue q := congrArg (nthD QueueReg.unbound · q) hqueues
    have hframe := placeResults_frame c s
    have hqueue : h.queue c.q = withResults c (g.queue c.q) := (hread c.q).trans (queue_served hq)
    exact ⟨_, h, exec_placesResults hhead, hh, hflags, hregs, hsregs, hkregs, hqueue ▸ withResults_follow c (g.queue c.q),
      fun q hne => (hread q).trans (queue_served_ne hne g), (congrArg (fun u : State => u.eng.fns) hframe :),
      (congrArg State.mem hframe :), (congrArg State.wq hframe :)⟩

end Sys2Proof.Machine
end

section
/-! A blocked split that an event lets go on, and the waits for quiescence (R205, R229, R230, R365). -/

namespace Sys2Proof.Machine

open Sys2Proof Sys2Proof.Claims

/-- The end of a blocked word changes the split alone: the registers are as before. -/
theorem runMicros_nil_g (s : State) : (runMicros [] s).g = s.g := (congrArg State.g (runMicros_nil_frame s) :)

/-- R205: the split that an event finds in focus has the part that the event ends, and goes on after it. -/
theorem finishPart_of_at {s u : State} {gid num : Nat} (h : At s gid num u) {m : Micro} {ms : List Micro} (hpend : u.sp.pend = m :: ms)
    {p : Micro → Bool} (hp : p m = true) {f : Micro → State → State} (hg : (runMicros ms (f m u)).g.gid = u.g.gid)
    (hgs : (runMicros ms (f m u)).groups = u.groups) :
    finishPart gid num p f s = unfocus (runMicros ms (f m u)) := by
  have hgoes : (fun t : State => match t.sp.pend with
      | m :: ms => if p m then runMicros ms (f m t) else t
      | [] => t) u = runMicros ms (f m u) := by simp only [hpend, hp, if_true]
  rw [← hgoes] at hg hgs ⊢
  exact onSplit_of_at h hg hgs

/-- To bring a split into focus changes neither memory nor time. -/
theorem at_keeps {s u : State} {gid num : Nat} (h : At s gid num u) : u.mem = s.mem ∧ u.wq = s.wq ∧ u.tick = s.tick := by
  obtain ⟨-, g, -, -, -, hrest⟩ := focusFor?_of_at h
  exact ⟨(congrArg State.mem hrest :), (congrArg State.wq hrest :), (congrArg State.tick hrest :)⟩

/-- The group in focus for an event has a number. -/
theorem at_gid {s u : State} {gid num : Nat} (h : At s gid num u) : u.g.gid ≠ 0 := by
  obtain ⟨-, g, hg, -, ⟨ps, hown⟩, -⟩ := focusFor?_of_at h
  obtain ⟨hsettled, hgids, -⟩ := h
  rw [hown]
  exact hgids g (List.mem_of_find?_eq_some (groupOf?_unfocused (congrArg Group.gid hsettled.1) gid ▸ hg))

/-- R230: a wait for quiescence whose condition holds ends with its result, and its split goes on. -/
theorem endQuiesce_of_at {s u : State} {gid num d dl : Nat} {pod : Bool} (h : At s gid num u) (hpend : u.sp.pend = [.quiesce pod d dl])
    {ok : State → Bool → Nat → Bool} (hok : ok s pod dl = true) (res : W64) :
    ∃ v, endQuiesce gid num ok res s = unfocus v ∧ sGet v d = res ∧ v.sp.pend = [] ∧ (∀ r, r ≠ d → sGet v r = sGet u r) ∧
      v.g.regs = u.g.regs ∧ v.mem = s.mem ∧ v.wq = s.wq := by
  obtain ⟨hmem, hwq, -⟩ := at_keeps h
  have hframe := runMicros_nil_frame (sSet d res u)
  have hg := runMicros_nil_g (sSet d res u)
  have hscalar (r : Nat) : sGet (runMicros [] (sSet d res u)) r = if r = d then res else sGet u r := by rw [sGet, hg, ← sGet, sGet_sSet]
  refine ⟨runMicros [] (sSet d res u), finishPart_of_at (m := .quiesce pod d dl) h hpend ?_ ?_ (congrArg State.groups hframe :),
    (hscalar d).trans (if_pos rfl), runMicros_nil_pend _, fun r hr => (hscalar r).trans (if_neg hr), (congrArg Group.regs hg :),
    (congrArg State.mem hframe :).trans hmem, (congrArg State.wq hframe :).trans hwq⟩
  · exact hok
  · exact (congrArg Group.gid hg :)

/-- R230: a wait for quiescence whose condition does not hold is put back as it was found. -/
theorem endQuiesce_holds {s u : State} {gid num d dl : Nat} {pod : Bool} (h : At s gid num u) (hpend : u.sp.pend = [.quiesce pod d dl])
    {ok : State → Bool → Nat → Bool} (hok : ok s pod dl = false) (res : W64) : endQuiesce gid num ok res s = unfocus u := by
  have hgoes : (fun t : State => match t.sp.pend with
      | m :: ms => if (match m with | .quiesce pod _ dl => ok s pod dl | _ => false) then
          runMicros ms (match m with | .quiesce _ d _ => sSet d res t | _ => t) else t
      | [] => t) u = u := by simp [hpend, hok]
  exact (onSplit_of_at h (congrArg (fun v => v.g.gid) hgoes) (congrArg State.groups hgoes)).trans (congrArg unfocus hgoes)

/-- The state with no group in focus, but with the registers of the group that was. -/
def withRegisters (u : State) : State := { unfocus u with g := { Group.idle with regs := u.g.regs, sregs := u.g.sregs } }

/-- Registers without a group are lost when the state is settled. -/
theorem unfocus_withRegisters {u : State} (h : u.g.gid ≠ 0) (r : Nat) (x : W64) : unfocus (sSet r x (withRegisters u)) = unfocus u := by
  rw [withRegisters, unfocus_focused h]
  rfl

/-- R230: a word that waits for quiescence holds its split at the wait. -/
theorem quiesceWord_waits {pod : Bool} {t d : Nat} {s : State} (hmay : mayQuiesce s = true) (hh : hazard s [] [t, d] = false) :
    quiesceWord pod t d s = .next { s with sp := { s.sp with
      pend := [.quiesce pod d (s.tick + (sGet s t).toNat)], pendAt := (s.iss.clause, s.iss.word) } } :=
  (issueWord_eff _ (by simp [trapIf, hmay]) hh).trans rfl

/-- Settles O31: the word waits at one part; each event finds it, writes its result and lets the split go on. The idle event looks at
the idle tree of the state before it: in a state where a second group or split bears the number of the one in focus, that tree can be
low although the tree of u is high. There the wait goes on; the statement, which does not ask that a group is in focus in v, admits it. -/
theorem quiescenceEnds : Obligations.QuiescenceEnds := by
  unfold Obligations.QuiescenceEnds
  refine ⟨fun t d s hmay hh => ⟨quiesceWord_waits hmay hh, quiesceWord_waits hmay hh⟩, fun s u gid num d dl pod h hpend => ⟨?idle, ?late⟩⟩
  case idle =>
    intro _ _ _
    cases hquiet : quiet s pod
    · have hstays := endQuiesce_holds (ok := fun t pod _ => quiet t pod) h hpend hquiet 0
      obtain ⟨hmem, hwq, -⟩ := at_keeps h
      have hfocus := unfocus_focused (at_gid h)
      refine ⟨sSet d 0 (withRegisters u), congrArg Host.Outcome.next (hstays.trans (unfocus_withRegisters (at_gid h) d 0).symm),
        (sGet_sSet ..).trans (if_pos rfl), (congrArg (fun v => v.sp.pend) hfocus :), fun r hr => (sGet_sSet ..).trans (if_neg hr), rfl,
        (congrArg State.mem hfocus :).trans hmem, (congrArg State.wq hfocus :).trans hwq⟩
    · obtain ⟨v, heq, hv⟩ := endQuiesce_of_at (ok := fun t pod _ => quiet t pod) h hpend hquiet 0
      exact ⟨v, congrArg Host.Outcome.next heq, hv⟩
  case late =>
    intro hdl
    obtain ⟨v, heq, hv⟩ := endQuiesce_of_at (ok := fun t _ dl => decide (dl ≤ t.tick)) h hpend (decide_eq_true hdl) 1
    exact ⟨v, congrArg Host.Outcome.next heq, hv⟩

end Sys2Proof.Machine
end

section
/-! A transaction begins, is sent, and is given up (R226 to R228, R319). -/

namespace Sys2Proof.Machine

open Sys2Proof Sys2Proof.Claims

/-! Begin. -/

/-- R300: of the group's transaction a boundary leaves all but one of its split that has ended. -/
theorem commitRegion_tx (s : State) :
    (commitRegion s).g.tx = s.g.tx.filter (fun x => !(x.split == s.sp.num && x.phase == TxPhase.ended)) := by
  have hbeats (n : Nat) (u : State) : (addBeats n u).g.tx = u.g.tx := by
    unfold addBeats
    split <;> rfl
  have hpend (u : State) (p : Pending) : (applyPending p u).g.tx = u.g.tx := by cases p <;> rfl
  unfold commitRegion
  exact congrArg (Option.filter _) ((foldl_keeps (fun u : State => u.g.tx) hpend _ _).trans (hbeats s.sp.beats _))

/-- R226: where the group has no transaction, one starts. -/
theorem runMicro_txStart {s : State} (h : s.g.tx = none) (mask : W) : runMicro (.txStart mask) s = .done (startTx mask s) :=
  if_neg (by simp [h])

/-- R226: to start a transaction leaves nothing outstanding. -/
theorem quiet_startTx {s : State} (h : Quiet s) (mask : W) : Quiet (startTx mask s) := h

/-- R226: a transaction of a group with nothing outstanding begins at once. -/
theorem execTxBegin_begins {s : State} (hin : inTx s = false) (hq : Quiet s) (htx : s.g.tx = none) :
    exec .txBegin s = .next (runMicros [] (startTx s.sp.em (afterBoundary s))) := by
  have hnone : (afterBoundary s).g.tx = none := by simp [afterBoundary, commitRegion_tx, atWord, htx]
  have hquiet : Quiet (startTx s.sp.em (afterBoundary s)) := quiet_startTx (quiet_afterBoundary hq) _
  refine (issueWord_eff _ (by simp [closingTrap, trapIf, hin]) (hazard_nil s)).trans (congrArg _ ?_)
  have hdrained : runMicro .drained (startTx s.sp.em (afterBoundary s)) = .done (startTx s.sp.em (afterBoundary s)) :=
    waitUntil_true (quiet_storesPerformed hquiet _) _ _
  rw [blockOn_boundary (quiet_canEnd hq), runMicros_done (runMicro_txStart hnone _), runMicros_done hdrained]

/-! End. -/

/-- R227: the lane rule changes the failed lanes alone. -/
theorem laneRule_frame (ls rd wr : List Nat) (t : Tx) : { laneRule ls rd wr t with failed := t.failed } = t := by
  induction ls generalizing rd wr t with
  | nil => rfl
  | cons l ls ih =>
    unfold laneRule
    dsimp only
    split_ifs
    · exact ih rd wr t
    · exact congrArg (fun x : Tx => { x with failed := t.failed }) (ih rd wr _)
    · exact ih _ _ t

/-- R322: a commit that names no poisoned line has no record of one. -/
theorem txPoison_nil {s : State} {t : Tx}
    (h : ∀ a ∈ t.log.map (fun e => e.2.1) ++ t.writes.map (fun w => w.2.1 / 8 * 8), ∀ f,
      accessIn s s.g.ctx ⟨false, false, false⟩ a = .ok f → isPoisoned s f.phys = false) : txPoison s t = [] := by
  have hclean (kind l w : Nat) (hw : w ∈ t.log.map (fun e => e.2.1) ++ t.writes.map (fun w => w.2.1 / 8 * 8)) :
      (match accessIn s s.g.ctx ⟨false, false, false⟩ w with
        | .ok f => if isPoisoned s f.phys then some (faultOf s kind (laneBit l) w f.dom ⟨3, false, 0⟩) else none
        | .error _ => none) = none := by
    cases hacc : accessIn s s.g.ctx ⟨false, false, false⟩ w with
    | error e => rfl
    | ok f => simp [h w hw f hacc]
  have hread {l w : Nat} (hw : w ∈ txReads t l) : w ∈ t.log.map (fun e => e.2.1) := by
    obtain ⟨e, he, rfl⟩ := List.mem_map.mp hw
    exact List.mem_map_of_mem (List.mem_filter.mp he).1
  have hwrite {l w : Nat} (hw : w ∈ txWrites t l) : w ∈ t.writes.map (fun w => w.2.1 / 8 * 8) := by
    obtain ⟨e, he, rfl⟩ := List.mem_map.mp (List.mem_eraseDups.mp hw)
    exact List.mem_map_of_mem (List.mem_filter.mp he).1
  simp only [txPoison, List.append_eq_nil_iff, List.flatMap_eq_nil_iff, List.filterMap_eq_nil_iff]
  exact ⟨fun l _ w hw => hclean 8 l w (List.mem_append_left _ (hread hw)),
    fun l _ w hw => hclean 9 l w (List.mem_append_right _ (hwrite hw))⟩

/-- R227, R319: the transaction as it is sent. -/
def sentTx (t : Tx) : Tx := { laneRule (txOrder t) [] [] t with phase := .sent }

/-- The transaction of the group in focus replaced. -/
def withTx (t : Tx) (s : State) : State := { s with g := { s.g with tx := some t } }

/-- R227, R319: a transaction whose region can end, with no load under way, nothing poisoned and no serial lane, is sent. -/
theorem runMicro_txSend {s : State} {t : Tx} (htx : s.g.tx = some t) (hend : CanEnd s) (hserial : t.serial = 0)
    (hloads : ∀ d ∈ s.ms.loads, d.gid ≠ s.g.gid) (hclean : txPoison s t = []) :
    runMicro .txSend s = .done (withTx (sentTx t) s) := by
  obtain ⟨hclaims, hfaults⟩ := hend
  have hidle : s.ms.loads.any (fun d => (ownTx? s d).isSome && d.gid == s.g.gid && d.split == s.sp.num) = false := by
    simp only [List.any_eq_false]
    exact fun d hd => by simp [hloads d hd]
  have htoken : (survivors t).any (inMask t.serial) = false := by simp [hserial, inMask]
  simp only [runMicro, runTxSend, htx, hclaims, hidle, hfaults, hclean, htoken]
  rfl

/-- R227: the end of a transaction waits until the commit has been decided. -/
theorem runMicro_txWait {s : State} {t : Tx} (htx : s.g.tx = some t) (hsplit : t.split = s.sp.num) :
    runMicro .txWait s = .wait .txWait s := waitUntil_false (by simp [htx, hsplit]) _ _

/-- The state in which a transaction has been sent and its split waits for the commit. -/
def txSent (t : Tx) (s : State) : State :=
  { withTx (sentTx t) s with sp := { s.sp with pendAt := (s.iss.clause, s.iss.word), pend := [.txWait, .boundary] } }

/-- R227: the end of a transaction sends it and waits. -/
theorem execTxEnd_sends {s : State} {t : Tx} (hin : inTx s = true) (htx : s.g.tx = some t) (hsplit : t.split = s.sp.num) (hend : CanEnd s)
    (hserial : t.serial = 0) (hloads : ∀ d ∈ s.ms.loads, d.gid ≠ s.g.gid) (hclean : txPoison s t = []) :
    exec .txEnd s = .next (txSent t s) := by
  have hsent : (sentTx t).split = s.sp.num := (congrArg Tx.split (laneRule_frame (txOrder t) [] [] t) :).trans hsplit
  refine (issueWord_eff _ (by simp [trapIf, hin]) (hazard_nil s)).trans (congrArg _ ?_)
  exact (runMicros_done (runMicro_txSend (s := atWord s) htx hend hserial hloads hclean) _).trans
    (runMicros_wait (runMicro_txWait (s := withTx (sentTx t) (atWord s)) (t := sentTx t) rfl hsent) _)

/-! Abort. -/

/-- R228: the status of a transaction of which no lane has succeeded, all for one cause. -/
theorem txStatus_allFail {mask : W} (hmask : mask ≠ 0) {cause : Nat} (hcause : cause < 16) (code : Nat) (counts : SMap Nat) :
    let w := (txStatus mask 0 ((lanesOf mask).map (fun l => (l, cause))) code false counts).toNat
    bitsOf w 31 0 = 0 ∧ bitsOf w 35 32 = cause ∧ bitsOf w 47 40 = code % 256 := by
  obtain ⟨l, ls, hlanes⟩ : ∃ l ls, lanesOf mask = l :: ls := by
    refine List.exists_cons_of_ne_nil fun hnil => hmask ?_
    have hnone (l : Nat) : inMask mask l = false := by
      rw [← Bool.not_eq_true, ← mem_lanesOf, hnil]
      simp
    exact BitVec.eq_of_getLsbD_eq fun i hi => (hnone i).trans (by simp)
  have hall : mask &&& ~~~(0 : W) = mask := BitVec.and_allOnes
  simp only [txStatus, hall, hlanes, List.head?_cons, List.map_cons, Option.bind_some, List.find?_cons, beq_self_eq_true, Option.map_some,
    Option.getD_some, bitsOf, BitVec.toNat_ofNat]
  have : mapGet 0 counts l % 16 < 16 := Nat.mod_lt _ (by decide)
  have : code % 256 < 256 := Nat.mod_lt _ (by decide)
  generalize mapGet 0 counts l % 16 = fails at *
  generalize code % 256 = c at *
  have hzero : (0 : W).toNat = 0 := rfl
  simp only [hzero]
  refine ⟨?_, ?_, ?_⟩ <;> simp <;> omega

/-- R227, R228: a transaction given up by its program has succeeded in no lane. -/
theorem giveUpTx_eq {s : State} {t : Tx} (htx : s.g.tx = some t) (code : Nat) :
    let causes := (lanesOf t.mask).map (fun l => (l, 5))
    let u := releaseToken s.g.gid s
    giveUpTx code s = { u with
      g := { u.g with tx := some { t with log := [], writes := [], failed := [], phase := .ended, token := false, locked := [] },
                      failCounts := txCounts t.mask 0 causes s.g.failCounts, kregs := mapSet 0 s.g.kregs 7 0,
                      txstat := txStatus t.mask 0 causes code false (txCounts t.mask 0 causes s.g.failCounts) },
      ms := { u.ms with entries := u.ms.entries.filter (fun e => !(e.gid == s.g.gid && e.tx)) } } := by
  have hcauses : ((lanesOf t.mask).map (fun l => (l, 5))).any (fun k : Nat × Nat => k.2 == 1 || k.2 == 2) = false := by simp
  have hserial : ((0 : W) &&& t.serial != 0) = false := by simp
  simp only [giveUpTx, endTx, htx, hcauses, hserial]
  rfl

/-- R227: a transaction given up leaves no lane in k7, and the other mask registers as they are. -/
theorem kGet_giveUpTx {s : State} {t : Tx} (htx : s.g.tx = some t) (code k : Nat) :
    kGet (giveUpTx code s) k = if k = 7 then 0 else kGet s k := by
  rw [giveUpTx_eq htx]
  exact mapGet_mapSet (0 : W) s.g.kregs 7 k 0

/-- Settles O30, word by word. -/
theorem transactionWords : Obligations.TransactionWords := by
  unfold Obligations.TransactionWords
  refine ⟨fun s hin htx hq => ?begin, fun s t htx hsplit hphase hend hserial hloads hpoison => ?send, fun c s t htx hsplit hphase hmask => ?abort⟩
  case begin =>
    obtain ⟨hnum, hem⟩ := Prod.mk.inj (commitRegion_lanesView (atWord s))
    refine ⟨_, _, execTxBegin_begins hin hq htx, kept_trans (afterBoundary_kept s) (runMicros_nil_kept (startTx s.sp.em (afterBoundary s))),
      runMicros_nil_pend _, (congrArg Group.tx (runMicros_nil_g _) :), hnum, rfl, rfl, rfl, rfl, rfl⟩
  case send =>
    have hin : inTx s = true := by simp [inTx, htx, hsplit, hphase]
    have hframe := laneRule_frame (txOrder t) [] [] t
    exact ⟨txSent t s, sentTx t, execTxEnd_sends hin htx hsplit hend hserial hloads (txPoison_nil hpoison),
      ⟨rfl, rfl, rfl, rfl, rfl, rfl, rfl, rfl, rfl⟩, rfl, rfl, rfl, (congrArg Tx.mask hframe :), (congrArg Tx.log hframe :),
      (congrArg Tx.writes hframe :)⟩
  case abort =>
    have hin : inTx s = true := by simp [inTx, htx, hsplit, hphase]
    obtain ⟨hsucc, hcause, hcode⟩ := txStatus_allFail hmask (cause := 5) (by decide) c
      (txCounts t.mask 0 ((lanesOf t.mask).map (fun l => (l, 5))) s.g.failCounts)
    refine ⟨giveUpTx c s, issueWord_eff _ (by simp [trapIf, hin]) (hazard_nil s), ?_⟩
    have hk (k : Nat) := kGet_giveUpTx htx c k
    rw [giveUpTx_eq htx] at hk ⊢
    refine ⟨by simp [inTx], (hk 7).trans (if_pos rfl), fun k hne => (hk k).trans (if_neg hne), hsucc, hcause, hcode,
      fun e he ⟨hgid, htrue⟩ => ?_, rfl, rfl, rfl, rfl, rfl⟩
    simpa [hgid, htrue] using (List.mem_filter.mp he).2

end Sys2Proof.Machine
end

section
/-! The condition monitor on the group in focus (R220, R332). -/

namespace Sys2Proof.Machine

open Sys2Proof Sys2Proof.Claims

/-- A group in focus is the group of its number. -/
theorem groupOf?_focus {s : State} (h : s.g.gid ≠ 0) : groupOf? s s.g.gid = some s.g := by
  simp [groupOf?, allGroups, h]

/-- A slot of a group that it has. -/
theorem slot_of_getElem? {g : Group} {i : Nat} {x : Slot} (h : g.slots[i]? = some x) : g.slot i = x := by
  simp [Group.slot, nthD, h]

/-- R220: a slot as a fire of its condition leaves it. -/
def Slot.fire (x : Slot) : Slot := { x with st := .fired, forced := false, answered := true }

/-- R220: a fire of an armed slot of the group in focus. -/
theorem slots_fireSlot_same {s : State} {i : Nat} {x : Slot} (h : s.g.gid ≠ 0) (hx : s.g.slots[i]? = some x) (harmed : x.st = .armed) :
    (fireSlot s.g.gid i x.gen false s).g.slots[i]? = some x.fire := by
  have hi : i < s.g.slots.length := (List.getElem?_eq_some_iff.mp hx).1
  have hslot := slot_of_getElem? hx
  simp [fireSlot, groupOf?_focus h, hslot, modGroup, modSplits, Group.setSlot, harmed, Slot.fire, hi]

/-- R220: a fire leaves the other slots of the group in focus. -/
theorem slots_fireSlot_other {s : State} {i j gen : Nat} {forced : Bool} (hij : i ≠ j) :
    (fireSlot s.g.gid i gen forced s).g.slots[j]? = s.g.slots[j]? := by
  unfold fireSlot
  dsimp only
  split
  · simp [modGroup, modSplits, Group.setSlot, List.getElem?_set_ne hij]
  · rfl

/-- R332: one step of the monitor: a slot of g fires where it is armed and its condition holds. -/
def monitorSlot (g : Group) (t : State) (i : Nat) : State :=
  if (g.slot i).st = .armed ∧ (g.slot i).cond.monitored ∧ condHolds t g (g.slot i).cond then fireSlot g.gid i (g.slot i).gen false t else t

/-- What a condition of a group depends on, beside the group. -/
def condView (s : State) : List Span × Fabric := (s.spans, s.fab)

theorem condHolds_congr {s t : State} (h : condView t = condView s) (g : Group) (c : Cond) : condHolds t g c = condHolds s g c := by
  obtain ⟨hspans, hfab⟩ := Prod.mk.inj h
  have hpool : poolFree t g.die g.ctx = poolFree s g.die g.ctx := by
    unfold poolFree
    rw [hfab]
  cases c <;> simp only [condHolds, spanOf?_congr hspans, hpool, hfab]

/-- R332: the monitor's steps leave what conditions depend on, and the number of the group in focus. -/
theorem monitorSlots_keep (g : Group) (is : List Nat) (s : State) :
    condView (is.foldl (monitorSlot g) s) = condView s ∧ (is.foldl (monitorSlot g) s).g.gid = s.g.gid := by
  have hstep (t : State) (i : Nat) : condView (monitorSlot g t i) = condView t ∧ (monitorSlot g t i).g.gid = t.g.gid := by
    unfold monitorSlot
    split
    · exact ⟨(congrArg condView (withGroupsOf_fireSlot t g.gid i (g.slot i).gen false t) :),
        (congrArg Prod.snd (groupsView_fireSlot (p := Group.gid) (fun _ _ _ => rfl) g.gid i (g.slot i).gen false t) :)⟩
    · exact ⟨rfl, rfl⟩
  exact ⟨foldl_keeps condView (fun t i => (hstep t i).1) is s, foldl_keeps (fun t : State => t.g.gid) (fun t i => (hstep t i).2) is s⟩

/-- R332: the monitor's steps leave a slot of the group in focus that they do not name. -/
theorem monitorSlots_other {g : Group} {n : Nat} {is : List Nat} (hn : n ∉ is) {s : State} (hs : s.g.gid = g.gid) :
    (is.foldl (monitorSlot g) s).g.slots[n]? = s.g.slots[n]? := by
  induction is generalizing s with
  | nil => rfl
  | cons i is ih =>
    obtain ⟨hne, hrest⟩ := List.ne_and_not_mem_of_not_mem_cons hn
    have hgid : (monitorSlot g s i).g.gid = g.gid := (monitorSlots_keep g [i] s).2.trans hs
    rw [List.foldl_cons, ih hrest hgid, monitorSlot]
    split
    · rw [← hs]
      exact slots_fireSlot_other hne.symm
    · rfl

/-- R332: the monitor fires an armed slot of the group in focus exactly where its condition holds. -/
theorem evalMonitor_slot {s : State} {n : Nat} {x : Slot} (h : s.g.gid ≠ 0) (hres : s.g.residence = .resident) (hn : n < 4)
    (hx : s.g.slots[n]? = some x) (harmed : x.st = .armed) (hkind : x.cond.monitored = true) :
    (evalMonitor s.g.gid s).g.slots[n]? = some (if condHolds s s.g x.cond then x.fire else x) := by
  have heval : evalMonitor s.g.gid s = [0, 1, 2, 3].foldl (monitorSlot s.g) s := by
    simp only [evalMonitor, groupOf?_focus h, hres, if_true]
    rfl
  obtain ⟨before, after, hsplit⟩ := List.append_of_mem (show n ∈ [0, 1, 2, 3] by simp; omega)
  obtain ⟨hafter, hbefore⟩ : n ∉ after ∧ n ∉ before := by
    have hnodup : [0, 1, 2, 3].Nodup := by decide
    rw [hsplit, List.nodup_middle] at hnodup
    exact ⟨fun hm => (List.nodup_cons.mp hnodup).1 (List.mem_append_right _ hm), fun hm => (List.nodup_cons.mp hnodup).1 (List.mem_append_left _ hm)⟩
  obtain ⟨hview, hgid⟩ := monitorSlots_keep s.g before s
  rw [heval, hsplit, List.foldl_append, List.foldl_cons]
  generalize hu : before.foldl (monitorSlot s.g) s = u at hview hgid ⊢
  have hux : u.g.slots[n]? = some x := by rw [← hu, monitorSlots_other hbefore rfl, hx]
  have hnext : (monitorSlot s.g u n).g.gid = s.g.gid := (monitorSlots_keep s.g [n] u).2.trans hgid
  rw [monitorSlots_other hafter hnext, monitorSlot, slot_of_getElem? hx, condHolds_congr hview]
  cases hc : condHolds s s.g x.cond
  · simpa using hux
  · rw [if_pos ⟨harmed, hkind, rfl⟩, if_pos rfl, ← hgid]
    exact slots_fireSlot_same (hgid ▸ h) hux harmed

/-- The registers of a group that a word may write. -/
def wordRegs (g : Group) : SMap W × SMap W64 × SMap W × SMap W × Flags × W := (g.regs, g.sregs, g.kregs, g.rng, g.flags, g.fmode)

/-- R332: the monitor changes no register, memory or trap record. -/
theorem evalMonitor_kept (gid : Nat) (s : State) : Kept s (evalMonitor gid s) := by
  have hregs := congrArg Prod.snd (groupsView_evalMonitor (p := wordRegs) (fun _ _ _ => rfl) gid s)
  simp only [groupsView, wordRegs, Prod.mk.injEq] at hregs
  obtain ⟨h1, h2, h3, h4, h5, h6⟩ := hregs
  have hframe := withGroupsOf_evalMonitor s gid s
  exact ⟨h1, h2, h3, h4, h5, h6, (congrArg State.mem hframe :), (congrArg State.wq hframe :), (congrArg State.traps hframe :)⟩

end Sys2Proof.Machine
end

section
/-! A slot is armed (R219 to R222, R326, R332). -/

namespace Sys2Proof.Machine

open Sys2Proof Sys2Proof.Claims

/-! A slot armed with the condition of a word. -/

/-- R326: the registration of a condition of a word that is sent to its home. -/
def wordReg (s : State) (n addr cmp : Nat) (x : W64) (w64 isWaitu region : Bool) : WatchReg :=
  ⟨s.uid, s.g.gid, s.sp.num, n, ((s.g.slot n).gen + 1) % 256, addr, cmp, x, w64, isWaitu, region⟩

/-- R220, R326: to arm a slot with a condition of a word changes, beside the watch tables and their side band, the slot alone. -/
theorem armSlot_word (n addr cmp : Nat) (x : W64) (w64 isWaitu region : Bool) (s : State) :
    let t := armSlot n (.word addr cmp x w64) isWaitu region s
    t.g = s.g.setSlot n ⟨.armed, .word addr cmp x w64, false, ((s.g.slot n).gen + 1) % 256, false⟩ ∧
      wordReg s n addr cmp x w64 isWaitu region ∈ t.wat.regs ∧
      { t with side := s.side, wat := s.wat, g := s.g, uid := s.uid } = s := by
  have hframe := withWatchesOf_withdrawSlot s s.g n s
  have hg : (withdrawSlot s.g n s).g = s.g := (congrArg State.g hframe :)
  have huid : (withdrawSlot s.g n s).uid = s.uid := (congrArg State.uid hframe :)
  refine ⟨congrArg (Group.setSlot n _) hg, List.mem_append_right _ ?_, (congrArg (fun u : State => { u with g := s.g, uid := s.uid }) hframe :)⟩
  exact List.mem_singleton.mpr (congrArg (fun k => (⟨k, s.g.gid, s.sp.num, n, ((s.g.slot n).gen + 1) % 256, addr, cmp, x, w64, isWaitu, region⟩ : WatchReg)) huid).symm

/-- R220, R326: a slot that the group has is armed, and its registration is on its way. -/
theorem armSlot_arms {n : Nat} {s : State} (hn : n < s.g.slots.length) (addr cmp : Nat) (x : W64) (w64 isWaitu region : Bool) :
    let t := armSlot n (.word addr cmp x w64) isWaitu region s
    Kept s t ∧ Armed s t n (.word addr cmp x w64) ∧ Registers s t n addr cmp x w64 isWaitu region := by
  obtain ⟨hg, hreg, hframe⟩ := armSlot_word n addr cmp x w64 isWaitu region s
  have hslot := congrArg (fun g => g.slots[n]?) hg
  refine ⟨(kept_iff _ _).mpr ?_, ⟨_, hslot.trans (List.getElem?_set_self hn), rfl, rfl, rfl, rfl, rfl⟩, ⟨_, hreg, rfl, rfl, rfl, rfl, rfl, rfl, rfl, rfl, rfl, rfl⟩⟩
  simp only [keptView, hg, Group.setSlot, Prod.mk.injEq, true_and]
  exact ⟨(congrArg State.mem hframe :), (congrArg State.wq hframe :), (congrArg State.traps hframe :)⟩

/-- R143, R220: a watched address that is canonical and aligned is not refused. -/
theorem watchTrap_none {a : W64} {w64 : Nat} (hw : w64 ≤ 1) (hcanon : bitsOf a.toNat 63 56 = 0) (halign : a.toNat % (4 * (w64 + 1)) = 0) :
    watchTrap a w64 = none := by
  have hsize : (if w64 = 1 then 8 else 4) = 4 * (w64 + 1) := by split <;> omega
  simp [watchTrap, hcanon, hsize, halign]

/-- R220, R308: a watched word whose page is there has no fault. -/
theorem watchFault_nil {s : State} {addr : Nat} (h : ∃ l, accessIn s s.g.ctx needRd addr = .ok l) : watchFault s addr = [] := by
  obtain ⟨l, hl⟩ := h
  simp [watchFault, hl]

/-- R220: the effect of a word that watches. -/
def watchEff (n a b cmp w64 : Nat) (t : State) : State :=
  match watchTrap (sGet t a) w64 with
  | some e => takeTrap e t
  | none =>
    let fs := watchFault t (sGet t a).toNat
    if fs ≠ [] then abortRegion fs t else armSlot n (watchCond a b cmp w64 t) false true t

theorem exec_watch (n a b cmp w64 : Nat) (s : State) : exec (.watch n a b cmp w64) s = issueWord none [] [a, b] (watchEff n a b cmp w64) s :=
  rfl

/-- R220: a word that watches arms its slot. -/
theorem execWatch_arms {n a b cmp w64 : Nat} {s : State} (hh : hazard s [] [a, b] = false) (htrap : watchTrap (sGet s a) w64 = none)
    (hfault : watchFault s (sGet s a).toNat = []) : exec (.watch n a b cmp w64) s = .next (armSlot n (watchCond a b cmp w64 s) false true s) := by
  rw [exec_watch, issueWord_eff _ rfl hh, watchEff, htrap, hfault]
  rfl

/-! A wait on one word. -/

/-- R300, R308: a region that can end, with no fault at a watched word, ends at the boundary of a wait on it. -/
theorem runMicro_boundaryAt {s : State} {addr : Nat} (h : CanEnd s) (hfault : watchFault s addr = []) :
    runMicro (.boundaryAt addr) s = .done (commitRegion s) := by
  obtain ⟨hclaims, hfaults⟩ := h
  simp [runMicro, runBoundary, hclaims, hfaults, hfault]

/-- A mask of one slot names it. -/
theorem namedSlots_single {n : Nat} (hn : n < 4) : namedSlots (2 ^ n) = [n] := by
  interval_cases n <;> rfl

/-- R221: a wait on a slot that is armed and whose registration is unanswered waits, past its deadline too. -/
theorem runMicro_slotWait_armed {s : State} {n : Nat} {x : Slot} (hn : n < 4) (hx : s.g.slots[n]? = some x) (harmed : x.st = .armed)
    (hanswer : x.answered = false) (d : Option Nat) :
    runMicro (.slotWait (2 ^ n) false d) s = .wait (.slotWait (2 ^ n) false d) s := by
  have hslot := slot_of_getElem? hx
  simp [runMicro, runSlotWait, namedSlots_single hn, hslot, harmed, hanswer]

/-- R220, R221: the effect of a word that waits on a word. -/
def waituEff (n a b cmp w64 : Nat) (t : State) : State :=
  match watchTrap (sGet t a) w64 with
  | some e => takeTrap e t
  | none =>
    blockOn [.boundaryAt (sGet t a).toNat, .arm n (watchCond a b cmp w64 t),
      .slotWait (2 ^ n) false (deadlineOf t (sGet t (b + 1))), .acquire .pod] t

theorem exec_waitu (n a b cmp w64 : Nat) (s : State) :
    exec (.waitu n a b cmp w64) s = issueWord (closingTrap s) [] [a, b, b + 1] (waituEff n a b cmp w64) s := rfl

/-- R220, R221: a wait on a word arms its slot after its boundary and waits on it. -/
theorem execWaitu_waits {n a b cmp w64 : Nat} {s : State} (hn : n < 4) (hslots : n < s.g.slots.length) (htx : inTx s = false)
    (hend : CanEnd s) (hh : hazard s [] [a, b, b + 1] = false) (htrap : watchTrap (sGet s a) w64 = none)
    (hfault : watchFault s (sGet s a).toNat = []) :
    let u := armSlot n (watchCond a b cmp w64 s) true false (afterBoundary s)
    exec (.waitu n a b cmp w64) s = .next { u with sp := { u.sp with
      pend := [.slotWait (2 ^ n) false (deadlineOf s (sGet s (b + 1))), .acquire .pod] } } := by
  have hslots' : n < (afterBoundary s).g.slots.length := (congrArg (fun u => u.g.slots.length) (afterBoundary_frame s) :).symm ▸ hslots
  obtain ⟨-, ⟨x, hx, harmed, -, -, -, hanswer⟩, -⟩ :=
    armSlot_arms (s := afterBoundary s) hslots' (sGet s a).toNat cmp (sGet s b) (w64 == 1) true false
  intro u
  rw [exec_waitu, issueWord_eff _ (show closingTrap s = none from (trapIf_none _ _).mpr htx) hh, waituEff, htrap]
  refine congrArg _ ?_
  exact (runMicros_done (runMicro_boundaryAt (s := atWord s) hend hfault) _).trans ((runMicros_done rfl _).trans
    (runMicros_wait (runMicro_slotWait_armed hn hx harmed hanswer _) _))

/-! A slot armed with a condition that the monitor evaluates. -/

/-- The state in which a slot of the group in focus has been armed with a monitored condition, before the monitor looks at it. -/
def armedMonitored (n : Nat) (c : Cond) (s : State) : State :=
  let t := withdrawSlot s.g n s
  { t with g := t.g.setSlot n ⟨.armed, c, false, ((s.g.slot n).gen + 1) % 256, true⟩ }

theorem armSlot_monitored {c : Cond} (h : c.monitored = true) (n : Nat) (isWaitu region : Bool) (s : State) :
    armSlot n c isWaitu region s = evalMonitor s.g.gid (armedMonitored n c s) := by
  cases c with
  | word => cases h
  | barPhase | window | queue | mordant => rfl

/-- R220, R332: to arm a slot with a monitored condition, before it is evaluated, changes its slot and watch tables alone. -/
theorem armedMonitored_frame (n : Nat) (c : Cond) (s : State) :
    (armedMonitored n c s).g = s.g.setSlot n ⟨.armed, c, false, ((s.g.slot n).gen + 1) % 256, true⟩ ∧
      withWatchesOf s { armedMonitored n c s with g := s.g } = s := by
  have hframe := withWatchesOf_withdrawSlot s s.g n s
  exact ⟨congrArg (Group.setSlot n _) (congrArg State.g hframe :), (congrArg (fun u : State => { u with g := s.g }) hframe :)⟩

/-- A condition's value does not depend on the slots. -/
theorem condHolds_setSlot (s : State) (g : Group) (n : Nat) (x : Slot) (c : Cond) : condHolds s (g.setSlot n x) c = condHolds s g c := by
  cases c <;> rfl

/-- R220, R332: a slot armed with a monitored condition fires at once where the condition holds. -/
theorem armSlot_evaluates {s : State} {n : Nat} {c : Cond} (hc : c.monitored = true) (hn : n < 4) (hslots : n < s.g.slots.length)
    (hgid : s.g.gid ≠ 0) (hres : s.g.residence = .resident) (isWaitu region : Bool) :
    let t := armSlot n c isWaitu region s
    ∃ x, Kept s t ∧ t.g.slots[n]? = some x ∧ x.st = (if condHolds s s.g c then .fired else .armed) ∧
      x.gen = ((s.g.slot n).gen + 1) % 256 ∧ x.forced = false := by
  obtain ⟨hg, hframe⟩ := armedMonitored_frame n c s
  have hview : condView (armedMonitored n c s) = condView s := (congrArg condView hframe :)
  have hkept : Kept s (armedMonitored n c s) := by
    refine (kept_iff _ _).mpr ?_
    simp only [keptView, hg, Group.setSlot, Prod.mk.injEq, true_and]
    exact ⟨(congrArg State.mem hframe :), (congrArg State.wq hframe :), (congrArg State.traps hframe :)⟩
  have hslot : (armedMonitored n c s).g.slots[n]? = some ⟨.armed, c, false, ((s.g.slot n).gen + 1) % 256, true⟩ := by
    rw [hg]
    exact List.getElem?_set_self hslots
  have hnum : (armedMonitored n c s).g.gid = s.g.gid := by rw [hg]; rfl
  have heval := evalMonitor_slot (hnum ▸ hgid) (by rw [hg]; exact hres) hn hslot rfl hc
  rw [condHolds_congr hview, hg, condHolds_setSlot] at heval
  rw [armSlot_monitored hc]
  refine ⟨_, kept_trans hkept (evalMonitor_kept _ _), heval, ?_⟩
  cases condHolds s s.g c <;> exact ⟨rfl, rfl, rfl⟩

/-- R220: the conditions of a word cond are ones that the monitor evaluates. -/
theorem condOf_monitored (kind idx b : Nat) (s : State) : (condOf kind idx b s).monitored = true := by
  unfold condOf
  split <;> rfl

/-- R220: the phase of a barrier register of the span in focus, as a condition. -/
theorem condHolds_barPhase {s : State} {b : Nat} (h : b < barCount s) (p : Bool) :
    condHolds s s.g (.barPhase b p) = ((barGet s b).phase != p) := by
  obtain ⟨x, hx, -, -, hget⟩ := spanOf?_of_lt_barCount h
  simp only [condHolds, hx, hget]

/-- R220: the target count of a window of the issuing die, as a condition. -/
theorem condHolds_window (s : State) (idx : Nat) (x : W) : condHolds s s.g (.window idx x) =
    ((s.fab.windows.find? (fun w => w.die == s.g.die && w.ctx == s.g.ctx && w.idx == idx)).map
      (fun w => decide ((w.target + 2 ^ 32 - x.toNat) % 2 ^ 32 < 2 ^ 31))).getD false := by
  cases h : s.fab.windows.find? (fun w => w.die == s.g.die && w.ctx == s.g.ctx && w.idx == idx) with
  | none => rw [condHolds, h, Option.map_none, Option.getD_none]
  | some w => rw [condHolds, h, Option.map_some, Option.getD_some]

/-- R220: whether the condition of a word cond holds, in the words of the registers it names. -/
def condValue (s : State) (kind idx b : Nat) : Bool :=
  match kind with
  | 0 => (barGet s idx).phase != bitOf (sGet s b).toNat 0
  | 1 => ((s.fab.windows.find? (fun w => w.die == s.g.die && w.ctx == s.g.ctx && w.idx == idx)).map
      (fun w => decide ((w.target + 2 ^ 32 - (lowWord (sGet s b)).toNat) % 2 ^ 32 < 2 ^ 31))).getD false
  | 2 => (s.g.queue idx).entries.any (fun e => e.taken.isNone)
  | _ => decide ((lowWord (sGet s b)).toNat ≤ poolFree s s.g.die s.g.ctx)

theorem condHolds_condOf {s : State} {kind idx b : Nat} (h0 : kind = 0 → idx < barCount s) :
    condHolds s s.g (condOf kind idx b s) = condValue s kind idx b := by
  match kind, h0 with
  | 0, h0 => exact condHolds_barPhase (h0 rfl) _
  | 1, _ => exact condHolds_window s idx _
  | 2, _ => exact congrArg (fun p => (s.g.queue idx).entries.any p) (funext fun e => by cases e.taken <;> rfl)
  | _ + 3, _ => rfl

/-- Settles O28, word by word. -/
theorem slotsArm : Obligations.SlotsArm := by
  unfold Obligations.SlotsArm
  refine ⟨fun n a b cmp w64 s hn hw hh hcanon halign hpage => ?word, fun n kind idx b s hn hlen hkind hh hgid hres h0 h1 h2 => ?cond⟩
  case word =>
    have htrap := watchTrap_none hw hcanon halign
    have hfault := watchFault_nil hpage
    refine ⟨⟨_, execWatch_arms hh htrap hfault, armSlot_arms hn _ _ _ _ _ _⟩, fun htx hend hh3 hn4 => ?_⟩
    have hframe := afterBoundary_frame s
    have hslots : (afterBoundary s).g.slots = s.g.slots := (congrArg (fun u => u.g.slots) hframe :)
    have hg : (afterBoundary s).g.gid = s.g.gid := (congrArg (fun u => u.g.gid) hframe :)
    have hnum : (afterBoundary s).sp.num = s.sp.num := congrArg Prod.fst (commitRegion_lanesView (atWord s))
    have hslot : (afterBoundary s).g.slot n = s.g.slot n := congrArg (fun xs => nthD (Slot.none 0) xs n) hslots
    obtain ⟨hkept, harmed, hregs⟩ := armSlot_arms (s := afterBoundary s) (hslots ▸ hn) (sGet s a).toNat cmp (sGet s b) (w64 == 1) true false
    rw [Armed, hslot] at harmed
    rw [Registers, hg, hnum, hslot] at hregs
    have hwaits := execWaitu_waits (cmp := cmp) hn4 hn htx hend hh3 htrap hfault
    have hkeeps := kept_trans (afterBoundary_kept s) hkept
    rw [show watchCond a b cmp w64 s = .word (sGet s a).toNat cmp (sGet s b) (w64 == 1) from rfl] at hwaits
    generalize armSlot n (.word (sGet s a).toNat cmp (sGet s b) (w64 == 1)) true false (afterBoundary s) = u at hwaits hkeeps harmed hregs
    exact ⟨_, _, hwaits, hkeeps, harmed, hregs, rfl, rfl⟩
  case cond =>
    have htrap : condTrap s kind idx = none := by
      unfold condTrap
      split
      · exact (trapIf_none _ _).mpr (by simpa using h0 rfl)
      · exact (trapIf_none _ _).mpr (by simp [h1 rfl])
      · exact (trapIf_none _ _).mpr (by simpa [Option.isSome_iff_ne_none] using h2 rfl)
      · rfl
    obtain ⟨x, hkept, hx, hst, hgen, hforced⟩ :=
      armSlot_evaluates (condOf_monitored kind idx b s) hn (by omega) hgid hres false true
    have hholds : condHolds s s.g (condOf kind idx b s) = condValue s kind idx b := condHolds_condOf h0
    exact ⟨_, x, issueWord_eff _ htrap hh, hkept, hx, hst.trans (congrArg (fun c : Bool => if c then SlotSt.fired else SlotSt.armed) hholds), hgen, hforced⟩

end Sys2Proof.Machine
end

section
/-! Arrivals at a barrier register of a span (R213, R215, R332). -/

namespace Sys2Proof.Machine

open Sys2Proof Sys2Proof.Claims

/-! The registers across a boundary. -/

/-- R17: the barrier registers of the span in focus. -/
def barsView (s : State) : Option (List Barrier) := (spanOf? s s.g.span).map Span.bars

theorem barGet_of_barsView {s t : State} (h : barsView t = barsView s) (k : Nat) : barGet t k = barGet s k := by
  have hget (u : State) : barGet u k = ((barsView u).map (fun bars => nthD Barrier.zero bars k)).getD Barrier.zero := by
    unfold barGet barsView
    cases spanOf? u u.g.span <;> rfl
  rw [hget, hget, h]

theorem barCount_of_barsView {s t : State} (h : barsView t = barsView s) : barCount t = barCount s := by
  have hcount (u : State) : barCount u = ((barsView u).map List.length).getD 0 := by
    unfold barCount barsView
    cases spanOf? u u.g.span <;> rfl
  rw [hcount, hcount, h]

/-- R300: a boundary leaves the barrier registers as they are. -/
theorem barsView_commitRegion (s : State) : barsView (commitRegion s) = barsView s := by
  have hbeats (n : Nat) (u : State) : barsView (addBeats n u) = barsView u := by
    unfold addBeats
    split <;> rfl
  have hpend (u : State) (p : Pending) : barsView (applyPending p u) = barsView u := by
    cases p with
    | block | tileRow => exact bars_modSpanCore ..
    | histogram => rfl
  unfold commitRegion
  exact (foldl_keeps barsView hpend _ _).trans (hbeats s.sp.beats _)

theorem barsView_afterBoundary (s : State) : barsView (afterBoundary s) = barsView s := barsView_commitRegion (atWord s)

/-! The flip of a phase. -/

/-- The fields that a flip changes beside the register, as they are in s: other groups, the split in focus, and the slots and the other
splits of the group in focus. -/
def withFlipOf (s u : State) : State :=
  { u with groups := s.groups, sp := s.sp, g := { u.g with slots := s.g.slots, splits := s.g.splits } }

/-- What no waking and no slot that fires changes: all but the groups, and of the group in focus all but slots and splits. -/
theorem withFlipOf_of_views {s t : State} (hrest : withGroupsOf s t = withGroupsOf s s)
    (hg : (groupsView (fun g => { g with slots := [], splits := [] }) t).2 = (groupsView (fun g => { g with slots := [], splits := [] }) s).2) :
    withFlipOf s t = withFlipOf s s := by
  have hgroup : { t.g with slots := s.g.slots, splits := s.g.splits } = s.g :=
    congrArg (fun g : Group => { g with slots := s.g.slots, splits := s.g.splits }) hg
  have hframe := congrArg (withFlipOf s) hrest
  calc withFlipOf s t = { withFlipOf s (withGroupsOf s t) with g := { t.g with slots := s.g.slots, splits := s.g.splits } } := rfl
    _ = withFlipOf s s := by rw [hframe, hgroup]; rfl

/-- R215: the waiters of a flip go on. -/
theorem withFlipOf_wakeBar (span b : Nat) (phase : Bool) (s : State) : withFlipOf s (wakeBar span b phase s) = withFlipOf s s := by
  refine withFlipOf_of_views (foldl_keeps (withGroupsOf s) (fun u g => withGroupsOf_modSplits s _ _ u) _ s) ?_
  exact congrArg Prod.snd (foldl_keeps (groupsView _) (fun u g => groupsView_modSplits (fun _ _ _ => rfl) _ _ u) _ s)

/-- R332: the monitor changes slots and splits of groups alone. -/
theorem withFlipOf_evalMonitors (s : State) : withFlipOf s (evalMonitors s) = withFlipOf s s := by
  refine withFlipOf_of_views (foldl_keeps (withGroupsOf s) (fun u n => withGroupsOf_evalMonitor s n u) _ s) ?_
  exact congrArg Prod.snd (foldl_keeps (groupsView _) (fun u n => groupsView_evalMonitor (fun _ _ _ => rfl) n u) _ s)

theorem withFlipOf_flip (s : State) (span b : Nat) (phase : Bool) :
    withFlipOf s (evalMonitors (wakeBar span b phase s)) = withFlipOf s s := by
  have hwake := withFlipOf_wakeBar span b phase s
  have hfire := withFlipOf_evalMonitors (wakeBar span b phase s)
  generalize evalMonitors (wakeBar span b phase s) = v at hfire ⊢
  generalize wakeBar span b phase s = u at hwake hfire
  exact (congrArg (withFlipOf s) hfire :).trans hwake

/-- R213: a barrier register at its last arrival. -/
def flipped (b : Barrier) : Barrier := { b with arrived := 0, phase := !b.phase }

/-- R213: the last arrival at a barrier register flips it. -/
theorem arriveOn_flips {s : State} {b : Nat} (hb : b < barCount s) (hexp : (barGet s b).expected ≠ 0)
    (h : (barGet s b).arrived + 1 = (barGet s b).expected) :
    ∃ t, arriveOn s.g.span b s = some t ∧ barGet t b = flipped (barGet s b) ∧ { withFlipOf s t with spans := s.spans } = s := by
  obtain ⟨x, hx, -, -, hget⟩ := spanOf?_of_lt_barCount hb
  have hset := barGet_setBar hb (fun _ => flipped (nthD Barrier.zero x.bars b)) hx b
  rw [hget b] at h hexp ⊢
  let u := modSpan s.g.span (fun y => { y with bars := y.bars.set b (flipped (nthD Barrier.zero x.bars b)) }) s
  have hflip := withFlipOf_flip u s.g.span b (!(nthD Barrier.zero x.bars b).phase)
  have harrive : arriveOn s.g.span b s = some (evalMonitors (wakeBar s.g.span b (!(nthD Barrier.zero x.bars b).phase) u)) := by
    simp only [arriveOn, hx]
    rw [if_neg hexp, if_pos h]
    rfl
  generalize evalMonitors (wakeBar s.g.span b (!(nthD Barrier.zero x.bars b).phase) u) = t at hflip harrive
  refine ⟨t, harrive, ?_, (congrArg (fun v : State => { v with spans := s.spans }) hflip :)⟩
  exact (barGet_congr (congrArg State.spans hflip :) (congrArg (fun v : State => v.g.span) hflip :) b).trans (hset.trans (if_pos rfl))

/-- R213: an arrival that is not the last is counted. -/
theorem arriveOn_waits {s : State} {span b : Nat} {x : Span} (hx : spanOf? s span = some x) (hexp : (nthD Barrier.zero x.bars b).expected ≠ 0)
    (h : (nthD Barrier.zero x.bars b).arrived + 1 ≠ (nthD Barrier.zero x.bars b).expected) :
    arriveOn span b s = some (modSpan span (fun y => { y with bars := y.bars.set b (arrivedOnce (nthD Barrier.zero x.bars b)) }) s) := by
  simp only [arriveOn, hx]
  rw [if_neg hexp, if_neg h]
  rfl

end Sys2Proof.Machine
end

section
/-! Expected counts, arrivals, remote arrivals and waits on a phase (R213, R216, R217). -/

namespace Sys2Proof.Machine

open Sys2Proof Sys2Proof.Claims

/-- R214: a group of one split may execute a barrier word. -/
theorem singleTrap_none {s : State} (h : splitCount s ≤ 1) : singleTrap s = none := (trapIf_none _ _).mpr (by simpa using h)

/-- R17: a register that the span has is no trap. -/
theorem barTrap_none {s : State} {n : Nat} (h : n < barCount s) : barTrap s n = none := (trapIf_none _ _).mpr (by simpa using h)

/-- R213: a register that expects a member is no trap. -/
theorem expectedTrap_none {s : State} {n : Nat} (h : (barGet s n).expected ≠ 0) : expectedTrap s n = none :=
  (trapIf_none _ _).mpr (by simpa using h)

theorem firstTrap_nones {ts : List (Option Trap)} (h : ∀ t ∈ ts, t = none) : firstTrap ts = none := (firstTrap_none ts).mpr h

/-- R216: the release of an arrival of a group with nothing outstanding is over. -/
theorem quiet_releaseOver {s : State} (h : Quiet s) (a : Arrival) : releaseOver s s.g a = true := by
  obtain ⟨hloads, hentries, -, -⟩ := h
  simp only [releaseOver, Bool.and_eq_true, Bool.not_eq_true', List.any_eq_false]
  exact ⟨fun d hd => by simp [hloads d hd], fun e he => by simp [hentries e he]⟩

/-- R216: a group with nothing outstanding and no arrival that waits arrives at once. -/
theorem arriveEff_now {s : State} (hq : Quiet s) (hnone : s.g.arrivals = []) (span n : Nat) (dst : Option Nat) :
    arriveEff span n dst s = makeArrival ⟨s.sp.num, s.iss.clause, s.iss.word, span, n, dst, s.sp.bndUid⟩ s :=
  if_pos ⟨hnone, quiet_releaseOver hq _⟩

/-- R216: an arrival that is made answers the phase of that moment in its scalar register. -/
theorem makeArrival_answers {s t : State} {n : Nat} (hn : n < barCount s) (h : arriveOn s.g.span n s = some t) (a : Arrival) (d : Nat)
    (hspan : a.span = s.g.span) (hbar : a.bar = n) (hdst : a.dst = some d) :
    makeArrival a s = sSet d (if (barGet s n).phase then 1 else 0) t := by
  obtain ⟨x, hx, -, -, hget⟩ := spanOf?_of_lt_barCount hn
  simp only [makeArrival, hspan, hbar, hdst, h, hx, hget, Option.map_some, Option.getD_some]

/-- R216: an arrival word of a group with nothing outstanding arrives and answers the phase. -/
theorem execArrive_arrives {n d : Nat} {s t : State} (hready : BarReady s n) (hh : hazard s [] [d] = false) (hq : Quiet s)
    (hnone : s.g.arrivals = []) (h : arriveOn s.g.span n s = some t) :
    exec (.arrive n d) s = .next (sSet d (if (barGet s n).phase then 1 else 0) t) := by
  obtain ⟨hn, hone, hexp⟩ := hready
  have htrap : firstTrap [barTrap s n, singleTrap s, expectedTrap s n] = none :=
    firstTrap_nones (by simp [barTrap_none hn, singleTrap_none hone, expectedTrap_none hexp])
  refine (issueWord_eff _ htrap hh).trans (congrArg _ ?_)
  exact (arriveEff_now hq hnone _ _ _).trans (makeArrival_answers hn h _ d rfl rfl rfl)

/-- R213: an arrival at a register of the span in focus that is not the last is counted. -/
theorem arriveOn_counted {s : State} {b : Nat} (hb : b < barCount s) (hexp : (barGet s b).expected ≠ 0)
    (h : (barGet s b).arrived + 1 ≠ (barGet s b).expected) :
    ∃ t, arriveOn s.g.span b s = some t ∧ barGet t b = arrivedOnce (barGet s b) ∧ { t with spans := s.spans } = s := by
  obtain ⟨x, hx, -, -, hget⟩ := spanOf?_of_lt_barCount hb
  have hset := barGet_setBar hb (fun _ => arrivedOnce (nthD Barrier.zero x.bars b)) hx b
  rw [hget b] at h hexp ⊢
  exact ⟨_, arriveOn_waits hx hexp h, hset.trans (if_pos rfl), rfl⟩

/-- R217: the effect of a remote arrival. -/
def arriveRemoteEff (n a : Nat) (t : State) : State :=
  match remoteSpan? t ((sGet t a).toNat % 2 ^ 32) with
  | none => takeTrap (plainTrap .barrierState) t
  | some x =>
    if x.bars.length ≤ n ∨ (nthD Barrier.zero x.bars n).expected = 0 then takeTrap (plainTrap .barrierState) t
    else arriveEff x.uid n none t

/-- R217: a remote arrival of a group with nothing outstanding arrives at a register of the span that it names. -/
theorem execArriveRemote_arrives {n a : Nat} {s t : State} {x : Span} (hone : splitCount s ≤ 1) (hh : hazard s [] [a] = false) (hq : Quiet s)
    (hnone : s.g.arrivals = []) (hremote : remoteSpan? s ((sGet s a).toNat % 2 ^ 32) = some x) (hn : n < x.bars.length)
    (hexp : (nthD Barrier.zero x.bars n).expected ≠ 0) (h : arriveOn x.uid n s = some t) : exec (.arriveRemote n a) s = .next t := by
  have hmake : arriveRemoteEff n a s = t := by
    rw [arriveRemoteEff, hremote]
    refine (if_neg (by omega)).trans ((arriveEff_now hq hnone _ _ _).trans ?_)
    simp only [makeArrival, h]
  exact (issueWord_eff (arriveRemoteEff n a) (singleTrap_none hone) hh).trans (congrArg _ hmake)

theorem runMicro_barWait_done {s : State} {b : Nat} {p : Bool} (h : (barGet s b).phase ≠ p) : runMicro (.barWait b p) s = .done s :=
  waitUntil_true (bne_iff_ne.mpr h) _ _

theorem runMicro_barWait_waits {s : State} {b : Nat} {p : Bool} (h : (barGet s b).phase = p) :
    runMicro (.barWait b p) s = .wait (.barWait b p) s := waitUntil_false (by simp [h]) _ _

/-- R216: a word that waits for a phase looks at its register after its boundary. -/
theorem execBwait_goes {n a : Nat} {s : State} (hn : n < barCount s) (htx : inTx s = false) (hh : hazard s [] [a] = false) (hend : CanEnd s) :
    exec (.bwait n a) s = .next (runMicros [.barWait n (bitOf (sGet s a).toNat 0), .acquire .quad] (afterBoundary s)) := by
  have htrap : firstTrap [barTrap s n, closingTrap s] = none := firstTrap_nones (by simp [barTrap_none hn, closingTrap, trapIf, htx])
  exact (issueWord_eff _ htrap hh).trans (congrArg _ (blockOn_boundary hend _))

/-- Settles O27, word by word. -/
theorem barrierWords : Obligations.BarrierWords := by
  unfold Obligations.BarrierWords
  refine ⟨fun n c s hn harr => ?bexp, fun n d s hready hh hq hnone => ⟨fun h => ?counts, fun h => ?flips⟩, fun n d s hready hh hwaits => ?queued,
    fun n a s x b hone hh hq hnone hremote hspan hb hexp h => ?remote, fun n a s hn htx hh hend => ?bwait⟩
  case bexp =>
    obtain ⟨x, hx, -, -, hget⟩ := spanOf?_of_lt_barCount hn
    have hbars (m : Nat) := barGet_setBar hn (fun y => { nthD Barrier.zero y.bars n with expected := c }) hx m
    have htrap : firstTrap [barTrap s n, trapIf ((barGet s n).arrived != 0) .barrierState] = none :=
      firstTrap_nones (by simp [barTrap_none hn, trapIf, harr])
    refine ⟨setExpected n c s, issueWord_eff _ htrap (hazard_nil s), ?_, fun m hm => (hbars m).trans (if_neg hm), rfl⟩
    rw [hget]
    exact (hbars n).trans (if_pos rfl)
  case counts =>
    obtain ⟨hn, hone, hexp⟩ := hready
    obtain ⟨t, ht, hbar, hframe⟩ := arriveOn_counted hn hexp h
    have hsregs := congrArg (fun u : State => u.g.sregs) hframe
    refine ⟨_, execArrive_arrives ⟨hn, hone, hexp⟩ hh hq hnone ht, (sGet_sSet ..).trans (if_pos rfl),
      fun r hr => (sGet_sSet ..).trans ((if_neg hr).trans (congrArg (fun m => mapGet 0 m r) hsregs)), hbar, ?_⟩
    exact (congrArg (fun u : State => { u with spans := s.spans, g := { u.g with sregs := s.g.sregs } }) hframe :)
  case flips =>
    obtain ⟨hn, hone, hexp⟩ := hready
    obtain ⟨t, ht, hbar, hframe⟩ := arriveOn_flips hn hexp h
    have hsregs : t.g.sregs = s.g.sregs := (congrArg (fun u : State => u.g.sregs) hframe :)
    exact ⟨_, execArrive_arrives ⟨hn, hone, hexp⟩ hh hq hnone ht, (sGet_sSet ..).trans (if_pos rfl),
      fun r hr => (sGet_sSet ..).trans ((if_neg hr).trans (congrArg (fun m => mapGet 0 m r) hsregs)), hbar,
      (congrArg State.mem hframe :), (congrArg State.wq hframe :)⟩
  case queued =>
    obtain ⟨hn, hone, hexp⟩ := hready
    have htrap : firstTrap [barTrap s n, singleTrap s, expectedTrap s n] = none :=
      firstTrap_nones (by simp [barTrap_none hn, singleTrap_none hone, expectedTrap_none hexp])
    refine (issueWord_eff _ htrap hh).trans (congrArg _ (if_neg ?_))
    rintro ⟨hnone, hover⟩
    obtain hne | ⟨d, hd, hgid, hsplit, huid⟩ := hwaits
    · exact hne hnone
    · simp only [releaseOver, Bool.and_eq_true, Bool.not_eq_true', List.any_eq_false] at hover
      exact hover.1 d hd (by simp [hgid, hsplit, huid])
  case remote =>
    have hbar : nthD Barrier.zero x.bars n = b := by simp [nthD, hb]
    have hset := spanOf?_modSpan_of (f := fun y => { y with bars := y.bars.set n (arrivedOnce (nthD Barrier.zero x.bars n)) }) hspan rfl
    rw [← hbar] at hexp h ⊢
    exact ⟨_, _, execArriveRemote_arrives hone hh hq hnone hremote (List.getElem?_eq_some_iff.mp hb).1 hexp (arriveOn_waits hspan hexp h),
      hset, rfl, rfl⟩
  case bwait =>
    intro waits
    have hbar := barGet_of_barsView (barsView_afterBoundary s) n
    have hexec := execBwait_goes hn htx hh hend
    by_cases heq : (barGet s n).phase = bitOf (sGet s a).toNat 0
    · have hw : waits = true := beq_iff_eq.mpr heq
      rw [runMicros_wait (runMicro_barWait_waits (hbar ▸ heq))] at hexec
      rw [hw, heq]
      exact ⟨_, hexec, afterBoundary_kept s, hbar, rfl, fun h => by cases h⟩
    · have hw : waits = false := beq_eq_false_iff_ne.mpr heq
      have hframe := afterBoundary_frame s
      have hacq := runMicros_acquire_frame .quad (afterBoundary s)
      rw [runMicros_done (runMicro_barWait_done (hbar ▸ heq))] at hexec
      rw [hw]
      exact ⟨_, hexec, kept_trans (afterBoundary_kept s) (runMicros_acquire_kept _ _),
        (barGet_congr (congrArg State.spans hacq :) (congrArg (fun u => u.g.span) hacq :) n).trans hbar, runMicros_acquire_pend _ _,
        fun _ => runMicros_acquire (by decide) (congrArg (fun u => u.g.die) hframe :) (congrArg (fun u => u.g.core) hframe :)⟩

end Sys2Proof.Machine
end

section
/-! Barrier words and hardware barriers (R213 to R215, R218, R262). -/

namespace Sys2Proof.Machine

open Sys2Proof Sys2Proof.Claims

/-! Barrier words. -/

/-- R288: a split of a group with nothing outstanding has no load or atomic outstanding. -/
theorem quiet_loadsReturned {s : State} (h : Quiet s) : loadsReturned s = true := by
  obtain ⟨hloads, -, hatoms, -⟩ := h
  have hown : ownAtoms s = [] := List.filter_eq_nil_iff.mpr fun a ha => by simp [hatoms a ha]
  simp only [loadsReturned, Bool.and_eq_true, Bool.not_eq_true', List.any_eq_false, hown]
  exact ⟨fun d hd => by simp [hloads d hd], rfl⟩

theorem runMicro_loadsDone {s : State} (h : Quiet s) : runMicro .loadsDone s = .done s := waitUntil_true (quiet_loadsReturned h) _ _

theorem runMicro_performed {s : State} (h : Quiet s) (sc : Scope) : runMicro (.performed sc) s = .done s :=
  waitUntil_true (quiet_storesPerformed h sc) _ _

theorem runMicro_joined {s : State} (h : Quiet s) (sc : Scope) (a b c : Bool) : runMicro (.joined sc a b c) s = .done s :=
  waitUntil_true (quiet_joinsPerformed h sc a b c) _ _

/-- R215: a barrier word of a group with nothing outstanding arrives after its boundary. -/
theorem barWord_arrives {s : State} {n : Nat} (sc : Scope) (hready : BarReady s n) (htx : inTx s = false) (hq : Quiet s) :
    barWord sc n s = .next (runMicros [.barArrive n, .acquire sc] (afterBoundary s)) := by
  obtain ⟨hn, hone, hexp⟩ := hready
  have hquiet := quiet_afterBoundary hq
  have htrap : firstTrap [barTrap s n, closingTrap s, singleTrap s, expectedTrap s n] = none :=
    firstTrap_nones (by simp [barTrap_none hn, singleTrap_none hone, expectedTrap_none hexp, closingTrap, trapIf, htx])
  refine (issueWord_eff _ htrap (hazard_nil s)).trans (congrArg _ ?_)
  rw [blockOn_boundary (quiet_canEnd hq), runMicros_done (runMicro_loadsDone hquiet), runMicros_done (runMicro_performed hquiet sc)]

/-- R213, R215: an arrival that is not the last waits for the phase. -/
theorem runMicro_barArrive_waits {s t : State} {b : Nat} (h : arriveOn s.g.span b s = some t)
    (hphase : (barGet t b).phase = (barGet s b).phase) :
    runMicro (.barArrive b) s = .wait (.barWait b (barGet s b).phase) t := by
  simp only [runMicro, runArrive, h]
  exact waitUntil_false (by simp [hphase]) _ _

/-- R213, R215: the last arrival goes on. -/
theorem runMicro_barArrive_done {s t : State} {b : Nat} (h : arriveOn s.g.span b s = some t)
    (hphase : (barGet t b).phase ≠ (barGet s b).phase) : runMicro (.barArrive b) s = .done t := by
  simp only [runMicro, runArrive, h]
  exact waitUntil_true (by simpa using hphase) _ _

/-- R282: an acquire changes no register of a barrier. -/
theorem barGet_acquire (sc : Scope) (t : State) (k : Nat) : barGet (runMicros [.acquire sc] t) k = barGet t k := by
  have hframe := runMicros_acquire_frame sc t
  exact barGet_congr (congrArg State.spans hframe :) (congrArg (fun u => u.g.span) hframe :) k

/-- R213, R214, R215: a barrier word that is not the last to arrive waits. -/
theorem barWord_waits {s : State} {n : Nat} (sc : Scope) (hready : BarReady s n) (htx : inTx s = false) (hq : Quiet s)
    (h : (barGet s n).arrived + 1 ≠ (barGet s n).expected) : ∃ t, barWord sc n s = .next t ∧ Kept s t ∧
      barGet t n = arrivedOnce (barGet s n) ∧ t.sp.pend = [.barWait n (barGet s n).phase, .acquire sc] := by
  have hword := barWord_arrives sc hready htx hq
  obtain ⟨hn, hone, hexp⟩ := hready
  have hview := barsView_afterBoundary s
  have hbar := barGet_of_barsView hview n
  rw [← hbar] at hexp h ⊢
  obtain ⟨t, ht, hgot, hframe⟩ := arriveOn_counted ((barCount_of_barsView hview).symm ▸ hn) hexp h
  rw [runMicros_wait (runMicro_barArrive_waits ht (by rw [hgot]; rfl))] at hword
  exact ⟨_, hword, kept_trans (afterBoundary_kept s) ((kept_iff _ _).mpr (congrArg keptView hframe :)), hgot, rfl⟩

/-- R213, R215, R282: a barrier word that is the last to arrive flips the phase and goes on, past its acquire. -/
theorem barWord_flips {s : State} {n : Nat} (sc : Scope) (hready : BarReady s n) (htx : inTx s = false) (hq : Quiet s)
    (h : (barGet s n).arrived + 1 = (barGet s n).expected) : ∃ t, barWord sc n s = .next t ∧ Kept s t ∧
      barGet t n = flipped (barGet s n) ∧ t.sp.pend = [] ∧ (2 ≤ sc.rank → NoL1 s t) := by
  have hword := barWord_arrives sc hready htx hq
  obtain ⟨hn, hone, hexp⟩ := hready
  have hview := barsView_afterBoundary s
  have hbar := barGet_of_barsView hview n
  rw [← hbar] at hexp h ⊢
  obtain ⟨t, ht, hgot, hframe⟩ := arriveOn_flips ((barCount_of_barsView hview).symm ▸ hn) hexp h
  have hboundary := afterBoundary_frame s
  have hdie : t.g.die = s.g.die := (congrArg (fun u : State => u.g.die) hframe :).trans (congrArg (fun u : State => u.g.die) hboundary :)
  have hcore : t.g.core = s.g.core := (congrArg (fun u : State => u.g.core) hframe :).trans (congrArg (fun u : State => u.g.core) hboundary :)
  rw [runMicros_done (runMicro_barArrive_done ht (by simp [hgot, flipped]))] at hword
  exact ⟨_, hword, kept_trans (kept_trans (afterBoundary_kept s) ((kept_iff _ _).mpr (congrArg keptView hframe :))) (runMicros_acquire_kept sc t),
    (barGet_acquire sc t n).trans hgot, runMicros_acquire_pend sc t, fun hsc => runMicros_acquire hsc hdie hcore⟩

/-! Hardware barriers. -/

/-- R262: the hardware barrier of a level on a die is of that level, and of the level of dies of that die. -/
theorem hwBarOf_names (v : Viaduct) (level die : Nat) :
    (hwBarOf v level die).level = level ∧ (level = 3 → (hwBarOf v level die).die = die) := by
  unfold hwBarOf
  cases h : v.bars.find? (fun b => b.level == level && (level != 3 || b.die == die)) with
  | none => exact ⟨rfl, fun _ => rfl⟩
  | some b =>
    have hb := List.find?_some h
    simp only [Bool.and_eq_true, beq_iff_eq, Bool.or_eq_true, bne_iff_ne] at hb
    exact ⟨hb.1, fun h3 => hb.2.resolve_left (fun hne => hne h3)⟩

/-- R262: a hardware barrier reads as it was put. -/
theorem hwBarOf_setHwBar (v : Viaduct) {b : HwBar} {level die : Nat} (hlevel : b.level = level) (hdie : level = 3 → b.die = die) :
    hwBarOf (setHwBar v b) level die = b := by
  have hgone : (v.bars.filter (fun x => !(x.level == b.level && (b.level != 3 || x.die == b.die)))).find?
      (fun x => x.level == level && (level != 3 || x.die == die)) = none := by
    refine List.find?_eq_none.mpr fun x hx hmatch => ?_
    have hout := (List.mem_filter.mp hx).2
    subst hlevel
    by_cases h3 : b.level = 3
    · rw [hdie h3, hmatch] at hout
      cases hout
    · simp_all
  have hself : (b.level == level && (level != 3 || b.die == die)) = true := by
    subst hlevel
    by_cases h3 : b.level = 3
    · simp [hdie h3]
    · simp [h3]
  unfold hwBarOf setHwBar
  rw [List.find?_append, hgone, List.find?_singleton, hself]
  rfl

/-- R218: a hardware barrier with a group more that has arrived. -/
def joinedBy (gid : Nat) (b : HwBar) : HwBar := { b with arrived := b.arrived ++ [gid] }

/-- R218: a hardware barrier word of a group with nothing outstanding arrives and waits. -/
theorem hwBarWord_waits {s : State} {v : Viaduct} (level : Nat) (sc : Scope) (hv : viaductOf? s s.g.viaduct = some v)
    (hcoop : v.launch.coop = true) (htx : inTx s = false) (hone : splitCount s ≤ 1) (hq : Quiet s) :
    let b := hwBarOf v level s.g.die
    ∃ t, hwBarWord level sc s = .next t ∧ Kept s t ∧ viaductOf? t s.g.viaduct = some (setHwBar v (joinedBy s.g.gid b)) ∧
      t.sp.pend = [.hwWait level b.phases, .acquire sc] := by
  intro b
  have hquiet := quiet_afterBoundary hq
  have hframe := afterBoundary_frame s
  have hcoop' : isCoop s = true := by simp [isCoop, launchOf?, hv, hcoop]
  have htrap : firstTrap [trapIf (!isCoop s) .cooperativeRequired, closingTrap s, singleTrap s] = none :=
    firstTrap_nones (by simp [singleTrap_none hone, closingTrap, trapIf, htx, hcoop'])
  have hgid : (afterBoundary s).g.gid = s.g.gid := (congrArg (fun u => u.g.gid) hframe :)
  have hdie : (afterBoundary s).g.die = s.g.die := (congrArg (fun u => u.g.die) hframe :)
  have hvia : (afterBoundary s).g.viaduct = s.g.viaduct := (congrArg (fun u => u.g.viaduct) hframe :)
  have hvuid : v.uid = s.g.viaduct := by simpa using List.find?_some hv
  have hv' : viaductOf? (afterBoundary s) s.g.viaduct = some v := (viaductOf?_congr (congrArg State.viaducts hframe :) _).trans hv
  have hmicro : runMicro (.hwArrive level) (afterBoundary s) =
      .wait (.hwWait level b.phases) (modViaduct v.uid (fun x => setHwBar x (joinedBy s.g.gid b)) (afterBoundary s)) := by
    simp only [runMicro, runHwArrive, hvia, hv', hdie, hgid]
    rfl
  have hset : viaductOf? (modViaduct v.uid (fun x => setHwBar x (joinedBy s.g.gid b)) (afterBoundary s)) s.g.viaduct =
      some (setHwBar v (joinedBy s.g.gid b)) := by
    rw [hvuid]
    exact viaductOf?_modViaduct hv' rfl
  let t := modViaduct v.uid (fun x => setHwBar x (joinedBy s.g.gid b)) (afterBoundary s)
  have hrun : blockOn [.boundary, .loadsDone, .performed sc, .joined sc true true true, .hwArrive level, .acquire sc] s =
      { t with sp := { t.sp with pend := [.hwWait level b.phases, .acquire sc] } } := by
    rw [blockOn_boundary (quiet_canEnd hq), runMicros_done (runMicro_loadsDone hquiet), runMicros_done (runMicro_performed hquiet sc),
      runMicros_done (runMicro_joined hquiet sc true true true), runMicros_wait hmicro]
  exact ⟨_, (issueWord_eff _ htrap (hazard_nil s)).trans (congrArg _ hrun), afterBoundary_kept s, hset, rfl⟩

/-- R218: a hardware barrier after a phase. -/
def completed (b : HwBar) : HwBar := { b with arrived := [], away := [], phases := b.phases + 1 }

/-- R218: a group that waits for a phase that is over goes on. -/
theorem runMicro_hwWait_done {s : State} {v : Viaduct} {level p : Nat} (hv : viaductOf? s s.g.viaduct = some v)
    (hp : p < (hwBarOf v level s.g.die).phases) : runMicro (.hwWait level p) s = .done s :=
  waitUntil_true (by simp [hv, hp]) _ _

/-- R211, R218, R262: a hardware barrier all of whose groups have arrived or exited, and all other packages of its gang, completes; its
waiters look at their waits. -/
theorem execHwBarrierComplete_completes {s : State} {v : Viaduct} {level die : Nat} (hv : viaductOf? s v.uid = some v)
    (harrived : (hwBarOf v level die).arrived ≠ [])
    (hmembers : ∀ g ∈ hwMembers s v.uid level die, g.gid ∈ (hwBarOf v level die).arrived)
    (haway : level = 5 → ∀ o ∈ otherPackages s v, o ∈ (hwBarOf v level die).away) :
    let t := modViaduct v.uid (fun x => setHwBar x (completed (hwBarOf v level die))) s
    exec (.hwBarrierComplete v.uid level die) s = .next ((hwMembers s v.uid level die).foldl (fun u g =>
      (splitsOf t g).foldl (fun w p => resumeSplit g.gid p.num w) u) t) := by
  have hall : (hwMembers s v.uid level die).all (fun g => g.exited || memNat g.gid (hwBarOf v level die).arrived) = true := by
    simp only [List.all_eq_true, Bool.or_eq_true, memNat_iff]
    exact fun g hg => .inr (hmembers g hg)
  have hothers : (if level = 5 then otherPackages s v else []).all (fun p => memNat p (hwBarOf v level die).away) = true := by
    simp only [List.all_eq_true, memNat_iff]
    split
    · exact haway ‹_›
    · simp
  have hexec : exec (.hwBarrierComplete v.uid level die) s = execHwBarrierComplete v.uid level die s := rfl
  rw [hexec, execHwBarrierComplete, hv]
  exact if_pos ⟨harrived, hall, hothers⟩

/-- A group of the list, and one of its splits, brought into focus. -/
theorem at_focusedOn {s : State} {gid num : Nat} {g : Group} {p : Split} (hsettled : s.Settled) (hgids : ∀ y ∈ s.groups, y.gid ≠ 0)
    (hg : s.groups.find? (fun x => x.gid == gid) = some g) (hp : g.splits.find? (fun q => q.num == num) = some p) :
    At s gid num (focusedOn gid num g p s) := by
  have hidle : unfocus s = { s with g := Group.idle, sp := Split.idle, iss := Issue.idle } := if_pos (congrArg Group.gid hsettled.1)
  refine ⟨hsettled, hgids, ?_⟩
  simp only [focus?, focusedOn, hidle, hg, hp]

/-- R205: a split in focus whose group is resident goes on with its blocked word. -/
theorem resumeSplit_of_at {s u : State} {gid num : Nat} (h : At s gid num u) {ms : List Micro} {m : Micro} (hpend : u.sp.pend = m :: ms)
    (hres : u.g.residence = .resident) (hg : (runMicros (m :: ms) u).g.gid = u.g.gid) (hgs : (runMicros (m :: ms) u).groups = u.groups) :
    resumeSplit gid num s = unfocus (runMicros (m :: ms) u) := by
  have hgoes : (fun t : State => if t.sp.pend = [] ∨ t.g.residence ≠ .resident then t else runMicros t.sp.pend t) u =
      runMicros (m :: ms) u := by simp [hpend, hres]
  rw [← hgoes] at hg hgs ⊢
  exact onSplit_of_at h hg hgs

/-- A split keeps its strands past an acquire at the end of its word. -/
theorem runMicros_acquire_member (sc : Scope) (s : State) : (runMicros [.acquire sc] s).sp.member = s.sp.member := by
  have hnil (t : State) : (runMicros [] t).sp.member = t.sp.member := by
    unfold runMicros settleRegion
    split <;> rfl
  rw [runMicros_done (m := .acquire sc) rfl, hnil]
  split <;> rfl

/-- R218: the only split of the only group goes on from a hardware barrier that is over. -/
theorem resumeSplit_hwWait {t : State} {w : Viaduct} {g : Group} {p : Split} {level n : Nat} {sc : Scope} (hsettled : t.Settled)
    (hgroups : t.groups = [g]) (hgid : g.gid ≠ 0) (hres : g.residence = .resident) (hsplits : g.splits = [p]) (hmember : p.member ≠ 0)
    (hpend : p.pend = [.hwWait level n, .acquire sc]) (hw : viaductOf? t g.viaduct = some w) (hn : n < (hwBarOf w level g.die).phases) :
    ∃ h q, (resumeSplit g.gid p.num t).groups = [h] ∧ h.splits = [q] ∧ q.pend = [] ∧ h.regs = g.regs ∧ h.sregs = g.sregs ∧
      (resumeSplit g.gid p.num t).viaducts = t.viaducts := by
  have hat : At t g.gid p.num (focusedOn g.gid p.num g p t) :=
    at_focusedOn hsettled (by simp [hgroups, hgid]) (by simp [hgroups]) (by simp [hsplits])
  have hidle : unfocus t = { t with g := Group.idle, sp := Split.idle, iss := Issue.idle } := if_pos (congrArg Group.gid hsettled.1)
  generalize hu : focusedOn g.gid p.num g p t = u at hat
  have hug : u.g = { g with splits := [] } := by simp [← hu, focusedOn, hsplits]
  have husp : u.sp = p := by rw [← hu]; rfl
  have hugroups : u.groups = [] := by simp [← hu, focusedOn, hidle, hgroups]
  have huvia : u.viaducts = t.viaducts := by rw [← hu, focusedOn, hidle]
  have hwait : runMicro (.hwWait level n) u = .done u :=
    runMicro_hwWait_done (v := w) ((viaductOf?_congr huvia _).trans (by rw [hug]; exact hw)) (by rw [hug]; exact hn)
  have hframe := runMicros_acquire_frame sc u
  have hrun : runMicros [.hwWait level n, .acquire sc] u = runMicros [.acquire sc] u := runMicros_done hwait _
  have hresume := resumeSplit_of_at hat (husp ▸ hpend) (by rw [hug]; exact hres) ((congrArg (fun v : State => v.g.gid) hrun).trans (congrArg (fun v : State => v.g.gid) hframe :))
    ((congrArg State.groups hrun).trans (congrArg State.groups hframe :))
  rw [hrun] at hresume
  generalize hv : runMicros [.acquire sc] u = v at hframe hresume
  have hvg : v.g = { g with splits := [] } := (congrArg State.g hframe :).trans hug
  have hvpend : v.sp.pend = [] := hv ▸ runMicros_acquire_pend sc u
  have hvmember : v.sp.member ≠ 0 := by rw [← hv, runMicros_acquire_member, husp]; exact hmember
  have hinsert : insertSplit v.sp [] = [v.sp] := if_neg hvmember
  have hunfocus := unfocus_focused (s := v) (by rw [hvg]; exact hgid)
  rw [hresume, hunfocus, hvg]
  refine ⟨_, v.sp, congrArg (insertGroup _) ((congrArg State.groups hframe :).trans hugroups), hinsert, hvpend, rfl, rfl,
    (congrArg State.viaducts hframe :).trans huvia⟩

/-- Settles O26. -/
theorem barriersArrive : Obligations.BarriersArrive := by
  unfold Obligations.BarriersArrive
  refine ⟨fun row hrow n s hready htx hq => ⟨fun h => ?waits, fun h => ?flips⟩, fun row hrow s v hv hcoop htx hone hq => ?hardware,
    fun s v g p level die sc hsettled hv hgroups hgid hvia hdie hexit hres hsplits hmember harr hpend haway => ?complete⟩
  case waits =>
    have hword := barWord_waits row.2 hready htx hq h
    simp only [barRows, List.mem_cons, List.not_mem_nil, or_false] at hrow
    obtain rfl | rfl := hrow <;> exact hword
  case flips =>
    obtain ⟨t, ht, hkept, hbar, hpend, hnol1⟩ := barWord_flips row.2 hready htx hq h
    have hquad : row.2 = .quad → NoL1 s t := fun hsc => hnol1 (by rw [hsc]; decide)
    simp only [barRows, List.mem_cons, List.not_mem_nil, or_false] at hrow
    obtain rfl | rfl := hrow <;> exact ⟨t, ht, hkept, hbar, hpend, hquad⟩
  case hardware =>
    obtain ⟨hlevel, hdie⟩ := hwBarOf_names v row.2.1 s.g.die
    obtain ⟨t, ht, hkept, hvia, hpend⟩ := hwBarWord_waits row.2.1 row.2.2 hv hcoop htx hone hq
    have harr : (hwBarOf (setHwBar v (joinedBy s.g.gid (hwBarOf v row.2.1 s.g.die))) row.2.1 s.g.die).arrived =
        (hwBarOf v row.2.1 s.g.die).arrived ++ [s.g.gid] := 
      congrArg HwBar.arrived (hwBarOf_setHwBar v (b := joinedBy s.g.gid (hwBarOf v row.2.1 s.g.die)) hlevel hdie)
    simp only [hwBarRows, List.mem_cons, List.not_mem_nil, or_false] at hrow
    obtain rfl | rfl | rfl := hrow <;> exact ⟨t, _, ht, hkept, hvia, harr, hpend⟩
  case complete =>
    obtain ⟨hlevel, hbdie⟩ := hwBarOf_names v level die
    have hs0 : s.g.gid = 0 := congrArg Group.gid hsettled.1
    have hmembers : hwMembers s v.uid level die = [g] := by simp [hwMembers, allGroups, hs0, hgroups, hvia, hdie]
    have hexec := execHwBarrierComplete_completes hv (level := level) (die := die) (List.ne_nil_of_mem harr)
      (by rw [hmembers]; simpa using harr) haway
    dsimp only at hexec
    generalize ht : modViaduct v.uid (fun x => setHwBar x (completed (hwBarOf v level die))) s = t at hexec
    have htv : viaductOf? t v.uid = some (setHwBar v (completed (hwBarOf v level die))) := ht ▸ viaductOf?_modViaduct hv rfl
    have hbar : hwBarOf (setHwBar v (completed (hwBarOf v level die))) level die = completed (hwBarOf v level die) :=
      hwBarOf_setHwBar v (b := completed (hwBarOf v level die)) hlevel hbdie
    have htsettled : t.Settled := ht ▸ hsettled
    have hsplitsOf : splitsOf t g = [p] := by
      rw [splitsOf, if_neg (by rw [htsettled.1]; exact hgid), hsplits]
    obtain ⟨h, q, hgs, hqs, hqpend, hregs, hsregs, hvs⟩ := resumeSplit_hwWait htsettled (ht ▸ hgroups) hgid hres hsplits hmember hpend
      (hvia ▸ htv) (by rw [hdie, hbar]; exact Nat.lt_succ_self _)
    rw [hmembers, List.foldl_cons, List.foldl_nil, hsplitsOf, List.foldl_cons, List.foldl_nil] at hexec
    exact ⟨_, _, h, q, hexec, (viaductOf?_congr hvs _).trans htv, by rw [hbar]; rfl, by rw [hbar]; rfl, by rw [hbar]; rfl, hgs, hqs, hqpend, hregs, hsregs⟩

end Sys2Proof.Machine
end

section
/-! Splits divide, join and end (R208 to R211). -/

namespace Sys2Proof.Machine

open Sys2Proof Sys2Proof.Claims

/-! The split across a boundary and at the end of a blocked word. -/

/-- What says where a split is and which strands it has: its number, strands, active lanes, address and reconvergence stack. -/
def pathView (s : State) : Nat × W × W × Nat × List PathEntry := (s.sp.num, s.sp.member, s.sp.em, s.sp.pc, s.sp.stack)

/-- R300: a boundary leaves a split where it is. -/
theorem pathView_commitRegion (s : State) : pathView (commitRegion s) = pathView s := by
  have hbeats (n : Nat) (u : State) : pathView (addBeats n u) = pathView u := by
    unfold addBeats
    split <;> rfl
  have hpend (u : State) (p : Pending) : pathView (applyPending p u) = pathView u := by cases p <;> rfl
  unfold commitRegion
  exact (foldl_keeps pathView hpend _ _).trans (hbeats s.sp.beats _)

/-- The end of a blocked word leaves a split where it is. -/
theorem pathView_runMicros_nil (s : State) : pathView (runMicros [] s) = pathView s := by
  unfold runMicros settleRegion
  split <;> rfl

/-- R300: the path of a split after its boundary, field by field. -/
theorem afterBoundary_path (s : State) : (afterBoundary s).sp.num = s.sp.num ∧ (afterBoundary s).sp.member = s.sp.member ∧
    (afterBoundary s).sp.em = s.sp.em ∧ (afterBoundary s).sp.pc = s.sp.pc ∧ (afterBoundary s).sp.stack = s.sp.stack := by
  have h : pathView (afterBoundary s) = pathView s := pathView_commitRegion (atWord s)
  simpa only [pathView, Prod.mk.injEq] using h

/-- The path of a split at the end of its blocked word, field by field. -/
theorem runMicros_nil_path (s : State) : (runMicros [] s).sp.num = s.sp.num ∧ (runMicros [] s).sp.member = s.sp.member ∧
    (runMicros [] s).sp.em = s.sp.em ∧ (runMicros [] s).sp.pc = s.sp.pc ∧ (runMicros [] s).sp.stack = s.sp.stack := by
  simpa only [pathView, Prod.mk.injEq] using pathView_runMicros_nil s

/-- A part that is over ends its word. -/
theorem runMicros_over {m : Micro} {s t : State} (h : runMicro m s = .over t) (ms : List Micro) :
    runMicros (m :: ms) s = { t with sp := { t.sp with pend := [] } } := by rw [runMicros, h]

/-! Lists of splits. -/

/-- Where a split goes among others depends on its number and on whether it has strands. -/
theorem length_insertSplit_congr {p q : Split} (hnum : p.num = q.num) (hmember : p.member = q.member) (ps : List Split) :
    (insertSplit p ps).length = (insertSplit q ps).length := by
  induction ps with
  | nil =>
    simp only [insertSplit, hmember]
    split <;> rfl
  | cons x xs ih =>
    simp only [insertSplit, hmember, hnum]
    split_ifs <;> simp [ih]

/-- A split with strands that is put among others is one of them. -/
theorem mem_insertSplit_self {p : Split} (h : p.member ≠ 0) (ps : List Split) : p ∈ insertSplit p ps := by
  induction ps with
  | nil =>
    rw [insertSplit, if_neg h]
    exact List.mem_singleton_self p
  | cons x xs ih =>
    rw [insertSplit, if_neg h]
    split
    · exact List.mem_cons_self ..
    · exact List.mem_cons_of_mem _ ih

/-- A split that is put among others leaves them there. -/
theorem mem_insertSplit_of_mem {p q : Split} {ps : List Split} (h : q ∈ ps) : q ∈ insertSplit p ps := by
  induction ps with
  | nil => cases h
  | cons x xs ih =>
    rw [insertSplit]
    split_ifs
    · exact h
    · exact List.mem_cons_of_mem _ h
    · obtain rfl | h := List.mem_cons.mp h
      · exact List.mem_cons_self ..
      · exact List.mem_cons_of_mem _ (ih h)

/-- Three numbers leave one of four free. -/
theorem exists_free_number {xs : List Nat} (h : xs.length < 4) : ∃ n, (List.range 4).find? (fun i => !memNat i xs) = some n ∧ n ∉ xs := by
  cases hfind : (List.range 4).find? (fun i => !memNat i xs) with
  | some n =>
    have hfree : (!memNat n xs) = true := List.find?_some (p := fun i => !memNat i xs) hfind
    exact ⟨n, rfl, fun hmem => by simp [(memNat_iff n xs).mpr hmem] at hfree⟩
  | none =>
    have hall : List.range 4 ⊆ xs := fun i hi => by simpa [memNat_iff] using List.find?_eq_none.mp hfind i hi
    have := (List.nodup_range.subperm hall).length_le
    simp at this
    omega

/-! Division. -/

/-- R209: the split that takes the lanes that go to the target. -/
def childOf (s : State) (n : Nat) (taken : W) (a : Nat) : Split :=
  { s.sp with num := n, member := taken, em := taken, pc := a, widx := 0, regionPc := a, regionWord := 0, pend := [],
              ckpt := { s.sp.ckpt with em := taken } }

/-- R209: the state in which the split in focus has divided. -/
def divided (s : State) (n : Nat) (taken : W) (a : Nat) : State :=
  { s with sp := { s.sp with member := s.sp.em &&& ~~~ taken, em := s.sp.em &&& ~~~ taken },
           g := { s.g with splits := insertSplit (childOf s n taken a) s.g.splits } }

/-- R209: a split that divides gives the lanes taken to a split of a free number. -/
theorem runMicro_divide {s : State} (hcount : splitCount s < 4) (taken : W) (a : Nat) :
    ∃ n, n ∉ (insertSplit s.sp s.g.splits).map Split.num ∧ runMicro (.divide taken a) s = .done (divided s n taken a) := by
  obtain ⟨n, hn, hfree⟩ := exists_free_number (xs := (insertSplit s.sp s.g.splits).map Split.num) (by simpa [splitCount] using hcount)
  refine ⟨n, hfree, ?_⟩
  simp only [runMicro, runDivide, hcount, if_true, hn, Option.getD_some]
  rfl

/-- Lanes outside those taken are those outside the mask. -/
theorem and_not_taken (em m : W) : em &&& ~~~(em &&& m) = em &&& ~~~m := by
  ext i
  simp only [BitVec.getElem_and, BitVec.getElem_not]
  cases em[i] <;> simp

/-- R209: a branch by lanes that disagree divides its split after a boundary. -/
theorem execBrv_divides {k off : Nat} {s : State} (htx : inTx s = false) (hend : CanEnd s) (hbad : badTarget s (branchTarget s off) = false)
    (htaken : s.sp.em &&& maskGet s k ≠ 0) (hrest : s.sp.em &&& ~~~ maskGet s k ≠ 0) :
    exec (.brv k off) s = .next (runMicros [.divide (s.sp.em &&& maskGet s k) (branchTarget s off)] (afterBoundary s)) := by
  refine (issueWord_eff _ rfl (hazard_nil s)).trans (congrArg _ ?_)
  rw [← blockOn_boundary hend, brvEff]
  rw [and_not_taken, if_neg hrest, if_neg htaken, htx, hbad]
  rfl

/-! Join. -/

/-- R210: the effect of a join. -/
def joinEff (t : State) : State :=
  if t.sp.stack ≠ [] then blockOn [.boundary, .popPath] t
  else if 1 < splitCount t then blockOn [.boundary, .joinWait] t
  else t

/-- R210: a join outside a transaction has its effect. -/
theorem exec_join {s : State} (htx : inTx s = false) : exec .join s = .next (joinEff s) :=
  issueWord_eff joinEff (show trapIf (inTx s) .txState = none from (trapIf_none _ _).mpr htx) (hazard_nil s)

/-- R210: the split after the top entry of its stack is popped. -/
def popped (e : PathEntry) (rest : List PathEntry) (p : Split) : Split :=
  match e.kind with
  | .path => { p with stack := rest, em := e.mask, pc := e.target, widx := 0 }
  | .merge => { p with stack := rest, em := e.mask }

/-- The split in focus replaced. -/
def withSplit (p : Split) (s : State) : State := { s with sp := p }

theorem runMicro_popPath {s : State} {e : PathEntry} {rest : List PathEntry} (h : s.sp.stack = e :: rest) :
    runMicro .popPath s = .done (withSplit (popped e rest s.sp) s) := by
  simp only [runMicro, runPop, h, popped]
  cases e.kind <;> rfl

theorem popped_path (e : PathEntry) (rest : List PathEntry) (p : Split) : (popped e rest p).stack = rest ∧ (popped e rest p).em = e.mask ∧
    (popped e rest p).pc = (match e.kind with | .path => e.target | .merge => p.pc) := by
  unfold popped
  cases e.kind <;> exact ⟨rfl, rfl, rfl⟩

/-- R210: a split waits at a join for one that does not. -/
theorem runMicro_joinWait {s : State} (h : s.g.splits.any (fun p => !p.joining) = true) :
    runMicro .joinWait s = .wait .joinWait s := by
  have hall : s.g.splits.all Split.joining = false := by
    simpa [List.all_eq_not_any_not] using h
  simp [runMicro, runJoin, hall]

/-! Exit. -/

/-- R211: the state in which the active strands of the split in focus have ended. -/
def remaining (s : State) : State :=
  { s with sp := { s.sp with member := s.sp.member &&& ~~~ s.sp.em, em := s.sp.member &&& ~~~ s.sp.em } }

/-- R211: strands that end while others go on. -/
theorem runMicro_exitDo_some {s : State} (h : s.sp.member &&& ~~~ s.sp.em ≠ 0) : runMicro .exitDo s = .done (remaining s) := if_pos h

/-- R328: a withdrawal of watches changes no register, memory or trap record. -/
theorem kept_withdrawGroup (g : Group) (s : State) : Kept s (withdrawGroup g s) := by
  have hframe := withWatchesOf_withdrawGroup s g s
  generalize withdrawGroup g s = t at hframe ⊢
  exact (kept_iff s t).mpr (congrArg keptView hframe :)

/-- What a split has outstanding goes to another number: no register, memory or trap record changes. -/
theorem kept_renumberSplit (gid old new : Nat) (s : State) : Kept s (renumberSplit gid old new s) := by
  unfold renumberSplit modGroup
  dsimp only
  split <;> exact ⟨rfl, rfl, rfl, rfl, rfl, rfl, rfl, rfl, rfl⟩

/-- R211, R328: the state in which the group in focus has exited. -/
def exitedState (s : State) : State :=
  let t := renumberSplit s.g.gid s.sp.num endedSplit s
  withdrawGroup t.g { t with sp := { t.sp with member := 0, em := 0 }, g := { t.g with exited := true } }

/-- R211, R328: a group whose last strands end has exited. -/
theorem runMicro_exitDo_last {s : State} (h : s.sp.member &&& ~~~ s.sp.em = 0) (hsplits : s.g.splits = []) :
    runMicro .exitDo s = .over (exitedState s) := (if_neg (not_not.mpr h)).trans (if_pos hsplits)

theorem exitedState_exited (s : State) :
    (exitedState s).sp.member = 0 ∧ (exitedState s).g.exited = true ∧ Kept s (exitedState s) := by
  have hkept := kept_renumberSplit s.g.gid s.sp.num endedSplit s
  unfold exitedState
  generalize renumberSplit s.g.gid s.sp.num endedSplit s = t at hkept
  have hframe := withWatchesOf_withdrawGroup t t.g { t with sp := { t.sp with member := 0, em := 0 }, g := { t.g with exited := true } }
  exact ⟨(congrArg (fun u : State => u.sp.member) hframe :), (congrArg (fun u : State => u.g.exited) hframe :),
    kept_trans hkept (kept_withdrawGroup t.g { t with sp := { t.sp with member := 0, em := 0 }, g := { t.g with exited := true } })⟩

/-- R211: an exit outside a transaction ends strands after its boundary. -/
theorem execExit_goes {s : State} (htx : inTx s = false) (hend : CanEnd s) :
    exec .exit s = .next (runMicros [.exitDo] (afterBoundary s)) :=
  (issueWord_eff _ (show trapIf (inTx s) .txState = none from (trapIf_none _ _).mpr htx) (hazard_nil s)).trans
    (congrArg _ (blockOn_boundary hend _))

/-- Settles O33, word by word. -/
theorem splitsDivide : Obligations.SplitsDivide := by
  unfold Obligations.SplitsDivide
  refine ⟨fun k off s htx hend hbad hcount hmember htaken hrest => ?divides, fun k off s hnone hem => ?none, fun k off s hall hbad => ?all,
    fun s e rest htx hend hstack => ?pops, fun s htx hstack hone => ?single, fun s htx hend hstack hcount hany => ?waits,
    fun s htx hend => ⟨fun hrest => ?some, fun hrest hsplits => ?last⟩⟩
  case divides =>
    obtain ⟨hnum, hmem, hem, hpc, -⟩ := afterBoundary_path s
    have hsplits : (afterBoundary s).g.splits = s.g.splits := (congrArg (fun u : State => u.g.splits) (afterBoundary_frame s) :)
    have hcount' : splitCount (afterBoundary s) < 4 := by
      rw [splitCount, hsplits, length_insertSplit_congr hnum hmem]
      exact hcount
    obtain ⟨n, hfree, hrun⟩ := runMicro_divide hcount' (s.sp.em &&& maskGet s k) (branchTarget s off)
    obtain ⟨hnum', hmem', hem', hpc', -⟩ := runMicros_nil_path (divided (afterBoundary s) n (s.sp.em &&& maskGet s k) (branchTarget s off))
    have hg := congrArg Group.splits (runMicros_nil_g (divided (afterBoundary s) n (s.sp.em &&& maskGet s k) (branchTarget s off)))
    have hnot (p : Split) (hp : p ∈ insertSplit (afterBoundary s).sp (afterBoundary s).g.splits) : p.num ≠ n :=
      fun he => hfree (he ▸ List.mem_map_of_mem hp)
    have hrest' : (afterBoundary s).sp.em &&& ~~~(s.sp.em &&& maskGet s k) = s.sp.em &&& ~~~ maskGet s k := by rw [hem, and_not_taken]
    refine ⟨_, childOf (afterBoundary s) n (s.sp.em &&& maskGet s k) (branchTarget s off),
      (execBrv_divides htx hend hbad htaken hrest).trans (congrArg _ (runMicros_done hrun _)),
      kept_trans (afterBoundary_kept s) (runMicros_nil_kept (divided (afterBoundary s) n (s.sp.em &&& maskGet s k) (branchTarget s off))),
      hem'.trans hrest', hmem'.trans hem'.symm, hpc'.trans hpc, hnum'.trans hnum, hg ▸ mem_insertSplit_self htaken _, rfl, rfl, rfl,
      hnum ▸ (hnot _ (mem_insertSplit_self (hmem ▸ hmember) _)).symm, fun p hp => ?_⟩
    rw [← hsplits] at hp
    exact ⟨hg ▸ mem_insertSplit_of_mem hp, hnot p (mem_insertSplit_of_mem hp)⟩
  case none =>
    refine (issueWord_eff _ rfl (hazard_nil s)).trans (congrArg _ ?_)
    have hall : s.sp.em &&& ~~~(0 : W) = s.sp.em := BitVec.and_allOnes
    rw [brvEff, hnone, hall]
    exact (if_neg hem).trans (if_pos rfl)
  case all =>
    refine (issueWord_eff _ rfl (hazard_nil s)).trans (congrArg _ ?_)
    rw [← jumpTo_good hbad]
    exact if_pos (by rw [and_not_taken]; exact hall)
  case pops =>
    obtain ⟨-, -, -, hpc, hstk⟩ := afterBoundary_path s
    obtain ⟨hps, hpe, hpp⟩ := popped_path e rest (afterBoundary s).sp
    obtain ⟨-, -, hem', hpc', hstk'⟩ := runMicros_nil_path (withSplit (popped e rest (afterBoundary s).sp) (afterBoundary s))
    have hrun : joinEff s = runMicros [] (withSplit (popped e rest (afterBoundary s).sp) (afterBoundary s)) :=
      (if_pos (by simp [hstack])).trans ((blockOn_boundary hend _).trans (runMicros_done (runMicro_popPath (hstk.trans hstack)) _))
    refine ⟨_, (exec_join htx).trans (congrArg _ hrun), kept_trans (afterBoundary_kept s) (runMicros_nil_kept (withSplit _ (afterBoundary s))),
      hstk'.trans hps, hem'.trans hpe, runMicros_nil_pend _, (hpc'.trans hpp).trans ?_⟩
    cases e.kind <;> [rfl; exact hpc]
  case single =>
    exact (exec_join htx).trans (congrArg _ ((if_neg (not_not.mpr hstack)).trans (if_neg (by omega))))
  case waits =>
    obtain ⟨-, -, hem, -, -⟩ := afterBoundary_path s
    have hsplits : (afterBoundary s).g.splits = s.g.splits := (congrArg (fun u : State => u.g.splits) (afterBoundary_frame s) :)
    exact ⟨_, (exec_join htx).trans (congrArg _ ((if_neg (not_not.mpr hstack)).trans ((if_pos hcount).trans ((blockOn_boundary hend _).trans
      (runMicros_wait (runMicro_joinWait (hsplits ▸ hany)) _))))), afterBoundary_kept s, rfl, hem⟩
  case some =>
    obtain ⟨-, hmem, hem, -, -⟩ := afterBoundary_path s
    rw [← hmem, ← hem] at hrest ⊢
    have hexited : (afterBoundary s).g.exited = s.g.exited := (congrArg (fun u : State => u.g.exited) (afterBoundary_frame s) :)
    obtain ⟨-, hmem', hem', -, -⟩ := runMicros_nil_path (remaining (afterBoundary s))
    have hg := congrArg Group.exited (runMicros_nil_g (remaining (afterBoundary s)))
    exact ⟨_, (execExit_goes htx hend).trans (congrArg _ (runMicros_done (runMicro_exitDo_some hrest) _)),
      kept_trans (afterBoundary_kept s) (runMicros_nil_kept (remaining (afterBoundary s))), hmem', hem'.trans hmem'.symm, hg.trans hexited⟩
  case last =>
    obtain ⟨-, hmem, hem, -, -⟩ := afterBoundary_path s
    have hsplits' : (afterBoundary s).g.splits = s.g.splits := (congrArg (fun u : State => u.g.splits) (afterBoundary_frame s) :)
    obtain ⟨hnone, hexited, hkept⟩ := exitedState_exited (afterBoundary s)
    obtain ⟨hregs, -, -, -, -, -, hmemory, hwq, htraps⟩ := kept_trans (afterBoundary_kept s) hkept
    rw [← hmem, ← hem] at hrest
    have hexec := (execExit_goes htx hend).trans (congrArg _ (runMicros_over (runMicro_exitDo_last hrest (hsplits'.trans hsplits)) _))
    generalize exitedState (afterBoundary s) = u at hexec hnone hexited hregs hmemory hwq htraps
    exact ⟨_, hexec, hnone, hexited, hregs, hmemory, hwq, htraps⟩

end Sys2Proof.Machine
end

section
/-! What writes at homes, and the ends of packets and viaducts, leave unchanged (R271, R283, R378, R379, R389). -/

namespace Sys2Proof.Machine

open Sys2Proof Sys2Proof.Claims

/-- A state with the caches, clocks, accounts, watches, queues and waiting writes of s: what a write at a home changes. -/
def withHomeOf (s u : State) : State := { withUpkeepOf s u with wq := s.wq }

/-- Upkeep is part of what a write at a home changes. -/
theorem withHomeOf_of_upkeep {s t u : State} (h : withUpkeepOf s t = withUpkeepOf s u) : withHomeOf s t = withHomeOf s u :=
  congrArg (fun v : State => { v with wq := s.wq }) h

theorem withHomeOf_writeBytes (s : State) (a : Nat) (bytes : List (Nat × Byte)) (u : State) :
    withHomeOf s (bytes.foldl (fun v b => wrByte (a + b.1) b.2 v) u) = withHomeOf s u :=
  foldl_keeps (withHomeOf s) (fun _ _ => by rfl) bytes u

theorem withHomeOf_appendError (s : State) (r : ErrRec) (u : State) : withHomeOf s (appendError r u) = withHomeOf s u :=
  (congrArg (withHomeOf s) (appendError_frame r u) :)

/-- R283, R434: a write at a home, also one that is dropped for poison. -/
theorem withHomeOf_homeWrite (s : State) (ctx va src : Nat) (w : Writer) (l : Leaf) (bytes : List (Nat × Byte)) (u : State) :
    withHomeOf s (homeWrite ctx va src w l bytes u) = withHomeOf s u := by
  have hclock (p : Bool) (d : Nat) (v : State) : withUpkeepOf s (if p then clockWrite src d v else v) = withUpkeepOf s v := by
    cases p
    · rfl
    · exact withUpkeepOf_clockWrite s _ _ _
  unfold homeWrite
  dsimp only
  split
  · exact withHomeOf_appendError s _ u
  · refine (withHomeOf_of_upkeep (u := writeLineBytes l.phys bytes u) ?_).trans (withHomeOf_writeBytes s _ bytes u)
    exact (withUpkeepOf_evalWatches s _ _ _ _ _ _ _).trans ((withUpkeepOf_homeTouch s _ _ _ _).trans ((hclock _ _ _).trans
      (withUpkeepOf_invalidateRemote s _ _ _ _ _ _ _)))

theorem withHomeOf_recallHome (s : State) (va : Nat) (l : Leaf) (u : State) : withHomeOf s (recallHome va l u) = withHomeOf s u := by
  unfold recallHome
  split
  · exact withHomeOf_of_upkeep (withUpkeepOf_demoteLine s _ _ _ u)
  · rfl

theorem withHomeOf_writeLines (s : State) (space ctx va : Nat) (src : Option Nat) (w : Writer) (bs : List Byte) (u : State) :
    withHomeOf s (writeLines space ctx va src w bs u) = withHomeOf s u := by
  refine foldl_keeps (withHomeOf s) (fun v p => ?_) _ u
  split
  · rfl
  · exact (withHomeOf_homeWrite s _ _ _ _ _ _ _).trans (withHomeOf_recallHome s _ _ v)

theorem withHomeOf_firmwareWrite (s : State) (ctx va : Nat) (w : Writer) (bs : List Byte) (u : State) :
    withHomeOf s (firmwareWrite ctx va w bs u) = withHomeOf s u := withHomeOf_writeLines s _ _ _ _ _ _ u

/-- R378, R379: a queue that stops is written to its control block. -/
theorem withHomeOf_stopQueue (s : State) (qid : Nat) (u : State) : withHomeOf s (stopQueue qid u) = withHomeOf s u := by
  unfold stopQueue publishRd
  dsimp only
  split
  · exact (withHomeOf_firmwareWrite s _ _ _ _ _).trans (withHomeOf_firmwareWrite s _ _ _ _ _)
  · rfl

theorem withHomeOf_completePacket (s : State) (seq status detail : Nat) (u : State) :
    withHomeOf s (completePacket seq status detail u) = withHomeOf s u := by
  have hfinish := withHomeOf_of_upkeep (withUpkeepOf_finishPacket s seq status detail u)
  unfold completePacket
  dsimp only
  split
  · exact hfinish
  · split
    · exact (withHomeOf_stopQueue s _ _).trans hfinish
    · exact hfinish

/-- R389: a gang launch whose parts have all ended is over. -/
theorem withHomeOf_settleGang (s : State) (n : Nat) (u : State) : withHomeOf s (settleGang n u) = withHomeOf s u := by
  unfold settleGang
  split
  · rfl
  · dsimp only
    split
    · rfl
    · split
      · exact withHomeOf_completePacket s _ _ _ _
      · rfl

/-- R271, R389: the end of a viaduct reaches its packet or its gang. -/
theorem withHomeOf_endGang (s : State) (v : Viaduct) (status detail : Nat) (u : State) :
    withHomeOf s (endGang v status detail u) = withHomeOf s u := by
  unfold endGang
  split
  · exact withHomeOf_completePacket s _ _ _ u
  · dsimp only
    split <;> exact withHomeOf_settleGang s _ _

end Sys2Proof.Machine
end

section
/-! A viaduct stops at a trap (R239 to R241). -/

namespace Sys2Proof.Machine

open Sys2Proof Sys2Proof.Claims

/-! A group that stops. -/

/-- R240: a group that runs no more. -/
def Stopped (g : Group) : Prop := g.stopped = true ∧ g.splits = []

/-- R240: the loads and the waits for peers that a group gives up with its splits. -/
def givenUp (s : State) (g : Group) : Nat :=
  (s.ms.loads.filter (fun l => l.gid == g.gid)).length + ((splitsOf s g).flatMap (fun p => p.pend.filter Micro.isXshf)).length

/-- R240: a group that stops is changed, with the watch tables and the memory system; it has no splits, and L no longer counts what it
gave up. -/
theorem stopGroup_eq (g : Group) (s : State) : ∃ (f : Group → Group) (u : State), stopGroup g s = modGroup g.gid f u ∧
    { u with side := s.side, wat := s.wat, ms := s.ms } = s ∧
    ∀ x, (f x).gid = x.gid ∧ (f x).viaduct = x.viaduct ∧ (f x).die = x.die ∧ Stopped (f x) ∧ (f x).cntL = x.cntL - givenUp s g := by
  have hframe := withWatchesOf_withdrawGroup s g s
  unfold stopGroup
  generalize withdrawGroup g s = w at hframe ⊢
  have hloads : w.ms.loads = s.ms.loads := (congrArg (fun u : State => u.ms.loads) hframe :)
  refine ⟨_, _, rfl, ?_, fun x => ⟨rfl, rfl, rfl, ⟨rfl, rfl⟩, ?_⟩⟩
  · exact (congrArg (fun u : State => { u with ms := s.ms }) hframe :)
  · exact congrArg (fun ls : List Load => x.cntL - ((ls.filter (fun l => l.gid == g.gid)).length +
      ((splitsOf s g).flatMap (fun p => p.pend.filter Micro.isXshf)).length)) hloads

/-- R240: what the stop of a group leaves unchanged. -/
theorem stopGroup_frame (g : Group) (s : State) :
    { stopGroup g s with groups := s.groups, g := s.g, side := s.side, wat := s.wat, ms := s.ms } = s := by
  obtain ⟨f, u, heq, hframe, -⟩ := stopGroup_eq g s
  rw [heq]
  exact (congrArg (fun v : State => { v with groups := s.groups, g := s.g, side := s.side, wat := s.wat, ms := s.ms })
    (modGroup_frame g.gid f u) :).trans (congrArg (fun v : State => { v with groups := s.groups, g := s.g }) hframe :)

/-- The groups where one is in focus. -/
theorem mem_allGroups_focus {s : State} (h : s.g.gid ≠ 0) {y : Group} : y ∈ allGroups s ↔ y = s.g ∨ y ∈ s.groups := by
  rw [allGroups, if_neg h, List.mem_cons]

/-- R240: the groups after the stop of one: that of its number has stopped. -/
theorem mem_allGroups_stopGroup {g : Group} {s : State} (hs : s.g.gid ≠ 0) (halone : ∀ x ∈ s.groups, x.gid ≠ s.g.gid) {y : Group}
    (hy : y ∈ allGroups (stopGroup g s)) : ∃ x ∈ allGroups s, y.gid = x.gid ∧ y.viaduct = x.viaduct ∧
      ((Stopped x ∨ x.gid = g.gid) → Stopped y) := by
  obtain ⟨f, u, heq, hframe, hf⟩ := stopGroup_eq g s
  have hug : u.g = s.g := (congrArg State.g hframe :)
  have hugroups : u.groups = s.groups := (congrArg State.groups hframe :)
  have hstopped (x : Group) : (f x).gid = x.gid ∧ (f x).viaduct = x.viaduct ∧ ((Stopped x ∨ x.gid = g.gid) → Stopped (f x)) := by
    obtain ⟨hgid, hvia, -, hstop, -⟩ := hf x
    exact ⟨hgid, hvia, fun _ => hstop⟩
  rw [heq, modGroup, hug] at hy
  split at hy
  next hfocus =>
    have hfg : (f s.g).gid ≠ 0 := (hf s.g).1.symm ▸ hs
    obtain rfl | hy := (mem_allGroups_focus (s := { u with g := f s.g }) hfg).mp hy
    · exact ⟨s.g, (mem_allGroups_focus hs).mpr (.inl rfl), hstopped s.g⟩
    · have hy : y ∈ s.groups := hugroups ▸ hy
      exact ⟨y, (mem_allGroups_focus hs).mpr (.inr hy), rfl, rfl, fun h => h.resolve_right (hfocus ▸ halone y hy)⟩
  next hfocus =>
    obtain rfl | hy := (mem_allGroups_focus (s := { u with g := s.g, groups := updateAll (fun x => x.gid == g.gid) f u.groups }) hs).mp hy
    · exact ⟨s.g, (mem_allGroups_focus hs).mpr (.inl rfl), rfl, rfl, fun h => h.resolve_right hfocus⟩
    · obtain ⟨x, hx, rfl⟩ := List.mem_map.mp hy
      refine ⟨x, (mem_allGroups_focus hs).mpr (.inr (hugroups ▸ hx)), ?_⟩
      split
      · exact hstopped x
      next hne => exact ⟨rfl, rfl, fun h => h.resolve_right (by simpa using hne)⟩

/-- R240: the stop of a group leaves every group its number. -/
theorem stopGroup_gids {g : Group} {s : State} : (stopGroup g s).g.gid = s.g.gid ∧
    ∀ y ∈ (stopGroup g s).groups, ∃ x ∈ s.groups, y.gid = x.gid := by
  obtain ⟨f, u, heq, hframe, hf⟩ := stopGroup_eq g s
  have hug : u.g = s.g := (congrArg State.g hframe :)
  have hugroups : u.groups = s.groups := (congrArg State.groups hframe :)
  rw [heq, modGroup]
  split
  · exact ⟨(hf u.g).1.trans (congrArg Group.gid hug), fun y hy => ⟨y, hugroups ▸ hy, rfl⟩⟩
  · refine ⟨congrArg Group.gid hug, fun y hy => ?_⟩
    obtain ⟨x, hx, rfl⟩ := List.mem_map.mp hy
    refine ⟨x, hugroups ▸ hx, ?_⟩
    split
    · exact (hf x).1
    · rfl

/-- R240: the groups after the stop of some: all of their numbers have stopped. -/
theorem mem_allGroups_stopGroups {gs : List Group} {s : State} (hs : s.g.gid ≠ 0) (halone : ∀ x ∈ s.groups, x.gid ≠ s.g.gid) {y : Group}
    (hy : y ∈ allGroups (gs.foldl (fun w g => stopGroup g w) s)) : ∃ x ∈ allGroups s, y.viaduct = x.viaduct ∧
      ((Stopped x ∨ ∃ g ∈ gs, x.gid = g.gid) → Stopped y) := by
  induction gs generalizing s with
  | nil => exact ⟨y, hy, rfl, fun h => h.elim id fun ⟨g, hg, _⟩ => by cases hg⟩
  | cons g gs ih =>
    obtain ⟨hfocus, hgids⟩ := stopGroup_gids (g := g) (s := s)
    have halone' : ∀ x ∈ (stopGroup g s).groups, x.gid ≠ (stopGroup g s).g.gid := fun x hx => by
      obtain ⟨z, hz, he⟩ := hgids x hx
      rw [he, hfocus]
      exact halone z hz
    obtain ⟨z, hz, hvia, hstop⟩ := ih (hfocus ▸ hs) halone' hy
    obtain ⟨x, hx, hgid, hvia', hstop'⟩ := mem_allGroups_stopGroup hs halone hz
    refine ⟨x, hx, hvia.trans hvia', fun h => hstop ?_⟩
    obtain h | ⟨k, hk, he⟩ := h
    · exact .inl (hstop' (.inl h))
    · obtain rfl | hk := List.mem_cons.mp hk
      · exact .inl (hstop' (.inr he))
      · exact .inr ⟨k, hk, hgid.trans he⟩

/-! Spans that retire, and the end of the viaduct. -/

/-- R270: a span that retires takes groups away, and changes of its viaduct how many spans have retired. -/
theorem retireSpan_keeps (u : Nat) (s : State) : (∀ g ∈ allGroups (retireSpan u s), g ∈ allGroups s) ∧
    (retireSpan u s).traps = s.traps ∧
    ∃ n, (retireSpan u s).viaducts = updateFirst (fun v => v.uid == n) (fun v => { v with retired := v.retired + 1 }) s.viaducts := by
  have hframe : withWatchesOf s ((groupsOfSpan s u).foldl (fun t g => withdrawGroup g t) s) = withWatchesOf s s :=
    foldl_keeps (withWatchesOf s) (fun v g => withWatchesOf_withdrawGroup s g v) _ s
  unfold retireSpan
  dsimp only
  generalize (groupsOfSpan s u).foldl (fun t g => withdrawGroup g t) s = t at hframe
  have hg : t.g = s.g := (congrArg State.g hframe :)
  have hgroups : t.groups = s.groups := (congrArg State.groups hframe :)
  have hviaducts : t.viaducts = s.viaducts := (congrArg State.viaducts hframe :)
  refine ⟨fun g hgm => ?_, (congrArg State.traps hframe :), _, congrArg (updateFirst _ _) hviaducts⟩
  unfold allGroups at hgm ⊢
  simp only [modViaduct, hg, hgroups] at hgm
  by_cases h0 : s.g.gid = 0
  · simp only [h0, ne_eq, not_true_eq_false, and_false, if_false, if_true] at hgm ⊢
    exact (List.mem_filter.mp hgm).1
  · rw [if_neg h0]
    split at hgm
    · exact List.mem_cons_of_mem _ (List.mem_filter.mp hgm).1
    · obtain rfl | hgm := List.mem_cons.mp hgm
      · exact List.mem_cons_self ..
      · exact List.mem_cons_of_mem _ (List.mem_filter.mp hgm).1

/-- R240, R271: what is done about a viaduct of which no span is left changes no group and no trap record. -/
theorem settleViaduct_frame (n : Nat) (s : State) : (∀ g, g ∈ allGroups (settleViaduct n s) ↔ g ∈ allGroups s) ∧
    (settleViaduct n s).traps = s.traps := by
  cases hv : viaductOf? s n with
  | none =>
    unfold settleViaduct
    rw [hv]
    exact ⟨fun _ => Iff.rfl, rfl⟩
  | some v =>
    obtain h | ⟨status, detail, h⟩ := settleViaduct_cases hv
    · rw [h]
      exact ⟨fun _ => Iff.rfl, rfl⟩
    · have hframe := withHomeOf_endGang s v status detail (modViaduct n (fun x => { x with st := .complete }) s)
      rw [h]
      have hgroups : allGroups (endGang v status detail (modViaduct n (fun x => { x with st := .complete }) s)) = allGroups s :=
        (congrArg allGroups hframe :)
      exact ⟨fun g => by rw [hgroups], (congrArg State.traps hframe :)⟩

/-! The trap. -/

/-- R240: the viaduct in focus after a trap, before its groups stop. -/
def trappedViaduct (r : TrapRec) (v : Viaduct) : Viaduct := { v with st := .trapped, trap := v.trap.or (some r), chunks := [] }

/-- R240: the state in which a viaduct is marked as trapped with its record. -/
def markTrapped (n : Nat) (r : TrapRec) (s : State) : State := modViaduct n (trappedViaduct r) { s with traps := s.traps ++ [r] }

/-- R240: the state in which all groups of a trapped viaduct have stopped, the split in focus among them. -/
def groupsStopped (n : Nat) (r : TrapRec) (s : State) : State :=
  let u := markTrapped n r s
  let w := ((allGroups u).filter (fun g => g.viaduct == n)).foldl (fun w g => stopGroup g w) u
  if w.g.viaduct = n ∧ w.g.gid ≠ 0 then { w with sp := { w.sp with member := 0, em := 0, pend := [] } } else w

/-- R240: without a debugger a viaduct that runs stops: its groups stop, its spans retire where they can, and it is settled. -/
theorem stopViaduct_stops {s : State} {n : Nat} {v : Viaduct} (r : TrapRec) (hv : viaductOf? s n = some v) (hst : v.st = .started)
    (hdebug : ((ctxOf? s v.ctx).map (fun c => c.debugger)).getD false = false) :
    ∃ gone : List Nat, stopViaduct n r s = settleViaduct n (gone.foldl (fun w u => retireSpan u w) (groupsStopped n r s)) := by
  have hv' : viaductOf? { s with traps := s.traps ++ [r] } n = some v := hv
  have hdebug' : ((ctxOf? { s with traps := s.traps ++ [r] } v.ctx).map (fun c => c.debugger)).getD false = false := hdebug
  unfold stopViaduct
  simp only [hv', hst, hdebug', Bool.false_eq_true, if_false, reduceCtorEq]
  exact ⟨_, rfl⟩

theorem retireSpans_keep (gone : List Nat) (s : State) : let t := gone.foldl (fun w u => retireSpan u w) s
    (∀ g ∈ allGroups t, g ∈ allGroups s) ∧ t.traps = s.traps := by
  induction gone generalizing s with
  | nil => exact ⟨fun _ h => h, rfl⟩
  | cons u gone ih =>
    obtain ⟨hgroups, htraps⟩ := ih (retireSpan u s)
    obtain ⟨hgroups', htraps', -⟩ := retireSpan_keeps u s
    exact ⟨fun g hg => hgroups' g (hgroups g hg), htraps.trans htraps'⟩

theorem stopGroups_frame (gs : List Group) (s : State) : let t := gs.foldl (fun w g => stopGroup g w) s
    t.traps = s.traps ∧ t.viaducts = s.viaducts := by
  induction gs generalizing s with
  | nil => exact ⟨rfl, rfl⟩
  | cons g gs ih =>
    obtain ⟨htraps, hviaducts⟩ := ih (stopGroup g s)
    have hframe := stopGroup_frame g s
    exact ⟨htraps.trans (congrArg State.traps hframe :), hviaducts.trans (congrArg State.viaducts hframe :)⟩

/-- R240: the groups of a viaduct that stops have stopped. -/
theorem groupsStopped_stops {n : Nat} (r : TrapRec) {s : State} (hs : s.g.gid ≠ 0) (halone : ∀ x ∈ s.groups, x.gid ≠ s.g.gid) :
    ∀ g ∈ allGroups (groupsStopped n r s), g.viaduct = n → Stopped g := by
  intro y hy hvia
  have hy : y ∈ allGroups (((allGroups (markTrapped n r s)).filter (fun g => g.viaduct == n)).foldl (fun w g => stopGroup g w)
      (markTrapped n r s)) := by
    unfold groupsStopped at hy
    dsimp only at hy
    split at hy <;> exact hy
  obtain ⟨x, hx, he, hstop⟩ := mem_allGroups_stopGroups (s := markTrapped n r s) hs halone hy
  exact hstop (.inr ⟨x, List.mem_filter.mpr ⟨hx, by simpa [← he] using hvia⟩, rfl⟩)

theorem groupsStopped_frame (n : Nat) (r : TrapRec) (s : State) : (groupsStopped n r s).traps = s.traps ++ [r] ∧
    (groupsStopped n r s).viaducts = (markTrapped n r s).viaducts := by
  have h := stopGroups_frame ((allGroups (markTrapped n r s)).filter (fun g => g.viaduct == n)) (markTrapped n r s)
  unfold groupsStopped
  dsimp only
  split <;> exact h

theorem traps_modSplits (n : Nat) (f : Split → Split) (s : State) : (modSplits n f s).traps = s.traps :=
  (congrArg State.traps (withGroupsOf_modSplits s n f s) :)

/-- R239, R240: every stop of a viaduct adds one trap record. -/
theorem traps_stopViaduct (n : Nat) (r : TrapRec) (s : State) : (stopViaduct n r s).traps = s.traps ++ [r] := by
  unfold stopViaduct
  dsimp only
  split
  · rfl
  · split
    · rfl
    · split
      · exact foldl_keeps State.traps (fun u (g : Group) => traps_modSplits g.gid _ u) _ _
      · refine (settleViaduct_frame _ _).2.trans ((retireSpans_keep _ _).2.trans ?_)
        exact (groupsStopped_frame n r s).1

/-- R240, R241: a viaduct that has trapped, whether it has completed or not: it keeps a trap record and places nothing more. -/
def Trapped (v : Viaduct) : Prop := (v.st = .trapped ∨ v.st = .complete) ∧ v.chunks = [] ∧ v.trap.isSome

theorem trapped_retireSpans {n : Nat} (gone : List Nat) {s : State} (h : ∃ w, viaductOf? s n = some w ∧ Trapped w) :
    ∃ w, viaductOf? (gone.foldl (fun w u => retireSpan u w) s) n = some w ∧ Trapped w := by
  induction gone generalizing s with
  | nil => exact h
  | cons u gone ih =>
    refine ih ?_
    obtain ⟨w, hw, htrapped⟩ := h
    obtain ⟨-, -, k, hviaducts⟩ := retireSpan_keeps u s
    have hfind : (viaductOf? (retireSpan u s) n).map (fun v => (v.st, v.chunks, v.trap)) = some (w.st, w.chunks, w.trap) := by
      rw [viaductOf?, hviaducts]
      exact (find?_updateFirst_map (by intro; rfl) (by intro; rfl) _ _).trans (congrArg (Option.map _) hw)
    obtain ⟨x, hx, he⟩ := Option.map_eq_some_iff.mp hfind
    simp only [Prod.mk.injEq] at he
    obtain ⟨hst, hchunks, htrap⟩ := he
    exact ⟨x, hx, by rwa [Trapped, hst, hchunks, htrap]⟩

/-- R240, R271: a trapped viaduct that is settled has trapped all the same. -/
theorem trapped_settleViaduct {n : Nat} {s : State} (h : ∃ w, viaductOf? s n = some w ∧ Trapped w) :
    ∃ w, viaductOf? (settleViaduct n s) n = some w ∧ Trapped w := by
  obtain ⟨w, hw, hst, hchunks, htrap⟩ := h
  obtain heq | ⟨status, detail, heq⟩ := settleViaduct_cases hw
  · exact ⟨w, by rw [heq, hw], hst, hchunks, htrap⟩
  · refine ⟨{ w with st := .complete }, ?_, .inr rfl, hchunks, htrap⟩
    rw [heq, viaductOf?_endGang]
    exact viaductOf?_modViaduct hw rfl

/-- R239: the record of a trap of the split in focus. -/
def trapRecord (k : Trap) (s : State) : TrapRec :=
  let place := k.place.getD (s.iss.clause, s.iss.word)
  { viaduct := s.g.viaduct, clause := place.1, word := place.2, kind := k.kind, lane := k.lane,
    split := some s.sp.num, group := s.g.index, code := k.code, detail := k.detail, tick := s.tick }

/-- R241: the state in which the split in focus has stopped at a trap and %trapinfo is written, before its viaduct stops. -/
def atTrap (info : W64) (s : State) : State :=
  { s with g := { s.g with trapinfo := info }, sp := { s.sp with pc := s.iss.clause, widx := s.iss.word, pend := [] } }

theorem takeTrap_eq (k : Trap) (s : State) : ∃ info, takeTrap k s = stopViaduct s.g.viaduct (trapRecord k s) (atTrap info s) := ⟨_, rfl⟩

/-- R240: without a debugger the trap of a viaduct that runs stops its groups, retires its spans where they can, and settles it. -/
theorem takeTrap_stops {s : State} {v : Viaduct} (k : Trap) (hv : viaductOf? s s.g.viaduct = some v) (hst : v.st = .started)
    (hdebug : debuggerOn s = false) (hctx : v.ctx = s.g.ctx) : ∃ (info : W64) (gone : List Nat), takeTrap k s =
      settleViaduct s.g.viaduct (gone.foldl (fun w u => retireSpan u w) (groupsStopped s.g.viaduct (trapRecord k s) (atTrap info s))) := by
  obtain ⟨info, heq⟩ := takeTrap_eq k s
  obtain ⟨gone, hstop⟩ := stopViaduct_stops (s := atTrap info s) (trapRecord k s) hv hst (hctx ▸ hdebug)
  exact ⟨info, gone, heq.trans hstop⟩

/-- Settles O35: a trap adds its record; the groups of its viaduct stop one after the other, and what follows only takes groups away. -/
theorem trapsStopTheViaduct : Obligations.TrapsStopTheViaduct := by
  unfold Obligations.TrapsStopTheViaduct
  refine ⟨fun code s => rfl, fun code s hdebug => ?brk, fun k s => ?record, fun k s v hs hv hst hdebug hctx halone => ?groups,
    fun k s v w hv hst hdebug hctx hw => ?viaduct⟩
  case brk =>
    have hexec : exec (.brk code) s = execBrk code s := rfl
    rw [hexec, execBrk, hdebug]
    rfl
  case record =>
    obtain ⟨info, heq⟩ := takeTrap_eq k s
    rw [heq]
    exact ⟨trapRecord k s, traps_stopViaduct s.g.viaduct (trapRecord k s) (atTrap info s), rfl, rfl, rfl, rfl, rfl, rfl, rfl, rfl, rfl⟩
  case groups =>
    have hvuid : v.uid = s.g.viaduct := by simpa using List.find?_some hv
    obtain ⟨info, gone, hstop⟩ := takeTrap_stops k hv hst hdebug hctx
    intro g hg hvia
    rw [hstop] at hg
    have hleft := (retireSpans_keep gone _).1 g (((settleViaduct_frame _ _).1 g).mp hg)
    exact groupsStopped_stops (s := atTrap info s) (trapRecord k s) hs halone g hleft (hvia.trans hvuid)
  case viaduct =>
    have hvuid : v.uid = s.g.viaduct := by simpa using List.find?_some hv
    obtain ⟨info, gone, hstop⟩ := takeTrap_stops k hv hst hdebug hctx
    have hmarked : viaductOf? (groupsStopped s.g.viaduct (trapRecord k s) (atTrap info s)) s.g.viaduct = some (trappedViaduct (trapRecord k s) v) :=
      (viaductOf?_congr (groupsStopped_frame _ _ _).2 _).trans (viaductOf?_modViaduct hv rfl)
    have htrapped : Trapped (trappedViaduct (trapRecord k s) v) := ⟨.inl rfl, rfl, by cases h : v.trap <;> simp [trappedViaduct, h]⟩
    obtain ⟨x, hx, hgoal⟩ := trapped_settleViaduct (trapped_retireSpans gone ⟨_, hmarked, htrapped⟩)
    rw [hstop, hvuid] at hw
    obtain rfl : x = w := Option.some.inj (hx.symm.trans hw)
    exact hgoal

end Sys2Proof.Machine
end

section
/-! Windows and streams: what counts and numbers change (R355, R356). -/

namespace Sys2Proof.Machine

open Sys2Proof Sys2Proof.Claims

/-! Windows. -/

/-- R355: a state whose window record of a name has changed. -/
def windowChanged (die ctx w : Nat) (f : Window → Window) (s : State) : State :=
  { s with fab := { s.fab with windows := updateFirst (fun x => x.die == die && x.ctx == ctx && x.idx == w) f s.fab.windows } }

theorem modWindow_eq (die ctx w : Nat) (f : Window → Window) (s : State) :
    modWindow die ctx w f s = evalMonitors (windowChanged die ctx w f s) := rfl

/-- R332, R355: a window that changes changes no more than its record, and slots that fire. -/
theorem withFlipOf_modWindow (die ctx w : Nat) (f : Window → Window) (s : State) :
    { withFlipOf s (modWindow die ctx w f s) with fab := { (modWindow die ctx w f s).fab with windows := s.fab.windows } } = s := by
  have hfire : withFlipOf s (evalMonitors (windowChanged die ctx w f s)) = withFlipOf s (windowChanged die ctx w f s) :=
    withFlipOf_evalMonitors (windowChanged die ctx w f s)
  rw [modWindow_eq]
  generalize evalMonitors (windowChanged die ctx w f s) = t at hfire ⊢
  exact (congrArg (fun u : State => { u with fab := { u.fab with windows := s.fab.windows } }) hfire :)

theorem windows_modWindow (die ctx w : Nat) (f : Window → Window) (s : State) : (modWindow die ctx w f s).fab.windows =
    updateFirst (fun x => x.die == die && x.ctx == ctx && x.idx == w) f s.fab.windows := by
  have hfire := withFlipOf_evalMonitors (windowChanged die ctx w f s)
  rw [modWindow_eq]
  generalize evalMonitors (windowChanged die ctx w f s) = t at hfire ⊢
  exact (congrArg (fun u : State => u.fab.windows) hfire :)

theorem windowRec_of_windows {s t : State} (h : t.fab.windows = s.fab.windows) (die ctx w : Nat) :
    windowRec t die ctx w = windowRec s die ctx w := by simp only [windowRec, h]

/-- R355: a record carries its own names. -/
theorem windowRec_names {s : State} {die ctx w : Nat} {x : Window} (h : windowRec s die ctx w = some x) :
    x.die = die ∧ x.ctx = ctx ∧ x.idx = w := by
  simpa only [Bool.and_eq_true, beq_iff_eq, and_assoc] using List.find?_some h

/-- R355: the record of a window that changes. -/
theorem windowRec_modWindow {s : State} {die ctx w : Nat} {x : Window} {f : Window → Window} (h : windowRec s die ctx w = some x)
    (hf : (f x).die = x.die ∧ (f x).ctx = x.ctx ∧ (f x).idx = x.idx) : windowRec (modWindow die ctx w f s) die ctx w = some (f x) := by
  obtain ⟨hdie, hctx, hidx⟩ := windowRec_names h
  rw [windowRec, windows_modWindow]
  exact find?_updateFirst h (by simp [hf, hdie, hctx, hidx])

/-- R355: the record of another window. -/
theorem windowRec_modWindow_ne {s : State} {die ctx v w : Nat} {f : Window → Window} (hne : v ≠ w) (hf : ∀ x, (f x).idx = x.idx) :
    windowRec (modWindow die ctx v f s) die ctx w = windowRec s die ctx w := by
  rw [windowRec, windows_modWindow]
  refine find?_updateFirst_ne (fun x hx => ?_) _
  simp only [Bool.and_eq_true, beq_iff_eq] at hx
  simp [hf, hx.2, hne]

/-- R332: no slot that fires changes where a split stands in its region. -/
theorem replay_evalMonitors (s : State) : (evalMonitors s).sp.replay = s.sp.replay := by
  have hsplits (n : Nat) (f : Split → Split) (hf : ∀ p, (f p).replay = p.replay) (u : State) :
      (modSplits n f u).sp.replay = u.sp.replay := by
    unfold modSplits
    split
    · exact hf _
    · rfl
  have hgroup (n : Nat) (f : Group → Group) (u : State) : (modGroup n f u).sp = u.sp := by
    unfold modGroup
    split <;> rfl
  have hfire (n i k : Nat) (u : State) : (fireSlot n i k false u).sp.replay = u.sp.replay := by
    unfold fireSlot
    dsimp only
    split
    · rw [hsplits, hgroup]
      exact fun _ => rfl
    · rfl
  refine foldl_keeps (fun u : State => u.sp.replay) (fun u n => ?_) _ s
  unfold evalMonitor
  split
  · rfl
  · split
    · refine foldl_keeps (fun u : State => u.sp.replay) (fun v i => ?_) _ u
      dsimp only
      split
      · exact hfire _ _ _ _
      · rfl
    · rfl

/-- R355: lanes counted at their windows change the windows, and slots that fire. -/
theorem withFlipOf_noteIssuedAll (s : State) (die ctx : Nat) (ls : List Nat) (u : State) :
    { withFlipOf s (noteIssuedAll die ctx ls u) with fab := { (noteIssuedAll die ctx ls u).fab with windows := s.fab.windows } } =
      { withFlipOf s u with fab := { u.fab with windows := s.fab.windows } } := by
  unfold noteIssuedAll
  refine foldl_keeps (fun v : State => { withFlipOf s v with fab := { v.fab with windows := s.fab.windows } }) (fun v w => ?_) _ u
  exact (congrArg (fun x : State => { withFlipOf s x with fab := { x.fab with windows := s.fab.windows } })
    (withFlipOf_modWindow die ctx w _ v) :)

theorem replay_noteIssuedAll (die ctx : Nat) (ls : List Nat) (u : State) :
    (noteIssuedAll die ctx ls u).sp.replay = u.sp.replay :=
  foldl_keeps (f := fun t w => noteIssued die ctx w (ls.filter (fun x => x == w)).length t) (fun v : State => v.sp.replay)
    (fun _ _ => replay_evalMonitors _) _ u

/-- R355: a window's record with n lanes more issued. -/
def issuedBy (n : Nat) (x : Window) : Window := { x with issued := (x.issued + n) % 2 ^ 32 }

/-- R355: each window of a list is counted once, with the lanes that name it. -/
theorem windowRec_foldl_noteIssued {die ctx w : Nat} (count : Nat → Nat) (ws : List Nat) (hws : ws.Nodup) (s : State) {x : Window}
    (h : windowRec s die ctx w = some x) :
    windowRec (ws.foldl (fun t v => noteIssued die ctx v (count v) t) s) die ctx w = some (if w ∈ ws then issuedBy (count w) x else x) := by
  induction ws generalizing s x with
  | nil => simpa using h
  | cons v ws ih =>
    obtain ⟨hv, hrest⟩ := List.nodup_cons.mp hws
    rw [List.foldl_cons]
    by_cases hw : v = w
    · subst hw
      have hrec : windowRec (noteIssued die ctx v (count v) s) die ctx v = some (issuedBy (count v) x) :=
        windowRec_modWindow h ⟨rfl, rfl, rfl⟩
      rw [ih hrest _ hrec]
      simp [hv]
    · have hrec : windowRec (noteIssued die ctx v (count v) s) die ctx w = some x :=
        (windowRec_modWindow_ne (f := issuedBy (count v)) hw fun _ => rfl).trans h
      rw [ih hrest _ hrec]
      simp [Ne.symm hw]

/-- R355: the record of a window that lanes name, once they are counted. -/
theorem windowRec_noteIssuedAll {s : State} {die ctx w n : Nat} {ls : List Nat} {x : Window} (h : windowRec s die ctx w = some x)
    (hn : ls.count w = n + 1) : windowRec (noteIssuedAll die ctx ls s) die ctx w = some (issuedBy (n + 1) x) := by
  have hmem : w ∈ ls.eraseDups := List.mem_eraseDups.mpr (List.count_pos_iff.mp (by omega))
  have hfold := windowRec_foldl_noteIssued (fun v => (ls.filter (fun y => y == v)).length) ls.eraseDups (nodup_eraseDups ls) s h
  rw [if_pos hmem, ← List.countP_eq_length_filter, ← List.count, hn] at hfold
  exact hfold

/-! Streams. -/

/-- R356: a stream that is replaced, and every other stream. -/
theorem streamOf_setStream_any (t : Stream) (s : State) (ctx src agent w : Nat) : streamOf (setStream t s) ctx src agent w =
    if t.ctx = ctx ∧ t.src = src ∧ t.agent = agent ∧ t.win = w then t else streamOf s ctx src agent w := by
  unfold streamOf setStream
  rw [List.find?_append, List.find?_filter, List.find?_singleton]
  by_cases hnames : t.ctx = ctx ∧ t.src = src ∧ t.agent = agent ∧ t.win = w
  · obtain ⟨rfl, rfl, rfl, rfl⟩ := hnames
    rw [List.find?_eq_none.mpr fun x _ => by simp; tauto]
    simp
  · have hpred : (fun x : Stream => decide ((!(x.ctx == t.ctx && x.src == t.src && x.agent == t.agent && x.win == t.win)) = true ∧
        (x.ctx == ctx && x.src == src && x.agent == agent && x.win == w) = true)) =
        fun x => x.ctx == ctx && x.src == src && x.agent == agent && x.win == w := by
      funext x
      rw [Bool.eq_iff_iff, decide_eq_true_iff]
      refine ⟨And.right, fun h => ⟨?_, h⟩⟩
      simp only [Bool.and_eq_true, beq_iff_eq, and_assoc] at h
      obtain ⟨rfl, rfl, rfl, rfl⟩ := h
      simp only [Bool.not_eq_true', Bool.eq_false_iff, ne_eq, Bool.and_eq_true, beq_iff_eq, and_assoc]
      exact fun ⟨h1, h2, h3, h4⟩ => hnames ⟨h1.symm, h2.symm, h3.symm, h4.symm⟩
    have hnone : (t.ctx == ctx && t.src == src && t.agent == agent && t.win == w) = false := by
      rw [Bool.eq_false_iff]
      simpa only [ne_eq, Bool.and_eq_true, beq_iff_eq, and_assoc] using hnames
    rw [hpred, if_neg hnames, hnone]
    simp

/-- R356: a stream that gives its next numbers to n lanes. -/
def numbersAfter (next n : Nat) : Nat := if n = 0 then next else (next + n) % 2 ^ 32

/-- R356: each stream gives a number to each of its lanes. -/
theorem next_takeSeqs_any (ctx src : Nat) (ls : List (Nat × Nat)) (s : State) (agent w : Nat) :
    (streamOf (takeSeqs ctx src ls s).2 ctx src agent w).next =
      numbersAfter (streamOf s ctx src agent w).next (ls.count (agent, w)) := by
  induction ls generalizing s with
  | nil => rfl
  | cons p ls ih =>
    obtain ⟨hctx, hsrc, hagent, hwin⟩ := streamOf_names s ctx src p.1 p.2
    simp only [takeSeqs, ih, takeSeq]
    rw [streamOf_setStream_any]
    simp only [hctx, hsrc, hagent, hwin, true_and, List.count_cons]
    by_cases hp : p = (agent, w)
    · subst hp
      simp only [and_self, if_true, beq_self_eq_true, numbersAfter, nextSeq, Nat.add_one_ne_zero, if_false]
      split <;> omega
    · have hother : ¬(p.1 = agent ∧ p.2 = w) := fun h => hp (Prod.ext h.1 h.2)
      simp [hp, hother]

/-- R356: a stream that gave numbers counts on modulo 2^32. -/
theorem next_takeSeqs_named {ctx src agent w n : Nat} {ls : List (Nat × Nat)} (s : State) (h : ls.count (agent, w) = n + 1) :
    (streamOf (takeSeqs ctx src ls s).2 ctx src agent w).next = ((streamOf s ctx src agent w).next + (n + 1)) % 2 ^ 32 := by
  rw [next_takeSeqs_any, h]
  rfl

end Sys2Proof.Machine
end

section
/-! Words of major C go out (R231 to R237, R355, R356, R362). -/

namespace Sys2Proof.Machine

open Sys2Proof Sys2Proof.Claims

/-! The lanes of a command. -/

/-- R231: the lanes of a command that the active lanes send, each with its agent, window, offset, datum and key. -/
def startLanes (ns : List Nat) (lane : Nat → Nat × Nat × Nat × W64 × Nat) : List FabLane :=
  ns.map (fun l => FabLane.start l (lane l).1 (lane l).2.1 (lane l).2.2.1 (lane l).2.2.2.1 (lane l).2.2.2.2)

/-- R232: a target pair that passes names its agent, window and offset. -/
theorem laneTarget_ok {s : State} {a l : Nat} {offset : Bool} (h : PairOk s a l offset) : laneTarget s a offset l =
    .ok (bitsOf (vGet s a l).toNat 11 0, bitsOf (vGet s a l).toNat 19 16, (vGet s (a + 1) l).toNat) := by
  obtain ⟨hagent, hwin, hlow, hhigh, hoff⟩ := h
  have hdom : agentInDomain s (bitsOf (vGet s a l).toNat 11 0) = true := by
    simpa [agentInDomain, localAgent] using hagent
  have hbound : (windowOf? s s.g.die s.g.ctx (bitsOf (vGet s a l).toNat 19 16)).isNone = false := by
    simpa [Option.isNone_iff_eq_none, Option.isSome_iff_ne_none] using hwin
  have haligned : ¬(offset = true ∧ (vGet s (a + 1) l).toNat % 4 ≠ 0) := fun h => h.2 (hoff h.1)
  simp only [laneTarget, hdom, hbound, hlow, hhigh, Bool.not_true, Bool.false_eq_true, ne_eq, not_true_eq_false, or_self, if_false]
  rw [if_neg haligned]

/-- R232: lanes whose target pairs pass. -/
theorem windowLanes_ok {s : State} {a : Nat} {offset : Bool} (data : Nat → W64) {ns : List Nat} (h : ∀ l ∈ ns, PairOk s a l offset) :
    windowLanes s a offset data ns = .ok (startLanes ns (pairLane s a offset data)) := by
  induction ns with
  | nil => rfl
  | cons l ns ih =>
    obtain ⟨hl, hrest⟩ := List.forall_mem_cons.mp h
    simp only [windowLanes, laneTarget_ok hl, ih hrest]
    rfl

/-- R236: lanes of mord.alloc whose addresses pass. -/
theorem allocLanes_ok {s : State} {a : Nat} {off : Nat → Nat} {ns : List Nat}
    (h : ∀ l ∈ ns, mordPlace s 64 l (vGet64 s a l) = .ok (off l)) :
    allocLanes s a ns = .ok (startLanes ns (fun l => (0, 0, off l, 0, 0))) := by
  induction ns with
  | nil => rfl
  | cons l ns ih =>
    obtain ⟨hl, hrest⟩ := List.forall_mem_cons.mp h
    simp only [allocLanes, hl, ih hrest]
    rfl

/-- R237: lanes of mord.send whose addresses pass. -/
theorem sendLanes_ok {s : State} {a b : Nat} {off : Nat → Nat} {ns : List Nat}
    (h : ∀ l ∈ ns, mordPlace s 1 l (vGet64 s (a + 2) l) = .ok (off l)) :
    sendLanes s a b ns = .ok (startLanes ns (fun l => (0, 0, off l, vGet64 s a l, (vGet s b l).toNat % 65536))) := by
  induction ns with
  | nil => rfl
  | cons l ns ih =>
    obtain ⟨hl, hrest⟩ := List.forall_mem_cons.mp h
    simp only [sendLanes, hl, ih hrest]
    rfl

/-- R356: the streams of lanes with target pairs. -/
theorem streams_startLanes (s : State) (a : Nat) (offset : Bool) (data : Nat → W64) :
    (startLanes (lanesOf s.sp.em) (pairLane s a offset data)).map (fun l => (l.agent, l.win)) = pairStreams s a := by
  simp [startLanes, pairStreams, pairLane, FabLane.start, Function.comp_def]

/-- R356: lanes that find their streams open pass none of them. -/
theorem streamFull_open {s : State} {a : Nat} (h : StreamsOpen s a) :
    streamFull s s.g.ctx (agentOf s s.g.die) (pairStreams s a) = false := by
  refine List.any_eq_false.mpr fun p hp => ?_
  have hopen := h p (List.mem_eraseDups.mp hp)
  rw [List.count, List.countP_eq_length_filter] at hopen
  simpa using hopen

/-! The command that is sent. -/

/-- R231: the command that the split in focus sends. -/
def sentFab (s : State) (kind : FabKind) (d : Nat) (desc : W64) (ls : List FabLane) (seqs : List Nat) : FabCmd :=
  { uid := s.uid, gid := s.g.gid, ctx := s.g.ctx, src := agentOf s s.g.die, taken := false, span := s.g.span, split := s.sp.num,
    die := s.g.die, clause := s.iss.clause, word := s.iss.word, kind := kind, d := d, desc := desc, pos := s.sp.replay + 1,
    cancelled := false, lanes := ls.zipIdx.map (fun p => { p.1 with seq := nthD 0 seqs p.2 }) }

/-- R231: a command enters the fabric queue, and L or C rises. -/
def queueFab (c : FabCmd) (s : State) : State :=
  { s with
    eng := { s.eng with fabs := s.eng.fabs ++ [c] },
    g := if c.kind.countsL then { s.g with cntL := s.g.cntL + 1 } else { s.g with cntC := s.g.cntC + 1 } }

/-- R356: the numbers that the lanes of a command take, and what is left then. -/
def fabNumbers (s : State) (ls : List FabLane) : List Nat × State :=
  takeSeqs s.g.ctx (agentOf s s.g.die) (ls.map (fun l => (l.agent, l.win))) { s with uid := s.uid + 1 }

/-- R355, R356: the lanes of a command have their numbers and are counted at their windows. -/
def countedFab (s : State) (ls : List FabLane) : State :=
  noteIssuedAll s.g.die s.g.ctx (ls.map (fun l => l.win)) (fabNumbers s ls).2

theorem sendFab_plain {kind : FabKind} (h : kind.streams = false) (d : Nat) (desc : W64) (ls : List FabLane) (s : State) :
    sendFab kind d desc ls s = queueFab (sentFab s kind d desc ls []) { s with uid := s.uid + 1 } := by
  simp only [sendFab, h, Bool.false_eq_true, if_false]
  rfl

theorem sendFab_streams {kind : FabKind} (h : kind.streams = true) (d : Nat) (desc : W64) (ls : List FabLane) (s : State) :
    sendFab kind d desc ls s = queueFab (sentFab s kind d desc ls (fabNumbers s ls).1) (countedFab s ls) := by
  simp only [sendFab, h, if_true]
  rfl

/-- What a command that goes out finds, and what it may not change. -/
def fabView (s : State) : (Engines × Nat × Nat × MemSys) × SMap W × SMap W64 × SMap W × SMap W × Flags × W × List Host.Cell × List Host.Cell ×
    List TrapRec := ((s.eng, s.g.cntL, s.g.cntC, s.ms), keptView s)

/-- R231: a command of lanes that pass, sent from a state that this view does not tell from s. -/
theorem fabSent_queueFab {s u : State} (hu : fabView u = fabView s) (kind : FabKind) (d : Nat) (desc : W64)
    (lane : Nat → Nat × Nat × Nat × W64 × Nat) (seqs : List Nat) :
    FabSent s (queueFab (sentFab s kind d desc (startLanes (lanesOf s.sp.em) lane) seqs) u) kind d desc lane := by
  simp only [fabView, Prod.mk.injEq] at hu
  obtain ⟨⟨heng, hL, hC, hms⟩, hkept⟩ := hu
  have hlanes {α : Type} (f : FabLane → α) (hf : ∀ l n, f { l with seq := n } = f l) :
      (sentFab s kind d desc (startLanes (lanesOf s.sp.em) lane) seqs).lanes.map f = (startLanes (lanesOf s.sp.em) lane).map f := by
    have h : f ∘ (fun p : FabLane × Nat => { p.1 with seq := nthD 0 seqs p.2 }) = f ∘ Prod.fst := funext fun p => hf p.1 _
    rw [sentFab, List.map_map, h, ← List.map_map, List.zipIdx_map_fst]
  refine ⟨⟨sentFab s kind d desc (startLanes (lanesOf s.sp.em) lane) seqs, ?_, rfl, rfl, rfl, rfl, rfl, rfl, rfl, rfl, rfl, rfl, rfl,
    rfl, rfl, rfl, (hlanes _ fun _ _ => rfl).trans ?_, fun l hl => ?_⟩, ?_, ?_, (kept_iff _ _).mpr (Eq.trans ?_ hkept), hms⟩
  · simp only [queueFab, heng]
  · simp [startLanes, FabLane.start, Function.comp_def]
  · obtain ⟨p, hp, rfl⟩ := List.mem_map.mp hl
    obtain ⟨n, -, hn⟩ := List.mem_map.mp (List.fst_mem_of_mem_zipIdx hp)
    simp [← hn, FabLane.start]
  all_goals cases hkind : kind.countsL
  all_goals simp [queueFab, sentFab, hkind, hL, hC, keptView]

/-- R355, R356: lanes that take numbers and are counted change windows, streams, and slots that fire. -/
theorem countedFab_frame (s : State) (ls : List FabLane) :
    { withFlipOf s (countedFab s ls) with
      uid := s.uid, fab := { (countedFab s ls).fab with windows := s.fab.windows, streams := s.fab.streams } } = s := by
  have hcount := withFlipOf_noteIssuedAll s s.g.die s.g.ctx (ls.map (fun l => l.win)) (fabNumbers s ls).2
  have hnumber := takeSeqs_frame s.g.ctx (agentOf s s.g.die) (ls.map (fun l => (l.agent, l.win))) { s with uid := s.uid + 1 }
  exact ((congrArg (fun u : State => { u with uid := s.uid, fab := { u.fab with streams := s.fab.streams } }) hcount :)).trans
    ((congrArg (fun u : State => { withFlipOf s u with uid := s.uid, fab := { u.fab with windows := s.fab.windows } }) hnumber :))

theorem fabView_countedFab (s : State) (ls : List FabLane) : fabView (countedFab s ls) = fabView s :=
  (congrArg fabView (countedFab_frame s ls) :)

theorem replay_countedFab (s : State) (ls : List FabLane) : (countedFab s ls).sp.replay = s.sp.replay :=
  (replay_noteIssuedAll _ _ _ _).trans (congrArg (fun u : State => u.sp.replay) (takeSeqs_frame s.g.ctx (agentOf s s.g.die)
    (ls.map (fun l => (l.agent, l.win))) { s with uid := s.uid + 1 }) :)

theorem iss_countedFab (s : State) (ls : List FabLane) : (countedFab s ls).iss = s.iss :=
  (congrArg State.iss (countedFab_frame s ls) :)

/-- R355: the windows that lanes name have counted them. -/
theorem windowRec_countedFab {s : State} {ls : List FabLane} {w n : Nat} {x : Window} (h : windowRec s s.g.die s.g.ctx w = some x)
    (hn : (ls.map (fun l => l.win)).count w = n + 1) : windowRec (countedFab s ls) s.g.die s.g.ctx w = some (issuedBy (n + 1) x) := by
  refine windowRec_noteIssuedAll ?_ hn
  have hframe := takeSeqs_frame s.g.ctx (agentOf s s.g.die) (ls.map (fun l => (l.agent, l.win))) { s with uid := s.uid + 1 }
  exact (windowRec_of_windows (congrArg (fun u : State => u.fab.windows) hframe :) _ _ _).trans h

/-- R356: the streams that lanes name have given their numbers. -/
theorem next_countedFab {s : State} {ls : List FabLane} {agent w n : Nat}
    (hn : (ls.map (fun l => (l.agent, l.win))).count (agent, w) = n + 1) :
    (streamOf (countedFab s ls) s.g.ctx (agentOf s s.g.die) agent w).next =
      ((streamOf s s.g.ctx (agentOf s s.g.die) agent w).next + (n + 1)) % 2 ^ 32 := by
  have hcount := withFlipOf_noteIssuedAll s s.g.die s.g.ctx (ls.map (fun l => l.win)) (fabNumbers s ls).2
  have hstreams : (countedFab s ls).fab.streams = (fabNumbers s ls).2.fab.streams := (congrArg (fun u : State => u.fab.streams) hcount :)
  rw [streamOf, hstreams]
  exact next_takeSeqs_named { s with uid := s.uid + 1 } hn

/-! Words. -/

/-- R231: a command whose lanes pass and that has room is sent. -/
theorem fabEff_sends {s : State} {kind : FabKind} {ranges : List (Nat × Nat)} {srcs scas : List Nat} (h : FabReady s kind ranges srcs scas)
    {lanes : Except Trap (List FabLane)} {ls : List FabLane} (hlanes : lanes = .ok ls)
    (hopen : kind.streams = true → streamFull s s.g.ctx (agentOf s s.g.die) (ls.map (fun l => (l.agent, l.win))) = false)
    {bad : Bool} (hbad : bad = false) (d : Nat) (desc : W64) : fabEff kind d desc bad lanes s = sendFab kind d desc ls s := by
  obtain ⟨-, -, -, -, -, hem, hcnt, hroom⟩ := h
  have hstream : (kind.streams && streamFull s s.g.ctx (agentOf s s.g.die) (ls.map (fun l => (l.agent, l.win)))) = false := by
    simpa using hopen
  subst hlanes hbad
  rw [fabEff, if_neg hem]
  simp [fabStalls, hroom, hstream, Nat.not_le.mpr hcnt]

/-- R226, R231: a word of major C whose checks pass acts. -/
theorem fabWord_eff {s t : State} {kind : FabKind} {ranges : List (Nat × Nat)} {srcs scas : List Nat} (h : FabReady s kind ranges srcs scas)
    {checks : Option Trap} (hchecks : checks = none) {vs : List Nat} (hvs : regsOf ranges = vs) {eff : State → State} (heff : eff s = t) :
    fabWord checks vs scas eff s = .next t := by
  obtain ⟨htx, -, hhazard, -⟩ := h
  subst hvs hchecks heff
  exact issueWord_eff _ (by simp [firstTrap, trapIf, htx]) hhazard

theorem fabReady_range {s : State} {kind : FabKind} {ranges : List (Nat × Nat)} {srcs scas : List Nat} (h : FabReady s kind ranges srcs scas) :
    rangeTrap s ranges = none := (rangeTrap_none _ _).mpr h.2.1

/-- R226, R231: a word of major C whose checks pass and whose registers carry no mark acts. -/
theorem fabWord_goes {s t : State} {kind : FabKind} {ranges : List (Nat × Nat)} {srcs scas : List Nat} (h : FabReady s kind ranges srcs scas)
    {checks : Option Trap} (hchecks : checks = none) {vs : List Nat} (hvs : regsOf ranges = vs) {eff : State → State} (heff : eff s = t) :
    fabWord checks vs scas (readGuard srcs eff) s = .next t :=
  fabWord_eff h hchecks hvs ((readGuard_clear eff h.2.2.2.1).trans heff)

/-- R233: a word that is sent and counted. -/
theorem counted_queueFab {s u : State} {f : State → State} {c : FabCmd} (hnew : s.sp.kept ≤ s.sp.replay) (hf : f s = queueFab c u)
    (hiss : u.iss.stalled = false) : counted f s = countReplay (queueFab c u) :=
  hf ▸ counted_acts hnew (by rw [hf]; exact hiss)

/-- R231, R233, R355, R356: a word with target pairs is sent, its lanes with their numbers and counted at their windows. -/
theorem counted_sendsPairs {s : State} {kind : FabKind} {ranges : List (Nat × Nat)} {srcs scas : List Nat}
    (h : FabReady s kind ranges srcs scas) (hkind : kind.streams = true) (hnew : s.sp.kept ≤ s.sp.replay) {a : Nat} {offset : Bool}
    (hpairs : ∀ l ∈ lanesOf s.sp.em, PairOk s a l offset) (hopen : StreamsOpen s a) (d : Nat) (desc : State → W64) {bad : State → Bool}
    (hbad : bad s = false) (data : State → Nat → W64) :
    let ls := startLanes (lanesOf s.sp.em) (pairLane s a offset (data s))
    counted (fun t => fabEff kind d (desc t) (bad t) (windowLanes t a offset (data t) (lanesOf t.sp.em)) t) s =
      countReplay (queueFab (sentFab s kind d (desc s) ls (fabNumbers s ls).1) (countedFab s ls)) := by
  intro ls
  have hfull : streamFull s s.g.ctx (agentOf s s.g.die) (ls.map (fun l => (l.agent, l.win))) = false :=
    (streams_startLanes s a offset (data s)).symm ▸ streamFull_open hopen
  refine counted_queueFab hnew ?_ ?_
  · exact (fabEff_sends h (windowLanes_ok (data s) hpairs) (fun _ => hfull) hbad d (desc s)).trans (sendFab_streams hkind _ _ _ _)
  · rw [iss_countedFab]
    exact h.2.2.2.2.1

/-- R231, R234: put.win, coll.red and coll.bcast go out. -/
theorem sendWord_sends {s : State} {kind : FabKind} {d a b : Nat} {bad : Nat → Bool} (i : Instr)
    (hexec : exec i s = sendWord kind d a b bad s) (hkind : kind.streams = true) (hbad : bad (sGet s b).toNat = false) :
    Sends s i kind d a b := by
  intro h hnew hpairs hopen lane
  have hsent := counted_sendsPairs h hkind hnew hpairs hopen d (fun t => sGet t b) (bad := fun t => bad (sGet t b).toNat) hbad
    (fun t l => zext64 (vGet t d l))
  let ls := startLanes (lanesOf s.sp.em) lane
  refine ⟨countReplay (queueFab (sentFab s kind d (sGet s b) ls (fabNumbers s ls).1) (countedFab s ls)), ?_,
    fabSent_queueFab (fabView_countedFab s ls) kind d (sGet s b) lane _, congrArg (· + 1) (replay_countedFab s ls),
    fun w x n hx hn => windowRec_countedFab hx ?_, fun agent w n hn => next_countedFab ?_⟩
  · exact hexec.trans (fabWord_goes h (fabReady_range h) rfl hsent)
  · have hwins : ls.map (fun l => l.win) = (lanesOf s.sp.em).map (fun l => (lane l).2.1) := List.map_map
    rw [hwins, ← hn, List.count, List.countP_map]
    rfl
  · rw [← hn, streams_startLanes]

/-- R231, R234, R237, R362: a word that names no stream is queued as it is. -/
theorem fabEff_queues {s : State} {kind : FabKind} {ranges : List (Nat × Nat)} {srcs scas : List Nat} (h : FabReady s kind ranges srcs scas)
    (hkind : kind.streams = false) {lanes : Except Trap (List FabLane)} {lane : Nat → Nat × Nat × Nat × W64 × Nat}
    (hlanes : lanes = .ok (startLanes (lanesOf s.sp.em) lane)) (d : Nat) (desc : W64) :
    fabEff kind d desc false lanes s =
      queueFab (sentFab s kind d desc (startLanes (lanesOf s.sp.em) lane) []) { s with uid := s.uid + 1 } :=
  (fabEff_sends h hlanes (fun hs => absurd hs (by simp [hkind])) rfl d desc).trans (sendFab_plain hkind _ _ _ _)

/-- R231: what is queued is sent. -/
theorem queued_sent (s : State) (kind : FabKind) (d : Nat) (desc : W64) (lane : Nat → Nat × Nat × Nat × W64 × Nat) :
    FabSent s (queueFab (sentFab s kind d desc (startLanes (lanesOf s.sp.em) lane) []) { s with uid := s.uid + 1 }) kind d desc lane :=
  fabSent_queueFab (s := s) (u := { s with uid := s.uid + 1 }) rfl kind d desc lane []

/-- R231, R233, R237: a mordant word whose lanes pass is queued and counted. -/
theorem counted_queues {s : State} {kind : FabKind} {ranges : List (Nat × Nat)} {srcs scas : List Nat} (h : FabReady s kind ranges srcs scas)
    (hnew : s.sp.kept ≤ s.sp.replay) (hkind : kind.streams = false) {lanes : State → Except Trap (List FabLane)}
    {lane : Nat → Nat × Nat × Nat × W64 × Nat} (hlanes : lanes s = .ok (startLanes (lanesOf s.sp.em) lane)) (d : Nat) :
    ∃ t, counted (fun u => fabEff kind d 0 false (lanes u) u) s = t ∧ FabSent s t kind d 0 lane ∧ t.sp.replay = s.sp.replay + 1 :=
  ⟨_, counted_queueFab hnew (fabEff_queues h hkind hlanes d 0) h.2.2.2.2.1, queued_sent s kind d 0 lane, rfl⟩

/-- R231, R233: a word that is not replayed acts. -/
theorem not_replayed {s : State} (hnew : s.sp.kept ≤ s.sp.replay) : replayed s = false := by
  simp [replayed, Nat.not_lt.mpr hnew]

/-- R21, R231: the checks of a word that brings a word to each lane. -/
theorem fabReady_checks {s : State} {kind : FabKind} {ranges : List (Nat × Nat)} {srcs scas : List Nat}
    (h : FabReady s kind ranges srcs scas) {ds : List Nat} (hds : ∀ d ∈ ds, s.g.live ≤ d) :
    firstTrap [rangeTrap s ranges, liveTrap s ds] = none := by
  simpa [firstTrap_none] using ⟨fabReady_range h, (liveTrap_none _ _).mpr hds⟩

/-- R231: the lanes of a word that reads a record. -/
theorem recordLanes_ok (s : State) : (.ok (recordLanes s) : Except Trap (List FabLane)) = .ok (startLanes (lanesOf s.sp.em) recordLane) :=
  rfl

/-- R235: the state in which a word waits for its peer. -/
def exchanging (d a b : Nat) (s : State) : State :=
  { atWord { s with g := { s.g with cntL := s.g.cntL + 1 } } with sp := { s.sp with
      pend := [.xshf d a (bitsOf (sGet s b).toNat 31 0) (bitsOf (sGet s b).toNat 38 32) s.tick], pendAt := (s.iss.clause, s.iss.word) } }

/-- R235: an exchange whose checks pass holds its split until its peer comes. -/
theorem xshfEff_waits {s : State} {d a b : Nat} (hnew : s.sp.kept ≤ s.sp.replay) (hbits : bitsOf (sGet s b).toNat 63 39 = 0)
    (hpeer : peerExists s (bitsOf (sGet s b).toNat 31 0) (bitsOf (sGet s b).toNat 38 32) = true) (hL : s.g.cntL < 63) :
    xshfEff d a b s = exchanging d a b s := by
  simp only [xshfEff, not_replayed hnew, hbits, hpeer, Nat.not_le.mpr hL, Bool.false_eq_true, ne_eq, not_true_eq_false, Bool.not_true,
    if_false]
  rfl

/-- Settles O36, word by word: the checks pass, the lanes of the command are those that its target pairs or addresses name, and it is
queued, counted at its windows and streams where it has any. -/
theorem fabricWordsGoOut : Obligations.FabricWordsGoOut := by
  unfold Obligations.FabricWordsGoOut
  refine ⟨?coll, ?put, ?get, ?add, ?alloc, ?send, ?free, ?read, ?stat, ?xshf⟩
  case coll =>
    intro d a b s hhigh hlow htyp hroutine
    have hdesc : badCollDesc (sGet s b).toNat = false := by
      have hzero : bitsOf (sGet s b).toNat 63 48 = 0 := by
        rw [bitsOf]
        omega
      simp only [badCollDesc, hzero, hlow, bne_self_eq_false, Bool.false_or, Bool.or_eq_false_iff, decide_eq_false_iff_not]
      omega
    exact ⟨sendWord_sends _ rfl rfl hdesc, sendWord_sends _ rfl rfl hdesc⟩
  case put =>
    intro d a b s hflags
    exact sendWord_sends _ rfl rfl (by simp [badPutFlags, hflags])
  case get =>
    intro d a s h hlive hpairs
    refine ⟨_, ?_, queued_sent s .getWin d 0 (pairLane s a true (fun _ => 0)), rfl⟩
    exact fabWord_goes h (fabReady_checks h (ds := [d]) (by simpa using hlive)) rfl
      (fabEff_queues h rfl (windowLanes_ok (fun _ => 0) hpairs) d 0)
  case add =>
    intro a b s h hnew hpairs hopen
    have hsent := counted_sendsPairs h rfl hnew hpairs hopen 0 (fun t => sGet t b) (bad := fun _ => false) rfl (fun t _ => sGet t b)
    let ls := startLanes (lanesOf s.sp.em) (pairLane s a false (fun _ => sGet s b))
    refine ⟨countReplay (queueFab (sentFab s .winAdd 0 (sGet s b) ls (fabNumbers s ls).1) (countedFab s ls)), ?_,
      fabSent_queueFab (fabView_countedFab s ls) .winAdd 0 (sGet s b) _ _, congrArg (· + 1) (replay_countedFab s ls)⟩
    exact fabWord_goes h (fabReady_range h) rfl hsent
  case alloc =>
    intro d a off s h hnew hlive hlanes
    obtain ⟨t, ht, hsent, hreplay⟩ := counted_queues h hnew rfl (lanes := fun u => allocLanes u a (lanesOf u.sp.em)) (allocLanes_ok hlanes) d
    exact ⟨t, fabWord_goes h (fabReady_checks h (ds := [d, d + 1]) (by simp; omega)) rfl
      ((if_neg (by simp [not_replayed hnew])).trans ht), hsent, hreplay⟩
  case send =>
    intro d a b off s h hnew hlive hlanes
    obtain ⟨t, ht, hsent, hreplay⟩ :=
      counted_queues h hnew rfl (lanes := fun u => sendLanes u a b (lanesOf u.sp.em)) (sendLanes_ok hlanes) d
    exact ⟨t, fabWord_goes h (fabReady_checks h (ds := [d]) (by simpa using hlive)) rfl
      ((if_neg (by simp [not_replayed hnew])).trans ht), hsent, hreplay⟩
  case free =>
    intro a s h hnew
    obtain ⟨t, ht, hsent, hreplay⟩ := counted_queues h hnew rfl
      (lanes := fun t => .ok ((lanesOf t.sp.em).map (fun l => FabLane.start l 0 0 0 (vGet64 t a l) 0)))
      (lane := fun l => (0, 0, 0, vGet64 s a l, 0)) rfl 0
    exact ⟨t, fabWord_goes h (fabReady_range h) rfl ht, hsent, hreplay⟩
  case read =>
    intro d b s h hlive
    have hchecks := fabReady_checks h (ds := [d]) (by simpa using hlive)
    have hist : FabReady s .histRead [(d, 1)] [] [b] := h
    refine ⟨fun hbound => ⟨_, ?_, queued_sent s .winRead d (sGet s b) recordLane, rfl⟩,
      ⟨_, ?_, queued_sent s .histRead d (sGet s b) recordLane, rfl⟩⟩
    · have hidx : bitsOf (sGet s b).toNat 3 0 = (sGet s b).toNat % 16 := by simp [bitsOf]
      have hlanes : winReadLanes s b = .ok (startLanes (lanesOf s.sp.em) recordLane) := by
        rw [winReadLanes, hidx, if_neg (by simpa [Option.isNone_iff_eq_none, Option.isSome_iff_ne_none] using hbound), recordLanes_ok]
      exact fabWord_eff (eff := fun t => fabEff .winRead d (sGet t b) false (winReadLanes t b) t) h hchecks rfl
        (fabEff_queues h rfl hlanes d (sGet s b))
    · exact fabWord_eff (eff := fun t => fabEff .histRead d (sGet t b) false (.ok (recordLanes t)) t) hist hchecks rfl
        (fabEff_queues hist rfl (recordLanes_ok s) d (sGet s b))
  case stat =>
    intro d s h hlive
    refine ⟨_, ?_, queued_sent s .mordStat d 0 recordLane, rfl⟩
    exact fabWord_eff (eff := fun t => fabEff .mordStat d 0 false (.ok (recordLanes t)) t) h
      (fabReady_checks h (ds := [d]) (by simpa using hlive)) rfl (fabEff_queues h rfl (recordLanes_ok s) d 0)
  case xshf =>
    intro d a b s htx hd ha hlive hhazard hpoison hnew hbits hpeer hL
    refine ⟨exchanging d a b s, ?_, (kept_iff _ _).mpr rfl, rfl, rfl⟩
    have hchecks : firstTrap [trapIf (inTx s) .txState, firstTrap [rangeTrap s [(d, 1), (a, 1)], liveTrap s [d]]] = none := by
      simp only [firstTrap_none, List.forall_mem_cons, List.not_mem_nil, false_imp_iff, implies_true, and_true, rangeTrap_none,
        liveTrap_none]
      exact ⟨(trapIf_none _ _).mpr htx, ⟨hd, ha⟩, hlive⟩
    rw [show exec (.xshf d a b) s = execXshf d a b s from rfl, execXshf, fabWord, issueWord_eff _ hchecks hhazard,
      readGuard_clear _ hpoison, xshfEff_waits hnew hbits hpeer hL]

end Sys2Proof.Machine
end

section
/-! Commands in the fabric engine: a lane that acts, one that is applied, and a command that ends (R231, R307, R355). -/

namespace Sys2Proof.Machine

open Sys2Proof Sys2Proof.Claims

/-! Lists. -/

/-- The first element of one test, if it meets another, is the first of both. -/
theorem find?_and_of_find? {α : Type} {p q : α → Bool} {xs : List α} {x : α} (h : xs.find? p = some x) (hq : q x = true) :
    xs.find? (fun y => p y && q y) = some x := by
  induction xs with
  | nil => cases h
  | cons y ys ih =>
    by_cases hy : p y = true
    · obtain rfl : y = x := by simpa [hy] using h
      simp [hy, hq]
    · simp only [Bool.not_eq_true] at hy
      rw [List.find?_cons_of_neg (by simp [hy])] at h
      rw [List.find?_cons_of_neg (by simp [hy])]
      exact ih h

/-- The first element changed twice. -/
theorem updateFirst_updateFirst {α : Type} {p : α → Bool} {f : α → α} (hf : ∀ x, p (f x) = p x) (g : α → α) (xs : List α) :
    updateFirst p g (updateFirst p f xs) = updateFirst p (fun x => g (f x)) xs := by
  induction xs with
  | nil => rfl
  | cons x xs ih =>
    cases hx : p x
    · simp [updateFirst, hx, ih]
    · simp [updateFirst, hx, hf]

/-- The first element of a key changed, where no two have it. -/
theorem updateFirst_eq_map {α : Type} {key : α → Nat} {xs : List α} (h : (xs.map key).Nodup) (k : Nat) (f : α → α) :
    updateFirst (fun x => key x == k) f xs = xs.map (fun x => if key x == k then f x else x) := by
  refine (updateFirst_eq_updateAll (List.Pairwise.imp ?_ (List.pairwise_map.mp h)) f).trans rfl
  intro x y hne hx
  have hx' : key x = k := by simpa using hx
  simpa [← hx'] using Ne.symm hne

/-! A lane that acts. -/

/-- Command c has left its queue. -/
def takenState (c : FabCmd) (s : State) : State := modFab c.uid (fun x => { x with taken := true }) s

/-- R231: an event on the next lane of a command acts on it. -/
theorem onLane_of {s : State} {g : Group} {c : FabCmd} {l : FabLane} {kind : FabKind} (h : LaneOf s g c l kind) {kinds : List FabKind}
    (hkind : kind ∈ kinds) (f : FabCmd → FabLane → State → State) : onLane c.uid kinds f s = f c l (takenState c s) := by
  obtain ⟨-, -, hk, hc, -, -, -, -, hmay, hnext, -⟩ := h
  have hany : kinds.any (fun k => k == c.kind) = true := List.any_eq_true.mpr ⟨kind, hkind, by simp [hk]⟩
  simp only [onLane, find?_and_of_find? (q := fun c => kinds.any (fun k => k == c.kind)) hc hany, hmay, hnext, Bool.not_true,
    Bool.false_eq_true, if_false]
  rfl

/-- The next lane of a command is one of its lanes. -/
theorem mem_of_next {c : FabCmd} {l : FabLane} (h : c.next? = some l) : l ∈ c.lanes := by
  unfold FabCmd.next? at h
  dsimp only at h
  split at h
  · exact List.mem_of_find?_eq_some h
  · rcases Option.or_eq_some_iff.mp h with h | ⟨-, h⟩
    · exact List.mem_of_find?_eq_some h
    · exact List.mem_of_find?_eq_some h

theorem find_takenState {s : State} {c : FabCmd} (h : s.eng.fabs.find? (fun x => x.uid == c.uid) = some c) :
    (takenState c s).eng.fabs.find? (fun x => x.uid == c.uid) = some { c with taken := true } :=
  find?_updateFirst (f := fun x : FabCmd => { x with taken := true }) h (by simp)

/-- What the engine keeps of the commands other than c. -/
def otherFabs (c : FabCmd) (s : State) : List FabCmd := s.eng.fabs.filter (fun x => x.uid != c.uid)

theorem otherFabs_modFab (c : FabCmd) {f : FabCmd → FabCmd} (hf : ∀ x, (f x).uid = x.uid) (s : State) :
    otherFabs c (modFab c.uid f s) = otherFabs c s :=
  filter_updateFirst (p := fun x : FabCmd => x.uid == c.uid) (fun x => by rw [hf]) s.eng.fabs

/-! A lane that is applied. -/

/-- R231: a lane that is applied, and acknowledged or not. -/
def doneLane (acked : Bool) (y : FabLane) : FabLane := { y with applied := true, acked := acked, held := false }

/-- R231: a command with the lane of a number applied. -/
def withDone (lane : Nat) (acked : Bool) (x : FabCmd) : FabCmd :=
  { x with lanes := updateFirst (fun y => y.lane == lane) (doneLane acked) x.lanes }

/-- R231: the lane l of command c applied, and acknowledged or not. -/
def doneState (c : FabCmd) (l : FabLane) (acked : Bool) (s : State) : State := modFab c.uid (withDone l.lane acked) s

theorem laneApplied_eq (c : FabCmd) (l : FabLane) (acked : Bool) (s : State) :
    laneApplied c.uid l.lane acked s = settleFab c.uid (doneState c l acked s) := rfl

theorem find_doneState {t : State} {c k : FabCmd} (h : t.eng.fabs.find? (fun x => x.uid == c.uid) = some k) (l : FabLane) (acked : Bool) :
    (doneState c l acked t).eng.fabs.find? (fun x => x.uid == c.uid) = some (withDone l.lane acked k) :=
  find?_updateFirst (f := withDone l.lane acked) h (List.find?_some h :)

/-- R231: a command with a lane that waits for its acknowledgement stays. -/
theorem laneApplied_waits {t : State} {c k : FabCmd} {l : FabLane} (hk : t.eng.fabs.find? (fun x => x.uid == c.uid) = some k)
    (hl : ∃ y ∈ k.lanes, y.lane = l.lane) : laneApplied c.uid l.lane false t = doneState c l false t := by
  obtain ⟨y, hy, hlane⟩ := hl
  obtain ⟨as, z, bs, -, -, hlanes⟩ := exists_updateFirst_eq (doneLane false) (p := fun y => y.lane == l.lane) (xs := k.lanes)
    (List.any_eq_true.mpr ⟨y, hy, by simpa using hlane⟩)
  have hall : (withDone l.lane false k).lanes.all (fun y => y.acked) = false := by
    rw [withDone, hlanes]
    simp [doneLane]
  rw [laneApplied_eq, settleFab, find_doneState hk]
  exact if_neg (by simp [hall])

/-- R231: a lane that its event applies, in a state with the commands of s. -/
theorem laneApplied_doneState {s t : State} {c : FabCmd} {l : FabLane} (ht : t.eng.fabs = (takenState c s).eng.fabs) :
    LaneApplied s (doneState c l false t) c l := by
  have h := updateFirst_updateFirst (p := fun x : FabCmd => x.uid == c.uid) (f := fun x => { x with taken := true }) (fun _ => rfl)
    (withDone l.lane false) s.eng.fabs
  exact (congrArg (updateFirst (fun x : FabCmd => x.uid == c.uid) (withDone l.lane false)) ht).trans h

/-- R231: a lane that its event applies waits for its acknowledgement. -/
theorem laneApplied_of_laneOf {s t : State} {g : Group} {c : FabCmd} {l : FabLane} {kind : FabKind} (h : LaneOf s g c l kind)
    (ht : t.eng.fabs = (takenState c s).eng.fabs) : laneApplied c.uid l.lane false t = doneState c l false t := by
  obtain ⟨-, -, -, hc, -, -, -, -, -, hnext, -⟩ := h
  have hfind : t.eng.fabs.find? (fun x => x.uid == c.uid) = some { c with taken := true } := ht ▸ find_takenState hc
  exact laneApplied_waits hfind ⟨l, mem_of_next hnext, rfl⟩

/-! A command that ends. -/

/-- R231: the counter that a command of a kind is counted on falls. -/
def counterDown (kind : FabKind) (g : Group) : Group :=
  { g with cntL := g.cntL - (if kind.countsL then 1 else 0), cntC := g.cntC - (if kind.countsL then 0 else 1) }

/-- R231: command c is gone. -/
def goneState (c : FabCmd) (s : State) : State := { s with eng := { s.eng with fabs := otherFabs c s } }

/-- R231, R307: a command whose lanes are all acknowledged ends. -/
theorem settleFab_ends {t : State} {c k : FabCmd} (hgid : c.gid ≠ 0) (hk : t.eng.fabs.find? (fun x => x.uid == c.uid) = some k)
    (hsame : k.gid = c.gid ∧ k.kind = c.kind) (hlive : c.kind.countsL = true → k.cancelled = false)
    (hall : k.lanes.all (fun y => y.acked) = true) :
    settleFab c.uid t = modGroup c.gid (counterDown c.kind) (goneState c t) := by
  obtain ⟨hkgid, hkind⟩ := hsame
  have hdown : (fun g : Group =>
      if !c.kind.countsL then { g with cntC := g.cntC - 1 } else if k.cancelled then g else { g with cntL := g.cntL - 1 }) =
      counterDown c.kind := by
    funext g
    cases hL : c.kind.countsL
    · simp [counterDown, hL]
    · simp [counterDown, hL, hlive hL]
  simp only [settleFab, hk, hall, if_true, modIssuer, hkgid, if_neg hgid, hkind, hdown]
  rfl

/-- R231: a command of one lane ends when that lane is acknowledged. -/
theorem laneApplied_ends {t : State} {c k : FabCmd} {l : FabLane} (hgid : c.gid ≠ 0)
    (hk : t.eng.fabs.find? (fun x => x.uid == c.uid) = some k) (hsame : k.gid = c.gid ∧ k.kind = c.kind)
    (hlive : c.kind.countsL = true → k.cancelled = false)
    (hall : ∀ y ∈ (withDone l.lane true k).lanes, y.acked = true) :
    laneApplied c.uid l.lane true t = modGroup c.gid (counterDown c.kind) (goneState c t) := by
  have hother : otherFabs c (doneState c l true t) = otherFabs c t := otherFabs_modFab c (f := withDone l.lane true) (fun _ => rfl) t
  rw [laneApplied_eq, settleFab_ends hgid (find_doneState hk l true) hsame hlive (List.all_eq_true.mpr hall), goneState, hother]
  rfl

/-- R231: the state after a command has ended. -/
theorem laneEnded_of {s t u : State} {g : Group} {c : FabCmd} {f : Group → Group} (ht : t = modGroup c.gid f u)
    (hidle : u.g.gid = 0) (hgid : c.gid ≠ 0) (hg : groupOf? u c.gid = some g)
    (hf : ∀ x, (f x).gid = x.gid) (hcnt : (f g).cntL = (counterDown c.kind g).cntL ∧ (f g).cntC = (counterDown c.kind g).cntC)
    (hregs : (f g).sregs = g.sregs ∧ (f g).kregs = g.kregs) (hfabs : u.eng.fabs = otherFabs c s) (hmem : u.mem = s.mem) :
    LaneEnded s t g (f g) c := by
  have hframe := modGroup_frame c.gid f u
  have hgot : groupOf? t c.gid = some (f g) := by
    rw [ht, groupOf?_modGroup_map hidle hgid hf, hg, Option.map_some, if_pos rfl]
  rw [← ht] at hframe
  exact ⟨(congrArg (fun v : State => v.eng.fabs) hframe :).trans hfabs, hgot, hcnt.1, hcnt.2, hregs.1, hregs.2,
    (congrArg State.mem hframe :).trans hmem⟩

end Sys2Proof.Machine
end

section
/-! Words that a command brings to its lanes (R231, R234, R237). -/

namespace Sys2Proof.Machine

open Sys2Proof Sys2Proof.Claims

/-- A group changed twice. -/
theorem modGroup_modGroup {n : Nat} {f : Group → Group} (hf : ∀ x, (f x).gid = x.gid) (g : Group → Group) (s : State) :
    modGroup n g (modGroup n f s) = modGroup n (fun x => g (f x)) s := by
  by_cases h : s.g.gid = n
  · simp [modGroup, h, hf]
  · have hupd : updateAll (fun x : Group => x.gid == n) g (updateAll (fun x => x.gid == n) f s.groups) =
        updateAll (fun x => x.gid == n) (fun x => g (f x)) s.groups := by
      simp only [updateAll, List.map_map]
      refine List.map_congr_left fun x _ => ?_
      by_cases hx : x.gid = n <;> simp [hx, hf]
    simp [modGroup, h, hupd]

theorem goneState_modGroup (c : FabCmd) (n : Nat) (f : Group → Group) (s : State) :
    goneState c (modGroup n f s) = modGroup n f (goneState c s) := by
  by_cases h : s.g.gid = n <;> simp [goneState, otherFabs, modGroup, h]

/-! Registers. -/

/-- R234: a lane of a group receives a word. -/
def withWord (d lane : Nat) (x : W) (g : Group) : Group := g.setLanes d (laneBit lane) (fun _ => x)

/-- R231: lanes of a group receive their words. -/
def withWords (d : Nat) (f : Nat → W) (ls : List FabLane) (g : Group) : Group :=
  ls.foldl (fun a l => withWord d l.lane (f l.lane) a) g

/-- R231: words received change the registers of a group alone. -/
theorem withWords_frame (d : Nat) (f : Nat → W) (ls : List FabLane) (g : Group) :
    { withWords d f ls g with regs := g.regs, regPoison := g.regPoison } = g :=
  foldl_keeps (f := fun a (l : FabLane) => withWord d l.lane (f l.lane) a) (fun a : Group => { a with regs := g.regs, regPoison := g.regPoison })
    (fun _ _ => rfl) ls g

theorem withWords_gid (d : Nat) (f : Nat → W) (ls : List FabLane) (g : Group) : (withWords d f ls g).gid = g.gid :=
  (congrArg Group.gid (withWords_frame d f ls g) :)

theorem withWords_counterDown (d : Nat) (f : Nat → W) (ls : List FabLane) (kind : FabKind) (g : Group) :
    withWords d f ls (counterDown kind g) = counterDown kind (withWords d f ls g) := by
  induction ls generalizing g with
  | nil => rfl
  | cons l ls ih => exact ih (withWord d l.lane (f l.lane) g)

/-- R231: what a register reads once lanes have received their words. -/
theorem gReg_withWords (d : Nat) (f : Nat → W) (ls : List FabLane) (g : Group) (r : Nat) {m : Nat} (hm : m < 32) :
    gReg (withWords d f ls g) r m = if r = d ∧ m ∈ ls.map (fun l => l.lane) then f m else gReg g r m := by
  induction ls generalizing g with
  | nil => simp [withWords]
  | cons l ls ih =>
    rw [withWords, List.foldl_cons, ← withWords, ih]
    unfold withWord
    rw [gReg_setLanes _ _ _ _ _ hm, inMask_laneBit l.lane hm]
    by_cases hr : r = d
    · by_cases hl : m = l.lane
      · subst hl
        simp [hr]
      · simp [hr, hl]
    · simp [hr]

/-! Lanes that receive their words one after the other. -/

theorem giveWord_eq {c : FabCmd} (hgid : c.gid ≠ 0) (hlive : c.cancelled = false) (l : FabLane) (x : W) (t : State) :
    giveWord c l x t = laneApplied c.uid l.lane true (modGroup c.gid (withWord c.d l.lane x) t) := by
  simp only [giveWord, writeBack, hlive, Bool.false_eq_true, if_false, modIssuer, if_neg hgid]
  rfl

/-- Nothing changes where no element meets the test. -/
theorem updateFirst_of_none {α : Type} {p : α → Bool} {xs : List α} (h : xs.find? p = none) (f : α → α) : updateFirst p f xs = xs := by
  induction xs with
  | nil => rfl
  | cons x xs ih =>
    obtain ⟨hx, hxs⟩ := List.forall_mem_cons.mp (List.find?_eq_none.mp h)
    rw [updateFirst, if_neg hx, ih (List.find?_eq_none.mpr hxs)]

/-- A lane of a command that is gone has nothing left to apply. -/
theorem laneApplied_gone {t : State} {uid : Nat} (h : t.eng.fabs.find? (fun x => x.uid == uid) = none) (lane : Nat) (acked : Bool) :
    laneApplied uid lane acked t = t := by
  have hmod : modFabLane uid lane (fun l => { l with applied := true, acked := acked, held := false }) t = t := by
    rw [modFabLane, modFab, updateFirst_of_none h]
  rw [laneApplied, hmod, settleFab, h]

theorem fabs_modGroup (n : Nat) (f : Group → Group) (t : State) : (modGroup n f t).eng.fabs = t.eng.fabs :=
  (congrArg (fun u : State => u.eng.fabs) (modGroup_frame n f t) :)

theorem find_otherFabs (c : FabCmd) (s : State) : (otherFabs c s).find? (fun x => x.uid == c.uid) = none :=
  List.find?_eq_none.mpr fun x hx => by simpa using (List.mem_filter.mp hx).2

/-- R231: lanes of a command that is gone still receive their words. -/
theorem giveWords_gone {c : FabCmd} (hgid : c.gid ≠ 0) (hlive : c.cancelled = false) (f : Nat → W) (ls : List FabLane) {t : State}
    (h : t.eng.fabs.find? (fun x => x.uid == c.uid) = none) :
    ls.foldl (fun u l => giveWord c l (f l.lane) u) t = modGroup c.gid (withWords c.d f ls) t := by
  induction ls generalizing t with
  | nil =>
    refine Eq.symm (Eq.trans ?_ (modGroup_frame c.gid id t))
    unfold modGroup
    split
    · rfl
    · have hid : updateAll (fun g : Group => g.gid == c.gid) (withWords c.d f []) t.groups = t.groups := by
        simp [updateAll, withWords]
      rw [hid]
  | cons l ls ih =>
    have hgone : (modGroup c.gid (withWord c.d l.lane (f l.lane)) t).eng.fabs.find? (fun x => x.uid == c.uid) = none := by
      rw [fabs_modGroup, h]
    rw [List.foldl_cons, giveWord_eq hgid hlive, laneApplied_gone hgone, ih hgone, modGroup_modGroup (by exact fun _ => rfl)]
    rfl

/-- The lanes of a command with the lane of a number acknowledged. -/
theorem unacked_withDone {k : FabCmd} (hnodup : (k.lanes.map (fun y => y.lane)).Nodup) {lane : Nat} {y : FabLane}
    (hy : y ∈ (withDone lane true k).lanes) (hacked : y.acked = false) : y ∈ k.lanes ∧ y.lane ≠ lane := by
  rw [withDone] at hy
  dsimp only at hy
  rw [updateFirst_eq_map hnodup] at hy
  obtain ⟨x, hx, rfl⟩ := List.mem_map.mp hy
  by_cases hl : x.lane = lane
  · simp [hl, doneLane] at hacked
  · simp [hl, hx]

/-- R231: a command whose outstanding lanes all receive their words ends, and the lanes have their words. -/
theorem giveWords_ends {c : FabCmd} (hgid : c.gid ≠ 0) (hlive : c.cancelled = false) (f : Nat → W) {ls : List FabLane} (hne : ls ≠ [])
    {t : State} {k : FabCmd} (hk : t.eng.fabs.find? (fun x => x.uid == c.uid) = some k)
    (hsame : k.gid = c.gid ∧ k.kind = c.kind ∧ k.cancelled = false) (hnodup : (k.lanes.map (fun y => y.lane)).Nodup)
    (hrest : ∀ y ∈ k.lanes, y.acked = false → y.lane ∈ ls.map (fun l => l.lane)) :
    ls.foldl (fun u l => giveWord c l (f l.lane) u) t =
      modGroup c.gid (fun g => counterDown c.kind (withWords c.d f ls g)) (goneState c t) := by
  induction ls generalizing t k with
  | nil => cases hne rfl
  | cons l ls ih =>
    obtain ⟨hkgid, hkind, hkc⟩ := hsame
    let u := modGroup c.gid (withWord c.d l.lane (f l.lane)) t
    have hku : u.eng.fabs.find? (fun x => x.uid == c.uid) = some k := by rw [fabs_modGroup, hk]
    have hgone : goneState c u = modGroup c.gid (withWord c.d l.lane (f l.lane)) (goneState c t) := goneState_modGroup _ _ _ _
    rw [List.foldl_cons, giveWord_eq hgid hlive]
    by_cases hall : ∀ y ∈ (withDone l.lane true k).lanes, y.acked = true
    · rw [laneApplied_ends hgid hku ⟨hkgid, hkind⟩ (fun _ => hkc) hall, giveWords_gone hgid hlive, hgone,
        modGroup_modGroup (by exact fun _ => rfl), modGroup_modGroup (by exact fun _ => rfl)]
      · refine congrArg (fun h => modGroup c.gid h (goneState c t)) (funext fun g => ?_)
        exact withWords_counterDown _ _ _ _ _
      · rw [fabs_modGroup]
        exact find_otherFabs c u
    · have hwait : laneApplied c.uid l.lane true u = doneState c l true u := by
        rw [laneApplied_eq, settleFab, find_doneState hku]
        exact if_neg (by simpa using hall)
      obtain ⟨y, hy, hyacked⟩ : ∃ y ∈ (withDone l.lane true k).lanes, y.acked = false := by simpa using hall
      have hls : ls ≠ [] := by
        rintro rfl
        obtain ⟨hmem, hother⟩ := unacked_withDone hnodup hy hyacked
        simpa [hother] using hrest y hmem hyacked
      have hother : goneState c (doneState c l true u) = goneState c u := by
        rw [goneState, show otherFabs c (doneState c l true u) = otherFabs c u from
          otherFabs_modFab c (f := withDone l.lane true) (fun _ => rfl) u]
        rfl
      rw [hwait, ih hls (find_doneState hku l true) ⟨hkgid, hkind, hkc⟩, hother, hgone, modGroup_modGroup (by exact fun _ => rfl)]
      · rfl
      · have hlanes := map_updateFirst (p := fun y : FabLane => y.lane) (f := doneLane true) (fun _ => rfl) (fun y => y.lane == l.lane) k.lanes
        exact hlanes.symm ▸ hnodup
      · intro z hz hzacked
        obtain ⟨hmem, hne'⟩ := unacked_withDone hnodup hz hzacked
        simpa [hne'] using hrest z hmem hzacked

/-- R234, R237: a command that reads a record brings each of its lanes a word and ends. -/
theorem giveRecord_given {s u : State} {g : Group} {c : FabCmd} {l : FabLane} {kind : FabKind} (h : LaneOf s g c l kind)
    (hnodup : (c.lanes.map (fun k => k.lane)).Nodup) (hfabs : u.eng.fabs = (takenState c s).eng.fabs) (hmem : u.mem = s.mem)
    (hwq : u.wq = s.wq) (hidle : u.g.gid = 0) {g' : Group} (hg : groupOf? u c.gid = some g')
    (hsame : { g' with pendings := g.pendings } = g) {v : Nat → W} {f : Nat → Nat} (hv : ∀ m, v m = BitVec.ofNat 32 (f m)) :
    ∃ x, RecordGiven s (giveRecord c v u) g x c f ∧ x.pendings = g'.pendings := by
  obtain ⟨-, hgid, -, hc, -, -, hlive, -, -, hnext, -⟩ := h
  have hfind : u.eng.fabs.find? (fun x => x.uid == c.uid) = some { c with taken := true } := hfabs ▸ find_takenState hc
  have hne : c.lanes ≠ [] := List.ne_nil_of_mem (mem_of_next hnext)
  have hends : giveRecord c v u = modGroup c.gid (fun a => counterDown c.kind (withWords c.d v c.lanes a)) (goneState c u) :=
    giveWords_ends hgid hlive v hne hfind ⟨rfl, rfl, hlive⟩ hnodup fun y hy _ => List.mem_map_of_mem hy
  have hother : otherFabs c u = otherFabs c s := by
    rw [otherFabs, hfabs]
    exact otherFabs_modFab c (f := fun x => { x with taken := true }) (fun _ => rfl) s
  have hwords := withWords_frame c.d v c.lanes g'
  have hcntL : g'.cntL = g.cntL := (congrArg Group.cntL hsame :)
  have hcntC : g'.cntC = g.cntC := (congrArg Group.cntC hsame :)
  have hended := laneEnded_of (s := s) (g := g') hends hidle hgid hg (fun a => withWords_gid _ _ _ a)
    ⟨(congrArg (fun a : Group => (counterDown c.kind a).cntL) hwords :), (congrArg (fun a : Group => (counterDown c.kind a).cntC) hwords :)⟩
    ⟨(congrArg Group.sregs hwords :), (congrArg Group.kregs hwords :)⟩ hother hmem
  obtain ⟨h1, h2, h3, h4, h5, h6, h7⟩ := hended
  refine ⟨counterDown c.kind (withWords c.d v c.lanes g'), ⟨⟨h1, h2, hcntL ▸ h3, hcntC ▸ h4, h5.trans (congrArg Group.sregs hsame :),
    h6.trans (congrArg Group.kregs hsame :), h7⟩, ?_, fun r m hm => ?_⟩, (congrArg Group.pendings hwords :)⟩
  · rw [hends]
    exact (congrArg State.wq (modGroup_frame c.gid _ (goneState c u)) :).trans hwq
  · have hregs : gReg g' r m = gReg g r m := by rw [gReg, gReg, show g'.regs = g.regs from (congrArg Group.regs hsame :)]
    rw [← hv, ← hregs]
    exact gReg_withWords c.d v c.lanes g' r hm

end Sys2Proof.Machine
end

section
/-! Windows serve (R232, R234, R237, R355 to R357, R362). -/

namespace Sys2Proof.Machine

open Sys2Proof Sys2Proof.Claims

/-! A write of an engine at a home. -/

/-- Bytes that fit in their line are not cut. -/
theorem cutLines_fit {va : Nat} {bs : List Byte} (hne : bs ≠ []) (hfit : va % 128 + bs.length ≤ 128) (n : Nat) :
    cutLines (n + 1) va bs = [(va, bs)] := by
  have hlen : bs.length ≤ 128 - va % 128 := by omega
  rw [cutLines, if_neg hne]
  dsimp only
  rw [List.take_of_length_le hlen, List.drop_of_length_le hlen]
  cases n <;> simp [cutLines]

/-- R283, R327: bytes of one line that an engine writes are written at the home of the line. -/
theorem withUpkeepOf_engineWrite (s : State) {u : State} {ctx va : Nat} {f : Leaf} (hf : accessIn u ctx needW va = .ok f)
    (hhome : actingHome u f = none) (hpoison : isPoisoned u f.phys = false) (hplace : f.phys % 128 = va % 128) {bs : List Byte}
    (hne : bs ≠ []) (hfit : va % 128 + bs.length ≤ 128) (src : Nat) (w : Writer) :
    withUpkeepOf s (engineWrite ctx va src w bs u) = withUpkeepOf s (wrBytes f.phys bs u) := by
  have hone : engineWrite ctx va src w bs u = homeWrite ctx va src w f (lineBytes va bs) u := by
    rw [engineWrite, writeLines, cutLines_fit hne hfit, List.foldl_cons, List.foldl_nil]
    dsimp only
    rw [hf]
    dsimp only
    rw [recallHome_of_home hhome]
    rfl
  rw [hone, withUpkeepOf_homeWrite s hpoison, writeLineBytes_lineBytes hplace]

theorem withUpkeepOf_dropLine (s : State) (ctx va : Nat) (u : State) : withUpkeepOf s (dropLine ctx va u) = withUpkeepOf s u := by
  unfold dropLine
  split <;> rfl

/-- R297: a word that the fabric writes. -/
theorem withUpkeepOf_fabricWrite (s : State) {u : State} {ctx va : Nat} {f : Leaf} (h : WordReady u ctx va f) (src : Nat) (x : W) :
    withUpkeepOf s (fabricWrite ctx src va x u) = withUpkeepOf s (wrBytes f.phys (natToBytes 4 x.toNat) u) := by
  obtain ⟨hf, -, hhome, hpoison, hfit, hplace⟩ := h
  have hne : natToBytes 4 x.toNat ≠ [] := List.ne_nil_of_length_pos (by simp)
  exact (withUpkeepOf_dropLine s ctx va _).trans (withUpkeepOf_engineWrite s hf hhome hpoison hplace hne (by simpa using hfit) src _)

theorem nthD_natToBytes {n i : Nat} (hi : i < n) (x : Nat) : nthD 0 (natToBytes n x) i = BitVec.ofNat 8 (x / 2 ^ (8 * i)) := by
  induction n generalizing x i with
  | zero => omega
  | succ n ih =>
    cases i with
    | zero => simp [natToBytes, nthD]
    | succ i =>
      have hstep : nthD 0 (natToBytes (n + 1) x) (i + 1) = nthD 0 (natToBytes n (x / 256)) i := rfl
      rw [hstep, ih (by omega), Nat.div_div_eq_div_mul, show 8 * (i + 1) = 8 + 8 * i by ring, pow_add]
      rfl

/-- R232: what memory reads once the low word of a datum has been written. -/
theorem wordWritten_wrBytes {s t u : State} {phys : Nat} {x : W64} (hu : u.mem = s.mem ∧ u.wq = s.wq)
    (ht : t.mem = (wrBytes phys (natToBytes 4 (lowWord x).toNat) u).mem ∧ t.wq = (wrBytes phys (natToBytes 4 (lowWord x).toNat) u).wq) :
    WordWritten s t phys x := by
  intro b
  rw [rdByte_congr ht.1 ht.2, rdByte_wrBytes, length_natToBytes, rdByte_congr hu.1 hu.2]
  split
  next hin =>
    obtain ⟨i, hi, rfl⟩ : ∃ i, i < 4 ∧ b = phys + i := ⟨b - phys, by omega, by omega⟩
    have hlow : (lowWord x).toNat = x.toNat % 2 ^ 32 := by simp [lowWord]
    rw [Nat.add_sub_cancel_left, nthD_natToBytes hi, hlow]
    refine BitVec.eq_of_toNat_eq ?_
    rw [BitVec.toNat_ofNat, BitVec.toNat_ofNat]
    interval_cases i <;> omega
  next => rfl

/-! A lane at its target. -/

/-- R356: a number that is applied replaces its stream, and a duplicate changes nothing. The equation of applySeq is met as one of
functions: the kernel would look into the numbers that its match compares. -/
theorem applySeq_cases (ctx src agent win seq : Nat) (put : Bool) (s : State) :
    applySeq ctx src agent win seq put s = s ∨ ∃ t, applySeq ctx src agent win seq put s = setStream t s := by
  obtain ⟨f, hf⟩ : ∃ f, f = applySeq := ⟨_, rfl⟩
  rw [← hf]
  delta applySeq at hf
  rw [hf]
  dsimp only
  generalize (streamOf s ctx src agent win).apply? seq put = o
  cases o with
  | none => exact .inl rfl
  | some t => exact .inr ⟨t, rfl⟩

/-- A state with other streams. -/
def withStreams (ss : List Stream) (u : State) : State := { u with fab := { u.fab with streams := ss } }

/-- R356: a lane's number applied changes the streams alone. -/
theorem laneSeq_streams (c : FabCmd) (l : FabLane) (put : Bool) (u : State) : ∃ ss, laneSeq c l put u = withStreams ss u := by
  rw [laneSeq]
  rcases applySeq_cases c.ctx c.src l.agent l.win l.seq put u with h | ⟨t, h⟩
  · exact ⟨u.fab.streams, h⟩
  · exact ⟨_, h⟩

/-- R332, R355: a target counter that rises leaves commands, memory and waiting writes unchanged. -/
theorem raiseTarget_keeps (die ctx w n : Nat) (u : State) :
    (raiseTarget die ctx w n u).eng = u.eng ∧ (raiseTarget die ctx w n u).mem = u.mem ∧ (raiseTarget die ctx w n u).wq = u.wq := by
  have hframe : { withFlipOf u (raiseTarget die ctx w n u) with fab := { (raiseTarget die ctx w n u).fab with windows := u.fab.windows } } = u :=
    withFlipOf_modWindow die ctx w _ u
  generalize raiseTarget die ctx w n u = t at hframe ⊢
  exact ⟨(congrArg State.eng hframe :), (congrArg State.mem hframe :), (congrArg State.wq hframe :)⟩

/-- R355: a window's record with its target counter raised. -/
def raisedBy (n : Nat) (x : Window) : Window := { x with target := (x.target + n) % 2 ^ 32 }

theorem windowRec_raiseTarget {u : State} {die ctx w : Nat} {x : Window} (h : windowRec u die ctx w = some x) (n : Nat) :
    windowRec (raiseTarget die ctx w n u) die ctx w = some (raisedBy n x) :=
  windowRec_modWindow (f := raisedBy n) h ⟨rfl, rfl, rfl⟩

/-- R355 to R357: what a lane changes that is counted at its target, once it is marked as applied in state d. -/
def countedLane (c : FabCmd) (l : FabLane) (n : Nat) (put : Bool) (d : State) : State :=
  raiseTarget (l.agent % 4) c.ctx l.win n (laneSeq c l put d)

theorem countedLane_keeps (c : FabCmd) (l : FabLane) (n : Nat) (put : Bool) (d : State) :
    (countedLane c l n put d).eng = d.eng ∧ (countedLane c l n put d).mem = d.mem ∧ (countedLane c l n put d).wq = d.wq ∧
      ∀ x, windowRec d (l.agent % 4) c.ctx l.win = some x →
        windowRec (countedLane c l n put d) (l.agent % 4) c.ctx l.win = some (raisedBy n x) := by
  obtain ⟨ss, hss⟩ := laneSeq_streams c l put d
  rw [countedLane, hss]
  obtain ⟨heng, hmem, hwq⟩ := raiseTarget_keeps (l.agent % 4) c.ctx l.win n (withStreams ss d)
  exact ⟨heng, hmem, hwq, fun x hx => windowRec_raiseTarget (u := withStreams ss d) hx n⟩

/-- R355 to R357: a lane that is counted at its target waits for its acknowledgement, and the target counter has risen. -/
theorem countApplied_applies {s u : State} {g : Group} {c : FabCmd} {l : FabLane} {kind : FabKind} (h : LaneOf s g c l kind)
    (hfabs : u.eng.fabs = (takenState c s).eng.fabs) (hwins : u.fab.windows = s.fab.windows) (n : Nat) (put : Bool) :
    LaneApplied s (countApplied c l n put u) c l ∧ (countApplied c l n put u).mem = u.mem ∧ (countApplied c l n put u).wq = u.wq ∧
      ∀ x, windowRec s (l.agent % 4) c.ctx l.win = some x →
        windowRec (countApplied c l n put u) (l.agent % 4) c.ctx l.win = some (raisedBy n x) := by
  have happlied := laneApplied_doneState (c := c) (l := l) hfabs
  have heq : countApplied c l n put u = countedLane c l n put (doneState c l false u) :=
    congrArg (countedLane c l n put) (laneApplied_of_laneOf h hfabs)
  obtain ⟨heng, hmem, hwq, hrec⟩ := countedLane_keeps c l n put (doneState c l false u)
  rw [heq]
  refine ⟨?_, hmem, hwq, fun x hx => hrec x ((windowRec_of_windows hwins _ _ _).trans hx)⟩
  rw [LaneApplied, heng]
  exact happlied

/-- R296: a command whose fork edge is over may act. -/
theorem fabReady_forkOver {s u : State} {c : FabCmd} (h : ForkOver s c) (hu : u.ms = s.ms) : fabReady u c = true := by
  obtain ⟨hloads, hstores⟩ := h
  have h1 : s.ms.loads.any (fun d => d.gid == c.gid && d.split == c.split && decide (d.uid < c.uid)) = false := by
    refine List.any_eq_false.mpr fun d hd => ?_
    simpa [and_assoc] using hloads d hd
  have h2 : s.ms.entries.any (fun e => e.gid == c.gid && e.split == c.split && decide (e.uid < c.uid) && e.st == EntrySt.committed) = false := by
    refine List.any_eq_false.mpr fun e he => ?_
    simpa [and_assoc] using hstores e he
  rw [fabReady, forkReady, hu, h1, h2]
  rfl

/-- R232: a word that may be written now meets no fault and does not wait. -/
theorem wordReady_goes {u : State} {ctx va : Nat} {f : Leaf} (h : WordReady u ctx va f) :
    engineFault? u ctx needW va = none ∧ writeWaits u ctx va = false := by
  obtain ⟨hf, hwaits, -⟩ := h
  simp only [engineFault?, writeWaits, hf]
  exact ⟨rfl, hwaits⟩

end Sys2Proof.Machine
end

section
/-! Puts, additions, broadcasts and acknowledgements (R232, R234, R355 to R357). -/

namespace Sys2Proof.Machine

open Sys2Proof Sys2Proof.Claims

/-- R355: a window record that stands for an agent of this package. -/
theorem localAgent_of_targetWindow {s : State} {ctx agent win : Nat} {w : Window} (h : targetWindow s ctx agent win = some w) :
    localAgent s agent = true := by
  unfold targetWindow at h
  split at h
  next hloc => exact hloc
  next => cases h

/-- R356: the next lane of a put, a win.add or a broadcast acts where no second copies are on their way. -/
theorem execPutApply_of {s : State} {g : Group} {c : FabCmd} {l : FabLane} {kind : FabKind} (h : LaneOf s g c l kind)
    (hkind : kind ∈ [FabKind.putWin, .winAdd, .collBcast]) (hresent : s.fab.resent = []) :
    exec (.putApply c.uid) s = .next (applyStreamed c l (takenState c s)) := by
  rw [← onLane_of h hkind applyStreamed]
  exact congrArg Host.Outcome.next (if_pos hresent)

/-- R356: a lane that names an agent of this package and is no second copy. -/
theorem applyStreamed_once {u : State} {c : FabCmd} {l : FabLane} (hkind : c.kind ≠ .collBcast) (hloc : localAgent u l.agent = true)
    (hdup : isDuplicate u c l = false) :
    applyStreamed c l u = if c.kind = .putWin then applyPut c l u else applyWinAdd c l u := by
  rw [applyStreamed, if_neg hkind, if_neg (by simp [hloc]), if_neg (by simp [hdup])]

/-- R232: a lane that is refused defers a trap to its group. -/
theorem refuseLane_defers {v : State} {g : Group} {c : FabCmd} {l : FabLane} (hgid : c.gid ≠ 0) (hg : groupOf? v c.gid = some g)
    (hlive : g.released = false) :
    refuseLane c l v = modGroup c.gid (fun x => { x with deferred := x.deferred ++ [fabTrap v c l] }) v := by
  simp [refuseLane, deferFab, hgid, deferTrap, hg, hlive]

/-- R232, R356: a put that its window does not admit is dropped at its target. -/
theorem applyPut_refused {u : State} {c : FabCmd} {l : FabLane} {w : Window} (hw : targetWindow u c.ctx l.agent l.win = some w)
    (hadmit : w.admits l.aux l.off = false) : applyPut c l u = dropPut c l u := by
  simp only [applyPut, hw, hadmit, Bool.not_false, Bool.true_or, if_true]

/-- R232, R355 to R357: a put that its window admits writes its word and raises its target counter. -/
theorem applyPut_writes {u : State} {c : FabCmd} {l : FabLane} {w : Window} {f : Leaf}
    (hw : targetWindow u c.ctx l.agent l.win = some w) (hadmit : w.admits l.aux l.off = true) (hskip : l.skip = false)
    (hputs : c.waitsFor ≤ (streamOf u c.ctx c.src l.agent l.win).puts) (hready : WordReady u c.ctx (w.base + l.off) f)
    (hfork : fabReady u c = true) :
    applyPut c l u = countApplied c l 1 true (fabricWrite c.ctx w.die (w.base + l.off) (lowWord l.data) u) := by
  obtain ⟨hfault, hwaits⟩ := wordReady_goes hready
  simp only [applyPut, hw, hadmit, hskip, Nat.not_lt.mpr hputs, hfault, hwaits, hfork, Bool.not_true, Bool.or_self, Bool.false_eq_true,
    if_false]

/-- R234, R355: an addition under its window's key raises the target counter. -/
theorem applyWinAdd_counts {u : State} {c : FabCmd} {l : FabLane} {w : Window} (hw : targetWindow u c.ctx l.agent l.win = some w)
    (hkey : w.key = l.aux) : applyWinAdd c l u = countApplied c l (l.data.toNat % 2 ^ 32) false u := by
  rw [applyWinAdd, hw]
  exact if_pos hkey

/-- R232: what a word that the fabric has written leaves unchanged, and what memory reads then. -/
theorem fabricWrite_writes {s u : State} {ctx va : Nat} {f : Leaf} (h : WordReady u ctx va f) (hu : u.mem = s.mem ∧ u.wq = s.wq)
    (src : Nat) (x : W64) :
    (fabricWrite ctx src va (lowWord x) u).eng = u.eng ∧ (fabricWrite ctx src va (lowWord x) u).fab = u.fab ∧
      (fabricWrite ctx src va (lowWord x) u).mem = s.mem ∧
      ∀ t, t.mem = (fabricWrite ctx src va (lowWord x) u).mem → t.wq = (fabricWrite ctx src va (lowWord x) u).wq →
        WordWritten s t f.phys x := by
  have hwrite := withUpkeepOf_fabricWrite u h src (lowWord x)
  generalize fabricWrite ctx src va (lowWord x) u = v at hwrite ⊢
  have hmem : v.mem = u.mem := (congrArg State.mem hwrite :).trans (by rw [wrBytes_eq]; rfl)
  refine ⟨?_, ?_, hmem.trans hu.1, fun t ht htq => wordWritten_wrBytes hu ⟨ht.trans (congrArg State.mem hwrite :), htq.trans (congrArg State.wq hwrite :)⟩⟩
  · exact (congrArg State.eng hwrite :).trans (by rw [wrBytes_eq]; rfl)
  · exact (congrArg State.fab hwrite :).trans (by rw [wrBytes_eq]; rfl)

/-- R234: a broadcast to one window that admits it writes its word there and raises its target counter. -/
theorem applyBcast_writes {u : State} {c : FabCmd} {l : FabLane} {w : Window} {f : Leaf}
    (htag : (tagOf? u c.ctx (bitsOf c.desc.toNat 31 16)).isSome) (hskip : l.skip = false) (hws : bcastWindows u c.ctx l.win = [w])
    (hadmit : w.admits l.aux l.off = true) (hready : WordReady u c.ctx (w.base + l.off) f) (hfork : fabReady u c = true) :
    applyBcast c l u = laneSeq c l false (laneApplied c.uid l.lane false
      (raiseTarget w.die c.ctx l.win 1 (fabricWrite c.ctx w.die (w.base + l.off) (lowWord l.data) u))) := by
  obtain ⟨hfault, hwaits⟩ := wordReady_goes hready
  have hbound : ¬((tagOf? u c.ctx (bitsOf c.desc.toNat 31 16)).isNone ∨ l.skip = true) := by
    simpa [hskip, Option.isNone_iff_eq_none, Option.isSome_iff_ne_none] using htag
  rw [applyBcast, if_neg hbound]
  simp [hws, hadmit, hfault, hwaits, hfork]

end Sys2Proof.Machine
end

section
/-! Reads of windows and records, and the obligation (R232, R234, R237, R355 to R357, R362). -/

namespace Sys2Proof.Machine

open Sys2Proof Sys2Proof.Claims

/-! Acknowledgements. -/

/-- R231, R356: no command of a stream is counted on L. -/
theorem countsL_of_streams {kind : FabKind} (h : kind.streams = true) : kind.countsL = false := by
  revert h
  cases kind <;> decide

/-- R355: a window's record with one lane more acknowledged. -/
def ackedOnce (x : Window) : Window := { x with acked := (x.acked + 1) % 2 ^ 32 }

/-- R355: a lane that is acknowledged at its window changes the window's record, and slots that fire. -/
theorem noteAcked_keeps (die ctx w : Nat) (u : State) :
    (noteAcked die ctx w u).eng = u.eng ∧ (noteAcked die ctx w u).mem = u.mem ∧ (noteAcked die ctx w u).wq = u.wq ∧
      ∀ n, (groupOf? (noteAcked die ctx w u) n).map (fun g => { g with slots := [], splits := [] }) =
        (groupOf? u n).map (fun g => { g with slots := [], splits := [] }) := by
  have hframe : { withFlipOf u (noteAcked die ctx w u) with fab := { (noteAcked die ctx w u).fab with windows := u.fab.windows } } = u :=
    withFlipOf_modWindow die ctx w _ u
  have hview (n : Nat) := groupOf?_view (p := fun g : Group => { g with slots := [], splits := [] })
    (s := windowChanged die ctx w ackedOnce u) (foldl_keeps (groupsView _) (fun v k => groupsView_evalMonitor (fun _ _ _ => rfl) k v)
      ((allGroups (windowChanged die ctx w ackedOnce u)).map (fun g => g.gid)) _) n
  refine ⟨?_, ?_, ?_, hview⟩
  all_goals generalize noteAcked die ctx w u = t at hframe ⊢
  · exact (congrArg State.eng hframe :)
  · exact (congrArg State.mem hframe :)
  · exact (congrArg State.wq hframe :)

/-- R355: the end of a command looks the same once its acknowledgement is noted. -/
theorem laneEnded_noteAcked {s t : State} {g h : Group} {c : FabCmd} (hended : LaneEnded s t g h c) (die ctx w : Nat) :
    ∃ x, LaneEnded s (noteAcked die ctx w t) g x c ∧ x.regs = h.regs := by
  obtain ⟨h1, h2, h3, h4, h5, h6, h7⟩ := hended
  obtain ⟨heng, hmem, -, hgroups⟩ := noteAcked_keeps die ctx w t
  generalize noteAcked die ctx w t = v at *
  have hview := hgroups c.gid
  rw [h2, Option.map_some, Option.map_eq_some_iff] at hview
  obtain ⟨x, hx, hsame⟩ := hview
  exact ⟨x, ⟨heng ▸ h1, hx, (congrArg Group.cntL hsame :).trans h3, (congrArg Group.cntC hsame :).trans h4,
    (congrArg Group.sregs hsame :).trans h5, (congrArg Group.kregs hsame :).trans h6, hmem.trans h7⟩, (congrArg Group.regs hsame :)⟩

/-- R356: the sender of a lone lane receives its acknowledgement. -/
theorem execPutAck_ends {s : State} {c : FabCmd} {l : FabLane} (hgid : c.gid ≠ 0) (hkind : c.kind.streams = true)
    (hc : s.eng.fabs.find? (fun x => x.uid == c.uid) = some c) (hl : c.lanes = [l]) (happlied : l.applied = true) (hacked : l.acked = false)
    (hsrc : localAgent s c.src = true) (hloc : localAgent s l.agent = true) :
    exec (.putAck c.uid) s = .next (noteAcked (c.src % 4) c.ctx l.win (modGroup c.gid (counterDown c.kind) (goneState c s))) := by
  have hends : laneApplied c.uid l.lane true s = modGroup c.gid (counterDown c.kind) (goneState c s) :=
    laneApplied_ends hgid hc ⟨rfl, rfl⟩ (fun h => absurd h (by simp [countsL_of_streams hkind])) (by simp [withDone, hl, updateFirst, doneLane])
  have hloc' : localAgent (modGroup c.gid (counterDown c.kind) (goneState c s)) c.src = true := by
    rw [localAgent, show (modGroup c.gid (counterDown c.kind) (goneState c s)).pkg = s.pkg from
      (congrArg State.pkg (modGroup_frame _ _ (goneState c s)) :)]
    exact hsrc
  have hack : ackLane c l s = noteAcked (c.src % 4) c.ctx l.win (modGroup c.gid (counterDown c.kind) (goneState c s)) := by
    rw [ackLane, hends]
    simp [hkind, hsrc, hacked]
  change execPutAck c.uid s = _
  simp [execPutAck, hc, hl, happlied, hacked, hloc, hack]

/-! Reads. -/

/-- R231: what an event does with a lane of a command that reads. -/
def readLane (kind : FabKind) (c : FabCmd) (l : FabLane) : State → State :=
  match kind with
  | .getWin => applyGet c l
  | .winRead => applyWinRead c
  | .mordStat => applyMordStat c
  | _ => applyHistRead c

/-- R231: an event that serves a read acts on the next lane of its command. -/
theorem execGetWinRead_of {s t : State} {g : Group} {c : FabCmd} {l : FabLane} {kind : FabKind} (h : LaneOf s g c l kind)
    (hkind : kind ∈ [FabKind.getWin, .winRead, .mordStat, .histRead]) (ht : readLane kind c l (takenState c s) = t) :
    exec (.getWinRead c.uid) s = .next t := by
  have hk : c.kind = kind := h.2.2.1
  subst ht hk
  have heff : exec (.getWinRead c.uid) s =
      .next (onLane c.uid [.getWin, .winRead, .mordStat, .histRead] (fun c l => readLane c.kind c l) s) := by
    refine congrArg (fun f => Host.Outcome.next (onLane c.uid [.getWin, .winRead, .mordStat, .histRead] f s)) ?_
    funext c l
    cases c.kind <;> rfl
  rw [heff, onLane_of h hkind]

/-- R234: a get whose window admits it and that may be served now brings its word. -/
theorem applyGet_gives {u : State} {c : FabCmd} {l : FabLane} {w : Window} {f : Leaf} (hw : targetWindow u c.ctx l.agent l.win = some w)
    (hadmit : w.admits l.aux l.off = true) (hskip : l.skip = false) (hf : accessIn u c.ctx needRd (w.base + l.off) = .ok f)
    (hpoison : isPoisoned u f.phys = false) (hfork : fabReady u c = true) :
    applyGet c l u = giveWord c l (BitVec.ofNat 32 (rdNat u f.phys 4)) u := by
  have hfault : engineFault? u c.ctx needRd (w.base + l.off) = none := by simp [engineFault?, hf, hpoison]
  rw [applyGet, if_neg (by simp [localAgent_of_targetWindow hw])]
  simp [hw, hadmit, hskip, hfault, hfork, hf]

/-- R237: a sum over a list, folded. -/
theorem parkedCount_eq (s : State) (die ctx : Nat) : parkedCount s die ctx =
    ((s.fab.slots.filter (fun m => m.die == die && m.ctx == ctx && m.st != .free)).map (fun m => m.parked.length)).sum :=
  List.sum_eq_foldl_nat.symm

/-- R232: a put that its window refuses is dropped, and defers a window-access trap. -/
theorem putApply_refused {s : State} {g : Group} {c : FabCmd} {l : FabLane} {w : Window} (h : LaneOf s g c l .putWin)
    (hw : targetWindow s c.ctx l.agent l.win = some w) (hdup : (streamOf s c.ctx c.src l.agent l.win).has l.seq = false)
    (hresent : s.fab.resent = []) (hadmit : w.admits l.aux l.off = false) (hlive : g.released = false) :
    ∃ t h, exec (.putApply c.uid) s = .next t ∧ t.mem = s.mem ∧ t.wq = s.wq ∧ t.side = s.side ∧ LaneApplied s t c l ∧
      t.fab.windows = s.fab.windows ∧ groupOf? t c.gid = some h ∧ h.regs = g.regs ∧
      ∃ r, h.deferred = g.deferred ++ [r] ∧ r.kind = .windowAccess ∧ r.lane = some l.lane := by
  obtain ⟨hidle, hgid, hkind, hc, hg, -⟩ := id h
  have hexec := execPutApply_of h (by simp) hresent
  obtain ⟨ss, hss⟩ := laneSeq_streams c l false (doneState c l false (takenState c s))
  let v := withStreams ss (doneState c l false (takenState c s))
  have hstate : applyStreamed c l (takenState c s) = modGroup c.gid (fun x => { x with deferred := x.deferred ++ [fabTrap v c l] }) v := by
    rw [applyStreamed_once (u := takenState c s) (by simp [hkind]) (localAgent_of_targetWindow (s := takenState c s) hw) hdup, if_pos hkind,
      applyPut_refused (u := takenState c s) hw hadmit, dropPut,
      laneApplied_of_laneOf h rfl, hss]
    exact refuseLane_defers hgid hg hlive
  have hframe := modGroup_frame c.gid (fun x => { x with deferred := x.deferred ++ [fabTrap v c l] }) v
  have hgot := groupOf?_modGroup_map (s := v) (f := fun x => { x with deferred := x.deferred ++ [fabTrap v c l] }) hidle hgid
    (fun _ => rfl) c.gid
  rw [show groupOf? v c.gid = some g from hg, Option.map_some, if_pos rfl] at hgot
  have happlied := laneApplied_doneState (s := s) (t := takenState c s) (c := c) (l := l) rfl
  rw [hstate] at hexec
  refine ⟨_, _, hexec, (congrArg State.mem hframe :), (congrArg State.wq hframe :), (congrArg State.side hframe :), ?_,
    (congrArg (fun u : State => u.fab.windows) hframe :), hgot, rfl, fabTrap v c l, rfl, rfl, rfl⟩
  rw [LaneApplied, fabs_modGroup]
  exact happlied

/-- R355 to R357: a put that its window admits writes its word and raises the target counter. -/
theorem putApply_written {s : State} {g : Group} {c : FabCmd} {l : FabLane} {w : Window} {f : Leaf} (h : LaneOf s g c l .putWin)
    (hw : targetWindow s c.ctx l.agent l.win = some w) (hdup : (streamOf s c.ctx c.src l.agent l.win).has l.seq = false)
    (hresent : s.fab.resent = []) (hadmit : w.admits l.aux l.off = true)
    (hputs : c.waitsFor ≤ (streamOf s c.ctx c.src l.agent l.win).puts) (hready : WordReady s c.ctx (w.base + l.off) f)
    (hfork : ForkOver s c) :
    ∃ t, exec (.putApply c.uid) s = .next t ∧ LaneApplied s t c l ∧ t.mem = s.mem ∧ WordWritten s t f.phys l.data ∧
      ∀ x, windowRec s (l.agent % 4) c.ctx l.win = some x → windowRec t (l.agent % 4) c.ctx l.win = some (raisedBy 1 x) := by
  obtain ⟨-, -, hkind, -, -, -, -, -, -, -, hskip⟩ := id h
  have hready' : WordReady (takenState c s) c.ctx (w.base + l.off) f := hready
  obtain ⟨heng, hfab, hmem, hword⟩ := fabricWrite_writes (s := s) hready' ⟨rfl, rfl⟩ w.die l.data
  obtain ⟨happlied, hcmem, hcwq, hrec⟩ := countApplied_applies h (congrArg Engines.fabs heng) (congrArg Fabric.windows hfab) 1 true
  refine ⟨_, ?_, happlied, hcmem.trans hmem, hword _ hcmem hcwq, hrec⟩
  rw [execPutApply_of h (by simp) hresent, applyStreamed_once (u := takenState c s) (by simp [hkind]) (localAgent_of_targetWindow (s := s) hw) hdup, if_pos hkind,
    applyPut_writes (u := takenState c s) hw hadmit hskip hputs hready' (fabReady_forkOver hfork rfl)]

/-- R234: a broadcast writes its word at the window of its member and raises the target counter. -/
theorem putApply_broadcast {s : State} {g : Group} {c : FabCmd} {l : FabLane} {w : Window} {f : Leaf} (h : LaneOf s g c l .collBcast)
    (hresent : s.fab.resent = []) (htag : (tagOf? s c.ctx (bitsOf c.desc.toNat 31 16)).isSome)
    (hws : bcastWindows s c.ctx l.win = [w]) (hadmit : w.admits l.aux l.off = true) (hready : WordReady s c.ctx (w.base + l.off) f)
    (hfork : ForkOver s c) :
    ∃ t, exec (.putApply c.uid) s = .next t ∧ LaneApplied s t c l ∧ t.mem = s.mem ∧ WordWritten s t f.phys l.data ∧
      ∀ x, windowRec s w.die c.ctx l.win = some x → windowRec t w.die c.ctx l.win = some (raisedBy 1 x) := by
  obtain ⟨-, -, hkind, -, -, -, -, -, -, -, hskip⟩ := id h
  have hready' : WordReady (takenState c s) c.ctx (w.base + l.off) f := hready
  obtain ⟨heng, hfab, hmem, hword⟩ := fabricWrite_writes (s := s) hready' ⟨rfl, rfl⟩ w.die l.data
  let v := fabricWrite c.ctx w.die (w.base + l.off) (lowWord l.data) (takenState c s)
  obtain ⟨hreng, hrmem, hrwq⟩ := raiseTarget_keeps w.die c.ctx l.win 1 v
  have hfabs : (raiseTarget w.die c.ctx l.win 1 v).eng.fabs = (takenState c s).eng.fabs := congrArg Engines.fabs (hreng.trans heng)
  have happlied := laneApplied_doneState (c := c) (l := l) hfabs
  have hrec (x : Window) (hx : windowRec s w.die c.ctx l.win = some x) := windowRec_raiseTarget (u := v)
    ((windowRec_of_windows (congrArg Fabric.windows hfab) _ _ _).trans hx) 1
  have hexec := execPutApply_of h (by simp) hresent
  rw [applyStreamed, if_pos hkind, applyBcast_writes (u := takenState c s) htag hskip hws hadmit hready' (fabReady_forkOver hfork rfl),
    laneApplied_of_laneOf h hfabs] at hexec
  change exec _ s = .next (laneSeq c l false (doneState c l false (raiseTarget w.die c.ctx l.win 1 v))) at hexec
  generalize raiseTarget w.die c.ctx l.win 1 v = r at *
  obtain ⟨ss, hss⟩ := laneSeq_streams c l false (doneState c l false r)
  rw [hss] at hexec
  exact ⟨_, hexec, happlied, hrmem.trans hmem, hword _ hrmem hrwq, hrec⟩

/-- R234, R355: an addition raises the target counter by its amount. -/
theorem putApply_addition {s : State} {g : Group} {c : FabCmd} {l : FabLane} {w : Window} (h : LaneOf s g c l .winAdd)
    (hresent : s.fab.resent = []) (hw : targetWindow s c.ctx l.agent l.win = some w)
    (hdup : (streamOf s c.ctx c.src l.agent l.win).has l.seq = false) (hkey : w.key = l.aux) :
    ∃ t, exec (.putApply c.uid) s = .next t ∧ LaneApplied s t c l ∧ t.mem = s.mem ∧ t.wq = s.wq ∧
      ∀ x, windowRec s (l.agent % 4) c.ctx l.win = some x →
        windowRec t (l.agent % 4) c.ctx l.win = some (raisedBy (l.data.toNat % 2 ^ 32) x) := by
  obtain ⟨-, -, hkind, -⟩ := id h
  obtain ⟨happlied, hmem, hwq, hrec⟩ := countApplied_applies (u := takenState c s) h rfl rfl (l.data.toNat % 2 ^ 32) false
  refine ⟨_, ?_, happlied, hmem, hwq, hrec⟩
  rw [execPutApply_of h (by simp) hresent, applyStreamed_once (u := takenState c s) (by simp [hkind]) (localAgent_of_targetWindow (s := s) hw) hdup,
    if_neg (by simp [hkind]), applyWinAdd_counts (u := takenState c s) hw hkey]

/-- R355, R356: an acknowledgement ends the command of a lone lane, and its window counts it. -/
theorem putAck_ends {s : State} {g : Group} {c : FabCmd} {l : FabLane} (hidle : s.g.gid = 0) (hgid : c.gid ≠ 0)
    (hkind : c.kind.streams = true) (hc : s.eng.fabs.find? (fun x => x.uid == c.uid) = some c) (hg : groupOf? s c.gid = some g)
    (hl : c.lanes = [l]) (happlied : l.applied = true) (hacked : l.acked = false) (hsrc : localAgent s c.src = true)
    (hloc : localAgent s l.agent = true) :
    ∃ t h, exec (.putAck c.uid) s = .next t ∧ LaneEnded s t g h c ∧ h.regs = g.regs ∧ t.wq = s.wq ∧
      ∀ x, windowRec s (c.src % 4) c.ctx l.win = some x → windowRec t (c.src % 4) c.ctx l.win = some (ackedOnce x) := by
  let t := modGroup c.gid (counterDown c.kind) (goneState c s)
  have hended : LaneEnded s t g (counterDown c.kind g) c :=
    laneEnded_of (u := goneState c s) rfl hidle hgid hg (fun _ => rfl) ⟨rfl, rfl⟩ ⟨rfl, rfl⟩ rfl rfl
  obtain ⟨x, hx, hregs⟩ := laneEnded_noteAcked hended (c.src % 4) c.ctx l.win
  obtain ⟨-, -, hwq, -⟩ := noteAcked_keeps (c.src % 4) c.ctx l.win t
  have hframe := modGroup_frame c.gid (counterDown c.kind) (goneState c s)
  refine ⟨_, x, execPutAck_ends hgid hkind hc hl happlied hacked hsrc hloc, hx, hregs, hwq.trans (congrArg State.wq hframe :), fun y hy => ?_⟩
  exact windowRec_modWindow (s := t) (f := ackedOnce)
    ((windowRec_of_windows (congrArg (fun u : State => u.fab.windows) hframe :) _ _ _).trans hy) ⟨rfl, rfl, rfl⟩

/-- R234: a get brings its word. -/
theorem getWinRead_word {s : State} {g : Group} {c : FabCmd} {l : FabLane} {w : Window} {f : Leaf} (h : LaneOf s g c l .getWin)
    (hl : c.lanes = [l]) (hw : targetWindow s c.ctx l.agent l.win = some w) (hadmit : w.admits l.aux l.off = true)
    (hf : accessIn s c.ctx needRd (w.base + l.off) = .ok f) (hpoison : isPoisoned s f.phys = false) (hfork : ForkOver s c) :
    ∃ t h, exec (.getWinRead c.uid) s = .next t ∧ RecordGiven s t g h c (fun _ => rdNat s f.phys 4) := by
  obtain ⟨hidle, -, -, -, hg, -, -, -, -, -, hskip⟩ := id h
  obtain ⟨x, hgiven, -⟩ := giveRecord_given (u := takenState c s) (v := fun _ => BitVec.ofNat 32 (rdNat s f.phys 4)) h (by simp [hl])
    rfl rfl rfl hidle hg rfl (f := fun _ => rdNat s f.phys 4) (fun _ => rfl)
  refine ⟨_, x, execGetWinRead_of h (by simp) ?_, hgiven⟩
  refine (applyGet_gives (u := takenState c s) hw hadmit hskip hf hpoison (fabReady_forkOver hfork rfl)).trans ?_
  rw [giveRecord, hl, rdNat_congr (s := s) rfl rfl]
  rfl

/-- R234, R355: the counters of a window reach the lanes. -/
theorem getWinRead_counters {s : State} {g : Group} {c : FabCmd} {l : FabLane} {w : Window} (h : LaneOf s g c l .winRead)
    (hnodup : (c.lanes.map (fun k => k.lane)).Nodup) (hw : windowOf? s (c.src % 4) c.ctx (bitsOf c.desc.toNat 3 0) = some w) :
    ∃ t h, exec (.getWinRead c.uid) s = .next t ∧ RecordGiven s t g h c (fun m => nthD 0 [w.target, w.issued, w.acked] m) := by
  obtain ⟨hidle, -, -, -, hg, -⟩ := id h
  have hvalues (m : Nat) : (match m with | 0 => w.target | 1 => w.issued | 2 => w.acked | _ => 0) = nthD 0 [w.target, w.issued, w.acked] m := by
    match m with
    | 0 => rfl
    | 1 => rfl
    | 2 => rfl
    | _ + 3 => rfl
  obtain ⟨x, hgiven, -⟩ := giveRecord_given (u := takenState c s) h hnodup rfl rfl rfl hidle hg rfl
    (v := fun m => BitVec.ofNat 32 (match m with | 0 => w.target | 1 => w.issued | 2 => w.acked | _ => 0))
    (f := fun m => nthD 0 [w.target, w.issued, w.acked] m) (fun m => congrArg _ (hvalues m))
  refine ⟨_, x, execGetWinRead_of h (by simp) ?_, hgiven⟩
  have hw' : windowOf? (takenState c s) (c.src % 4) c.ctx (bitsOf c.desc.toNat 3 0) = some w := hw
  rw [readLane, applyWinRead, hw']
  rfl

/-- R237: the counts of a pool reach the lanes. -/
theorem getWinRead_counts {s : State} {g : Group} {c : FabCmd} {l : FabLane} (h : LaneOf s g c l .mordStat)
    (hnodup : (c.lanes.map (fun k => k.lane)).Nodup) :
    ∃ t h, exec (.getWinRead c.uid) s = .next t ∧ RecordGiven s t g h c (fun m => nthD 0 (poolCounts s (c.src % 4) c.ctx) m) := by
  obtain ⟨hidle, -, -, -, hg, -⟩ := id h
  obtain ⟨x, hgiven, -⟩ := giveRecord_given (u := takenState c s) h hnodup rfl rfl rfl hidle hg rfl
    (v := fun m => BitVec.ofNat 32 (nthD 0 (poolCounts s (c.src % 4) c.ctx) m))
    (f := fun m => nthD 0 (poolCounts s (c.src % 4) c.ctx) m) (fun _ => rfl)
  refine ⟨_, x, execGetWinRead_of h (by simp) ?_, hgiven⟩
  rfl

/-- R234, R362: the bins of a tag reach the lanes, and the split's next boundary clears what was returned. -/
theorem getWinRead_bins {s : State} {g : Group} {c : FabCmd} {l : FabLane} {tag : CollTag} (h : LaneOf s g c l .histRead)
    (hnodup : (c.lanes.map (fun k => k.lane)).Nodup) (htag : tagOf? s c.ctx (bitsOf c.desc.toNat 15 0) = some tag) :
    ∃ t h, exec (.getWinRead c.uid) s = .next t ∧ RecordGiven s t g h c (fun m => if m < 16 then nthD 0 tag.bins m else 0) ∧
      ∃ read, h.pendings = g.pendings ++ [(c.split, .histogram (bitsOf c.desc.toNat 15 0) read)] ∧
        ∀ i, i < 16 → nthD 0 read i = if i ∈ c.lanes.map (fun k => k.lane) then nthD 0 tag.bins i else 0 := by
  obtain ⟨hidle, hgid, -, -, hg, -, hlive, -⟩ := id h
  let read := (List.range 16).map (fun i => if c.lanes.any (fun l => l.lane == i) then nthD 0 tag.bins i else 0)
  let mark (a : Group) : Group := { a with pendings := a.pendings ++ [(c.split, .histogram (bitsOf c.desc.toNat 15 0) read)] }
  let u := modGroup c.gid mark (takenState c s)
  have hframe := modGroup_frame c.gid mark (takenState c s)
  have hgot := groupOf?_modGroup_map (s := takenState c s) (f := mark) hidle hgid (fun _ => rfl) c.gid
  rw [show groupOf? (takenState c s) c.gid = some g from hg, Option.map_some, if_pos rfl] at hgot
  have hidle' : u.g.gid = 0 := by
    rw [show u = _ from modGroup_unfocused (s := takenState c s) (by rw [show (takenState c s).g.gid = 0 from hidle]; exact Ne.symm hgid) mark]
    exact hidle
  have hvalues (m : Nat) : (if m < 16 then BitVec.ofNat 32 (nthD 0 tag.bins m) else 0) =
      BitVec.ofNat 32 (if m < 16 then nthD 0 tag.bins m else 0) := by split <;> rfl
  obtain ⟨x, hgiven, hpend⟩ := giveRecord_given (u := u) (v := fun m => if m < 16 then BitVec.ofNat 32 (nthD 0 tag.bins m) else 0) h hnodup
    (fabs_modGroup _ _ _) (congrArg State.mem hframe :) (congrArg State.wq hframe :) hidle' hgot rfl
    (f := fun m => if m < 16 then nthD 0 tag.bins m else 0) hvalues
  refine ⟨_, x, execGetWinRead_of h (by simp) ?_, hgiven, read, hpend, fun i hi => ?_⟩
  · have htag' : tagOf? (takenState c s) c.ctx (bitsOf c.desc.toNat 15 0) = some tag := htag
    rw [show readLane .histRead c l (takenState c s) = applyHistRead c (takenState c s) from rfl, applyHistRead, htag', writeBack, if_neg (by simp [hlive]), modIssuer, if_neg hgid]
    rfl
  · rw [nthD_range_map 0 _ hi]
    simp [List.any_eq_true]

/-- R237, R345: the counts of a pool, named one by one. -/
theorem poolCounts_of {s : State} {die ctx : Nat} {p : Pool} (hp : poolOf? s die ctx = some p) :
    let held := s.fab.slots.filter (fun m => m.die == die && m.ctx == ctx && m.st != .free)
    let parked := (held.map (fun m => m.parked.length)).sum
    poolCounts s die ctx = [bitsOf p.word.toNat 63 48 - held.length, held.length, parked, bitsOf p.word.toNat 47 36 - parked, p.late,
      p.timeouts, p.retries, p.fails] := by
  intro held parked
  rw [poolCounts, hp]
  dsimp only
  rw [parkedCount_eq]
  rfl

/-- Settles O37, clause by clause: the next lane acts at its window, an acknowledgement ends its command, and a read brings its words. -/
theorem windowsServe : Obligations.WindowsServe := by
  unfold Obligations.WindowsServe
  refine ⟨fun s g c l w f h hw hdup hresent => ⟨putApply_refused h hw hdup hresent, putApply_written h hw hdup hresent⟩,
    fun s g c l w f h hresent htag hws => putApply_broadcast h hresent htag hws,
    fun s g c l w h hresent hw hdup => putApply_addition h hresent hw hdup,
    fun s g c l hidle hgid hkind hc hg hl => putAck_ends hidle hgid hkind hc hg hl,
    fun s g c l w f h hl hw hadmit hf hpoison hfork _ => getWinRead_word h hl hw hadmit hf hpoison hfork,
    fun s g c l w h hnodup => getWinRead_counters h hnodup, fun s g c l p h hnodup hp => ?_,
    fun s g c l tag h hnodup => getWinRead_bins h hnodup⟩
  intro held parked
  obtain ⟨t, x, hexec, hgiven⟩ := getWinRead_counts h hnodup
  exact ⟨t, x, hexec, poolCounts_of hp ▸ hgiven⟩

end Sys2Proof.Machine
end

section
/-! What a commit compares (R227, R319, R431, R434). -/

namespace Sys2Proof.Machine

open Sys2Proof Sys2Proof.Claims

/-! Recalls. -/

/-- R416, R428: walks read neither the coherence bits nor the caches. -/
theorem accessIn_of_upkeep {s u v : State} (h : withUpkeepOf s u = withUpkeepOf s v) (k : Nat) (n : Need) (a : Nat) :
    accessIn u k n a = accessIn v k n a := by
  have hview (x : State) : accessIn x k n a = accessIn (withUpkeepOf s x) k n a := rfl
  rw [hview u, hview v, h]

theorem withUpkeepOf_recallHome (s : State) (va : Nat) (l : Leaf) (u : State) : withUpkeepOf s (recallHome va l u) = withUpkeepOf s u := by
  unfold recallHome
  split
  · exact withUpkeepOf_demoteLine s _ _ _ u
  · rfl

/-- R428: the state field of coherence bits. -/
theorem sideSt_mkSide (st owner sharers : Nat) (w : Bool) : sideSt (mkSide st owner sharers w) = st % 8 := by
  have hbit : bit01 w ≤ 1 := by cases w <;> decide
  simp only [sideSt, mkSide, bitsOf]
  omega

/-- R431: the coherence bits of a line that has been recalled. -/
def demotedBits (n : Nat) : Nat :=
  match sideSt n with
  | 3 => mkSide 1 0 (sideOwner n) (bitOf n 0)
  | 4 => mkSide 1 0 (sideOwner n) (bitOf n 0)
  | 5 => let p := addSharer true (sideSharers n) (sideOwner n); mkSide (if p.1 then 1 else 2) 0 p.2 (bitOf n 0)
  | 6 => mkSide 2 0 (addSharer false (sideSharers n) (sideOwner n)).2 (bitOf n 0)
  | _ => n

theorem side_demoteLine (dom line phys : Nat) (s : State) :
    (demoteLine dom line phys s).side = mapSet 0 s.side (lineOf phys) (demotedBits (sideBits s phys)) := by
  unfold demoteLine
  dsimp only [setSide]
  split <;> rfl

/-- R431, R433: a line that is recalled was not poisoned and is not. -/
theorem demotedBits_clean {n : Nat} (h : 3 ≤ sideSt n ∧ sideSt n ≤ 6) : sideSt (demotedBits n) ≠ 7 := by
  unfold demotedBits
  split
  · simp [sideSt_mkSide]
  · simp [sideSt_mkSide]
  · simp only [sideSt_mkSide]
    split <;> decide
  · simp [sideSt_mkSide]
  · omega

/-- R431, R433: a recall poisons no line and cleans none. -/
theorem isPoisoned_recallHome (va : Nat) (l : Leaf) (s : State) (x : Nat) : isPoisoned (recallHome va l s) x = isPoisoned s x := by
  unfold recallHome
  split
  next hst =>
    unfold isPoisoned sideState
    rw [side_demoteLine, mapGet_mapSet, lineOf_lineOf]
    split
    next hline =>
      rw [hline]
      have hafter := demotedBits_clean hst
      have hbefore : sideSt (sideBits s l.phys) ≠ 7 := by omega
      unfold sideSt at hafter hbefore
      unfold sideBits at hafter hbefore ⊢
      simp [lineOf_lineOf, hafter, hbefore]
    next => rfl
  next => rfl

/-- R431: the logged words' lines recalled: what is in memory, what walks find and what is poisoned stay as they were. -/
theorem recallLog_keeps (g : Group) (t : Tx) (s : State) :
    withUpkeepOf s (recallLog g t s) = withUpkeepOf s s ∧ ∀ x, isPoisoned (recallLog g t s) x = isPoisoned s x := by
  have hstep (u : State) (w : Nat) : let v := (match sliceAt u g w with
      | some p => recallHome w p.2 u
      | none => u)
      withUpkeepOf s v = withUpkeepOf s u ∧ ∀ x, isPoisoned v x = isPoisoned u x := by
    cases sliceAt u g w with
    | none => exact ⟨rfl, fun _ => rfl⟩
    | some p => exact ⟨withUpkeepOf_recallHome s _ _ u, isPoisoned_recallHome _ _ u⟩
  exact ⟨withUpkeepOf_foldl (fun u w => (hstep u w).1) _ s,
    fun x => foldl_keeps (fun u => isPoisoned u x) (fun u w => (hstep u w).2 x) _ s⟩

/-! Values compared. -/

/-- R227, R319: whether a logged word still has the value that a lane read. -/
def stillReads (s : State) (ctx : Nat) (e : Nat × Nat × W64) : Bool :=
  match accessIn s ctx ⟨false, false, false⟩ e.2.1 with
  | .ok p => !isPoisoned s p.phys && BitVec.ofNat 64 (rdNat s p.phys 8) == e.2.2
  | .error _ => false

theorem wins_eq (s : State) (ctx : Nat) (t : Tx) (l : Nat) :
    wins s ctx t l = (inMask t.mask l && !laneFailed t l && t.log.all (fun e => e.1 != l || stillReads s ctx e)) := rfl

/-- R227: the lanes that a comparison of values fails. -/
def lostLanes (s : State) (g : Group) (t : Tx) : List Nat :=
  (survivors t).filter (fun l => (t.log.filter (fun e => e.1 == l)).any (fun e => !stillReads s g.ctx e))

theorem validate_eq (s : State) (g : Group) (t : Tx) :
    validate s g t = { t with failed := t.failed ++ (lostLanes s g t).map (fun l => (l, 1)) } := by
  have hentry (e : Nat × Nat × W64) : (match sliceAt s g e.2.1 with
      | some p => isPoisoned s p.2.phys || BitVec.ofNat 64 (rdNat s p.2.phys 8) != e.2.2
      | none => true) = !stillReads s g.ctx e := by
    unfold sliceAt stillReads
    cases accessIn s g.ctx ⟨false, false, false⟩ e.2.1 with
    | error f => rfl
    | ok p => cases hp : isPoisoned s p.phys <;> simp [hp, bne]
  unfold validate lostLanes
  simp only [← hentry] <;> rfl

/-- R227, R319: the lanes that survive the comparison are those that win. -/
theorem mem_survivors_validate {s r : State} (hr : withUpkeepOf s r = withUpkeepOf s s) (hpoison : ∀ x, isPoisoned r x = isPoisoned s x)
    (g : Group) (t : Tx) (l : Nat) : l ∈ survivors (validate r g t) ↔ wins s g.ctx t l = true := by
  have hreads (e : Nat × Nat × W64) : stillReads r g.ctx e = stillReads s g.ctx e := by
    unfold stillReads
    rw [accessIn_of_upkeep hr]
    have hnat (a : Nat) : rdNat r a 8 = rdNat s a 8 := rdNat_congr (congrArg State.mem hr :) (congrArg State.wq hr :) a 8
    simp only [hpoison, hnat]
  have hfailed (k : Nat) : laneFailed (validate r g t) k = (laneFailed t k || decide (k ∈ lostLanes s g t)) := by
    have hlost : lostLanes r g t = lostLanes s g t := by simp only [lostLanes, hreads]
    have hany : ((lostLanes s g t).map (fun l => (l, 1))).any (fun f => f.1 == k) = decide (k ∈ lostLanes s g t) := by
      rw [Bool.eq_iff_iff]
      simp
    rw [validate_eq, hlost, laneFailed, List.any_append, hany]
    rfl
  rw [survivors, List.mem_filter, hfailed, wins_eq, show (validate r g t).mask = t.mask by rw [validate_eq], mem_lanesOf]
  simp only [lostLanes, survivors, List.mem_filter, mem_lanesOf, Bool.not_or, Bool.and_eq_true, Bool.not_eq_true', decide_eq_false_iff_not,
    List.any_eq_true, List.all_eq_true, not_and, not_exists, Bool.or_eq_true, bne_iff_ne, beq_iff_eq, and_assoc]
  refine and_congr_right fun hmask => and_congr_right fun hfail => ?_
  constructor
  · intro h e he
    by_contra hcon
    obtain ⟨hlane, hread⟩ := not_or.mp hcon
    exact h hmask hfail e he (not_not.mp hlane) (by simpa using hread)
  · intro h _ _ e he hlane hread
    rcases h e he with hne | hread'
    · exact hne hlane
    · rw [hread'] at hread
      cases hread

end Sys2Proof.Machine
end

section
/-! A commit takes effect, and the obligation (R226 to R228, R319). -/

namespace Sys2Proof.Machine

open Sys2Proof Sys2Proof.Claims

/-! The writes of a transaction. -/

/-- A fold of which one element acts, once. -/
theorem foldl_once {α β : Type} [DecidableEq β] {f : α → β → α} {b : β} (hf : ∀ u k, k ≠ b → f u k = u) {ks : List β} (h : ks.Nodup) (u : α) :
    ks.foldl f u = if b ∈ ks then f u b else u := by
  induction ks generalizing u with
  | nil => rfl
  | cons k ks ih =>
    obtain ⟨hk, hks⟩ := List.nodup_cons.mp h
    rw [List.foldl_cons, ih hks]
    by_cases hkb : k = b
    · subst hkb
      simp [hk]
    · simp [hf u k hkb, Ne.symm hkb]

theorem withHomeOf_dropCopies (s : State) (dom line : Nat) (u : State) : withHomeOf s (dropCopies dom line u) = withHomeOf s u := rfl

theorem withHomeOf_l1Update (s : State) (die core dom line : Nat) (bs : List (Nat × Byte)) (u : State) :
    withHomeOf s (l1Update die core dom line bs u) = withHomeOf s u := rfl

/-- R319: a line that a lane wrote, applied at its home, changes memory and the caches alone. -/
theorem withHomeOf_applyTxLine (s : State) (g : Group) (t : Tx) (lane line : Nat) (u : State) :
    withHomeOf s (applyTxLine g t lane line u) = withHomeOf s u := by
  unfold applyTxLine
  split
  · rfl
  · rw [withHomeOf_l1Update, withHomeOf_homeWrite, withHomeOf_dropCopies, withHomeOf_recallHome]

theorem withHomeOf_applyTx (s : State) (g : Group) (t : Tx) (u : State) : withHomeOf s (applyTx g t u) = withHomeOf s u :=
  foldl_keeps (withHomeOf s) (fun _ l => foldl_keeps (withHomeOf s) (fun v line => withHomeOf_applyTxLine s g t l line v) _ _) _ u

/-- R319: a transaction that wrote nothing applies nothing. -/
theorem applyTx_none {t : Tx} (h : t.writes = []) (g : Group) (s : State) : applyTx g t s = s :=
  foldl_keeps id (fun u l => by simp [h]) _ s

/-- R319: the one byte that a transaction wrote is applied if its lane survives. -/
theorem applyTx_one {t : Tx} {l va : Nat} {b : Byte} (h : t.writes = [(l, va, b)]) (g : Group) (s : State) :
    applyTx g t s = if l ∈ survivors t then applyTxLine g t l (lineOf va) s else s := by
  have hother (u : State) (k : Nat) (hk : k ≠ l) : (((t.writes.filter (fun w => w.1 == k)).map (fun w => lineOf w.2.1)).eraseDups).foldl
      (fun v line => applyTxLine g t k line v) u = u := by
    simp [h, Ne.symm hk]
  have hnodup : (survivors t).Nodup := (nodup_lanesOf t.mask).filter _
  refine (foldl_once hother hnodup s).trans ?_
  simp [h, List.eraseDups_cons]

/-- R283, R319: a byte applied at its home. -/
theorem withUpkeepOf_applyTxLine {s : State} {g : Group} {t : Tx} {l va : Nat} {b : Byte} {p : Leaf} (h : t.writes = [(l, va, b)])
    (hp : accessIn s g.ctx ⟨false, false, false⟩ (lineOf va) = .ok p) (hclean : isPoisoned s p.phys = false) :
    withUpkeepOf s (applyTxLine g t l (lineOf va) s) = withUpkeepOf s (wrByte (lineOf p.phys + va % 128) b s) := by
  let r := dropCopies p.dom (lineOf va) (recallHome (lineOf va) p s)
  have hr : withUpkeepOf s r = withUpkeepOf s s := withUpkeepOf_recallHome s (lineOf va) p s
  have hrclean : isPoisoned r p.phys = false := (isPoisoned_recallHome (lineOf va) p s p.phys).trans hclean
  have hline : applyTxLine g t l (lineOf va) s = l1Update g.die g.core p.dom (lineOf va) [(va % 128, b)]
      (homeWrite g.ctx (lineOf va) g.die Writer.none p [(va % 128, b)] r) := by
    simp only [applyTxLine, hp, h]
    simp [r]
  rw [hline]
  exact (withUpkeepOf_homeWrite s hrclean _ _ _ _ _).trans (congrArg (wrByte (lineOf p.phys + va % 128) b) hr :)

/-! The end of a transaction. -/

/-- R227, R228: what the end of a transaction leaves of its group. -/
def endedTx (t : Tx) (succ : W) (causes : List (Nat × Nat)) (g : Group) : Group :=
  let counts := txCounts t.mask succ causes g.failCounts
  { g with
    tx := none, failCounts := counts, kregs := mapSet 0 g.kregs 7 succ,
    txstat := txStatus t.mask succ causes (bitsOf g.txstat.toNat 47 40) ((succ &&& t.serial) != 0) counts }

/-- R227, R228: the end of a transaction changes its group, its token and its entries. -/
theorem endTx_ends {s : State} {t : Tx} (h : s.g.tx = some t) (succ : W) (causes : List (Nat × Nat)) :
    (endTx succ causes none s).g = endedTx t succ causes s.g ∧ (endTx succ causes none s).sp = s.sp ∧
      (endTx succ causes none s).groups = s.groups ∧ (endTx succ causes none s).mem = s.mem ∧ (endTx succ causes none s).wq = s.wq ∧
      (endTx succ causes none s).ms.loads = s.ms.loads ∧
      (endTx succ causes none s).ms.entries = s.ms.entries.filter (fun e => !(e.gid == s.g.gid && e.tx)) := by
  unfold endTx
  rw [h]
  dsimp only
  split <;> exact ⟨rfl, rfl, rfl, rfl, rfl, rfl, rfl⟩

/-- R228: the low word of %txstat names the lanes that succeeded. -/
theorem lowWord_txStatus (mask succ : W) (causes : List (Nat × Nat)) (code : Nat) (serial : Bool) (counts : SMap Nat) :
    lowWord (txStatus mask succ causes code serial counts) = succ := by
  refine BitVec.eq_of_toNat_eq ?_
  have hsucc : succ.toNat < 2 ^ 32 := succ.isLt
  unfold txStatus
  dsimp only
  rw [lowWord, BitVec.toNat_setWidth, BitVec.toNat_ofNat]
  split <;> omega

/-! The commit. -/

/-- R227: the lanes that win a commit. -/
def winMask (s : State) (g : Group) (t : Tx) : W := maskOf (fun l => memNat l (survivors (validate (recallLog g t s) g t)))

/-- The state of a commit whose writes are applied. -/
def appliedTx (s : State) (g : Group) (t : Tx) : State :=
  applyTx g (validate (recallLog g t s) g t) (recallLog g t s)

/-- R319: a commit whose writes are applied has changed memory and the caches alone. -/
theorem withHomeOf_appliedTx (s : State) (g : Group) (t : Tx) : withHomeOf s (appliedTx s g t) = withHomeOf s s :=
  (withHomeOf_applyTx s g _ _).trans (withHomeOf_of_upkeep (recallLog_keeps g t s).1)

/-- R227, R319: the transaction of the group in focus is decided. -/
theorem finishTx_eq (t : Tx) (s : State) : finishTx t s =
    endTx (winMask s s.g t) (validate (recallLog s.g t s) s.g t).failed none
      (withTx (validate (recallLog s.g t s) s.g t) (appliedTx s s.g t)) := by
  have hg : (recallLog s.g t s).g = s.g := (congrArg State.g (recallLog_keeps s.g t s).1 :)
  have hga : (appliedTx s s.g t).g = s.g := (congrArg State.g (withHomeOf_appliedTx s s.g t) :)
  unfold finishTx
  simp only [hg]
  rfl

/-- R227, R228, R319: what a commit leaves of its group and of the machine. -/
theorem finishTx_ends (t : Tx) (s : State) :
    (finishTx t s).g = endedTx t (winMask s s.g t) (validate (recallLog s.g t s) s.g t).failed s.g ∧
      (finishTx t s).sp = s.sp ∧ (finishTx t s).groups = s.groups ∧ (finishTx t s).mem = s.mem ∧
      (finishTx t s).wq = (appliedTx s s.g t).wq ∧ (finishTx t s).ms.loads = s.ms.loads ∧
      (finishTx t s).ms.entries = s.ms.entries.filter (fun e => !(e.gid == s.g.gid && e.tx)) := by
  have hframe := withHomeOf_appliedTx s s.g t
  rw [finishTx_eq]
  generalize appliedTx s s.g t = u at hframe ⊢
  have hg : u.g = s.g := (congrArg State.g hframe :)
  obtain ⟨h1, h2, h3, h4, h5, h6, h7⟩ := endTx_ends (s := withTx (validate (recallLog s.g t s) s.g t) u) rfl (winMask s s.g t)
    (validate (recallLog s.g t s) s.g t).failed
  have hmask : (validate (recallLog s.g t s) s.g t).mask = t.mask ∧ (validate (recallLog s.g t s) s.g t).serial = t.serial := by
    rw [validate_eq]
    exact ⟨rfl, rfl⟩
  refine ⟨h1.trans ?_, h2.trans (congrArg State.sp hframe :), h3.trans (congrArg State.groups hframe :), h4.trans (congrArg State.mem hframe :),
    h5, h6.trans (congrArg (fun v : State => v.ms.loads) hframe :), h7.trans ?_⟩
  · rw [withTx, hg, endedTx, endedTx, hmask.1, hmask.2]
  · rw [withTx, hg]
    exact congrArg (List.filter (fun e => !(e.gid == s.g.gid && e.tx))) (congrArg (fun v : State => v.ms.entries) hframe :)

/-- R300, R319: the region of a commit that is decided can end: no load of its group is outstanding, and no store of it is left. -/
theorem canEnd_finishTx {t : Tx} {s : State} (hloads : ∀ d ∈ s.ms.loads, d.gid ≠ s.g.gid)
    (hstores : ∀ e ∈ s.ms.entries, e.gid = s.g.gid → e.tx = true) : CanEnd (finishTx t s) := by
  obtain ⟨hg, -, -, -, -, hwloads, hentries⟩ := finishTx_ends t s
  have hgid : (finishTx t s).g.gid = s.g.gid := (congrArg Group.gid hg :)
  generalize finishTx t s = w at *
  have hnone : w.ms.entries.filter (ofRegion w) = [] := by
    refine List.filter_eq_nil_iff.mpr fun e he => ?_
    rw [hentries, List.mem_filter] at he
    have hother : e.gid ≠ s.g.gid := fun h => by simp [h, hstores e he.1 h] at he
    simp [ofRegion, hgid, hother]
  have hidle : w.ms.loads.filter (fun d => d.gid == w.g.gid && d.split == w.sp.num) = [] := by
    refine List.filter_eq_nil_iff.mpr fun d hd => ?_
    simp [hgid, hloads d (hwloads ▸ hd)]
  refine ⟨?_, ?_⟩
  · rw [claimsAnswered, hnone]
    rfl
  · rw [regionFaults, loadFaults, claimFaults, hnone, hidle]
    rfl

/-- R227: the state after tx.end, which goes on with its boundary once the commit is decided. -/
def committedTx (t : Tx) (s : State) : State := runMicros [] (commitRegion (finishTx t s))

/-- R227, R228: tx.end goes on once its commit is decided. -/
theorem runMicros_finishTx {t : Tx} {s : State} (hpend : s.sp.pend = [.txWait, .boundary]) (hend : CanEnd (finishTx t s)) :
    runMicros (finishTx t s).sp.pend (finishTx t s) = committedTx t s := by
  obtain ⟨hg, hsp, -⟩ := finishTx_ends t s
  have htx : (finishTx t s).g.tx = none := (congrArg Group.tx hg :)
  rw [hsp, hpend]
  have hwait : runMicro .txWait (finishTx t s) = .done (finishTx t s) := waitUntil_true (by rw [htx]; rfl) _ _
  exact (runMicros_done hwait _).trans (runMicros_done (runMicro_boundary hend) _)

/-- R227, R228: the boundary of tx.end leaves what the commit has set. -/
theorem committedTx_keeps (t : Tx) (s : State) :
    (committedTx t s).g.tx = none ∧ (committedTx t s).sp.pend = [] ∧ (committedTx t s).g.gid = s.g.gid ∧ (committedTx t s).groups = s.groups ∧
      (committedTx t s).g.kregs = mapSet 0 s.g.kregs 7 (winMask s s.g t) ∧ lowWord (committedTx t s).g.txstat = winMask s s.g t ∧
      (committedTx t s).g.regs = s.g.regs ∧ (committedTx t s).g.sregs = s.g.sregs ∧ (committedTx t s).mem = s.mem ∧
      (committedTx t s).wq = (appliedTx s s.g t).wq := by
  obtain ⟨hg, -, hgroups, hmem, hwq, -⟩ := finishTx_ends t s
  have htx : (commitRegion (finishTx t s)).g.tx = none := by
    rw [commitRegion_tx, show (finishTx t s).g.tx = none from (congrArg Group.tx hg :)]
    rfl
  have hframe := commitRegion_frame (finishTx t s)
  rw [committedTx, runMicros_nil_g, runMicros_nil_pend]
  have hnil := runMicros_nil_frame (commitRegion (finishTx t s))
  generalize runMicros [] (commitRegion (finishTx t s)) = v at *
  generalize commitRegion (finishTx t s) = r at *
  generalize finishTx t s = w at *
  have hstat : r.g.txstat = w.g.txstat := (congrArg (fun x : State => x.g.txstat) hframe :)
  refine ⟨htx, rfl, (congrArg (fun x : State => x.g.gid) hframe :).trans (congrArg Group.gid hg :),
    (congrArg State.groups hnil :).trans ((congrArg State.groups hframe :).trans hgroups),
    (congrArg (fun x : State => x.g.kregs) hframe :).trans (congrArg Group.kregs hg :), ?_,
    (congrArg (fun x : State => x.g.regs) hframe :).trans (congrArg Group.regs hg :),
    (congrArg (fun x : State => x.g.sregs) hframe :).trans (congrArg Group.sregs hg :),
    (congrArg State.mem hnil :).trans ((congrArg State.mem hframe :).trans hmem),
    (congrArg State.wq hnil :).trans ((congrArg State.wq hframe :).trans hwq)⟩
  rw [hstat, show w.g.txstat = _ from (congrArg Group.txstat hg :)]
  exact lowWord_txStatus _ _ _ _ _ _

/-- R319: the waiting writes of a commit of a transaction that wrote nothing, and of one that wrote a byte. -/
theorem wq_appliedTx {s : State} {g : Group} {t : Tx} : (t.writes = [] → (appliedTx s g t).wq = s.wq) ∧
    (∀ l va b p, t.writes = [(l, va, b)] → accessIn s g.ctx ⟨false, false, false⟩ (lineOf va) = .ok p → isPoisoned s p.phys = false →
      (appliedTx s g t).wq = if wins s g.ctx t l then (lineOf p.phys + va % 128, b) :: s.wq else s.wq) := by
  obtain ⟨hkeep, hpoison⟩ := recallLog_keeps g t s
  have hwq : (recallLog g t s).wq = s.wq := (congrArg State.wq hkeep :)
  have hwrites : (validate (recallLog g t s) g t).writes = t.writes := by rw [validate_eq]
  have hsurvive := mem_survivors_validate hkeep hpoison g t
  rw [appliedTx]
  refine ⟨fun h => ?_, fun l va b p h hp hclean => ?_⟩
  · rw [applyTx_none (hwrites.trans h), hwq]
  · rw [applyTx_one (hwrites.trans h)]
    by_cases hwin : wins s g.ctx t l = true
    · rw [if_pos ((hsurvive l).mpr hwin), if_pos hwin]
      have hline := withUpkeepOf_applyTxLine (hwrites.trans h) ((accessIn_of_upkeep hkeep _ _ _).trans hp) ((hpoison _).trans hclean)
      exact (congrArg State.wq hline :).trans (congrArg (List.cons _) hwq)
    · rw [if_neg (mt (hsurvive l).mp hwin), if_neg hwin, hwq]

/-- Settles O18: the commit recalls what it compares, the lanes that win have their writes applied, and tx.end goes on with its
boundary. -/
theorem transactionsEnd : Obligations.TransactionsEnd := by
  unfold Obligations.TransactionsEnd
  intro s u g t hg htx hat hphase hlocked hpend hloads hstores
  obtain ⟨-, g', hg', -, ⟨ps, hown⟩, hrest⟩ := focusFor?_of_at hat
  obtain rfl : g' = g := Option.some.inj (hg'.symm.trans hg)
  have hms : u.ms = s.ms := (congrArg State.ms hrest :)
  obtain ⟨hmem, hwq, -⟩ := at_keeps hat
  have hgid : u.g.gid = g'.gid := by rw [hown]
  have hctx : u.g.ctx = g'.ctx := by rw [hown]
  have hupkeep : withUpkeepOf { s with groups := u.groups, g := u.g, sp := u.sp, iss := u.iss } u =
      withUpkeepOf { s with groups := u.groups, g := u.g, sp := u.sp, iss := u.iss } { s with groups := u.groups, g := u.g, sp := u.sp, iss := u.iss } :=
    (congrArg (fun x : State => withUpkeepOf { s with groups := u.groups, g := u.g, sp := u.sp, iss := u.iss }
      { x with groups := u.groups, g := u.g, sp := u.sp, iss := u.iss }) hrest :)
  have haccess (n : Need) (a : Nat) : accessIn u u.g.ctx n a = accessIn s g'.ctx n a := by
    rw [hctx]
    exact accessIn_of_upkeep hupkeep _ n a
  have hpoison (x : Nat) : isPoisoned u x = isPoisoned s x := by
    rw [isPoisoned, isPoisoned, sideState, sideState, show u.side = s.side from (congrArg State.side hrest :)]
  have hwins (l : Nat) : wins u u.g.ctx t l = wins s g'.ctx t l := by
    have hreads (e : Nat × Nat × W64) : stillReads u u.g.ctx e = stillReads s g'.ctx e := by
      simp only [stillReads, haccess, hpoison, rdNat_congr hmem hwq]
    simp only [wins_eq, hreads]
  have hend : CanEnd (finishTx t u) := canEnd_finishTx (fun d hd => hgid ▸ hloads d (hms ▸ hd)) fun e he h => hstores e (hms ▸ he) (h.trans hgid)
  obtain ⟨h1, h2, h3, h4, h5, h6, h7, h8, h9, h10⟩ := committedTx_keeps t u
  have hgoes := runMicros_finishTx hpend hend
  have hexec : exec (.txValidationResult g'.gid) s = .next (unfocus (committedTx t u)) := by
    have hall : (txSlices s g' t).all (fun n => memNat n t.locked) = true := by
      simpa [memNat] using hlocked
    change execTxValidationResult g'.gid s = _
    rw [← hgoes]
    simp only [execTxValidationResult, hg, htx, hphase, hall, and_self, if_true]
    exact congrArg Host.Outcome.next (onSplit_of_at hat (by rw [hgoes]; exact h3) (by rw [hgoes]; exact h4))
  have hk (k : Nat) : kGet (committedTx t u) k = if k = 7 then winMask u u.g t else kGet u k := by
    rw [kGet, h5, mapGet_mapSet]
    rfl
  obtain ⟨hnothing, hbyte⟩ := wq_appliedTx (s := u) (g := u.g) (t := t)
  refine ⟨committedTx t u, hexec, h1, h2, fun l hl => ?_, fun k hk7 => (hk k).trans (if_neg hk7), h6.trans ((hk 7).trans (if_pos rfl)).symm, h7, h8,
    fun hw => ⟨h9.trans hmem, h10.trans ((hnothing hw).trans hwq)⟩, fun l va b p hw hp hclean _ a => ?_⟩
  · obtain ⟨hkeep, hpoisons⟩ := recallLog_keeps u.g t u
    rw [hk, if_pos rfl, winMask, inMask_maskOf _ hl, ← hwins, Bool.eq_iff_iff, memNat, ← mem_survivors_validate hkeep hpoisons]
    simp
  · have hlane : wins s g'.ctx t l = true → l < 32 := fun h => by
      rw [wins_eq, Bool.and_eq_true, Bool.and_eq_true] at h
      exact lt_of_mem_lanesOf ((mem_lanesOf _ _).mpr h.1.1)
    have hbytes := hbyte l va b p hw ((haccess _ _).trans hp) ((hpoison _).trans hclean)
    rw [hwins] at hbytes
    rw [rdByte, h10, hbytes, h9, hmem, hwq]
    by_cases hwin : wins s g'.ctx t l = true
    · by_cases ha : a = lineOf p.phys + va % 128
      · simp [hwin, hlane hwin, ha]
      · simp [hwin, ha, Ne.symm ha, rdByte]
    · simp [hwin, rdByte]

end Sys2Proof.Machine
end

section
/-! The peer trap and the count of L (R235, R240). -/

namespace Sys2Proof.Machine

open Sys2Proof Sys2Proof.Claims

/-- R235: every group has a number, and the group of a number counts c words on L. -/
def CountsL (n c : Nat) (s : State) : Prop := ∀ x ∈ allGroups s, x.gid ≠ 0 ∧ (x.gid = n → x.cntL = c)

/-- R240: the group in focus counts c words on L, has no other split, waits for nothing and has no load outstanding. -/
structure Spent (n c : Nat) (s : State) : Prop where
  counts : CountsL n c s
  focus : s.g.gid = n
  pend : s.sp.pend = []
  loads : ∀ l ∈ s.ms.loads, l.gid ≠ n

/-- The groups of the list are groups of the machine. -/
theorem mem_allGroups_of_mem {s : State} {x : Group} (h : x ∈ s.groups) : x ∈ allGroups s := by
  unfold allGroups
  split
  · exact h
  · exact List.mem_cons_of_mem _ h

/-- The groups after a change of those of a number are groups from before or such groups changed. -/
theorem mem_allGroups_modGroup {n : Nat} {f : Group → Group} (hf : ∀ x, (f x).gid = x.gid) {s : State} {y : Group}
    (h : y ∈ allGroups (modGroup n f s)) : ∃ x ∈ allGroups s, y = x ∨ x.gid = n ∧ y = f x := by
  have hlist : ∀ z ∈ updateAll (fun g => g.gid == n) f s.groups, ∃ x ∈ allGroups s, z = x ∨ x.gid = n ∧ z = f x := fun z hz => by
    obtain ⟨x, hx, rfl⟩ := List.mem_map.mp hz
    refine ⟨x, mem_allGroups_of_mem hx, ?_⟩
    split
    next hn => exact .inr ⟨by simpa using hn, rfl⟩
    · exact .inl rfl
  unfold modGroup at h
  split at h
  next hn =>
    by_cases h0 : s.g.gid = 0
    · have hgroups : allGroups { s with g := f s.g } = allGroups s := by simp [allGroups, hf, h0]
      exact ⟨y, hgroups ▸ h, .inl rfl⟩
    · obtain rfl | h := (mem_allGroups_focus (s := { s with g := f s.g }) ((hf s.g).trans_ne h0)).mp h
      · exact ⟨s.g, (mem_allGroups_focus h0).mpr (.inl rfl), .inr ⟨hn, rfl⟩⟩
      · exact ⟨y, mem_allGroups_of_mem h, .inl rfl⟩
  · by_cases h0 : s.g.gid = 0
    · rw [allGroups, if_pos h0] at h
      exact hlist y h
    · obtain rfl | h := (mem_allGroups_focus (s := { s with g := s.g, groups := updateAll (fun g => g.gid == n) f s.groups }) h0).mp h
      · exact ⟨s.g, (mem_allGroups_focus h0).mpr (.inl rfl), .inl rfl⟩
      · exact hlist y h

/-- A change of a group's splits leaves the count. -/
theorem countsL_modSplits {n c k : Nat} {f : Split → Split} {s : State} (h : CountsL n c s) : CountsL n c (modSplits k f s) := by
  have hcopy (x : Group) (hx : x.gid ≠ 0 ∧ (x.gid = n → x.cntL = c)) (ps : List Split) :
      ({ x with splits := ps } : Group).gid ≠ 0 ∧ (({ x with splits := ps } : Group).gid = n → ({ x with splits := ps } : Group).cntL = c) := hx
  intro y hy
  have hsame : allGroups (modSplits k f s) = allGroups (modGroup k (fun x => { x with splits := x.splits.map f }) s) := by
    unfold modSplits modGroup
    split <;> rfl
  obtain ⟨x, hx, rfl | ⟨-, rfl⟩⟩ := mem_allGroups_modGroup (f := fun x : Group => { x with splits := x.splits.map f }) (fun _ => rfl) (hsame ▸ hy)
  · exact h _ hx
  · exact hcopy x (h x hx) _

/-- R240: the stop of a group drops its loads. -/
theorem loads_stopGroup (g : Group) (s : State) : (stopGroup g s).ms.loads = s.ms.loads.filter (fun l => l.gid != g.gid) := by
  have hframe := withWatchesOf_withdrawGroup s g s
  unfold stopGroup
  generalize withdrawGroup g s = w at hframe ⊢
  have hloads : w.ms.loads = s.ms.loads := (congrArg (fun u : State => u.ms.loads) hframe :)
  exact (congrArg (fun u : State => u.ms.loads) (modGroup_frame ..) :).trans (congrArg (List.filter _) hloads)

/-- R240: a group with nothing on L gives nothing up when groups stop. -/
theorem spent_stopGroup {n c : Nat} {s : State} {g : Group} (hg : g.gid = n → g.splits = []) (h : Spent n c s) : Spent n c (stopGroup g s) := by
  obtain ⟨hcounts, hfocus, hpend, hloads⟩ := h
  obtain ⟨f, u, heq, hframe, hf⟩ := stopGroup_eq g s
  have hug : u.g = s.g := (congrArg State.g hframe :)
  have hugroups : u.groups = s.groups := (congrArg State.groups hframe :)
  have hall : allGroups u = allGroups s := by rw [allGroups, allGroups, hug, hugroups]
  refine ⟨fun y hy => ?_, stopGroup_gids.1.trans hfocus, (congrArg (fun v : State => v.sp.pend) (stopGroup_frame g s) :).trans hpend, ?_⟩
  · obtain ⟨x, hx, hy⟩ := mem_allGroups_modGroup (fun x => (hf x).1) (heq ▸ hy)
    obtain ⟨h0, hcnt⟩ := hcounts x (hall ▸ hx)
    obtain rfl | ⟨hxg, rfl⟩ := hy
    · exact ⟨h0, hcnt⟩
    · obtain ⟨hgid, -, -, -, hcntL⟩ := hf x
      refine ⟨hgid.trans_ne h0, fun hn => ?_⟩
      have hgn : g.gid = n := hxg.symm.trans (hgid.symm.trans hn)
      have hsplits : splitsOf s g = insertSplit s.sp [] := by rw [splitsOf, if_pos (hgn.trans hfocus.symm), hg hgn]
      have hgiven : givenUp s g = 0 := by
        have hnone : s.ms.loads.filter (fun l => l.gid == g.gid) = [] :=
          List.filter_eq_nil_iff.mpr fun l hl => by simpa [hgn] using hloads l hl
        rw [givenUp, hnone, hsplits, insertSplit]
        split <;> simp [hpend]
      rw [hcntL, hgiven, Nat.sub_zero]
      exact hcnt (hgid.symm.trans hn)
  · rw [loads_stopGroup]
    exact fun l hl => hloads l (List.mem_filter.mp hl).1

theorem spent_stopGroups {n c : Nat} {gs : List Group} (hgs : ∀ g ∈ gs, g.gid = n → g.splits = []) {s : State} (h : Spent n c s) :
    Spent n c (gs.foldl (fun w g => stopGroup g w) s) := by
  induction gs generalizing s with
  | nil => exact h
  | cons g gs ih =>
    exact ih (fun x hx => hgs x (List.mem_cons_of_mem _ hx)) (spent_stopGroup (hgs g (List.mem_cons_self ..)) h)

/-- R240: a group with nothing on L keeps its count, or is gone, when its viaduct stops. -/
theorem countsL_stopViaduct {n c : Nat} {s : State} (k : Nat) (r : TrapRec) (h : Spent n c s)
    (hsplits : ∀ g ∈ allGroups s, g.gid = n → g.splits = []) : CountsL n c (stopViaduct k r s) := by
  unfold stopViaduct
  dsimp only
  split
  · exact h.counts
  · split
    · exact h.counts
    · split
      · have hkeep (gs : List Group) (u : State) (hu : CountsL n c u) : CountsL n c (gs.foldl (fun w g => modSplits g.gid
            (fun p => { p with state := if p.state = .running then .debug else p.state }) w) u) :=
          List.foldlRecOn gs _ hu fun _ hw _ _ => countsL_modSplits hw
        exact hkeep _ _ h.counts
      · have hstop := (spent_stopGroups (gs := (allGroups (markTrapped k r s)).filter (fun g => g.viaduct == k)) (s := markTrapped k r s)
          (fun g hg => hsplits g (List.mem_filter.mp hg).1) ⟨h.counts, h.focus, h.pend, h.loads⟩).counts
        have hstopped : CountsL n c (groupsStopped k r s) := by
          unfold groupsStopped
          dsimp only
          split <;> exact hstop
        exact fun x hx => hstopped x ((retireSpans_keep _ _).1 x (((settleViaduct_frame _ _).1 x).mp hx))

/-- The count of L is that of the group, in focus or among the others. -/
theorem countsL_unfocus {n c : Nat} {s : State} (h : CountsL n c s) : CountsL n c (unfocus s) := by
  intro x hx
  by_cases h0 : s.g.gid = 0
  · rw [unfocus, if_pos h0] at hx
    exact h x (mem_allGroups_of_mem hx)
  · rw [unfocus_focused h0] at hx
    obtain rfl | hx := mem_insertGroup.mp hx
    · exact h s.g ((mem_allGroups_focus h0).mpr (.inl rfl))
    · exact h x (mem_allGroups_of_mem hx)

/-- Where no group is in focus before it, an operation on a split leaves none in focus, even if the split's group is gone after it. -/
theorem onSplit_settled {s u : State} {gid num n c : Nat} {f : State → State} (h : At s gid num u) (hcounts : CountsL n c (f u)) :
    onSplit gid num f s = unfocus (f u) := by
  obtain ⟨hfocus, -⟩ := focusFor?_of_at h
  obtain ⟨hsettled, -⟩ := h
  have hs : s.g.gid = 0 := congrArg Group.gid hsettled.1
  have hnone : focus? s.g.gid s.sp.num (unfocus (f u)) = none := by
    have hidle : unfocus (unfocus (f u)) = unfocus (f u) := by
      unfold unfocus
      split <;> rfl
    have hgroups : (unfocus (f u)).groups.find? (fun g => g.gid == 0) = none :=
      List.find?_eq_none.mpr fun x hx => by simpa using (countsL_unfocus hcounts x (mem_allGroups_of_mem hx)).1
    simp only [focus?, hidle, hs, hgroups]
  unfold onSplit
  rw [hfocus]
  dsimp only
  rw [hnone]

end Sys2Proof.Machine
end

section
/-! Exchanges (R235). -/

namespace Sys2Proof.Machine

open Sys2Proof Sys2Proof.Claims

/-- R235: a group of one split waits where its split does. -/
theorem xshfWaits_single {s : State} {g : Group} {p : Split} {d a lin grp st : Nat} (hs : s.g.gid = 0) (hgid : g.gid ≠ 0)
    (hsplits : g.splits = [p]) (hpend : p.pend = [.xshf d a lin grp st]) : xshfWaits s g = [⟨p.num, p.em, d, a, lin, grp, st⟩] := by
  rw [xshfWaits, splitsOf, if_neg (hs ▸ hgid), hsplits]
  simp [Split.xshf?, hpend]

/-- The only split of a group in focus. -/
theorem focusedOn_single {s : State} {g : Group} {p : Split} (hsettled : s.Settled) (hsplits : g.splits = [p]) :
    let u := focusedOn g.gid p.num g p s
    u.g = { g with splits := [] } ∧ u.sp = p ∧ u.groups = s.groups.filter (fun x => x.gid != g.gid) ∧
      { u with groups := s.groups, g := s.g, sp := s.sp, iss := s.iss } = s := by
  have hidle : unfocus s = { s with g := Group.idle, sp := Split.idle, iss := Issue.idle } := if_pos (congrArg Group.gid hsettled.1)
  refine ⟨by simp [focusedOn, hsplits], rfl, by rw [focusedOn, hidle], by rw [focusedOn, hidle]⟩

/-- R235: what a waiting word does in its split when the values of its peer have come. -/
def takesValues (w : XshfWait) (both : W) (v : Nat → W) (u : State) : State :=
  let vals : SMap W64 := (lanesOf both).map (fun l => (l, zext64 (v l)))
  let t := countReplay { u with
    g := { u.g with replays := u.g.replays ++ [⟨w.split, u.sp.replay + 1, vals⟩], cntL := u.g.cntL - 1 } }
  { t with g := t.g.setLanes w.d both v }

/-- R235: what one side of an exchange leaves: its group has received the values, and no other group has changed. -/
structure SideDone (s t : State) (g g' : Group) (w : XshfWait) (both : W) (v : Nat → W) : Prop where
  settled : t.Settled
  gids : ∀ x ∈ t.groups, x.gid ≠ 0
  group : groupOf? t g.gid = some g'
  others : ∀ k, k ≠ g.gid → groupOf? t k = groupOf? s k
  regs : ∀ r l, l < 32 → gReg g' r l = if inMask both l ∧ r = w.d then v l else gReg g r l
  cntL : g'.cntL = g.cntL - 1
  pend : ∀ x ∈ g'.splits, x.pend = []
  sregs : g'.sregs = g.sregs
  mem : t.mem = s.mem
  wq : t.wq = s.wq
  traps : t.traps = s.traps

/-- R235: one side of an exchange of a group of one split. -/
theorem completeXshf_done {s : State} {g : Group} {p : Split} {d a lin grp st : Nat} (hsettled : s.Settled)
    (hgids : ∀ x ∈ s.groups, x.gid ≠ 0) (hg : groupOf? s g.gid = some g) (hsplits : g.splits = [p]) (hmember : p.member ≠ 0)
    (hpend : p.pend = [.xshf d a lin grp st]) {w : XshfWait} (hw : w.split = p.num) (both : W) (v : Nat → W) :
    ∃ g', SideDone s (completeXshf g.gid w both v s) g g' w both v := by
  have hs : s.g.gid = 0 := congrArg Group.gid hsettled.1
  have hlist := groupOf?_unfocused hs g.gid ▸ hg
  have hgid : g.gid ≠ 0 := hgids g (List.mem_of_find?_eq_some hlist)
  have hat : At s g.gid w.split (focusedOn g.gid p.num g p s) := hw ▸ at_focusedOn hsettled hgids hlist (num := p.num) (by simp [hsplits])
  obtain ⟨hug, husp, hugroups, hurest⟩ := focusedOn_single hsettled hsplits
  generalize focusedOn g.gid p.num g p s = u at hat hug husp hugroups hurest
  have hframe := runMicros_nil_frame (takesValues w both v u)
  have hrg := runMicros_nil_g (takesValues w both v u)
  have hdone : completeXshf g.gid w both v s = unfocus (runMicros [] (takesValues w both v u)) :=
    finishPart_of_at (f := fun _ t => takesValues w both v t) hat (husp ▸ hpend) rfl (congrArg Group.gid hrg :)
      (congrArg State.groups hframe :)
  have hrgroups : (runMicros [] (takesValues w both v u)).groups = s.groups.filter (fun x => x.gid != g.gid) :=
    (congrArg State.groups hframe :).trans hugroups
  have hrsp : (runMicros [] (takesValues w both v u)).sp.member ≠ 0 := by
    obtain ⟨-, hm, -⟩ := runMicros_nil_path (takesValues w both v u)
    exact hm.trans_ne ((congrArg Split.member husp).trans_ne hmember)
  have hrpend := runMicros_nil_pend (takesValues w both v u)
  have hrest (x : State) (hx : { x with g := u.g, sp := u.sp } = { u with g := u.g, sp := u.sp }) :
      x.mem = s.mem ∧ x.wq = s.wq ∧ x.traps = s.traps :=
    ⟨(congrArg State.mem hx :).trans (congrArg State.mem hurest :), (congrArg State.wq hx :).trans (congrArg State.wq hurest :),
      (congrArg State.traps hx :).trans (congrArg State.traps hurest :)⟩
  obtain ⟨hmem, hwq, htraps⟩ := hrest (runMicros [] (takesValues w both v u)) (congrArg (fun x : State => { x with g := u.g, sp := u.sp }) hframe :)
  have hval : (takesValues w both v u).g.gid = g.gid := (congrArg Group.gid hug :)
  have hcnt : (takesValues w both v u).g.cntL = g.cntL - 1 := (congrArg (fun x : Group => x.cntL - 1) hug :)
  have hsregs : (takesValues w both v u).g.sregs = g.sregs := (congrArg Group.sregs hug :)
  have hown : (takesValues w both v u).g.splits = [] := (congrArg Group.splits hug :)
  have hregs (r l : Nat) (hl : l < 32) : gReg (takesValues w both v u).g r l = if inMask both l ∧ r = w.d then v l else gReg g r l :=
    (gReg_setLanes w.d both v _ r hl).trans (congrArg (fun x : Group => if inMask both l ∧ r = w.d then v l else gReg x r l) hug :)
  rw [← hrg] at hval hcnt hsregs hown hregs
  generalize runMicros [] (takesValues w both v u) = t at *
  have hunfocus := unfocus_focused (s := t) (hval ▸ hgid)
  rw [hdone, hunfocus, hrgroups, hown, insertSplit, if_neg hrsp]
  refine ⟨{ t.g with splits := [t.sp] }, ⟨rfl, rfl, rfl, hwq.trans hsettled.2.2.2⟩, fun x hx => ?_, ?_, fun k hk => ?_, hregs, hcnt,
    fun x hx => ?_, hsregs, hmem, hwq, htraps⟩
  · obtain rfl | hx := mem_insertGroup.mp hx
    · exact hval ▸ hgid
    · exact hgids x (List.mem_filter.mp hx).1
  · exact (groupOf?_unfocused rfl _).trans (find?_insertGroup_same hval fun y hy => by simpa using (List.mem_filter.mp hy).2)
  · refine (groupOf?_unfocused rfl _).trans ((find?_insertGroup_ne (hval ▸ hk) _).trans ?_)
    rw [groupOf?_unfocused hs, List.find?_filter]
    refine congrArg (List.find? · s.groups) (funext fun x => ?_)
    by_cases hx : x.gid = k
    · simp [hx, hk]
    · simp [hx]
  · exact (List.mem_singleton.mp hx) ▸ hrpend

/-- R235: two groups that wait for each other are a pair. -/
theorem exchangePair_of {s : State} {g h : Group} {w v : XshfWait} (hw : xshfWaits s g = [w]) (hv : xshfWaits s h = [v])
    (hpeer : peerOf? s g w.lin w.grp = some h) (hnames : v.names s g = true) (hg : g.residence = .resident) (hh : h.residence = .resident)
    (hgs : g.stopped = false) (hhs : h.stopped = false) : exchangePair s g = some (w, h, v) := by
  simp [exchangePair, hw, hv, hpeer, hnames, hg, hh, hgs, hhs]

/-- R235: the exchange of a pair on one die. -/
theorem execXshfExchange_of {s : State} {g h : Group} {w v : XshfWait} (hg : groupOf? s g.gid = some g)
    (hpair : exchangePair s g = some (w, h, v)) (hdie : g.die = h.die) (hgj : jilted s g = false) (hhj : jilted s h = false) :
    execXshfExchange g.gid s = .next (completeXshf h.gid v (w.em &&& v.em) (fun l => gReg g w.a l)
      (completeXshf g.gid w (w.em &&& v.em) (fun l => gReg h v.a l) s)) := by
  rw [execXshfExchange, hg]
  simp [hpair, hdie, hgj, hhj]

/-- R235: a wait is over when its time is up. -/
theorem peerGone_late {s : State} {g : Group} {w : XshfWait} (hlate : w.start + 2 ^ 24 ≤ s.tick) : peerGone s g w = true := by
  unfold peerGone
  exact Bool.or_eq_true_iff.mpr (.inl (decide_eq_true hlate))

/-- R235: a wait that is over ends in the peer trap. -/
theorem execXshfTimeout_of {s : State} {g : Group} {w : XshfWait} (hg : groupOf? s g.gid = some g) (hw : xshfWaits s g = [w])
    (hgone : peerGone s g w = true) : execXshfTimeout g.gid s = .next (peerTrap g.gid w.split s) := by
  have hfind : (xshfWaits s g).find? (peerGone s g) = some w := by rw [hw, List.find?_cons, hgone]
  simp only [execXshfTimeout, hg, hfind]

/-- R235: the state in which a split that takes the peer trap is no longer counted on L. -/
def uncounted (u : State) : State := { u with g := { u.g with cntL := u.g.cntL - 1 } }

/-- To bring a split into focus, or to put it back, adds no trap record. -/
theorem traps_unfocus (s : State) : (unfocus s).traps = s.traps := by
  unfold unfocus
  split <;> rfl

theorem traps_of_focus? {gid num : Nat} {s u : State} (h : focus? gid num s = some u) : u.traps = s.traps := by
  unfold focus? at h
  dsimp only at h
  split at h
  · cases h
  · split at h
    · cases h
    · cases h
      exact traps_unfocus s

/-- The trap records after an operation on a split are those that it leaves. -/
theorem traps_onSplit {gid num : Nat} {f : State → State} {s u : State} (h : focusFor? gid num s = some u) :
    (onSplit gid num f s).traps = (f u).traps := by
  unfold onSplit
  rw [h]
  dsimp only
  split
  next v hv => exact (traps_of_focus? hv).trans (traps_unfocus _)
  · exact traps_unfocus _

/-- Settles O39: the sides of an exchange are done one after the other, and the second finds its group as it was; at a timeout the trap
leaves the count of L, as the group gives up neither a load nor another wait. -/
theorem exchangesComplete : Obligations.ExchangesComplete := by
  unfold Obligations.ExchangesComplete
  refine ⟨fun s g h p q d a d' a' st st' hsettled hgids hne hg hh hgsplits hhsplits hpm hqm hppend hqpend hpeer _ hgj hhj hgres hhres
    hgstop hhstop hdie => ?exchange, fun s u g p d a lin grp st hat hg hsplits hpend hlate => ?timeout⟩
  case exchange =>
    have hs : s.g.gid = 0 := congrArg Group.gid hsettled.1
    have hgid : g.gid ≠ 0 := hgids g (List.mem_of_find?_eq_some (groupOf?_unfocused hs g.gid ▸ hg))
    have hhid : h.gid ≠ 0 := hgids h (List.mem_of_find?_eq_some (groupOf?_unfocused hs h.gid ▸ hh))
    have hpair := exchangePair_of (xshfWaits_single hs hgid hgsplits hppend) (xshfWaits_single hs hhid hhsplits hqpend) hpeer
      (by simp [XshfWait.names]) hgres hhres hgstop hhstop
    have hexec := execXshfExchange_of hg hpair hdie hgj hhj
    obtain ⟨g', hside⟩ := completeXshf_done hsettled hgids hg hgsplits hpm hppend (w := ⟨p.num, p.em, d, a, linOf s h, h.index, st⟩) rfl
      (p.em &&& q.em) (fun l => gReg h a' l)
    generalize completeXshf g.gid ⟨p.num, p.em, d, a, linOf s h, h.index, st⟩ (p.em &&& q.em) (fun l => gReg h a' l) s = t at hexec hside
    obtain ⟨h', hother⟩ := completeXshf_done hside.settled hside.gids ((hside.others _ hne.symm).trans hh) hhsplits hqm hqpend
      (w := ⟨q.num, q.em, d', a', linOf s g, g.index, st'⟩) rfl (p.em &&& q.em) (fun l => gReg g a l)
    refine ⟨_, g', h', hexec, (hother.others _ hne).trans hside.group, hother.group, fun r l hl => ?_, fun r l hl => ?_, hside.cntL,
      hother.cntL, fun x hx => (List.mem_append.mp hx).elim (hside.pend x) (hother.pend x), hside.sregs, hother.sregs,
      hother.mem.trans hside.mem, hother.wq.trans hside.wq, hother.traps.trans hside.traps⟩
    · simp only [hside.regs r l hl, inMask_and, Bool.and_eq_true, and_comm]
    · simp only [hother.regs r l hl, inMask_and, Bool.and_eq_true, and_comm]
  case timeout =>
    obtain ⟨hsettled, hgids, hfocus⟩ := hat
    have hs : s.g.gid = 0 := congrArg Group.gid hsettled.1
    have hlist := groupOf?_unfocused hs g.gid ▸ hg
    have hgid : g.gid ≠ 0 := hgids g (List.mem_of_find?_eq_some hlist)
    have hat := at_focusedOn hsettled hgids hlist (p := p) (num := p.num) (by simp [hsplits])
    obtain ⟨hug, husp, hugroups, hurest⟩ := focusedOn_single hsettled hsplits
    generalize focusedOn g.gid p.num g p s = v at hat hug husp hugroups hurest
    have hexec := execXshfTimeout_of hg (xshfWaits_single hs hgid hsplits hpend) (peerGone_late hlate)
    obtain ⟨info, htrap⟩ := takeTrap_eq (plainTrap .peer) (uncounted v)
    have htraps := traps_stopViaduct (uncounted v).g.viaduct (trapRecord (plainTrap .peer) (uncounted v)) (atTrap info (uncounted v))
    rw [← htrap] at htraps
    have hstep : ∃ t, peerTrap g.gid p.num s = t ∧ t.traps = (takeTrap (plainTrap .peer) (uncounted v)).traps :=
      ⟨_, rfl, traps_onSplit (focusFor?_of_at hat).1⟩
    obtain ⟨t, ht, httraps⟩ := hstep
    have hvtraps : (atTrap info (uncounted v)).traps = s.traps := (congrArg State.traps hurest :)
    refine ⟨t, trapRecord (plainTrap .peer) (uncounted v), hexec.trans (congrArg Host.Outcome.next ht), httraps.trans (hvtraps ▸ htraps),
      rfl, (congrArg Group.viaduct hug :), (congrArg (fun q : Split => some q.num) husp :), (congrArg Group.index hug :),
      fun hloads h hh => ?_⟩
    have hvgid : v.g.gid = g.gid := (congrArg Group.gid hug :)
    have hspent : Spent g.gid (g.cntL - 1) (atTrap info (uncounted v)) := by
      refine ⟨fun x hx => ?_, hvgid, rfl, (congrArg (fun w : State => w.ms.loads) hurest :) ▸ hloads⟩
      obtain rfl | hx := (mem_allGroups_focus (s := atTrap info (uncounted v)) (hvgid.trans_ne hgid)).mp hx
      · exact ⟨hvgid.trans_ne hgid, fun _ => (congrArg (fun x : Group => x.cntL - 1) hug :)⟩
      · obtain ⟨hx, hne⟩ := List.mem_filter.mp (hugroups ▸ hx)
        exact ⟨hgids x hx, fun hn => absurd hn (by simpa using hne)⟩
    have hcounts := countsL_stopViaduct (uncounted v).g.viaduct (trapRecord (plainTrap .peer) (uncounted v)) hspent fun x hx hn => by
      obtain rfl | hx := (mem_allGroups_focus (s := atTrap info (uncounted v)) (hvgid.trans_ne hgid)).mp hx
      · exact (congrArg Group.splits hug :)
      · obtain ⟨-, hne⟩ := List.mem_filter.mp (hugroups ▸ hx)
        exact absurd hn (by simpa using hne)
    rw [← htrap] at hcounts
    rw [← ht, peerTrap, onSplit_settled hat hcounts] at hh
    exact (countsL_unfocus hcounts h (List.mem_of_find?_eq_some hh)).2 (by simpa using List.find?_some hh)

end Sys2Proof.Machine
end

section
/-! The answers of the mordant buffer to its commands (R236, R237). -/

namespace Sys2Proof.Machine

open Sys2Proof Sys2Proof.Claims

/-! An answer of the mordant buffer to a command of one lane. -/

/-- What a group is apart from its condition slots and splits. -/
def apartFromSlots (g : Group) : Group := { g with slots := [], splits := [] }

/-- R231: registers and kept values of a group changed. -/
def AnswersLane (f : Group → Group) : Prop := ∀ x, { f x with regs := x.regs, regPoison := x.regPoison, replays := x.replays } = x

theorem answersLane_id : AnswersLane id := fun _ => rfl

theorem answersLane_gid {f : Group → Group} (hf : AnswersLane f) (x : Group) : (f x).gid = x.gid := (congrArg Group.gid (hf x) :)

/-- R233: the values kept for a replayed word are with its group. -/
theorem keepReplay_eq (c : FabCmd) (hgid : c.gid ≠ 0) (lane : Nat) (v : W64) (s : State) : keepReplay c lane v s = s ∨
    ∃ k : Group → Group, keepReplay c lane v s = modGroup c.gid k s ∧ ∀ x, { k x with replays := x.replays } = x := by
  unfold keepReplay
  split
  · exact .inl rfl
  · exact .inr ⟨_, if_neg hgid, fun x => rfl⟩

/-- R231: a command whose answer has been written into its group is over. -/
theorem laneEnded_answered {s u : State} {g g' : Group} {c : FabCmd} {f : Group → Group} (hf : AnswersLane f) (hidle : u.g.gid = 0)
    (hgid : c.gid ≠ 0) (hg : groupOf? u c.gid = some g') (hsame : apartFromSlots g' = apartFromSlots g)
    (hfabs : u.eng.fabs = (takenState c s).eng.fabs) (hmem : u.mem = s.mem) :
    let t := modGroup c.gid (fun x => counterDown c.kind (f x)) (goneState c u)
    LaneEnded s t g (counterDown c.kind (f g')) c ∧ t.wq = u.wq ∧ t.fab = u.fab := by
  intro t
  have hother : otherFabs c u = otherFabs c s := by
    rw [otherFabs, hfabs]
    exact otherFabs_modFab c (f := fun x => { x with taken := true }) (fun _ => rfl) s
  have hcntL : g'.cntL = g.cntL := (congrArg Group.cntL hsame :)
  have hcntC : g'.cntC = g.cntC := (congrArg Group.cntC hsame :)
  obtain ⟨h1, h2, h3, h4, h5, h6, h7⟩ := laneEnded_of (s := s) (t := t) (u := goneState c u) (f := fun x => counterDown c.kind (f x))
    rfl hidle hgid hg (fun x => answersLane_gid hf x) ⟨(congrArg (fun x : Group => (counterDown c.kind x).cntL) (hf g') :),
      (congrArg (fun x : Group => (counterDown c.kind x).cntC) (hf g') :)⟩
    ⟨(congrArg Group.sregs (hf g') :), (congrArg Group.kregs (hf g') :)⟩ hother hmem
  have hframe := modGroup_frame c.gid (fun x => counterDown c.kind (f x)) (goneState c u)
  exact ⟨⟨h1, h2, hcntL ▸ h3, hcntC ▸ h4, h5.trans (congrArg Group.sregs hsame :), h6.trans (congrArg Group.kregs hsame :), h7⟩,
    (congrArg State.wq hframe :), (congrArg State.fab hframe :)⟩

/-- R231: a command of one lane that is acknowledged without an answer is over. -/
theorem laneApplied_over {s u : State} {g g' : Group} {c : FabCmd} {l : FabLane} {kind : FabKind} (h : LaneOf s g c l kind)
    (hl : c.lanes = [l]) (hidle : u.g.gid = 0) (hg : groupOf? u c.gid = some g') (hsame : apartFromSlots g' = apartFromSlots g)
    (hfabs : u.eng.fabs = (takenState c s).eng.fabs) (hmem : u.mem = s.mem) :
    ∃ t x, laneApplied c.uid l.lane true u = t ∧ LaneEnded s t g x c ∧ t.wq = u.wq ∧ t.fab = u.fab ∧ x.regs = g.regs := by
  obtain ⟨-, hgid, -, hc, -, -, hlive, -⟩ := h
  have hfind : u.eng.fabs.find? (fun x => x.uid == c.uid) = some { c with taken := true } := hfabs ▸ find_takenState hc
  have hends := laneApplied_ends (l := l) hgid hfind ⟨rfl, rfl⟩ (fun _ => hlive) (by simp [withDone, hl, updateFirst, doneLane])
  obtain ⟨hended, hwq, hfab⟩ := laneEnded_answered answersLane_id hidle hgid hg hsame hfabs hmem
  exact ⟨_, _, hends, hended, hwq, hfab, (congrArg Group.regs hsame :)⟩

/-- R231, R233: a command of one lane whose answer is written and kept is over. -/
theorem laneApplied_answers {s u : State} {g : Group} {c : FabCmd} {l : FabLane} {kind : FabKind} (h : LaneOf s g c l kind)
    (hl : c.lanes = [l]) {f : Group → Group} (hf : AnswersLane f) (v : W64) (hidle : u.g.gid = 0) (hg : groupOf? u c.gid = some g)
    (hfabs : u.eng.fabs = (takenState c s).eng.fabs) (hmem : u.mem = s.mem) :
    ∃ t x, laneApplied c.uid l.lane true (keepReplay c l.lane v (writeBack c f u)) = t ∧ LaneEnded s t g x c ∧ t.wq = u.wq ∧
      t.fab = u.fab ∧ x.regs = (f g).regs := by
  obtain ⟨-, hgid, -, hc, -, -, hlive, -⟩ := h
  have hback : writeBack c f u = modGroup c.gid f u := by simp [writeBack, hlive, modIssuer, hgid]
  obtain ⟨k, hk, hkeep, hkregs⟩ : ∃ k, AnswersLane k ∧ keepReplay c l.lane v (writeBack c f u) = modGroup c.gid k u ∧
      ∀ x, (k x).regs = (f x).regs := by
    rw [hback]
    obtain hk | ⟨k, hk, hkf⟩ := keepReplay_eq c hgid l.lane v (modGroup c.gid f u)
    · exact ⟨f, hf, hk, fun _ => rfl⟩
    · refine ⟨fun x => k (f x), fun x => ?_, hk.trans (modGroup_modGroup (answersLane_gid hf) k u), fun x => (congrArg Group.regs (hkf (f x)) :)⟩
      exact (congrArg (fun y : Group => { y with regs := x.regs, regPoison := x.regPoison, replays := x.replays }) (hkf (f x)) :).trans (hf x)
  have hfind : (modGroup c.gid k u).eng.fabs.find? (fun x => x.uid == c.uid) = some { c with taken := true } := by
    rw [fabs_modGroup, hfabs]
    exact find_takenState hc
  have hends := laneApplied_ends (l := l) hgid hfind ⟨rfl, rfl⟩ (fun _ => hlive) (by simp [withDone, hl, updateFirst, doneLane])
  rw [goneState_modGroup, modGroup_modGroup (answersLane_gid hk)] at hends
  obtain ⟨hended, hwq, hfab⟩ := laneEnded_answered hk hidle hgid hg rfl hfabs hmem
  exact ⟨_, _, hkeep ▸ hends, hended, hwq, hfab, hkregs g⟩

theorem answersLane_setLanes (d : Nat) (m : W) (x : Nat → W) : AnswersLane (fun g => g.setLanes d m x) := fun _ => rfl

/-- R236: the answer of a pair of registers. -/
theorem answersLane_setWide (d n : Nat) (m : W) (x : Nat → Nat → W) : AnswersLane (fun g => g.setWide d n m x) := fun g =>
  foldl_keeps (f := fun (a : Group) j => a.setLanes (d + j) m (fun l => x l j))
    (fun a : Group => { a with regs := g.regs, regPoison := g.regPoison, replays := g.replays }) (fun _ _ => rfl) (List.range n) g

/-- R332: the condition monitors change of a group no more than slots and splits. -/
theorem groupOf?_evalMonitors (u : State) (n : Nat) :
    (groupOf? (evalMonitors u) n).map apartFromSlots = (groupOf? u n).map apartFromSlots :=
  groupOf?_view (s := u) (t := evalMonitors u) (p := apartFromSlots)
    (foldl_keeps (groupsView _) (fun v k => groupsView_evalMonitor (fun _ _ _ => rfl) k v) _ u) n

/-- R332: what the condition monitors leave unchanged. -/
theorem evalMonitors_keeps (u : State) : (evalMonitors u).eng = u.eng ∧ (evalMonitors u).mem = u.mem ∧ (evalMonitors u).wq = u.wq ∧
    (evalMonitors u).fab = u.fab ∧ ((evalMonitors u).g.gid = u.g.gid) := by
  have hframe := withFlipOf_evalMonitors u
  generalize evalMonitors u = t at hframe ⊢
  exact ⟨(congrArg State.eng hframe :), (congrArg State.mem hframe :), (congrArg State.wq hframe :), (congrArg State.fab hframe :),
    (congrArg (fun v : State => v.g.gid) hframe :)⟩

/-! Slots. -/

/-- Of the changes of a slot that is the first of its number, its result alone matters. -/
theorem updateFirst_of_find {α : Type} {p : α → Bool} {xs : List α} {x : α} (h : xs.find? p = some x) (f : α → α) :
    updateFirst p f xs = updateFirst p (fun _ => f x) xs := by
  induction xs with
  | nil => cases h
  | cons y ys ih =>
    cases hy : p y
    · rw [List.find?_cons, hy] at h
      simp only [updateFirst, hy, Bool.false_eq_true, if_false, ih h]
    · rw [List.find?_cons, hy] at h
      obtain rfl := Option.some.inj h
      simp [updateFirst, hy]

/-- R347: a slot changed. -/
theorem slots_modSlot {s u : State} {n : Nat} {m : MordSlot} (h : SlotAt s n m) (hu : u.fab.slots = s.fab.slots) (f : MordSlot → MordSlot) :
    (modSlot m.die m.ctx m.num f u).fab.slots = slotsWith s m (f m) := by
  obtain ⟨-, hfind⟩ := h
  exact (congrArg (updateFirst _ f) hu).trans (updateFirst_of_find hfind f)

/-- R351: before its deadline a slot stays as it is. -/
theorem deadlineSlot_early {m : MordSlot} {s : State} (h : s.tick < m.deadline) : deadlineSlot m s = s :=
  if_neg fun hlate => absurd hlate.2 (by omega)

/-- R237: a handle of a pool here names no other package. -/
theorem handleAway_of_pool {s : State} {ctx : Nat} {h : W64} {r : Pool × Nat × Nat} (hp : handlePool? s ctx h = some r) :
    handleAway s h = false := by
  have hhere : bitsOf h.toNat 57 48 = s.pkg := by
    by_contra hne
    rw [handlePool?, if_pos (.inr hne)] at hp
    cases hp
  simp [handleAway, hhere]

end Sys2Proof.Machine
end

section
/-! Tokens are allocated, filled and freed (R236, R237, R347 to R351). -/

namespace Sys2Proof.Machine

open Sys2Proof Sys2Proof.Claims

/-! mord.alloc. -/

/-- Bytes that fit in their line are one run. -/
theorem lineRuns_fit {a n : Nat} (hn : 0 < n) (hfit : a % 128 + n ≤ 128) (fuel : Nat) : lineRuns (fuel + 1) a n = [(a, n)] := by
  have hmin : min n (128 - a % 128) = n := by omega
  rw [lineRuns, if_neg (by omega)]
  dsimp only
  rw [hmin, Nat.sub_self]
  cases fuel <;> simp [lineRuns]

/-- R236, R354: bytes of one line that an engine reads where nothing holds it up. -/
theorem mordRead_gives {s : State} {c : FabCmd} {a n : Nat} {f : Leaf} (hmem : inMemory a = true) (hn : 0 < n)
    (hfit : a % 128 + n ≤ 128) (hf : accessIn s c.ctx needRd a = .ok f) (hpoison : rangePoisoned s c.ctx a n = false)
    (hready : fabReady s c = true) : mordRead s c a n = .bytes (rdBytes s f.phys n) := by
  simp [mordRead, hmem, lineRuns_fit hn hfit, hf, hpoison, hready]

/-- R347: the slot that a descriptor opens is in the mordant buffer. -/
theorem openSlot_opens (g : Group) (c : FabCmd) (l : FabLane) (p : Pool) (d : MordDesc) (num gen : Nat) (s : State) :
    ∃ ss m, openSlot g c l p d num gen s = { s with fab := { s.fab with slots := ss } } ∧ m ∈ ss ∧ m.die = p.die ∧ m.ctx = p.ctx ∧
      m.num = num ∧ m.gen = gen ∧ m.st = .opened ∧ m.desc = d ∧ m.acc = List.replicate p.elems 0 ∧ m.n = 0 ∧ m.received = [] ∧
      m.parked = [] ∧ m.deadline = s.tick + d.timeout := by
  unfold openSlot
  dsimp only
  split
  next hany =>
    obtain ⟨as, x, bs, -, -, hslots⟩ := exists_updateFirst_eq (fun _ => _) hany
    exact ⟨_, _, rfl, hslots ▸ List.mem_append_right _ (List.mem_cons_self ..), rfl, rfl, rfl, rfl, rfl, rfl, rfl, rfl, rfl, rfl, rfl⟩
  · exact ⟨_, _, rfl, List.mem_append_right _ (List.mem_singleton_self _), rfl, rfl, rfl, rfl, rfl, rfl, rfl, rfl, rfl, rfl, rfl⟩

/-- R236: the registers that receive a handle. -/
def withHandle (c : FabCmd) (l : FabLane) (h : W64) (g : Group) : Group :=
  g.setWide c.d 2 (laneBit l.lane) (fun _ j => BitVec.ofNat 32 (h.toNat / 2 ^ (32 * j)))

theorem gReg_withHandle (c : FabCmd) (l : FabLane) (h : W64) (g : Group) (r : Nat) {k : Nat} (hk : k < 32) :
    gReg (withHandle c l h g) r k = if k = l.lane ∧ r = c.d then BitVec.ofNat 32 h.toNat
      else if k = l.lane ∧ r = c.d + 1 then BitVec.ofNat 32 (h.toNat / 2 ^ 32) else gReg g r k := by
  rw [withHandle, gReg_setWide _ _ _ _ _ _ hk, inMask_laneBit _ hk]
  by_cases hl : k = l.lane
  · by_cases h0 : r = c.d
    · simp [hl, h0]
    · by_cases h1 : r = c.d + 1
      · simp [hl, h1]
      · rw [if_neg (by omega), if_neg (by omega), if_neg (by omega)]
  · simp [hl]

/-- R236: a descriptor that can be read, is well formed and finds a free slot opens it. -/
theorem applyAlloc_opens {s : State} {g : Group} {c : FabCmd} {l : FabLane} {p : Pool} {bs : List Byte} {r : Nat × Nat}
    (hg : groupOf? s c.gid = some g) (hp : poolOf? s (c.src % 4) c.ctx = some p) (hread : mordRead s c l.off 64 = .bytes bs)
    (hkind : (mordDesc bs).relKind ≠ 2)
    (hgood : badMordDesc bs (((viaductOf? s g.viaduct).map (fun v => v.launch.spanCount)).getD 0) = false)
    (hfree : freeSlot s (c.src % 4) c.ctx p.slots = some r) :
    applyAlloc c l s = giveHandle c l (mordHandle s.pkg (c.src % 4) r.1 r.2) (openSlot g c l p (mordDesc bs) r.1 r.2 s) := by
  simp only [applyAlloc, hg, hp, hread, Option.getD_some, if_neg hkind, hgood, hfree, Bool.false_eq_true, if_false]

/-- R236, R347: a token is allocated with the lowest free slot and its handle. -/
theorem mordantAlloc_opens {s : State} {g : Group} {c : FabCmd} {l : FabLane} {p : Pool} {f : Leaf} {num gen : Nat}
    (h : LaneOf s g c l .mordAlloc) (hl : c.lanes = [l]) (hp : poolOf? s (c.src % 4) c.ctx = some p) (hmem : inMemory l.off = true)
    (halign : l.off % 64 = 0) (hf : accessIn s c.ctx needRd l.off = .ok f) (hpoison : rangePoisoned s c.ctx l.off 64 = false)
    (hfork : ForkOver s c) (hkind : (mordDesc (rdBytes s f.phys 64)).relKind ≠ 2)
    (hgood : badMordDesc (rdBytes s f.phys 64) (((viaductOf? s g.viaduct).map (fun v => v.launch.spanCount)).getD 0) = false)
    (hfree : freeSlot s (c.src % 4) c.ctx p.slots = some (num, gen)) :
    ∃ t h m, exec (.mordantAllocApply c.uid) s = .next t ∧ LaneEnded s t g h c ∧ t.wq = s.wq ∧ m ∈ t.fab.slots ∧ m.die = c.src % 4 ∧
      m.ctx = c.ctx ∧ m.num = num ∧ m.gen = gen ∧ m.st = .opened ∧ m.desc = mordDesc (rdBytes s f.phys 64) ∧
      m.acc = List.replicate p.elems 0 ∧ m.n = 0 ∧ m.received = [] ∧ m.parked = [] ∧
      m.deadline = s.tick + (mordDesc (rdBytes s f.phys 64)).timeout ∧
      h.regs = (withHandle c l (mordHandle s.pkg (c.src % 4) num gen) g).regs := by
  obtain ⟨hidle, -, -, -, hg, -⟩ := id h
  have hread : mordRead (takenState c s) c l.off 64 = .bytes (rdBytes (takenState c s) f.phys 64) :=
    mordRead_gives hmem (by omega) (by omega) hf hpoison (fabReady_forkOver hfork rfl)
  have hopens := applyAlloc_opens (s := takenState c s) (l := l) (r := (num, gen)) hg hp hread hkind hgood hfree
  obtain ⟨ss, m, hslot, hm, hdie, hctx, hrest⟩ := openSlot_opens g c l p (mordDesc (rdBytes (takenState c s) f.phys 64)) num gen (takenState c s)
  rw [hslot] at hopens
  obtain ⟨t, x, ht, hended, hwq, hfab, hregs⟩ := laneApplied_answers (u := { takenState c s with fab := { s.fab with slots := ss } }) h hl
    (answersLane_setWide c.d 2 (laneBit l.lane) (fun _ j => BitVec.ofNat 32 ((mordHandle s.pkg (c.src % 4) num gen).toNat / 2 ^ (32 * j))))
    (mordHandle s.pkg (c.src % 4) num gen) hidle hg rfl rfl
  have hpool : p.die = c.src % 4 ∧ p.ctx = c.ctx := by
    have hfound := List.find?_some hp
    simp only [Bool.and_eq_true, beq_iff_eq] at hfound
    exact hfound.1
  refine ⟨t, x, m, ?_, hended, hwq, hfab ▸ hm, hdie.trans hpool.1, hctx.trans hpool.2, ?_⟩
  · change Host.Outcome.next (onLane c.uid [.mordAlloc] applyAlloc s) = _
    rw [onLane_of h (by simp), hopens]
    exact congrArg Host.Outcome.next ht
  · tauto

/-! mord.send. -/

/-- R237: the register that receives a status. -/
theorem gReg_status (c : FabCmd) (l : FabLane) (x : W) (g : Group) (r : Nat) {k : Nat} (hk : k < 32) :
    gReg (g.setLanes c.d (laneBit l.lane) (fun _ => x)) r k = if k = l.lane ∧ r = c.d then x else gReg g r k := by
  rw [gReg_setLanes _ _ _ _ _ hk, inMask_laneBit _ hk]
  simp

/-- R348: what answers a contribution that has been read, and the state after it. -/
theorem applySend_delivers {s : State} {c : FabCmd} {l : FabLane} {p : Pool} {num gen : Nat} {bs : List Byte} {m : MordSlot}
    (hp : handlePool? s c.ctx l.data = some (p, num, gen)) (halign : l.off % mordBytes p.cfmt = 0)
    (hread : mordRead s c l.off (mordBytes p.cfmt * p.elems) = .bytes bs) (hlive : liveSlot? s p num gen = some m) (hst : m.st = .opened)
    (hearly : s.tick < m.deadline) :
    applySend c l s = giveStatus c l (contribute l.aux p m (contribution p.cfmt p.elems bs) s).1
      (contribute l.aux p m (contribution p.cfmt p.elems bs) s).2 := by
  simp [applySend, handleAway_of_pool hp, hp, readContribution, halign, hread, deliver, hlive, deadlineSlot_early hearly, hst]

/-- R237, R348: a contribution that changes a slot is answered with status 0. -/
theorem mordantSend_answers {s : State} {g : Group} {c : FabCmd} {l : FabLane} {u : State} (h : LaneOf s g c l .mordSend)
    (hl : c.lanes = [l]) (happly : applySend c l (takenState c s) = giveStatus c l 0 u)
    (hu : ∃ ss, u = { takenState c s with fab := { s.fab with slots := ss } }) :
    ∃ t h, exec (.mordantSendArrival c.uid) s = .next t ∧ (LaneEnded s t g h c ∧ t.wq = s.wq ∧
      ∀ r k, k < 32 → gReg h r k = if k = l.lane ∧ r = c.d then 0 else gReg g r k) ∧ t.fab.slots = u.fab.slots := by
  obtain ⟨hidle, -, -, -, hg, -⟩ := id h
  obtain ⟨ss, rfl⟩ := hu
  obtain ⟨t, x, ht, hended, hwq, hfab, hregs⟩ := laneApplied_answers (u := { takenState c s with fab := { s.fab with slots := ss } }) h hl
    (answersLane_setLanes c.d (laneBit l.lane) (fun _ => BitVec.ofNat 32 0)) (BitVec.ofNat 64 0) hidle hg rfl rfl
  refine ⟨t, x, ?_, ⟨hended, hwq, fun r k hk => ?_⟩, congrArg Fabric.slots hfab⟩
  · change Host.Outcome.next (onLane c.uid [.mordSend] applySend s) = _
    rw [onLane_of h (by simp), happly]
    exact congrArg Host.Outcome.next ht
  · have hr : gReg x r k = gReg (g.setLanes c.d (laneBit l.lane) (fun _ => BitVec.ofNat 32 0)) r k := congrArg (fun m => mapGet 0 m (regKey r k)) hregs
    exact hr.trans (gReg_status c l 0 g r hk)

/-- R348: a contribution whose turn it is is applied. -/
theorem contribute_inOrder {s : State} {expert pos : Nat} {p : Pool} {m : MordSlot} {xs : List W}
    (hpos : m.desc.experts.findIdx? (fun e => e == expert) = some pos) (hnew : memNat pos m.received = false) (hturn : m.n = pos) :
    contribute expert p m xs s = (0, modSlot m.die m.ctx m.num (fun x =>
      (MordSlot.drainParked 8 { x.apply pos xs with n := x.n + 1, received := pos :: x.received }).completeIfFull) s) := by
  subst hturn
  simp only [contribute, hpos, hnew, Bool.false_eq_true, if_false, if_true]

/-- R348: a slot with nothing parked and positions left stays open. -/
theorem drainParked_none {m : MordSlot} (hparked : m.parked = []) (hmore : m.n < m.desc.k) (fuel : Nat) :
    (m.drainParked fuel).completeIfFull = m := by
  have hdrain : m.drainParked fuel = m := by
    cases fuel <;> simp [MordSlot.drainParked, hparked]
  rw [hdrain, MordSlot.completeIfFull, if_neg (by omega)]

/-- R348: an early contribution that finds room is parked. -/
theorem contribute_parks {s : State} {expert pos : Nat} {p : Pool} {m : MordSlot} {xs : List W}
    (hpos : m.desc.experts.findIdx? (fun e => e == expert) = some pos) (hnew : memNat pos m.received = false) (hturn : pos ≠ m.n)
    (hroom : parkedCount s m.die m.ctx < p.park) :
    contribute expert p m xs s = (0, modSlot m.die m.ctx m.num (fun x =>
      { x with received := pos :: x.received, parked := x.parked ++ [(pos, xs)] }) s) := by
  simp only [contribute, hpos, hnew, Bool.false_eq_true, if_false, hturn, hroom, if_true]

/-! mord.free and deadlines. -/

/-- R348: a slot that has become free. -/
def freedSlot (m : MordSlot) : MordSlot :=
  { m with st := .free, gen := (m.gen + 1) % 2 ^ 31, acc := [], received := [], parked := [], write := 0 }

theorem freeMordSlot_eq (m : MordSlot) (s : State) :
    freeMordSlot m.die m.ctx m.num s = evalMonitors (modSlot m.die m.ctx m.num freedSlot s) := rfl

/-- R237: a live token is abandoned before its deadline. -/
theorem applyFree_frees {s : State} {c : FabCmd} {l : FabLane} {p : Pool} {m : MordSlot} {num gen : Nat}
    (hp : handlePool? s c.ctx l.data = some (p, num, gen)) (hlive : liveSlot? s p num gen = some m) (hst : m.st = .opened)
    (hearly : s.tick < m.deadline) :
    applyFree c l s = laneApplied c.uid l.lane true (evalMonitors (modSlot m.die m.ctx m.num freedSlot s)) := by
  rw [← freeMordSlot_eq]
  simp [applyFree, handleAway_of_pool hp, abandon, hp, hlive, deadlineSlot_early hearly, hst]

/-- R237, R348: a token that is freed frees its slot. -/
theorem mordantFree_frees {s : State} {g : Group} {c : FabCmd} {l : FabLane} {p : Pool} {m : MordSlot} {n num gen : Nat}
    (h : LaneOf s g c l .mordFree) (hl : c.lanes = [l]) (hp : handlePool? s c.ctx l.data = some (p, num, gen)) (hslot : SlotAt s n m)
    (hlive : liveSlot? s p num gen = some m) (hst : m.st = .opened) (hearly : s.tick < m.deadline) :
    ∃ t h, exec (.mordantFreeArrival c.uid) s = .next t ∧ LaneEnded s t g h c ∧ h.regs = g.regs ∧ t.wq = s.wq ∧
      t.fab.slots = slotsWith s m (freedSlot m) := by
  obtain ⟨hidle, -, -, -, hg, -⟩ := id h
  have hfrees := applyFree_frees (s := takenState c s) hp hlive hst hearly
  have hslots := slots_modSlot (u := takenState c s) hslot rfl freedSlot
  let v := modSlot m.die m.ctx m.num freedSlot (takenState c s)
  obtain ⟨heng, hmem, hwq, hfab, hgid⟩ := evalMonitors_keeps v
  have hgroups := groupOf?_evalMonitors v c.gid
  rw [show groupOf? v c.gid = some g from hg, Option.map_some, Option.map_eq_some_iff] at hgroups
  obtain ⟨g', hg', hsame⟩ := hgroups
  obtain ⟨t, x, ht, hended, htwq, htfab, hregs⟩ := laneApplied_over h hl (hgid.trans hidle) hg' hsame (congrArg Engines.fabs heng) hmem
  refine ⟨t, x, ?_, hended, hregs, htwq.trans hwq, (congrArg Fabric.slots (htfab.trans hfab)).trans hslots⟩
  change Host.Outcome.next (onLane c.uid [.mordFree] applyFree s) = _
  rw [onLane_of h (by simp), hfrees]
  exact congrArg Host.Outcome.next ht

/-- R351: the parked positions applied at the deadline of a slot. -/
def parkedApplied (m x : MordSlot) (p : Nat) : MordSlot :=
  match m.parked.find? (fun q => q.1 == p && decide (m.n ≤ p)) with
  | some q => x.apply p q.2
  | none => x

/-- R351: a slot whose deadline has passed is releasing, with its parked positions applied. -/
theorem timeOut_releases (m : MordSlot) : m.timeOut.st = .releasing ∧ m.timeOut.parked = m.parked ∧ m.timeOut.fail = (m.desc.policy == 2) ∧
    (m.parked = [] → m.desc.policy ≠ 1 → m.timeOut.acc = m.acc) := by
  have hparked : ((List.range m.desc.k).foldl (parkedApplied m) m).parked = m.parked :=
    foldl_keeps MordSlot.parked (fun x p => by unfold parkedApplied; split <;> rfl) _ m
  have hacc (h : m.parked = []) : ((List.range m.desc.k).foldl (parkedApplied m) m) = m :=
    foldl_keeps id (fun x p => by simp [parkedApplied, h]) _ m
  have htimeOut : m.timeOut =
      let b := { (List.range m.desc.k).foldl (parkedApplied m) m with st := .releasing, fail := m.desc.policy == 2 }
      if m.desc.policy = 1 ∧ m.gateSum.toNat % 2 ^ 31 ≠ 0 then { b with acc := b.acc.map (fun x => f32Div x m.gateSum) } else b := rfl
  rw [htimeOut]
  generalize (List.range m.desc.k).foldl (parkedApplied m) m = a at hparked hacc
  dsimp only
  split
  next hdivide => exact ⟨rfl, hparked, rfl, fun _ hpolicy => absurd hdivide.1 hpolicy⟩
  · exact ⟨rfl, hparked, rfl, fun h _ => (congrArg MordSlot.acc (hacc h) :)⟩

/-- R351: the deadline of an open slot takes effect once it has passed. -/
theorem mordantDeadline_passes {s : State} {m : MordSlot} {n : Nat} (hslot : SlotAt s n m) (hst : m.st = .opened) (hlate : m.deadline ≤ s.tick) :
    ∃ t, exec (.mordantDeadline n) s = .next t ∧ t.fab.slots = slotsWith s m m.timeOut ∧
      { t with fab := { t.fab with slots := s.fab.slots, pools := s.fab.pools } } = s := by
  have hslots := slots_modSlot hslot rfl MordSlot.timeOut
  have hexec : exec (.mordantDeadline n) s = .next (deadlineSlot m s) := by
    change execMordantDeadline n s = _
    rw [execMordantDeadline, hslot.1]
  rw [deadlineSlot, if_pos ⟨hst, hlate⟩] at hexec
  exact ⟨_, hexec, hslots, rfl⟩

end Sys2Proof.Machine
end

section
/-! Tokens are released (R352, R354), and the obligation on the life of a token. -/

namespace Sys2Proof.Machine

open Sys2Proof Sys2Proof.Claims

/-! The mordant write. -/

/-- R352: a completed token has as many bytes as its elements have in its format. -/
theorem length_bytes (m : MordSlot) : m.bytes.length = mordBytes m.desc.format * m.acc.length := by
  rw [MordSlot.bytes, List.length_flatMap]
  simp [Nat.mul_comm]

/-- R354: the write of a token that fits in its line meets no fault where the line may be written. -/
theorem mordFault?_none {s : State} {m : MordSlot} {f : Leaf} (hf : accessIn s m.ctx needW m.desc.dest = .ok f) (hne : m.bytes ≠ [])
    (hfit : m.desc.dest % 128 + m.bytes.length ≤ 128) (hpoison : isPoisoned s f.phys = false) : mordFault? s m = none := by
  have hpos : 0 < m.bytes.length := List.length_pos_iff.mpr hne
  have hruns := lineRuns_fit hpos hfit
  simp [mordFault?, ← length_bytes, hruns, engineFault?, hf, hpoison]

/-- R352: the bytes of a token that fits in its line are written at the home of the line. -/
theorem withUpkeepOf_mordWrite (s : State) {u : State} {m : MordSlot} {f : Leaf} (hf : accessIn u m.ctx needW m.desc.dest = .ok f)
    (hhome : actingHome u f = none) (hpoison : isPoisoned u f.phys = false) (hplace : f.phys % 128 = m.desc.dest % 128)
    (hne : m.bytes ≠ []) (hfit : m.desc.dest % 128 + m.bytes.length ≤ 128) (uid : Nat) :
    withUpkeepOf s (mordWrite m uid u) = withUpkeepOf s (wrBytes f.phys m.bytes u) :=
  withUpkeepOf_engineWrite s hf hhome hpoison hplace hne hfit m.die ⟨.store uid, 0, 0⟩

/-- R352: the slot whose token has been written. -/
def writtenSlot (uid : Nat) (m : MordSlot) : MordSlot := { m with write := uid, held := false }

theorem writtenSlot_eq {m : MordSlot} (h : m.held = false) (uid : Nat) : writtenSlot uid m = { m with write := uid } := by
  rw [writtenSlot, ← h]

theorem execMordantRelease_writes {s : State} {m : MordSlot} {n : Nat} (hslot : SlotAt s n m) (hst : m.st = .releasing)
    (hwrite : m.write = 0) : exec (.mordantRelease n) s = .next (writeToken m s) := by
  change execMordantRelease n s = _
  rw [execMordantRelease, hslot.1]
  simp only [hst, hwrite, ne_eq, not_true_eq_false, if_false, if_true]

/-- R351, R352: a token that failed is not written. -/
theorem mordantRelease_fails {s : State} {m : MordSlot} {n : Nat} (hslot : SlotAt s n m) (hst : m.st = .releasing) (hheld : m.held = false)
    (hwrite : m.write = 0) (hfail : m.fail = true) :
    ∃ t, exec (.mordantRelease n) s = .next t ∧ t.uid = s.uid + 1 ∧ t.fab.slots = slotsWith s m { m with write := s.uid } ∧
      { t with fab := { t.fab with slots := s.fab.slots }, uid := s.uid } = s := by
  have hexec := execMordantRelease_writes hslot hst hwrite
  have hslots := slots_modSlot (u := { s with uid := s.uid + 1 }) hslot rfl (writtenSlot s.uid)
  rw [writtenSlot_eq hheld] at hslots
  have htoken : writeToken m s = modSlot m.die m.ctx m.num (writtenSlot s.uid) { s with uid := s.uid + 1 } := if_pos hfail
  exact ⟨_, hexec.trans (congrArg Host.Outcome.next htoken), rfl, hslots, rfl⟩

/-- R352: a token that nothing holds back is written. -/
theorem mordantRelease_written {s : State} {m : MordSlot} {n : Nat} {f : Leaf} (hslot : SlotAt s n m) (hst : m.st = .releasing)
    (hheld : m.held = false) (hwrite : m.write = 0) (hfail : m.fail = false) (hf : accessIn s m.ctx needW m.desc.dest = .ok f)
    (hne : m.bytes ≠ []) (hwaits : lineWaits s f m.desc.dest = false) (hfit : m.desc.dest % 128 + m.bytes.length ≤ 128)
    (hplace : f.phys % 128 = m.desc.dest % 128) (hhome : actingHome s f = none) (hpoison : isPoisoned s f.phys = false) :
    ∃ t, exec (.mordantRelease n) s = .next t ∧ t.mem = s.mem ∧ t.fab.slots = slotsWith s m { m with write := s.uid } ∧
      ∀ a, rdByte t a = if f.phys ≤ a ∧ a < f.phys + m.bytes.length then nthD 0 m.bytes (a - f.phys) else rdByte s a := by
  have hexec := execMordantRelease_writes hslot hst hwrite
  have hruns := lineRuns_fit (List.length_pos_iff.mpr hne) hfit (m.bytes.length / 128 + 1)
  have htoken : writeToken m s =
      modSlot m.die m.ctx m.num (writtenSlot s.uid) (mordWrite m s.uid { s with uid := s.uid + 1 }) := by
    simp only [writeToken, hfail, mordFault?_none hf hne hfit hpoison, hruns, writeWaits, hf, hwaits, fresh, Bool.false_eq_true, if_false,
      List.any_cons, List.any_nil, Bool.or_self]
    rfl
  have hframe := withUpkeepOf_mordWrite s (u := { s with uid := s.uid + 1 }) hf hhome hpoison hplace hne hfit s.uid
  generalize mordWrite m s.uid { s with uid := s.uid + 1 } = v at hframe htoken
  have hwords := wrBytes_eq f.phys m.bytes s
  rw [wrBytes_eq] at hframe
  have hmem : v.mem = s.mem := (congrArg State.mem hframe :)
  have hwq : v.wq = (wrBytes f.phys m.bytes s).wq := (congrArg State.wq hframe :).trans (congrArg State.wq hwords).symm
  have hfab : v.fab = s.fab := (congrArg State.fab hframe :)
  have hslots := slots_modSlot (u := v) hslot (congrArg Fabric.slots hfab) (writtenSlot s.uid)
  rw [writtenSlot_eq hheld] at hslots
  refine ⟨_, hexec.trans (congrArg Host.Outcome.next htoken), hmem, hslots, fun a => ?_⟩
  exact (rdByte_congr (hmem.trans (congrArg State.mem hwords).symm) hwq a).trans (rdByte_wrBytes f.phys m.bytes s a)

/-! The release. -/

theorem slots_raiseTarget (die ctx w n : Nat) (u : State) : (raiseTarget die ctx w n u).fab.slots = u.fab.slots := by
  have hframe : { withFlipOf u (raiseTarget die ctx w n u) with fab := { (raiseTarget die ctx w n u).fab with windows := u.fab.windows } } = u :=
    withFlipOf_modWindow die ctx w _ u
  generalize raiseTarget die ctx w n u = t at hframe ⊢
  exact (congrArg (fun v : State => v.fab.slots) hframe :)

/-- R352: a token whose write is performed counts at its window, and its slot is free. -/
theorem mordantRelease_counts {s : State} {m : MordSlot} {n : Nat} {w : Window} (hslot : SlotAt s n m) (hst : m.st = .releasing)
    (hwrite : m.write ≠ 0) (hdone : ∀ v ∈ s.ms.invals, v.writer.cls ≠ .store m.write) (hkind : m.desc.relKind = 1)
    (hbound : windowOf? s m.die m.ctx m.desc.relIdx = some w) (hrec : windowRec s m.die m.ctx m.desc.relIdx = some w) :
    ∃ t, exec (.mordantRelease n) s = .next t ∧ t.mem = s.mem ∧ t.wq = s.wq ∧
      windowRec t m.die m.ctx m.desc.relIdx = some (raisedBy 1 w) ∧ t.fab.slots = slotsWith s m (freedSlot m) := by
  have hinvals : s.ms.invals.any (fun v => v.writer.cls == WriteClass.store m.write) = false :=
    List.any_eq_false.mpr fun v hv => by simpa using hdone v hv
  have hexec : exec (.mordantRelease n) s = .next (freeMordSlot m.die m.ctx m.num (raiseTarget m.die m.ctx m.desc.relIdx 1 s)) := by
    change execMordantRelease n s = _
    rw [execMordantRelease, hslot.1]
    simp only [hst, hwrite, hinvals, sendRelease, hkind, hbound, ne_eq, not_true_eq_false, if_false, Bool.false_eq_true]
  obtain ⟨-, hrmem, hrwq⟩ := raiseTarget_keeps m.die m.ctx m.desc.relIdx 1 s
  have hwindow := windowRec_raiseTarget hrec 1
  have hrslots := slots_raiseTarget m.die m.ctx m.desc.relIdx 1 s
  rw [freeMordSlot_eq] at hexec
  generalize raiseTarget m.die m.ctx m.desc.relIdx 1 s = u at *
  have hslots := slots_modSlot hslot hrslots freedSlot
  obtain ⟨-, hmem, hwq, hfab, -⟩ := evalMonitors_keeps (modSlot m.die m.ctx m.num freedSlot u)
  refine ⟨_, hexec, hmem.trans hrmem, hwq.trans hrwq, ?_, (congrArg Fabric.slots hfab).trans hslots⟩
  exact (windowRec_of_windows (congrArg Fabric.windows hfab) _ _ _).trans hwindow

/-- Settles O40, step by step of the life of a token. -/
theorem mordantTokensLive : Obligations.MordantTokensLive := by
  unfold Obligations.MordantTokensLive
  refine ⟨?alloc, ?send, fun s g c l p m n num gen h hl hp hslot hlive hst hearly => mordantFree_frees h hl hp hslot hlive hst hearly,
    fun s m n hslot hst hlate => ?deadline, fun s m n hslot hst hheld => ⟨mordantRelease_fails hslot hst hheld,
      fun f hwrite hfail hf hne hwaits hfit hplace hhome hpoison =>
        mordantRelease_written hslot hst hheld hwrite hfail hf hne hwaits hfit hplace hhome hpoison,
      fun w hwrite hdone hkind hbound hrec => mordantRelease_counts hslot hst hwrite hdone hkind hbound hrec⟩⟩
  case alloc =>
    intro s g c l p f num gen h hl _ hp hmem halign hf hpoison hfork bs hkind hgood hfree
    obtain ⟨t, x, m, hexec, hended, hwq, hm, hdie, hctx, hnum, hgen, hst, hdesc, hacc, hn, hreceived, hparked, hdeadline, hregs⟩ :=
      mordantAlloc_opens h hl hp hmem halign hf hpoison hfork hkind hgood hfree
    refine ⟨t, x, m, hexec, hended, hwq, hm, hdie, hctx, hnum, hgen, hst, hdesc, hacc, hn, hreceived, hparked, hdeadline, fun r k hk => ?_⟩
    have hr : gReg x r k = gReg (withHandle c l (mordHandle s.pkg (c.src % 4) num gen) g) r k := congrArg (fun v => mapGet 0 v (regKey r k)) hregs
    exact hr.trans (gReg_withHandle c l _ g r hk)
  case send =>
    intro s g c l p m n num gen pos bs h hl _ hp halign hread hslot hlive hst hearly hpos hnew xs status
    have hdelivers := applySend_delivers (s := takenState c s) hp halign hread hlive hst hearly
    refine ⟨fun hturn hparked hmore => ?_, fun hturn hroom => ?_⟩
    · rw [contribute_inOrder hpos hnew hturn.symm] at hdelivers
      obtain ⟨t, x, hexec, hstatus, hslots⟩ := mordantSend_answers h hl hdelivers ⟨_, rfl⟩
      refine ⟨t, x, hexec, hstatus, hslots.trans ((slots_modSlot (u := takenState c s) hslot rfl _).trans ?_)⟩
      refine congrArg (slotsWith s m) (drainParked_none ?_ ?_ 8)
      · exact hparked
      · exact hmore
    · rw [contribute_parks (s := takenState c s) hpos hnew hturn hroom] at hdelivers
      obtain ⟨t, x, hexec, hstatus, hslots⟩ := mordantSend_answers h hl hdelivers ⟨_, rfl⟩
      exact ⟨t, x, hexec, hstatus, hslots.trans (slots_modSlot (u := takenState c s) hslot rfl _)⟩
  case deadline =>
    obtain ⟨t, hexec, hslots, hframe⟩ := mordantDeadline_passes hslot hst hlate
    obtain ⟨hreleasing, hparked, hfail, hacc⟩ := timeOut_releases m
    exact ⟨t, m.timeOut, hexec, hslots, hreleasing, hparked, hfail, hacc, hframe⟩

end Sys2Proof.Machine
end

section
/-! Registrations at their home, withdrawals and fires (R220, R323 to R328, R330). -/

namespace Sys2Proof.Machine

open Sys2Proof Sys2Proof.Claims

/-! Bits. -/

theorem bitOf_eq_testBit (n i : Nat) : bitOf n i = n.testBit i := by
  rw [Nat.testBit_eq_decide_div_mod_eq]
  rfl

/-- R5: the number with bit k set. -/
theorem bitOf_setBits_one (n k i : Nat) : bitOf (setBits n k k 1) i = (decide (i = k) || bitOf n i) := by
  have hlow : n % 2 ^ k < 2 ^ k := Nat.mod_lt _ (by positivity)
  have hset : setBits n k k 1 = 2 ^ k * (2 * (n / 2 ^ k / 2) + 1) + n % 2 ^ k := by
    have hn := Nat.div_add_mod n (2 ^ k)
    have hq := Nat.div_add_mod (n / 2 ^ k) 2
    rw [setBits, bitsOf, Nat.add_sub_cancel_left, pow_one, Nat.one_mod, one_mul]
    generalize n / 2 ^ k = q at *
    generalize n % 2 ^ k = r at *
    have hbit : 2 ^ k * q = 2 ^ k * (2 * (q / 2)) + q % 2 * 2 ^ k := by
      conv_lhs => rw [← hq]
      ring
    have hone : 2 ^ k * (2 * (q / 2) + 1) = 2 ^ k * (2 * (q / 2)) + 2 ^ k := by ring
    omega
  have hn := Nat.testBit_two_pow_mul_add (n / 2 ^ k) hlow i
  rw [Nat.div_add_mod] at hn
  rw [bitOf_eq_testBit, bitOf_eq_testBit, hset, Nat.testBit_two_pow_mul_add _ hlow, hn]
  by_cases hi : i < k
  · simp [hi, Nat.ne_of_lt hi]
  · obtain ⟨j, rfl⟩ : ∃ j, i = k + j := ⟨i - k, by omega⟩
    rw [if_neg hi, if_neg hi, Nat.add_sub_cancel_left]
    cases j with
    | zero => simp [Nat.testBit_zero]
    | succ j =>
      rw [Nat.testBit_succ, Nat.testBit_succ, show (2 * (n / 2 ^ k / 2) + 1) / 2 = n / 2 ^ k / 2 by omega]
      simp

/-! A registration at its home. -/

/-- R330: what a registration that fires leaves. -/
theorem sendFire_sends (ctx lslot slot gen : Nat) (forced : Bool) (s : State) :
    ∃ f, sendFire ctx lslot slot gen forced s = { s with uid := s.uid + 1, wat := { s.wat with fires := s.wat.fires ++ [f] } } ∧
      f.ctx = ctx ∧ f.lslot = lslot ∧ f.slot = slot ∧ f.gen = gen ∧ f.forced = forced := ⟨_, rfl, rfl, rfl, rfl, rfl, rfl⟩

/-- The state in which a registration is no longer on its way. -/
def arrivedReg (r : WatchReg) (s : State) : State :=
  { s with wat := { s.wat with regs := s.wat.regs.filter (fun x => x.uid != r.uid) } }

/-- R220, R326: a registration that nothing holds up is handled at its home. -/
theorem execWatchRegistration_of {s : State} {r : WatchReg} {g : Group} {l : Leaf} (h : RegistrationAt s r g l) :
    exec (.watchRegistration r.uid) s = .next (registerAt g r l (arrivedReg r s)) := by
  obtain ⟨-, -, hr, hg, hl, hwaits, -⟩ := h
  change execWatchRegistration r.uid s = _
  simp only [execWatchRegistration, hr, hg, hl, hwaits, Bool.false_eq_true, if_false]
  rfl

/-- R326: whether the condition of a registration holds at its home. -/
def regHolds (s : State) (r : WatchReg) (l : Leaf) : Bool :=
  !isPoisoned s l.phys && cmpHolds r.cmp r.w64 (wordAt s l.phys r.w64) r.x

/-- R324, R326: a registration that holds fires; another is kept where there is room, and fires by force where there is none. -/
theorem registerAt_eq {s : State} {r : WatchReg} {g : Group} {l : Leaf} (h : RegistrationAt s r g l) :
    registerAt g r l (arrivedReg r s) =
      if regHolds s r l then sendFire g.ctx g.lslot r.slot r.gen false (arrivedReg r s)
      else
        match placeEntry? s (homeAgent l) (sliceOf l r.addr) g.ctx false with
        | none => sendFire g.ctx g.lslot r.slot r.gen true (arrivedReg r s)
        | some inList =>
          answerSlot g.gid r.slot r.gen (keepEntry ⟨s.uid, homeAgent l, sliceOf l r.addr, inList, r.addr, r.x, l.dom, g.ctx, s.pkg, g.lslot,
            r.slot, r.w64, r.cmp, r.gen, s.tick, none⟩ l.phys { arrivedReg r s with uid := s.uid + 1 }) := by
  obtain ⟨-, -, -, -, -, -, hhome⟩ := h
  have hhome' : actingHome (arrivedReg r s) l = none := hhome
  rw [registerAt, recallHome_of_home hhome']
  rfl

/-- R220: the answer to a registration is in the groups. -/
theorem withGroupsOf_answerSlot (s : State) (gid i gen : Nat) (u : State) : withGroupsOf s (answerSlot gid i gen u) = withGroupsOf s u :=
  (withGroupsOf_modSplits s _ _ _).trans (withGroupsOf_modGroup s _ _ _)

/-- R428: a line whose bit W is set is watched. -/
theorem sideWatched_setWatched (phys : Nat) (s : State) : sideWatched (setWatched phys true s) phys = true := by
  rw [sideWatched, setWatched, setSide, mapGet_mapSet]
  simp [bitOf_setBits_one]

/-- R327: a filter bit that is set. -/
theorem filterBit_setFilter (home slice a : Nat) (s : State) : filterBit (setFilter home slice a true s) home slice a = true := by
  rw [filterBit, setFilter, mapGet_mapSet]
  simp [bitOf_setBits_one, bit01]

/-- R324, R325, R327: an entry that is kept follows the others; its line is watched and its filter bit is set. -/
theorem keepEntry_keeps (e : WatchEntry) (phys : Nat) (s : State) : let t := keepEntry e phys s
    t.wat.entries = s.wat.entries ++ [{ e with tick := e.tick % 2 ^ 32 }] ∧ t.wat.fires = s.wat.fires ∧ t.mem = s.mem ∧
      sideWatched t phys = true ∧ (e.inList = true → filterBit t e.home e.slice e.addr = true) := by
  have hframe := withUpkeepOf_demoteLine s e.dom (lineOf e.addr) phys s
  have hwat : (demoteLine e.dom (lineOf e.addr) phys s).wat = s.wat := by
    unfold demoteLine
    dsimp only [setSide]
    split <;> rfl
  have hmem : (demoteLine e.dom (lineOf e.addr) phys s).mem = s.mem := (congrArg State.mem hframe :)
  unfold keepEntry
  generalize demoteLine e.dom (lineOf e.addr) phys s = u at *
  have hwatched := sideWatched_setWatched phys u
  have hbit := filterBit_setFilter e.home e.slice e.addr (setWatched phys true u)
  dsimp only
  split
  · exact ⟨(congrArg (fun w : WatchSys => w.entries ++ [{ e with tick := e.tick % 2 ^ 32 }]) hwat :), (congrArg WatchSys.fires hwat :), hmem, hwatched, fun _ => hbit⟩
  next hno => exact ⟨congrArg (fun w : WatchSys => w.entries ++ _) hwat, congrArg WatchSys.fires hwat, hmem, hwatched, fun h => absurd h hno⟩

/-- R220, R326: a registration whose condition holds fires at once. -/
theorem watchRegistration_fires {s : State} {r : WatchReg} {g : Group} {l : Leaf} (h : RegistrationAt s r g l) (hholds : regHolds s r l = true) :
    ∃ t f, exec (.watchRegistration r.uid) s = .next t ∧ t.wat.fires = s.wat.fires ++ [f] ∧ f.ctx = g.ctx ∧
      f.lslot = g.lslot ∧ f.slot = r.slot ∧ f.gen = r.gen ∧ f.forced = false ∧
      t.wat.regs = s.wat.regs.filter (fun x => x.uid != r.uid) ∧ t.wat.entries = s.wat.entries ∧ t.groups = s.groups ∧ t.mem = s.mem := by
  have heq := registerAt_eq h
  rw [if_pos hholds] at heq
  obtain ⟨f, hf, hfields⟩ := sendFire_sends g.ctx g.lslot r.slot r.gen false (arrivedReg r s)
  obtain ⟨hctx, hlslot, hslot, hgen, hforced⟩ := hfields
  exact ⟨_, f, (execWatchRegistration_of h).trans (congrArg Host.Outcome.next (heq.trans hf)), rfl, hctx, hlslot, hslot, hgen, hforced, rfl,
    rfl, rfl, rfl⟩

/-- R324: a registration that does not hold and finds no room fires by force. -/
theorem watchRegistration_forced {s : State} {r : WatchReg} {g : Group} {l : Leaf} (h : RegistrationAt s r g l) (hholds : regHolds s r l = false)
    (hfull : placeEntry? s (homeAgent l) (sliceOf l r.addr) g.ctx false = none) :
    ∃ t f, exec (.watchRegistration r.uid) s = .next t ∧ t.wat.fires = s.wat.fires ++ [f] ∧ f.ctx = g.ctx ∧ f.lslot = g.lslot ∧
        f.slot = r.slot ∧ f.gen = r.gen ∧ f.forced = true ∧ t.wat.entries = s.wat.entries := by
  have heq := registerAt_eq h
  rw [if_neg (by simp [hholds]), hfull] at heq
  obtain ⟨f, hf, hfields⟩ := sendFire_sends g.ctx g.lslot r.slot r.gen true (arrivedReg r s)
  obtain ⟨hctx, hlslot, hslot, hgen, hforced⟩ := hfields
  exact ⟨_, f, (execWatchRegistration_of h).trans (congrArg Host.Outcome.next (heq.trans hf)), rfl, hctx, hlslot, hslot, hgen, hforced, rfl⟩

/-- R324, R326: a registration that does not hold is kept where there is room. -/
theorem watchRegistration_kept {s : State} {r : WatchReg} {g : Group} {l : Leaf} (h : RegistrationAt s r g l) (hholds : regHolds s r l = false)
    {inList : Bool} (hroom : placeEntry? s (homeAgent l) (sliceOf l r.addr) g.ctx false = some inList) :
    ∃ t e, exec (.watchRegistration r.uid) s = .next t ∧ t.wat.entries = s.wat.entries ++ [e] ∧ e.home = homeAgent l ∧
        e.slice = sliceOf l r.addr ∧ e.inList = inList ∧ e.addr = r.addr ∧ e.operand = r.x ∧ e.ctx = g.ctx ∧ e.lslot = g.lslot ∧
        e.slot = r.slot ∧ e.w64 = r.w64 ∧ e.cmp = r.cmp ∧ e.gen = r.gen ∧ e.pkg = s.pkg ∧ e.tick = s.tick % 2 ^ 32 ∧ e.packet = none ∧
        t.wat.fires = s.wat.fires ∧ (inList = true → bitOf (mapGet 0 t.wat.filters (homeAgent l * 256 + sliceOf l r.addr))
          (bitsOf r.addr 16 7 ^^^ bitsOf r.addr 26 17) = true) ∧
        sideWatched t l.phys = true ∧ t.mem = s.mem := by
  have heq := registerAt_eq h
  rw [if_neg (by simp [hholds]), hroom] at heq
  have hkeeps := keepEntry_keeps ⟨s.uid, homeAgent l, sliceOf l r.addr, inList, r.addr, r.x, l.dom, g.ctx, s.pkg, g.lslot, r.slot, r.w64, r.cmp,
    r.gen, s.tick, none⟩ l.phys { arrivedReg r s with uid := s.uid + 1 }
  dsimp only at heq hkeeps
  generalize keepEntry _ l.phys { arrivedReg r s with uid := s.uid + 1 } = k at heq hkeeps
  obtain ⟨hentries, hfires, hmem, hwatched, hbit⟩ := hkeeps
  have hframe := withGroupsOf_answerSlot k g.gid r.slot r.gen k
  generalize answerSlot g.gid r.slot r.gen k = t at heq hframe
  have hwat : t.wat = k.wat := (congrArg State.wat hframe :)
  have hside : t.side = k.side := (congrArg State.side hframe :)
  refine ⟨t, _, (execWatchRegistration_of h).trans (congrArg Host.Outcome.next heq), (congrArg WatchSys.entries hwat).trans hentries,
    rfl, rfl, rfl, rfl, rfl, rfl, rfl, rfl, rfl, rfl, rfl, rfl, rfl, rfl, (congrArg WatchSys.fires hwat).trans hfires, fun hin => ?_, ?_,
    (congrArg State.mem hframe :).trans hmem⟩
  · rw [hwat]
    exact hbit hin
  · rw [sideWatched, hside]
    exact hwatched

/-! Withdrawals. -/

/-- R325: entries that are removed. -/
theorem entries_dropEntries (p : WatchEntry → Bool) (s : State) :
    { (dropEntries p s).wat with entries := s.wat.entries } = s.wat ∧ (dropEntries p s).wat.entries = s.wat.entries.filter (fun e => !p e) := by
  have hclear (u : State) (e : WatchEntry) : (clearW e u).wat = u.wat := by
    unfold clearW
    split
    · rfl
    · split
      · rfl
      · split <;> rfl
  have hwat : (dropEntries p s).wat = { s.wat with entries := s.wat.entries.filter (fun e => !p e) } :=
    foldl_keeps State.wat hclear (s.wat.entries.filter p) { s with wat := { s.wat with entries := s.wat.entries.filter (fun e => !p e) } }
  rw [hwat]
  exact ⟨rfl, rfl⟩

/-- R328: the entries of a slot that no longer stands for them are withdrawn. -/
theorem watchWithdraw_drops {s : State} {g : Group} (n : Nat) (hg : groupOf? s g.gid = some g) :
    ∃ t, exec (.watchWithdraw g.gid n) s = .next t ∧ { t with wat := s.wat, side := s.side } = s ∧
      t.wat.entries = s.wat.entries.filter (fun e => !(e.packet == none && e.ctx == g.ctx && e.lslot == g.lslot && e.slot == n &&
        !((g.slot n).st == .armed && (g.slot n).gen == e.gen))) := by
  refine ⟨_, ?_, withWatchesOf_dropEntries s _ s, (entries_dropEntries (fun e => entryOfSlot g n e && !((g.slot n).st == .armed && (g.slot n).gen == e.gen)) s).2⟩
  change execWatchWithdraw g.gid n s = _
  rw [execWatchWithdraw, hg]

/-! Fires. -/

/-- The splits of a group that is not in focus changed. -/
theorem modSplits_unfocused {s : State} {n : Nat} (h : s.g.gid ≠ n) (f : Split → Split) :
    modSplits n f s = modGroup n (fun g => { g with splits := g.splits.map f }) s := by rw [modSplits, modGroup, if_neg h, if_neg h]

/-- R330: the slots of a group once a fire has reached one of them. -/
theorem slots_fireSlot {s : State} {g : Group} (hidle : s.g.gid = 0) (hgid : g.gid ≠ 0) (hg : groupOf? s g.gid = some g) {i : Nat} {x : Slot}
    (hx : g.slots[i]? = some x) (gen : Nat) (forced : Bool) : ∃ h, groupOf? (fireSlot g.gid i gen forced s) g.gid = some h ∧
      h.regs = g.regs ∧ h.slots[i]? = some (if x.st = .armed ∧ x.gen = gen then { x with st := .fired, forced := forced, answered := true } else x) := by
  have hi : i < g.slots.length := (List.getElem?_eq_some_iff.mp hx).1
  have hslot := slot_of_getElem? hx
  have hcond : ((groupOf? s g.gid).map (fun g => (g.slot i).gen)) = some gen ↔ x.gen = gen := by simp [hg, hslot]
  unfold fireSlot
  dsimp only
  by_cases hgen : x.gen = gen
  · rw [if_pos (hcond.mpr hgen), modSplits_unfocused (by rw [modGroup_unfocused (by rw [hidle]; exact hgid.symm)]; exact fun h => hgid (h.symm.trans hidle)),
      modGroup_modGroup (by exact fun _ => rfl), groupOf?_modGroup_map hidle hgid (by exact fun _ => rfl), hg, Option.map_some, if_pos rfl]
    exact ⟨_, rfl, rfl, by simp [Group.setSlot, hi, hslot, hgen]⟩
  · rw [if_neg (fun h => hgen (hcond.mp h))]
    exact ⟨g, hg, rfl, hx.trans (by rw [if_neg fun h => hgen h.2])⟩

/-- R330: a fire reaches its slot of a resident group under its generation. -/
theorem watchFireDelivery_reaches {s : State} {f : Fire} {g : Group} {x : Slot} (hidle : s.g.gid = 0) (hgid : g.gid ≠ 0)
    (hf : s.wat.fires.find? (fun y => y.uid == f.uid) = some f) (hg : groupOf? s g.gid = some g)
    (hfound : (allGroups s).find? (fun h => h.ctx == f.ctx && h.lslot == f.lslot && !h.released) = some g) (hres : g.residence = .resident)
    (hx : g.slots[f.slot]? = some x) :
    ∃ t h, exec (.watchFireDelivery f.uid) s = .next t ∧ groupOf? t g.gid = some h ∧ h.regs = g.regs ∧ t.mem = s.mem ∧
      t.wat.fires = s.wat.fires.filter (fun y => y.uid != f.uid) ∧
      h.slots[f.slot]? = some (if x.st = .armed ∧ x.gen = f.gen then { x with st := .fired, forced := f.forced, answered := true } else x) := by
  let u : State := { s with wat := { s.wat with fires := s.wat.fires.filter (fun y => y.uid != f.uid) } }
  have hexec : exec (.watchFireDelivery f.uid) s = .next (fireSlot g.gid f.slot f.gen f.forced u) := by
    change execWatchFireDelivery f.uid s = _
    simp only [execWatchFireDelivery, hf, hfound, hres]
    rfl
  obtain ⟨h, hh, hregs, hslots⟩ := slots_fireSlot (s := u) hidle hgid hg hx f.gen f.forced
  have hframe := withGroupsOf_fireSlot u g.gid f.slot f.gen f.forced u
  generalize fireSlot g.gid f.slot f.gen f.forced u = t at *
  exact ⟨t, h, hexec, hh, hregs, (congrArg State.mem hframe :), (congrArg (fun v : State => v.wat.fires) hframe :), hslots⟩

end Sys2Proof.Machine
end

section
/-! Scans, deadlines, purges and wakes (R221, R327 to R331). -/

namespace Sys2Proof.Machine

open Sys2Proof Sys2Proof.Claims

/-! Scans of a list. -/

/-- Where no two elements have a number, the numbers of some of them name those. -/
theorem any_uid_filter {xs : List WatchEntry} (h : (xs.map WatchEntry.uid).Nodup) (p : WatchEntry → Bool) {e : WatchEntry} (he : e ∈ xs) :
    (xs.filter p).any (fun f => f.uid == e.uid) = p e := by
  have hinj := List.inj_on_of_nodup_map h
  rw [Bool.eq_iff_iff, List.any_eq_true]
  refine ⟨fun ⟨f, hf, hu⟩ => ?_, fun hp => ⟨e, List.mem_filter.mpr ⟨he, hp⟩, by simp⟩⟩
  obtain ⟨hf, hp⟩ := List.mem_filter.mp hf
  rwa [← hinj hf he (by simpa using hu)]

/-- R330: the fire that an entry of a group sends. -/
def fireOf (uid : Nat) (e : WatchEntry) : Fire := ⟨uid, e.ctx, e.lslot, e.slot, e.gen, false⟩

/-- The state with one more fire of a group's entry. -/
def fired (u : State) (e : WatchEntry) : State :=
  { u with uid := u.uid + 1, wat := { u.wat with fires := u.wat.fires ++ [fireOf u.uid e] } }

/-- A state with the fires and the next number of s. -/
def withFiresOf (s u : State) : State := { u with uid := s.uid, wat := { u.wat with fires := s.wat.fires } }

/-- R330: entries of groups that fire one after the other send their fires and change nothing else. -/
theorem foldl_fired (es : List WatchEntry) (s u : State) : withFiresOf s (es.foldl fired u) = withFiresOf s u ∧
    (∀ f ∈ u.wat.fires, f ∈ (es.foldl fired u).wat.fires) ∧
    ∀ e ∈ es, ∃ f ∈ (es.foldl fired u).wat.fires, ∃ n, f = fireOf n e := by
  induction es generalizing u with
  | nil => exact ⟨rfl, fun _ h => h, fun e he => by cases he⟩
  | cons e es ih =>
    obtain ⟨hframe, hkeep, hsent⟩ := ih (fired u e)
    refine ⟨hframe, fun f hf => hkeep f (List.mem_append_left _ hf), fun x hx => ?_⟩
    obtain rfl | hx := List.mem_cons.mp hx
    · exact ⟨_, hkeep _ (List.mem_append_right _ (List.mem_singleton_self _)), _, rfl⟩
    · exact hsent x hx

theorem fireEntries_eq {es : List WatchEntry} (h : ∀ e ∈ es, e.packet = none) (s : State) :
    fireEntries es s = es.foldl fired (dropEntries (fun e => es.any (fun f => f.uid == e.uid)) s) := by
  unfold fireEntries
  refine List.foldl_ext _ _ _ fun u e he => ?_
  rw [h e he]
  rfl

/-- R327, R330: entries of groups that fire are removed and send their fires. -/
theorem fireEntries_fires {es : List WatchEntry} (h : ∀ e ∈ es, e.packet = none) (s : State) : let t := fireEntries es s
    t.wat.entries = s.wat.entries.filter (fun e => !es.any (fun f => f.uid == e.uid)) ∧ t.wat.scans = s.wat.scans ∧ t.mem = s.mem ∧
      t.wq = s.wq ∧ ∀ e ∈ es, ∃ f ∈ t.wat.fires, ∃ n, f = fireOf n e := by
  have hwat := entries_dropEntries (fun e => es.any (fun f => f.uid == e.uid)) s
  have hdrop := withWatchesOf_dropEntries s (fun e => es.any (fun f => f.uid == e.uid)) s
  rw [fireEntries_eq h]
  generalize dropEntries (fun e => es.any (fun f => f.uid == e.uid)) s = u at *
  obtain ⟨hrest, hentries⟩ := hwat
  obtain ⟨hframe, -, hsent⟩ := foldl_fired es u u
  generalize es.foldl fired u = t at *
  exact ⟨(congrArg (fun v : State => v.wat.entries) hframe :).trans hentries,
    (congrArg (fun v : State => v.wat.scans) hframe :).trans (congrArg WatchSys.scans hrest :),
    (congrArg State.mem hframe :).trans (congrArg State.mem hdrop :), (congrArg State.wq hframe :).trans (congrArg State.wq hdrop :), hsent⟩

/-- R327: the bits of the entries of a list. -/
theorem bitOf_foldl_setBits (es : List WatchEntry) (n i : Nat) :
    bitOf (es.foldl (fun n e => setBits n (filterIndex e.addr) (filterIndex e.addr) 1) n) i =
      (bitOf n i || es.any (fun e => filterIndex e.addr == i)) := by
  induction es generalizing n with
  | nil => simp
  | cons e es ih =>
    rw [List.foldl_cons, ih, bitOf_setBits_one, List.any_cons, ← Bool.or_assoc, Bool.or_comm (bitOf n i)]
    refine congrArg₂ (fun a b => (a || bitOf n i) || b) ?_ rfl
    rw [Bool.eq_iff_iff, decide_eq_true_iff, beq_iff_eq]
    exact eq_comm

/-- R327: the filter of a slice holds the bits of the entries of its list. -/
theorem clearFilter_bits (home slice : Nat) (s : State) (i : Nat) :
    bitOf (mapGet 0 (clearFilter home slice s).wat.filters (home * 256 + slice)) i =
      s.wat.entries.any (fun e => e.home == home && e.slice == slice && e.inList && (bitsOf e.addr 16 7 ^^^ bitsOf e.addr 26 17) == i) := by
  rw [clearFilter, filterKey, mapGet_mapSet, if_pos rfl, bitOf_foldl_setBits, List.any_filter]
  simp [bitOf, filterIndex]

/-- R327: the entries that the scan of a list fires. -/
def scanFires (s : State) (c : Scan) (e : WatchEntry) : Bool :=
  e.inList && e.dom == c.dom && lineOf e.addr == c.line &&
    c.written.any (fun b => decide (e.addr % 128 ≤ b.1 ∧ b.1 < e.addr % 128 + wordBytes e.w64)) &&
    cmpHolds e.cmp e.w64 (wordAt s (c.phys + e.addr % 128) e.w64) e.operand

theorem firing_eq (s : State) (c : Scan) :
    firing s c.dom c.line c.phys (c.written.map (fun b => b.1)) true = s.wat.entries.filter (scanFires s c) := by
  unfold firing scanFires overlaps
  refine congrArg (List.filter · s.wat.entries) (funext fun e => ?_)
  simp only [List.any_map, Function.comp_def]
  cases e.inList <;> simp

/-- R327: a scan that ends fires the entries of the list that its write satisfies and settles the filter. -/
theorem watchListScanEnd_fires {s : State} {c : Scan} {die slice : Nat}
    (hc : s.wat.scans.find? (fun c => c.home == agentOf s die && c.slice == slice) = some c) (hnodup : (s.wat.entries.map WatchEntry.uid).Nodup)
    (hgroups : ∀ e ∈ s.wat.entries, e.packet = none) :
    ∃ t, exec (.watchListScanEnd die slice) s = .next t ∧ t.wat.scans = s.wat.scans.erase c ∧
      t.wat.entries = s.wat.entries.filter (fun e => !scanFires s c e) ∧ t.mem = s.mem ∧ t.wq = s.wq ∧
      (∀ e ∈ s.wat.entries, scanFires s c e = true →
        ∃ f ∈ t.wat.fires, f.ctx = e.ctx ∧ f.lslot = e.lslot ∧ f.slot = e.slot ∧ f.gen = e.gen ∧ f.forced = false) ∧
      ∀ i, i < 1024 → bitOf (mapGet 0 t.wat.filters (c.home * 256 + c.slice)) i = t.wat.entries.any (fun e =>
        e.home == c.home && e.slice == c.slice && e.inList && (bitsOf e.addr 16 7 ^^^ bitsOf e.addr 26 17) == i) := by
  let u : State := { s with wat := { s.wat with scans := s.wat.scans.erase c } }
  have hexec : exec (.watchListScanEnd die slice) s = .next (clearFilter c.home c.slice (fireEntries (s.wat.entries.filter (scanFires s c)) u)) := by
    have hfiring : firing u c.dom c.line c.phys (c.written.map (fun b => b.1)) true = s.wat.entries.filter (scanFires s c) := firing_eq u c
    rw [← hfiring]
    change execWatchListScanEnd die slice s = _
    rw [execWatchListScanEnd, hc]
  obtain ⟨hentries, hscans, hmem, hwq, hsent⟩ := fireEntries_fires (es := s.wat.entries.filter (scanFires s c))
    (fun e he => hgroups e (List.mem_filter.mp he).1) u
  generalize fireEntries (s.wat.entries.filter (scanFires s c)) u = v at *
  refine ⟨_, hexec, hscans, hentries.trans ?_, hmem, hwq, fun e he hf => ?_, fun i _ => clearFilter_bits c.home c.slice v i⟩
  · exact List.filter_congr fun e he => by rw [any_uid_filter hnodup _ he]
  · obtain ⟨f, hf, n, rfl⟩ := hsent e (List.mem_filter.mpr ⟨he, hf⟩)
    exact ⟨_, hf, rfl, rfl, rfl, rfl, rfl⟩

/-! Deadlines. -/

/-- R221: a wait whose slots have all been answered and of which none has fired ends at its deadline. -/
theorem runMicro_slotWait_late {mask d : Nat} {all : Bool} {s : State} (hd : d ≤ s.tick) (hne : namedSlots mask ≠ [])
    (harmed : ∀ i ∈ namedSlots mask, (s.g.slot i).st = .armed ∧ (s.g.slot i).answered = true) :
    runMicro (.slotWait mask all (some d)) s = .done (endWait mask true s) := by
  have hnamed : (namedSlots mask).filter (fun i => (s.g.slot i).st != .empty) = namedSlots mask :=
    List.filter_eq_self.mpr fun i hi => by simp [(harmed i hi).1]
  have hany : (namedSlots mask).any (fun i => (s.g.slot i).st == .fired) = false :=
    List.any_eq_false.mpr fun i hi => by simp [(harmed i hi).1]
  have hall : (namedSlots mask).all (fun i => (s.g.slot i).st == .fired) = false := by
    obtain ⟨i, hi⟩ := List.exists_mem_of_ne_nil _ hne
    exact List.all_eq_false.mpr ⟨i, hi, by simp [(harmed i hi).1]⟩
  have hlate : (namedSlots mask).all (fun i => (s.g.slot i).answered) = true := List.all_eq_true.mpr fun i hi => (harmed i hi).2
  change runSlotWait mask all (some d) s = _
  unfold runSlotWait
  simp only [hnamed, hany, hall, hlate, hd, ite_self, Bool.false_eq_true, if_false, decide_true, Bool.and_self, if_true]

/-- R221, R222: a wait in which no slot has fired consumes none. -/
theorem endWait_unfired {mask : Nat} {s : State} (hfired : (namedSlots mask).filter (fun i => (s.g.slot i).st == .fired) = []) (timeout : Bool) :
    { endWait mask timeout s with sp := s.sp, g := { (endWait mask timeout s).g with wstat := s.g.wstat, wakePending := s.g.wakePending } } = s ∧
      bitsOf (endWait mask timeout s).g.wstat.toNat 3 0 = 0 := by
  unfold endWait
  rw [hfired]
  have hbits (a b : Bool) : bitsOf (BitVec.ofNat 64 (slotMask [] + slotMask [] * 16 + bit01 a * 256 + bit01 b * 512)).toNat 3 0 = 0 := by
    cases a <;> cases b <;> decide
  exact ⟨rfl, hbits timeout s.sp.restored⟩

/-- R221, R329: the wait of a resident group ends at its deadline. -/
theorem waitvDeadline_ends {s u : State} {gid num mask d : Nat} {all : Bool} (h : At s gid num u)
    (hpend : u.sp.pend = [.slotWait mask all (some d), .acquire .pod]) (hres : u.g.residence = .resident) (hd : d ≤ s.tick)
    (hne : namedSlots mask ≠ []) (harmed : ∀ i ∈ namedSlots mask, (u.g.slot i).st = .armed ∧ (u.g.slot i).answered = true) :
    ∃ v, exec (.waitvDeadline gid num) s = .next (unfocus v) ∧ v.sp.pend = [] ∧ v.g.slots = u.g.slots ∧
      bitOf v.g.wstat.toNat 8 = true ∧ bitsOf v.g.wstat.toNat 3 0 = 0 ∧ NoL1 u v ∧ v.g.regs = u.g.regs ∧ v.g.sregs = u.g.sregs ∧
      v.mem = s.mem ∧ v.wq = s.wq := by
  obtain ⟨hmem, hwq, htick⟩ := at_keeps h
  have hfired : (namedSlots mask).filter (fun i => (u.g.slot i).st == .fired) = [] :=
    List.filter_eq_nil_iff.mpr fun i hi => by simp [(harmed i hi).1]
  obtain ⟨hend, hbits⟩ := endWait_unfired hfired true
  obtain ⟨-, hlate, -⟩ := endWait_slots mask true u
  have hrun : runMicros [.slotWait mask all (some d), .acquire .pod] u = runMicros [.acquire .pod] (endWait mask true u) :=
    runMicros_done (runMicro_slotWait_late (htick.symm ▸ hd) hne harmed) _
  generalize endWait mask true u = e at *
  have hframe := runMicros_acquire_frame .pod e
  have hL1 : NoL1 u (runMicros [.acquire .pod] e) := runMicros_acquire (by decide) (congrArg (fun v : State => v.g.die) hend :)
    (congrArg (fun v : State => v.g.core) hend :)
  have hover := runMicros_acquire_pend .pod e
  generalize runMicros [.acquire .pod] e = v at *
  have hexec : exec (.waitvDeadline gid num) s = .next (unfocus v) := by
    rw [← hrun]
    exact congrArg Host.Outcome.next (resumeSplit_of_at h hpend hres
      ((congrArg (fun x : State => x.g.gid) (hrun.trans rfl)).trans ((congrArg (fun x : State => x.g.gid) hframe :).trans (congrArg (fun x : State => x.g.gid) hend :)))
      ((congrArg State.groups hrun).trans ((congrArg State.groups hframe :).trans (congrArg State.groups hend :))))
  have hvg : v.g = e.g := (congrArg State.g hframe :)
  refine ⟨v, hexec, hover, ?_, hvg ▸ hlate, hvg ▸ hbits, hL1, ?_, ?_, ?_, ?_⟩
  · exact (congrArg Group.slots hvg).trans (congrArg (fun x : State => x.g.slots) hend :)
  · exact (congrArg Group.regs hvg).trans (congrArg (fun x : State => x.g.regs) hend :)
  · exact (congrArg Group.sregs hvg).trans (congrArg (fun x : State => x.g.sregs) hend :)
  · exact (congrArg State.mem hframe :).trans ((congrArg State.mem hend :).trans hmem)
  · exact (congrArg State.wq hframe :).trans ((congrArg State.wq hend :).trans hwq)

/-- R329, R331: the wait of a group that is not resident stays as it is. -/
theorem waitvDeadline_stays {s u : State} {gid num : Nat} (h : At s gid num u) (hres : u.g.residence ≠ .resident) :
    exec (.waitvDeadline gid num) s = .next (unfocus u) := by
  have hgoes : (fun t : State => if t.sp.pend = [] ∨ t.g.residence ≠ .resident then t else runMicros t.sp.pend t) u = u := if_pos (.inr hres)
  exact congrArg Host.Outcome.next ((onSplit_of_at h (congrArg (fun v : State => v.g.gid) hgoes) (congrArg State.groups hgoes)).trans
    (congrArg unfocus hgoes))

/-! Purges and wakes. -/

/-- R328: an entry that is purged is gone, and the bit W of its line may be cleared. -/
theorem purgeEntry_purges (c : Context) (e : WatchEntry) (s : State) :
    (purgeEntry c e s).wat.entries = s.wat.entries.filter (fun f => f.uid != e.uid) ∧ withWatchesOf s (purgeEntry c e s) = s := by
  unfold purgeEntry
  dsimp only
  split
  · exact ⟨rfl, rfl⟩
  · split <;> exact ⟨rfl, rfl⟩

theorem foldl_purgeEntry (c : Context) (es : List WatchEntry) (s : State) : let t := es.foldl (fun u e => purgeEntry c e u) s
    t.wat.entries = s.wat.entries.filter (fun f => !es.any (fun e => e.uid == f.uid)) ∧ withWatchesOf s t = s := by
  induction es generalizing s with
  | nil => exact ⟨(List.filter_eq_self.mpr fun _ _ => rfl).symm, rfl⟩
  | cons e es ih =>
    obtain ⟨hentries, hframe⟩ := ih (purgeEntry c e s)
    obtain ⟨hfirst, hkeep⟩ := purgeEntry_purges c e s
    refine ⟨hentries.trans ?_, ?_⟩
    · rw [hfirst, List.filter_filter]
      refine List.filter_congr fun f _ => ?_
      rw [List.any_cons, Bool.not_or, Bool.and_comm, bne, Bool.beq_comm]
    · exact (congrArg (withWatchesOf s) hframe).trans hkeep

/-- R328: the state with the acknowledgements of the purge of a destroyed context. -/
def acknowledged (c : Context) (acks : List Nat) (t : State) : State :=
  { t with ten := { t.ten with dying := updateFirst (fun x => x.1.num == c.num) (fun x => (x.1, acks)) t.ten.dying } }

/-- R328: a slice removes its entries of a destroyed context and acknowledges. -/
theorem watchPurge_purges {s : State} {c : Context} {acks : List Nat} {die slice : Nat}
    (hdying : s.ten.dying.find? (fun d => d.1.num == c.num) = some (c, acks)) (hdie : die < 4) (hslice : slice < 256)
    (hnew : die * 256 + slice ∉ acks) (hmore : acks.length + 1 ≠ 1024) (hnodup : (s.wat.entries.map WatchEntry.uid).Nodup) :
    ∃ t, exec (.watchPurge c.num die slice) s = .next t ∧
      t.wat.entries = s.wat.entries.filter (fun e => !(e.ctx == c.num && e.pkg == s.pkg && e.home == agentOf s die && e.slice == slice)) ∧
      t.ten.dying = updateFirst (fun x => x.1.num == c.num) (fun x => (x.1, acks ++ [die * 256 + slice])) s.ten.dying ∧
      t.mem = s.mem ∧ t.wq = s.wq := by
  have hgo : ¬((4 ≤ die ∧ agentOf s die / 4 = s.pkg) ∨ 256 ≤ slice ∨ memNat (die * 256 + slice) acks = true) := by
    rw [memNat_iff]
    exact fun h => h.elim (fun h => by omega) (fun h => h.elim (fun h => by omega) hnew)
  have hover (t : State) : purgeOver t c.num (acks ++ [die * 256 + slice]) = false := by
    have hlength : ((acks ++ [die * 256 + slice]).length == 1024) = false := by simpa using hmore
    rw [purgeOver, hlength, Bool.false_and]
  let p (e : WatchEntry) : Bool := e.ctx == c.num && e.pkg == s.pkg && e.home == agentOf s die && e.slice == slice
  obtain ⟨hentries, hframe⟩ := foldl_purgeEntry c (s.wat.entries.filter p) s
  have hexec : exec (.watchPurge c.num die slice) s = .next
      (acknowledged c (acks ++ [die * 256 + slice]) ((s.wat.entries.filter p).foldl (fun u e => purgeEntry c e u) s)) := by
    change execWatchPurge c.num die slice s = _
    simp only [execWatchPurge, hdying, if_pos hdie, if_neg hgo, hover, Bool.false_eq_true, if_false]
    rfl
  generalize (s.wat.entries.filter p).foldl (fun u e => purgeEntry c e u) s = t at *
  refine ⟨_, hexec, hentries.trans (List.filter_congr fun e he => congrArg not (any_uid_filter hnodup p he)), ?_, (congrArg State.mem hframe :),
    (congrArg State.wq hframe :)⟩
  exact congrArg (updateFirst _ _) (congrArg (fun v : State => v.ten.dying) hframe :)

/-- R331: the context of a woken saved group becomes runnable. -/
theorem wakeMessage_wakes {s : State} {g : Group} (hg : g ∈ s.groups) (hres : g.residence = .saved)
    (hwake : g.wakePending ≠ []) : exec (.wakeMessage g.ctx) s = .next { s with ten := { s.ten with
      ctxs := updateFirst (fun c => c.num == g.ctx) (fun c => { c with runnable := true }) s.ten.ctxs } } := by
  have hany : (allGroups s).any (fun x => x.ctx == g.ctx && wokenSaved s x) = true := by
    refine List.any_eq_true.mpr ⟨g, mem_allGroups_of_mem hg, ?_⟩
    simp [wokenSaved, hres, hwake]
  change execWakeMessage g.ctx s = _
  rw [execWakeMessage, if_pos hany]
  rfl

/-- Settles O41, clause by clause. -/
theorem watchesFire : Obligations.WatchesFire := by
  unfold Obligations.WatchesFire
  refine ⟨fun s r g l h => ⟨watchRegistration_fires h, fun hno inList hroom => watchRegistration_kept h hno hroom,
      fun hno hfull => watchRegistration_forced h hno hfull⟩,
    fun s g n hg => watchWithdraw_drops n hg,
    fun s f g x hidle hgid hf hg hfound hres hx => watchFireDelivery_reaches hidle hgid hf hg hfound hres hx,
    fun s c die slice hc hnodup hgroups => watchListScanEnd_fires hc hnodup hgroups,
    fun s u gid num mask d all h hpend hres hd hne harmed => waitvDeadline_ends h hpend hres hd hne harmed,
    fun s u gid num h hres => waitvDeadline_stays h hres,
    fun s c acks die slice hdying hdie hslice hnew hmore hnodup => watchPurge_purges hdying hdie hslice hnew hmore hnodup,
    fun s g hg _ hres hwake => wakeMessage_wakes hg hres hwake⟩

end Sys2Proof.Machine
end
